-- ==== Sys2Proof/Word.lean ====
section
/-! DEFINITION. Word.lean: the word types of the Vecor architecture (R1, R44). -/

namespace Sys2Proof

/-- A 64-bit scalar register, address or memory granule (R44). -/
abbrev Word := BitVec 64

/-- One byte of memory (R1: multi-byte values are little-endian). -/
abbrev Byte := BitVec 8

/-- One instruction word (R59). -/
abbrev IWord := BitVec 32

end Sys2Proof
end

