-- ==== Sys2Proof/Config.lean ====
section
/-! DEFINITION. Config.lean: what one implementation fixes and what the manual leaves open.
Every constant here has NO BODY: nothing can evaluate it or prove a value of it (log 9). -/

namespace Sys2Proof.Config

/-- A value the manual leaves open, one for each count of the state's `fresh` counter (log 9). -/
opaque freeWord : Nat → BitVec 64

/-- A yes-or-no outcome the manual leaves open (log 9). -/
opaque freeBit : Nat → Bool

/-- Which of the cached entries that an access may use it uses, in the step and for the page or table entry named by
these numbers, where R335 leaves that open (log 8). -/
opaque tlbPick : Nat → Nat → Nat

/-- The tenant of a hall of another package, at the time of this count (R16, R342; log 28). -/
opaque remoteTenant : Nat → Nat → BitVec 16

/-- Whether the gate of a hall of another package admits a request (0), or the violation cause plus one with which it
refuses it, for a tenant, a physical address and whether it writes (R16, R342; log 28). -/
opaque remoteGate : Nat → BitVec 16 → Nat → Bool → Nat

/-- MODE of a host port of another package, at the time of this count: 0, 1 or 2 by its remainder (R355; log 28). -/
opaque remotePort : Nat → Nat → Nat

/-- The root complex behind a PCIe-only host port refuses AtomicOps, at the time of this count, for the chip and the port that the
number names (R360; log 97). -/
opaque rootRefuses : Nat → Nat → Bool

/-- Nanoseconds of PODT that pass in one step (R6, R48, R384; log 11). -/
opaque elapsed : Nat → Nat

/-- The place of element `e` in the order in which one instruction's conflicting element steps are
performed, where R162 and R190 leave that order open (log 13). -/
opaque elementRank : Nat → Nat → Nat

/-- The byte-string hash the manual names as SHA-512 (R395 to R397; log 15). -/
opaque sha512 : List (BitVec 8) → BitVec 512

/-- Ed25519 verification of a signature over a message under a public key (R395, R399; log 15). -/
opaque ed25519Verify : BitVec 256 → List (BitVec 8) → BitVec 512 → Bool

/-- The Ed25519 signature that the identity key of a die makes (R396, R398; log 15). -/
opaque identitySign : Nat → List (BitVec 8) → BitVec 512

/-- IDPUB of a die: the public identity key of this part (R396; log 15). -/
opaque identityKey : Nat → BitVec 256

/-- The Kolcy root public key held in the boot ROM (R395; log 15). -/
opaque rootKey : BitVec 256

/-- The hash by which a port of a route mask is chosen for a 64-byte line (R379; log 9). -/
opaque portHash : Nat → Nat

end Sys2Proof.Config
end

