-- ==== Sys2Proof/Syntax.lean ====
section
/-! DEFINITION. Syntax.lean: every row of the opcode table, one constructor each.
An instruction carries the fields its row names (R60, R61); a row with no encoding is an event of the
machine and carries what names the place where it happens. A register field that names a mask, a tile,
a latch or a counter has the width of its legal values (R61). -/

namespace Sys2Proof

/-- The fields of a prefix word (R66, Table 4.4). -/
structure Pfx where
  c : BitVec 5
  cv : Bool
  type : BitVec 4
  rnd : BitVec 3
  mask : BitVec 3
  mv : Bool
  z : Bool
  pv : Bool
  sat : Bool
deriving DecidableEq, Repr

/-- V-R fields of an instruction with two vector sources and a mask (R60, R119). -/
structure VOp3 where
  pfx : Option Pfx
  d : BitVec 5
  a : BitVec 5
  b : BitVec 5
  ea : Bool
  eb : Bool
  msk : BitVec 3
deriving DecidableEq, Repr

/-- V-R fields of an instruction with one vector source and a mask (R60, R119). -/
structure VOp2 where
  pfx : Option Pfx
  d : BitVec 5
  a : BitVec 5
  ea : Bool
  msk : BitVec 3
deriving DecidableEq, Repr

/-- V-R fields of a vector compare: d names a mask register (R127). -/
structure VCmpOp where
  pfx : Option Pfx
  d : BitVec 3
  a : BitVec 5
  b : BitVec 5
  ea : Bool
  eb : Bool
  msk : BitVec 3
deriving DecidableEq, Repr

/-- V-A fields of a VAMO word: data, base, index, chain, mask, counter (R151, R161). -/
structure VAmoOp where
  pfx : Option Pfx
  d : BitVec 5
  a : BitVec 5
  b : BitVec 5
  ch : Bool
  msk : BitVec 3
  k : BitVec 3
deriving DecidableEq, Repr

/-- What an external port learns of the port at the other end when it trains (R378): its number, whether its active slot holds a key,
and the latency that training measured. -/
structure PeerPort where
  port : BitVec 8
  keyed : Bool
  lat : BitVec 12
deriving DecidableEq, Repr

/-- The rows of spec/opcode_table.json, in its order. -/
inductive Instr where
  /-- ADD (R83). Writes g[a] + g[b] modulo 2^64 to g[d]. -/
  | add (d a b : BitVec 5)
  /-- SUB (R83). Writes g[a] − g[b] modulo 2^64 to g[d]. -/
  | sub (d a b : BitVec 5)
  /-- AND (R83). Writes the bitwise AND of g[a] and g[b] to g[d]. -/
  | and (d a b : BitVec 5)
  /-- OR (R83). Writes the bitwise OR of g[a] and g[b] to g[d]. -/
  | or (d a b : BitVec 5)
  /-- XOR (R83). Writes the bitwise XOR of g[a] and g[b] to g[d]. -/
  | xor (d a b : BitVec 5)
  /-- ANDN (R83). Writes g[a] AND NOT g[b] to g[d]. -/
  | andn (d a b : BitVec 5)
  /-- ORN (R83). Writes g[a] OR NOT g[b] to g[d]. -/
  | orn (d a b : BitVec 5)
  /-- SLL (R83). Shifts g[a] left by g[b] mod 64 into g[d]. -/
  | sll (d a b : BitVec 5)
  /-- SRL (R83). Shifts g[a] logically right by g[b] mod 64 into g[d]. -/
  | srl (d a b : BitVec 5)
  /-- SRA (R83). Shifts g[a] arithmetically right by g[b] mod 64 into g[d]. -/
  | sra (d a b : BitVec 5)
  /-- ROL (R83). Rotates g[a] left by g[b] mod 64 into g[d]. -/
  | rol (d a b : BitVec 5)
  /-- ROR (R83). Rotates g[a] right by g[b] mod 64 into g[d]. -/
  | ror (d a b : BitVec 5)
  /-- SLT (R83). Writes 1 to g[d] when g[a] is signed-less than g[b], else 0. -/
  | slt (d a b : BitVec 5)
  /-- SLTN (R83). Writes 1 to g[d] when g[a] is unsigned-less than g[b], else 0. -/
  | sltn (d a b : BitVec 5)
  /-- MIN (R83). Writes the signed minimum of g[a] and g[b] to g[d]. -/
  | min (d a b : BitVec 5)
  /-- MAX (R83). Writes the signed maximum of g[a] and g[b] to g[d]. -/
  | max (d a b : BitVec 5)
  /-- MINN (R83). Writes the unsigned minimum of g[a] and g[b] to g[d]. -/
  | minn (d a b : BitVec 5)
  /-- MAXN (R83). Writes the unsigned maximum of g[a] and g[b] to g[d]. -/
  | maxn (d a b : BitVec 5)
  /-- MUL (R83). Writes bits 63:0 of g[a] × g[b] to g[d]. -/
  | mul (d a b : BitVec 5)
  /-- MULH (R83). Writes bits 127:64 of the signed product to g[d]. -/
  | mulh (d a b : BitVec 5)
  /-- MULHN (R83). Writes bits 127:64 of the unsigned product to g[d]. -/
  | mulhn (d a b : BitVec 5)
  /-- DIV (R83). Writes the signed quotient truncated toward zero, with fixed results for zero divisor and overflow. -/
  | div (d a b : BitVec 5)
  /-- DIVN (R83). Writes the unsigned quotient, all ones for a zero divisor. -/
  | divn (d a b : BitVec 5)
  /-- REM (R83). Writes the signed remainder with the sign of the dividend. -/
  | rem (d a b : BitVec 5)
  /-- REMN (R83). Writes the unsigned remainder, x for a zero divisor. -/
  | remn (d a b : BitVec 5)
  /-- CLZ (R83). Writes the count of leading zero bits of g[a]. -/
  | clz (d a : BitVec 5)
  /-- CTZ (R83). Writes the count of trailing zero bits of g[a]. -/
  | ctz (d a : BitVec 5)
  /-- POPC (R83). Writes the number of one bits of g[a]. -/
  | popc (d a : BitVec 5)
  /-- BSWP (R83). Writes g[a] with its bytes reversed. -/
  | bswp (d a : BitVec 5)
  /-- SEXT (R83). Sign-extends g[a] from bit g[b] mod 64. -/
  | sext (d a b : BitVec 5)
  /-- ZEXT (R83). Zero-extends g[a] from bit g[b] mod 64. -/
  | zext (d a b : BitVec 5)
  /-- SELNZ (R83). Writes g[a] when g[b] is nonzero, else 0. -/
  | selnz (d a b : BitVec 5)
  /-- ADDI (R84). Adds the sign-extended immediate to g[a]. -/
  | addi (d a : BitVec 5) (i : BitVec 16)
  /-- ANDI (R84). ANDs g[a] with the zero-extended immediate. -/
  | andi (d a : BitVec 5) (i : BitVec 16)
  /-- ORI (R84). ORs g[a] with the zero-extended immediate. -/
  | ori (d a : BitVec 5) (i : BitVec 16)
  /-- XORI (R84). XORs g[a] with the zero-extended immediate. -/
  | xori (d a : BitVec 5) (i : BitVec 16)
  /-- SLLI (R84). Shifts g[a] left by the immediate amount. -/
  | slli (d a : BitVec 5) (n : BitVec 6)
  /-- SRLI (R84). Shifts g[a] logically right by the immediate amount. -/
  | srli (d a : BitVec 5) (n : BitVec 6)
  /-- SRAI (R84). Shifts g[a] arithmetically right by the immediate amount. -/
  | srai (d a : BitVec 5) (n : BitVec 6)
  /-- RORI (R84). Rotates g[a] right by the immediate amount. -/
  | rori (d a : BitVec 5) (n : BitVec 6)
  /-- SLTI (R84). Signed compare of g[a] against the sign-extended immediate. -/
  | slti (d a : BitVec 5) (i : BitVec 16)
  /-- SLTNI (R84). Unsigned compare of g[a] against the sign-extended immediate. -/
  | sltni (d a : BitVec 5) (i : BitVec 16)
  /-- LDHI (R84). Writes the sign-extended immediate times 2^16 to g[d]. -/
  | ldhi (d : BitVec 5) (i : BitVec 16)
  /-- ADDPC (R84). Writes the instruction address plus the immediate times 2^16 to g[d]. -/
  | addpc (d : BitVec 5) (i : BitVec 16)
  /-- LDB (R87). Loads one byte, sign-extended, after the checks of R86. -/
  | ldb (d a : BitVec 5) (i : BitVec 16)
  /-- LDBN (R87). Loads one byte, zero-extended. -/
  | ldbn (d a : BitVec 5) (i : BitVec 16)
  /-- LDH (R87). Loads two bytes, sign-extended. -/
  | ldh (d a : BitVec 5) (i : BitVec 16)
  /-- LDHN (R87). Loads two bytes, zero-extended. -/
  | ldhn (d a : BitVec 5) (i : BitVec 16)
  /-- LDW (R87). Loads four bytes, sign-extended. -/
  | ldw (d a : BitVec 5) (i : BitVec 16)
  /-- LDWN (R87). Loads four bytes, zero-extended. -/
  | ldwn (d a : BitVec 5) (i : BitVec 16)
  /-- LDD (R87). Loads eight bytes. -/
  | ldd (d a : BitVec 5) (i : BitVec 16)
  /-- STB (R88). Stores the low byte of g[d]; retires before it is performed. -/
  | stb (d a : BitVec 5) (i : BitVec 16)
  /-- STH (R88). Stores the low two bytes of g[d]. -/
  | sth (d a : BitVec 5) (i : BitVec 16)
  /-- STW (R88). Stores the low four bytes of g[d]. -/
  | stw (d a : BitVec 5) (i : BitVec 16)
  /-- STD (R88). Stores all eight bytes of g[d]. -/
  | std (d a : BitVec 5) (i : BitVec 16)
  /-- BEQ (R92). Branches when g[a] equals g[b]. -/
  | beq (a b : BitVec 5) (o : BitVec 16)
  /-- BNE (R92). Branches when g[a] differs from g[b]. -/
  | bne (a b : BitVec 5) (o : BitVec 16)
  /-- BLT (R92). Branches when g[a] is signed-less than g[b]. -/
  | blt (a b : BitVec 5) (o : BitVec 16)
  /-- BGE (R92). Branches when g[a] is signed-greater or equal to g[b]. -/
  | bge (a b : BitVec 5) (o : BitVec 16)
  /-- BLTN (R92). Branches when g[a] is unsigned-less than g[b]. -/
  | bltn (a b : BitVec 5) (o : BitVec 16)
  /-- BGEN (R92). Branches when g[a] is unsigned-greater or equal to g[b]. -/
  | bgen (a b : BitVec 5) (o : BitVec 16)
  /-- JAL (R93). Writes PC + 4 to g1 and jumps by the word offset. -/
  | jal (o : BitVec 26)
  /-- JALR (R94). Writes PC + 4 to g[d] and jumps to g[a] + 4 × imm. -/
  | jalr (d a : BitVec 5) (i : BitVec 16)
  /-- FADD (R98). Scalar floating-point addition rounded once. -/
  | fadd (d a b : BitVec 5) (r : BitVec 3) (p : Bool)
  /-- FSUB (R98). Scalar floating-point subtraction. -/
  | fsub (d a b : BitVec 5) (r : BitVec 3) (p : Bool)
  /-- FMUL (R98). Scalar floating-point multiplication. -/
  | fmul (d a b : BitVec 5) (r : BitVec 3) (p : Bool)
  /-- FDIV (R98). Scalar floating-point division. -/
  | fdiv (d a b : BitVec 5) (r : BitVec 3) (p : Bool)
  /-- FSQRT (R98). Scalar floating-point square root. -/
  | fsqrt (d a : BitVec 5) (r : BitVec 3) (p : Bool)
  /-- FMA (R98). Fused multiply-add x × y + old g[d] with one rounding. -/
  | fma (d a b : BitVec 5) (r : BitVec 3) (p : Bool)
  /-- FMIN (R99). Scalar floating-point minimum under the rules of R42. -/
  | fmin (d a b : BitVec 5) (p : Bool)
  /-- FMAX (R99). Scalar floating-point maximum under the rules of R42. -/
  | fmax (d a b : BitVec 5) (p : Bool)
  /-- FEQ (R99). Writes 1 when x equals y. -/
  | feq (d a b : BitVec 5) (p : Bool)
  /-- FLT (R99). Writes 1 when x is less than y. -/
  | flt (d a b : BitVec 5) (p : Bool)
  /-- FLE (R99). Writes 1 when x is less than or equal to y. -/
  | fle (d a b : BitVec 5) (p : Bool)
  /-- FCLASS (R99). Writes a single bit naming the class and sign of x. -/
  | fclass (d a : BitVec 5) (p : Bool)
  /-- FCVTFF (R100). Converts between FP32 and FP64. -/
  | fcvtff (d a : BitVec 5) (r : BitVec 3) (p : Bool)
  /-- FCVTI (R100). Converts a float to I64. -/
  | fcvti (d a : BitVec 5) (r : BitVec 3) (p : Bool)
  /-- FCVTN (R100). Converts a float to unsigned 64-bit. -/
  | fcvtn (d a : BitVec 5) (r : BitVec 3) (p : Bool)
  /-- FCVTW (R100). Converts a float to I32. -/
  | fcvtw (d a : BitVec 5) (r : BitVec 3) (p : Bool)
  /-- FCVTWN (R100). Converts a float to N32. -/
  | fcvtwn (d a : BitVec 5) (r : BitVec 3) (p : Bool)
  /-- FCVTIF (R100). Converts I64 to a float. -/
  | fcvtif (d a : BitVec 5) (r : BitVec 3) (p : Bool)
  /-- FCVTNF (R100). Converts unsigned 64-bit to a float. -/
  | fcvtnf (d a : BitVec 5) (r : BitVec 3) (p : Bool)
  /-- FSGN (R99). Writes x with the sign of y. -/
  | fsgn (d a b : BitVec 5) (p : Bool)
  /-- FSGNN (R99). Writes x with the inverse sign of y. -/
  | fsgnn (d a b : BitVec 5) (p : Bool)
  /-- FSGNX (R99). Writes x with its sign XOR the sign of y. -/
  | fsgnx (d a b : BitVec 5) (p : Bool)
  /-- AMOADD (R103). Atomically adds g[b] to memory at the home and returns the old value. -/
  | amoadd (d a b : BitVec 5) (s : BitVec 3) (q l w : Bool)
  /-- AMOAND (R103). Atomic AND at the home, returning the old value. -/
  | amoand (d a b : BitVec 5) (s : BitVec 3) (q l w : Bool)
  /-- AMOOR (R103). Atomic OR at the home, returning the old value. -/
  | amoor (d a b : BitVec 5) (s : BitVec 3) (q l w : Bool)
  /-- AMOXOR (R103). Atomic XOR at the home, returning the old value. -/
  | amoxor (d a b : BitVec 5) (s : BitVec 3) (q l w : Bool)
  /-- AMOMIN (R103). Atomic signed minimum at the home. -/
  | amomin (d a b : BitVec 5) (s : BitVec 3) (q l w : Bool)
  /-- AMOMAX (R103). Atomic signed maximum at the home. -/
  | amomax (d a b : BitVec 5) (s : BitVec 3) (q l w : Bool)
  /-- AMOMINN (R103). Atomic unsigned minimum at the home. -/
  | amominn (d a b : BitVec 5) (s : BitVec 3) (q l w : Bool)
  /-- AMOMAXN (R103). Atomic unsigned maximum at the home. -/
  | amomaxn (d a b : BitVec 5) (s : BitVec 3) (q l w : Bool)
  /-- AMOSWP (R103). Atomic swap at the home. -/
  | amoswp (d a b : BitVec 5) (s : BitVec 3) (q l w : Bool)
  /-- AMOFADD (R103). Atomic floating-point add at the home, RNE, no flags. -/
  | amofadd (d a b : BitVec 5) (s : BitVec 3) (q l w : Bool)
  /-- CAS (R104). Compares memory with g[d] and swaps in g[b], returning the old value. -/
  | cas (d a b : BitVec 5) (s : BitVec 3) (q l w : Bool)
  /-- CAS2 (R105). 16-byte all-or-nothing compare-and-swap on register pairs. -/
  | cas2 (d a b : BitVec 5) (s : BitVec 3) (q l : Bool)
  /-- LDA (R106). Load with acquire at the given scope. -/
  | lda (d a : BitVec 5) (s : BitVec 3) (w : Bool)
  /-- STREL (R106). Store with release at the given scope. -/
  | strel (d a : BitVec 5) (s : BitVec 3) (w : Bool)
  /-- FENCE (R108). Full, release or acquire fence at a scope over covered accesses. -/
  | fence (s : BitVec 3) (q l : Bool)
  /-- VDRAIN (R109). Waits for earlier non-blocking vector memory operations, then fences. -/
  | vdrain (k s : BitVec 3) (q l : Bool)
  /-- BARINIT (R199). Sets a barrier's target and scope and clears its members. -/
  | barinit (a b : BitVec 5) (s : BitVec 3)
  /-- BARJOIN (R199). Makes the unit a member of a barrier. -/
  | barjoin (a : BitVec 5)
  /-- BARLEAVE (R199). Removes the unit from a barrier and lowers its target. -/
  | barleave (a : BitVec 5)
  /-- BARARR (R199). Releases at the barrier's scope and arrives, completing a generation when ARR reaches TGT. -/
  | bararr (d a : BitVec 5)
  /-- BARWAIT (R199). Waits until GEN differs from g[b], then acquires. -/
  | barwait (d a b : BitVec 5)
  /-- BARSYN (R199). Arrives at a barrier and waits on its own generation. -/
  | barsyn (d a : BitVec 5)
  /-- KWAIT (R201). Waits until a counter, or all seven, reach COUNT 0. -/
  | kwait (k : BitVec 3)
  /-- KRD (R201). Reads a completion counter at once. -/
  | krd (d : BitVec 5) (k : BitVec 3)
  /-- KSET (R201). Waits for COUNT 0, then sets ERR and STATUS from g[a]. -/
  | kset (d a : BitVec 5) (k : BitVec 3)
  /-- KSTAT (R201). Waits for COUNT 0, reads the counter and clears ERR and STATUS. -/
  | kstat (d : BitVec 5) (k : BitVec 3)
  /-- PAUSE (R205). Holds the hart's issue for 32 cycles. -/
  | pause
  /-- YIELD (R205). Marks a point where the dispatcher may pre-empt the unit. -/
  | yield
  /-- WATCH (R204). Binds a landing to an 8-byte word with a descriptor. -/
  | watch (d a b : BitVec 5)
  /-- UNWATCH (R204). Frees a landing by handle. -/
  | unwatch (d a : BitVec 5)
  /-- VWARM (R202). Arms wait entries on scratchpad words at their banks. -/
  | vwarm (d a b : BitVec 5) (m : BitVec 3)
  /-- WAITANY (R205). Waits until a named condition holds or a deadline passes. -/
  | waitany (d a b : BitVec 5)
  /-- PHASE (R206). Waits for the hart's work and arrives at the launch's phase barrier. -/
  | phase (d : BitVec 5)
  /-- LAUNCH (R207). Releases and copies a launch record into a work queue. -/
  | launch (d a b : BitVec 5) (s : BitVec 3)
  /-- CANCEL (R208). Cancels a launch, graph, cohort phases or the whole job of the VF. -/
  | cancel (d a : BitVec 5) (n : BitVec 2)
  /-- EXIT (R209). Waits, releases, leaves barriers, releases the claim and reports completion. -/
  | exit (a : BitVec 5) (s : BitVec 3)
  /-- TRAP (R113). Takes the software trap after completing, with n in EVAL. -/
  | trap (n h : BitVec 5)
  /-- ERET (R316). Returns to EPC and the mode in ESTAT.PREV, clearing BUSY. -/
  | eret
  /-- SRD (R112). Reads a system register into g[d]. -/
  | srd (d n h : BitVec 5)
  /-- SWR (R112). Writes g[a] to a system register and returns the old value. -/
  | swr (d a n h : BitVec 5)
  /-- SSET (R112). ORs g[a] into a system register and returns the old value. -/
  | sset (d a n h : BitVec 5)
  /-- SCLR (R112). Clears the bits of g[a] in a system register and returns the old value. -/
  | sclr (d a n h : BitVec 5)
  /-- SVC (R113). Calls the next higher mode after completing. -/
  | svc (n h : BitVec 5)
  /-- LINEWB (R114). Writes a modified line back to memory. -/
  | linewb (a : BitVec 5)
  /-- LINEINV (R114). Writes a line back and removes it from device caches. -/
  | lineinv (a : BitVec 5)
  /-- TLBSH (R115). Invalidates translations of a page or of a VF. -/
  | tlbsh (d a k : BitVec 5)
  /-- FENCEI (R116). Makes earlier stores visible to the hart's later fetches. -/
  | fencei
  /-- WFI (R117). Stops the hart until an interrupt, pre-emption or wake. -/
  | wfi
  /-- HALT (R117). Stops the hart until hall reset or a census restart. -/
  | halt
  /-- VCLAIM (R137). Releases any held claim and grants lanes, share and span. -/
  | vclaim (p : Option Pfx) (d a b : BitVec 5)
  /-- VREL (R139). Waits for vector work and releases lanes, share and span. -/
  | vrel (p : Option Pfx)
  /-- SETVL (R140). Re-reads the grant and sets VL from the requested length. -/
  | setvl (p : Option Pfx) (d a : BitVec 5)
  /-- SETVM (R141). Writes VMODE and sets VL as SETVL does. -/
  | setvm (p : Option Pfx) (d a b : BitVec 5)
  /-- VSPILL (R142). Stores the first VLMAXB bytes of a vector register to memory. -/
  | vspill (p : Option Pfx) (d a : BitVec 5)
  /-- VFILL (R142). Loads a vector register from memory. -/
  | vfill (p : Option Pfx) (d a : BitVec 5)
  /-- ZSPILL (R142). Stores a tile row by row as FP32. -/
  | zspill (p : Option Pfx) (d : BitVec 2) (a : BitVec 5)
  /-- ZFILL (R142). Loads a tile row by row from memory. -/
  | zfill (p : Option Pfx) (d : BitVec 2) (a : BitVec 5)
  /-- VADD (R125). Element-wise integer addition, saturable. -/
  | vadd (o : VOp3)
  /-- VSUB (R125). Element-wise integer subtraction, saturable. -/
  | vsub (o : VOp3)
  /-- VRSUB (R125). Element-wise reverse subtraction, saturable. -/
  | vrsub (o : VOp3)
  /-- VMUL (R125). Element-wise low product, saturable. -/
  | vmul (o : VOp3)
  /-- VMULH (R125). Element-wise signed high product. -/
  | vmulh (o : VOp3)
  /-- VMULHN (R125). Element-wise unsigned high product. -/
  | vmulhn (o : VOp3)
  /-- VDIV (R125). Element-wise signed division. -/
  | vdiv (o : VOp3)
  /-- VDIVN (R125). Element-wise unsigned division. -/
  | vdivn (o : VOp3)
  /-- VREM (R125). Element-wise signed remainder. -/
  | vrem (o : VOp3)
  /-- VREMN (R125). Element-wise unsigned remainder. -/
  | vremn (o : VOp3)
  /-- VMIN (R125). Element-wise signed minimum. -/
  | vmin (o : VOp3)
  /-- VMAX (R125). Element-wise signed maximum. -/
  | vmax (o : VOp3)
  /-- VMINN (R125). Element-wise unsigned minimum. -/
  | vminn (o : VOp3)
  /-- VMAXN (R125). Element-wise unsigned maximum. -/
  | vmaxn (o : VOp3)
  /-- VAND (R125). Element-wise AND. -/
  | vand (o : VOp3)
  /-- VOR (R125). Element-wise OR. -/
  | vor (o : VOp3)
  /-- VXOR (R125). Element-wise XOR. -/
  | vxor (o : VOp3)
  /-- VSLL (R125). Element-wise left shift. -/
  | vsll (o : VOp3)
  /-- VSRL (R125). Element-wise logical right shift. -/
  | vsrl (o : VOp3)
  /-- VSRA (R125). Element-wise arithmetic right shift. -/
  | vsra (o : VOp3)
  /-- VCMPEQ (R127). Writes mask bits where elements are equal. -/
  | vcmpeq (o : VCmpOp)
  /-- VCMPNE (R127). Writes mask bits where elements differ. -/
  | vcmpne (o : VCmpOp)
  /-- VCMPLT (R127). Writes mask bits for signed less-than. -/
  | vcmplt (o : VCmpOp)
  /-- VCMPLE (R127). Writes mask bits for signed less-or-equal. -/
  | vcmple (o : VCmpOp)
  /-- VCMPLTN (R127). Writes mask bits for unsigned less-than. -/
  | vcmpltn (o : VCmpOp)
  /-- VCMPLEN (R127). Writes mask bits for unsigned less-or-equal. -/
  | vcmplen (o : VCmpOp)
  /-- VMERGE (R128). Selects vb or va per element by the mask. -/
  | vmerge (o : VOp3)
  /-- VMV (R128). Copies va to vd element-wise. -/
  | vmv (o : VOp2)
  /-- VBCAST (R128). Broadcasts the low bits of g[a] to every element. -/
  | vbcast (p : Option Pfx) (d a : BitVec 5) (m : BitVec 3)
  /-- VID (R128). Writes each element's index. -/
  | vid (p : Option Pfx) (d : BitVec 5) (m : BitVec 3)
  /-- VEXT (R128). Extracts element U(g[b]) into g[d]. -/
  | vext (p : Option Pfx) (d a b : BitVec 5) (x : Bool)
  /-- VINS (R128). Inserts g[a] into element U(g[b]). -/
  | vins (p : Option Pfx) (d a b : BitVec 5)
  /-- VWMUL (R129). Widening exact multiplication into a register group of two. -/
  | vwmul (o : VOp3)
  /-- VWADD (R129). Widening exact addition into a register group of two. -/
  | vwadd (o : VOp3)
  /-- VFADD (R130). Element-wise floating-point addition. -/
  | vfadd (o : VOp3)
  /-- VFSUB (R130). Element-wise floating-point subtraction. -/
  | vfsub (o : VOp3)
  /-- VFMUL (R130). Element-wise floating-point multiplication. -/
  | vfmul (o : VOp3)
  /-- VFDIV (R130). Element-wise floating-point division. -/
  | vfdiv (o : VOp3)
  /-- VFSQRT (R130). Element-wise square root. -/
  | vfsqrt (o : VOp2)
  /-- VFMA (R130). Element-wise x × y + w with one rounding. -/
  | vfma (o : VOp3)
  /-- VFMS (R130). Element-wise x × y − w with one rounding. -/
  | vfms (o : VOp3)
  /-- VFNMA (R130). Element-wise −(x × y) + w with one rounding. -/
  | vfnma (o : VOp3)
  /-- VFMIN (R131). Element-wise floating-point minimum. -/
  | vfmin (o : VOp3)
  /-- VFMAX (R131). Element-wise floating-point maximum. -/
  | vfmax (o : VOp3)
  /-- VFABS (R131). Clears each element's sign bit. -/
  | vfabs (o : VOp2)
  /-- VFNEG (R131). Inverts each element's sign bit. -/
  | vfneg (o : VOp2)
  /-- VFCMPEQ (R131). Writes mask bits for floating-point equality. -/
  | vfcmpeq (o : VCmpOp)
  /-- VFCMPLT (R131). Writes mask bits for floating-point less-than. -/
  | vfcmplt (o : VCmpOp)
  /-- VFCMPLE (R131). Writes mask bits for floating-point less-or-equal. -/
  | vfcmple (o : VCmpOp)
  /-- VFCLASS (R131). Writes each element's class bit. -/
  | vfclass (o : VOp2)
  /-- VFRCP (R132). Element-wise reciprocal, correctly rounded. -/
  | vfrcp (o : VOp2)
  /-- VFRSQ (R132). Element-wise reciprocal square root. -/
  | vfrsq (o : VOp2)
  /-- VFEX2 (R132). Element-wise 2^x. -/
  | vfex2 (o : VOp2)
  /-- VFLG2 (R132). Element-wise log2 x. -/
  | vflg2 (o : VOp2)
  /-- VFTNH (R132). Element-wise tanh x. -/
  | vftnh (o : VOp2)
  /-- VFSIG (R132). Element-wise logistic sigmoid. -/
  | vfsig (o : VOp2)
  /-- VFEXP (R132). Element-wise e^x. -/
  | vfexp (o : VOp2)
  /-- VFSCL (R130). Element-wise scaling by 2^n. -/
  | vfscl (o : VOp3)
  /-- VCVT (R134). Converts elements between types under Table 2.8. -/
  | vcvt (p : Option Pfx) (d a : BitVec 5) (t : BitVec 4) (x : Bool) (m : BitVec 3)
  /-- VCVTEF (R135). Narrowing conversion that also writes the residual to vc; always prefixed. -/
  | vcvtef (p : Pfx) (d a : BitVec 5) (t : BitVec 4) (x : Bool) (m : BitVec 3)
  /-- VFTOI (R134). Converts floats to integers under rule FI. -/
  | vftoi (p : Option Pfx) (d a : BitVec 5) (t : BitVec 4) (x : Bool) (m : BitVec 3)
  /-- VITOF (R134). Converts integers to floats under rule IF. -/
  | vitof (p : Option Pfx) (d a : BitVec 5) (t : BitVec 4) (x : Bool) (m : BitVec 3)
  /-- VREDSUM (R143). Wrapping integer sum reduction into vd[0]. -/
  | vredsum (o : VOp3)
  /-- VREDMIN (R143). Signed minimum reduction. -/
  | vredmin (o : VOp3)
  /-- VREDMAX (R143). Signed maximum reduction. -/
  | vredmax (o : VOp3)
  /-- VREDMINN (R143). Unsigned minimum reduction. -/
  | vredminn (o : VOp3)
  /-- VREDMAXN (R143). Unsigned maximum reduction. -/
  | vredmaxn (o : VOp3)
  /-- VREDAND (R143). Bitwise AND reduction. -/
  | vredand (o : VOp3)
  /-- VREDOR (R143). Bitwise OR reduction. -/
  | vredor (o : VOp3)
  /-- VREDXOR (R143). Bitwise XOR reduction. -/
  | vredxor (o : VOp3)
  /-- VFREDSUM (R42). Floating-point sum over the fixed binary tree. -/
  | vfredsum (o : VOp3)
  /-- VFREDMIN (R42). Floating-point minimum over the fixed tree. -/
  | vfredmin (o : VOp3)
  /-- VFREDMAX (R42). Floating-point maximum over the fixed tree. -/
  | vfredmax (o : VOp3)
  /-- VSCAN (R144). Inclusive wrapping integer scan. -/
  | vscan (o : VOp3)
  /-- VSCANX (R144). Exclusive wrapping integer scan. -/
  | vscanx (o : VOp3)
  /-- VFSCAN (R43). Floating-point running scan in ascending index. -/
  | vfscan (o : VOp3)
  /-- VSLUP (R146). Slides elements up by n. -/
  | vslup (p : Option Pfx) (d a b : BitVec 5) (x : Bool) (m : BitVec 3)
  /-- VSLDN (R146). Slides elements down by n. -/
  | vsldn (p : Option Pfx) (d a b : BitVec 5) (x : Bool) (m : BitVec 3)
  /-- VPERM (R146). Gathers elements of va by index vector. -/
  | vperm (o : VOp3)
  /-- VPACK (R146). Packs the active elements to the front. -/
  | vpack (o : VOp2)
  /-- VUNPACK (R146). Spreads packed elements to the active positions. -/
  | vunpack (o : VOp2)
  /-- VXCHG (R148). Exchanges element blocks between span positions. -/
  | vxchg (p : Option Pfx) (d a b : BitVec 5) (x : Bool) (m : BitVec 3)
  /-- VREV (R146). Reverses element order. -/
  | vrev (o : VOp2)
  /-- MAND (R149). Mask AND. -/
  | mand (p : Option Pfx) (d a b : BitVec 3)
  /-- MOR (R149). Mask OR. -/
  | mor (p : Option Pfx) (d a b : BitVec 3)
  /-- MXOR (R149). Mask XOR. -/
  | mxor (p : Option Pfx) (d a b : BitVec 3)
  /-- MANDN (R149). Mask AND NOT. -/
  | mandn (p : Option Pfx) (d a b : BitVec 3)
  /-- MNOT (R149). Mask NOT. -/
  | mnot (p : Option Pfx) (d a : BitVec 3)
  /-- MSET (R149). Sets mask bits below VL. -/
  | mset (p : Option Pfx) (d : BitVec 3)
  /-- MCLR (R149). Clears mask bits below VL. -/
  | mclr (p : Option Pfx) (d : BitVec 3)
  /-- MPOP (R149). Counts active set mask bits into g[d]. -/
  | mpop (p : Option Pfx) (d : BitVec 5) (a m : BitVec 3)
  /-- MFIRST (R149). Writes the least active set index, or all ones. -/
  | mfirst (p : Option Pfx) (d : BitVec 5) (a m : BitVec 3)
  /-- MFROMV (R149). Sets mask bits where vector elements are nonzero. -/
  | mfromv (p : Option Pfx) (d : BitVec 3) (a : BitVec 5) (x : Bool) (m : BitVec 3)
  /-- MTOV (R149). Writes mask bits as integer elements 0 or 1. -/
  | mtov (p : Option Pfx) (d : BitVec 5) (a m : BitVec 3)
  /-- MSBF (R149). Sets bits before the first active set bit. -/
  | msbf (p : Option Pfx) (d a m : BitVec 3)
  /-- VLD (R158). Unit-stride vector load. -/
  | vld (p : Option Pfx) (d a : BitVec 5) (m : BitVec 3) (e : BitVec 2) (k : BitVec 3)
  /-- VLDS (R158). Strided vector load. -/
  | vlds (p : Option Pfx) (d a b : BitVec 5) (m : BitVec 3) (e : BitVec 2) (k : BitVec 3)
  /-- VLDX (R158). Indexed vector load. -/
  | vldx (p : Option Pfx) (d a b : BitVec 5) (c : Bool) (m : BitVec 3) (e : BitVec 2) (k : BitVec 3)
  /-- VLDFF (R159). First-fault load that shortens VL at a later failing element. -/
  | vldff (p : Option Pfx) (d a : BitVec 5) (m : BitVec 3) (e : BitVec 2)
  /-- VST (R158). Unit-stride vector store. -/
  | vst (p : Option Pfx) (d a : BitVec 5) (c : Bool) (m : BitVec 3) (e : BitVec 2) (k : BitVec 3)
  /-- VSTS (R158). Strided vector store. -/
  | vsts (p : Option Pfx) (d a b : BitVec 5) (c : Bool) (m : BitVec 3) (e : BitVec 2) (k : BitVec 3)
  /-- VSTX (R160). Indexed vector store; highest index wins on duplicates. -/
  | vstx (p : Option Pfx) (d a b : BitVec 5) (c : Bool) (m : BitVec 3) (e : BitVec 2) (k : BitVec 3)
  /-- VAMOADD (R161). Indexed atomic add at the homes; fetch form via prefix. -/
  | vamoadd (o : VAmoOp)
  /-- VAMOAND (R161). Indexed atomic AND. -/
  | vamoand (o : VAmoOp)
  /-- VAMOOR (R161). Indexed atomic OR. -/
  | vamoor (o : VAmoOp)
  /-- VAMOXOR (R161). Indexed atomic XOR. -/
  | vamoxor (o : VAmoOp)
  /-- VAMOMIN (R161). Indexed atomic signed minimum. -/
  | vamomin (o : VAmoOp)
  /-- VAMOMAX (R161). Indexed atomic signed maximum. -/
  | vamomax (o : VAmoOp)
  /-- VAMOMINN (R161). Indexed atomic unsigned minimum. -/
  | vamominn (o : VAmoOp)
  /-- VAMOMAXN (R161). Indexed atomic unsigned maximum. -/
  | vamomaxn (o : VAmoOp)
  /-- VAMOFADD (R161). Indexed atomic floating-point add. -/
  | vamofadd (o : VAmoOp)
  /-- VAMOFMIN (R161). Indexed atomic floating-point minimum. -/
  | vamofmin (o : VAmoOp)
  /-- VAMOFMAX (R161). Indexed atomic floating-point maximum. -/
  | vamofmax (o : VAmoOp)
  /-- VAMOSWP (R161). Indexed atomic swap. -/
  | vamoswp (o : VAmoOp)
  /-- VAPND (R163). Sends the active elements as one append request to the page's tail unit. -/
  | vapnd (p : Option Pfx) (d a b : BitVec 5) (c : Bool) (m k : BitVec 3)
  /-- SEAL (R165). Releases at a scope and asks the tail unit to seal the page. -/
  | sealPage (p : Option Pfx) (s : BitVec 3) (a : BitVec 5) (k : BitVec 3)
  /-- INKTAIL (R166). Reads the page's sealed bit and tail. -/
  | inktail (p : Option Pfx) (d a : BitVec 5)
  /-- WINIT (R167). Initialises well lines with anchors. -/
  | winit (p : Option Pfx) (d a : BitVec 5) (c : Bool) (m k : BitVec 3)
  /-- WDEP (R168). Deposits addends into consecutive well elements. -/
  | wdep (p : Option Pfx) (d a : BitVec 5) (c : Bool) (m k : BitVec 3)
  /-- WDEPX (R168). Deposits addends into indexed well elements. -/
  | wdepx (p : Option Pfx) (d a b : BitVec 5) (c : Bool) (m k : BitVec 3)
  /-- WREAD (R169). Reads well elements as FP32. -/
  | wread (p : Option Pfx) (d a : BitVec 5) (m k : BitVec 3)
  /-- WDRAIN (R169). Reads and resets well elements in one step per line. -/
  | wdrain (p : Option Pfx) (d a : BitVec 5) (m k : BitVec 3)
  /-- OLGATH (R175). Gathers 128-byte rows into an operand latch. -/
  | olgath (p : Option Pfx) (d : BitVec 1) (a b : BitVec 5) (y : Bool) (m : BitVec 3)
  /-- ZRANK (R177). Rank-one update of a tile. -/
  | zrank (p : Option Pfx) (d : BitVec 2) (a b : BitVec 5) (x y : Bool) (m : BitVec 3)
  /-- MBLK (R178). Block product of l0 and l1 into a tile over depth K. -/
  | mblk (p : Option Pfx) (d : BitVec 2) (b : BitVec 5)
  /-- ZZERO (R180). Sets every tile element to +0. -/
  | zzero (p : Option Pfx) (d : BitVec 2)
  /-- ZREAD (R180). Reads one tile row into a vector register. -/
  | zread (p : Option Pfx) (d : BitVec 5) (a : BitVec 2) (b : BitVec 5) (m : BitVec 3)
  /-- ZWRITE (R180). Writes one tile row from a vector register. -/
  | zwrite (p : Option Pfx) (d : BitVec 2) (a b : BitVec 5) (x : Bool) (m : BitVec 3)
  /-- ZDEP (R182). Scales a tile and deposits it into a well; always prefixed. -/
  | zdep (p : Pfx) (d : BitVec 5) (a : BitVec 2) (b : BitVec 5) (m : BitVec 3)
  /-- ZDIM (R181). Writes the tile shape and share code to g[d]. -/
  | zdim (p : Option Pfx) (d : BitVec 5)
  /-- COPY (R190). Hands a copy record to the hall's copy engine. -/
  | copy (a : BitVec 5) (s : BitVec 3) (q l : Bool) (k : BitVec 3)
  /-- COLL (R193). Hands a collective record for one rank to the die's collective engine. -/
  | coll (a b : BitVec 5) (s : BitVec 3) (q l : Bool) (k : BitVec 3)
  /-- FLIGHT (R192). Hands a flight record for one rank to the collective engine. -/
  | flight (a b : BitVec 5) (s : BitVec 3) (q l : Bool) (k : BitVec 3)
  /-- IXG (R194). Hands a stream parameter block to the index-stream engine. -/
  | ixg (a : BitVec 5) (s : BitVec 3) (q l : Bool) (k : BitVec 3)
  /-- ROWIN (R195). Opens a read-only window, acquires and starts filling it. -/
  | rowin (d a b : BitVec 5) (s k : BitVec 3)
  /-- ROWOUT (R196). Drops the window named by a handle. -/
  | rowout (a : BitVec 5)
  /-- STORE_ERROR_RESPONSE (R89). An error response to a posting write arrives and enters the store-error queue. -/
  | storeErrorResponse (i : Nat)
  /-- STORE_ERROR_TRAP (R88). A queued store error is taken as a deferred trap at an instruction boundary. -/
  | storeErrorTrap
  /-- VECTOR_MEMORY_COMPLETION (R154). A non-blocking vector memory operation completes and lowers its counter, recording late errors. -/
  | vectorMemoryCompletion (i : Nat)
  /-- TAIL_UNIT_APPEND (R163). The home tail unit performs one append request in one step. -/
  | tailUnitAppend (page : Word) (esize : Nat) (data : List Byte)
  /-- SEAL_REQUEST (R165). The tail unit receives a seal and moves the page to SEALING. -/
  | sealRequest (page : Word)
  /-- SEALING_COMPLETE (R260). PEND reaches 0, the sealed bit is set and the SEAL completes. -/
  | sealingComplete (page : Word)
  /-- WELL_LINE_STEP (R258). A home slice applies one queued line step to a well line. -/
  | wellLineStep (line : Word)
  /-- WELL_LINE_FILL (R257). Data and header of an absent well line arrive and its queue is applied. -/
  | wellLineFill (line : Word) (bad : Bool)
  /-- WELL_LINE_EVICT (R257). The slice replaces a resident well line with an empty queue. -/
  | wellLineEvict (line : Word)
  /-- WELL_LINE_WRITEBACK (R257). Data and header of an evicted well line are written, or the write fails. -/
  | wellLineWriteback (line : Word) (ok : Bool)
  /-- INK_PAGE_FREE (R262). The hall memory manager frees an ink page: unmap, mark and reclaim replicas. -/
  | inkPageFree (page : Word)
  /-- INK_FREE_DRAIN_DONE (R262). READS reaches 0 and RMAP clears, so the tail-table entry is cleared. -/
  | inkFreeDrainDone (page : Word)
  /-- REPLICA_CREATE (R261). The hall memory manager begins copying a sealed page into its pool. -/
  | replicaCreate (page : Word) (hall : BitVec 4)
  /-- REPLICA_COPY_DONE (R261). Every line is copied and the replica is published in RMAP. -/
  | replicaCopyDone (page : Word) (hall : BitVec 4)
  /-- REPLICA_RECLAIM (R261). A published replica moves to Reclaiming. -/
  | replicaReclaim (page : Word) (hall : BitVec 4)
  /-- REPLICA_RECLAIM_DONE (R261). Reads in flight finish and the replica becomes Absent. -/
  | replicaReclaimDone (page : Word) (hall : BitVec 4)
  /-- ENGINE_COMMAND_COMPLETION (R188). An engine command completes, writes any fault record and updates its counter. -/
  | engineCommandCompletion (i : Nat)
  /-- ROWIN_FILL_DONE (R195). Every line of a window is filled and ROWIN completes. -/
  | rowinFillDone (i : Nat)
  /-- WAIT_ENTRY_FIRE (R202). A write to an armed scratchpad word fires its wait entry. -/
  | waitEntryFire (pa : Word)
  /-- LANDING_TRIGGER (R204). A write at the home of a watched word satisfies CMP and queues the landing's action. -/
  | landingTrigger (hall : BitVec 4) (n : BitVec 6)
  /-- LANDING_ACTION (R277). A pending landing action is issued as a wake, flight or launch record. -/
  | landingAction (hall : BitVec 4) (n : BitVec 6)
  /-- BARRIER_WAIT_END (R199). A waiting BARWAIT or BARSYN sees GEN change and acquires. -/
  | barrierWaitEnd
  /-- KWAIT_END (R201). A waiting KWAIT, KSTAT or KSET sees COUNT 0 and finishes. -/
  | kwaitEnd
  /-- WAITANY_END (R205). A waiting WAITANY ends on a condition or deadline and writes its results. -/
  | waitanyEnd
  /-- WFI_WAKE (R117). An interrupt, pre-emption or wake ends WFI. -/
  | wfiWake
  /-- PHASE_COMPLETE (R206). Every member has arrived at the phase barrier; the fence is made and the phase advances. -/
  | phaseComplete (vf : BitVec 10) (serial : BitVec 32)
  /-- PAUSE_EXPIRY (R205). The 32-cycle hold of PAUSE ends. -/
  | pauseExpiry
  /-- UNIT_KILL (R208). A cancelled running unit is killed at its next element-row boundary. -/
  | unitKill (vf : BitVec 10) (serial : BitVec 32) (unit : Nat)
  /-- DISPATCHER_STEP (R307). A hall dispatcher selects a queue and places one unit of work. -/
  | dispatcherStep (hall : BitVec 4)
  /-- PREEMPTION_TIMEOUT (R310). 100 µs after a request without YIELD, the pre-emption is taken. -/
  | preemptionTimeout (vf : BitVec 10) (serial : BitVec 32) (group : Nat)
  /-- LAUNCH_ADMISSION (R302). The dispatcher takes the record at HEAD, checks it, and admits, holds or rejects it. -/
  | launchAdmission (vf : BitVec 10) (q : BitVec 7)
  /-- LAUNCH_COMPLETION (R303). After every unit ends, the dispatcher writes the final completion word and releases successors. -/
  | launchCompletion (vf : BitVec 10) (serial : BitVec 32)
  /-- AGE_BOOST (R307). A waiting queue's wait reaches a multiple of AGE and its boost rises. -/
  | ageBoost (vf : BitVec 10) (q : BitVec 7)
  /-- QPTR_TAIL_WRITE (R299). A producer writes TAIL, ringing the queue doorbell. -/
  | qptrTailWrite (vf : BitVec 10) (q : BitVec 7) (tail : BitVec 32)
  /-- QCFG_WRITE (R298). Writes a queue configuration with its clamping and enable rules. -/
  | qcfgWrite (vf : BitVec 10) (q : BitVec 7) (value : Word)
  /-- CONTEXT_SAVE (R322). A pre-empted group's harts are saved to their slots and its image is written. -/
  | contextSave (vf : BitVec 10) (serial : BitVec 32) (group : Nat)
  /-- RESUMPTION (R324). A saved group is restored on a cluster, regranting lanes and rebuilding latches. -/
  | resumption (vf : BitVec 10) (serial : BitVec 32) (group : Nat) (hall : BitVec 4) (cluster : BitVec 5)
  /-- FAULT_RUN_AHEAD_STOP (R328). Run-ahead stops, rolls back and takes the batched translation fault. -/
  | faultRunAheadStop (stop : BitVec 4)
  /-- SPAN_POSITION_LOST (R221). A remote span position is lost and the hart takes the span-loss fault. -/
  | spanPositionLost (pos : BitVec 3)
  /-- LANE_POOL_CAP_WRITE (R214). Mode P writes CAP, which is clamped and triggers share recomputation. -/
  | lanePoolCapWrite (hall : BitVec 4) (cluster : BitVec 5) (cap : BitVec 8)
  /-- TRFCTL_CLEAR (R234). Writing CLEAR zeroes all ten traffic counters in one step. -/
  | trfctlClear (hall : BitVec 4)
  /-- TRFCTL_FREEZE (R234). Writing FREEZE stops or restarts traffic counting. -/
  | trfctlFreeze (hall : BitVec 4) (on : Bool)
  /-- FQRESP_RETRY (R337). The hypervisor answers RETRY and the held access walks again. -/
  | fqrespRetry (hall : BitVec 4) (token : BitVec 32)
  /-- FQRESP_FORWARD (R337). The hypervisor answers FORWARD and the guest receives the fault. -/
  | fqrespForward (hall : BitVec 4) (token : BitVec 32)
  /-- FQRESP_COMPLETE (R337). The hypervisor answers COMPLETE and a small scalar access completes with FQDATA. -/
  | fqrespComplete (hall : BitVec 4) (token : BitVec 32)
  /-- SHOOTCTL_GO (R339). Writing GO starts a shootdown of a page or of a VF. -/
  | shootctlGo (hall : BitVec 4) (kind : BitVec 2) (vf : BitVec 10)
  /-- SHOOTDOWN_DONE (R115). Every TLB has dropped the entries and every access using them is performed. -/
  | shootdownDone (hall : BitVec 4)
  /-- HOWN_WRITE (R342). Mode P writes a hall's tenant while the hall is in reset. -/
  | hownWrite (hall : BitVec 4) (tenant : BitVec 16)
  /-- HALL_WARM_RESET (R345). RSTREQ 1 resets the hall, writing L2 back. -/
  | hallWarmReset (hall : BitVec 4)
  /-- HALL_FORCED_RESET (R345). RSTREQ 2 resets the hall without write-back, poisoning newer lines. -/
  | hallForcedReset (hall : BitVec 4)
  /-- HALL_RELEASE (R342). RSTREQ 3 releases the hall from reset after the shape check. -/
  | hallRelease (hall : BitVec 4)
  /-- HALL_FENCE (R344). An uncorrectable logic error or rail or clock fault fences the hall. -/
  | hallFence (hall : BitVec 4) (cause : BitVec 4)
  /-- HALL_HANG_TIMEOUT (R344). A request held at the home for 8 µs counts as a hang and fences the hall. -/
  | hallHangTimeout (hall : BitVec 4)
  /-- GWCTL_WRITE (R348). Writes a gallery window's control, opening or revoking it. -/
  | gwctlWrite (hall : BitVec 4) (i : BitVec 5) (value : Word)
  /-- GALLERY_REVOKE_DRAIN_DONE (R348). Every admitted request of a revoked window is performed and BUSY clears. -/
  | galleryRevokeDrainDone (hall : BitVec 4) (i : BitVec 5)
  /-- VIOLATION_LOG_CLEAR (R349). Writing CLR to VLCNT clears the violation log. -/
  | violationLogClear (hall : BitVec 4)
  /-- VF_RESET (R352). Writing VFRST.GO starts a VF reset that closes gates and kills units. -/
  | vfReset (vf : BitVec 10)
  /-- VF_RESET_FLIT_TIMEOUT (R352). An outbound flit unacknowledged 8 µs after gate close ends its operation abandoned. -/
  | vfResetFlitTimeout (vf : BitVec 10) (i : Nat)
  /-- VF_RESET_COMPLETE (R352). Every drain marker returns; BUSY clears and RSTDONE is set. -/
  | vfResetComplete (vf : BitVec 10)
  /-- VFVCAP_WRITE (R351). Writes the VF's VCAP, rounded to a power of two from 512 to 8192. -/
  | vfvcapWrite (vf : BitVec 10) (value : Word)
  /-- PORTCFG_GUAR_WRITE (R353). Writes a port's guarantee, raising SHORTFALL if WIDTH is below it. -/
  | portcfgGuarWrite (hall : BitVec 4) (port : BitVec 4) (guar : BitVec 4)
  /-- HOST_PORT_TRAIN (R354). A host port trains to CXL, PCIe only or down. -/
  | hostPortTrain (port : BitVec 2) (mode : BitVec 2) (gen : BitVec 4) (width : BitVec 8) (cache mem : Bool)
  /-- HOST_PORT_DOWN (R354). A host port goes down and its in-flight accesses end with error responses. -/
  | hostPortDown (port : BitVec 2)
  /-- HOST_SNOOP (R356). A host snoop is answered from the device holder's L2. -/
  | hostSnoop (pa : Word) (invalidate : Bool)
  /-- HOST_CXL_MEM_REQUEST (R362). A host CXL.mem request through an HDM window reaches device memory. -/
  | hostCxlMemRequest (port : BitVec 2) (addr : Word) (wdata : Option Word)
  /-- COLL_ARMING (R267). The lead rank computes the split over usable paths and sends the split flit. -/
  | collArming (i : Nat)
  /-- SPLIT_FLIT (R264). A rank receives the split flit and may begin sending data. -/
  | splitFlit (i : Nat)
  /-- ABORT_FLIT (R407). A rank receives an abort flit and fails its collective. -/
  | abortFlit (i : Nat) (cause : BitVec 4)
  /-- RRU_CONTRIBUTION (R269). A receiver reduction unit applies an arriving contribution and writes a finished element. -/
  | rruContribution (i : Nat) (rank elem : Nat)
  /-- FLIGHT_TRANSFER (R192). A flight transfer arrives and is performed at its destination. -/
  | flightTransfer (i ordinal : Nat)
  /-- PATH_WEIGHT_MEASURE (R266). Every 100 µs each die measures the weight of every usable path. -/
  | pathWeightMeasure (die : BitVec 3)
  /-- WAVELENGTH_DARK (R376). A wavelength fails its test and goes dark; new transfers on the pair wait. -/
  | wavelengthDark (die w : BitVec 3)
  /-- RELAY_ESTABLISHED (R274). The relay for a dark pair is in place, or the pair is lost. -/
  | relayEstablished (src dst : BitVec 3)
  /-- PATH_LOST (R274). Commands with undelivered transfers on the dark pair end with STATUS 3. -/
  | pathLost (src dst : BitVec 3)
  /-- WAVELENGTH_RELIT (R377). After 1 ms of clean test traffic a wavelength is lit and the pair returns to the direct path. -/
  | wavelengthRelit (die w : BitVec 3)
  /-- IXG_REMOTE_ROW_REQUEST (R278). Another hall's index-stream engine reads a forwarded row and writes it to DST. -/
  | ixgRemoteRowRequest (i row : Nat)
  /-- EXT_PORT_TRAIN (R378). An external port trains and exchanges chip, port and tenant. -/
  | extPortTrain (hall : BitVec 4) (port : BitVec 4) (width : BitVec 4) (chip : BitVec 12) (peer : PeerPort) (tenant : BitVec 16)
  /-- EXT_FLIT_RECEIVE (R382). An external flit arrives and is accepted or dropped with a negative acknowledgement. -/
  | extFlitReceive (hall : BitVec 4) (port : BitVec 4) (seq : BitVec 48) (slot : Bool) (type : BitVec 8) (tagOk : Bool)
  /-- NAK_RECEIVED (R382). A negative acknowledgement makes the sender resend from the named SEQ. -/
  | nakReceived (hall : BitVec 4) (port : BitVec 4) (seq : BitVec 48)
  /-- ACK_RECEIVED (R382). A cumulative acknowledgement frees replay flits and may clear switch BUSY. -/
  | ackReceived (hall : BitVec 4) (port : BitVec 4) (seq : BitVec 48)
  /-- PORT_RETRAIN (R382). Eight consecutive NAKs of one flit make the port retrain. -/
  | portRetrain (hall : BitVec 4) (port : BitVec 4)
  /-- RETRAIN_TIMEOUT (R382). A retrain not restored within 1 ms makes the circuit down. -/
  | retrainTimeout (hall : BitVec 4) (port : BitVec 4)
  /-- EPKCTL_SWITCH (R381). Writing SWITCH sends a key marker and moves to the new slot. -/
  | epkctlSwitch (hall : BitVec 4) (port : BitVec 4)
  /-- KEY_LOW (R381). The active slot passes 2^46 flits and KEYLOW is raised. -/
  | keyLow (hall : BitVec 4) (port : BitVec 4)
  /-- KEY_EXHAUSTED (R381). At 2^47 flits the port stops sending data and enters STATE 5. -/
  | keyExhausted (hall : BitVec 4) (port : BitVec 4)
  /-- KEY_EXHAUSTED_TIMEOUT (R381). After 10 µs in STATE 5 the circuit counts as down. -/
  | keyExhaustedTimeout (hall : BitVec 4) (port : BitVec 4)
  /-- FABRIC_PACKET_FORWARD (R379). A packet for another chip is routed on by the route table or ends with an error. -/
  | fabricPacketForward (hall : BitVec 4) (chip : BitVec 12) (hops line : Nat)
  /-- PTP_TIME_FLIT (R383). A time flit is timestamped and PODT is corrected toward the upstream. -/
  | ptpTimeFlit (offset : Int)
  /-- LRSET_WRITE (R393). Mode P marks lanes for retirement. -/
  | lrsetWrite (hall : BitVec 4) (cluster : BitVec 5) (high : Bool) (lanes : Word)
  /-- MPSET_WRITE (R393). Mode P marks array quarters. -/
  | mpsetWrite (hall : BitVec 4) (cluster : BitVec 5) (quarters : BitVec 4)
  /-- SCRUB_LINE (R391). The scrubber reads and corrects one memory line at its interval. -/
  | scrubLine (hall : BitVec 4) (tier2 : Bool) (line : Nat) (corrected uncorrectable : Bool)
  /-- SCRUB_PAUSE_END (R392). A scrub pause ends after 100 ms. -/
  | scrubPauseEnd (hall : BitVec 4)
  /-- MEMORY_UNCORRECTABLE_ERROR (R389). An uncorrectable memory error poisons granules or lines and is logged. -/
  | memoryUncorrectableError (pa : Word) (src : BitVec 8) (synd : Word)
  /-- REGISTER_UNCORRECTABLE_ERROR (R388). An uncorrectable register error rebuilds a latch or kills the owning unit. -/
  | registerUncorrectableError (latch : Option (BitVec 1))
  /-- ERROR_LOG_CLEAR (R394). Writing CLR to ERRCNT clears the error log. -/
  | errorLogClear (hall : BitVec 4)
  /-- ATTESTATION_GO (R398). Writing GO starts an attestation report. -/
  | attestationGo (vf : BitVec 10)
  /-- ATTESTATION_REPORT_DONE (R398). The report is captured, signed and written, and BUSY clears. -/
  | attestationReportDone (vf : BitVec 10)
  /-- KEY_RECORD (R399). Platform firmware verifies a key record and loads the named slot or logs it. -/
  | keyRecord (bytes : List Byte)
  /-- POWER_ON (R403). At power-on each hall verifies the image, trains memory, zeroes it and is released. -/
  | powerOn
  /-- POWER_CAP_ADJUST (R404). Each millisecond the management core lowers or raises a cluster's CAP. -/
  | powerCapAdjust (hall : BitVec 4) (pwr : BitVec 16) (tj : BitVec 8)
  /-- THERMAL_TRIP (R404). TJ reaches 115 °C and the hall is forced into reset. -/
  | thermalTrip (hall : BitVec 4)
  /-- HCTL_STOP (R405). Mode P stops a hart at its next stopping point. -/
  | hctlStop (hall : BitVec 4) (cluster : BitVec 5) (hart : BitVec 3)
  /-- HCTL_RUN (R317). Mode P restarts a stopped or halted hart. -/
  | hctlRun (hall : BitVec 4) (cluster : BitVec 5) (hart : BitVec 3)
  /-- HCTL_RECOV (R405). Sets the cluster's banks into recovery service. -/
  | hctlRecov (hall : BitVec 4) (cluster : BitVec 5) (on : Bool)
  /-- CENSUS_WRITE (R406). A write to the census region ends with an error response. -/
  | censusWrite (pa value : Word)
  /-- REGISTER_WRITE (R400). A write to an aperture register that has no row of its own. -/
  | registerWrite (pa value : Word) (mode : BitVec 2) (vf : BitVec 10)
  /-- ILLEGAL_INSTRUCTION (R69). An encoding that is not an instruction takes the illegal-instruction trap with no effect. -/
  | illegalInstruction (word pfxWord : IWord)
  /-- INSTRUCTION_FETCH_FAULT (R59). A fetch from a misaligned, unmapped or non-NRM address takes the instruction-address or instruction fault. -/
  | instructionFetchFault (code : BitVec 8) (va : Word)
  /-- POSTED_WRITE_PERFORMED (R89). A posting write request, atomic update or deposit reaches its home, is performed, and its response frees a slot of the 256 outstanding requests. -/
  | postedWritePerformed (i : Nat)
  /-- WELL_PAGE_MAP (R255). Mapping a well page clears its elements and sets each line header to anchor 0 with WLF from the page class. -/
  | wellPageMap (page : Word) (wlf : Bool)
  /-- INK_FRAME_MAP (R260). A frame mapped as INK by the Bylyn runtime moves from FREE to OPEN with TAIL 0 and its VF set. -/
  | inkFrameMap (frame : Word) (vf : BitVec 10)
deriving DecidableEq, Repr

end Sys2Proof
end

