-- ==== Sys2Proof/Machine/State.lean ====
section
/-! DEFINITION. State.lean: everything the manual gives the machine, as plain data.
One hart executes (log 1); the halls, virtual functions, engines, fabric and memory of its package
are all here. The state after reset is the module at power-on (R403, log 3, log 4). -/

namespace Sys2Proof.Machine

/-! ## Faults and refusals -/

/-- Why the machine stops with a fault. The manual turns every error of a program into a trap, an
error response or a stopped hart, each of them a next state; so one reason is left. -/
inductive Fault where
  /-- Raised by `step` when an item of the schedule is an instruction of a hart, which only a fetch
  can give it. Safe: the model stops. -/
  | scheduledInstruction
deriving DecidableEq, Repr

/-- Why the machine refuses. -/
inductive Refusal where
  /-- Raised by an arm of `exec` that has no meaning yet. Safe: the model stops. -/
  | notModelled (mnemonic : String)
deriving DecidableEq, Repr

/-! ## Values -/

/-- An exact value that a rounding or a well deposit receives: a NaN, an infinity, or
±m·2^e, with `sticky` when the true magnitude lies strictly between m·2^e and (m+1)·2^e
(R26, R38, R41). -/
inductive FVal where
  | nan
  | inf (neg : Bool)
  | fin (neg : Bool) (m : Nat) (e : Int) (sticky : Bool)
deriving DecidableEq, Repr

/-- Privilege modes (R56, Table 3.10). -/
inductive Mode where
  | a | s | p
deriving DecidableEq, Repr

/-- What names a unit: its virtual function, its launch serial and its index (R300, R308). -/
structure UnitKey where
  vf : BitVec 10
  serial : BitVec 32
  idx : Nat
deriving DecidableEq, Repr

/-! ## The hart -/

/-- Vector register bits: eight span positions of 8192 bytes, position p at byte p·VLMAXB (R44, R138). -/
abbrev VReg := BitVec 524288

/-- Mask register bits: eight span positions of 16,384 bits (R44, R138). -/
abbrev MReg := BitVec 131072

/-- Tile bits: element z[i][j] at bit 32·(i·N + j) (R171). -/
abbrev TileBits := BitVec 131072

/-- Operand latch bits: row r at bit 1024·r (R172). -/
abbrev LatchBits := BitVec 65536

/-- A completion counter (R47, Table 3.2). -/
structure Counter where
  count : BitVec 32
  err : Bool
  status : BitVec 4
deriving DecidableEq, Repr

/-- One set of trap registers (R48, R315). -/
structure TrapSet where
  evec : Word
  epc : Word
  ecause : Word
  eval : Word
  estat : Word
deriving DecidableEq, Repr

/-- Where a remote span position lies: its hall, its cluster, and its slot of that hall's context save
region (R138, R220). -/
structure Place where
  hall : BitVec 4
  cluster : BitVec 5
  slot : Nat
deriving DecidableEq, Repr

/-- A lane claim as VCLAIM granted it and SETVL last changed it (R137, R140, Table 8.1). -/
structure Claim where
  ceiling : Nat
  grant : Nat
  share : BitVec 2
  span : BitVec 2
  dies : BitVec 8
  places : List Place
deriving DecidableEq, Repr

/-- What rebuilds an operand latch (R176): `todo` holds the rows that are still to be rebuilt, before the
instruction at `resumeAt`, or before one that reads the latch (R388). -/
structure OlgathDesc where
  base : Word
  pitch : Word
  idx : List (BitVec 32)
  act : BitVec 64
  vl : Nat
  reached : Nat
  todo : BitVec 64
  resumeAt : Option Word
deriving DecidableEq, Repr

/-- What the hart waits for (R211, R337). -/
inductive Wait where
  | kwait (k : BitVec 3)
  | kstat (d : BitVec 5) (k : BitVec 3)
  | kset (d a : BitVec 5) (k : BitVec 3)
  | barrier (handle : Word) (gen : BitVec 32) (d : BitVec 5)
  | arrive (handle : Word) (gen : BitVec 32)
  | waitany (d a b : BitVec 5)
  | phase (d : BitVec 5) (n : Nat)
  | wfi
  | pause
  | engine (id : Nat)
  | drain
  | held (token : BitVec 32)
  | shoot
deriving DecidableEq, Repr

/-- How the hypervisor answers a held access (R337); on the hart: what the scalar access at its PC receives
without being performed, or the first active element of the VLDFF at its PC that walks again. -/
inductive FqAnswer where
  | none
  | forward
  | complete (data : Word)
  | again (first : Nat)
deriving DecidableEq, Repr

/-- What a posting request carries home: the writes of one instruction to one 64-byte line (R89). -/
inductive Payload where
  /-- Bytes of stores, by physical address; of two for one address the later stays (R160). -/
  | bytes (l : List (Nat × Byte))
  /-- VAMO updates (R161): operation, type code, and the physical addresses with their operands. -/
  | amo (op : Nat) (ty : BitVec 4) (l : List (Nat × Word))
  /-- The addends for one well line (R168, R182), by slot. -/
  | deposit (wlf : Bool) (line : Nat) (adds : List (Nat × FVal))
  /-- One WINIT line (R167). -/
  | winit (wlf : Bool) (line : Nat) (anchor : BitVec 8)
deriving DecidableEq, Repr

/-- A posting request that awaits its response (R89): the line's virtual address, the log2 of the
element size, the bytes of the line it writes, for whom it acts, and whether its target answered with an
error (R15) or poison (Table 9.2). `also`: further virtual lines of the same physical line that the instruction
named, each with its bytes (R225). `frm`: the hall that sends it, that of the span position it belongs to (R220). -/
structure Posted where
  va : Word
  lsz : BitVec 3
  mask : BitVec 64
  pa : Nat
  payload : Payload
  who : Option (BitVec 10)
  failed : Bool
  also : List (Word × BitVec 64)
  frm : BitVec 4
deriving DecidableEq, Repr

/-- An entry of the store-error queue (R89). -/
structure StoreError where
  va : Word
  lsz : BitVec 3
  mask : BitVec 64
deriving DecidableEq, Repr

/-- A non-blocking vector memory operation in flight (R154): its number, its counter, the status
that its completion will report (0: none), and the span positions that hold elements of it (R221). -/
structure VecOp where
  id : Nat
  k : BitVec 3
  status : BitVec 4
  seals : Option Nat
  at' : BitVec 8
deriving DecidableEq, Repr

/-- The registers of the hart that executes (R44, Table 3.1, Table 3.3), and what it has in flight.
`stopped`: HALT, HCTL.STOP or an undeliverable trap stopped it (R117, R317, R405); `undelivered`: the cause code of
that trap. `transfer`: the last
instruction was a transfer, so a fetch fault comes after completion (R312). `spanLost`: the dies of span
positions that were lost and whose fault the next vector instruction takes (R221). `ir`: the model's own, the
words of the instruction that `step` fetched last, which EVAL of codes 3 and 4 shows (Table 21.1). `rejoin`: after a
resumption, the address of the BARSYN or PHASE that has joined already, and the generation that it awaits (R321). `warm`: the
address of the VWARM that a trap or a retry left with entries armed, and its VSTART (R202, R318). `cut`: the model's own, the
element before which the instruction at hand is left; none between instructions (log 93). -/
structure Hart where
  g : Vector Word 32
  v : Vector VReg 32
  hwm : Vector Nat 32
  m : Vector MReg 8
  z : Vector TileBits 4
  l : Vector LatchBits 2
  ldesc : Vector (Option OlgathDesc) 2
  k : Vector Counter 8
  pc : Word
  mode : Mode
  vl : Nat
  vlw : Nat
  vstart : Nat
  vmode : Word
  vstat : Word
  fstat : Word
  vlmaxb : Nat
  vcap : Nat
  uid : Word
  lid : Word
  spbase : Word
  srseed : Word
  srbase : Word
  sset : TrapSet
  claim : Option Claim
  seq : List StoreError
  posted : List Posted
  vops : List VecOp
  armed : BitVec 64
  fired : BitVec 64
  armedPa : List (Nat × Nat)
  wakes : BitVec 64
  wait : Option Wait
  unit : Option UnitKey
  fq : FqAnswer
  stopped : Bool
  undelivered : Option (BitVec 8)
  transfer : Bool
  spanLost : BitVec 8
  rejoin : Option (Word × BitVec 32)
  warm : Option (Word × Nat)
  cut : Option Nat
  ir : Option IWord × IWord
deriving DecidableEq, Repr

/-- What run-ahead does not know (R327): registers of g, tiles and latches by number, vector and mask registers
bit by bit, VL, VMODE, and the ranges of bytes that its own stores name. -/
structure Unknown where
  g : BitVec 32
  v : Vector VReg 32
  m : Vector MReg 8
  z : BitVec 4
  l : BitVec 2
  vl : Bool
  vmode : Bool
  stored : List (Nat × Nat)
deriving DecidableEq, Repr

/-- One entry of a fault batch (R328, Table 21.8), with the reason that a fault queue entry shows (R337). -/
structure BatchEntry where
  va : Word
  pc : Word
  kind : BitVec 2
  reason : BitVec 4
deriving DecidableEq, Repr

/-- Fault run-ahead in progress (R326): the checkpoint, whether the faulting instruction itself is still to be
gone through, what is unknown, the batch, the instructions executed after the faulting one, and whether that was a scalar access. -/
structure RunAhead where
  checkpoint : Hart
  first : Bool
  detail : BitVec 2
  unknown : Unknown
  batch : List BatchEntry
  count : Nat
  scalar : Bool
deriving DecidableEq, Repr

/-! ## Memory -/

/-- Residency of a well line (R257, Table 15.5). -/
inductive Residency where
  | absent | filling | resident | writing
deriving DecidableEq, Repr

/-- The header of a well line (R255, Table 15.3) and its residency (R257). The requests queued for a line
are the posted ones that name it, in their order (R258). -/
structure WellLine where
  e : BitVec 8
  ov : Bool
  nan : Bool
  pois : Bool
  wlf : Bool
  res : Residency
deriving DecidableEq, Repr

/-- States of an ink page (R260). -/
inductive InkState where
  | free | openPage | sealing | sealed | freeing
deriving DecidableEq, Repr

/-- A tail-table entry (R259, Table 15.6). -/
structure InkPage where
  st : InkState
  vf : BitVec 10
  tail : Nat
  pend : Nat
  rmap : BitVec 16
  epois : Bool
  reads : Nat
deriving DecidableEq, Repr

/-- States of a replica (R261, Table 15.8); an absent one is not listed. The state lists replicas by frame and hall, and in
`pool` the 64 KiB of the hall's pool that each takes. -/
inductive ReplicaState where
  | copying | published | reclaiming
deriving DecidableEq, Repr

/-- A cached translation (R335): virtual function (none: mode P), the hall, whether an index-stream engine of it
holds the entry, the page number of 64 KiB, the leaf entry, and the step that used it last. -/
structure TlbEntry where
  space : Option (BitVec 10)
  hall : BitVec 4
  ixg : Bool
  page : Nat
  pte : Word
  used : Nat
deriving DecidableEq, Repr

/-- A cached table entry (R335): virtual function (none: mode P), the hall whose walk cache holds it, its level, the
bits of the virtual address that lead to it, and its value. -/
structure WalkEntry where
  space : Option (BitVec 10)
  hall : BitVec 4
  lvl : Nat
  part : Nat
  pte : Word
deriving DecidableEq, Repr

/-! ## The cluster -/

/-- A barrier (R198, R199). `last` holds GEN, TGT and LOST at its latest completion. -/
structure Barrier where
  gen : BitVec 32
  tgt : Nat
  arr : Nat
  lost : Bool
  scope : BitVec 3
  members : List UnitKey
  arrived : List UnitKey
  leaving : List UnitKey
  last : BitVec 32 × Nat × Bool
deriving DecidableEq, Repr

/-- A claim as a lane pool counts it (R214 to R216): hart number (8 and above: a span slot of the
global hart index less 8), ceiling, lanes granted and matrix share. -/
structure PoolClaim where
  hart : Nat
  ceiling : Nat
  granted : Nat
  share : BitVec 2
deriving DecidableEq, Repr

/-- One cluster: its lane pool (R214, R219), its reliability block (R385, R387, R393), its hart
control and counters (R405) and its cluster barriers by launch, group and number (R198). -/
structure Cluster where
  cap : Nat
  claims : List PoolClaim
  lrmap : BitVec 128
  mapart : BitVec 4
  rfce : BitVec 32
  charges : BitVec 16
  charged : List (Nat × Word)
  stopped : BitVec 8
  recov : Bool
  cyc : Word
  instr : Word
  vrows : Word
  macs : Word
  barriers : List ((BitVec 10 × BitVec 32 × Nat × Nat) × Barrier)
deriving DecidableEq, Repr

/-! ## The hall -/

/-- STATE of HALLCTL (Table 23.3). -/
inductive HallState where
  | running | reset | fenced
deriving DecidableEq, Repr

/-- A gallery window (R347, R348). -/
structure Gallery where
  base : Word
  ctl : Word
  busy : Bool
deriving DecidableEq, Repr

/-- A violation log entry (Table 23.7). -/
structure Violation where
  pa : Word
  chip : BitVec 12
  hall : BitVec 4
  vf : BitVec 10
  cause : BitVec 8
  time : Word
  valid : Bool
deriving DecidableEq, Repr

/-- An error log entry (Table 28.5). -/
structure ErrorEntry where
  addr : Word
  src : BitVec 8
  ue : Bool
  scrub : Bool
  cluster : BitVec 5
  hart : BitVec 3
  lane : BitVec 7
  time : Word
  synd : Word
  valid : Bool
deriving DecidableEq, Repr

/-- One line of a read-only window (R195): not filled, data, poison or an error response. -/
inductive WinLine where
  | unfilled
  | data (bits : BitVec 512)
  | poison
  | error
deriving DecidableEq, Repr

/-- A line of a window: its virtual and its physical line number, and what it holds. -/
structure WinEntry where
  va : Nat
  pa : Nat
  line : WinLine
deriving DecidableEq, Repr

/-- A read-only window (R195): its range, its VF and its lines; a dropped line leaves. -/
structure Window where
  base : Word
  len : Nat
  vf : BitVec 10
  lines : List WinEntry
deriving DecidableEq, Repr

/-- State of a landing (Table 16.3). -/
inductive LandingState where
  | free | armed | closing
deriving DecidableEq, Repr

/-- A landing (R204, R276, R277): its word, the size of the page it was bound through, its descriptor words, its
status and its owner. -/
structure Landing where
  st : LandingState
  va : Word
  pa : Nat
  page : Nat
  vf : BitVec 10
  desc : List Word
  demoted : Bool
  owner : Option UnitKey
  trigs : BitVec 16
  lostn : Nat
  err : Bool
  pend : Nat
deriving DecidableEq, Repr

/-- State of an external port (Table 27.2). -/
structure ExtPort where
  guar : BitVec 4
  width : BitVec 4
  peerChip : BitVec 12
  peerPort : BitVec 8
  lat : BitVec 12
  retrains : BitVec 8
  state : BitVec 4
  kact : Bool
  kpend : Bool
  keylow : Bool
  retry : BitVec 32
  tagfail : BitVec 32
  keys : Vector (BitVec 256) 2
  salts : Vector (BitVec 32) 2
  loaded : BitVec 2
  sendSeq : Nat
  sendCount : Vector Nat 2
  replay : List (Nat × Bool)
  expect : Nat
  rslot : Bool
  naks : Nat
  down : Bool
deriving DecidableEq, Repr

/-- A held access of the PF fault queue (R337, R338): its token, its source (a hart, or the number of
an engine command), the address, and the trap that FORWARD gives the guest: its code, and for code 9 the words
of the batch record and where they go. `scalar`: COMPLETE completes it. `cut`: of a VLDFF, its first active element and the VL and VLW that FORWARD
leaves (R159). -/
structure Held where
  token : BitVec 32
  cmd : Option Nat
  vf : BitVec 10
  va : Word
  kind : BitVec 2
  tlbsh : Option (BitVec 2)
  code : Nat
  after : Bool
  pfx : Bool
  scalar : Bool
  record : List Word
  recordPa : Nat
  cut : Option (Nat × Nat × Nat)
deriving DecidableEq, Repr

/-- Everything one hall holds (R8, Table 30.3). `fqPending`: entries of the PF fault queue that wait for room
(R338). `corrLogged`: when each memory's last corrected error was logged (R394); `corrTimes`: when corrected
errors were met in the last minute (R392). -/
structure Hall where
  tenant : BitVec 16
  st : HallState
  shapeErr : Bool
  cause : BitVec 4
  gallery : Vector Gallery 32
  vlog : List (Nat × Violation)
  vnext : Nat
  vovf : BitVec 32
  elog : List (Nat × ErrorEntry)
  enext : Nat
  eovf : BitVec 32
  ecc : Word
  wellcfg : Word
  inkcfg : Word
  cscfg : Word
  cswin : Word
  traffic : Vector Word 10
  freeze : Bool
  fqbase : Word
  fqcfg : Word
  fqhead : BitVec 32
  fqtail : BitVec 32
  fqdata : Word
  fqovf : Word
  fqPending : List (List Word)
  held : List Held
  nextToken : BitVec 32
  shootva : Word
  shootctl : Word
  shootBusy : Bool
  shootPage : Word
  shootHow : Word
  proot : Word
  scrubcfg : Word
  scrubPasses : BitVec 16
  scrubFactor : BitVec 4
  scrubPaused : Bool
  scrubPos : BitVec 36
  scrub2Pos : Nat
  corrLogged : List (Nat × Word)
  corrTimes : List Word
  pwr : BitVec 16
  plim : BitVec 16
  tj : BitVec 8
  tlim : BitVec 8
  windows : List (Nat × Window)
  landings : List (Nat × Landing)
  barriers : List (Nat × Barrier)
  ports : Vector ExtPort 9
  route : List (Nat × BitVec 16)
  hmeas : BitVec 512
  hmcnt : BitVec 32
  clusters : List (Nat × Cluster)
  lastServed : List (Nat × Nat)
deriving DecidableEq, Repr

/-! ## Virtual functions, launches and units -/

/-- A work queue (R298, R299) with what selection keeps of it (R307). -/
structure Queue where
  cfg : Word
  base : Word
  head : BitVec 32
  tail : BitVec 32
  credit : Nat
  boost : Nat
  wait : Nat
deriving DecidableEq, Repr

/-- The registers of a virtual function (Table 30.2). -/
structure VF where
  en : Bool
  tenant : BitVec 16
  scope : Word
  rstBusy : Bool
  abnd : BitVec 32
  evt : Word
  xroot : Word
  xalias : Word
  rej : Nat
  errl : Nat
  vcap : Nat
  cpath : Vector (Vector Word 4) 8
  attn : Vector Word 8
  attaddr : Word
  attBusy : Bool
  attErr : Bool
  queues : List (Nat × Queue)
deriving DecidableEq, Repr

/-- Where an admitted launch stands (R303, R305, R309). A killed one lost its units to a VF reset (R311). A cancelled one `releases` its graph successors after
CANCEL level 2, and cancels them otherwise (R306). -/
inductive LaunchState where
  | held | ready | pending | placing | killed
  | cancelled (releases : Bool)
deriving DecidableEq, Repr

/-- An admitted launch that has not ended (R301 to R306). The record is kept as its 16 `words`. -/
structure Launch where
  vf : BitVec 10
  serial : BitVec 32
  words : List Word
  st : LaunchState
  order : Nat
  nextGroup : Nat
  done : Nat
  erru : Nat
  phase : Nat
  bar : Barrier
  phaseBar : Barrier
deriving DecidableEq, Repr

/-- A graph that is open (R305). `fallen`: nodes that were cancelled or ended with error under ERRSTOP, each with the last phase
that launches gated on it may still await (R306). -/
structure Graph where
  vf : BitVec 10
  id : BitVec 16
  home : BitVec 4
  nnodes : Nat
  gcounter : Word
  counts : List (Nat × Int)
  ended : List (Nat × Bool)
  cancelled : Bool
  cancelNodes : List Nat
  fallen : List (Nat × Nat)
  phases : List (Nat × Nat)
deriving DecidableEq, Repr

/-- States of a unit (R211); one that has exited or was killed leaves the list. -/
inductive UnitState where
  | placed | running | waiting | preempted
deriving DecidableEq, Repr

/-- A unit that is placed or pre-empted (R212, R319). `places`: the slots that hold the blocks of the remote
positions of its span (R220); `image`: the first 4 KiB page of its group's image in the context save region. Of a unit that is
pre-empted: its SPBASE (R325), VLMAXB and its own span position at the save (R324), the address of a joined wait, and that of a VWARM left part-way. -/
structure UnitRec where
  key : UnitKey
  group : Nat
  pos : Nat
  size : Nat
  st : UnitState
  hall : BitVec 4
  cluster : BitVec 5
  hart : BitVec 3
  slotHall : BitVec 4
  slot : Nat
  spOff : Nat
  spBytes : Nat
  lanes : Nat
  share : BitVec 2
  eff : Nat
  placedAt : Nat
  preempt : Bool
  places : List Place
  image : Nat
  spbase : Word
  saved : Nat
  own : Nat
  rejoin : Option (Word × BitVec 32)
  warm : Option (Word × Nat)
deriving DecidableEq, Repr

/-! ## Engines -/

/-- What failed in an engine command (R188, Table 11.2). -/
structure EngFail where
  cause : BitVec 4
  va : Word
  pos : Word
  nfail : BitVec 32
  idxv : BitVec 32
deriving DecidableEq, Repr

/-- A position of an engine command that a shadow miss holds (R337): what it fails with where the hypervisor forwards the
fault. `source`: it is an element of SBUF that cannot be read. -/
structure Stuck where
  pos : Nat
  source : Bool
  cause : Nat
  va : Word
  idxv : BitVec 32
deriving DecidableEq, Repr

/-- An engine command in flight (R186 to R189): its number, operation, issuer, counter, the words of its record
as read at issue, its rank, and the positions that are settled (`done`), performed or failed. `live`: not yet ended
by a record that is bad, a cancellation, an abandonment, a lost path or an abort. `armed`, `split`: the split of a
collective is held (R264, R267); `tree` is the model's own and says which order ORDER 1 takes (R270). `root`: the
table root of an IXG (R194); `batch`: the index values of the batch that it has read, from the stream element that comes first
(R278). `stuck`: the position that is held, and `forward`: the hypervisor forwarded its fault (R337). `run`: the collective that a COLL belongs to, and `tab`: the contents of RANKTAB
at arming (R407). `away`: the package on which the rank runs, when it is another. `lostAt`: the pair of dies whose wavelength went dark
while a transfer of the command on it was not delivered (R274). -/
structure Cmd where
  id : Nat
  op : BitVec 3
  vf : BitVec 10
  hall : BitVec 4
  owner : Option UnitKey
  mode : Mode
  k : BitVec 3
  counted : Bool
  scope : BitVec 3
  acq : Bool
  rel : Bool
  rank : Nat
  words : List Word
  window : Nat
  armed : Bool
  split : List Nat
  tree : Nat
  root : Option Word
  batch : List (Nat × BitVec 32)
  done : List Nat
  fail : Option EngFail
  stuck : Option Stuck
  forward : Bool
  live : Bool
  run : Nat
  tab : List Word
  away : Option (BitVec 12)
  lostAt : Option (BitVec 3 × BitVec 3)
deriving DecidableEq, Repr

/-- One collective (R264), or one reducing flight of all its ranks (`seq` 65,536; R271): its match key, the ranks that have
issued it and those that have ended it, the failure that a rank which issues it later receives, with the hall that sends it (R267, R407),
the path registers that its lead armed (R265), and what each rank has contributed to each element of the message: element, rank
and bits, each read from its SBUF once (R269). `bad`: receivers of a flight whose record differs from a sender's. -/
structure Collective where
  id : Nat
  tenant : BitVec 16
  tab : Word
  seq : Nat
  joined : List Nat
  ended : List Nat
  flit : Option (BitVec 4 × BitVec 4)
  paths : List Word
  got : List (Nat × Nat × Word)
  bad : List Nat
deriving DecidableEq, Repr

/-- What a receiver reduction unit holds of one destination element (R271, R272): of the command `cmd` of a
collective into a well, or of the flight with that number of its run, at element offset or address `elem`. `start` is the
destination's own value for a flight; `got` the contributions that have arrived, by key, in FP32. -/
structure Accum where
  cmd : Nat
  elem : Nat
  start : BitVec 32
  got : List (Nat × BitVec 32)
  written : Bool
deriving DecidableEq, Repr

/-! ## The image and the package -/

/-- The part of the signed image that sets a hall up, and the hall's firmware section (R395, R397, R403; log 10). -/
structure HallImage where
  tenant : BitVec 16
  wellcfg : Word
  inkcfg : Word
  cscfg : Word
  plim : BitVec 16
  firmware : List Byte
deriving DecidableEq, Repr

/-- The signed image in the module's flash (R395, R403): its configuration and firmware sections, operator key and version, the bytes that
are signed, and the signature. -/
structure Image where
  chip : BitVec 12
  pod : List (BitVec 12)
  halls : Vector HallImage 16
  operatorKey : BitVec 256
  version : Word
  bytes : List Byte
  sig : BitVec 512
deriving DecidableEq, Repr

/-- A host port (Table 24.1). -/
structure HostPort where
  mode : BitVec 2
  gen : BitVec 4
  width : BitVec 8
  cache : Bool
  mem : Bool
  hdmBase : Vector Word 8
  hdmCtl : Vector Word 8
deriving DecidableEq, Repr

/-- A host line held in a hall's L2 through CXL.cache (R356). -/
structure HostLine where
  line : Nat
  holder : BitVec 4
  modified : Bool
deriving DecidableEq, Repr

/-- The fabric between the dies: for each die, the dies toward which its wavelength is dark, relayed or lost (R376, Table 27.1). -/
structure Fabric where
  dark : Vector (BitVec 8) 8
  relayed : Vector (BitVec 8) 8
  lost : Vector (BitVec 8) 8
deriving DecidableEq, Repr

/-- Where a vector instruction stops part-way (R122, R123, R179, R318): pre-empted before element n, the first of an
element row; at an element row of which three runs disagree; or at a matrix checksum that a rerun fails again, in a quarter of
the array. -/
inductive Stop where
  | row (n : Nat)
  | lanes (row : Nat)
  | macs (quarter : BitVec 2)
deriving DecidableEq, Repr

/-- What happens next: the hart's turn, an event of the opcode table, an ordinary line that leaves an L2 for its memory
(R17), or what a unit on another hart does: a store that is performed (its VF, its hall, the physical address and the bytes), an
arrival at the barrier of a handle (R199), an arrival at the phase of its launch (R206), or a COLL or FLIGHT that it issues, from a
hall of a package, for a rank (R193, R271). The last four are errors that leave every result right: a lane that a third run
outvotes (R385), a matrix checksum that the rerun meets (R387), a register error that the code corrects (R388), and one that a
demand read of HBM4E or tier-2 memory meets and its code corrects (R394). -/
inductive Happening where
  | turn (stop : Option Stop)
  | event (i : Instr)
  | evict (line : Nat)
  | store (vf : BitVec 10) (hall : BitVec 4) (pa : Nat) (bytes : List Byte)
  | arrives (unit : UnitKey) (handle : Word)
  | phases (unit : UnitKey)
  | issues (op : BitVec 3) (vf : BitVec 10) (chip : BitVec 12) (hall : BitVec 4) (rank : Nat) (words : List Word)
  | charge (hall : BitVec 4) (cluster : BitVec 5) (hart : BitVec 3) (lane : BitVec 7) (synd : Word)
  | checksum (hall : BitVec 4) (cluster : BitVec 5) (hart : BitVec 3) (quarter : BitVec 2)
  | corrected (hall : BitVec 4) (cluster : BitVec 5)
  | correctedRead (hall : BitVec 4) (tier2 : Bool) (line : Nat)
deriving DecidableEq, Repr

/-- The state of the machine. `schedule` and `fresh` are the model's own (log 2, log 9):
`schedule` says what happens next (when it is empty: the hart's turn); `fresh` counts the free values
taken; `era` counts the steps. `nextId` numbers operations and commands. `icache` holds the words that the cluster of the hart has fetched, by
physical address, until FENCEI (R116, R229). -/
structure State where
  hart : Hart
  pset : TrapSet
  hid : Word
  podt : Word
  ra : Option RunAhead
  mem : List Host.Cell
  poison : List Nat
  dirty : List Nat
  wells : List (Nat × WellLine)
  ink : List (Nat × InkPage)
  replicas : List (Nat × Nat × ReplicaState)
  pool : List ((Nat × Nat) × Nat)
  tlb : List TlbEntry
  walks : List WalkEntry
  era : Nat
  icache : List (Nat × IWord)
  halls : Vector Hall 16
  vfs : List (Nat × VF)
  launches : List Launch
  graphs : List Graph
  units : List UnitRec
  cmds : List Cmd
  accums : List Accum
  colls : List Collective
  hostPorts : Vector HostPort 4
  hostLines : List HostLine
  fabric : Fabric
  pkgstat : BitVec 16
  ptpcfg : Word
  ptpLock : Bool
  ptpOffset : BitVec 32
  ptpGood : Nat
  image : Image
  schedule : List Happening
  fresh : Nat
  nextId : Nat
deriving DecidableEq, Repr

/-! ## Reset values -/

/-- A counter at reset (Table 3.2). -/
def Counter.reset : Counter := { count := 0#32, err := false, status := 0#4 }

/-- A trap set at reset (Tables 21.2, 21.3; EVEC, EPC and EVAL: log 4). -/
def TrapSet.reset : TrapSet := { evec := 0#64, epc := 0#64, ecause := 0#64, eval := 0#64, estat := 0#64 }

/-- The hart with every register 0 and nothing held or in flight (R54; log 4). -/
def Hart.reset : Hart where
  g := Vector.replicate 32 0#64
  v := Vector.replicate 32 0#524288
  hwm := Vector.replicate 32 0
  m := Vector.replicate 8 0#131072
  z := Vector.replicate 4 0#131072
  l := Vector.replicate 2 0#65536
  ldesc := Vector.replicate 2 none
  k := Vector.replicate 8 Counter.reset
  pc := 0#64
  mode := .a
  vl := 0
  vlw := 64
  vstart := 0
  vmode := 0#64
  vstat := 0#64
  fstat := 0#64
  vlmaxb := 0
  vcap := 8192
  uid := 0#64
  lid := 0#64
  spbase := 0#64
  srseed := 0#64
  srbase := 0#64
  sset := TrapSet.reset
  claim := none
  seq := []
  posted := []
  vops := []
  armed := 0#64
  fired := 0#64
  armedPa := []
  wakes := 0#64
  wait := none
  unit := none
  fq := .none
  stopped := false
  undelivered := none
  transfer := false
  spanLost := 0#8
  rejoin := none
  warm := none
  cut := none
  ir := (none, 0#32)

/-- A barrier with no members and TGT 0 (R198). -/
def Barrier.reset : Barrier where
  gen := 0#32
  tgt := 0
  arr := 0
  lost := false
  scope := 1#3
  members := []
  arrived := []
  leaving := []
  last := (0#32, 0, false)

/-- A cluster at reset (Tables 12.2, 28.4; R405). -/
def Cluster.reset : Cluster where
  cap := 128
  claims := []
  lrmap := 0#128
  mapart := 0#4
  rfce := 0#32
  charges := 0#16
  charged := []
  stopped := 0#8
  recov := false
  cyc := 0#64
  instr := 0#64
  vrows := 0#64
  macs := 0#64
  barriers := []

/-- An external port at reset (Table 27.2, R353). -/
def ExtPort.reset : ExtPort where
  guar := 0#4
  width := 0#4
  peerChip := 0#12
  peerPort := 0#8
  lat := 0#12
  retrains := 0#8
  state := 0#4
  kact := false
  kpend := false
  keylow := false
  retry := 0#32
  tagfail := 0#32
  keys := Vector.replicate 2 0#256
  salts := Vector.replicate 2 0#32
  loaded := 0#2
  sendSeq := 0
  sendCount := Vector.replicate 2 0
  replay := []
  expect := 0
  rslot := false
  naks := 0
  down := false

/-- A gallery window at reset (Tables 23.5, 23.6). -/
def Gallery.reset : Gallery := { base := 0#64, ctl := 0#64, busy := false }

/-- A hall at power-on (R403: STATE 1; the tables of each register). -/
def Hall.reset : Hall where
  tenant := 0#16
  st := .reset
  shapeErr := false
  cause := 0#4
  gallery := Vector.replicate 32 Gallery.reset
  vlog := []
  vnext := 0
  vovf := 0#32
  elog := []
  enext := 0
  eovf := 0#32
  ecc := 0#64
  wellcfg := 0#64
  inkcfg := 0#64
  cscfg := 0#64
  cswin := 0#64
  traffic := Vector.replicate 10 0#64
  freeze := false
  fqbase := 0#64
  fqcfg := 0#64
  fqhead := 0#32
  fqtail := 0#32
  fqdata := 0#64
  fqovf := 0#64
  fqPending := []
  held := []
  nextToken := 0#32
  shootva := 0#64
  shootctl := 0#64
  shootBusy := false
  shootPage := 0#64
  shootHow := 0#64
  proot := 0#64
  scrubcfg := 0x501801#64
  scrubPasses := 0#16
  scrubFactor := 1#4
  scrubPaused := false
  scrubPos := 0#36
  scrub2Pos := 0
  corrLogged := []
  corrTimes := []
  pwr := 0#16
  plim := 0#16
  tj := 0#8
  tlim := 100#8
  windows := []
  landings := []
  barriers := []
  ports := Vector.replicate 9 ExtPort.reset
  route := []
  hmeas := 0#512
  hmcnt := 0#32
  clusters := []
  lastServed := []

/-- A work queue at reset (Tables 20.1 to 20.3: WEIGHT 1, LOG2SLOTS 4). -/
def Queue.reset : Queue where
  cfg := 0x0001000004000000#64
  base := 0#64
  head := 0#32
  tail := 0#32
  credit := 0
  boost := 0
  wait := 0

/-- A virtual function at reset (Table 23.8 and the tables of its other registers). -/
def VF.reset : VF where
  en := false
  tenant := 0#16
  scope := 0#64
  rstBusy := false
  abnd := 0#32
  evt := 0#64
  xroot := 0#64
  xalias := 0#64
  rej := 0
  errl := 0
  vcap := 8192
  cpath := Vector.replicate 8 (Vector.replicate 4 0#64)
  attn := Vector.replicate 8 0#64
  attaddr := 0#64
  attBusy := false
  attErr := false
  queues := []

/-- A host port at reset: down, no window decodes (Tables 24.1, 24.3). -/
def HostPort.reset : HostPort where
  mode := 0#2
  gen := 0#4
  width := 0#8
  cache := false
  mem := false
  hdmBase := Vector.replicate 8 0#64
  hdmCtl := Vector.replicate 8 0#64

/-- The image of this module (log 10): one tenant on every hall, 4 GiB of wells at GiB 16, an ink
region of 8 GiB at GiB 32 with a pool of 4 GiB at GiB 24, and 1 GiB of context save at GiB 48. -/
def Image.standard : Image where
  chip := 0#12
  pod := [0#12]
  halls := Vector.replicate 16
    { tenant := 1#16, wellcfg := 0x410#64, inkcfg := 0x0004000800180020#64, cscfg := 0x130#64, plim := 450#16, firmware := [] }
  operatorKey := 0#256
  version := 0#64
  bytes := []
  sig := 0#512

/-- The module right after power is applied (R403): every hall in STATE 1, memory with nothing
listed, no unit on the hart. The first step brings the halls up (log 3). -/
def State.reset : State where
  hart := Hart.reset
  pset := TrapSet.reset
  hid := 0#64
  podt := 0#64
  ra := none
  mem := []
  poison := []
  dirty := []
  wells := []
  ink := []
  replicas := []
  pool := []
  tlb := []
  walks := []
  era := 0
  icache := []
  halls := Vector.replicate 16 Hall.reset
  vfs := []
  launches := []
  graphs := []
  units := []
  cmds := []
  accums := []
  colls := []
  hostPorts := Vector.replicate 4 HostPort.reset
  hostLines := []
  fabric := { dark := Vector.replicate 8 0#8, relayed := Vector.replicate 8 0#8, lost := Vector.replicate 8 0#8 }
  pkgstat := 0#16
  ptpcfg := 0#64
  ptpLock := false
  ptpOffset := 0#32
  ptpGood := 0
  image := Image.standard
  schedule := [.event .powerOn]
  fresh := 0
  nextId := 1

end Sys2Proof.Machine
end

