-- ==== Sys2Proof/Machine/Bits.lean ====
section
/-! DEFINITION. Bits.lean: bit fields, byte strings and keyed lists, the helpers of every layout of the
manual (R1: multi-byte values are little-endian). -/

namespace Sys2Proof.Machine

/-! ## Bit fields -/

/-- Bits lo+w−1 : lo of a value, as a number. -/
def fieldNat {n : Nat} (x : BitVec n) (lo w : Nat) : Nat := (x.extractLsb' lo w).toNat

/-- Replace the bits of `x` from `lo` up by `y`. -/
def setField {n w : Nat} (x : BitVec n) (lo : Nat) (y : BitVec w) : BitVec n :=
  (x &&& ~~~((BitVec.allOnes w).setWidth n <<< lo)) ||| (y.setWidth n <<< lo)

/-- Replace the one bit of `x` at `i`. -/
def setBit {n : Nat} (x : BitVec n) (i : Nat) (b : Bool) : BitVec n := setField x i (BitVec.ofBool b)

/-- A field of a layout: `v` in bits lo+w−1 : lo. -/
def place (v lo w : Nat) : Word := BitVec.ofNat 64 ((v % 2 ^ w) <<< lo)

/-- A flag as a number. -/
def bit (b : Bool) : Nat := if b then 1 else 0

/-- Number of one bits. -/
def popCount {w : Nat} (x : BitVec w) : Nat :=
  (List.range w).foldl (fun n i => n + bit (x.getLsbD i)) 0

/-- The values e of `lo .. hi−1`, ascending. -/
def upTo (lo hi : Nat) : List Nat := (List.range (hi - lo)).map (· + lo)

/-- Largest power of two that is at most n (0 for 0). -/
def powFloor (n : Nat) : Nat := if n = 0 then 0 else 2 ^ n.log2

/-- Round up to a multiple of m. -/
def roundUp (n m : Nat) : Nat := (n + m - 1) / m * m

/-- The signed value of a word of w bits held in a Nat. -/
def toSigned (w x : Nat) : Int := if x % 2 ^ w < 2 ^ (w - 1) then (x % 2 ^ w : Nat) else ((x % 2 ^ w : Nat) : Int) - 2 ^ w

/-- A signed value modulo 2^w. -/
def ofSigned (w : Nat) (i : Int) : Nat := (i % (2 ^ w : Nat)).toNat

/-- bits 63:55 are all equal (R86, R153). -/
def canonical (va : Word) : Bool := va.extractLsb' 55 9 == 0#9 || va.extractLsb' 55 9 == 0x1FF#9

/-! ## Byte strings -/

/-- The number whose little-endian bytes these are. -/
def leNat : List Byte → Nat
  | [] => 0
  | b :: r => b.toNat + 256 * leNat r

/-- The n little-endian bytes of a number. -/
def leBytes : Nat → Nat → List Byte
  | 0, _ => []
  | n + 1, x => BitVec.ofNat 8 x :: leBytes n (x / 256)

/-- The word whose little-endian bytes these are. -/
def leWord (l : List Byte) : Word := BitVec.ofNat 64 (leNat l)

/-- The 8-byte words of a byte string. -/
def leWords (l : List Byte) (n : Nat) : List Word := (List.range n).map fun i => leWord ((l.drop (8 * i)).take 8)

/-- The bytes of a list of words. -/
def wordsBytes (l : List Word) : List Byte := l.flatMap fun w => leBytes 8 w.toNat

/-- Word i of a record. -/
def wordAt (l : List Word) (i : Nat) : Word := l.getD i 0#64

/-! ## Keyed lists -/

/-- The value kept under a key. -/
def alFind {κ ν : Type} [DecidableEq κ] (k : κ) : List (κ × ν) → Option ν
  | [] => none
  | (k', v) :: r => if k' = k then some v else alFind k r

/-- Keep a value under a key, in place of the one kept before. -/
def alSet {κ ν : Type} [DecidableEq κ] (k : κ) (v : ν) : List (κ × ν) → List (κ × ν)
  | [] => [(k, v)]
  | (k', v') :: r => if k' = k then (k, v) :: r else (k', v') :: alSet k v r

/-- Keep nothing under a key. -/
def alErase {κ ν : Type} [DecidableEq κ] (k : κ) (l : List (κ × ν)) : List (κ × ν) := l.filter fun p => p.1 ≠ k

/-- Add a number to a set kept in rising order. -/
def natInsert (a : Nat) : List Nat → List Nat
  | [] => [a]
  | x :: r => if a < x then a :: x :: r else if a = x then x :: r else x :: natInsert a r

/-- Replace the first element that satisfies p. -/
def replaceFirst {α : Type} (p : α → Bool) (f : α → α) : List α → List α
  | [] => []
  | x :: r => if p x then f x :: r else x :: replaceFirst p f r

/-- Element i of a vector of 2^w, by a bit-vector index. -/
def pick {α : Type} {w : Nat} (v : Vector α (2 ^ w)) (i : BitVec w) : α := v[i.toNat]'i.isLt

/-- Replace element i of a vector of 2^w. -/
def put {α : Type} {w : Nat} (v : Vector α (2 ^ w)) (i : BitVec w) (x : α) : Vector α (2 ^ w) :=
  v.set i.toNat x i.isLt

end Sys2Proof.Machine
end

