-- ==== Sys2Proof/Machine/Num.lean ====
section
/-! DEFINITION. Num.lean: element types, exact values, rounding once (R19 to R34, R42). Every operation
forms an exact value and rounds it once into a format. -/

namespace Sys2Proof.Machine

/-! ## Element types (Table 2.1) -/

/-- Width in bits of a type code; 0 for the codes 0 and 15. -/
def typeWidth (t : BitVec 4) : Nat :=
  match t with
  | 1#4 => 8 | 2#4 => 8 | 3#4 => 16 | 4#4 => 16 | 5#4 => 32 | 6#4 => 32 | 7#4 => 64 | 8#4 => 8
  | 9#4 => 8 | 10#4 => 16 | 11#4 => 16 | 12#4 => 32 | 13#4 => 64 | 14#4 => 4 | _ => 0

/-- Codes 1 to 7. -/
def isInt (t : BitVec 4) : Bool := 1#4 ≤ t && t ≤ 7#4
/-- The I types; I64 acts as signed (R20). -/
def isSigned (t : BitVec 4) : Bool := isInt t && t.getLsbD 0
/-- Codes 8 to 14. -/
def isFloat (t : BitVec 4) : Bool := 8#4 ≤ t && t ≤ 14#4

/-- How a format uses its top exponent field (R23). -/
inductive FmtKind where
  | ieee | e4m3 | e2m1
deriving DecidableEq, Repr

/-- A floating-point format (Table 2.2). -/
structure Fmt where
  ebits : Nat
  mbits : Nat
  bias : Nat
  kind : FmtKind
  canonical : Nat
deriving DecidableEq, Repr

/-- FP64. -/
def Fmt.fp64 : Fmt := ⟨11, 52, 1023, .ieee, 0x7FF8000000000000⟩
/-- FP32. -/
def Fmt.fp32 : Fmt := ⟨8, 23, 127, .ieee, 0x7FC00000⟩
/-- FP16. -/
def Fmt.fp16 : Fmt := ⟨5, 10, 15, .ieee, 0x7E00⟩
/-- BF16. -/
def Fmt.bf16 : Fmt := ⟨8, 7, 127, .ieee, 0x7FC0⟩
/-- E5M2. -/
def Fmt.e5m2 : Fmt := ⟨5, 2, 15, .ieee, 0x7E⟩
/-- E4M3. -/
def Fmt.e4m3 : Fmt := ⟨4, 3, 7, .e4m3, 0x7F⟩
/-- E2M1; it has no NaN, and a NaN converts to +0 (R28). -/
def Fmt.e2m1 : Fmt := ⟨2, 1, 1, .e2m1, 0⟩

/-- The format of a float type code. -/
def fmtOf (t : BitVec 4) : Fmt :=
  match t with
  | 8#4 => .e4m3 | 9#4 => .e5m2 | 10#4 => .bf16 | 11#4 => .fp16 | 13#4 => .fp64 | 14#4 => .e2m1 | _ => .fp32

/-- Width in bits. -/
def Fmt.width (f : Fmt) : Nat := 1 + f.ebits + f.mbits

/-- FTZ applies to FP64, FP32, FP16 and BF16 only (R25). -/
def Fmt.flushes (f : Fmt) : Bool := f.width ≥ 16

/-- The exponent of the least quantum. -/
def Fmt.qmin (f : Fmt) : Int := 1 - f.bias - f.mbits

/-- The pattern of the largest finite magnitude (Table 2.2). -/
def Fmt.maxBits (f : Fmt) : Nat :=
  match f.kind with
  | .ieee => (2 ^ f.ebits - 1) * 2 ^ f.mbits - 1
  | .e4m3 => 0x7E
  | .e2m1 => 7

/-- The pattern of +Inf of an IEEE-type format. -/
def Fmt.infBits (f : Fmt) : Nat := (2 ^ f.ebits - 1) * 2 ^ f.mbits

/-- The sign bit of a pattern. -/
def Fmt.neg (f : Fmt) (x : Nat) : Bool := x.testBit (f.width - 1)

/-- Put a sign on a magnitude pattern. -/
def Fmt.signed (f : Fmt) (neg : Bool) (x : Nat) : Nat := x + if neg then 2 ^ (f.width - 1) else 0

/-- The magnitude pattern, without the sign. -/
def Fmt.magnitude (f : Fmt) (x : Nat) : Nat := x % 2 ^ (f.width - 1)

/-- The pattern is a NaN. -/
def Fmt.isNaN (f : Fmt) (x : Nat) : Bool :=
  match f.kind with
  | .ieee => f.infBits < f.magnitude x
  | .e4m3 => f.magnitude x == 0x7F
  | .e2m1 => false

/-- A NaN whose top mantissa bit is 0 (R24). -/
def Fmt.isSNaN (f : Fmt) (x : Nat) : Bool := f.isNaN x && f.kind == .ieee && !x.testBit (f.mbits - 1)

/-- The pattern is an infinity. -/
def Fmt.isInf (f : Fmt) (x : Nat) : Bool := f.kind == .ieee && f.magnitude x == f.infBits

/-- The pattern is subnormal: exponent field 0 and a mantissa other than 0. -/
def Fmt.isSub (f : Fmt) (x : Nat) : Bool := f.magnitude x != 0 && f.magnitude x < 2 ^ f.mbits

/-- The exact value of a pattern (R23). -/
def Fmt.value (f : Fmt) (x : Nat) : FVal :=
  let a := f.magnitude x
  if f.isNaN x then .nan
  else if f.isInf x then .inf (f.neg x)
  else if a < 2 ^ f.mbits then .fin (f.neg x) a f.qmin false
  else .fin (f.neg x) (a % 2 ^ f.mbits + 2 ^ f.mbits) (f.qmin + (a / 2 ^ f.mbits - 1 : Nat)) false

/-- The value of an operand, read as a zero of its sign when it is subnormal and FTZ is in effect (R25). -/
def Fmt.operand (f : Fmt) (ftz : Bool) (x : Nat) : FVal :=
  if ftz && f.flushes && f.isSub x then .fin (f.neg x) 0 0 false else f.value x

/-! ## Flags (Table 2.7), in the order of VSTAT: NV DZ OF UF NX from bit 0 up -/

/-- The five IEEE flags. -/
abbrev Flags := BitVec 5
/-- Invalid. -/
def flNV : Flags := 1#5
/-- Division by zero. -/
def flDZ : Flags := 2#5
/-- Overflow. -/
def flOF : Flags := 4#5
/-- Underflow. -/
def flUF : Flags := 8#5
/-- Inexact. -/
def flNX : Flags := 16#5
/-- A flag when a condition holds. -/
def flag (b : Bool) (f : Flags) : Flags := if b then f else 0#5

/-! ## Rounding (R26 to R28, R31, R32) -/

/-- Rounding codes 1 to 7 (Table 2.4). -/
inductive Rnd where
  | rne | rtz | rdn | rup | rna | sr | rto
deriving DecidableEq, Repr

/-- The rounding of a code; 0 is RNE, as a mode field's 0 is (R26). -/
def Rnd.ofCode : BitVec 3 → Rnd
  | 2#3 => .rtz | 3#3 => .rdn | 4#3 => .rup | 5#3 => .rna | 6#3 => .sr | 7#3 => .rto | _ => .rne

/-- How an instruction rounds: the code, the SrWord it draws, saturation and flush-to-zero. -/
structure RndEnv where
  rnd : Rnd
  draw : Nat
  sat : Bool
  ftz : Bool
deriving DecidableEq, Repr

/-- RNE with nothing else in effect, as memory-side arithmetic rounds (R39, R103, R161). -/
def RndEnv.plain : RndEnv := ⟨.rne, 0, false, false⟩

/-- SrWord (R31). -/
def srWord (seed idx : Word) : Nat :=
  let x := seed ^^^ (idx * 0xD1B54A32D192ED03#64)
  let x := x ^^^ (x >>> 31)
  let x := x * 0xAEF17502108EF2D9#64
  let x := x ^^^ (x >>> 29)
  (x >>> 32).toNat

/-- Round m·2^−sh (with `sticky` for a further fraction below 1) to an integer, for a value of sign neg. -/
def roundInt (r : Rnd) (draw : Nat) (neg : Bool) (m sh : Nat) (sticky : Bool) : Nat × Bool :=
  let q := m >>> sh
  let rem := m % 2 ^ sh
  let half := if sh = 0 then 1 else 2 ^ (sh - 1)
  let inexact := rem != 0 || sticky
  let up :=
    match r with
    | .rne => decide (half < rem) || (rem == half && (sticky || q % 2 == 1))
    | .rtz => false
    | .rdn => inexact && neg
    | .rup => inexact && !neg
    | .rna => decide (half ≤ rem)
    | .sr => decide (2 ^ 32 ≤ (rem <<< 32) >>> sh + draw)
    | .rto => inexact && q % 2 == 0
  (q + bit up, inexact)

/-- Round a magnitude m·2^e to a multiple of 2^q. -/
def roundAt (r : Rnd) (draw : Nat) (neg : Bool) (m : Nat) (e : Int) (sticky : Bool) (q : Int) : Nat × Bool :=
  if q ≤ e then roundInt r draw neg ((m <<< (e - q).toNat) <<< 1) 1 sticky
  else roundInt r draw neg m (q - e).toNat sticky

/-- An overflow of an IEEE-type format (Table 2.5). -/
def overflowBits (f : Fmt) (r : Rnd) (neg : Bool) : Nat :=
  match r with
  | .rtz => f.maxBits
  | .rto => f.maxBits
  | .rdn => if neg then f.infBits else f.maxBits
  | .rup => if neg then f.maxBits else f.infBits
  | _ => f.infBits

/-- What an overflow or an infinite operand gives (R27, R28). -/
def overflow (f : Fmt) (env : RndEnv) (neg : Bool) : Nat × Flags :=
  match f.kind with
  | .ieee => (f.signed neg (if env.sat then f.maxBits else overflowBits f env.rnd neg), flOF ||| flNX)
  | .e4m3 => if env.sat then (f.signed neg f.maxBits, flOF ||| flNX) else (f.canonical, flNV)
  | .e2m1 => (f.signed neg f.maxBits, flOF ||| flNX)

/-- The magnitude m·2^e, rounded to the format's precision with an unbounded exponent range, is below the
least normal (R25). -/
def isTiny (f : Fmt) (env : RndEnv) (neg : Bool) (m : Nat) (e : Int) (sticky : Bool) : Bool :=
  let q : Int := (m.log2 : Int) + e - f.mbits
  let u := (roundAt env.rnd env.draw neg m e sticky q).1
  decide ((u.log2 : Int) + q < 1 - f.bias)

/-- Round an exact value once into a format, with its flags (R25 to R28). A NaN is canonical (R24). -/
def roundTo (f : Fmt) (env : RndEnv) (x : FVal) : Nat × Flags :=
  match x with
  | .nan => (f.canonical, flag (f.kind == .e2m1) flNV)
  | .inf neg => if f.kind = .ieee then (f.signed neg f.infBits, 0#5) else overflow f env neg
  | .fin neg m e sticky =>
    if m = 0 then (f.signed neg 0, 0#5)
    else
      let tiny := isTiny f env neg m e sticky
      if tiny && env.ftz && f.flushes then (f.signed neg 0, flUF ||| flNX)
      else
        let q := max ((m.log2 : Int) + e - f.mbits) f.qmin
        let (u, inexact) := roundAt env.rnd env.draw neg m e sticky q
        let b := (q - f.qmin).toNat <<< f.mbits + u
        if f.maxBits < b then overflow f env neg
        else (f.signed neg b, flag (tiny && inexact) flUF ||| flag inexact flNX)

/-! ## Exact arithmetic -/

/-- The integer whose 2^e multiple a finite value is. -/
def sInt (neg : Bool) (m : Nat) : Int := if neg then -(m : Int) else m

/-- A value from a signed integer multiple of 2^e; a zero takes the sign given. -/
def ofSInt (i : Int) (e : Int) (zneg : Bool) : FVal :=
  if i = 0 then .fin zneg 0 e false else .fin (decide (i < 0)) i.natAbs e false

/-- Negate. -/
def FVal.negate : FVal → FVal
  | .nan => .nan
  | .inf n => .inf (!n)
  | .fin n m e st => .fin (!n) m e st

/-- The sign of a value. -/
def FVal.isNeg : FVal → Bool
  | .nan => false | .inf n => n | .fin n _ _ _ => n

/-- The exact sum; the sign of an exact zero is R26's. -/
def addVal (r : Rnd) (x y : FVal) : FVal × Flags :=
  match x, y with
  | .nan, _ => (.nan, 0#5)
  | _, .nan => (.nan, 0#5)
  | .inf a, .inf b => if a = b then (.inf a, 0#5) else (.nan, flNV)
  | .inf a, _ => (.inf a, 0#5)
  | _, .inf b => (.inf b, 0#5)
  | .fin a m e _, .fin b n f _ =>
    if m = 0 ∧ n = 0 then (.fin (if a = b then a else r == .rdn) 0 0 false, 0#5)
    else
      let lo := min e f
      (ofSInt (sInt a (m <<< (e - lo).toNat) + sInt b (n <<< (f - lo).toNat)) lo (r == .rdn), 0#5)

/-- The exact product. -/
def mulVal (x y : FVal) : FVal × Flags :=
  match x, y with
  | .nan, _ => (.nan, 0#5)
  | _, .nan => (.nan, 0#5)
  | .inf a, .inf b => (.inf (a != b), 0#5)
  | .inf a, .fin b n _ _ => if n = 0 then (.nan, flNV) else (.inf (a != b), 0#5)
  | .fin a m _ _, .inf b => if m = 0 then (.nan, flNV) else (.inf (a != b), 0#5)
  | .fin a m e _, .fin b n f _ => (.fin (a != b) (m * n) (e + f) false, 0#5)

/-- The quotient, to more bits than any rounding needs. -/
def divVal (x y : FVal) : FVal × Flags :=
  match x, y with
  | .nan, _ => (.nan, 0#5)
  | _, .nan => (.nan, 0#5)
  | .inf _, .inf _ => (.nan, flNV)
  | .inf a, .fin b _ _ _ => (.inf (a != b), 0#5)
  | .fin a _ _ _, .inf b => (.fin (a != b) 0 0 false, 0#5)
  | .fin a m e _, .fin b n f _ =>
    if n = 0 then (if m = 0 then (.nan, flNV) else (.inf (a != b), flDZ))
    else
      let k := n.log2 + 160
      (.fin (a != b) ((m <<< k) / n) (e - f - k) ((m <<< k) % n != 0), 0#5)

/-- Integer square root, one bit a step, from bit i down. -/
def isqrtFrom (n : Nat) : Nat → Nat → Nat
  | 0, r => r
  | i + 1, r =>
    let r' := r + 2 ^ i
    isqrtFrom n i (if r' * r' ≤ n then r' else r)

/-- The integer square root. -/
def isqrt (n : Nat) : Nat := isqrtFrom n (n.log2 / 2 + 1) 0

/-- The square root, to more bits than any rounding needs. -/
def sqrtVal (x : FVal) : FVal × Flags :=
  match x with
  | .nan => (.nan, 0#5)
  | .inf n => if n then (.nan, flNV) else (.inf false, 0#5)
  | .fin n m e _ =>
    if m = 0 then (.fin n 0 0 false, 0#5)
    else if n then (.nan, flNV)
    else
      let k := 200 + (e % 2).toNat
      let y := m <<< k
      let r := isqrt y
      (.fin false r ((e - k) / 2) (r * r != y), 0#5)

/-- One over the square root of a positive finite value. -/
def rsqrtFin (m : Nat) (e : Int) : FVal :=
  -- m·2^e with e even: 1/√(m·2^e) = √(2^(2k)/m)·2^(−k−e/2)
  let odd := (e % 2).toNat
  let m := m <<< odd
  let e := e - odd
  let k := m.log2 + 160
  let r := isqrt (2 ^ (2 * k) / m)
  .fin false r (-(k : Int) - e / 2) (r * r * m != 2 ^ (2 * k))

/-! ## Comparison and order (R42, R99) -/

/-- x < y of two values that are no NaN; −0 equals +0. -/
def ltVal (x y : FVal) : Bool :=
  match x, y with
  | .nan, _ => false
  | _, .nan => false
  | .inf a, .inf b => a && !b
  | .inf a, .fin .. => a
  | .fin .., .inf b => !b
  | .fin a m e _, .fin b n f _ =>
    let lo := min e f
    decide (sInt a (m <<< (e - lo).toNat) < sInt b (n <<< (f - lo).toNat))

/-- x = y of two values that are no NaN. -/
def eqVal (x y : FVal) : Bool :=
  match x, y with
  | .nan, _ => false
  | _, .nan => false
  | x, y => !ltVal x y && !ltVal y x

/-- The smaller, or the larger, of two patterns: −0 below +0, a NaN yields the other operand, two NaNs the
canonical NaN, a signalling NaN sets NV (R42, R99). -/
def minMax (f : Fmt) (max : Bool) (x y : Nat) : Nat × Flags :=
  let fl := flag (f.isSNaN x || f.isSNaN y) flNV
  let v := f.value x
  let w := f.value y
  let xLess := ltVal v w || (eqVal v w && v.isNeg && !w.isNeg)
  (if f.isNaN x then (if f.isNaN y then f.canonical else y)
   else if f.isNaN y then x
   else if max then (if xLess then y else x) else (if xLess || x == y then x else y), fl)

/-- The class bit of a pattern (Table 6.2). -/
def classBits (f : Fmt) (x : Nat) : Nat :=
  let i :=
    if f.isNaN x then (if f.isSNaN x then 10 else 8)
    else if f.isInf x then 6
    else if f.magnitude x = 0 then 0
    else if f.isSub x then 2
    else 4
  2 ^ (i + bit (f.neg x))

/-! ## Conversions (R34) -/

/-- Float to integer of width w (FI): value and flags. -/
def toInt (env : RndEnv) (w : Nat) (sgn : Bool) (x : FVal) : Nat × Flags :=
  let lo : Int := if sgn then -(2 ^ (w - 1) : Int) else 0
  let hi : Int := if sgn then 2 ^ (w - 1) - 1 else 2 ^ w - 1
  match x with
  | .nan => (0, flNV)
  | .inf n => (ofSigned w (if n then lo else hi), flNV)
  | .fin n m e st =>
    let (u, inexact) := roundAt env.rnd env.draw n m e st 0
    let i := sInt n u
    if i < lo then (ofSigned w lo, flNV)
    else if hi < i then (ofSigned w hi, flNV)
    else (ofSigned w i, flag inexact flNX)

/-- Integer of width w to float (IF). -/
def fromInt (f : Fmt) (env : RndEnv) (w : Nat) (sgn : Bool) (x : Nat) : Nat × Flags :=
  let i : Int := if sgn then toSigned w x else ((x % 2 ^ w : Nat) : Int)
  roundTo f env (ofSInt i 0 false)

/-- Float to float (FW, FN). FTZ reads a subnormal operand as zero. -/
def floatToFloat (src dst : Fmt) (env : RndEnv) (x : Nat) : Nat × Flags :=
  let (b, fl) := roundTo dst env (src.operand env.ftz x)
  (b, fl ||| flag (src.isSNaN x) flNV)

/-- Clamp an integer to the range of a type (R126). -/
def clampInt (w : Nat) (sgn : Bool) (i : Int) : Int :=
  let lo : Int := if sgn then -(2 ^ (w - 1) : Int) else 0
  let hi : Int := if sgn then 2 ^ (w - 1) - 1 else 2 ^ w - 1
  max lo (min hi i)

/-- The integer that a pattern of a type stands for. -/
def intOf (w : Nat) (sgn : Bool) (x : Nat) : Int := if sgn then toSigned w x else ((x % 2 ^ w : Nat) : Int)

/-- Integer to integer (II). -/
def intToInt (srcW : Nat) (srcS : Bool) (dstW : Nat) (dstS sat : Bool) (x : Nat) : Nat :=
  let i := intOf srcW srcS x
  ofSigned dstW (if sat && dstW ≤ srcW then clampInt dstW dstS i else i)

end Sys2Proof.Machine
end

