-- ==== Sys2Proof/Machine/Memory.lean ====
section
/-! DEFINITION. Memory.lean: memory as a canonical list of cells, poison, the places of the state, and
the logs that every access may write (R14, R15, R349, R389, R390, R394). -/

namespace Sys2Proof.Machine

/-! ## Cells -/

/-- What an unlisted address reads as: zero in device memory (R403); in host memory by choice (log 5). -/
def Memory.unlisted : Byte := 0#8

/-- One byte. -/
def Memory.read : List Host.Cell → Nat → Byte
  | [], _ => Memory.unlisted
  | (x, c) :: r, a => if a < x then Memory.unlisted else if a = x then c else Memory.read r a

/-- Store one byte, keeping the canonical form. -/
def Memory.write : List Host.Cell → Nat → Byte → List Host.Cell
  | [], a, b => if b = Memory.unlisted then [] else [(a, b)]
  | (x, c) :: r, a, b =>
    if a < x then (if b = Memory.unlisted then (x, c) :: r else (a, b) :: (x, c) :: r)
    else if a = x then (if b = Memory.unlisted then r else (a, b) :: r)
    else (x, c) :: Memory.write r a b

/-- Canonical: addresses strictly rise from `lo`, and no cell equals what it would read as unlisted. -/
def Memory.wfFrom : Nat → List Host.Cell → Bool
  | _, [] => true
  | lo, (x, c) :: r => decide (lo ≤ x) && decide (c ≠ Memory.unlisted) && Memory.wfFrom (x + 1) r

/-- The canonical form of memory. -/
def Memory.wf (m : List Host.Cell) : Bool := Memory.wfFrom 0 m

/-- n bytes from a. -/
def Memory.readBytes (m : List Host.Cell) : Nat → Nat → List Byte
  | _, 0 => []
  | a, n + 1 => Memory.read m a :: Memory.readBytes m (a + 1) n

/-- Store bytes from a up. -/
def Memory.writeBytes (m : List Host.Cell) : Nat → List Byte → List Host.Cell
  | _, [] => m
  | a, b :: r => Memory.writeBytes (Memory.write m a b) (a + 1) r

/-- The aligned little-endian word at a. -/
def State.word (s : State) (a : Nat) : Word := leWord (Memory.readBytes s.mem a 8)

/-- Bytes at a. -/
def State.bytes (s : State) (a n : Nat) : List Byte := Memory.readBytes s.mem a n

/-! ## Poison (R389, R390) -/

/-- The bytes a .. a+n−1 include a poisoned granule, or bytes of a well line that holds poisoned data (R256). -/
def State.poisoned (s : State) (a n : Nat) : Bool :=
  (s.poison.any fun g => a / 8 ≤ g && g ≤ (a + n - 1) / 8)
    || s.wells.any fun p => p.2.pois && a / 64 ≤ p.1 && decide (p.1 ≤ (a + n - 1) / 64)

/-- Store bytes: a granule that is covered whole loses its poison, in the same step (R390). -/
def State.putBytes (s : State) (a : Nat) (bs : List Byte) : State :=
  { s with
    mem := Memory.writeBytes s.mem a bs
    poison := s.poison.filter fun g => !(decide (a ≤ 8 * g) && decide (8 * g + 8 ≤ a + bs.length)) }

/-- Store one word. -/
def State.putWord (s : State) (a : Nat) (w : Word) : State := s.putBytes a (leBytes 8 w.toNat)

/-- Poison the granules of n bytes at a. -/
def State.addPoison (s : State) (a n : Nat) : State :=
  { s with poison := (upTo (a / 8) ((a + n - 1) / 8 + 1)).foldl (fun l g => natInsert g l) s.poison }

/-- Move n bytes from a to b, both aligned to 8: poison goes with its granules (R390). -/
def State.moveBytes (s : State) (a b n : Nat) : State :=
  let t := s.putBytes b (s.bytes a n)
  let moved := s.poison.filter fun g => decide (a / 8 ≤ g) && decide (g < (a + n) / 8)
  { t with poison := moved.foldl (fun l g => natInsert (g - a / 8 + b / 8) l) t.poison }

/-! ## Physical addresses (R14) -/

/-- CHIP of a physical address. -/
def paChip (pa : Nat) : BitVec 12 := BitVec.ofNat 12 (pa >>> 52)
/-- DIE of a physical address. -/
def paDie (pa : Nat) : BitVec 3 := BitVec.ofNat 3 (pa >>> 49)
/-- TARGET of a physical address. -/
def paTarget (pa : Nat) : Nat := (pa >>> 44) % 32
/-- OFFSET of a physical address. -/
def paOffset (pa : Nat) : Nat := pa % 2 ^ 44

/-- The physical address of these parts. -/
def mkPa (chip : BitVec 12) (die : Nat) (target offset : Nat) : Nat :=
  chip.toNat <<< 52 + die <<< 49 + target <<< 44 + offset

/-- HBM4E byte x of a hall (Table 1.5). -/
def hbmPa (chip : BitVec 12) (hall : BitVec 4) (x : Nat) : Nat :=
  mkPa chip (hall.toNat / 2) (hall.toNat % 2) x

/-- Scratchpad byte x of a cluster of a hall (Table 1.5). -/
def spPa (chip : BitVec 12) (hall : BitVec 4) (cluster : BitVec 5) (x : Nat) : Nat :=
  mkPa chip (hall.toNat / 2) 4 ((hall.toNat % 2 * 32 + cluster.toNat) <<< 21 + x)

/-- The home hall of an address in targets 0 to 4 (R232). -/
def homeHall (pa : Nat) : BitVec 4 :=
  if paTarget pa = 4 then BitVec.ofNat 4 ((paDie pa).toNat * 2 + paOffset pa / 2 ^ 26 % 2)
  else BitVec.ofNat 4 ((paDie pa).toNat * 2 + paTarget pa % 2)

/-- The home slice of a line within the L2 of its hall (R17). -/
def homeSlice (pa : Nat) : BitVec 5 := BitVec.ofNat 5 (pa / 2 ^ 6) ^^^ BitVec.ofNat 5 (pa / 2 ^ 11) ^^^ BitVec.ofNat 5 (pa / 2 ^ 16)

/-- Lines of 64 bytes that one slice of 2 MiB holds; a hall's L2 has 32 slices (R7, Table 1.1). -/
def sliceLines : Nat := 32768

/-- The local cluster of a scratchpad address. -/
def spCluster (pa : Nat) : BitVec 5 := BitVec.ofNat 5 (paOffset pa >>> 21)

/-- The offset limit of a target (Table 1.5); none for a reserved target. -/
def targetLimit : Nat → Option Nat
  | 0 => some (64 * 2 ^ 30)
  | 1 => some (64 * 2 ^ 30)
  | 2 => some (384 * 10 ^ 9)
  | 3 => some (384 * 10 ^ 9)
  | 4 => some (2 ^ 27)
  | 5 => some (2 ^ 32)
  | 6 => some (2 ^ 44)
  | _ => none

/-! ## Places of the state -/

/-- Hall h. -/
def State.hall (s : State) (h : BitVec 4) : Hall := pick (w := 4) s.halls h

/-- Change hall h. -/
def State.onHall (s : State) (h : BitVec 4) (f : Hall → Hall) : State :=
  { s with halls := put (w := 4) s.halls h (f (s.hall h)) }

/-- VF v. -/
def State.vf (s : State) (v : BitVec 10) : VF := (alFind v.toNat s.vfs).getD VF.reset

/-- Change VF v. -/
def State.onVf (s : State) (v : BitVec 10) (f : VF → VF) : State :=
  { s with vfs := alSet v.toNat (f (s.vf v)) s.vfs }

/-- Cluster c of a hall. -/
def Hall.cluster (h : Hall) (c : BitVec 5) : Cluster := (alFind c.toNat h.clusters).getD Cluster.reset

/-- Change cluster c of a hall. -/
def State.onCluster (s : State) (h : BitVec 4) (c : BitVec 5) (f : Cluster → Cluster) : State :=
  s.onHall h fun x => { x with clusters := alSet c.toNat (f (x.cluster c)) x.clusters }

/-- Queue q of a VF. -/
def VF.queue (v : VF) (q : BitVec 7) : Queue := (alFind q.toNat v.queues).getD Queue.reset

/-- Change queue q of a VF. -/
def State.onQueue (s : State) (v : BitVec 10) (q : BitVec 7) (f : Queue → Queue) : State :=
  s.onVf v fun x => { x with queues := alSet q.toNat (f (x.queue q)) x.queues }

/-- Change the hart. -/
def State.onHart (s : State) (f : Hart → Hart) : State := { s with hart := f s.hart }

/-- CHIP of HID (Table 3.7). -/
def State.chip (s : State) : BitVec 12 := s.hid.extractLsb' 15 12
/-- HALL of HID. -/
def State.myHall (s : State) : BitVec 4 := s.hid.extractLsb' 8 4
/-- CLUSTER of HID. -/
def State.myCluster (s : State) : BitVec 5 := s.hid.extractLsb' 3 5
/-- HART of HID. -/
def State.myHart (s : State) : BitVec 3 := s.hid.extractLsb' 0 3

/-- The VF of the hart's unit: bits 25:16 of LID (R48). -/
def State.myVf (s : State) : BitVec 10 := s.hart.lid.extractLsb' 16 10

/-- The tenant of a VF. -/
def State.tenantOf (s : State) (v : BitVec 10) : BitVec 16 := (s.vf v).tenant

/-- A tenant owns a hall of the package (R342). -/
def State.owns (s : State) (t : BitVec 16) (h : BitVec 4) : Bool := t != 0 && (s.hall h).tenant == t

/-- The halls of a tenant, as a mask. -/
def State.hallMask (s : State) (t : BitVec 16) : BitVec 16 :=
  (List.range 16).foldl (fun m i => if s.owns t (BitVec.ofNat 4 i) then setBit m i true else m) 0#16

/-- Take a free value of a word (log 9). -/
def State.freeWord (s : State) : Word × State := (Config.freeWord s.fresh, { s with fresh := s.fresh + 1 })

/-! ## Logs -/

/-- Write a violation log entry in a hall (R349). -/
def State.logViolation (s : State) (h : BitVec 4) (v : Violation) : State :=
  s.onHall h fun x =>
    let ovf := (alFind x.vnext x.vlog).any (·.valid)
    { x with
      vlog := alSet x.vnext v x.vlog
      vnext := (x.vnext + 1) % 256
      vovf := if ovf && x.vovf != BitVec.allOnes 32 then x.vovf + 1 else x.vovf }

/-- The violation log entry of a request of a VF from a hall (Table 23.7). -/
def State.violation (s : State) (pa : Nat) (h : BitVec 4) (v : BitVec 10) (cause : Nat) : Violation :=
  { pa := BitVec.ofNat 64 pa, chip := s.chip, hall := h, vf := v, cause := BitVec.ofNat 8 cause, time := s.podt, valid := true }

/-- Write an error log entry in a hall (R394). -/
def State.logError (s : State) (h : BitVec 4) (e : ErrorEntry) : State :=
  s.onHall h fun x =>
    let ovf := (alFind x.enext x.elog).any (·.valid)
    { x with
      elog := alSet x.enext e x.elog
      enext := (x.enext + 1) % 1024
      eovf := if ovf && x.eovf != BitVec.allOnes 32 then x.eovf + 1 else x.eovf }

/-- An error log entry of this hall and time (Table 28.5). -/
def State.errorEntry (s : State) (src addr : Nat) (ue : Bool) (synd : Word) : ErrorEntry :=
  { addr := BitVec.ofNat 64 addr, src := BitVec.ofNat 8 src, ue := ue, scrub := false, cluster := 0#5, hart := 0#3,
    lane := 0#7, time := s.podt, synd := synd, valid := true }

/-- The parity of the hall whose register block or census region an offset of target 5 names (R232). -/
def regHall (off : Nat) : Option Nat :=
  if 0x1000000 ≤ off && off < 0x2000000 then some 0
  else if 0x2000000 ≤ off && off < 0x3000000 then some 1
  else if 0x80000000 ≤ off && off < 0xC0000000 then some 0
  else if 0xC0000000 ≤ off then some 1
  else none

/-- The traffic counter pair of an access from hall h (R232): 0 local, 2 sibling, 4 die, 6 chip, 8 host. -/
def State.trafficKind (s : State) (pa : Nat) (h : BitVec 4) : Nat :=
  if paTarget pa = 6 then 8
  else if paChip pa ≠ s.chip then 6
  else if (paDie pa).toNat ≠ h.toNat / 2 then 4
  else if paTarget pa < 5 then (if homeHall pa != h then 2 else 0)
  else match regHall (paOffset pa) with
    | some p => if p = h.toNat % 2 then 0 else 2
    | none => 0

/-- Add to a traffic counter of hall h, unless it is frozen (R233). -/
def State.addTraffic (s : State) (h : BitVec 4) (i n : Nat) : State :=
  if (s.hall h).freeze then s
  else s.onHall h fun x =>
    { x with traffic := x.traffic.setIfInBounds i ((x.traffic[i]?.getD 0#64) + BitVec.ofNat 64 n) }

/-- What an access of run-ahead counted is not counted: the traffic counters of its hall are as in t (R233, R327). -/
def State.countsOf (s t : State) (h : BitVec 4) : State := s.onHall h fun x => { x with traffic := (t.hall h).traffic }

/-- An address of a census region, whose reads count nowhere (R406). -/
def inCensus (pa : Nat) : Bool := paTarget pa == 5 && decide (0x80000000 ≤ paOffset pa)

/-- Count an access performed at its home (R233). -/
def State.countAccess (s : State) (h : BitVec 4) (pa n : Nat) (write : Bool) : State :=
  s.addTraffic h (s.trafficKind pa h + bit write) n

end Sys2Proof.Machine
end

