-- ==== Sys2Proof/Machine/Home.lean ====
section
/-! DEFINITION. Home.lean: what a request meets at its home: targets and limits (R15), fabric gates and
gallery windows (R16, R347), scratchpad owners (R228), ink pages (R260), host ports (R355), poison (R389),
and what a performed write sets off (R195, R202, R204). A request comes from a hall and acts for a VF, or
for none in mode P (R334). -/

namespace Sys2Proof.Machine

/-- How a home answers a request that it does not serve: an error response (R15), poison (R389), or bytes
at or above the tail of an ink page (R87). -/
inductive Late where
  | error | poison | tail
deriving DecidableEq, Repr

/-- What the gate of the home hall decides (R347, R349): admitted, or refused with a violation cause. -/
inductive Gate where
  | pass
  | refuse (cause : Nat)
deriving DecidableEq, Repr

/-! ## Regions (R254, R319) -/

/-- Byte offset of a hall address within its HBM4E lies in the GiB range base .. base+size−1. -/
def inGib (pa base size : Nat) : Bool :=
  paTarget pa < 2 && base * 2 ^ 30 ≤ paOffset pa && decide (paOffset pa < (base + size) * 2 ^ 30)

/-- A frame of the home hall's well region. -/
def State.inWells (s : State) (pa : Nat) : Bool :=
  let c := (s.hall (homeHall pa)).wellcfg
  inGib pa (fieldNat c 0 6) (fieldNat c 8 6)

/-- A frame of the home hall's ink region, in HBM4E or in tier-2 memory (ITIER). -/
def State.inInk (s : State) (pa : Nat) : Bool :=
  let c := (s.hall (homeHall pa)).inkcfg
  let base := fieldNat c 0 9
  let size := fieldNat c 32 8
  (if c.getLsbD 40 then paTarget pa == 2 || paTarget pa == 3 else decide (paTarget pa < 2))
    && base * 2 ^ 30 ≤ paOffset pa && decide (paOffset pa < (base + size) * 2 ^ 30)

/-- Bytes of the context save region, which no program access reaches (R319). -/
def State.inSave (s : State) (pa : Nat) : Bool :=
  let c := (s.hall (homeHall pa)).cscfg
  inGib pa (fieldNat c 0 6) (fieldNat c 8 6)

/-- The frame number of an ink page. -/
def inkFrame (pa : Nat) : Nat := pa / 65536

/-- The tail-table entry of the page of an address (R259); FREE when it is not listed. -/
def State.inkPage (s : State) (pa : Nat) : InkPage :=
  (alFind (inkFrame pa) s.ink).getD
    { st := .free, vf := 0#10, tail := 0, pend := 0, rmap := 0#16, epois := false, reads := 0 }

/-! ## Reaching a home -/

/-- The port is up and carries data (R378). -/
def ExtPort.up (p : ExtPort) : Bool := p.state == 2#4 && !p.down

/-- A packet from a hall for another chip finds a port that is up (R379). -/
def State.routeUp (s : State) (h : BitVec 4) (chip : BitVec 12) : Bool :=
  let e := (alFind chip.toNat (s.hall h).route).getD 0#16
  e.getLsbD 15 && (List.range 9).any fun i => e.getLsbD i && ((s.hall h).ports[i]?.map ExtPort.up).getD false

/-- An enabled window of the hall grants tenant t a request on n bytes at pa (R347); a window over
scratchpad must lie within one cluster. -/
def Gallery.grants (g : Gallery) (h : BitVec 4) (t : BitVec 16) (pa n : Nat) (write : Bool) : Bool :=
  let base := g.base.toNat
  let size := fieldNat g.ctl 0 16 * 65536
  let last := base + size - 1
  g.ctl.getLsbD 63 && g.ctl.extractLsb' 16 16 == t && decide (size ≠ 0) && base ≤ pa && pa + n ≤ base + size
    && homeHall base == h && homeHall last == h && paTarget base == paTarget last && paDie base == paDie last
    && decide (paTarget base < 5) && (paTarget base != 4 || paOffset base >>> 21 == paOffset last >>> 21)
    && (!write || g.ctl.getLsbD 62)

/-- A unit that holds a hart: placed, running or waiting (R211). -/
def UnitRec.onHart (u : UnitRec) : Bool := u.st != .preempted

/-- The group whose range holds a scratchpad byte of a cluster (R212, R228). -/
def State.spOwner (s : State) (h : BitVec 4) (c : BitVec 5) (x : Nat) : Option (BitVec 10) :=
  (s.units.find? fun u => u.onHart && u.hall == h && u.cluster == c && u.spOff ≤ x && decide (x < u.spOff + u.spBytes)).map
    fun u => u.key.vf

/-- The 4 KiB of a scratchpad request is held by a group that may be reached (R228, R347). -/
def State.spAdmit (s : State) (who : Option (BitVec 10)) (h : BitVec 4) (pa : Nat) : Bool :=
  match who with
  | none => true
  | some v =>
    match s.spOwner h (spCluster pa) (paOffset pa % 2 ^ 21 / 4096 * 4096) with
    | none => false
    | some w => if s.owns (s.tenantOf v) h then w == v else s.owns (s.tenantOf w) h

/-- The gate of a hall, for a request of a VF or of none (R343 to R347); it is closed to a VF in reset, and to
requests from other tenants while a VF of the hall's tenant is in reset (R352, log 16). Cause 1 is for a write refused only for
want of WR. -/
def State.gate (s : State) (who : Option (BitVec 10)) (h : BitVec 4) (pa n : Nat) (write : Bool) : Gate :=
  let hh := s.hall h
  match hh.st with
  | .reset => .refuse 2
  | .fenced => .refuse 5
  | .running =>
    match who with
    | none => .pass
    | some v =>
      let t := s.tenantOf v
      if (s.vf v).rstBusy then .refuse 2
      else if s.owns t h then .pass
      else if s.vfs.any fun p => p.2.rstBusy && p.2.tenant == hh.tenant then .refuse 2
      else if hh.gallery.any fun g => g.grants h t pa n write then .pass
      else if write && (hh.gallery.any fun g => g.grants h t pa n false) && (paTarget pa != 4 || s.spAdmit who h pa) then .refuse 1
      else .refuse 0

/-- The pair of dies from a hall to the home of an address has no path, or its replies have none: every flit for it ends with
an error response (R376). -/
def State.pairLost (s : State) (frm : BitVec 4) (pa : Nat) : Bool :=
  let a := frm.toNat / 2
  let b := (paDie pa).toNat
  let lost (x y : Nat) : Bool := ((s.fabric.lost[x]?).getD 0#8).getLsbD y
  decide (a ≠ b) && (lost a b || lost b a)

/-- The gate of the hall that sends a request: closed in reset and while fenced, and refusing every flit of a tenant that does
not own the hall (R12, R344, R345). -/
def State.sends (s : State) (who : Option (BitVec 10)) (frm : BitVec 4) : Gate :=
  match (s.hall frm).st with
  | .reset => .refuse 2
  | .fenced => .refuse 5
  | .running =>
    match who with
    | none => .pass
    | some v => if s.owns (s.tenantOf v) frm then .pass else .refuse 0

/-- The request of hall `frm` leaves it (R12). -/
def State.leaves (s : State) (frm : BitVec 4) (pa : Nat) : Bool :=
  paTarget pa == 6 || paChip pa != s.chip || homeHall pa != frm

/-- A page of the ink region that is being freed: no path reads it (R262). -/
def State.inkFreeing (s : State) (pa : Nat) : Bool :=
  decide (paTarget pa < 4) && s.inInk pa && (s.inkPage pa).st == .freeing

/-- The tenant that owns the home hall of an address: of this package, or of another, for which Config stands (R16, R342, log 28). -/
def State.ownerOf (s : State) (pa : Nat) : BitVec 16 :=
  if paChip pa = s.chip then (s.hall (homeHall pa)).tenant
  else Config.remoteTenant s.era ((paChip pa).toNat * 16 + (homeHall pa).toNat)

/-- What the gate of a hall of another package answers: its owner passes; of another's windows Config tells (R16, R342,
log 28). -/
def State.remoteGate (s : State) (who : Option (BitVec 10)) (pa : Nat) (write : Bool) : Option (Option Nat) :=
  match who with
  | none => none
  | some v =>
    if s.tenantOf v != 0#16 && s.ownerOf pa == s.tenantOf v then none
    else match Config.remoteGate s.era (s.tenantOf v) pa write with
    | 0 => none
    | c + 1 => some (some (match c % 4 with | 0 => 0 | 1 => 1 | 2 => 2 | _ => 5))

/-- MODE of the host port that an address of target 6 names: of this package, or of another, for which Config stands (R354, R355,
log 28). -/
def State.portMode (s : State) (pa : Nat) : BitVec 2 :=
  if 4 ≤ (paDie pa).toNat then 0#2
  else if paChip pa = s.chip then ((s.hostPorts[(paDie pa).toNat]?).map (·.mode)).getD 0#2
  else BitVec.ofNat 2 (Config.remotePort s.era ((paChip pa).toNat * 4 + (paDie pa).toNat) % 3)

/-- A port carries CXL.cache, and its package is this one: its lines may be held here (R356). -/
def State.hostCached (s : State) (pa : Nat) : Bool :=
  paChip pa == s.chip && ((s.hostPorts[(paDie pa).toNat]?).map (·.cache)).getD false

/-- Whether n bytes at pa exist and may be reached from hall `from`: none, or the violation cause to log,
where there is one (R12, R15, R16, R228, R262, R319, R355, R403). Register addresses are not decided here. -/
def State.refusal (s : State) (who : Option (BitVec 10)) (frm : BitVec 4) (pa n : Nat) (write : Bool) :
    Option (Option Nat) :=
  match targetLimit (paTarget pa) with
  | none => some none
  | some lim =>
    if paOffset pa + n > lim then some none
    else if !(s.image.pod.contains (paChip pa)) then some none
    else if let .refuse c := (if s.leaves frm pa then s.sends who frm else .pass) then some (some c)
    else if paTarget pa = 6 then
      if s.portMode pa != 0#2 && (paChip pa == s.chip || s.routeUp frm (paChip pa)) then none else some none
    else if paChip pa ≠ s.chip then
      if s.routeUp frm (paChip pa) then s.remoteGate who pa write else some none
    else if s.pairLost frm pa then some none
    else
      let h := homeHall pa
      match s.gate who h pa n write with
      | .refuse c => some (some c)
      | .pass =>
        if paTarget pa = 4 && !s.spAdmit who h pa then some (some 0)
        else if s.inSave pa then some none
        else if !write && s.inkFreeing pa then some none
        else none

/-- Log a refused request where R349 gives. -/
def State.logRefusal (s : State) (who : Option (BitVec 10)) (frm : BitVec 4) (pa : Nat) : Option Nat → State
  | none => s
  | some c => s.logViolation frm (s.violation pa frm (who.getD 0#10) c)

/-! ## Reads -/

/-- The bytes of an INK page lie below its tail and may be read (R87, R260, R262). -/
def State.inkReadable (s : State) (pa n : Nat) : Option Late :=
  let p := s.inkPage pa
  if p.epois then some .poison
  else match p.st with
    | .free => some .error
    | .freeing => some .error
    | _ => if pa % 65536 + n ≤ p.tail then none else some .tail

/-- Read n bytes at the home (R87, R390). `ink`: the page has class INK. -/
def State.readHome (s : State) (who : Option (BitVec 10)) (frm : BitVec 4) (pa n : Nat) (ink : Bool) :
    Except Late (List Byte) :=
  match s.refusal who frm pa n false with
  | some _ => .error .error
  | none =>
    match (if ink then s.inkReadable pa n else none) with
    | some e => .error e
    | none => if s.poisoned pa n then .error .poison else .ok (s.bytes pa n)

/-! ## What a performed write sets off -/

/-- Fire the hart's wait entries on the 8-byte words of n bytes at pa (R202). -/
def State.fireWaits (s : State) (pa n : Nat) : State :=
  let hit := s.hart.armedPa.filter fun p => pa / 8 ≤ p.2 / 8 && p.2 / 8 ≤ (pa + n - 1) / 8
  s.onHart fun h =>
    { h with
      armedPa := h.armedPa.filter fun p => !(decide (pa / 8 ≤ p.2 / 8) && decide (p.2 / 8 ≤ (pa + n - 1) / 8))
      armed := hit.foldl (fun a p => setBit a p.1 false) h.armed
      fired := hit.foldl (fun a p => setBit a p.1 true) h.fired }

/-- CMP of a landing descriptor on the word it watches (Table 11.8). -/
def landingMatches (cmp : Nat) (word value : Word) : Bool :=
  match cmp with
  | 0 => true
  | 1 => word == value
  | 2 => word != value
  | 3 => value.sle word
  | 4 => value.ule word
  | _ => false

/-- A trigger of a landing: its action is queued, or dropped when eight are (R277). -/
def Landing.trigger (l : Landing) : Landing :=
  let l := { l with trigs := l.trigs + 1 }
  let l := if l.pend < 8 then { l with pend := l.pend + 1 } else { l with lostn := Nat.min 255 (l.lostn + 1) }
  if (wordAt l.desc 0).getLsbD 8 then { l with st := .closing } else l

/-- Evaluate a landing of hall h against the word it watches, after a write (R204, R276). -/
def State.evalLanding (s : State) (h : BitVec 4) (n : Nat) (l : Landing) : State :=
  if l.st = .armed && landingMatches (fieldNat (wordAt l.desc 0) 0 3) (s.word l.pa) (wordAt l.desc 1) then
    s.onHall h fun x => { x with landings := alSet n l.trigger x.landings }
  else s

/-- Evaluate every landing on the words of n bytes at pa, at their home hall. -/
def State.fireLandings (s : State) (pa n : Nat) : State :=
  if paTarget pa < 4 && paChip pa == s.chip then
    let h := homeHall pa
    (s.hall h).landings.foldl
      (fun s p => if pa / 8 ≤ p.2.pa / 8 && p.2.pa / 8 ≤ (pa + n - 1) / 8 then s.evalLanding h p.1 p.2 else s) s
  else s

/-- Drop, from the windows of the writing hart's hall, the lines of n bytes at pa (R195). -/
def State.dropWindowLines (s : State) (h : BitVec 4) (pa n : Nat) : State :=
  s.onHall h fun x =>
    { x with windows := x.windows.map fun p =>
        (p.1, { p.2 with lines := p.2.lines.filter fun l => !(decide (pa / 64 ≤ l.pa) && decide (l.pa ≤ (pa + n - 1) / 64)) }) }

/-- Drop the lines of n bytes at pa from the windows of the hart's hall, and of the hall of the span position that writes
(R195, R220). -/
def State.dropOwnLines (s : State) (frm : BitVec 4) (pa n : Nat) : State :=
  let t := s.dropWindowLines s.myHall pa n
  if frm = s.myHall then t else t.dropWindowLines frm pa n

/-- Everything a performed write of n bytes at pa sets off. -/
def State.afterWrite (s : State) (pa n : Nat) : State := (s.fireWaits pa n).fireLandings pa n

/-- The ordinary lines newer than memory that the slice of a line holds. -/
def State.sliceDirty (s : State) (line : Nat) : List Nat :=
  s.dirty.filter fun l =>
    homeHall (l * 64) == homeHall (line * 64) && homeSlice (l * 64) == homeSlice (line * 64) && !s.inWells (l * 64)

/-- An ordinary line leaves its slice for memory, which is then as new (R17). Well lines leave by an event of their own
(R257). -/
def State.evictLine (s : State) (line : Nat) : State :=
  if s.inWells (line * 64) then s else { s with dirty := s.dirty.filter (· != line) }

/-- A line of HBM4E or tier-2 memory is now newer than memory (R389). A slice that would hold more of them than it has room for
writes one back; which, and when a line leaves before that, the manual leaves open (log 75). -/
def State.touchOne (s : State) (line : Nat) : State :=
  let s : State := { s with dirty := natInsert line s.dirty }
  let mine := s.sliceDirty line
  if mine.length ≤ sliceLines then s
  else
    { s.evictLine (mine.getD ((Config.freeWord s.fresh).toNat % mine.length) line) with fresh := s.fresh + 1 }

/-- Where the tail-table entry of an ink page lies: after the replica pool of its home hall (R254, R259). -/
def State.tailPa (s : State) (pa : Nat) : Nat :=
  let c := (s.hall (homeHall pa)).inkcfg
  hbmPa (paChip pa) (homeHall pa)
    ((fieldNat c 16 6 + fieldNat c 48 8) * 2 ^ 30 + 16 * (paOffset pa / 65536 - fieldNat c 0 9 * 16384))

/-- Change the tail-table entry of a page, which is then newer than memory. -/
def State.onInk (s : State) (pa : Nat) (f : InkPage → InkPage) : State :=
  ({ s with ink := alSet (inkFrame pa) (f (s.inkPage pa)) s.ink } : State).touchOne (s.tailPa pa / 64)

/-- The lines of n bytes at pa are now newer than memory (R389). -/
def State.touchLine (s : State) (pa n : Nat) : State :=
  if paTarget pa < 4 then (upTo (pa / 64) ((pa + n - 1) / 64 + 1)).foldl State.touchOne s else s

/-- Put bytes at their home, with what that sets off. -/
def State.performBytes (s : State) (pa : Nat) (bs : List Byte) : State :=
  ((s.putBytes pa bs).touchLine pa bs.length).afterWrite pa bs.length

/-- A write to an INK page, by whatever path, never lands (R164, R260). -/
def State.inkRefuses (s : State) (pa : Nat) : Bool :=
  s.inInk pa && (s.inkPage pa).st != .free

/-- The home hall logs a write to a page that is sealed or being freed (R260). -/
def State.logSealed (s : State) (who : Option (BitVec 10)) (frm : BitVec 4) (pa : Nat) : State :=
  if (s.inkPage pa).st == .sealed || (s.inkPage pa).st == .freeing
  then s.logViolation (homeHall pa) (s.violation pa frm (who.getD 0#10) 3) else s

/-- Write bytes at the home: an error response writes nothing (R15); a write to a sealed page is logged by
the home hall (R260). -/
def State.writeHome (s : State) (who : Option (BitVec 10)) (frm : BitVec 4) (pa : Nat) (bs : List Byte) :
    Except State State :=
  match s.refusal who frm pa bs.length true with
  | some c => .error (s.logRefusal who frm pa c)
  | none =>
    if paTarget pa < 4 && s.inkRefuses pa then
      .error (s.logSealed who frm pa)
    else .ok (s.performBytes pa bs)

/-! ## Host lines (R356) -/

/-- A host line leaves the L2 that holds it; a Modified one is written back (R233, R358). -/
def State.dropHostLine (s : State) (pa : Nat) : State :=
  let s' : State := { s with hostLines := s.hostLines.filter fun l => l.line != pa / 64 }
  match s.hostLines.find? fun l => l.line == pa / 64 with
  | some l => if l.modified then s'.addTraffic l.holder 9 64 else s'
  | none => s'

/-- The host lines that a hall may keep in its L2: 8 MiB (R356). -/
def hostLinesMax : Nat := 131072

/-- A hall that keeps as many host lines as it may evicts one; which is open (R356, log 79). -/
def State.hostRoom (s : State) (h : BitVec 4) : State :=
  let l := s.hostLines.filter fun x => x.holder == h
  if l.length < hostLinesMax then s
  else match l[Config.elementRank s.fresh l.length % l.length]? with
    | some x => ({ s with fresh := s.fresh + 1 } : State).dropHostLine (x.line * 64)
    | none => s

/-- Count a read or a write of n bytes of host memory, and keep the line in the L2 of the hall that first
missed it on a CXL.cache port. -/
def State.countHost (s : State) (h : BitVec 4) (pa n : Nat) (write : Bool) : State :=
  if !s.hostCached pa then s.addTraffic h (8 + bit write) n
  else match s.hostLines.find? fun l => l.line == pa / 64 with
    | some l =>
      let s := if write then
          { s with hostLines := replaceFirst (fun l => l.line == pa / 64) (fun l => { l with modified := true }) s.hostLines }
        else s
      if l.holder == h then s.addTraffic h (bit write) n else s.addTraffic h (8 + bit write) n
    | none =>
      let s := s.hostRoom h
      { s.addTraffic h 8 64 with hostLines := { line := pa / 64, holder := h, modified := write } :: s.hostLines }

/-- Count a device access: no copy of a DEV page of host memory is held (R229, R356), and a read of the census counts nowhere (R406). -/
def State.countDevice (s : State) (h : BitVec 4) (pa n : Nat) (write : Bool) : State :=
  if inCensus pa then s
  else if paTarget pa = 6 then s.addTraffic h (8 + bit write) n else s.countAccess h pa n write

/-- Count an access, by its target (R233). -/
def State.count (s : State) (h : BitVec 4) (pa n : Nat) (write : Bool) : State :=
  if paTarget pa = 6 then s.countHost h pa n write else s.countAccess h pa n write

/-- Count an atomic update. One of host memory that the host home agent performs finds no copy left in a device
cache (R161, R358). -/
def State.countUpdate (s : State) (h : BitVec 4) (pa n : Nat) (atHost : Bool) : State :=
  if paTarget pa = 6 && atHost then (s.dropHostLine pa).addTraffic h 9 n else s.count h pa n true

end Sys2Proof.Machine
end

