-- ==== Sys2Proof/Machine/Xlate.lean ====
section
/-! DEFINITION. Xlate.lean: page tables, the walk, translation caches and the local alias
(R227, R330 to R336). -/

namespace Sys2Proof.Machine

/-- The kind of an access (R331, Table 22.5). -/
inductive Kind where
  | load | store | rmw | fetch
deriving DecidableEq, Repr

/-- KIND of Tables 21.8 and 22.5, and DETAIL of R313. -/
def Kind.code : Kind → Nat
  | .load => 0 | .store => 1 | .rmw => 2 | .fetch => 3

/-- Why a walk fails (REASON of Table 22.5). -/
inductive Reason where
  | invalid | permission | class | walkError
deriving DecidableEq, Repr

/-- REASON code. -/
def Reason.code : Reason → Nat
  | .invalid => 0 | .permission => 1 | .class => 2 | .walkError => 3

/-- Memory classes (Table 3.12). -/
inductive Class where
  | nrm | ink | wlx | wlf | dev
deriving DecidableEq, Repr

/-- The class of a code; none for the reserved codes (R58). -/
def Class.ofCode : Nat → Option Class
  | 0 => some .nrm | 1 => some .ink | 2 => some .wlx | 3 => some .wlf | 4 => some .dev | _ => none

/-- A translation: the physical address and the class of its page. -/
structure Xl where
  pa : Nat
  cls : Class
deriving DecidableEq, Repr

/-- Page size of a leaf, by SIZE (Table 22.1). -/
def pageSize (pte : Word) : Nat :=
  match fieldNat pte 11 2 with | 0 => 2 ^ 16 | 1 => 2 ^ 21 | _ => 2 ^ 30

/-- SIZE fits the level at which a leaf stands, and FRAME is aligned (R331). -/
def leafFits (lvl : Nat) (pte : Word) : Bool :=
  let sz := fieldNat pte 11 2
  ((lvl == 3 && (sz == 0 || sz == 1)) || (lvl == 2 && sz == 2)) && (pte.toNat / 65536 * 65536) % pageSize pte == 0

/-- Permits of R331. -/
def permits (pte : Word) (k : Kind) (m : Mode) : Bool :=
  (match k with
    | .load => pte.getLsbD 7
    | .store => pte.getLsbD 8
    | .rmw => pte.getLsbD 7 && pte.getLsbD 8
    | .fetch => pte.getLsbD 9)
  && (m != .a || pte.getLsbD 10)

/-- ClassFits of R331, with the classes that each target may have (R254, R355). -/
def State.classFits (s : State) (pte : Word) : Bool :=
  let pa := pte.toNat / 65536 * 65536
  match Class.ofCode (fieldNat pte 13 3) with
  | none => false
  | some c =>
    (match c with
      | .wlx => s.inWells pa
      | .wlf => s.inWells pa
      | .ink => s.inInk pa
      | .dev => paTarget pa == 5 || paTarget pa == 6
      | .nrm => paTarget pa != 5)
    && (paTarget pa != 4 || c == .nrm)

/-- One walk read: an aligned word at its home (R330). -/
def State.walkRead (s : State) (who : Option (BitVec 10)) (frm : BitVec 4) (pa : Nat) : Option Word :=
  if paTarget pa = 5 || paTarget pa = 6 && pa % 8 ≠ 0 then none
  else match s.refusal who frm pa 8 false with
    | some _ => none
    | none => if s.poisoned pa 8 then none else some (s.word pa)

/-- The bits of a virtual address that lead a walk to its entry of level lvl. -/
def walkPart (va : Word) (lvl : Nat) : Nat := fieldNat va (46 - 10 * lvl) (10 * (lvl + 1))

/-- The cached table entries that a walk may use at a level (R335). -/
def State.cachedTables (s : State) (who : Option (BitVec 10)) (frm : BitVec 4) (va : Word) (lvl : Nat) : List Word :=
  (s.walks.filter fun e => e.space == who && e.hall == frm && e.lvl == lvl && e.part == walkPart va lvl).map (·.pte)

/-- The entry at address a that a walk finds at level lvl: a cached table entry, or what a walk read returns. Until a
shootdown, which of them is used is open (R335, log 8). -/
def State.walkEntry (s : State) (who : Option (BitVec 10)) (frm : BitVec 4) (va : Word) (lvl a : Nat) : Option Word :=
  let l := s.cachedTables who frm va lvl
  match l[Config.tlbPick s.era (walkPart va lvl) % (l.length + 1)]? with
  | some pte => some pte
  | none => s.walkRead who frm a

/-- How a walk ends: at a leaf entry, or with a failure and, for one of a walk read, where it was; `seen` holds the table
entries on the way, by level. -/
structure Walked where
  res : Except Reason Word
  seen : List (Nat × Word)
  lost : Option Nat

/-- The walk of R331, `left` levels before the last, at the table t. -/
def State.walkFrom (s : State) (who : Option (BitVec 10)) (frm : BitVec 4) (va : Word) : Nat → Nat → List (Nat × Word) → Walked
  | left, t, seen =>
    let lvl := 3 - left
    let a := t + 8 * fieldNat va (46 - 10 * lvl) 10
    match s.walkEntry who frm va lvl a with
    | none => { res := .error .walkError, seen := seen, lost := some a }
    | some pte =>
      if !pte.getLsbD 0 then { res := .error .invalid, seen := seen, lost := none }
      else if pte.getLsbD 1 then
        { res := if pte.extractLsb' 2 5 != 0#5 || !leafFits lvl pte then .error .invalid else .ok pte, seen := seen, lost := none }
      else if pte.extractLsb' 2 11 != 0#11 then { res := .error .invalid, seen := seen, lost := none }
      else match left with
        | 0 => { res := .error .invalid, seen := seen, lost := none }
        | n + 1 => s.walkFrom who frm va n (pte.toNat / 8192 * 8192) (seen ++ [(lvl, pte)])

/-- The root of a walk (R334, R350): none when every walk of the VF fails. -/
def State.root (s : State) (who : Option (BitVec 10)) (frm : BitVec 4) : Option Nat :=
  match who with
  | none => some ((s.hall frm).proot.toNat / 8192 * 8192)
  | some v =>
    let f := s.vf v
    if f.xroot.getLsbD 0 && f.en && s.hallMask f.tenant != 0#16 then some (f.xroot.toNat / 8192 * 8192) else none

/-- A walk from the root. -/
def State.walked (s : State) (who : Option (BitVec 10)) (frm : BitVec 4) (va : Word) : Walked :=
  match s.root who frm with
  | none => { res := .error .invalid, seen := [], lost := none }
  | some r => s.walkFrom who frm va 3 r []

/-- The leaf entry that a walk finds. -/
def State.walk (s : State) (who : Option (BitVec 10)) (frm : BitVec 4) (va : Word) : Except Reason Word := (s.walked who frm va).res

/-- The 64 KiB page number of a virtual address. -/
def pageOf (va : Word) : Nat := va.toNat % 2 ^ 56 / 65536

/-- The cached entries of the requester for a page, in its hall's TLB or its index-stream engine's (R335). -/
def State.cached (s : State) (who : Option (BitVec 10)) (frm : BitVec 4) (ixg : Bool) (va : Word) : List TlbEntry :=
  s.tlb.filter fun e => e.space == who && e.hall == frm && e.ixg == ixg && e.page == pageOf va

/-- The entry that an access uses: one that another access of this step used; else, until a shootdown, a cached entry or
what a walk finds, and which of them is open (R335, R336, log 8). -/
def State.leaf (s : State) (who : Option (BitVec 10)) (frm : BitVec 4) (ixg : Bool) (va : Word) : Except Reason Word :=
  let l := s.cached who frm ixg va
  match l.find? fun e => e.used == s.era with
  | some e => .ok e.pte
  | none =>
    match l[Config.tlbPick s.era (pageOf va) % (l.length + 1)]? with
    | some e => .ok e.pte
    | none => s.walk who frm va

/-- Translate an access of a VF, or of mode P (none), by the tables (R331, R334). -/
def State.translateBy (s : State) (ixg : Bool) (who : Option (BitVec 10)) (frm : BitVec 4) (m : Mode) (k : Kind) (va : Word) :
    Except Reason Xl :=
  match s.leaf who frm ixg va with
  | .error e => .error e
  | .ok pte =>
    if !permits pte k m then .error .permission
    else if !s.classFits pte then .error .class
    else .ok { pa := pte.toNat / 65536 * 65536 + va.toNat % pageSize pte,
               cls := (Class.ofCode (fieldNat pte 13 3)).getD .nrm }

/-- Translate through the TLB of a hall (R335). -/
def State.translate (s : State) (who : Option (BitVec 10)) (frm : BitVec 4) (m : Mode) (k : Kind) (va : Word) : Except Reason Xl :=
  s.translateBy false who frm m k va

/-- Cache the table entries that a walk went through, each once. -/
def State.fillWalks (s : State) (who : Option (BitVec 10)) (frm : BitVec 4) (va : Word) (seen : List (Nat × Word)) : State :=
  let new := seen.map fun p => ({ space := who, hall := frm, lvl := p.1, part := walkPart va p.1, pte := p.2 } : WalkEntry)
  { s with walks := new ++ s.walks.filter fun e => !new.contains e }

/-- Log a walk read that a gate refused (R16, R347). -/
def State.logWalk (s : State) (who : Option (BitVec 10)) (frm : BitVec 4) (lost : Option Nat) : State :=
  match lost with
  | none => s
  | some a =>
    match s.refusal who frm a 8 false with
    | some c => s.logRefusal who frm a c
    | none => s

/-- Entries of a hall's TLB, and of an index-stream engine's (R335). -/
def tlbSize (ixg : Bool) : Nat := if ixg then 2048 else 8192

/-- Cache what an access of this step used: the leaf entry and, where it walked, the table entries on the way. -/
def State.fillTlbBy (s : State) (ixg : Bool) (who : Option (BitVec 10)) (frm : BitVec 4) (va : Word) : State :=
  let l := s.cached who frm ixg va
  if l.any fun e => e.used == s.era then s
  else
    let r := s.leaf who frm ixg va
    let hit := (l[Config.tlbPick s.era (pageOf va) % (l.length + 1)]?).isSome
    let w := s.walked who frm va
    let s := if hit then s else (s.fillWalks who frm va w.seen).logWalk who frm w.lost
    match r with
    | .ok pte =>
      let e : TlbEntry := { space := who, hall := frm, ixg := ixg, page := pageOf va, pte := pte, used := s.era }
      let others := s.tlb.filter fun x => !(x.space == who && x.hall == frm && x.ixg == ixg && x.page == pageOf va && x.pte == pte)
      let same := others.filter fun x => x.hall == frm && x.ixg == ixg
      let rest := others.filter fun x => !(x.hall == frm && x.ixg == ixg)
      { s with tlb := e :: (same.take (tlbSize ixg - 1) ++ rest) }
    | .error _ => s

/-- Cache in the TLB of a hall. -/
def State.fillTlb (s : State) (who : Option (BitVec 10)) (frm : BitVec 4) (va : Word) : State := s.fillTlbBy false who frm va

/-- An address lies in the page of a leaf entry that was cached for a 64 KiB page (R115, R332). -/
def inLeaf (pte : Word) (page : Nat) (va : Word) : Bool :=
  let n := pageSize pte / 65536
  page / n == pageOf va / n

/-- Drop cached entries of a VF: of the page that contains an address, with the table entries that lead to it, or of every
page (R115, R340). -/
def State.dropTlb (s : State) (v : BitVec 10) (page : Option Word) : State :=
  { s with
    tlb := s.tlb.filter fun e => !(e.space == some v && page.all fun va => inLeaf e.pte e.page va)
    walks := s.walks.filter fun e => !(e.space == some v && page.all fun va => e.part == walkPart va e.lvl) }

/-! ## The hart's own view -/

/-- Who the hart's accesses act for: its VF, or none in mode P (R334). -/
def State.who (s : State) : Option (BitVec 10) := if s.hart.mode = .p then none else some s.myVf

/-- The unit that the hart runs. -/
def State.myUnit (s : State) : Option UnitRec :=
  match s.hart.unit with
  | none => none
  | some k => s.units.find? fun u => u.key == k

/-- Bytes of the hart's group's scratchpad allocation, rounded up to 4 KiB (R212). -/
def State.groupBytes (s : State) : Nat := match s.myUnit with | some u => u.spBytes | none => 0

/-- The alias byte that a virtual address names, in mode A or S (R227). -/
def State.aliasByte (s : State) (va : Word) : Option Nat :=
  let x := (s.vf s.myVf).xalias
  let base := setField x 0 0#21
  if s.hart.mode ≠ .p && x.getLsbD 0 && canonical base && va &&& ~~~0x1FFFFF#64 == base then some (va - base).toNat
  else none

/-- Translate n bytes of the hart at va: a data access through the alias and its range check (R212, R225,
R227, R333), or by the tables, through the TLB of hall `frm`. -/
def State.hartXlate (s : State) (frm : BitVec 4) (k : Kind) (va : Word) (n : Nat) : Except Reason Xl :=
  match (if k = .fetch then none else s.aliasByte va) with
  | some x =>
    let lo := (s.hart.spbase - setField (s.vf s.myVf).xalias 0 0#21).toNat
    if lo ≤ x && x + n ≤ lo + s.groupBytes then
      .ok { pa := spPa s.chip s.myHall s.myCluster x, cls := .nrm }
    else .error .invalid
  | none => s.translate s.who frm s.hart.mode k va

end Sys2Proof.Machine
end

