-- ==== Sys2Proof/Machine/Units.lean ====
section
/-! DEFINITION. Units.lean: lane pools and matrix shares (R171, R214 to R219), barriers (R198 to R200), and
how a unit leaves its hart (R200, R209, R213, R303). -/

namespace Sys2Proof.Machine

/-! ## The lane pool -/

/-- HEALTHY (R393). -/
def Cluster.healthy (c : Cluster) : Nat := 128 - popCount c.lrmap

/-- Units placed on a cluster. -/
def State.placedUnits (s : State) (h : BitVec 4) (c : BitVec 5) : List UnitRec :=
  s.units.filter fun u => u.onHart && u.hall == h && u.cluster == c

/-- PLACED: harts with a unit, and slots of spans (R214, R220). -/
def State.placed (s : State) (h : BitVec 4) (c : BitVec 5) : Nat :=
  (s.placedUnits h c).length + (((s.hall h).cluster c).claims.filter fun p => 8 ≤ p.hart).length

/-- Placed harts that hold no claim: U of R214. -/
def State.unclaimed (s : State) (h : BitVec 4) (c : BitVec 5) : Nat := s.placed h c - ((s.hall h).cluster c).claims.length

/-- The budget of R214 with u placed harts that hold no claim. -/
def Cluster.budget (c : Cluster) (u : Nat) : Nat := Nat.min c.cap c.healthy - 8 * u

/-- The claim with the largest share above 8; among equals the highest hart (R215). -/
def largestShare (l : List PoolClaim) : Option PoolClaim :=
  l.foldl (fun best p =>
    if p.granted ≤ 8 then best
    else match best with
      | none => some p
      | some b => if b.granted < p.granted || (b.granted == p.granted && b.hart < p.hart) then some p else some b) none

/-- The loop of R215; here `granted` of each entry is its share. -/
def shrinkShares (budget : Nat) : Nat → List PoolClaim → List PoolClaim
  | 0, l => l
  | fuel + 1, l =>
    if (l.map (·.granted)).sum ≤ budget then l
    else match largestShare l with
      | none => l
      | some p => shrinkShares budget fuel (replaceFirst (fun q => q.hart == p.hart) (fun q => { q with granted := q.granted / 2 }) l)

/-- Shares of the claims of a cluster (R215): each entry's `granted` is its share. Every pass halves a share
of at most 128 down to 8, so 64 passes end it for the 16 claims that a cluster can hold. -/
def Cluster.shares (c : Cluster) (u : Nat) : List PoolClaim :=
  shrinkShares (c.budget u) 64 (c.claims.map fun p => { p with granted := p.ceiling })

/-- The share of one claiming hart. -/
def Cluster.shareOf (c : Cluster) (u hart : Nat) : Nat :=
  (((c.shares u).find? fun p => p.hart == hart).map (·.granted)).getD 0

/-- Clamp a lane request: 8 to 128, down to a power of two (R137). -/
def clampLanes (n : Nat) : Nat := powFloor (Nat.max 8 (Nat.min 128 n))

/-- The grant of R216 to a requester that is not among the claims: the budget counts it as claiming, with u others that hold no
claim, and the shares of the others are those in force, computed while it held none. -/
def Cluster.grantFor (c : Cluster) (u req : Nat) : Nat :=
  Nat.min (clampLanes req) (powFloor (Nat.max 8 (c.budget u - ((c.shares (u + 1)).map (·.granted)).sum)))

/-- The matrix shares of these codes can be held on the unmarked quarters (R171, R387). -/
def sharesFit (mapart : BitVec 4) (codes : List (BitVec 2)) : Bool :=
  let full := codes.count 1#2
  let half := codes.count 2#2
  let quarter := codes.count 3#2
  let cols := bit (!mapart.getLsbD 0 && !mapart.getLsbD 2) + bit (!mapart.getLsbD 1 && !mapart.getLsbD 3)
  let free := 4 - popCount mapart
  if full == 0 then half ≤ cols && 2 * half + quarter ≤ free
  else full == 1 && half == 0 && quarter == 0 && free == 4

/-- The share that VCLAIM grants: as asked, or the largest smaller one that fits, or none (R137). -/
def Cluster.grantShare (c : Cluster) (code : BitVec 2) : BitVec 2 :=
  let held := (c.claims.map (·.share)).filter (· != 0#2)
  if code = 0#2 then 0#2
  else (([1#2, 2#2, 3#2].filter fun x => code.ule x && sharesFit c.mapart (x :: held)).head?).getD 0#2

/-- The span slot number by which a remote cluster knows the claim of a hart (R220). -/
def spanSlot (h : BitVec 4) (c : BitVec 5) (n : BitVec 3) : Nat := 8 + (h.toNat * 32 + c.toNat) * 8 + n.toNat

/-- Take the claim of the hart (hall, cluster, number) out of its cluster and out of every cluster of its
span (R139, R216). -/
def State.dropClaims (s : State) (h : BitVec 4) (c : BitVec 5) (n : BitVec 3) : State :=
  let dropIn (p : Nat × Cluster) : Nat × Cluster :=
    (p.1, { p.2 with claims := p.2.claims.filter fun q => q.hart != spanSlot h c n })
  let s : State := { s with halls := s.halls.map fun x => { x with clusters := x.clusters.map dropIn } }
  s.onCluster h c fun x => { x with claims := x.claims.filter fun q => q.hart != n.toNat }

/-! ## Barriers -/

/-- A generation completes when ARR ≥ TGT > 0 (R199); members that left after arriving go with it (R200). -/
def Barrier.check (b : Barrier) : Barrier :=
  if b.tgt ≤ b.arr && 0 < b.tgt then
    { b with
      gen := b.gen + 1, arr := 0, arrived := [], leaving := []
      members := b.members.filter fun u => !(b.leaving.contains u)
      tgt := b.tgt - (b.leaving.filter fun u => b.members.contains u).length
      last := (b.gen + 1, b.tgt, b.lost) }
  else b

/-- Arrive (BARARR of R199). -/
def Barrier.arrive (b : Barrier) (u : UnitKey) : Barrier :=
  { b with
    members := if b.members.contains u then b.members else b.members ++ [u]
    arrived := b.arrived ++ [u]
    arr := b.arr + 1 }.check

/-- Remove a member that leaves with BARLEAVE (R199). -/
def Barrier.leave (b : Barrier) (u : UnitKey) : Barrier :=
  if b.members.contains u then
    { b with members := b.members.filter (· != u), tgt := b.tgt - 1 }.check
  else b

/-- Remove a member that exits or is killed (R200). -/
def Barrier.remove (b : Barrier) (u : UnitKey) (killed : Bool) : Barrier :=
  if !b.members.contains u then b
  else if b.arrived.contains u && !killed then { b with leaving := b.leaving ++ [u] }
  else
    { b with
      members := b.members.filter (· != u)
      leaving := b.leaving.filter (· != u)
      arr := b.arr - bit (b.arrived.contains u)
      arrived := b.arrived.filter (· != u)
      tgt := b.tgt - 1
      lost := true }.check

/-- Change every barrier: cluster barriers, hall barriers, launch and phase barriers. -/
def State.onBarriers (s : State) (f : Barrier → Barrier) : State :=
  { s with
    halls := s.halls.map fun x =>
      { x with
        barriers := x.barriers.map fun p => (p.1, f p.2)
        clusters := x.clusters.map fun p => (p.1, { p.2 with barriers := p.2.barriers.map fun q => (q.1, f q.2) }) }
    launches := s.launches.map fun l => { l with bar := f l.bar, phaseBar := f l.phaseBar } }

/-! ## Launch records and completion words -/

/-- A field of a launch record (Table 20.4): word at byte offset `off`, bits. -/
def Launch.fld (l : Launch) (off lo w : Nat) : Nat := fieldNat (wordAt l.words (off / 8)) lo w

/-- COHORT of a launch. -/
def Launch.cohort (l : Launch) : Bool := (wordAt l.words 3).getLsbD 32

/-- UNITS of a launch. -/
def Launch.units (l : Launch) : Nat := l.fld 0x10 32 24

/-- The dispatcher writes a word of a VF's memory at its home (R303): through the VF's tables, on an NRM
page. A write that cannot be made is dropped. -/
def State.dispatchWrite (s : State) (v : BitVec 10) (h : BitVec 4) (va : Word) (w : Word) : State :=
  if va = 0#64 then s
  else match s.translate (some v) h .s .store va with
    | .ok x =>
      if x.cls = .nrm then
        match s.writeHome (some v) h x.pa (leBytes 8 w.toNat) with
        | .ok s' => s'
        | .error s' => s'
      else s
    | .error _ => s

/-- A completion word (Table 20.5). -/
def completionWord (state phase erru done : Nat) : Word :=
  place state 61 3 ||| place phase 48 12 ||| place erru 24 24 ||| place done 0 24

/-- The hall whose dispatcher serves a launch: HOME of its queue, named by its serial (R298, R300). -/
def State.homeOf (s : State) (v : BitVec 10) (serial : BitVec 32) : BitVec 4 :=
  ((s.vf v).queue (serial.extractLsb' 25 7)).cfg.extractLsb' 28 4

/-- Write a launch's completion word with a STATE (R303). -/
def State.writeLaunchWord (s : State) (l : Launch) (state : Nat) : State :=
  s.dispatchWrite l.vf (s.homeOf l.vf l.serial) (wordAt l.words 6)
    (completionWord state (if l.cohort then l.phase else 0) l.erru l.done)

/-- The launch of a VF with a serial. -/
def State.launch? (s : State) (v : BitVec 10) (serial : BitVec 32) : Option Launch :=
  s.launches.find? fun l => l.vf == v && l.serial == serial

/-- Change a launch. -/
def State.onLaunch (s : State) (v : BitVec 10) (serial : BitVec 32) (f : Launch → Launch) : State :=
  { s with launches := replaceFirst (fun l => l.vf == v && l.serial == serial) f s.launches }

/-- A unit of a launch has ended: DONE, and ERRU when it ended with error, and the running word (R303). -/
def State.countEnd (s : State) (k : UnitKey) (err : Bool) : State :=
  let s := s.onLaunch k.vf k.serial fun l => { l with done := l.done + 1, erru := l.erru + bit err }
  match s.launch? k.vf k.serial with
  | none => s
  | some l => s.writeLaunchWord l 1

/-! ## The end of a unit -/

/-- The group ends with its last unit: its barrier slots return to the cluster (R213). -/
def State.endGroup (s : State) (u : UnitRec) : State :=
  if s.units.any fun w => w.key.vf == u.key.vf && w.key.serial == u.key.serial && w.group == u.group then s
  else s.onCluster u.hall u.cluster fun c =>
    { c with barriers := c.barriers.filter fun p =>
        !(p.1.1 == u.key.vf && p.1.2.1 == u.key.serial && p.1.2.2.1 == u.group) }

/-- A hart with no unit: what it waits for and what it holds of the unit are gone. -/
def Hart.release (h : Hart) : Hart :=
  { h with
    unit := none, wait := none, claim := none, vlmaxb := 0, vl := 0, vstart := 0
    armed := 0#64, fired := 0#64, armedPa := [], wakes := 0#64, fq := .none, seq := [], rejoin := none, warm := none }

/-- A unit leaves: barriers (R200), claim (R216), wakes of its landings (R204), its hart, its group (R213)
and its launch's counts (R303). -/
def State.endUnit (s : State) (u : UnitRec) (killed err : Bool) : State :=
  let s := s.onBarriers fun b => b.remove u.key killed
  let s := if u.onHart then s.dropClaims u.hall u.cluster u.hart else s
  let s := { s with units := s.units.filter fun w => w.key != u.key }
  let s := if s.hart.unit = some u.key then { s.onHart Hart.release with ra := none } else s
  (s.endGroup u).countEnd u.key err

/-- A unit is killed: it counts as completed-with-error (R200, R211, R303). Its held accesses end (R338). -/
def State.killUnit (s : State) (k : UnitKey) : State :=
  match s.units.find? fun u => u.key == k with
  | none => s
  | some u => s.endUnit u true true

/-- Kill the units that satisfy p, one after another. -/
def State.killUnits (s : State) (p : UnitRec → Bool) : State :=
  (s.units.filter p).foldl (fun s u => s.killUnit u.key) s

end Sys2Proof.Machine
end

