-- ==== Sys2Proof/Machine/Ops.lean ====
section
/-! DEFINITION. Ops.lean: the named operations of the hart: registers, counters, retirement, taking a trap
and returning from one (R44 to R51, R312 to R317). -/

namespace Sys2Proof.Machine

/-! ## Scalar registers (R44) -/

/-- Read g[i]; g0 reads as zero. -/
def State.g (s : State) (i : BitVec 5) : Word := if i = 0#5 then 0#64 else pick (w := 5) s.hart.g i

/-- Write g[i]; a write to g0 is discarded. -/
def State.setG (s : State) (i : BitVec 5) (x : Word) : State :=
  if i = 0#5 then s else { s with hart := { s.hart with g := put (w := 5) s.hart.g i x } }

/-- The register after i: the second of a pair (R74). -/
def pairHi (i : BitVec 5) : BitVec 5 := i + 1

/-! ## Counters (R47) -/

/-- Counter k. -/
def State.counter (s : State) (k : BitVec 3) : Counter := pick (w := 3) s.hart.k k

/-- Replace counter k. -/
def State.setCounter (s : State) (k : BitVec 3) (c : Counter) : State :=
  { s with hart := { s.hart with k := put (w := 3) s.hart.k k c } }

/-- The value of a counter (Table 3.2). -/
def Counter.word (c : Counter) : Word := place c.status.toNat 33 4 ||| place (bit c.err) 32 1 ||| place c.count.toNat 0 32

/-- An operation that names k issues: COUNT + 1; code 0 names none. -/
def State.countUp (s : State) (k : BitVec 3) : State :=
  if k = 0#3 then s else s.setCounter k { s.counter k with count := (s.counter k).count + 1 }

/-- An operation that names a counter completes, with a status or none (0): COUNT − 1, and the first failure
is kept (R47). -/
def Counter.complete (c : Counter) (status : BitVec 4) : Counter :=
  { c with
    count := c.count - 1
    err := c.err || status != 0#4
    status := if status != 0#4 && !c.err then status else c.status }

/-- Complete on counter k. -/
def State.countDown (s : State) (k : BitVec 3) (status : BitVec 4) : State :=
  if k = 0#3 then s else s.setCounter k ((s.counter k).complete status)

/-! ## Retirement -/

/-- Count a retired instruction (R405); nothing is counted in run-ahead (R327). -/
def State.countInstr (s : State) : State :=
  if s.ra.isSome then s
  else s.onCluster s.myHall s.myCluster fun c => { c with instr := c.instr + 1 }

/-- Go on at an address. -/
def State.setPc (s : State) (pc : Word) : State := { s with hart := { s.hart with pc := pc } }

/-- Whether the instruction retiring was a transfer that was taken (R94, R312). -/
def State.setTransfer (s : State) (b : Bool) : State := { s with hart := { s.hart with transfer := b } }

/-- An instruction of `len` bytes retires. -/
def State.retire (s : State) (len : Word) : State := ((s.setPc (s.hart.pc + len)).setTransfer false).countInstr

/-- A transfer retires and goes to t (R92 to R94). -/
def State.jump (s : State) (t : Word) : State := ((s.setPc t).setTransfer true).countInstr

/-- Bytes of an instruction with this prefix field (R68). -/
def pfxLen (p : Option Pfx) : Word := if p.isSome then 8#64 else 4#64

/-! ## Traps -/

/-- A trap that an instruction or the hart takes (R312, R313). `after`: it comes after completion, so the
state it is taken in has the PC of the next instruction. `deferred`: the store-error trap. `reason`: why a walk
failed, for a translation fault that may be held or start run-ahead (R326, R337); `scalar`: of a scalar load or
store. -/
structure Trap where
  code : Nat
  eval : Word := 0#64
  detail : Nat := 0
  after : Bool := false
  deferred : Bool := false
  pfx : Bool := false
  reason : Option Reason := none
  scalar : Bool := false
deriving DecidableEq, Repr

/-- The result of an instruction's effect: the state it leaves, or a trap and the state it is taken in. -/
abbrev Res := Except (Trap × State) State

/-- EVAL of codes 3 and 4: the word, and the prefix or 0 (Table 21.1). -/
def State.irWord (s : State) : Word := (s.hart.ir.1.getD 0#32) ++ s.hart.ir.2

/-- Code 3 (R69, R121). -/
def State.illegal (s : State) : Trap := { code := 3, eval := s.irWord }
/-- Code 4 (R48, R111). -/
def State.privileged (s : State) : Trap := { code := 4, eval := s.irWord }
/-- Code 5 (R46). -/
def claimTrap : Trap := { code := 5 }

/-- The code of a mode in ESTAT.PREV (Table 21.3). -/
def Mode.code : Mode → Nat
  | .a => 0 | .s => 1 | .p => 2

/-- The mode of a PREV code; none for the reserved code 3. -/
def Mode.ofCode : Nat → Option Mode
  | 0 => some .a | 1 => some .s | 2 => some .p | _ => none

/-- BUSY of a trap set (Table 21.3). -/
def TrapSet.busy (t : TrapSet) : Bool := t.estat.getLsbD 2

/-- The handler address of a trap set: bits 1:0 of EVEC read 0. -/
def TrapSet.handler (t : TrapSet) : Word := setField t.evec 0 0#2

/-- What entry writes into a set (R315, Tables 21.2, 21.3). -/
def TrapSet.enter (t : TrapSet) (m : Mode) (pc : Word) (code detail : Nat) (eval : Word) (pfx after : Bool) : TrapSet :=
  { t with
    epc := pc
    ecause := place detail 8 8 ||| place code 0 8
    eval := eval
    estat := place (bit after) 4 1 ||| place (bit pfx) 3 1 ||| place 1 2 1 ||| place m.code 0 2 }

/-- Entry to the S set (R315). -/
def State.enterS (s : State) (t : Trap) : State :=
  let hs := s.hart.sset.enter s.hart.mode s.hart.pc t.code t.detail t.eval t.pfx t.after
  { s with hart := { s.hart with sset := hs, mode := .s, pc := hs.handler, transfer := false, wait := none } }

/-- Entry to the P set (R315). -/
def State.enterP (s : State) (code detail : Nat) (eval : Word) (pfx after : Bool) : State :=
  let hs := s.pset.enter s.hart.mode s.hart.pc code detail eval pfx after
  { s with pset := hs, hart := { s.hart with mode := .p, pc := hs.handler, transfer := false, wait := none } }

/-- A trap that cannot be delivered stops the hart as HALT does, ends its unit and is logged (R317). The
registers stay as they are, but VLMAXB, which reads 0 without a claim (R50). -/
def State.undeliverable (s : State) (code : Nat) : State :=
  let h := s.hart
  let s := match h.unit with | some k => s.killUnit k | none => s
  let s := { s with hart := { h with unit := none, claim := none, vlmaxb := 0, wait := none, stopped := true, undelivered := some (BitVec.ofNat 8 code) } }
  let s := s.onCluster s.myHall s.myCluster fun c => { c with stopped := setBit c.stopped s.myHart.toNat true }
  s.logError s.myHall
    { s.errorEntry 10 0 false (BitVec.ofNat 64 code) with cluster := s.myCluster, hart := s.myHart }

/-- A trap bound for the P set: taken, or not deliverable (R317). -/
def State.takeP (s : State) (code detail : Nat) (eval : Word) (pfx after deferred : Bool) : State :=
  if s.pset.handler = 0#64 || (!deferred && s.pset.busy) then s.undeliverable code
  else s.enterP code detail eval pfx after

/-- The set that receives a trap of this code in the current mode (R314): true for the P set. -/
def State.toP (s : State) (code : Nat) : Bool :=
  match s.hart.mode with
  | .p => true
  | .s => code == 22 || code == 23
  | .a => false

/-- TAKING A TRAP (R314 to R317): to the S set or the P set; a trap that the S set cannot take goes to the
P set as code 24, which is not deferred whatever it stands for. EPC is the PC of the state it is taken in. -/
def State.takeTrap (s : State) (t : Trap) : State :=
  if s.toP t.code then s.takeP t.code t.detail t.eval t.pfx t.after t.deferred
  else if s.hart.sset.handler = 0#64 || (!t.deferred && s.hart.sset.busy) then
    s.takeP 24 0 (BitVec.ofNat 64 t.code) t.pfx t.after false
  else s.enterS t

/-- Where ERET goes: the set of the current mode (R316). -/
def State.eretSet (s : State) : TrapSet := if s.hart.mode = .p then s.pset else s.hart.sset

/-- RETURN FROM A TRAP (R316): PC from EPC, the mode from PREV, BUSY cleared; a PREV of 3 or above the
current mode is illegal. The wait for a mode is the caller's check. -/
def State.eret (s : State) : Res :=
  let t := s.eretSet
  match Mode.ofCode (fieldNat t.estat 0 2) with
  | none => .error (s.illegal, s)
  | some m =>
    if s.hart.mode.code < m.code then .error (s.illegal, s)
    else
      let t' := { t with estat := setBit t.estat 2 false }
      let s := if s.hart.mode = .p then { s with pset := t' } else { s with hart := { s.hart with sset := t' } }
      .ok ({ s with hart := { s.hart with mode := m, pc := t.epc, transfer := false } }.countInstr)

/-! ## Ending an instruction -/

/-- An instruction with this prefix field ends: it retires, or its trap is taken (R315). -/
def finish (p : Option Pfx) (r : Res) : Host.Outcome State Fault Refusal :=
  match r with
  | .ok s => .next (s.retire (pfxLen p))
  | .error (t, s) => .next (s.takeTrap { t with pfx := p.isSome })

/-- A scalar instruction ends. -/
def finish4 (r : Res) : Host.Outcome State Fault Refusal := finish none r

/-- An instruction that sets the PC itself ends. -/
def finishAt (r : Res) : Host.Outcome State Fault Refusal :=
  match r with
  | .ok s => .next s
  | .error (t, s) => .next (s.takeTrap t)

/-- The trap of a condition that fails, or the state. -/
def require (c : Bool) (t : Trap) (s : State) : Res := if c then .ok s else .error (t, s)

end Sys2Proof.Machine
end

