-- ==== Sys2Proof/Machine/Cmds.lean ====
section
/-! DEFINITION. Cmds.lean: engine commands as data: the fields and the limits of their records (R188 to R194), and how
a command fails. -/

namespace Sys2Proof.Machine

/-! ## Fields of records -/

/-- A field of a record: the word at byte offset `off`, bits. -/
def Cmd.fld (c : Cmd) (off lo w : Nat) : Nat := fieldNat (wordAt c.words (off / 8)) lo w

/-- The word of a record at a byte offset. -/
def Cmd.at (c : Cmd) (off : Nat) : Word := wordAt c.words (off / 8)

/-- FREC of a record; 0 for a command without a record (Tables 11.3 to 11.6). -/
def Cmd.frec (c : Cmd) : Word :=
  match c.op.toNat with
  | 0 => c.at 0x38
  | 1 => c.at 0x28
  | 2 => c.at 0x28
  | 3 => c.at 0x30
  | _ => 0#64

/-- STATUS of a CAUSE (R188). -/
def causeStatus (cause : Nat) : BitVec 4 :=
  match cause with
  | 2 => 5#4
  | 3 => 6#4
  | 6 => 3#4
  | 7 => 4#4
  | 8 => 2#4
  | _ => 1#4

/-! ### Copy records (Table 11.3) -/

/-- ROWS. -/
def Cmd.copyRows (c : Cmd) : Nat := c.fld 0x10 32 32
/-- ROWBYTES. -/
def Cmd.copyBytes (c : Cmd) : Nat := c.fld 0x10 0 32
/-- MODE. -/
def Cmd.copyMode (c : Cmd) : Nat := c.fld 0x30 0 2

/-- A copy record within its limits (R190). -/
def Cmd.copyOk (c : Cmd) : Bool :=
  decide (c.copyMode < 3) && decide (1 ≤ c.copyBytes) && decide (c.copyBytes ≤ 2 ^ 24)
    && (c.copyMode ≠ 0 || (c.at 0x18 == 0#64 && c.at 0x20 == 0#64 && c.at 0x28 == 0#64))
    && (c.copyMode ≠ 2 || (c.at 0x28).toNat % 4 == 0) && c.fld 0x30 2 62 == 0

/-! ### Flight records (Table 11.4) -/

/-- Two bytes of a record at a byte offset, which may straddle words. -/
def Cmd.half (c : Cmd) (off : Nat) : Nat := leNat (((wordsBytes c.words).drop off).take 2)

/-- A signed 48-bit stride at a byte offset. -/
def Cmd.stride (c : Cmd) (off : Nat) : Word := BitVec.ofInt 64 (toSigned 48 (leNat (((wordsBytes c.words).drop off).take 6)))

/-- OP of a flight. -/
def Cmd.flightOp (c : Cmd) : Nat := c.fld 0x18 18 4
/-- TYPE of a flight. -/
def Cmd.flightType (c : Cmd) : BitVec 4 := (c.at 0x18).extractLsb' 22 4
/-- ORDER of a flight: arrival. -/
def Cmd.flightArrival (c : Cmd) : Bool := (c.at 0x18).getLsbD 26
/-- SIZE of a flight. -/
def Cmd.flightSize (c : Cmd) : Nat := c.fld 0x18 0 16
/-- Levels used. -/
def Cmd.levels (c : Cmd) : Nat := c.fld 0x18 16 2 + 1
/-- XBYTES. -/
def Cmd.xbytes (c : Cmd) : Nat := c.fld 0x20 0 32
/-- BOUND of level l. -/
def Cmd.bound (c : Cmd) (l : Nat) : Nat := c.half (0x30 + 20 * l + 12)

/-- Points of the nest. -/
def Cmd.points (c : Cmd) : Nat := ((List.range c.levels).map c.bound).foldl (· * ·) 1

/-- Bytes of an element of a flight's type. -/
def Cmd.flightElem (c : Cmd) : Nat := typeBytes c.flightType
where
  /-- Bytes of an element of FP16, BF16, FP32 or FP64. -/
  typeBytes (t : BitVec 4) : Nat := if t = 13#4 then 8 else if t = 12#4 then 4 else 2

/-- A flight record within its limits, for its rank (R191, R271). -/
def Cmd.flightOk (c : Cmd) : Bool :=
  let op := c.flightOp
  let t := c.flightType
  c.fld 0x18 27 37 == 0 && c.fld 0x20 32 32 == 0 && decide (op < 4) && decide (1 ≤ c.flightSize)
    && decide (c.rank < c.flightSize) && decide (1 ≤ c.xbytes) && decide (c.xbytes ≤ 2 ^ 24)
    && (if op < 2 then t == 0#4
        else ((t == 10#4 || t == 11#4 || t == 12#4 || (op == 3 && t == 13#4)) && c.xbytes % c.flightElem == 0))
    && ((List.range c.levels).all fun l => c.bound l != 0)
    && (((wordsBytes c.words).drop (0x30 + 20 * c.levels)).all (· == 0#8))
    && (op ≠ 2 || c.flightArrival || decide (c.flightSize * c.points ≤ 2 ^ 20))

/-- Index of level l at ordinal t: level 0 is fastest (R192). -/
def Cmd.levelIndex (c : Cmd) (t l : Nat) : Nat := t / (((List.range l).map c.bound).foldl (· * ·) 1) % c.bound l

/-- The peer of ordinal t for rank q (R192). -/
def Cmd.peer (c : Cmd) (q t : Nat) : Nat :=
  let p : Int := (List.range c.levels).foldl (fun acc l =>
    let o := 0x30 + 20 * l
    acc + toSigned 16 (c.half (o + 14)) * (c.levelIndex t l : Int) + toSigned 16 (c.half (o + 16)) * (q : Int)
      + toSigned 16 (c.half (o + 18))) 0
  (p % (c.flightSize : Int)).toNat

/-- The local address of ordinal t. -/
def Cmd.localAt (c : Cmd) (t : Nat) : Word :=
  (List.range c.levels).foldl (fun a l => a + BitVec.ofNat 64 (c.levelIndex t l) * c.stride (0x30 + 20 * l)) (c.at 0)

/-- The offset of ordinal t from its peer's base. -/
def Cmd.remoteOff (c : Cmd) (t : Nat) : Word :=
  (List.range c.levels).foldl (fun a l => a + BitVec.ofNat 64 (c.levelIndex t l) * c.stride (0x36 + 20 * l)) (c.at 8)

/-! ### Collective records (Table 11.5) -/

/-- KIND. -/
def Cmd.kind (c : Cmd) : Nat := c.fld 0x18 36 4
/-- TYPE of a collective. -/
def Cmd.collType (c : Cmd) : BitVec 4 := (c.at 0x18).extractLsb' 32 4
/-- ORDER of a collective: arrival. -/
def Cmd.collArrival (c : Cmd) : Bool := (c.at 0x18).getLsbD 40
/-- COUNT. -/
def Cmd.collCount (c : Cmd) : Nat := c.fld 0x18 0 32
/-- SIZE of a collective. -/
def Cmd.collSize (c : Cmd) : Nat := c.fld 0x20 0 16
/-- ROOT. -/
def Cmd.collRoot (c : Cmd) : Nat := c.fld 0x20 16 16
/-- A kind that combines. -/
def Cmd.reduces (c : Cmd) : Bool := c.kind == 0 || c.kind == 1 || c.kind == 4
/-- Elements of one block. -/
def Cmd.block (c : Cmd) : Nat := c.collCount / c.collSize

/-- A collective record within its limits, for its rank (R193). -/
def Cmd.collOk (c : Cmd) : Bool :=
  let t := c.collType
  decide (c.kind < 5) && decide (1 ≤ c.collSize) && decide (c.rank < c.collSize)
    && (if c.reduces then t == 10#4 || t == 11#4 || t == 12#4 else t != 0#4 && t != 15#4)
    && ((c.kind ≠ 1 && c.kind ≠ 2) || c.collCount % c.collSize == 0)
    && ((c.kind ≠ 3 && c.kind ≠ 4) || decide (c.collRoot < c.collSize))
    && c.fld 0x18 41 7 == 0 && c.fld 0x20 32 32 == 0 && c.at 0x30 == 0#64 && c.at 0x38 == 0#64

/-- The rank that arms a collective (R264). -/
def Cmd.lead (c : Cmd) : Nat := if c.kind = 3 || c.kind = 4 then c.collRoot else 0

/-- The elements that a rank's DBUF receives. -/
def Cmd.destCount (c : Cmd) : Nat :=
  match c.kind with
  | 1 => c.block
  | 4 => if c.rank = c.collRoot then c.collCount else 0
  | _ => c.collCount

/-- The element of the message that element e of this rank's DBUF receives. -/
def Cmd.msgElem (c : Cmd) (e : Nat) : Nat := if c.kind = 1 then c.rank * c.block + e else e

/-- The ranks that contribute to element m of the message, ascending. -/
def Cmd.givers (c : Cmd) (m : Nat) : List Nat :=
  match c.kind with
  | 2 => [m / c.block]
  | 3 => [c.collRoot]
  | _ => List.range c.collSize

/-- The element of a giver's SBUF that is its contribution to element m of the message. -/
def Cmd.sourceElem (c : Cmd) (m : Nat) : Nat := if c.kind = 2 then m % c.block else m

/-- The elements of the message to which this rank contributes. -/
def Cmd.gives (c : Cmd) : List Nat :=
  match c.kind with
  | 2 => (List.range c.block).map (c.rank * c.block + ·)
  | 3 => if c.rank = c.collRoot then List.range c.collCount else []
  | _ => List.range c.collCount

/-! ### Stream parameter blocks (Table 11.6) -/

/-- COUNT of an IXG. -/
def Cmd.ixgCount (c : Cmd) : Nat := c.fld 0x18 0 32
/-- ROWBYTES of an IXG. -/
def Cmd.ixgBytes (c : Cmd) : Nat := c.fld 0x18 32 16

/-- A stream parameter block within its limits (R194). -/
def Cmd.ixgOk (c : Cmd) : Bool :=
  c.fld 0x18 50 14 == 0 && c.fld 0x18 48 2 == 0 && decide (1 ≤ c.ixgBytes) && c.fld 0x28 32 32 == 0
    && (c.at 0x08).toNat % 4 == 0 && (c.at 0x38).toNat % 8 == 0

/-! ## Limits, positions and failures -/

/-- The record breaks no limit (R188); FREC is a multiple of 32. -/
def Cmd.recordOk (c : Cmd) : Bool :=
  c.frec.toNat % 32 == 0 && match c.op.toNat with
    | 0 => c.copyOk
    | 1 => c.collOk
    | 2 => c.flightOk
    | 3 => c.ixgOk
    | _ => true

/-- Positions of a command: rows, elements of DBUF, transfers, stream elements, or lines of a window, whose record is its base
and its length. -/
def Cmd.positions (c : Cmd) : Nat :=
  match c.op.toNat with
  | 0 => c.copyRows
  | 1 => c.destCount
  | 2 => c.points
  | 3 => c.ixgCount
  | 4 => (c.at 8).toNat / 64
  | _ => 0

/-- Positions that are not settled, ascending. -/
def Cmd.open (c : Cmd) : List Nat := (List.range c.positions).filter fun i => !c.done.contains i

/-- Position pos fails: POS stays the lowest one, whose cause, address and index value are kept (R189). -/
def Cmd.failAt (c : Cmd) (pos cause : Nat) (va : Word) (idxv : BitVec 32) : Cmd :=
  let n : BitVec 32 := match c.fail with | some f => f.nfail + 1 | none => 1#32
  let mine : EngFail := { cause := BitVec.ofNat 4 cause, va := va, pos := BitVec.ofNat 64 pos, nfail := n, idxv := idxv }
  { c with
    done := c.done ++ [pos]
    fail := some (match c.fail with | some f => if f.pos.toNat < pos then { f with nfail := n } else mine | none => mine) }

/-- The command ends with a cause: its positions that are not settled fail (R264, R275, R407). An earlier end
stays. -/
def Cmd.finishWith (c : Cmd) (cause : Nat) (va : Word) : Cmd :=
  if !c.live then c
  else
    let rest := c.open
    let low : Nat := rest.headD 0
    let f : EngFail :=
      { cause := BitVec.ofNat 4 cause, va := va
        pos := BitVec.ofNat 64 (match c.fail with | some f => Nat.min f.pos.toNat (if rest = [] then f.pos.toNat else low) | none => low)
        nfail := (match c.fail with | some f => f.nfail | none => 0#32) + BitVec.ofNat 32 rest.length
        idxv := 0#32 }
    { c with live := false, fail := some f }

/-- The address of a position at its own rank: of an element of DBUF, or the local side of a transfer. -/
def Cmd.posVa (c : Cmd) (pos : Nat) : Word :=
  match c.op.toNat with
  | 1 => c.at 8 + BitVec.ofNat 64 (pos * typeWidth c.collType / 8)
  | 2 => c.localAt pos
  | _ => 0#64

/-- A command ends with PATH_LOST: CAUSE 6, and VA is the address of the lowest position that was not confirmed (R274, R275). -/
def Cmd.lose (c : Cmd) : Cmd := c.finishWith 6 (match c.open with | p :: _ => c.posVa p | [] => 0#64)

/-- A command ends abandoned: CAUSE 8, STATUS 2 (R346, R352). -/
def Cmd.abandon (c : Cmd) : Cmd := c.finishWith 8 0#64

/-- A command ends cancelled: CAUSE 7, STATUS 4 (R188, R208). -/
def Cmd.cancel (c : Cmd) : Cmd := c.finishWith 7 0#64

/-- The command with a number. -/
def State.cmd? (s : State) (i : Nat) : Option Cmd := s.cmds.find? fun c => c.id == i

/-- Change the command with a number. -/
def State.onCmd (s : State) (i : Nat) (f : Cmd → Cmd) : State :=
  { s with cmds := s.cmds.map fun c => if c.id = i then f c else c }

/-! ## Collectives and reducing flights as a whole (R264, R271) -/

/-- The collective with a number. -/
def State.coll? (s : State) (run : Nat) : Option Collective := s.colls.find? fun r => r.id == run

/-- Change the collective with a number. -/
def State.onColl (s : State) (run : Nat) (f : Collective → Collective) : State :=
  { s with colls := s.colls.map fun r => if r.id = run then f r else r }

/-- A command of a collective, or of a reducing flight. -/
def Cmd.inRun (c : Cmd) : Bool := c.op == 1#3 || (c.op == 2#3 && c.flightOp == 2)

/-- The commands of one collective that are in flight. -/
def State.runPeers (s : State) (run : Nat) : List Cmd := s.cmds.filter fun d => d.inRun && d.run == run

/-- What the hall of a command sends reaches the hall of another: on this package, where the pair of their dies is not lost. -/
def State.hears (s : State) (frm : BitVec 4) (d : Cmd) : Bool := d.away.isSome || !s.pairLost frm (hbmPa s.chip d.hall 0)

/-- A command ends with a cause that another rank sends it (R407): with PATH_LOST as `lose` says. -/
def Cmd.endBy (c : Cmd) (cause : Nat) : Cmd := if cause = 6 then c.lose else c.finishWith cause 0#64

/-- A collective ends at every rank that the flit of hall `frm` reaches and that has not completed; one that issues it later
finds the flit (R264, R267, R407). -/
def State.abortRun (s : State) (run : Nat) (frm : BitVec 4) (cause : Nat) : State :=
  ({ s with cmds := s.cmds.map fun d => if d.inRun && d.run == run && s.hears frm d then d.endBy cause else d } : State).onColl run
    fun r => { r with flit := r.flit.or (some (BitVec.ofNat 4 cause, frm)) }

/-- The key by which the commands of one collective meet: the tenant, the address of RANKTAB and SEQ (R264). The flights of one
reduction share no SEQ, and meet by the other two (log 86). -/
def State.runKey (s : State) (c : Cmd) : BitVec 16 × Word × Nat :=
  (s.tenantOf c.vf, c.at 0x10, if c.op = 1#3 then c.fld 0x18 48 16 else 65536)

/-- The collective that a rank joins: the oldest one of its key that it has not issued. -/
def State.runOf (s : State) (c : Cmd) : Option Collective :=
  s.colls.find? fun r => (r.tenant, r.tab, r.seq) == s.runKey c && !r.joined.contains c.rank

/-- A command joins its collective, or begins it; a flit that waits there ends it. -/
def State.joinRun (s : State) (c : Cmd) : State × Cmd :=
  if !(c.inRun && c.live) then (s, c)
  else
    match s.runOf c with
    | some r =>
      let c := { c with run := r.id }
      (s.onColl r.id fun r => { r with joined := r.joined ++ [c.rank] },
        match r.flit with | some (cause, frm) => if s.hears frm c then c.endBy cause.toNat else c | none => c)
    | none =>
      let k := s.runKey c
      let r : Collective :=
        { id := c.id, tenant := k.1, tab := k.2.1, seq := k.2.2, joined := [c.rank], ended := [], flit := none, paths := [], got := [],
          bad := [] }
      ({ s with colls := s.colls ++ [r] }, { c with run := c.id })

/-- The ranks of a collective: SIZE of its records. -/
def Cmd.runSize (c : Cmd) : Nat := if c.op = 1#3 then c.collSize else c.flightSize

/-- A command leaves its collective. A rank that was cancelled or abandoned before it contributed may issue it again; the
collective is over once no command of it is in flight and no flit waits for a rank that has not issued it. -/
def State.leaveRun (s : State) (c : Cmd) : State :=
  if !c.inRun then s
  else
    let quits (r : Collective) : Bool :=
      (c.fail.any fun f => f.cause == 7#4 || f.cause == 8#4) && !(r.got.any fun g => g.2.1 == c.rank)
    let s := s.onColl c.run fun r =>
      if quits r then { r with joined := r.joined.filter (· != c.rank) } else { r with ended := r.ended ++ [c.rank] }
    let spent (r : Collective) : Bool :=
      r.id == c.run && r.joined.all r.ended.contains && (r.flit.isNone || decide (c.runSize ≤ r.joined.length))
    { s with
      accums := s.accums.filter fun a => !(a.cmd == c.run && s.colls.any spent)
      colls := s.colls.filter fun r => !spent r }

/-! ## Fault records (R188) -/

/-- The fault record of Table 11.2. -/
def Cmd.faultRecord (c : Cmd) (f : EngFail) : List Word :=
  [1#64 <<< 63 ||| place c.op.toNat 8 8 ||| place f.cause.toNat 4 4 ||| place (causeStatus f.cause.toNat).toNat 0 4,
   f.va, f.pos, place f.nfail.toNat 32 32 ||| place f.idxv.toNat 0 32]

end Sys2Proof.Machine
end

