-- ==== Sys2Proof/Machine/Halls.lean ====
section
/-! DEFINITION. Halls.lean: halls, tenants, measurement, gallery windows, virtual functions and the
translation block (R337 to R340, R342 to R353, R397). Events that a register write or the hardware makes. -/

namespace Sys2Proof.Machine

/-- An event of the machine happened. -/
def happened (s : State) : Host.Outcome State Fault Refusal := .next s

/-! ## Region registers (R2, R254, R319) -/

/-- WELLCFG and CSCFG with their reserved bits 0 (Tables 15.1, 21.5). -/
def gibCfg (w : Word) : Word := w &&& 0x3F3F#64

/-- INKCFG with its reserved bits 0 (Table 15.2). -/
def inkCfg (w : Word) : Word := w &&& 0x00FF01FF003F01FF#64

/-- A hall with the settings that the image gives it (R254, R319, R403). -/
def Hall.withImage (x : Hall) (y : HallImage) : Hall :=
  { x with wellcfg := gibCfg y.wellcfg, inkcfg := inkCfg y.inkcfg, cscfg := gibCfg y.cscfg, plim := y.plim }

/-! ## Measurement (R397) -/

/-- Extend HMEAS of a hall with a message. -/
def State.extend (s : State) (h : BitVec 4) (msg : List Byte) : State :=
  s.onHall h fun x =>
    { x with
      hmeas := Config.sha512 (leBytes 64 x.hmeas.toNat ++ leBytes 64 (Config.sha512 msg).toNat)
      hmcnt := if x.hmcnt = BitVec.allOnes 32 then x.hmcnt else x.hmcnt + 1 }

/-- Offset in target 5 of a register of a hall's block (Table 30.1). -/
def hallRegOffset (h : BitVec 4) (off : Nat) : Nat := 0x1000000 * (1 + h.toNat % 2) + off

/-- The record of a measured write: the register's offset and the value stored. -/
def measured (off : Nat) (v : Word) : List Byte := leBytes 8 off ++ leBytes 8 v.toNat

/-- Steps 1 to 3 of R397: HMEAS starts at 0, then the firmware and the configuration record. -/
def State.measureHall (s : State) (h : BitVec 4) : State :=
  let s := s.onHall h fun x => { x with hmeas := 0#512, hmcnt := 0#32 }
  let s := s.extend h (pick (w := 4) s.image.halls h).firmware
  let x := s.hall h
  s.extend h (wordsBytes [x.wellcfg, x.inkcfg, x.cscfg, place x.tenant.toNat 32 16] ++ List.replicate 32 0#8)

/-! ## Ownership and release (R342) -/

/-- The halls of a tenant are one hall, or whole dies. -/
def shapeOk (halls : BitVec 16) : Bool :=
  popCount halls == 1 || (List.range 8).all fun d => halls.getLsbD (2 * d) == halls.getLsbD (2 * d + 1)

/-- Release a hall from reset: it runs, or is fenced for its tenant's shape; a hall of tenant 0 stays
fenced. -/
def State.releaseHall (s : State) (h : BitVec 4) : State :=
  let t := (s.hall h).tenant
  let ok := t != 0#16 && shapeOk (s.hallMask t)
  s.onHall h fun x =>
    if x.st = .reset then
      { x with st := if ok then .running else .fenced, shapeErr := t != 0#16 && !shapeOk (s.hallMask t) }
    else x

/-- HOWN_WRITE (R342). -/
def State.writeHown (s : State) (h : BitVec 4) (t : BitVec 16) : State :=
  if (s.hall h).st = .reset then
    (s.onHall h fun x => { x with tenant := t, barriers := [] }).extend h (measured (hallRegOffset h 0) (place t.toNat 32 16))
  else s

/-- HALL_RELEASE (R342): nothing unless the hall is in reset. -/
def execHallRelease (hall : BitVec 4) (s : State) := happened (s.releaseHall hall)

/-- HOWN_WRITE (R342). -/
def execHownWrite (hall : BitVec 4) (tenant : BitVec 16) (s : State) := happened (s.writeHown hall tenant)

/-! ## VF events -/

/-- Raise bits of VFEVT at every VF of a tenant. -/
def State.raiseEvt (s : State) (t : BitVec 16) (f : Word → Word) : State :=
  { s with vfs := s.vfs.map fun p => if p.2.tenant = t && t != 0#16 then (p.1, { p.2 with evt := f p.2.evt }) else p }

/-- SHORTFALL with the package port index (R353). -/
def State.shortfall (s : State) (h : BitVec 4) (port : Nat) : State :=
  s.raiseEvt (s.hall h).tenant fun e => setField (setBit e 0 true) 8 (BitVec.ofNat 8 (h.toNat * 9 + port))

/-! ## Fencing and reset (R344, R345) -/

/-- Span position p of a claim, for the hart's own position `own` and remote position i of its list (R138). -/
def spanPos (own i : Nat) : Nat := if i < own then i else i + 1

/-- The span position of a hart: the number of dies of its span below its own (R138). -/
def Claim.own (c : Claim) (h : BitVec 4) : Nat := ((List.range (h.toNat / 2)).filter fun d => c.dies.getLsbD d).length

/-- Positions of the hart's span in a hall are lost (R221): its fault waits for the next vector instruction,
and non-blocking operations with elements there will complete with STATUS 6. Loss of the hart's own cluster is not this. -/
def State.loseSpanIn (s : State) (lost : Place → Bool) : State :=
  match s.hart.claim with
  | none => s
  | some c =>
    let gone := c.places.zipIdx.filter fun p => lost p.1
    if gone = [] then s
    else
      let hit (o : VecOp) : Bool := gone.any fun p => o.at'.getLsbD (spanPos (c.own s.myHall) p.2)
      s.onHart fun h =>
        { h with
          spanLost := gone.foldl (fun m p => setBit m (p.1.hall.toNat / 2) true) h.spanLost
          vops := h.vops.map fun o => if o.status = 0#4 && hit o then { o with status := 6#4 } else o }

/-- HALL_FENCE (R344): the gate closes; every later request into the hall meets it, and span positions in it are lost (R346).
A fenced hall stays as it is. -/
def State.fence (s : State) (h : BitVec 4) (cause : BitVec 4) : State :=
  if (s.hall h).st = .fenced then s
  else (s.loseSpanIn fun p => p.hall == h).onHall h fun x => { x with st := .fenced, cause := cause }

/-- HALL_FENCE (R344). -/
def execHallFence (hall : BitVec 4) (cause : BitVec 4) (s : State) := happened (s.fence hall cause)

/-- HALL_HANG_TIMEOUT (R344): a hang fences the hall with CAUSE 4. -/
def execHallHangTimeout (hall : BitVec 4) (s : State) := happened (s.fence hall 4#4)

/-! ## Gallery windows (R348) -/

/-- A physical byte lies in a gallery window. -/
def Gallery.covers (g : Gallery) (pa : Nat) : Bool :=
  g.base.toNat ≤ pa && decide (pa < g.base.toNat + fieldNat g.ctl 0 16 * 65536)

/-- Drop, from the read-only windows of a tenant's VFs, the lines whose home lies in a gallery window. -/
def State.dropGranted (s : State) (g : Gallery) (t : BitVec 16) : State :=
  { s with halls := s.halls.map fun x =>
      { x with windows := x.windows.map fun p =>
          (p.1, if s.tenantOf p.2.vf = t then { p.2 with lines := p.2.lines.filter fun l => !g.covers (l.pa * 64) } else p.2) } }

/-- Gallery window i of a hall. -/
def State.galleryAt (s : State) (h : BitVec 4) (i : BitVec 5) : Gallery := pick (w := 5) (s.hall h).gallery i

/-- Change gallery window i. -/
def State.onGallery (s : State) (h : BitVec 4) (i : BitVec 5) (f : Gallery → Gallery) : State :=
  s.onHall h fun x => { x with gallery := put (w := 5) x.gallery i (f (pick (w := 5) x.gallery i)) }

/-- The value that a GWCTL write stores: SIZE is kept while EN is 1 (R348, Table 23.6). -/
def gwctlStored (old v : Word) : Word :=
  place (fieldNat v 62 2) 62 2 ||| place (fieldNat v 40 8) 40 8 ||| place (fieldNat v 16 16) 16 16
    ||| place (fieldNat (if old.getLsbD 63 then old else v) 0 16) 0 16

/-- GWCTL_WRITE (R348): a write of EN = 0 to an open window revokes it. -/
def State.writeGwctl (s : State) (h : BitVec 4) (i : BitVec 5) (v : Word) : State :=
  let old := s.galleryAt h i
  let stored := gwctlStored old.ctl v
  let revoked := old.ctl.getLsbD 63 && !v.getLsbD 63
  let s := s.onGallery h i fun g => { g with ctl := stored, busy := g.busy || revoked }
  let s := s.extend h (measured (hallRegOffset h (0x108 + 16 * i.toNat)) stored)
  if revoked then
    (s.dropGranted old (old.ctl.extractLsb' 16 16)).raiseEvt (old.ctl.extractLsb' 16 16) fun e => setBit e 2 true
  else s

/-- GWBASE write (R348): ignored while EN is 1. -/
def State.writeGwbase (s : State) (h : BitVec 4) (i : BitVec 5) (v : Word) : State :=
  if (s.galleryAt h i).ctl.getLsbD 63 then s
  else
    let stored := setField v 0 0#16
    (s.onGallery h i fun g => { g with base := stored }).extend h (measured (hallRegOffset h (0x100 + 16 * i.toNat)) stored)

/-- GWCTL_WRITE (R348). -/
def execGwctlWrite (hall : BitVec 4) (i : BitVec 5) (value : Word) (s : State) := happened (s.writeGwctl hall i value)

/-- GALLERY_REVOKE_DRAIN_DONE (R348): every request admitted before is performed. -/
def execGalleryRevokeDrainDone (hall : BitVec 4) (i : BitVec 5) (s : State) :=
  happened (s.onGallery hall i fun g => { g with busy := false })

/-- VIOLATION_LOG_CLEAR (R349): every VALID bit, NEXT and OVF in one step. -/
def execViolationLogClear (hall : BitVec 4) (s : State) :=
  happened (s.onHall hall fun x =>
    { x with vlog := x.vlog.map fun p => (p.1, { p.2 with valid := false }), vnext := 0, vovf := 0#32 })

/-! ## Virtual functions (R350 to R353) -/

/-- The value that a VCAP write stores (R50, R351). -/
def vcapStored (v : Nat) : Nat := Nat.max 512 (Nat.min 8192 (powFloor v))

/-- VFVCAP_WRITE (R351): CAP is bits 13:0. -/
def execVfvcapWrite (vf : BitVec 10) (value : Word) (s : State) :=
  happened (s.onVf vf fun x => { x with vcap := vcapStored (fieldNat value 0 14) })

/-- VF_RESET_COMPLETE (R352): once no command of the VF is left and the markers are back, BUSY clears and
RSTDONE is set. -/
def execVfResetComplete (vf : BitVec 10) (s : State) :=
  happened (if (s.vf vf).rstBusy && !(s.cmds.any fun c => c.vf == vf) then
    s.onVf vf fun x => { x with rstBusy := false, evt := setBit x.evt 3 true } else s)

/-- Change an external port. -/
def State.onPort (s : State) (h : BitVec 4) (p : Nat) (f : ExtPort → ExtPort) : State :=
  s.onHall h fun x => { x with ports := x.ports.setIfInBounds p (f ((x.ports[p]?).getD ExtPort.reset)) }

/-- External port p of a hall. -/
def State.port (s : State) (h : BitVec 4) (p : Nat) : ExtPort := ((s.hall h).ports[p]?).getD ExtPort.reset

/-- PORTCFG_GUAR_WRITE (R353). -/
def State.writeGuar (s : State) (h : BitVec 4) (p : Nat) (g : BitVec 4) : State :=
  let s := s.onPort h p fun x => { x with guar := g }
  if p < 9 && (s.port h p).width < g then s.shortfall h p else s

/-- PORTCFG_GUAR_WRITE (R353). -/
def execPortcfgGuarWrite (hall : BitVec 4) (port : BitVec 4) (guar : BitVec 4) (s : State) :=
  happened (s.writeGuar hall port.toNat guar)

/-! ## Traffic counters (R234) -/

/-- TRFCTL_CLEAR (R234). -/
def execTrfctlClear (hall : BitVec 4) (s : State) :=
  happened (s.onHall hall fun x => { x with traffic := Vector.replicate 10 0#64 })

/-- TRFCTL_FREEZE (R234). -/
def execTrfctlFreeze (hall : BitVec 4) (on : Bool) (s : State) := happened (s.onHall hall fun x => { x with freeze := on })

/-! ## The PF fault queue (R337, R338) -/

/-- Entries in the ring of the PF fault queue. -/
def Hall.fqSize (x : Hall) : Nat := 2 ^ (fieldNat x.fqcfg 0 4 + 6)

/-- The ring is full. -/
def Hall.fqFull (x : Hall) : Bool := decide (x.fqSize ≤ (x.fqtail - x.fqhead).toNat)

/-- Write one entry at TAIL, then advance TAIL. -/
def State.fqWrite (s : State) (h : BitVec 4) (e : List Word) : State :=
  let x := s.hall h
  let a := x.fqbase.toNat + 32 * (x.fqtail.toNat % x.fqSize)
  let s := match s.writeHome none h a (wordsBytes e) with | .ok s => s | .error s => s
  s.onHall h fun x => { x with fqtail := x.fqtail + 1 }

/-- Post an entry: it waits in the hall while the ring is full, and FQOVF counts it once (R338). -/
def State.fqPost (s : State) (h : BitVec 4) (e : List Word) : State :=
  let x := s.hall h
  if !x.fqcfg.getLsbD 63 then s.onHall h fun x => { x with fqPending := x.fqPending ++ [e] }
  else if x.fqFull || x.fqPending != [] then
    s.onHall h fun x =>
      { x with fqPending := x.fqPending ++ [e], fqovf := if x.fqovf = BitVec.allOnes 64 then x.fqovf else x.fqovf + 1 }
  else s.fqWrite h e

/-- Move waiting entries into the ring while there is room. -/
def State.fqDrain (s : State) (h : BitVec 4) : List (List Word) → State
  | [] => s.onHall h fun x => { x with fqPending := [] }
  | e :: r => if (s.hall h).fqFull then s.onHall h fun x => { x with fqPending := e :: r } else (s.fqWrite h e).fqDrain h r

/-- The PF writes HEAD of FQPTR. -/
def State.writeFqHead (s : State) (h : BitVec 4) (v : BitVec 32) : State :=
  let s := s.onHall h fun x => { x with fqhead := v }
  if (s.hall h).fqcfg.getLsbD 63 then s.fqDrain h (s.hall h).fqPending else s

/-- A fault queue entry (Table 22.5). -/
def fqEntry (va : Word) (token : BitVec 32) (vf : BitVec 10) (h : BitVec 4) (c : BitVec 5) (n : BitVec 3)
    (kind src reason nsame : Nat) (time : Word) : List Word :=
  [va,
   place token.toNat 32 32 ||| place vf.toNat 22 10 ||| place h.toNat 18 4 ||| place c.toNat 13 5 ||| place n.toNat 10 3
     ||| place kind 8 2 ||| place src 5 3 ||| place reason 1 4 ||| 1#64,
   place nsame 0 8, time]

/-- Post the entries of one held access of the hart, and hold it (R337): one entry for each faulting page. `x` says
what an answer does. -/
def State.holdHart (s : State) (entries : List (Word × Nat × Nat)) (x : Held) : State :=
  let h := s.myHall
  let tok := (s.hall h).nextToken
  let s := entries.foldl (fun s e =>
    s.fqPost h (fqEntry e.1 tok s.myVf h s.myCluster s.myHart e.2.1 (if x.tlbsh.isSome then 4 else 0) e.2.2
      entries.length s.podt)) s
  let s := s.onHall h fun y => { y with nextToken := tok + 1, held := y.held ++ [{ x with token := tok, vf := s.myVf }] }
  s.onHart fun y => { y with wait := some (.held tok) }

/-- The held access that a token names. -/
def State.heldAt (s : State) (h : BitVec 4) (tok : BitVec 32) : Option Held := (s.hall h).held.find? fun x => x.token == tok

/-- Forget a held access. -/
def State.unhold (s : State) (h : BitVec 4) (tok : BitVec 32) : State :=
  s.onHall h fun x => { x with held := x.held.filter fun y => y.token != tok }

/-- Invalidate for TLBSH: one page or every page of a VF (R115); a landing whose page is no longer mapped is freed, and
its pending actions dropped (R277). -/
def State.invalidate (s : State) (v : BitVec 10) (page : Option Word) : State :=
  let s := s.dropTlb v page
  let gone (h : Nat) (l : Landing) : Bool :=
    l.vf == v && page.all (fun a => a.toNat % 2 ^ 56 / l.page == l.va.toNat % 2 ^ 56 / l.page)
      && (match s.walk (some v) (BitVec.ofNat 4 h) l.va with | .ok _ => false | .error _ => true)
  { s with halls := Vector.ofFn fun (i : Fin 16) =>
      let x := s.halls[i]
      { x with landings := x.landings.filter fun p => !gone i.val p.2 } }

/-- The guest receives the fault of a held access (R337): with its batch record where it has one. A VLDFF that faults above its
first active element ends there instead (R159). -/
def State.forward (s : State) (x : Held) : State :=
  match x.cut with
  | some (_, vl, vlw) => (s.onHart fun h => { h with vl := vl, vlw := vlw, vstart := 0 }).retire (if x.pfx then 8#64 else 4#64)
  | none =>
  let s := if x.record = [] then s else s.putBytes x.recordPa (wordsBytes x.record)
  s.takeTrap
    { code := x.code, eval := if x.record = [] then x.va else BitVec.ofNat 64 x.recordPa,
      detail := if x.code = 2 then 0 else x.kind.toNat, after := x.after, pfx := x.pfx }

/-- The hypervisor answers a held access (R337, R339): a hart makes it again, receives the fault, or has a scalar
access completed; an engine position walks again, or fails; a guest TLBSH is performed. A stale or unknown token
changes nothing. -/
def State.answer (s : State) (h : BitVec 4) (tok : BitVec 32) (a : FqAnswer) : State :=
  match s.heldAt h tok with
  | none => s
  | some x =>
    let s := s.unhold h tok
    match x.cmd with
    | some i => { s with cmds := s.cmds.map fun c => if c.id = i then { c with forward := a != .none } else c }
    | none =>
      if s.hart.wait = some (.held tok) then
        let s := s.onHart fun y => { y with wait := none }
        match x.tlbsh, a with
        | some k, _ => (s.invalidate x.vf (if k = 0#2 then some x.va else none)).retire 4#64
        | none, .complete d => if x.scalar then s.onHart fun y => { y with fq := .complete d } else s.forward x
        | none, .forward => s.forward x
        | none, _ =>
          match x.cut with
          | some (first, _, _) => s.onHart fun y => { y with fq := .again first }
          | none => s
      else s

/-- FQRESP_RETRY (R337). -/
def execFqrespRetry (hall : BitVec 4) (token : BitVec 32) (s : State) := happened (s.answer hall token .none)

/-- FQRESP_FORWARD (R337). -/
def execFqrespForward (hall : BitVec 4) (token : BitVec 32) (s : State) := happened (s.answer hall token .forward)

/-- FQRESP_COMPLETE (R337), with FQDATA. -/
def execFqrespComplete (hall : BitVec 4) (token : BitVec 32) (s : State) :=
  happened (s.answer hall token (.complete (s.hall hall).fqdata))

/-! ## Shootdowns (R339) -/

/-- SHOOTCTL_GO (R339, Table 22.7): ignored while BUSY; KIND 2 and 3 have no effect beyond the fields. What it shoots down is
fixed now. -/
def State.startShoot (s : State) (h : BitVec 4) (kind : BitVec 2) (v : BitVec 10) : State :=
  if (s.hall h).shootBusy then s
  else s.onHall h fun x =>
    let w := place kind.toNat 10 2 ||| place v.toNat 0 10
    { x with shootctl := w, shootBusy := kind.toNat < 2, shootPage := x.shootva, shootHow := w }

/-- SHOOTCTL_GO (R339). -/
def execShootctlGo (hall : BitVec 4) (kind : BitVec 2) (vf : BitVec 10) (s : State) := happened (s.startShoot hall kind vf)

end Sys2Proof.Machine
end

