-- ==== Sys2Proof/Machine/Special.lean ====
section
/-! DEFINITION. Special.lean: the special functions (R132), the order of sums (R41) and the arithmetic of
wells (R37 to R39). A special function is enclosed between two fixed-point bounds; its leading 100 bits are taken
when the bounds agree on them, and a finer grid is tried when they do not. -/

namespace Sys2Proof.Machine

/-! ## Series on the grid 2^−P -/

/-- Σ X^k/k! on the grid, from term `t` = X^(k−1)/(k−1)! on. -/
def expSeries (P X : Nat) : Nat → Nat → Nat → Nat
  | 0, _, _ => 0
  | n + 1, k, t => t + expSeries P X n (k + 1) (t * X / 2 ^ P / k)

/-- e^r for r = X·2^−P in [0, 1). -/
def expGrid (P X : Nat) : Nat := expSeries P X P 1 (2 ^ P)

/-- Σ z^(2k+1)/(2k+1) on the grid, from term `t` = z^(2k+1) on; `Z2` is z². -/
def atanhSeries (P Z2 : Nat) : Nat → Nat → Nat → Nat
  | 0, _, _ => 0
  | n + 1, k, t => t / (2 * k + 1) + atanhSeries P Z2 n (k + 1) (t * Z2 / 2 ^ P)

/-- ln y for y = Y·2^−P in [1, 2). -/
def lnGrid (P Y : Nat) : Nat :=
  let Z := (Y - 2 ^ P) * 2 ^ P / (Y + 2 ^ P)
  2 * atanhSeries P (Z * Z / 2 ^ P) P 0 Z

/-- ln 2. -/
def ln2Grid (P : Nat) : Nat := 2 * atanhSeries P (2 ^ P / 9) P 0 (2 ^ P / 3)

/-- What the truncations of a grid computation can add up to. -/
def gridErr : Nat := 2 ^ 40

/-- The leading 100 bits of Y·2^e, when Y − err and Y + err agree on them. The value is no dyadic number, so
it lies strictly above them. -/
def leading (neg : Bool) (Y : Nat) (e : Int) : Option FVal :=
  let sh := Y.log2 - 100
  let lo := (Y - gridErr) >>> sh
  if lo = (Y + gridErr) >>> sh then some (.fin neg lo (e + sh) true) else none

/-- The fixed-point form of |x| = m·2^e on the grid. -/
def onGrid (P m : Nat) (e : Int) : Nat := if 0 ≤ e + P then m <<< (e + P).toNat else m >>> (-(e + P)).toNat

/-- e^x as Y·2^k with Y on the grid in [1, 2). -/
def expParts (P : Nat) (neg : Bool) (m : Nat) (e : Int) : Nat × Int :=
  let X : Int := sInt neg (onGrid P m e)
  let l := ln2Grid P
  let k := X / (l : Int)
  (expGrid P (X - k * (l : Int)).toNat, k)

/-- Try finer and finer grids. -/
def ziv (f : Nat → Option FVal) : FVal :=
  match f 256 with
  | some v => v
  | none => match f 512 with
    | some v => v
    | none => (f 1024).getD .nan

/-- Just above 2^e or just below it. -/
def justBeside (e : Int) (below : Bool) : FVal := .fin false (if below then 2 ^ 130 - 1 else 2 ^ 130) (e - 130) true

/-- m·2^e < 2^n. -/
def below (m : Nat) (e n : Int) : Bool := decide ((m.log2 : Int) + e < n)

/-- e^x of a finite x other than 0. -/
def expFin (neg : Bool) (m : Nat) (e : Int) : FVal :=
  if below m e (-130) then justBeside 0 neg
  else if !below m e 8 then .fin false 1 (if neg then -400 else 400) true
  else ziv fun P => let (y, k) := expParts P neg m e; leading false y (k - P)

/-- 2^x of a finite x other than 0. -/
def exp2Fin (neg : Bool) (m : Nat) (e : Int) : FVal :=
  if below m e (-130) then justBeside 0 neg
  else if !below m e 10 then .fin false 1 (if neg then -1000 else 1000) true
  else if 0 ≤ e then .fin false 1 (sInt neg (m <<< e.toNat)) false
  else if m % 2 ^ (-e).toNat = 0 then .fin false 1 (sInt neg (m >>> (-e).toNat)) false
  else ziv fun P =>
    let x : Int := sInt neg (onGrid P m e)
    let k := x / (2 ^ P : Nat)
    leading false (expGrid P ((x - k * (2 ^ P : Nat)).toNat * ln2Grid P / 2 ^ P)) (k - P)

/-- log2 x of a positive finite x. -/
def log2Fin (m : Nat) (e : Int) : FVal :=
  let k : Int := (m.log2 : Int) + e
  if m = 2 ^ m.log2 then ofSInt k 0 false
  else ziv fun P =>
    let v : Int := k * (2 ^ P : Nat) + (lnGrid P (m <<< (P - m.log2)) * 2 ^ P / ln2Grid P : Nat)
    leading (decide (v < 0)) v.natAbs (-P)

/-- tanh x of a finite x other than 0. -/
def tanhFin (neg : Bool) (m : Nat) (e : Int) : FVal :=
  if below m e (-60) then .fin neg (m <<< 80 - 1) (e - 80) true
  else if !below m e 7 then .fin neg (2 ^ 200 - 1) (-200) true
  else ziv fun P =>
    let (y, k) := expParts P true m (e + 1)
    let t := y >>> (-k).toNat
    leading neg ((2 ^ P - t) * 2 ^ P / (2 ^ P + t)) (-P)

/-- 1/(1 + e^−x) of a finite x other than 0. -/
def sigFin (neg : Bool) (m : Nat) (e : Int) : FVal :=
  if below m e (-130) then justBeside (-1) neg
  else if !below m e 8 then (if neg then .fin false 1 (-400) true else .fin false (2 ^ 200 - 1) (-200) true)
  else ziv fun P =>
    let (y, k) := expParts P true m e
    let den := 2 ^ P + y >>> (-k).toNat
    if neg then leading false (y * 2 ^ P / den) (k - P) else leading false (2 ^ P * 2 ^ P / den) (-P)

/-! ## The functions on an operand (Table 7.5) -/

/-- The special functions. -/
inductive Special where
  | rcp | rsq | ex2 | lg2 | tnh | sig | exp
deriving DecidableEq, Repr

/-- The value of a special function, with DZ or NV where Table 7.5 gives it. -/
def Special.value (fn : Special) (x : FVal) : FVal × Flags :=
  match x with
  | .nan => (.nan, 0#5)
  | .inf n =>
    match fn with
    | .rcp => (.fin n 0 0 false, 0#5)
    | .rsq => if n then (.nan, flNV) else (.fin false 0 0 false, 0#5)
    | .lg2 => if n then (.nan, flNV) else (.inf false, 0#5)
    | .tnh => (.fin n 1 0 false, 0#5)
    | .sig => (if n then .fin false 0 0 false else .fin false 1 0 false, 0#5)
    | _ => (if n then .fin false 0 0 false else .inf false, 0#5)
  | .fin n m e _ =>
    if m = 0 then
      match fn with
      | .rcp => (.inf n, flDZ)
      | .rsq => (.inf n, flDZ)
      | .lg2 => (.inf true, flDZ)
      | .tnh => (.fin n 0 0 false, 0#5)
      | .sig => (.fin false 1 (-1) false, 0#5)
      | _ => (.fin false 1 0 false, 0#5)
    else
      match fn with
      | .rcp => divVal (.fin false 1 0 false) x
      | .rsq => if n then (.nan, flNV) else (rsqrtFin m e, 0#5)
      | .lg2 => if n then (.nan, flNV) else (log2Fin m e, 0#5)
      | .ex2 => (exp2Fin n m e, 0#5)
      | .tnh => (tanhFin n m e, 0#5)
      | .sig => (sigFin n m e, 0#5)
      | .exp => (expFin n m e, 0#5)

/-! ## GroupSum (R41) -/

/-- floor(t / 2^q) of a finite value, and whether it is not exact. -/
def floorTo (q : Int) (neg : Bool) (m : Nat) (e : Int) : Int × Bool :=
  if q ≤ e then (sInt neg (m <<< (e - q).toNat), false)
  else
    let sh := (q - e).toNat
    (sInt neg m / (2 ^ sh : Nat), m % 2 ^ sh != 0)

/-- RoundFP32 of s·2^q, or of the value just above it. -/
def roundSum (s : Int) (q : Int) (sticky : Bool) : Nat × Flags :=
  if s = 0 then (0, flag sticky (flUF ||| flNX))
  else roundTo .fp32 .plain
    (if sticky && decide (s < 0) then .fin true (s.natAbs <<< 64 - 1) (q - 64) true
     else .fin (decide (s < 0)) s.natAbs q sticky)

/-- GroupSum of a tile value and exact products; `nv`: a signalling NaN is among the operands. -/
def groupSum (c : Nat) (ps : List (FVal × Flags)) (nv : Bool) : Nat × Flags :=
  let cv := Fmt.fp32.value c
  let terms := cv :: ps.map (·.1)
  let nvFlag := flag (nv || Fmt.fp32.isSNaN c) flNV ||| (ps.foldl (fun f p => f ||| p.2) 0#5)
  let pos := terms.any fun t => t == .inf false
  let neg := terms.any fun t => t == .inf true
  if terms.any fun t => t == .nan then (Fmt.fp32.canonical, nvFlag)
  else if pos && neg then (Fmt.fp32.canonical, nvFlag ||| flNV)
  else if pos || neg then (Fmt.fp32.signed neg Fmt.fp32.infBits, nvFlag)
  else
    let fins := terms.filterMap fun t => match t with | .fin n m e _ => some (n, m, e) | _ => none
    let nz := fins.filter fun t => t.2.1 != 0
    match nz with
    | [] => (Fmt.fp32.signed (fins.all fun t => t.1) 0, nvFlag)
    | t0 :: r =>
      let a := r.foldl (fun a t => max a ((t.2.1.log2 : Int) + t.2.2)) ((t0.2.1.log2 : Int) + t0.2.2)
      let q := a - 73
      let (s, sticky) := nz.foldl
        (fun (acc : Int × Bool) t => let (f, st) := floorTo q t.1 t.2.1 t.2.2; (acc.1 + f, acc.2 || st)) (0, false)
      let (b, fl) := roundSum s q sticky
      (b, fl ||| nvFlag)

/-- A product of two elements for GroupSum (R40). -/
def product (f : Fmt) (x y : Nat) : FVal × Flags := mulVal (f.value x) (f.value y)

/-! ## Wells (R38, R39) -/

/-- The largest magnitude of a WLX element. -/
def wlxMax : Int := 2 ^ 63 - 1

/-- The grid multiple of 2^(E−62) nearest to a finite addend, ties to even. -/
def wlxRound (E : Int) (neg : Bool) (m : Nat) (e : Int) (st : Bool) : Int :=
  sInt neg (roundAt .rne 0 neg m e st (E - 62)).1

/-- One deposit of R38: the element, OV and NaN after it. -/
def wlxDeposit (E : Int) (n : Int) (ov nan : Bool) (a : FVal) : Int × Bool × Bool :=
  if nan then (n, ov, true)
  else match a with
  | .nan => (n, ov, true)
  | .inf s => if ov && n.natAbs == wlxMax.natAbs then (n, ov, nan) else (if s then -wlxMax else wlxMax, true, nan)
  | .fin neg m e st =>
    if ov && n.natAbs == wlxMax.natAbs then (n, ov, nan)
    else
      let t := n + wlxRound E neg m e st
      if wlxMax < t then (wlxMax, true, nan) else if t < -wlxMax then (-wlxMax, true, nan) else (t, ov, nan)

/-- What WREAD returns for a WLX element (R38), as FP32 bits. -/
def wlxRead (E : Int) (n : Int) (ov nan : Bool) : Nat :=
  if nan then Fmt.fp32.canonical
  else if ov && n.natAbs == wlxMax.natAbs then Fmt.fp32.signed (decide (n < 0)) Fmt.fp32.infBits
  else (roundTo .fp32 .plain (ofSInt n (E - 62) false)).1

/-- One deposit of R39: the addend is rounded RNE to FP32, then added. -/
def wlfDeposit (old : Nat) (a : FVal) : Nat :=
  let x := Fmt.fp32.value (roundTo .fp32 .plain a).1
  (roundTo .fp32 .plain (addVal .rne (Fmt.fp32.value old) x).1).1

/-- The exact addend of ZDEP (R37, R182): a NaN for 0 × ∞. -/
def scaleProduct (p row tile : Nat) : FVal :=
  (mulVal (mulVal (Fmt.fp32.value p) (Fmt.fp32.value row)).1 (Fmt.fp32.value tile)).1

end Sys2Proof.Machine
end

