-- ==== Sys2Proof/Machine/Lines.lean ====
section
/-! DEFINITION. Lines.lean: well lines and ink pages at their homes (R163 to R169, R254 to R262), atomic
updates at the home (R101 to R105, R161), and the posted requests of the hart (R88 to R90, R155). -/

namespace Sys2Proof.Machine

/-! ## Well lines (R255 to R258) -/

/-- A line that no operation has reached since its page was mapped (R255). -/
def WellLine.fresh : WellLine := { e := 0#8, ov := false, nan := false, pois := false, wlf := false, res := .absent }

/-- The header of a well line, by line number. -/
def State.wellLine (s : State) (line : Nat) : WellLine := (alFind line s.wells).getD WellLine.fresh

/-- Change the header of a well line. -/
def State.onWell (s : State) (line : Nat) (f : WellLine → WellLine) : State :=
  { s with wells := alSet line (f (s.wellLine line)) s.wells }

/-- The header as 16 bits (Table 15.3). -/
def WellLine.header (w : WellLine) : BitVec 16 :=
  w.e ++ BitVec.ofBool w.ov ++ BitVec.ofBool w.nan ++ BitVec.ofBool w.pois ++ BitVec.ofBool w.wlf ++ 0#4

/-- Bytes of a well element (R168). -/
def wellSlot (wlf : Bool) : Nat := if wlf then 4 else 8

/-- The address of element i of a line. -/
def wellPa (wlf : Bool) (line i : Nat) : Nat := line * 64 + wellSlot wlf * i

/-- The bits of element i of a line. -/
def State.wellElem (s : State) (wlf : Bool) (line i : Nat) : Nat := leNat (s.bytes (wellPa wlf line i) (wellSlot wlf))

/-- Store the bits of element i of a line. -/
def State.setWellElem (s : State) (wlf : Bool) (line i x : Nat) : State :=
  s.performBytes (wellPa wlf line i) (leBytes (wellSlot wlf) x)

/-- Apply one addend (R38, R39). -/
def State.depositOne (s : State) (wlf : Bool) (line : Nat) (a : Nat × FVal) : State :=
  if wlf then s.setWellElem true line a.1 (wlfDeposit (s.wellElem true line a.1) a.2)
  else
    let w := s.wellLine line
    let (n, ov, nan) := wlxDeposit w.e.toInt (toSigned 64 (s.wellElem false line a.1)) w.ov w.nan a.2
    (s.setWellElem false line a.1 (ofSigned 64 n)).onWell line fun w => { w with ov := ov, nan := nan }

/-- Some slot receives two addends. -/
def repeats (l : List Nat) : Bool := !decide l.Nodup

/-- Insert by a rank, for the order that R162, R168 and R190 leave open. -/
def insertBy {α : Type} (rank : α → Nat) (a : α) : List α → List α
  | [] => [a]
  | x :: r => if rank a < rank x then a :: x :: r else x :: insertBy rank a r

/-- The order in which conflicting element steps are performed: as listed when no two conflict, else an order
that the manual leaves open (log 13). -/
def State.openOrder {α : Type} (s : State) (key : α → Nat) (l : List α) : List α :=
  if repeats (l.map key) then
    ((List.range l.length).zip l |>.foldl (fun acc p => insertBy (fun q => Config.elementRank s.fresh q.1) p acc) []).map (·.2)
  else l

/-- A well operation is applied only on a resident line: one that is absent has been filled, and one that was being written has
gone and come back, before the queued operation's own step (R257). A fill or a write that meets an error is an event of its own. -/
def State.makeResident (s : State) (line : Nat) : State := s.onWell line fun w => { w with res := .resident }

/-- The line step of a deposit (R168, R256): nothing on a poisoned line; true when it met poison. -/
def State.wellDeposit (s : State) (wlf : Bool) (line : Nat) (adds : List (Nat × FVal)) : State × Bool :=
  let s := s.makeResident line
  if (s.wellLine line).pois then (s, true)
  else ({ (s.openOrder (·.1) adds).foldl (fun s a => s.depositOne wlf line a) s with fresh := s.fresh + 1 }, false)

/-- WINIT of one line (R167, R256). -/
def State.wellInit (s : State) (wlf : Bool) (line : Nat) (anchor : BitVec 8) : State :=
  (s.performBytes (line * 64) (List.replicate 64 0#8)).onWell line fun _ =>
    { e := if wlf then (s.wellLine line).e else anchor, ov := false, nan := false, pois := false, wlf := wlf, res := .resident }

/-- What WREAD returns for element i of a line (R38, R169), as FP32 bits. -/
def State.wellValue (s : State) (wlf : Bool) (line i : Nat) : Nat :=
  let w := s.wellLine line
  if wlf then s.wellElem true line i else wlxRead w.e.toInt (toSigned 64 (s.wellElem false line i)) w.ov w.nan

/-- Read elements of one line in one step (R169); none on a poisoned line. -/
def State.wellRead (s : State) (wlf : Bool) (line : Nat) (is : List Nat) : State × Option (List Nat) :=
  let s := s.makeResident line
  (s, if (s.wellLine line).pois then none else some (is.map (s.wellValue wlf line)))

/-- The reset of WDRAIN, in the step that read these elements (R169). -/
def State.wellReset (s : State) (wlf : Bool) (line : Nat) (is : List Nat) : State :=
  let s := is.foldl (fun s i => s.setWellElem wlf line i 0) s
  if !wlf && (List.range 8).all is.contains then s.onWell line fun w => { w with ov := false, nan := false } else s

/-! ## Updates at the home (R101, R161) -/

/-- The new memory value of an update (Tables 6.4, 9.5): 0 ADD, 1 AND, 2 OR, 3 XOR, 4 MIN, 5 MAX, 6 MINN,
7 MAXN, 8 FADD, 9 FMIN, 10 FMAX, 11 SWP; at the width and format of the type. -/
def amoValue (op : Nat) (t : BitVec 4) (m x : Nat) : Nat :=
  let w := typeWidth t
  let f := fmtOf t
  match op with
  | 0 => (m + x) % 2 ^ w
  | 1 => m &&& x
  | 2 => m ||| x
  | 3 => m ^^^ x
  | 4 => if toSigned w x < toSigned w m then x else m
  | 5 => if toSigned w m < toSigned w x then x else m
  | 6 => Nat.min m x
  | 7 => Nat.max m x
  | 8 => (roundTo f .plain (addVal .rne (f.value m) (f.value x)).1).1
  | 9 => (minMax f false m x).1
  | 10 => (minMax f true m x).1
  | _ => x

/-- The host port of a target-6 address carries PCIe only (R359). -/
def State.pcieOnly (s : State) (pa : Nat) : Bool :=
  paTarget pa == 6 && s.portMode pa == 1#2

/-- A PCIe-only port does not perform an atomic: it has no AtomicOp for it, or the root complex refuses it (R161, R360). -/
def State.noAtomic (s : State) (pa : Nat) (refused : Bool) : Bool :=
  s.pcieOnly pa && (refused || Config.rootRefuses s.era ((paChip pa).toNat * 4 + (paDie pa).toNat))

/-- Why an update of n bytes would fail at its home; none when it is performed. `refused`: a PCIe-only port cannot
carry it (R161, R360), nor where the root complex refuses. -/
def State.updateLate (s : State) (who : Option (BitVec 10)) (frm : BitVec 4) (pa n : Nat) (refused : Bool) : Option Late :=
  if (s.refusal who frm pa n true).isSome || s.noAtomic pa refused || (decide (paTarget pa < 4) && s.inkRefuses pa) then
    some .error
  else if s.poisoned pa n then some .poison
  else none

/-- The log entry of an update that a gate refuses, or that reaches a sealed page (R260). -/
def State.logUpdate (s : State) (who : Option (BitVec 10)) (frm : BitVec 4) (pa n : Nat) : State :=
  match s.refusal who frm pa n true with
  | some c => s.logRefusal who frm pa c
  | none => if paTarget pa < 4 && s.inkRefuses pa then s.logSealed who frm pa else s

/-- One atomic step on n bytes at the home (R101, R107): the old value, and the state after the write that f
gives, or how it failed. -/
def State.updateHome (s : State) (who : Option (BitVec 10)) (frm : BitVec 4) (pa n : Nat) (refused : Bool)
    (f : Nat → Option Nat) : Except (Late × State) (Nat × State) :=
  match s.updateLate who frm pa n refused with
  | some e => .error (e, s.logUpdate who frm pa n)
  | none =>
    let m := leNat (s.bytes pa n)
    match f m with
    | none => .ok (m, s)
    | some x => .ok (m, s.performBytes pa (leBytes n x))

/-! ## Posted requests (R88 to R90) -/

/-- Store runs of bytes whose addresses follow one another. -/
def joinRuns : List (Nat × Byte) → List (Nat × List Byte)
  | [] => []
  | (a, b) :: r =>
    match joinRuns r with
    | (a', bs) :: t => if a' = a + 1 then (a, b :: bs) :: t else (a, [b]) :: (a', bs) :: t
    | [] => [(a, [b])]

/-- Write the runs of one request at their home. -/
def State.writeRuns (s : State) (who : Option (BitVec 10)) (frm : BitVec 4) : List (Nat × List Byte) → Except State State
  | [] => .ok s
  | (a, bs) :: r =>
    match s.writeHome who frm a bs with
    | .ok s' => (s'.count frm a bs.length true).writeRuns who frm r
    | .error s' => .error s'

/-- The bits of a line mask for n bytes at an address. -/
def lineBits (a n : Nat) : BitVec 64 := BitVec.ofNat 64 ((2 ^ n - 1) <<< (a % 64))

/-- Apply the updates of one request, one atomic step each; the mask of those that failed, and how the first did. -/
def State.writeAmos (s : State) (who : Option (BitVec 10)) (frm : BitVec 4) (op : Nat) (t : BitVec 4) :
    List (Nat × Word) → State × Option Late × BitVec 64
  | [] => (s, none, 0#64)
  | (pa, x) :: r =>
    let n := typeWidth t / 8
    match s.updateHome who frm pa n true (fun m => some (amoValue op t m x.toNat)) with
    | .ok (_, s') => (s'.countUpdate frm pa n true).writeAmos who frm op t r
    | .error (e, s') =>
      let (s'', _, m) := s'.writeAmos who frm op t r
      (s'', some e, m ||| lineBits pa n)

/-- A gate refuses the well line of a request. -/
def State.wellRefusal (s : State) (who : Option (BitVec 10)) (frm : BitVec 4) (line : Nat) : Option (Option Nat) :=
  s.refusal who frm (line * 64) 64 true

/-- Perform a request at its home, with the logs of a failure; how it failed, and which bytes of its line (R15, Table 9.2). A write
that is performed drops the line from the windows (R195). -/
def State.performPosted (s : State) (p : Posted) : State × Option (Late × BitVec 64) :=
  let frm := p.frm
  let all : BitVec 64 := BitVec.allOnes 64
  if p.failed then (s, some (.error, all))
  else match p.payload with
  | .bytes l =>
    match s.writeRuns p.who frm (joinRuns l) with
    | .ok s' => (s'.dropOwnLines frm (p.pa / 64 * 64) 64, none)
    | .error s' => (s', some (.error, all))
  | .amo op t l =>
    let s0 : State := { s with fresh := s.fresh + 1 }
    let r := s0.writeAmos p.who frm op t (s.openOrder (·.1) l)
    (r.1.dropOwnLines frm (p.pa / 64 * 64) 64, r.2.1.map fun e => (e, r.2.2))
  | .deposit wlf line adds =>
    match s.wellRefusal p.who frm line with
    | some c => (s.logRefusal p.who frm (line * 64) c, some (.error, all))
    | none =>
      let (s', pois) := s.wellDeposit wlf line adds
      if pois then (s', some (.poison, all))
      else (s'.count frm (line * 64) (adds.length * wellSlot wlf) true, none)
  | .winit wlf line anchor =>
    match s.wellRefusal p.who frm line with
    | some c => (s.logRefusal p.who frm (line * 64) c, some (.error, all))
    | none => ((s.wellInit wlf line anchor).count frm (line * 64) 64 true, none)

/-- A request that failed on these bytes of its line. -/
def Posted.failedAt (p : Posted) (m : BitVec 64) : Posted :=
  { p with failed := true, mask := p.mask &&& m, also := p.also.map fun x => (x.1, x.2 &&& m) }

/-- Perform the chosen requests of a list, in their order; the second part keeps the others, and those that
failed, which wait to be answered with an error. -/
def State.settleList (s : State) (sel : Posted → Bool) : List Posted → State × List Posted
  | [] => (s, [])
  | p :: r =>
    if sel p then
      match s.performPosted p with
      | (t, none) => t.settleList sel r
      | (t, some (_, m)) =>
        let rest := t.settleList sel r
        (rest.1, p.failedAt m :: rest.2)
    else
      let rest := s.settleList sel r
      (rest.1, p :: rest.2)

/-- Perform the posted requests that satisfy a test. -/
def State.settle (s : State) (sel : Posted → Bool) : State :=
  let r := s.settleList sel s.hart.posted
  r.1.onHart fun h => { h with posted := r.2 }

/-- Perform what the hart has posted to the lines of n bytes at pa: its later accesses to those bytes come
after it (R90, R157). -/
def State.settleAt (s : State) (pa n : Nat) : State :=
  s.settle fun p => decide (pa / 64 ≤ p.pa / 64) && decide (p.pa / 64 ≤ (pa + n - 1) / 64)

/-- The entries of the store-error queue for a request that failed: one for each virtual line that it names (R89, R225). -/
def Posted.report (p : Posted) : List StoreError :=
  ((p.va, p.mask) :: p.also).filterMap fun x => if x.2 = 0#64 then none else some { va := x.1, lsz := p.lsz, mask := x.2 }

/-- Error responses reach the hart in the order of its requests, while its store-error queue of 256 entries has room (R89). -/
def collectFrom : List StoreError → List Posted → List StoreError × List Posted
  | q, [] => (q, [])
  | q, p :: r =>
    if p.failed && decide (q.length + p.report.length ≤ 256) then collectFrom (q ++ p.report) r
    else
      let rest := collectFrom q r
      (rest.1, p :: rest.2)

/-- The error responses of the requests that failed reach the hart (R89). -/
def State.collectErrors (s : State) : State :=
  s.onHart fun h =>
    let r := collectFrom h.seq h.posted
    { h with posted := r.2, seq := r.1 }

/-- Everything the hart has posted is performed and answered. -/
def State.settleAll (s : State) : State := (s.settle fun _ => true).collectErrors

/-- The hart can issue no further request: 256 await their responses, which the full store-error queue cannot take (R89). -/
def State.postFull (s : State) : Bool := decide (256 ≤ s.hart.posted.length) && decide (256 ≤ s.settleAll.hart.posted.length)

/-- Post a request: 256 may await their responses, and a further one waits for them (R89; log 77). -/
def State.post (s : State) (p : Posted) : State :=
  let s := if 256 ≤ s.hart.posted.length then s.settleAll else s
  (s.dropOwnLines p.frm (p.pa / 64 * 64) 64).onHart fun h => { h with posted := h.posted ++ [p] }

/-- The set that would take a store-error trap is busy, so the trap is held (R88). -/
def State.storeErrorHeld (s : State) : Bool := if s.toP 14 then s.pset.busy else s.hart.sset.busy

/-- The first failing element of an entry, and the entry without it: its bytes in ascending order (R89). -/
def StoreError.split (e : StoreError) : Word × StoreError :=
  let sz := 2 ^ e.lsz.toNat
  let i := ((List.range 64).find? fun i => e.mask.getLsbD i).getD 0 / sz * sz
  (setField e.va 0 (BitVec.ofNat 6 i), { e with mask := e.mask &&& ~~~(BitVec.ofNat 64 (2 ^ (i + sz) - 1)) })

/-- The trap that the store-error queue owes, and the state without it; none when none is owed, or while it is
held (R88, R89). -/
def State.owedTrap (s : State) : Option (Trap × State) :=
  match s.hart.seq with
  | [] => none
  | e :: r =>
    if s.storeErrorHeld then none
    else
      let (va, e') := e.split
      some ({ code := 14, eval := va, deferred := true },
        s.onHart fun h => { h with seq := if e'.mask = 0#64 then r else e' :: r })

/-- What the hart has posted is performed at a scope (R238). At CLU nothing is ordered toward a home or an engine: which requests
have been performed is open (log 78). Every wider scope is alike to the one hart of this model (log 1). -/
def State.settleScope (s : State) (sc : BitVec 3) : State :=
  if sc ≠ 0#3 then s.settleAll
  else
    ((({ s with fresh := s.fresh + 1 } : State).settle fun p => Config.elementRank s.fresh (p.pa / 64) % 2 == 0)).collectErrors

/-- A release, a fence or a drain at a scope: what it covers is performed, and a trap that it owes is taken before the
instruction completes (R88, R102, R108, R240). -/
def State.release (s : State) (sc : BitVec 3) : Res :=
  let s := s.settleScope sc
  match s.owedTrap with
  | some (t, s') => .error (t, s')
  | none => .ok s

/-! ## Events of posted requests -/

/-- POSTED_WRITE_PERFORMED (R89): request i of the hart is performed, after those before it to its line. -/
def execPostedWritePerformed (i : Nat) (s : State) :=
  happened (match s.hart.posted[i]? with
    | none => s
    | some p =>
      let r := s.settleList (fun q => q.pa / 64 == p.pa / 64) (s.hart.posted.take (i + 1))
      r.1.onHart fun h => { h with posted := r.2 ++ s.hart.posted.drop (i + 1) })

/-- STORE_ERROR_RESPONSE (R89): the error response of request i enters the queue. -/
def execStoreErrorResponse (i : Nat) (s : State) :=
  happened (match s.hart.posted[i]? with
    | none => s
    | some p =>
      if p.failed && decide (s.hart.seq.length + p.report.length ≤ 256) then
        s.onHart fun h => { h with posted := h.posted.eraseIdx i, seq := h.seq ++ p.report }
      else s)

/-- STORE_ERROR_TRAP (R88): taken at an instruction boundary, unless none is owed or it is held; what run-ahead goes through has no
boundary (R326). -/
def execStoreErrorTrap (s : State) :=
  happened (if s.hart.stopped || s.hart.wait.isSome || s.ra.isSome then s
    else match s.owedTrap with
      | some (t, s') => s'.takeTrap t
      | none => s)

/-- VECTOR_MEMORY_COMPLETION (R154, R155): the counter falls, and keeps the status of a failure; a SEAL completes
with the sealed bit (R165). -/
def State.completeVec (s : State) (o : VecOp) : State :=
  let s : State := match o.seals with
    | some fr => s.onInk (fr * 65536) fun p => if p.st = .sealing then { p with st := .sealed } else p
    | none => s
  (s.onHart fun h => { h with vops := h.vops.filter fun x => x.id != o.id }).countDown o.k o.status

/-- VECTOR_MEMORY_COMPLETION (R154). -/
def execVectorMemoryCompletion (i : Nat) (s : State) :=
  happened (match s.hart.vops.find? fun o => o.id == i with | some o => s.completeVec o | none => s)

/-- Complete the operations in flight that satisfy a test (R109, R139, R156). -/
def State.completeVecs (s : State) (sel : VecOp → Bool) : State :=
  (s.hart.vops.filter sel).foldl State.completeVec s

/-! ## Well line events (R255 to R258) -/

/-- The first request that waits for a well line. -/
def State.queuedFor (s : State) (line : Nat) : Option Nat :=
  ((List.range s.hart.posted.length).find? fun i => (s.hart.posted[i]?.map fun p => p.pa / 64 == line && !p.failed).getD false)

/-- WELL_LINE_STEP (R258): the oldest queued step of a resident line is applied; an absent line begins to
fill. -/
def execWellLineStep (line : Word) (s : State) :=
  let n := line.toNat / 64
  match s.queuedFor n with
  | none => happened s
  | some i =>
    match (s.wellLine n).res with
    | .resident => execPostedWritePerformed i s
    | .absent => happened (s.onWell n fun w => { w with res := .filling })
    | _ => happened s

/-- WELL_LINE_FILL (R257): data and header arrive, and the queue is applied in its order. -/
def execWellLineFill (line : Word) (bad : Bool) (s : State) :=
  let n := line.toNat / 64
  happened (if (s.wellLine n).res = .filling then
    let s := s.onWell n fun w => { w with res := .resident, pois := w.pois || bad }
    (if bad then s.logError (homeHall (n * 64)) (s.errorEntry 0 (n * 64) true 0#64) else s).settleAt (n * 64) 64
  else s)

/-- WELL_LINE_EVICT (R257): only a line with an empty queue. -/
def execWellLineEvict (line : Word) (s : State) :=
  let n := line.toNat / 64
  happened (if (s.wellLine n).res = .resident && (s.queuedFor n).isNone then
    s.onWell n fun w => { w with res := .writing } else s)

/-- WELL_LINE_WRITEBACK (R257): written, or poisoned when a write fails; the queue starts a new fill. -/
def execWellLineWriteback (line : Word) (ok : Bool) (s : State) :=
  let n := line.toNat / 64
  happened (if (s.wellLine n).res = .writing then
    let s : State := { s with dirty := s.dirty.filter (· != n) }
    s.onWell n fun w =>
      { w with pois := w.pois || !ok, res := if (s.queuedFor n).isSome then .filling else .absent }
  else s)

/-- WELL_PAGE_MAP (R255): elements cleared, headers at anchor 0 with WLF from the class. -/
def execWellPageMap (page : Word) (wlf : Bool) (s : State) :=
  let base := page.toNat / 65536 * 65536
  let inPage (a : Nat) : Bool := decide (base ≤ a) && decide (a < base + 65536)
  happened (if !s.inWells base then s
    else
      { s with
        mem := s.mem.filter fun c => !inPage c.1
        poison := s.poison.filter fun g => !inPage (8 * g)
        wells := (s.wells.filter fun p => !inPage (p.1 * 64)) ++
          (if wlf then (upTo (base / 64) (base / 64 + 1024)).map fun l => (l, { WellLine.fresh with wlf := true }) else []) })

/-! ## Ink pages (R163 to R166, R259 to R262) -/

/-- What the tail unit answers to an append. -/
inductive Append where
  | took (start : Nat)
  | full
  | failed (why : Late)
deriving DecidableEq, Repr

/-- One append at the home tail unit (R163, R260). -/
def State.append (s : State) (who : Option (BitVec 10)) (frm : BitVec 4) (pa esize : Nat) (data : List Byte) : State × Append :=
  let base := pa / 65536 * 65536
  let p := s.inkPage pa
  let c := s.refusal who frm pa 1 true
  match c with
  | some c => (s.logRefusal who frm pa c, .failed .error)
  | none =>
    if p.epois || p.st != .openPage then
      (s.logSealed who frm pa, .failed .error)
    else if data = [] then (s, .took p.tail)
    else
      let start := roundUp p.tail esize
      if 65536 < start + data.length then (s, .full)
      else if s.poisoned ((base + p.tail) / 64 * 64) (roundUp (base + start + data.length) 64 - (base + p.tail) / 64 * 64) then
        (s, .failed .poison)
      else
        let s := s.performBytes (base + p.tail) (List.replicate (start - p.tail) 0#8 ++ data)
        let s := s.onInk pa fun p => { p with tail := start + data.length }
        (s.count frm pa data.length true, .took start)

/-- TAIL_UNIT_APPEND (R163): one append of another party of the owner's tenant. -/
def execTailUnitAppend (page : Word) (esize : Nat) (data : List Byte) (s : State) :=
  let pa := page.toNat
  happened (if s.inInk pa && (esize == 1 || esize == 2 || esize == 4 || esize == 8) && data.length % esize = 0 then
    (s.append (some (s.inkPage pa).vf) (homeHall pa) pa esize data).1 else s)

/-- The tail unit receives a seal (R165, R260): an error response on a page with a failed entry, or one that is
not in use. -/
def State.seal (s : State) (who : Option (BitVec 10)) (frm : BitVec 4) (pa : Nat) : Except State State :=
  match s.refusal who frm pa 1 true with
  | some c => .error (s.logRefusal who frm pa c)
  | none =>
    let p := s.inkPage pa
    if p.epois then .error s
    else match p.st with
      | .openPage => .ok (s.onInk pa fun p => { p with st := .sealing })
      | .sealing => .ok s
      | .sealed => .ok s
      | .free => .error s
      | .freeing => .error s

/-- SEAL_REQUEST (R165). -/
def execSealRequest (page : Word) (s : State) :=
  happened (match s.seal (some (s.inkPage page.toNat).vf) (homeHall page.toNat) page.toNat with | .ok t => t | .error t => t)

/-- The sealed bit is set once no accepted append is left (R260). -/
def State.sealDone (s : State) (pa : Nat) : State :=
  s.onInk pa fun p => if p.st = .sealing && p.pend = 0 then { p with st := .sealed } else p

/-- SEALING_COMPLETE (R260). -/
def execSealingComplete (page : Word) (s : State) :=
  happened (if (s.inkPage page.toNat).st = .sealing then s.sealDone page.toNat else s)

/-- INK_FRAME_MAP (R260). -/
def execInkFrameMap (frame : Word) (vf : BitVec 10) (s : State) :=
  let pa := frame.toNat
  happened (if s.inInk pa && (s.inkPage pa).st = .free then
    s.onInk pa fun p => { p with st := .openPage, vf := vf, tail := 0, pend := 0, rmap := 0#16, reads := 0 } else s)

/-- INK_PAGE_FREE (R262): steps 1 to 3: no access begins with a translation of the page, the page is marked,
and its replicas are reclaimed. Its table entries are the runtime's own stores (log 17). -/
def execInkPageFree (page : Word) (s : State) :=
  let pa := page.toNat
  let fr := inkFrame pa
  happened (if (s.inkPage pa).st = .free then s
    else
      let s : State := { s with
        tlb := s.tlb.filter fun e =>
          !(decide (e.pte.toNat / 65536 ≤ fr) && decide (fr < e.pte.toNat / 65536 + pageSize e.pte / 65536))
        pool := s.pool.filter fun r => !(r.1.1 == fr && s.replicas.contains (fr, r.1.2, .copying))
        replicas := s.replicas.filterMap fun r =>
          if r.1 = fr then (if r.2.2 = .copying then none else some (r.1, r.2.1, .reclaiming)) else some r }
      s.onInk pa fun p => { p with st := .freeing })

/-- INK_FREE_DRAIN_DONE (R262): step 5, once no read and no replica is left. -/
def execInkFreeDrainDone (page : Word) (s : State) :=
  let pa := page.toNat
  let p := s.inkPage pa
  happened (if p.st = .freeing && p.reads = 0 && p.rmap = 0#16 then { s with ink := alErase (inkFrame pa) s.ink } else s)

/-- Replicas that the pool of a hall holds. -/
def State.poolUsed (s : State) (h : BitVec 4) : List Nat := (s.pool.filter fun r => r.1.2 == h.toNat).map (·.2)

/-- The lowest free 64 KiB of the pool of a hall; which one a replica takes is open (R261, log 17). -/
def State.poolSlot (s : State) (h : BitVec 4) : Option Nat :=
  let used := s.poolUsed h
  (List.range (Nat.min (used.length + 1) (fieldNat (s.hall h).inkcfg 48 8 * 16384))).find? fun n => !used.contains n

/-- Where a replica lies: its 64 KiB of the pool of a hall (R254, R261). -/
def State.replicaPa (s : State) (fr : Nat) (h : BitVec 4) : Option Nat :=
  (s.pool.find? fun r => r.1 == (fr, h.toNat)).map fun r => hbmPa s.chip h (fieldNat (s.hall h).inkcfg 16 6 * 2 ^ 30 + r.2 * 65536)

/-- A replica becomes absent and its space is released. -/
def State.dropReplica (s : State) (fr : Nat) (h : BitVec 4) : State :=
  { s with
    replicas := s.replicas.filter fun r => !(r.1 == fr && r.2.1 == h.toNat)
    pool := s.pool.filter fun r => r.1 != (fr, h.toNat) }

/-- REPLICA_CREATE (R261): pool space held, for a sealed page, in a hall of the page's tenant. -/
def execReplicaCreate (page : Word) (hall : BitVec 4) (s : State) :=
  let pa := page.toNat
  let fr := inkFrame pa
  happened (if (s.inkPage pa).st = .sealed && s.owns (s.tenantOf (s.inkPage pa).vf) hall
      && !(s.replicas.any fun r => r.1 == fr && r.2.1 == hall.toNat) then
    (match s.poolSlot hall with
      | some n => { s with replicas := (fr, hall.toNat, .copying) :: s.replicas, pool := ((fr, hall.toNat), n) :: s.pool }
      | none => s)
  else s)

/-- A copied line of a page meets poison, or its home answers with an error response: the page's entry has failed, a byte of it is
poisoned, or a gate refuses the read (R15, R260, R261). -/
def State.copyFails (s : State) (fr : Nat) (h : BitVec 4) : Bool :=
  (s.inkPage (fr * 65536)).epois || s.poisoned (fr * 65536) 65536 || (s.refusal none h (fr * 65536) 65536 false).isSome

/-- REPLICA_COPY_DONE (R261): published, or absent when a copied line met poison or an error. -/
def execReplicaCopyDone (page : Word) (hall : BitVec 4) (s : State) :=
  let pa := page.toNat
  let fr := inkFrame pa
  let mine (r : Nat × Nat × ReplicaState) : Bool := r.1 == fr && r.2.1 == hall.toNat
  happened (if s.replicas.any fun r => mine r && r.2.2 == .copying then
    (if s.copyFails fr hall then s.dropReplica fr hall
    else
      let s := match s.replicaPa fr hall with | some a => s.putBytes a (s.bytes (fr * 65536) 65536) | none => s
      ({ s with replicas := s.replicas.map fun r => if mine r then (r.1, r.2.1, .published) else r } : State).onInk pa
        fun p => { p with rmap := setBit p.rmap hall.toNat true })
  else s)

/-- A published replica is to be reclaimed: new reads go to the home (R261). -/
def State.reclaimReplica (s : State) (fr : Nat) (h : BitVec 4) : State :=
  { s with replicas := s.replicas.map fun r =>
    if r.1 = fr && r.2.1 = h.toNat && r.2.2 = .published then (r.1, r.2.1, .reclaiming) else r }

/-- REPLICA_RECLAIM (R261). -/
def execReplicaReclaim (page : Word) (hall : BitVec 4) (s : State) := happened (s.reclaimReplica (inkFrame page.toNat) hall)

/-- REPLICA_RECLAIM_DONE (R261): reads in flight have finished, and the space is released. -/
def execReplicaReclaimDone (page : Word) (hall : BitVec 4) (s : State) :=
  let fr := inkFrame page.toNat
  happened (if s.replicas.any fun r => r.1 == fr && r.2.1 == hall.toNat && r.2.2 == .reclaiming then
    (s.dropReplica fr hall).onInk page.toNat fun p => { p with rmap := setBit p.rmap hall.toNat false }
  else s)

end Sys2Proof.Machine
end

