-- ==== Sys2Proof/Machine/Flags.lean ====
section
/-! DEFINITION. Flags.lean: the flags of VSTAT and FSTAT and the rounding that an instruction resolves
(R26, R29 to R31, R48). -/

namespace Sys2Proof.Machine

/-- OR flags into VSTAT (R30, Table 3.5). -/
def State.orVstat (s : State) (f : Flags) : State :=
  { s with hart := { s.hart with vstat := s.hart.vstat ||| f.setWidth 64 } }

/-- EMPTY of VSTAT. -/
def vstatEmpty : Word := 0x20#64
/-- SCOPEDEMOTED of VSTAT. -/
def vstatDemoted : Word := 0x40#64
/-- SPANLOSS of VSTAT. -/
def vstatSpanLoss : Word := 0x80#64

/-- Set a bit of VSTAT other than the IEEE flags. -/
def State.noteVstat (s : State) (x : Word) : State := { s with hart := { s.hart with vstat := s.hart.vstat ||| x } }

/-- The flags as bits 4:0 of FSTAT, NV at bit 4 (Table 3.6). -/
def fstatFlags (f : Flags) : Word :=
  place (bit (f.getLsbD 0)) 4 1 ||| place (bit (f.getLsbD 1)) 3 1 ||| place (bit (f.getLsbD 2)) 2 1
    ||| place (bit (f.getLsbD 3)) 1 1 ||| place (bit (f.getLsbD 4)) 0 1

/-- OR flags into FSTAT. -/
def State.orFstat (s : State) (f : Flags) : State :=
  { s with hart := { s.hart with fstat := s.hart.fstat ||| fstatFlags f } }

/-- The rounding code of an instruction: its own, or that of the mode field (R26). -/
def rndOf (own mode : BitVec 3) : Rnd := Rnd.ofCode (if own = 0#3 then mode else own)

/-- How a scalar instruction rounds: FSTAT.RND, FSTAT.FTZ, and SrWord(SRBASE) (R25, R26, R31). -/
def State.scalarEnv (s : State) (r : BitVec 3) : RndEnv where
  rnd := rndOf r (s.hart.fstat.extractLsb' 5 3)
  draw := srWord s.hart.srseed s.hart.srbase
  sat := false
  ftz := s.hart.fstat.getLsbD 8

/-- Saturation of a vector instruction (R29). -/
def State.saturates (s : State) (p : Option Pfx) : Bool :=
  match p with
  | some q => if q.pv then q.sat else s.hart.vmode.getLsbD 8
  | none => s.hart.vmode.getLsbD 8

/-- How a vector instruction rounds at element index e (R25, R26, R29, R31). -/
def State.vecEnv (s : State) (p : Option Pfx) (e : Nat) : RndEnv where
  rnd := rndOf ((p.map Pfx.rnd).getD 0#3) (s.hart.vmode.extractLsb' 4 3)
  draw := srWord s.hart.srseed (BitVec.ofNat 64 e + s.hart.srbase)
  sat := s.saturates p
  ftz := s.hart.vmode.getLsbD 7

end Sys2Proof.Machine
end

