-- ==== Sys2Proof/Machine/Operands.lean ====
section
/-! DEFINITION. Operands.lean: vector operands (R20, R44, R49 to R53, R71 to R73, R119 to R121, R138): how an
instruction resolves its type, mask and policy, where an element lies, and the checks before any effect.
In run-ahead each element also carries whether it is unknown (R327). -/

namespace Sys2Proof.Machine

/-! ## Resolution -/

/-- The element type of an instruction whose opcode fixes none (R20). -/
def State.vtype (s : State) (p : Option Pfx) : BitVec 4 :=
  match p with
  | some q => if q.type = 0#4 then s.hart.vmode.extractLsb' 0 4 else q.type
  | none => s.hart.vmode.extractLsb' 0 4

/-- The mask that governs an instruction: 0 for all active, or m1 to m7 (R49). -/
def State.maskSel (s : State) (p : Option Pfx) (msk : BitVec 3) : BitVec 3 :=
  let x := match p with | some q => if q.mv then q.mask else msk | none => msk
  if x = 0#3 then s.hart.vmode.extractLsb' 10 3 else x

/-- The zero policy is in effect (R49). -/
def State.zeroing (s : State) (p : Option Pfx) : Bool :=
  match p with
  | some q => if q.pv then q.z else s.hart.vmode.getLsbD 9
  | none => s.hart.vmode.getLsbD 9

/-- Codes 1 to 14 (R128). -/
def anyType (t : BitVec 4) : Bool := isInt t || isFloat t
/-- I8, N8, I16, N16, I32 and N32 (R129). -/
def narrowInt (t : BitVec 4) : Bool := 1#4 ≤ t && t ≤ 6#4
/-- FP16, BF16, FP32 and FP64 (R130). -/
def arithFloat (t : BitVec 4) : Bool := 10#4 ≤ t && t ≤ 13#4
/-- FP16, BF16 and FP32 (R132). -/
def specialFloat (t : BitVec 4) : Bool := 10#4 ≤ t && t ≤ 12#4

/-! ## Registers and elements (R44, R52, R138) -/

/-- A vector operand: a group of n registers from r, of elements of w bits. -/
structure VOpd where
  r : BitVec 5
  n : Nat
  w : Nat
deriving DecidableEq, Repr

/-- Span positions of the claim: 1 without a span. -/
def State.positions (s : State) : Nat := match s.hart.claim with | some c => 2 ^ c.span.toNat | none => 1

/-- Elements of an operand at one span position. -/
def State.perPos (s : State) (o : VOpd) : Nat := o.n * s.hart.vlmaxb * 8 / o.w

/-- Elements that the footprint of an operand holds (R121). -/
def State.capacity (s : State) (o : VOpd) : Nat := s.positions * s.perPos o

/-- The register that holds element e. -/
def State.elemReg (s : State) (o : VOpd) (e : Nat) : Nat := o.r.toNat + e % s.perPos o * o.w / (s.hart.vlmaxb * 8)

/-- The bit of that register at which element e begins. -/
def State.elemBit (s : State) (o : VOpd) (e : Nat) : Nat :=
  e / s.perPos o * (s.hart.vlmaxb * 8) + e % s.perPos o * o.w % (s.hart.vlmaxb * 8)

/-- Element e of an operand. -/
def State.elem (s : State) (o : VOpd) (e : Nat) : Nat :=
  fieldNat ((s.hart.v[s.elemReg o e]?).getD 0#524288) (s.elemBit o e) o.w

/-- The element group, within its span position, that holds the last bit of element e: its number plus one
is the least mark that covers it (R53). -/
def State.elemMark (s : State) (o : VOpd) (e : Nat) : Nat :=
  (e % s.perPos o * o.w % (s.hart.vlmaxb * 8) + o.w - 1) / 64 + 1

/-- Note in run-ahead that element e of an operand is known or unknown. -/
def State.noteElem (s : State) (o : VOpd) (e : Nat) (unk : Bool) : State :=
  { s with ra := s.ra.map fun r =>
      let i := s.elemReg o e
      let t := (r.unknown.v[i]?).getD 0#524288
      let t := setField t (s.elemBit o e) (if unk then BitVec.allOnes o.w else 0#o.w)
      { r with unknown := { r.unknown with v := r.unknown.v.setIfInBounds i t } } }

/-- Write element e, raising the high-water mark of its register (R53). -/
def State.setElem (s : State) (o : VOpd) (e x : Nat) : State :=
  let i := s.elemReg o e
  let v := setField ((s.hart.v[i]?).getD 0#524288) (s.elemBit o e) (BitVec.ofNat o.w x)
  let mark := Nat.max ((s.hart.hwm[i]?).getD 0) (s.elemMark o e)
  { s.noteElem o e false with
    hart := { s.hart with v := s.hart.v.setIfInBounds i v, hwm := s.hart.hwm.setIfInBounds i mark } }

/-- Element e is unknown (R327). -/
def State.elemUnknown (s : State) (o : VOpd) (e : Nat) : Bool :=
  match s.ra with
  | none => false
  | some r => fieldNat ((r.unknown.v[s.elemReg o e]?).getD 0#524288) (s.elemBit o e) o.w != 0

/-! ## Masks (R44, R49, R138) -/

/-- The bit of a mask register that governs element e, with `per` elements at each span position. -/
def maskIndex (per e : Nat) : Nat := e / per * 16384 + e % per

/-- Bit e of a mask register. -/
def State.maskBit (s : State) (r : BitVec 3) (per e : Nat) : Bool := (pick (w := 3) s.hart.m r).getLsbD (maskIndex per e)

/-- Note in run-ahead that bit e of a mask register is known or unknown. -/
def State.noteMask (s : State) (r : BitVec 3) (per e : Nat) (unk : Bool) : State :=
  { s with ra := s.ra.map fun a =>
      { a with unknown := { a.unknown with
          m := put (w := 3) a.unknown.m r (setBit (pick (w := 3) a.unknown.m r) (maskIndex per e) unk) } } }

/-- Write bit e of a mask register. -/
def State.setMaskBit (s : State) (r : BitVec 3) (per e : Nat) (b : Bool) : State :=
  { s.noteMask r per e false with
    hart := { s.hart with m := put (w := 3) s.hart.m r (setBit (pick (w := 3) s.hart.m r) (maskIndex per e) b) } }

/-- Bit e of a mask register is unknown. -/
def State.maskUnknown (s : State) (r : BitVec 3) (per e : Nat) : Bool :=
  match s.ra with
  | none => false
  | some a => (pick (w := 3) a.unknown.m r).getLsbD (maskIndex per e)

/-- Element e is active under a governing mask (R49); e < VL is the caller's bound. -/
def State.active (s : State) (sel : BitVec 3) (per e : Nat) : Bool := sel == 0#3 || s.maskBit sel per e

/-- Whether element e is active is unknown. -/
def State.activeUnknown (s : State) (sel : BitVec 3) (per e : Nat) : Bool := sel != 0#3 && s.maskUnknown sel per e

/-! ## Unknown scalar registers -/

/-- g[i] is unknown. -/
def State.gUnknown (s : State) (i : BitVec 5) : Bool :=
  match s.ra with
  | none => false
  | some r => i != 0#5 && r.unknown.g.getLsbD i.toNat

/-- Note in run-ahead that g[i] is known or unknown. -/
def State.noteG (s : State) (i : BitVec 5) (unk : Bool) : State :=
  { s with ra := s.ra.map fun r => { r with unknown := { r.unknown with g := setBit r.unknown.g i.toNat unk } } }

/-! ## Checks before any effect (R71 to R73, R121) -/

/-- The base of a group is a multiple of its size and the group ends by v31. -/
def VOpd.legal (o : VOpd) : Bool := o.r.toNat % o.n == 0 && o.r.toNat + o.n ≤ 32

/-- Two footprints share a register. -/
def VOpd.overlaps (a b : VOpd) : Bool := decide (a.r.toNat < b.r.toNat + b.n) && decide (b.r.toNat < a.r.toNat + a.n)

/-- The same footprint at the same width. -/
def VOpd.same (a b : VOpd) : Bool := a == b

/-- The operands are legal: groups, overlap of the destinations with the sources (none at all for an
instruction that reads across elements, R73), and a VL that every footprint holds. -/
def State.operandsOk (s : State) (dsts srcs : List VOpd) (cross : Bool) : Bool :=
  (dsts ++ srcs).all (fun o => o.legal && decide (s.hart.vl ≤ s.capacity o))
    && dsts.all fun d => srcs.all fun o => !d.overlaps o || (!cross && d.same o)

/-- The checks of R121: illegal first, then the claim (R70). -/
def State.vecCheck (s : State) (ok : Bool) (dsts srcs : List VOpd) (cross : Bool) : Res :=
  if !(ok && s.operandsOk dsts srcs cross) then .error (s.illegal, s)
  else if s.hart.claim.isNone then .error (claimTrap, s)
  else .ok s

/-! ## Element-wise instructions (R120) -/

/-- Where an element-wise instruction writes: a vector operand or the bits of a mask register. -/
inductive VDst where
  | vec (o : VOpd)
  | mask (r : BitVec 3) (per : Nat)
deriving DecidableEq, Repr

/-- Write a destination element. -/
def State.putDst (s : State) (d : VDst) (e x : Nat) : State :=
  match d with
  | .vec o => s.setElem o e x
  | .mask r per => s.setMaskBit r per e (x != 0)

/-- A destination element becomes unknown. -/
def State.loseDst (s : State) (d : VDst) (e : Nat) : State :=
  match d with
  | .vec o => s.noteElem o e true
  | .mask r per => s.noteMask r per e true

/-- VSTART (R51). -/
def State.setVstart (s : State) (n : Nat) : State := { s with hart := { s.hart with vstart := n } }

/-- The elements VSTART .. VL − 1. -/
def State.toVl (s : State) : List Nat := upTo s.hart.vstart s.hart.vl

/-- Where an instruction ends that would end at n: earlier, where it is left part-way (R123). -/
def State.endAt (s : State) (n : Nat) : Nat := match s.hart.cut with | some c => Nat.min c n | none => n

/-- The elements that the instruction processes: VSTART .. VL − 1, or those below where it is left. -/
def State.range (s : State) : List Nat := upTo s.hart.vstart (s.endAt s.hart.vl)

/-- One element of an element-wise instruction: sources are read in `s`, the result is added to `t`. -/
def State.elementStep (s : State) (sel : BitVec 3) (zero : Bool) (per : Nat) (d : VDst) (unk : Nat → Bool)
    (op : Nat → Nat × Flags) (t : State) (e : Nat) : State :=
  if s.activeUnknown sel per e then t.loseDst d e
  else if s.active sel per e then
    (if unk e then t.loseDst d e else (t.putDst d e (op e).1).orVstat (op e).2)
  else if zero then t.putDst d e 0
  else t

/-- The effect of R120. -/
def State.elementwise (s : State) (sel : BitVec 3) (zero : Bool) (per : Nat) (d : VDst) (unk : Nat → Bool)
    (op : Nat → Nat × Flags) : State :=
  (s.range.foldl (s.elementStep sel zero per d unk op) s).setVstart 0

/-- An element-wise instruction of one width: checks, effect, end (R119 to R121). -/
def elementOp (p : Option Pfx) (msk : BitVec 3) (ok : Bool) (d : VOpd) (srcs : List VOpd) (cross : Bool)
    (unk : Nat → Bool) (op : Nat → Nat × Flags) (s : State) : Host.Outcome State Fault Refusal :=
  finish p (do
    let s ← s.vecCheck ok [d] srcs cross
    .ok (s.elementwise (s.maskSel p msk) (s.zeroing p) (s.perPos d) (.vec d) unk op))

/-- Some source of element e is unknown. -/
def State.anyUnknown (s : State) (srcs : List VOpd) (e : Nat) : Bool := srcs.any fun o => s.elemUnknown o e

/-- A single register at a width. -/
def vreg (r : BitVec 5) (w : Nat) : VOpd := ⟨r, 1, w⟩

/-- An instruction with two vector sources, all of one type. -/
def binaryOp (o : VOp3) (ok : BitVec 4 → Bool) (op : BitVec 4 → Nat → Nat → Nat → Nat × Flags) (s : State) :
    Host.Outcome State Fault Refusal :=
  let t := s.vtype o.pfx
  let w := typeWidth t
  let a := vreg o.a w
  let b := vreg o.b w
  elementOp o.pfx o.msk (ok t) (vreg o.d w) [a, b] false (s.anyUnknown [a, b])
    (fun e => op t e (s.elem a e) (s.elem b e)) s

/-- An instruction with one vector source, all of one type. -/
def unaryOp (o : VOp2) (ok : BitVec 4 → Bool) (op : BitVec 4 → Nat → Nat → Nat × Flags) (s : State) :
    Host.Outcome State Fault Refusal :=
  let t := s.vtype o.pfx
  let w := typeWidth t
  let a := vreg o.a w
  elementOp o.pfx o.msk (ok t) (vreg o.d w) [a] false (s.anyUnknown [a]) (fun e => op t e (s.elem a e)) s

/-- A compare, which writes mask bits (R127). -/
def compareOp (o : VCmpOp) (ok : BitVec 4 → Bool) (op : BitVec 4 → Nat → Nat → Bool × Flags) (s : State) :
    Host.Outcome State Fault Refusal :=
  let t := s.vtype o.pfx
  let w := typeWidth t
  let a := vreg o.a w
  let b := vreg o.b w
  let per := s.perPos a
  finish o.pfx (do
    let s ← s.vecCheck (ok t) [] [a, b] false
    .ok (s.elementwise (s.maskSel o.pfx o.msk) (s.zeroing o.pfx) per (.mask o.d per) (s.anyUnknown [a, b])
      (fun e => let (r, f) := op t (s.elem a e) (s.elem b e); (bit r, f))))

end Sys2Proof.Machine
end

