-- ==== Sys2Proof/Machine/Fabric.lean ====
section
/-! DEFINITION. Fabric.lean: wavelengths, relays, external ports, flits, keys and time (R376 to R384), and the
host ports (R354 to R362). -/

namespace Sys2Proof.Machine

/-! ## Wavelengths and relays (R376, R377) -/

/-- Set or clear bit d of a die's row. -/
def setDie (v : Vector (BitVec 8) 8) (src dst : BitVec 3) (b : Bool) : Vector (BitVec 8) 8 :=
  put (w := 3) v src (setBit (pick (w := 3) v src) dst.toNat b)

/-- The wavelength from die s to die d is dark. -/
def Fabric.isDark (f : Fabric) (src dst : BitVec 3) : Bool := (pick (w := 3) f.dark src).getLsbD dst.toNat

/-- The relay die of a pair: the lowest one with both hops lit. -/
def Fabric.relayDie (f : Fabric) (src dst : BitVec 3) : Option (BitVec 3) :=
  ((List.range 8).map (BitVec.ofNat 3)).find? fun r => r != src && r != dst && !f.isDark src r && !f.isDark r dst

/-- The die that wavelength w of a die reaches. -/
def dieOf (die w : BitVec 3) : BitVec 3 := die + w

/-- A pair has a path: the direct one or a relay. -/
def Fabric.connected (f : Fabric) (src dst : BitVec 3) : Bool := src == dst || !(pick (w := 3) f.lost src).getLsbD dst.toNat

/-- The relay for a dark pair is in place, or the pair is lost and span positions across it with it (R376). -/
def State.relay (s : State) (src dst : BitVec 3) : State :=
  if s.fabric.isDark src dst && src != dst then
    match s.fabric.relayDie src dst with
    | some _ =>
      { s with fabric :=
        { s.fabric with relayed := setDie s.fabric.relayed src dst true, lost := setDie s.fabric.lost src dst false } }
    | none =>
      let s : State := { s with fabric :=
        { s.fabric with relayed := setDie s.fabric.relayed src dst false, lost := setDie s.fabric.lost src dst true } }
      let mine : BitVec 3 := BitVec.ofNat 3 (s.myHall.toNat / 2)
      if src = mine || dst = mine then
        s.loseSpanIn fun p => p.hall.toNat / 2 == (if src = mine then dst else src).toNat
      else s
  else s

/-- The pair (a, b) runs through a relay of which the wavelength from die s to die d is a hop (R376). -/
def Fabric.hops (f : Fabric) (a b src dst : BitVec 3) : Bool :=
  (pick (w := 3) f.relayed a).getLsbD b.toNat && (f.relayDie a b).any fun r => (a == src && r == dst) || (r == src && b == dst)

/-- The pairs whose relay has the wavelength from die s to die d as a hop. -/
def Fabric.relayedOver (f : Fabric) (src dst : BitVec 3) : List (BitVec 3 × BitVec 3) :=
  ((List.range 64).map fun i => (BitVec.ofNat 3 (i / 8), BitVec.ofNat 3 i)).filter fun p => f.hops p.1 p.2 src dst

/-- The wavelength from die s to die d is dark: pairs that were relayed over it are without a relay until one is established
(R376). -/
def Fabric.darken (f : Fabric) (src dst : BitVec 3) : Fabric :=
  { f with
    dark := setDie f.dark src dst true
    relayed := (f.relayedOver src dst).foldl (fun v p => setDie v p.1 p.2 false) f.relayed }

/-- RELAY_ESTABLISHED (R274, R376). -/
def execRelayEstablished (src dst : BitVec 3) (s : State) := happened (s.relay src dst)

/-- WAVELENGTH_RELIT (R377). -/
def execWavelengthRelit (die w : BitVec 3) (s : State) :=
  let d := dieOf die w
  happened { s with fabric := { s.fabric with
    dark := setDie s.fabric.dark die d false
    relayed := setDie s.fabric.relayed die d false
    lost := setDie s.fabric.lost die d false } }

/-! ## External ports (R378 to R382) -/

/-- Saturating count of 32 bits. -/
def satAdd (x : BitVec 32) (n : Nat) : BitVec 32 := BitVec.ofNat 32 (Nat.min (2 ^ 32 - 1) (x.toNat + n))

/-- The active slot holds a key. -/
def ExtPort.keyed (p : ExtPort) : Bool := p.loaded.getLsbD (bit p.kact)

/-- EXT_PORT_TRAIN (R378): width, peer, latency, and the state that the checks leave. A port has 8 wavelengths, and a package 144 ports. -/
def execExtPortTrain (hall : BitVec 4) (port : BitVec 4) (width : BitVec 4) (chip : BitVec 12) (peer : PeerPort)
    (tenant : BitVec 16) (s : State) :=
  let mine := (s.hall hall).tenant
  let t := s.onPort hall port.toNat fun p =>
    { p with
      width := width, peerChip := chip, peerPort := peer.port, lat := peer.lat, down := false, naks := 0
      state := if width = 0#4 then 0#4 else if tenant ≠ mine then 4#4 else if !(p.keyed && peer.keyed) then 3#4 else 2#4 }
  happened (if 8 < width.toNat || 144 ≤ peer.port.toNat then s
    else if port.toNat < 9 && width < (t.port hall port.toNat).guar then t.shortfall hall port.toNat else t)

/-- EXT_FLIT_RECEIVE (R382): only the next SEQ with a tag that verifies under the receiver's slot is accepted;
an accepted marker (TYPE 1) switches the slot. -/
def execExtFlitReceive (hall : BitVec 4) (port : BitVec 4) (seq : BitVec 48) (slot : Bool) (type : BitVec 8) (tagOk : Bool)
    (s : State) :=
  happened (s.onPort hall port.toNat fun p =>
    let p := if tagOk then p else { p with tagfail := satAdd p.tagfail 1 }
    if tagOk && seq.toNat = p.expect && slot == p.rslot then
      { p with expect := p.expect + 1, rslot := if type = 1#8 then !p.rslot else p.rslot }
    else p)

/-- NAK_RECEIVED (R382): the flits from SEQ on are sent again; everything before it is acknowledged, and with a marker among that its
switch-over has ended (R381). `naks` counts how often in a row the first of them was refused. -/
def execNakReceived (hall : BitVec 4) (port : BitVec 4) (seq : BitVec 48) (s : State) :=
  happened (s.onPort hall port.toNat fun p =>
    let again := p.replay.filter fun f => seq.toNat ≤ f.1
    { p with
      retry := satAdd p.retry again.length
      naks := if (p.replay.head?.map (·.1)) = some seq.toNat then p.naks + 1 else 1
      kpend := p.kpend && !((p.replay.filter fun f => f.1 < seq.toNat).any (·.2))
      replay := again })

/-- ACK_RECEIVED (R382): cumulative; an acknowledged marker ends the switch-over (R381). -/
def execAckReceived (hall : BitVec 4) (port : BitVec 4) (seq : BitVec 48) (s : State) :=
  happened (s.onPort hall port.toNat fun p =>
    let acked := p.replay.filter fun f => f.1 ≤ seq.toNat
    { p with
      replay := p.replay.filter fun f => seq.toNat < f.1
      naks := if acked = [] then p.naks else 0
      kpend := p.kpend && !(acked.any (·.2)) })

/-- PORT_RETRAIN (R382): one flit was refused 8 times in a row; SEQ, slots and the replay buffer are kept. -/
def execPortRetrain (hall : BitVec 4) (port : BitVec 4) (s : State) :=
  happened (s.onPort hall port.toNat fun p =>
    if p.naks < 8 then p else { p with state := 1#4, naks := 0, retrains := if p.retrains = 255#8 then p.retrains else p.retrains + 1 })

/-- The circuit is down: its unacknowledged flits are lost (R382). -/
def ExtPort.goDown (p : ExtPort) : ExtPort := { p with down := true, replay := [], kpend := false }

/-- A command may have had a transfer on a circuit of a hall: a flight that the hall issued, or a collective with a rank in the hall
and one on another package. The ranks of one collective end together (R274). -/
def State.onCircuit (s : State) (h : BitVec 4) (c : Cmd) : Bool :=
  (c.op == 2#3 && c.hall == h && c.away.isNone)
    || (c.op == 1#3 && ((s.runPeers c.run).any fun d => d.away.isSome) && (s.runPeers c.run).any fun d => d.away.isNone && d.hall == h)

/-- A circuit of a hall has gone down (R274, R382): posted accesses of the hart to other chips end with an error response
where a lost flit carried them, and so do collectives and flights with a transfer on the circuit, with PATH_LOST. Which
were on it is open (log 9). -/
def State.loseCircuit (s : State) (h : BitVec 4) : State :=
  let cmd (c : Cmd) : Cmd := if s.onCircuit h c && Config.freeBit (s.fresh + (if c.op = 1#3 then c.run else c.id)) then c.lose else c
  let post (p : Nat × Posted) : Posted :=
    if s.myHall == h && paChip p.2.pa != s.chip && paTarget p.2.pa != 6 && Config.freeBit (s.fresh + s.nextId + p.1) then
      { p.2 with failed := true }
    else p.2
  let l := ((List.range s.hart.posted.length).zip s.hart.posted).map post
  ({ s with cmds := s.cmds.map cmd, fresh := s.fresh + s.nextId + l.length } : State).onHart fun y => { y with posted := l }

/-- RETRAIN_TIMEOUT (R382). -/
def execRetrainTimeout (hall : BitVec 4) (port : BitVec 4) (s : State) :=
  happened (if (s.port hall port.toNat).state = 1#4 then
    (s.onPort hall port.toNat fun p => { p.goDown with state := 0#4 }).loseCircuit hall else s)

/-- Writing SWITCH (R381): a marker under the active slot, then the other slot; ignored while BUSY. -/
def ExtPort.switch (p : ExtPort) : ExtPort :=
  if p.kpend then p
  else
    { p with
      replay := p.replay ++ [(p.sendSeq, true)]
      sendSeq := p.sendSeq + 1
      sendCount := p.sendCount.setIfInBounds (bit p.kact) ((p.sendCount[bit p.kact]?).getD 0 + 1)
      kact := !p.kact, kpend := true }

/-- EPKCTL_SWITCH (R381). -/
def execEpkctlSwitch (hall : BitVec 4) (port : BitVec 4) (s : State) := happened (s.onPort hall port.toNat ExtPort.switch)

/-- Flits sent under the active slot. -/
def ExtPort.sent (p : ExtPort) : Nat := (p.sendCount[bit p.kact]?).getD 0

/-- KEY_LOW (R381): the active slot has passed 2^46 flits. -/
def execKeyLow (hall : BitVec 4) (port : BitVec 4) (s : State) :=
  happened (s.onPort hall port.toNat fun p => if 2 ^ 46 ≤ p.sent then { p with keylow := true } else p)

/-- KEY_EXHAUSTED (R381): at 2^47 flits the port stops sending data. -/
def execKeyExhausted (hall : BitVec 4) (port : BitVec 4) (s : State) :=
  happened (s.onPort hall port.toNat fun p => if 2 ^ 47 ≤ p.sent then { p with state := 5#4 } else p)

/-- KEY_EXHAUSTED_TIMEOUT (R381): the circuit counts as down; STATE stays 5. -/
def execKeyExhaustedTimeout (hall : BitVec 4) (port : BitVec 4) (s : State) :=
  happened (if (s.port hall port.toNat).state = 5#4 then (s.onPort hall port.toNat ExtPort.goDown).loseCircuit hall else s)

/-- The ports of a hall that lead toward a chip and are up (R379). -/
def State.routePorts (s : State) (h : BitVec 4) (chip : BitVec 12) : List Nat :=
  let e := (alFind chip.toNat (s.hall h).route).getD 0#16
  if e.getLsbD 15 then (List.range 9).filter fun i => e.getLsbD i && (s.port h i).up else []

/-- FABRIC_PACKET_FORWARD (R379): a flit of the chosen port, unless 8192 wait for their acknowledgement; with
no port up, no valid entry, or after 16 hops, the packet ends with an error response and nothing is sent. -/
def execFabricPacketForward (hall : BitVec 4) (chip : BitVec 12) (hops line : Nat) (s : State) :=
  let ports := s.routePorts hall chip
  happened (if 16 ≤ hops || chip == s.chip then s
    else match ports[Config.portHash line % ports.length]? with
      | none => s
      | some i => s.onPort hall i fun p =>
        if 8192 ≤ p.replay.length then p
        else
          { p with
            replay := p.replay ++ [(p.sendSeq, false)]
            sendSeq := p.sendSeq + 1
            sendCount := p.sendCount.setIfInBounds (bit p.kact) (p.sent + 1) })

/-- A write into a key slot takes effect (R381): not into the active slot, nor while a switch is pending. -/
def ExtPort.slotOpen (p : ExtPort) (slot : Bool) : Bool := slot != p.kact && !p.kpend

/-- Load a key and its salt into a slot (R381, R399). -/
def ExtPort.loadKey (p : ExtPort) (slot : Bool) (key : BitVec 256) (salt : BitVec 32) : ExtPort :=
  if p.slotOpen slot then
    { p with
      keys := p.keys.setIfInBounds (bit slot) key
      salts := p.salts.setIfInBounds (bit slot) salt
      sendCount := p.sendCount.setIfInBounds (bit slot) 0
      loaded := setBit p.loaded (bit slot) true }
  else p

/-! ## Time (R384) -/

/-- PTP_TIME_FLIT (R383, R384): the offset is recorded; a lag above 10 µs is one forward step. A smaller one
is slewed and a lead is counted off, which the free advance of PODT covers (log 11). -/
def execPtpTimeFlit (offset : Int) (s : State) :=
  happened (if s.ptpcfg.extractLsb' 62 2 ≠ 1#2 then s
    else
      let good := if offset.natAbs < 100 then s.ptpGood + 1 else 0
      { s with
        ptpOffset := BitVec.ofInt 32 offset
        ptpGood := good
        ptpLock := decide (16 ≤ good)
        podt := if 10000 < offset then s.podt + BitVec.ofInt 64 offset else s.podt })

/-! ## Host ports (R354 to R356) -/

/-- Change a host port. -/
def State.onHostPort (s : State) (p : BitVec 2) (f : HostPort → HostPort) : State :=
  { s with hostPorts := put (w := 2) s.hostPorts p (f (pick (w := 2) s.hostPorts p)) }

/-- An address of host memory behind a port of this package. -/
def State.behind (s : State) (port : BitVec 2) (pa : Nat) : Bool :=
  paTarget pa == 6 && paDie pa == port.setWidth 3 && paChip pa == s.chip

/-- No copy of a line behind a port is left (R359). -/
def State.uncachePort (s : State) (port : BitVec 2) : State :=
  { s with hostLines := s.hostLines.filter fun l => !s.behind port (l.line * 64) }

/-- A port is down: every access in flight on it ends with an error response (R354). -/
def State.hostPortDown (s : State) (port : BitVec 2) : State :=
  let t := s.onHostPort port fun p => { p with mode := 0#2, gen := 0#4, width := 0#8, cache := false, mem := false }
  (t.onHart fun h =>
    { h with posted := h.posted.map fun p => if s.behind port p.pa then { p with failed := true } else p }).uncachePort port

/-- What a link can train to: PCIe generation 1 to 6 and 1, 2, 4, 8 or 16 lanes (R354). -/
def linkTrains (gen : BitVec 4) (width : BitVec 8) : Bool :=
  decide (1 ≤ gen.toNat) && decide (gen.toNat ≤ 6) && [1, 2, 4, 8, 16].contains width.toNat

/-- HOST_PORT_TRAIN (R354): MODE 0 down, 1 PCIe only, 2 CXL, where CXL.cache and CXL.mem are both negotiated, and else PCIe only;
what no link trains to changes nothing. -/
def execHostPortTrain (port : BitVec 2) (mode : BitVec 2) (gen : BitVec 4) (width : BitVec 8) (cache mem : Bool) (s : State) :=
  let cxl := mode == 2#2 && cache && mem
  happened (if mode = 0#2 then s.hostPortDown port
    else if mode = 3#2 || !linkTrains gen width then s
    else
      let t := s.onHostPort port fun p =>
        { p with mode := if cxl then 2#2 else 1#2, gen := gen, width := width, cache := cxl, mem := cxl }
      if cxl then t else t.uncachePort port)

/-- HOST_PORT_DOWN (R354). -/
def execHostPortDown (port : BitVec 2) (s : State) := happened (s.hostPortDown port)

/-- HOST_SNOOP (R356): the holder returns the data of a Modified line; the line is downgraded or leaves. -/
def execHostSnoop (pa : Word) (invalidate : Bool) (s : State) :=
  let line := pa.toNat / 64
  happened { s with hostLines :=
    if invalidate then s.hostLines.filter fun l => l.line != line
    else s.hostLines.map fun l => if l.line = line then { l with modified := false } else l }

/-- The device address and the VF of a host address in an enabled HDM window of a port (R362). -/
def State.hdmTarget (s : State) (p : HostPort) (x : Nat) : Option (Nat × BitVec 10) :=
  ((List.range 8).filterMap fun i =>
    let base := ((p.hdmBase[i]?).getD 0#64).toNat
    let c := (p.hdmCtl[i]?).getD 0#64
    if c.getLsbD 63 && base ≤ x && x < base + fieldNat c 0 16 * 2 ^ 28 then
      some (s.chip.toNat * 2 ^ 52 + fieldNat c 28 24 * 2 ^ 28 + (x - base), c.extractLsb' 16 10)
    else none).head?

/-- The device address and the VF of a CXL.mem request: through a port whose CXL.mem is in use, to device memory (R354, R362). -/
def State.memTarget (s : State) (p : HostPort) (x : Nat) : Option (Nat × BitVec 10) :=
  if p.mem then (s.hdmTarget p x).filter fun a => decide (paTarget a.1 < 5) else none

/-- HOST_CXL_MEM_REQUEST (R362): a write lands at the home, or is dropped; a read changes nothing here. Of either, a refusal is
logged (R347). -/
def execHostCxlMemRequest (port : BitVec 2) (addr : Word) (wdata : Option Word) (s : State) :=
  happened (match s.memTarget (pick (w := 2) s.hostPorts port) (addr.toNat / 8 * 8) with
    | none => s
    | some (pa, v) =>
      match s.refusal (some v) (homeHall pa) pa 8 wdata.isSome, wdata with
      | some c, _ => s.logRefusal (some v) (homeHall pa) pa c
      | none, none => s
      | none, some w =>
        if s.inWells pa then s
        else if s.inInk pa then s.logSealed (some v) (homeHall pa) pa
        else match s.writeHome (some v) (homeHall pa) pa (leBytes 8 w.toNat) with
          | .ok s' => s'
          | .error s' => s')

end Sys2Proof.Machine
end

