-- ==== Sys2Proof/Machine/Reliability.lean ====
section
/-! DEFINITION. Reliability.lean: lane and quarter marks, scrubbing, memory errors and the error log
(R385 to R394). -/

namespace Sys2Proof.Machine

/-- Mark one lane (R385, R393): logged when it was not marked before. -/
def State.markLane (s : State) (h : BitVec 4) (c : BitVec 5) (n : Nat) (synd : Word) : State :=
  if ((s.hall h).cluster c).lrmap.getLsbD n then s
  else
    (s.onCluster h c fun x => { x with lrmap := setBit x.lrmap n true }).logError h
      { s.errorEntry 6 0 false synd with cluster := c, lane := BitVec.ofNat 7 n }

/-- LRSET_WRITE (R393): LRSET0 for lanes 0 to 63, LRSET1 (`high`) for 64 to 127. -/
def State.markLanes (s : State) (h : BitVec 4) (c : BitVec 5) (high : Bool) (lanes : Word) : State :=
  ((List.range 64).filter fun i => lanes.getLsbD i).foldl (fun s i => s.markLane h c (64 * bit high + i) 0#64) s

/-- LRSET_WRITE (R393). -/
def execLrsetWrite (hall : BitVec 4) (cluster : BitVec 5) (high : Bool) (lanes : Word) (s : State) :=
  happened (s.markLanes hall cluster high lanes)

/-- Mark one array quarter (R387, R393). -/
def State.markQuarter (s : State) (h : BitVec 4) (c : BitVec 5) (q : Nat) : State :=
  if ((s.hall h).cluster c).mapart.getLsbD q then s
  else
    (s.onCluster h c fun x => { x with mapart := setBit x.mapart q true }).logError h
      { s.errorEntry 8 0 false 0#64 with cluster := c, lane := BitVec.ofNat 7 q }

/-- MPSET write (R393). -/
def State.markQuarters (s : State) (h : BitVec 4) (c : BitVec 5) (quarters : BitVec 4) : State :=
  ((List.range 4).filter fun i => quarters.getLsbD i).foldl (fun s i => s.markQuarter h c i) s

/-- MPSET_WRITE (R393). -/
def execMpsetWrite (hall : BitVec 4) (cluster : BitVec 5) (quarters : BitVec 4) (s : State) :=
  happened (s.markQuarters hall cluster quarters)

/-- A third run outvotes a lane (R385): it is charged, and marked when its last charge is less than an hour old. The results of
the instruction are those of two runs that agree. -/
def State.chargeLane (s : State) (h : BitVec 4) (c : BitVec 5) (hart : BitVec 3) (lane : BitVec 7) (synd : Word) : State :=
  let n := lane.toNat
  let again := (alFind n ((s.hall h).cluster c).charged).any fun t => decide (s.podt.toNat < t.toNat + 36 * 10 ^ 11)
  let s := (s.onCluster h c fun x =>
    { x with
      charges := if x.charges = BitVec.allOnes 16 then x.charges else x.charges + 1#16
      charged := alSet n s.podt x.charged }).logError h
    { s.errorEntry 5 0 false synd with cluster := c, hart := hart, lane := lane }
  if again then s.markLane h c n synd else s

/-- A matrix checksum does not agree (R387, R394): logged for its quarter. -/
def State.logChecksum (s : State) (h : BitVec 4) (c : BitVec 5) (hart : BitVec 3) (q : BitVec 2) : State :=
  s.logError h { s.errorEntry 7 0 false 0#64 with cluster := c, hart := hart, lane := q.setWidth 7 }

/-- A register error that its code corrects (R388): counted in CLRSTAT.RFCE, saturating. -/
def State.correctedRegister (s : State) (h : BitVec 4) (c : BitVec 5) : State :=
  s.onCluster h c fun x => { x with rfce := if x.rfce = BitVec.allOnes 32 then x.rfce else x.rfce + 1#32 }

/-! ## Scrubbing (R391, R392) -/

/-- The 64-byte lines of a memory of a hall: HBM4E or tier-2. -/
def memoryLines (tier2 : Bool) : Nat := if tier2 then 384 * 10 ^ 9 / 64 else 2 ^ 30

/-- The physical address of a line of a hall's memory. -/
def memoryPa (chip : BitVec 12) (h : BitVec 4) (tier2 : Bool) (line : Nat) : Nat :=
  mkPa chip (h.toNat / 2) (2 * bit tier2 + h.toNat % 2) (line * 64)

/-- Add one to half of ECCCNT, saturating: bits 63:32 HBM4E, 31:0 tier-2 (R394). -/
def eccCount (x : Word) (tier2 : Bool) : Word :=
  let lo := if tier2 then 0 else 32
  setField x lo (BitVec.ofNat 32 (Nat.min (2 ^ 32 - 1) (fieldNat x lo 32 + 1)))

/-- Corrected memory errors of the last minute (R392). -/
def State.recentErrors (s : State) (h : BitVec 4) : List Word :=
  (s.hall h).corrTimes.filter fun t => decide (s.podt.toNat ≤ t.toNat + 6 * 10 ^ 10)

/-- The error factor Fe of R392, for a number of corrected errors of the last minute. -/
def errorFactor (n : Nat) : Nat := if n < 16 then 1 else if n < 256 then 2 else 4

/-- A corrected memory error, found by the scrubber or by a demand read (R392, R394): counted, and logged at most once a second for each
memory. -/
def State.correctedError (s : State) (h : BitVec 4) (tier2 : Bool) (pa : Nat) (scrub : Bool) : State :=
  let k := bit tier2
  let recent := (alFind k (s.hall h).corrLogged).any fun t => decide (s.podt.toNat < t.toNat + 10 ^ 9)
  let s := s.onHall h fun x =>
    { x with ecc := eccCount x.ecc tier2
             corrTimes := s.podt :: s.recentErrors h }
  if recent then s
  else
    (s.onHall h fun x => { x with corrLogged := alSet k s.podt x.corrLogged }).logError h
      { s.errorEntry k pa false 0#64 with scrub := scrub }

/-- An uncorrectable error in an array strikes the newest copy of its bytes (R389): in memory that of a line which no L2 holds newer, in an
L2 that of a line which is newer than memory; another line of an L2 is fetched again. -/
def State.strikes (s : State) (pa : Nat) (src : BitVec 8) : Bool :=
  match src.toNat with
  | 0 | 1 => !s.dirty.contains (pa / 64)
  | 2 => s.dirty.contains (pa / 64)
  | 3 | 9 => true
  | _ => false

/-- Poison what an uncorrectable error leaves (R389): the 32 bytes of a memory symbol group, one granule of
L2 or scratchpad, a whole well line. -/
def State.spoil (s : State) (pa : Nat) (src : BitVec 8) : State :=
  if !s.strikes pa src then s
  else if paTarget pa < 4 && s.inWells pa then s.onWell (pa / 64) fun w => { w with pois := true }
  else if src = 9#8 then
    (if s.inInk pa then s.onInk pa fun p => { p with epois := true } else s)
  else if src = 0#8 || src = 1#8 then s.addPoison (pa / 32 * 32) 32
  else s.addPoison (pa / 8 * 8) 8

/-- The address that the log entry of an uncorrectable error shows: the line's for a well line (R256), else that of the first granule
(R389). -/
def State.errorAddr (s : State) (pa : Nat) (src : Nat) : Nat :=
  if paTarget pa < 4 && s.inWells pa then pa / 64 * 64 else if src < 2 then pa / 32 * 32 else pa / 8 * 8

/-- A demand read meets an error that the code of the memory corrects (R394). Memory serves no read of a line that an L2 holds newer. -/
def State.correctedRead (s : State) (h : BitVec 4) (tier2 : Bool) (line : Nat) : State :=
  let pa := memoryPa s.chip h tier2 line
  if memoryLines tier2 ≤ line || s.dirty.contains (pa / 64) then s else s.correctedError h tier2 pa false

/-- The factor F of R392. The temperature of the HBM4E dies has no register, so Ft is a free value (log 9). -/
def State.scrubFactor (s : State) (h : BitVec 4) : Nat :=
  let ft := match (Config.freeWord s.fresh).toNat % 3 with | 0 => 1 | 1 => 2 | _ => 4
  Nat.min 8 (ft * errorFactor (s.recentErrors h).length)

/-- Advance the scrubber past a line, counting full HBM4E passes; demand may pause it (log 9). -/
def State.scrubbed (s : State) (h : BitVec 4) (tier2 : Bool) (line : Nat) : State :=
  let next := if memoryLines tier2 ≤ line + 1 then 0 else line + 1
  let f := s.scrubFactor h
  let s := s.onHall h fun x =>
    if tier2 then { x with scrub2Pos := next }
    else
      { x with
        scrubPos := BitVec.ofNat 36 next
        scrubPasses := if next = 0 then x.scrubPasses + 1 else x.scrubPasses
        scrubFactor := BitVec.ofNat 4 f
        scrubPaused := Config.freeBit s.fresh }
  { s with fresh := s.fresh + 1 }

/-- SCRUB_LINE (R391): nothing while EN is 0 or while demand pauses scrubbing; a line that is newer at its home
slice is skipped. Which half of the line an uncorrectable error strikes is open (log 9). -/
def execScrubLine (hall : BitVec 4) (tier2 : Bool) (line : Nat) (corrected uncorrectable : Bool) (s : State) :=
  let x := s.hall hall
  let pa := memoryPa s.chip hall tier2 line + (if Config.freeBit s.fresh then 32 else 0)
  happened (if !x.scrubcfg.getLsbD 0 || x.scrubPaused || memoryLines tier2 ≤ line then s
    else
      let fresh := s.dirty.contains (pa / 64)
      let s := if corrected && !fresh then s.correctedError hall tier2 (pa / 64 * 64) true else s
      let s := if uncorrectable && !fresh then
          (s.spoil pa (BitVec.ofNat 8 (bit tier2))).logError hall
            { s.errorEntry (bit tier2) (s.errorAddr pa (bit tier2)) true 0#64 with scrub := true }
        else s
      s.scrubbed hall tier2 line)

/-- SCRUB_PAUSE_END (R392). -/
def execScrubPauseEnd (hall : BitVec 4) (s : State) := happened (s.onHall hall fun x => { x with scrubPaused := false })

/-- MEMORY_UNCORRECTABLE_ERROR (R389): poison, and one log entry at the home. -/
def execMemoryUncorrectableError (pa : Word) (src : BitVec 8) (synd : Word) (s : State) :=
  let a := pa.toNat
  happened (if paTarget a < 5 && paChip a == s.chip then
    (s.spoil a src).logError (homeHall a)
      { s.errorEntry src.toNat (s.errorAddr a src.toNat) true synd with
        cluster := if paTarget a = 4 then spCluster a else 0#5 }
  else s)

/-- ERROR_LOG_CLEAR (R394): every VALID bit, NEXT and OVF in one step. -/
def execErrorLogClear (hall : BitVec 4) (s : State) :=
  happened (s.onHall hall fun x =>
    { x with elog := x.elog.map fun p => (p.1, { p.2 with valid := false }), enext := 0, eovf := 0#32 })

end Sys2Proof.Machine
end

