-- ==== Sys2Proof/Machine/Reset.lean ====
section
/-! DEFINITION. Reset.lean: what a hall reset does (R345, R346), and the end of a shootdown (R339). -/

namespace Sys2Proof.Machine

/-! ## Shootdowns (R339) -/

/-- SHOOTDOWN_DONE (R115, R339): the entries are dropped, every access that used them is performed, and BUSY clears. -/
def execShootdownDone (hall : BitVec 4) (s : State) :=
  let x := s.hall hall
  happened (if x.shootBusy then
    ((s.settle fun _ => true).invalidate (x.shootHow.extractLsb' 0 10)
      (if fieldNat x.shootHow 10 2 = 0 then some x.shootPage else none)).onHall hall fun y => { y with shootBusy := false }
  else s)

/-! ## Requests that a reset abandons (R345, R352) -/

/-- What is performed of an abandoned request: the aligned 8-byte pieces of its line that `keep` names (R352). -/
def Payload.part (keep : Nat → Bool) : Payload → Payload
  | .bytes l => .bytes (l.filter fun p => keep (p.1 / 8 % 8))
  | .amo op t l => .amo op t (l.filter fun p => keep (p.1 / 8 % 8))
  | .deposit wlf line adds => .deposit wlf line (adds.filter fun p => keep (wellSlot wlf * p.1 / 8))
  | .winit wlf line anchor => if keep 0 then .winit wlf line anchor else .bytes []

/-- Each of these outbound requests of the hart is acknowledged, and performed, or abandoned; which, and which pieces of an
abandoned one are performed, is open (log 9). The number abandoned. -/
def State.drainPosted (s : State) (mine : Posted → Bool) : State × Nat :=
  let l := s.hart.posted.filter mine
  let kept (i : Nat) : Bool := Config.freeBit (s.fresh + i)
  let left (p : Posted × Nat) : Posted :=
    if kept p.2 then p.1 else { p.1 with payload := p.1.payload.part (Config.freeWord (s.fresh + p.2)).getLsbD }
  let s' : State := { s with fresh := s.fresh + l.length }
  let s' := (s'.onHart fun h => { h with posted := l.zipIdx.map left }).settle fun _ => true
  (s'.onHart fun h => { h with posted := s.hart.posted.filter fun p => !mine p }, (l.zipIdx.filter fun p => !kept p.2).length)

/-! ## Hall reset (R345, R346) -/

/-- Lines of a hall that are newer than memory. -/
def State.dirtyOf (s : State) (h : BitVec 4) : List Nat := s.dirty.filter fun l => paTarget (l * 64) < 4 && homeHall (l * 64) == h

/-- Empty the L2 of a hall: a warm reset writes lines back, host lines among them; a forced one writes nothing back and poisons
what was newer than memory: lines of data and host lines, well lines whole, and tail-table entries (R345 step 4, R389). -/
def State.emptyL2 (s : State) (h : BitVec 4) (forced : Bool) : State :=
  let lines := s.dirtyOf h
  let hosts := s.hostLines.filter fun l => l.holder == h && l.modified
  let s := if forced then
      (lines.filter (fun l => !s.inWells (l * 64)) ++ hosts.map (·.line)).foldl (fun s l => s.addPoison (l * 64) 64) s
    else hosts.foldl (fun s _ => s.addTraffic h 9 64) s
  { s with
    wells := s.wells.map fun p =>
      if homeHall (p.1 * 64) = h then
        (p.1, { p.2 with res := .absent, pois := p.2.pois || (forced && lines.contains p.1) })
      else p
    ink := s.ink.map fun p =>
      (p.1, { p.2 with epois := p.2.epois || (forced && homeHall (p.1 * 65536) == h && lines.contains (s.tailPa (p.1 * 65536) / 64)) })
    dirty := s.dirty.filter fun l => !(lines.contains l)
    hostLines := s.hostLines.filter fun l => l.holder != h }

/-- Clear the scratchpad, windows, landings, wait entries, hall barriers and replica pool of a hall; replicas of its pages
in other pools become absent (R198, R345 step 5). -/
def State.clearHall (s : State) (h : BitVec 4) : State :=
  let inSp a := paTarget a == 4 && paChip a == s.chip && homeHall a == h
  let s : State := { s with
    mem := s.mem.filter fun c => !inSp c.1
    poison := s.poison.filter fun g => !inSp (8 * g)
    replicas := s.replicas.filter fun r => r.2.1 != h.toNat && homeHall (r.1 * 65536) != h
    pool := s.pool.filter fun r => r.1.2 != h.toNat && homeHall (r.1.1 * 65536) != h
    ink := s.ink.map fun p =>
      (p.1, { p.2 with rmap := if homeHall (p.1 * 65536) = h then 0#16 else setBit p.2.rmap h.toNat false }) }
  let s := s.onHall h fun x => { x with windows := [], landings := [], barriers := [] }
  if s.myHall = h then s.onHart fun y => { y with armed := 0#64, fired := 0#64, armedPa := [] } else s

/-- Commands in the per-die blocks of a hall, and those that harts of the hall issued, end abandoned where they are the
tenant's (R346). -/
def State.abandonIn (s : State) (h : BitVec 4) (t : BitVec 16) : State :=
  { s with cmds := s.cmds.map fun c =>
      if c.away.isNone && (c.hall = h || (c.hall = h ^^^ 1#4 && s.tenantOf c.vf == t && (c.op == 1#3 || c.op == 2#3))) then c.abandon else c }

/-- A reset of a hall (R345), with its CAUSE; ignored while STATE is 1, and a warm one while the hall is fenced
(R344). A halted hart is stopped no longer (R117). Commands that end with STATUS 2 (R346) do so when the dispatcher's events
complete them. -/
def State.resetHall (s : State) (h : BitVec 4) (forced : Bool) (cause : BitVec 4) : State :=
  if (s.hall h).st = .reset || ((s.hall h).st = .fenced && !forced) then s
  else
    let t := (s.hall h).tenant
    let s := s.loseSpanIn fun p => p.hall == h
    let s := s.killUnits fun u => u.hall == h || (u.st == .preempted && u.slotHall == h)
    let s := if s.myHall = h then ((s.drainPosted fun _ => true).1.onHart fun y => { y with vops := [] }) else s
    let s := ((s.emptyL2 h forced).clearHall h).abandonIn h t
    let s := s.onHall h fun x =>
      { x with
        st := .reset, cause := cause, shapeErr := false, held := [], fqPending := [], shootBusy := false
        clusters := x.clusters.map fun p => (p.1, { p.2 with stopped := 0#8 }) }
    let s := if s.myHall = h then s.onHart fun y => { y with stopped := false, undelivered := none } else s
    (s.measureHall h).raiseEvt t fun e => setBit e 1 true

/-- HALL_WARM_RESET (R345). -/
def execHallWarmReset (hall : BitVec 4) (s : State) := happened (s.resetHall hall false 1#4)

/-- HALL_FORCED_RESET (R345). -/
def execHallForcedReset (hall : BitVec 4) (s : State) := happened (s.resetHall hall true 2#4)

end Sys2Proof.Machine
end

