-- ==== Sys2Proof/Machine/Power.lean ====
section
/-! DEFINITION. Power.lean: bring-up, power and thermal limits, hart control (R395 to R399, R403 to R405),
attestation and link keys. -/

namespace Sys2Proof.Machine

/-! ## Bring-up (R254, R319, R395, R403) -/

/-- The areas of an image within a hall's HBM4E, as (first, size) in KiB: wells with headers, replica pool with
tail table, context save, and the ink region when it lies there. -/
def HallImage.areas (i : HallImage) : List (Nat × Nat) :=
  let gib := 2 ^ 20
  let w := fieldNat i.wellcfg 8 6
  let k := fieldNat i.inkcfg 32 8
  [ (fieldNat i.wellcfg 0 6 * gib, w * gib + w * 32 * 1024),
    (fieldNat i.inkcfg 16 6 * gib, fieldNat i.inkcfg 48 8 * gib + k * 256),
    (fieldNat i.cscfg 0 6 * gib, fieldNat i.cscfg 8 6 * gib) ]
  ++ (if i.inkcfg.getLsbD 40 then [] else [(fieldNat i.inkcfg 0 9 * gib, k * gib)])

/-- Two areas share no byte. -/
def apart (a b : Nat × Nat) : Bool := a.2 == 0 || b.2 == 0 || a.1 + a.2 ≤ b.1 || b.1 + b.2 ≤ a.1

/-- No two areas share a byte. -/
def allApart : List (Nat × Nat) → Bool
  | [] => true
  | a :: r => r.all (apart a) && allApart r

/-- The regions of an image fit (R254, R319, Table 1.5). -/
def HallImage.fits (i : HallImage) : Bool :=
  let k := fieldNat i.inkcfg 32 8
  i.areas.all (fun a => decide (a.1 + a.2 ≤ 64 * 2 ^ 20)) && allApart i.areas
    && decide (fieldNat i.wellcfg 8 6 ≤ 16) && decide (k ≤ 64) && decide (fieldNat i.inkcfg 48 8 ≤ 16)
    && decide (1 ≤ fieldNat i.cscfg 8 6) && decide (fieldNat i.cscfg 8 6 ≤ 16)
    && (!i.inkcfg.getLsbD 40 || decide ((fieldNat i.inkcfg 0 9 + k) * 2 ^ 30 ≤ 384 * 10 ^ 9))

/-- The image is accepted: its signature verifies (R395), and its power limits sum to at most 7,200 W (R404). -/
def Image.accepted (i : Image) : Bool :=
  Config.ed25519Verify Config.rootKey (leBytes 64 (Config.sha512 i.bytes).toNat) i.sig
    && decide ((i.halls.toList.map fun h => h.plim.toNat).sum ≤ 7200)

/-- Steps 4 to 7 for one hall. -/
def State.bringUpHall (s : State) (n : Nat) : State :=
  let h := BitVec.ofNat 4 n
  let i := pick (w := 4) s.image.halls h
  if !i.fits then s
  else
    let s := s.onHall h fun x => { x.withImage i with tenant := i.tenant }
    let s := (s.measureHall h).releaseHall h
    { s with pkgstat := setBit s.pkgstat n true }

/-- HID of a hart: its chip, and its place, of which DIE is wired to HALL div 2 (Table 3.7). -/
def hidOf (chip : BitVec 12) (hid : Word) : Word :=
  place chip.toNat 15 12 ||| place (fieldNat hid 8 4 / 2) 12 3 ||| place (fieldNat hid 0 12) 0 12

/-- The tenant that a hall has once its configuration is loaded: none where its regions do not fit (R403 steps 4 and 5). -/
def HallImage.loadedTenant (i : HallImage) : BitVec 16 := if i.fits then i.tenant else 0#16

/-- POWER_ON (R403): nothing of the module survives but its image and the memory of the host; each hall then
brings itself up, all of them with one tenant set before the first is released. -/
def State.powerOn (s : State) : State :=
  let s : State := { State.reset with
    mem := s.mem.filter fun c => paTarget c.1 == 6
    poison := s.poison.filter fun g => paTarget (8 * g) == 6
    image := s.image, schedule := s.schedule, fresh := s.fresh
    hid := hidOf s.image.chip s.hid }
  if !s.image.accepted then s
  else
    let s := (List.range 16).foldl (fun s n =>
      s.onHall (BitVec.ofNat 4 n) fun x => { x with tenant := (pick (w := 4) s.image.halls (BitVec.ofNat 4 n)).loadedTenant }) s
    (List.range 16).foldl State.bringUpHall s

/-- POWER_ON (R403). -/
def execPowerOn (s : State) := happened s.powerOn

/-! ## Lane caps (R214, R404) -/

/-- A write to CAP (R214): a multiple of 8, at least 8 × PLACED and at least 8. -/
def State.writeCap (s : State) (h : BitVec 4) (c : BitVec 5) (v : Nat) : State :=
  s.onCluster h c fun x => { x with cap := Nat.max (v / 8 * 8) (Nat.max (8 * s.placed h c) 8) }

/-- LANE_POOL_CAP_WRITE (R214). -/
def execLanePoolCapWrite (hall : BitVec 4) (cluster : BitVec 5) (cap : BitVec 8) (s : State) :=
  happened (s.writeCap hall cluster cap.toNat)

/-- The cluster of a hall that is best by an order on CAP; the lowest index among equals. -/
def State.capCluster (s : State) (h : BitVec 4) (better : Nat → Nat → Bool) : BitVec 5 :=
  let cap (n : Nat) := ((s.hall h).cluster (BitVec.ofNat 5 n)).cap
  BitVec.ofNat 5 ((List.range 32).foldl (fun b n => if better (cap n) (cap b) then n else b) 0)

/-- POWER_CAP_ADJUST (R404), with the power and the temperature of this millisecond; 115 °C forces a reset. -/
def execPowerCapAdjust (hall : BitVec 4) (pwr : BitVec 16) (tj : BitVec 8) (s : State) :=
  let s := s.onHall hall fun x => { x with pwr := pwr, tj := tj }
  let x := s.hall hall
  happened (if 115#8 ≤ tj then s.resetHall hall true 5#4
    else if x.plim < pwr || x.tlim ≤ tj then
      let c := s.capCluster hall fun a b => decide (b < a)
      s.writeCap hall c ((x.cluster c).cap - 8)
    else if 20 * pwr.toNat < 19 * x.plim.toNat && tj.toNat + 5 < x.tlim.toNat then
      let c := s.capCluster hall fun a b => decide (a < b)
      s.writeCap hall c (Nat.min 128 ((x.cluster c).cap + 8))
    else s)

/-- THERMAL_TRIP (R404): forced reset with CAUSE 5. -/
def execThermalTrip (hall : BitVec 4) (s : State) :=
  happened ((s.onHall hall fun x => { x with tj := if x.tj < 115#8 then 115#8 else x.tj }).resetHall hall true 5#4)

/-! ## Hart control (R317, R405) -/

/-- Leave fault run-ahead without a trace (R328). What reached the hart from outside in the meantime stays. -/
def State.rollback (s : State) : State :=
  match s.ra with
  | none => s
  | some r =>
    let h := s.hart
    { s with
      ra := none
      hart := { r.checkpoint with
        posted := h.posted, vops := h.vops, seq := h.seq, k := h.k, armed := h.armed, fired := h.fired
        armedPa := h.armedPa, wakes := h.wakes, spanLost := h.spanLost } }

/-- The hart of this model is hart n of a cluster. -/
def State.isHart (s : State) (h : BitVec 4) (c : BitVec 5) (n : BitVec 3) : Bool :=
  s.myHall == h && s.myCluster == c && s.myHart == n

/-- HCTL_STOP (R405): the hart stops between instructions, with nothing saved. -/
def State.stopHart (s : State) (h : BitVec 4) (c : BitVec 5) (n : BitVec 3) : State :=
  let s := s.onCluster h c fun x => { x with stopped := setBit x.stopped n.toNat true }
  if s.isHart h c n then s.rollback.onHart fun y => { y with stopped := true } else s

/-- A RUN write restarts the hart (R405): at its PC, or, after a trap that could not be delivered, in mode P at
the handler of the P set, which holds the trap; ignored while that handler is 0 (R317). Without its claim VL and VLMAXB are 0
(R50). -/
def State.restart (s : State) : State :=
  match s.hart.undelivered with
  | none => s.onHart fun y => { y with stopped := false }
  | some c =>
    let set := s.pset.enter s.hart.mode s.hart.pc 24 0 (c.setWidth 64) false false
    { s with
      pset := set
      hart := { s.hart with
        stopped := false, undelivered := none, mode := .p, pc := set.handler, transfer := false
        vl := if s.hart.claim.isNone then 0 else s.hart.vl
        vlmaxb := if s.hart.claim.isNone then 0 else s.hart.vlmaxb } }

/-- HCTL_RUN (R317, R405). -/
def State.runHart (s : State) (h : BitVec 4) (c : BitVec 5) (n : BitVec 3) : State :=
  if s.isHart h c n && s.hart.undelivered.isSome && s.pset.handler == 0#64 then s
  else
    let s := s.onCluster h c fun x => { x with stopped := setBit x.stopped n.toNat false }
    if s.isHart h c n && s.hart.stopped then s.restart else s

/-- HCTL_STOP (R405). -/
def execHctlStop (hall : BitVec 4) (cluster : BitVec 5) (hart : BitVec 3) (s : State) := happened (s.stopHart hall cluster hart)

/-- HCTL_RUN (R317). -/
def execHctlRun (hall : BitVec 4) (cluster : BitVec 5) (hart : BitVec 3) (s : State) := happened (s.runHart hall cluster hart)

/-- HCTL_RECOV (R405). -/
def execHctlRecov (hall : BitVec 4) (cluster : BitVec 5) (on : Bool) (s : State) :=
  happened (s.onCluster hall cluster fun x => { x with recov := on })

/-! ## Attestation (R398) -/

/-- Writing GO: ignored while BUSY. -/
def State.startAttest (s : State) (v : BitVec 10) : State :=
  if (s.vf v).attBusy then s else s.onVf v fun x => { x with attBusy := true, attErr := false }

/-- ATTESTATION_GO (R398). -/
def execAttestationGo (vf : BitVec 10) (s : State) := happened (s.startAttest vf)

/-- The words of a report before its signature (Table 29.3), as captured now, signed by a die. -/
def State.attestWords (s : State) (v : BitVec 10) (die : Nat) : List Word :=
  let f := s.vf v
  let halls := s.hallMask f.tenant
  let rsth := (List.range 16).foldl
    (fun m i => if halls.getLsbD i && (s.hall (BitVec.ofNat 4 i)).st != .running then setBit m i true else m) 0#16
  [ place 1 32 32, s.image.version,
    place s.chip.toNat 52 12 ||| place v.toNat 42 10 ||| place f.tenant.toNat 26 16 ||| place halls.toNat 10 16,
    place rsth.toNat 48 16 ||| place die 0 3, s.podt, 0#64, 0#64, 0#64 ]
  ++ f.attn.toList
  ++ (List.range 16).flatMap fun i =>
      if halls.getLsbD i then leWords (leBytes 64 (s.hall (BitVec.ofNat 4 i)).hmeas.toNat) 8 else List.replicate 8 0#64

/-- Write lines of 64 bytes at a virtual address of a VF, every one of which must translate to a writable NRM
page. -/
def State.writeVfLines (s : State) (v : BitVec 10) (h : BitVec 4) (va : Word) : List (List Byte) → Option State
  | [] => some s
  | l :: r =>
    match s.translate (some v) h .s .store va with
    | .error _ => none
    | .ok x =>
      if x.cls ≠ .nrm then none
      else match s.writeHome (some v) h x.pa l with
        | .error _ => none
        | .ok s' => s'.writeVfLines v h (va + 64#64) r

/-- Cut bytes into n lines of 64. -/
def lines64 (bs : List Byte) : Nat → List (List Byte)
  | 0 => []
  | n + 1 => bs.take 64 :: lines64 (bs.drop 64) n

/-- ATTESTATION_REPORT_DONE (R398): captured, signed and written, or ERR. -/
def State.attest (s : State) (v : BitVec 10) : State :=
  let f := s.vf v
  if !f.attBusy then s
  else
    let lead := (List.range 16).find? fun i =>
      s.owns f.tenant (BitVec.ofNat 4 i) && (s.hall (BitVec.ofNat 4 i)).st == .running
    let done := match lead with
      | none => none
      | some h =>
        let body := wordsBytes (s.attestWords v (h / 2))
        let sig := leBytes 64 (Config.identitySign (h / 2) body).toNat
        if f.attaddr.toNat % 64 ≠ 0 then none
        else s.writeVfLines v (BitVec.ofNat 4 h) f.attaddr (lines64 (body ++ sig) 19)
    match done with
    | some s' => s'.onVf v fun x => { x with attBusy := false }
    | none => s.onVf v fun x => { x with attBusy := false, attErr := true }

/-- ATTESTATION_REPORT_DONE (R398). -/
def execAttestationReportDone (vf : BitVec 10) (s : State) := happened (s.attest vf)

/-! ## Link keys (R399) -/

/-- KEY_RECORD (R399, Table 29.4): verified, or logged with source 11 in the hall whose port it names. -/
def execKeyRecord (bytes : List Byte) (s : State) :=
  let w0 := leWord (bytes.take 8)
  let port := fieldNat w0 44 8
  let hall := BitVec.ofNat 4 (port / 9)
  let sig := BitVec.ofNat 512 (leNat (bytes.drop 0x40 |>.take 64))
  let ok := bytes.length == 128 && w0.extractLsb' 52 12 == s.chip && decide (port < 144)
    && Config.ed25519Verify s.image.operatorKey (leBytes 64 (Config.sha512 (bytes.take 0x40)).toNat) sig
  happened (if ok then
    s.onPort hall (port % 9) fun p =>
      p.loadKey (w0.getLsbD 43) (BitVec.ofNat 256 (leNat (bytes.drop 8 |>.take 32))) (w0.extractLsb' 0 32)
  else s.logError (if port < 144 then hall else 0#4) (s.errorEntry 11 0 false 0#64))

end Sys2Proof.Machine
end

