-- ==== Sys2Proof/Machine/Slot.lean ====
section
/-! DEFINITION. Slot.lean: the context save region: hart slots, group images (R176, R319 to R324, Tables 21.6
and 21.7). Where the manual gives a slot or image no place or no bits, log 18 does. -/

namespace Sys2Proof.Machine

/-! ## Places in the region (R319) -/

/-- The first byte of the context save region of a hall. -/
def State.savePa (s : State) (h : BitVec 4) : Nat := hbmPa s.chip h (fieldNat (s.hall h).cscfg 0 6 * 2 ^ 30)

/-- Bytes of the region. -/
def State.saveSize (s : State) (h : BitVec 4) : Nat := fieldNat (s.hall h).cscfg 8 6 * 2 ^ 30

/-- Hart slots of a hall: 2,048 for each GiB of the region (Table 21.5). Slots are taken from its start and group images from its
end (log 18). -/
def State.slotCount (s : State) (h : BitVec 4) : Nat := s.saveSize h / 2 ^ 19

/-- The physical address of hart slot n. -/
def State.slotPa (s : State) (h : BitVec 4) (n : Nat) : Nat := s.savePa h + n * 2 ^ 19

/-- Slots of a hall that units or span positions hold. -/
def State.slotsUsed (s : State) (h : BitVec 4) : List Nat :=
  (s.units.filter fun u => u.slotHall == h).map (·.slot)
    ++ (s.units.flatMap fun u => (u.places.filter fun p => p.hall == h).map (·.slot))
    ++ ((s.hart.claim.map (·.places)).getD [] |>.filter fun p => p.hall == h).map (·.slot)

/-- Barriers of a group of n units take 2n records of 32 bytes at the end of its image. -/
def imagePages (spBytes n : Nat) : Nat := (spBytes + 64 * n + 4095) / 4096

/-- The images that pre-empted groups of a hall hold, as pages counted from the end of the region: the first page and the page
after the last. -/
def State.imagesHeld (s : State) (h : BitVec 4) : List (Nat × Nat) :=
  (s.units.filter fun u => !u.onHart && u.slotHall == h).map fun u => (u.image, u.image + imagePages u.spBytes u.size)

/-- The n lowest free slots of a hall, below its images; fewer when the region has no more. -/
def State.freeSlots (s : State) (h : BitVec 4) (n : Nat) : List Nat :=
  let used := s.slotsUsed h
  let room := (s.saveSize h - (((s.imagesHeld h).map (·.2)).foldl Nat.max 0) * 4096) / 2 ^ 19
  ((List.range (Nat.min room (used.length + n))).filter fun i => !used.contains i).take n

/-- The physical address of an image of n pages from page x, counted from the end of the region. -/
def State.imagePa (s : State) (h : BitVec 4) (x n : Nat) : Nat := s.savePa h + s.saveSize h - (x + n) * 4096

/-- The place nearest the end of the region for an image of n pages, clear of the images and the slots that are held. -/
def State.freeImage (s : State) (h : BitVec 4) (n : Nat) : Option Nat :=
  let held := s.imagesHeld h
  let slots := ((s.slotsUsed h).foldl (fun m i => Nat.max m (i + 1)) 0) * 2 ^ 19
  let clear (x : Nat) : Bool := held.all fun p => decide (x + n ≤ p.1) || decide (p.2 ≤ x)
  ((0 :: held.map (·.2)).filter fun x => clear x && decide (slots + (x + n) * 4096 ≤ s.saveSize h)).foldl
    (fun b x => match b with | none => some x | some y => some (Nat.min x y)) none

/-! ## The slot of a hart (Tables 21.6, 21.7) -/

/-- The CLAIM word: the result word of VCLAIM with the ceiling (Tables 8.1, 21.7). -/
def Claim.word (c : Claim) (lanes : Nat) : Word :=
  place c.dies.toNat 16 8 ||| place c.span.toNat 12 2 ||| place c.share.toNat 10 2 ||| place lanes 0 8

/-- The hart waits in a BARSYN that has arrived, or in a PHASE that it has joined: the generation it awaits
(R321). -/
def Hart.joined (h : Hart) : Option Nat :=
  match h.wait with
  | some (.barrier _ gen _) => some gen.toNat
  | some (.phase _ n) => some n
  | _ => none

/-- The address of a wait that is joined, and its generation: of this wait, or of one that a resumption brought and that the hart has
not reached again (R321). -/
def Hart.joinedAt (h : Hart) : Option (Word × BitVec 32) :=
  match h.joined with
  | some n => some (h.pc, BitVec.ofNat 32 n)
  | none => h.rejoin

/-- The first failing element's address of the store-error list (SEVA). -/
def Hart.seva (h : Hart) : Word :=
  match h.seq with
  | [] => 0#64
  | e :: _ => setField e.va 0 (BitVec.ofNat 6 (((List.range 64).find? fun i => e.mask.getLsbD i).getD 0))

/-- The words of the header from 0 to 0x258, every one that Table 21.7 names at its offset. -/
def Hart.header (h : Hart) : List Word :=
  let k (n : Nat) : Word := match h.k[n]? with | some c => c.word | none => 0#64
  (0#64 :: (upTo 1 32).map fun n => (h.g[n]?).getD 0#64)
  ++ [ h.pc,
       place (bit (h.joinedAt.any fun p => p.1 == h.pc)) 3 1 ||| place (bit (h.seq != [])) 2 1 ||| place h.mode.code 0 2,
       BitVec.ofNat 64 h.vl, BitVec.ofNat 64 h.vstart, h.vmode, h.vstat, h.fstat, BitVec.ofNat 64 h.vcap, h.srseed, h.srbase,
       (match h.claim with | some c => c.word c.ceiling | none => 0#64),
       BitVec.ofNat 64 h.vlw ]
  ++ (upTo 1 8).map k
  ++ [ h.wakes, h.sset.evec, h.sset.epc, h.sset.ecause, h.sset.eval, h.sset.estat,
       (match h.joinedAt with | some p => if p.1 = h.pc then p.2.setWidth 64 else 0#64 | none => 0#64) ]
  ++ List.replicate 6 0#64
  ++ (List.range 8).map (fun i => (List.range 4).foldl (fun w j => w ||| place ((h.hwm[4 * i + j]?).getD 0) (16 * j) 16) 0#64)
  ++ [h.seva, BitVec.ofNat 64 h.seq.length, h.fired, h.armed]

/-- An OLGATH descriptor in its 512 bytes (R176; the layout: log 18). -/
def descWords (d : Option OlgathDesc) : List Word :=
  match d with
  | none => List.replicate 64 0#64
  | some d =>
    [d.base, d.pitch, d.act, 1#64 <<< 63 ||| place d.reached 32 8 ||| place d.vl 0 8]
    ++ (List.range 32).map (fun i => place (d.idx.getD (2 * i + 1) 0#32).toNat 32 32 ||| place (d.idx.getD (2 * i) 0#32).toNat 0 32)
    ++ [d.todo] ++ List.replicate 27 0#64

/-- The descriptor that 64 words hold. -/
def descOf (w : List Word) : Option OlgathDesc :=
  let c := wordAt w 3
  if !c.getLsbD 63 then none
  else some
    { base := wordAt w 0, pitch := wordAt w 1, act := wordAt w 2, vl := fieldNat c 0 8, reached := fieldNat c 32 8
      idx := (List.range 64).map fun i => BitVec.ofNat 32 (fieldNat (wordAt w (4 + i / 2)) (32 * (i % 2)) 32)
      todo := wordAt w 36, resumeAt := none }

/-- The bytes of n bits from bit lo. -/
def bitBytes {w : Nat} (x : BitVec w) (lo n : Nat) : List Byte := leBytes (n / 8) (fieldNat x lo n)

/-- The store-error list (R89). -/
def seqWords (l : List StoreError) : List Word :=
  l.flatMap fun e => [setField e.va 0 (e.lsz.setWidth 6), e.mask]

/-- The blocks of one span position: masks m1 to m7 and the vector registers, each up to its mark. -/
def Hart.blocks (h : Hart) (pos : Nat) : List (Nat × List Byte) :=
  ((upTo 1 8).map fun n => (0x2000 + (n - 1) * 2048, bitBytes ((h.m[n]?).getD 0#131072) (pos * 16384) 16384))
  ++ ((List.range 32).map fun n =>
      (0x16000 + n * 8192, bitBytes ((h.v[n]?).getD 0#524288) (pos * h.vlmaxb * 8) (Nat.min h.vlmaxb (8 * (h.hwm[n]?).getD 0) * 8)))

/-- The pieces of the slot of a hart whose own block is span position `own`: offset and bytes. -/
def Hart.pieces (h : Hart) (own : Nat) : List (Nat × List Byte) :=
  [ (0, wordsBytes h.header),
    (0x1800, wordsBytes (descWords ((h.ldesc[0]?).getD none))), (0x1A00, wordsBytes (descWords ((h.ldesc[1]?).getD none))) ]
  ++ h.blocks own
  ++ ((List.range 4).map fun n => (0x6000 + n * 16384, bitBytes ((h.z[n]?).getD 0#131072) 0 131072))
  ++ [(0x56000, wordsBytes (seqWords h.seq))]

/-- The byte of a hart slot at an offset, as the pieces give it. -/
def pieceByte (l : List (Nat × List Byte)) (off : Nat) : Byte :=
  match l.find? fun p => decide (p.1 ≤ off) && decide (off < p.1 + p.2.length) with
  | some p => p.2.getD (off - p.1) 0#8
  | none => 0#8

/-- Write pieces into memory. -/
def State.writePieces (s : State) (base : Nat) (l : List (Nat × List Byte)) : State :=
  l.foldl (fun s p => s.putBytes (base + p.1) p.2) s

/-- A word of a slot in memory. -/
def State.slotWord (s : State) (base off : Nat) : Word := s.word (base + off)

/-- The bits of n bytes in memory. -/
def State.bitsAt (s : State) (a n w : Nat) : BitVec w := BitVec.ofNat w (leNat (s.bytes a n))

/-- The counter that a slot word holds (Table 3.2). -/
def counterOf (w : Word) : Counter := { count := w.extractLsb' 0 32, err := w.getLsbD 32, status := w.extractLsb' 33 4 }

/-- A completion that finds its unit pre-empted lands on the counter in its slot (R189, R322). -/
def State.completeInSlot (s : State) (u : UnitRec) (k : BitVec 3) (status : BitVec 4) : State :=
  if k = 0#3 then s
  else
    let a := s.slotPa u.slotHall u.slot + 0x160 + 8 * (k.toNat - 1)
    s.putWord a ((counterOf (s.word a)).complete status).word

/-! ## Restoring (R324) -/

/-- The registers that a slot header gives back. The claim, the lengths and the vector state are the caller's. -/
def State.headerHart (s : State) (base : Nat) (h : Hart) : Hart :=
  let w (off : Nat) : Word := s.slotWord base off
  let n (off : Nat) : Nat := (w off).toNat
  { h with
    g := Vector.ofFn fun i => w (8 * i.val)
    pc := w 0x100
    mode := (Mode.ofCode (fieldNat (w 0x108) 0 2)).getD .a
    vl := n 0x110, vstart := n 0x118 % 131072, vmode := w 0x120 &&& 0x1FFF#64, vstat := w 0x128 &&& 0xFF#64
    fstat := w 0x130 &&& 0x1FF#64, vcap := vcapStored (n 0x138)
    srseed := w 0x140, srbase := w 0x148, vlw := fieldNat (w 0x158) 0 8
    k := Vector.ofFn fun i => if i.val = 0 then Counter.reset else counterOf (w (0x160 + 8 * (i.val - 1)))
    wakes := w 0x198
    sset := { evec := setField (w 0x1A0) 0 0#2, epc := w 0x1A8, ecause := w 0x1B0 &&& 0xFFFF#64, eval := w 0x1B8, estat := w 0x1C0 &&& 0x1F#64 }
    fired := w 0x250 ||| w 0x258, armed := 0#64, armedPa := []
    ldesc := Vector.ofFn fun i => descOf ((List.range 64).map fun j => w (0x1800 + 512 * i.val + 8 * j))
    seq := (List.range (fieldNat (w 0x248) 0 9)).map fun i =>
      let v := w (0x56000 + 16 * i)
      { va := setField v 0 0#6, lsz := v.extractLsb' 0 3, mask := w (0x56008 + 16 * i) }
    z := Vector.ofFn fun i => s.bitsAt (base + 0x6000 + 16384 * i.val) 16384 131072
    l := Vector.replicate 2 0#65536 }

/-- A register under a new visible length: at each span position the bytes below it keep their values (R140). -/
def relayoutReg (positions old new : Nat) (v : VReg) : VReg :=
  (List.range positions).foldl (fun (r : VReg) p =>
    setField r (p * new * 8) (BitVec.ofNat (Nat.min old new * 8) (fieldNat v (p * old * 8) (Nat.min old new * 8)))) 0#524288

/-- The vector registers and masks of a hart that resumes with a visible length of `len` bytes at each span
position, and had one of `saved` at the save: the blocks of its positions lie in these slots, its marks in the header of its own;
each register changes its length as SETVL does (R140), and each mark is clipped. -/
def State.restoreBlocks (s : State) (slots : List Nat) (base saved len : Nat) (h : Hart) : Hart :=
  let mark (r : Nat) : Nat := fieldNat (s.word (base + 0x200 + 2 * r / 8 * 8)) (16 * (r % 4)) 16
  let block (r : Nat) (a : Nat) : Nat := leNat (s.bytes (a + 0x16000 + 8192 * r) (Nat.min saved (8 * mark r)))
  let v (r : Nat) : VReg := (slots.zipIdx).foldl (fun (x : VReg) p => setField x (p.2 * saved * 8) (BitVec.ofNat (saved * 8) (block r p.1))) 0#524288
  { h with
    vlmaxb := len
    v := Vector.ofFn fun i => relayoutReg slots.length saved len (v i.val)
    hwm := Vector.ofFn fun i => Nat.min (mark i.val) (len / 8)
    m := Vector.ofFn fun i =>
      if i.val = 0 then 0#131072
      else (slots.zipIdx).foldl (fun m p => setField m (p.2 * 16384) (s.bitsAt (p.1 + 0x2000 + 2048 * (i.val - 1)) 2048 16384)) 0#131072 }

/-! ## Group images (R322, R324) -/

/-- One cluster barrier in an image: GEN, TGT, LOST and scope as the census gives them; ARR and the members,
the arrived and the leaving by group position; the status of the latest completion (log 18). -/
def barrierWords (b : Barrier) (first : Nat) : List Word :=
  let set (l : List UnitKey) : Nat := l.foldl (fun m u => m ||| 2 ^ (u.idx - first)) 0
  [ place b.scope.toNat 49 3 ||| place (bit b.lost) 48 1 ||| place b.tgt 32 16 ||| place b.gen.toNat 0 32,
    place (set b.leaving) 32 8 ||| place (set b.arrived) 24 8 ||| place (set b.members) 16 8 ||| place b.arr 0 16,
    place (bit b.last.2.2) 48 1 ||| place b.last.2.1 32 16 ||| place b.last.1.toNat 0 32,
    0#64 ]

/-- The barrier that four words hold, for the group of these units. -/
def barrierOf (w : List Word) (unit : Nat → UnitKey) : Barrier :=
  let set (lo : Nat) : List UnitKey := ((List.range 8).filter fun i => (wordAt w 1).getLsbD (lo + i)).map unit
  { gen := (wordAt w 0).extractLsb' 0 32, tgt := fieldNat (wordAt w 0) 32 16, lost := (wordAt w 0).getLsbD 48
    scope := (wordAt w 0).extractLsb' 49 3, arr := fieldNat (wordAt w 1) 0 16
    members := set 16, arrived := set 24, leaving := set 32
    last := ((wordAt w 2).extractLsb' 0 32, fieldNat (wordAt w 2) 32 16, (wordAt w 2).getLsbD 48) }

/-- The key of cluster barrier n of a unit's group. -/
def UnitRec.barrierKey (u : UnitRec) (n : Nat) : BitVec 10 × BitVec 32 × Nat × Nat := (u.key.vf, u.key.serial, u.group, n)

/-- The cluster barrier n of a group. -/
def State.groupBarrier (s : State) (u : UnitRec) (n : Nat) : Barrier :=
  (alFind (u.barrierKey n) ((s.hall u.hall).cluster u.cluster).barriers).getD Barrier.reset

/-- The unit of a group at a position. -/
def UnitRec.peer (u : UnitRec) (i : Nat) : UnitKey := { u.key with idx := u.key.idx - u.pos + i }

/-- Write the image of a group: scratchpad with its poison, then its barriers. -/
def State.writeImage (s : State) (u : UnitRec) (page : Nat) : State :=
  let a := s.imagePa u.slotHall page (imagePages u.spBytes u.size)
  let bs := (List.range (2 * u.size)).flatMap fun n => barrierWords (s.groupBarrier u n) (u.key.idx - u.pos)
  (s.moveBytes (spPa s.chip u.hall u.cluster u.spOff) a u.spBytes).putBytes (a + u.spBytes) (wordsBytes bs)

/-- Restore the image of a group on a cluster. -/
def State.readImage (s : State) (u : UnitRec) (h : BitVec 4) (c : BitVec 5) : State :=
  let a := s.imagePa u.slotHall u.image (imagePages u.spBytes u.size)
  let s := s.moveBytes a (spPa s.chip h c u.spOff) u.spBytes
  (List.range (2 * u.size)).foldl (fun s n =>
    let b := barrierOf ((List.range 4).map fun j => s.word (a + u.spBytes + 32 * n + 8 * j)) u.peer
    s.onCluster h c fun x => { x with barriers := alSet (u.barrierKey n) b x.barriers }) s

end Sys2Proof.Machine
end

