-- ==== Sys2Proof/Machine/Context.lean ====
section
/-! DEFINITION. Context.lean: placing groups, span positions, context save and resumption (R54, R138, R212,
R220, R308, R320 to R325). -/

namespace Sys2Proof.Machine

/-! ## Room on a cluster (R212, R214, R308) -/

/-- Bytes of a group's range: SPBYTES rounded up to 4 KiB. -/
def Launch.spBytes (l : Launch) : Nat := roundUp (l.fld 0x18 0 32) 4096
/-- GROUP of a launch. -/
def Launch.group (l : Launch) : Nat := l.fld 0x10 24 4
/-- LANES of a launch. -/
def Launch.lanes (l : Launch) : Nat := l.fld 0x10 16 8
/-- SHARE of a launch. -/
def Launch.share (l : Launch) : BitVec 2 := (wordAt l.words 2).extractLsb' 12 2
/-- Groups of a launch. -/
def Launch.groups (l : Launch) : Nat := (l.units + l.group - 1) / l.group
/-- The size of group j: the last may be smaller. -/
def Launch.sizeOf (l : Launch) (j : Nat) : Nat := Nat.min l.group (l.units - j * l.group)

/-- The scratchpad range x .. x+n−1 of a cluster is free. -/
def State.rangeFree (s : State) (h : BitVec 4) (c : BitVec 5) (x n : Nat) : Bool :=
  decide (x + n ≤ 2 ^ 21) && (s.placedUnits h c).all fun u =>
    u.spBytes == 0 || n == 0 || decide (x + n ≤ u.spOff) || decide (u.spOff + u.spBytes ≤ x)

/-- The lowest free range of n bytes. -/
def State.freeRange (s : State) (h : BitVec 4) (c : BitVec 5) (n : Nat) : Option Nat :=
  ((0 :: (s.placedUnits h c).map fun u => u.spOff + u.spBytes).filter fun x => s.rangeFree h c x n).foldl
    (fun b x => match b with | none => some x | some y => some (Nat.min x y)) none

/-- Harts of a cluster that neither hold a unit nor are stopped, ascending; each span position there takes one of them, the highest
first (R220). -/
def State.freeHarts (s : State) (h : BitVec 4) (c : BitVec 5) : List (BitVec 3) :=
  let free := ((List.range 8).map (BitVec.ofNat 3)).filter fun n =>
    !((s.placedUnits h c).any fun u => u.hart == n) && !((s.hall h).cluster c).stopped.getLsbD n.toNat
  free.take (free.length - (s.placed h c - (s.placedUnits h c).length))

/-- A group of n units of a VF, each wanting these lanes and this share, has room on a cluster, but for its
scratchpad range and its slots (R212, R214, R308). -/
def State.roomFor (s : State) (v : BitVec 10) (h : BitVec 4) (c : BitVec 5) (n lanes : Nat) (share : BitVec 2) : Bool :=
  let x := (s.hall h).cluster c
  (s.hall h).st == .running && s.owns (s.tenantOf v) h
    && (s.placedUnits h c).all (fun u => u.key.vf == v)
    && decide (s.placed h c + n ≤ 8) && decide (n ≤ (s.freeHarts h c).length)
    && decide (8 ≤ x.healthy) && decide (8 * (s.placed h c + n) ≤ Nat.min x.cap x.healthy)
    && decide (((x.shares (s.unclaimed h c)).map (·.granted)).sum + n * Nat.max lanes 8 ≤ x.budget (s.unclaimed h c))
    && (share == 0#2 || sharesFit x.mapart ((x.claims.map (·.share)).filter (· != 0#2) ++ List.replicate n share))

/-- A new group of a launch fits a cluster: where its scratchpad range goes (R308, R319). -/
def State.fitsAt (s : State) (l : Launch) (j : Nat) (h : BitVec 4) (c : BitVec 5) : Option Nat :=
  let n := l.sizeOf j
  if s.roomFor l.vf h c n l.lanes l.share && (s.freeSlots h n).length == n then s.freeRange h c l.spBytes else none

/-! ## Starting a unit (R54) -/

/-- The registers of a unit at its start. -/
def State.startHart (s : State) (u : UnitRec) (l : Launch) : Hart :=
  let graph := l.fld 0x20 48 16
  let window := setField (s.vf u.key.vf).xalias 0 0#21
  let g0 := Vector.replicate 32 0#64
  let set (g : Vector Word 32) (i : Nat) (x : Word) : Vector Word 32 := g.setIfInBounds i x
  let g := set (set (set (set (set g0 3 (wordAt l.words 1)) 4 (BitVec.ofNat 64 u.key.idx)) 5 (BitVec.ofNat 64 l.units))
    6 (BitVec.ofNat 64 u.pos)) 7 (BitVec.ofNat 64 u.size)
  { Hart.reset with
    g := g
    pc := wordAt l.words 0
    vcap := (s.vf u.key.vf).vcap
    uid := place u.pos 32 3 ||| place u.key.idx 0 32
    lid := place u.key.serial.toNat 32 32 ||| place u.key.vf.toNat 16 10 ||| place graph 0 16
    spbase := window + BitVec.ofNat 64 u.spOff
    unit := some u.key }

/-- The hart of this model is where the unit stands. -/
def State.isMine (s : State) (u : UnitRec) : Bool := s.isHart u.hall u.cluster u.hart

/-- Give the hart to a unit: what an earlier unit posted is performed first. The P set stays with the physical hart (R320; R54 read
with it, log 76). -/
def State.takeHart (s : State) (h : Hart) : State := { s.settleAll with hart := h, ra := none }

/-- Place group j of a launch on a cluster, with its range at x (R198, R212): one unit for each of the lowest free
harts and slots. -/
def State.placeGroup (s : State) (l : Launch) (j : Nat) (h : BitVec 4) (c : BitVec 5) (x eff : Nat) : State :=
  let n := l.sizeOf j
  let us := ((List.range n).zip ((s.freeHarts h c).zip (s.freeSlots h n))).map fun p =>
    ({ key := { vf := l.vf, serial := l.serial, idx := j * l.group + p.1 }, group := j, pos := p.1, size := n, st := .placed,
       hall := h, cluster := c, hart := p.2.1, slotHall := h, slot := p.2.2, spOff := x, spBytes := l.spBytes,
       lanes := l.lanes, share := l.share, eff := eff, placedAt := s.nextId, preempt := false, places := [], image := 0, spbase := 0#64, saved := 0, own := 0,
       rejoin := none, warm := none } : UnitRec)
  let bar0 : Barrier := { Barrier.reset with tgt := n, scope := 0#3, members := us.map (·.key) }
  let bars := (List.range (2 * n)).map fun i => ((l.vf, l.serial, j, i), if i = 0 then bar0 else { Barrier.reset with scope := 0#3 })
  let s : State := { s with units := s.units ++ us, nextId := s.nextId + 1 }
  let s := s.onCluster h c fun y => { y with barriers := y.barriers ++ bars }
  match us.find? s.isMine with
  | some u => s.takeHart (s.startHart u l)
  | none => s

/-! ## Spans (R138, R220) -/

/-- The lowest hall and cluster of a die, in a hall of the tenant, that has these lanes free for a position. -/
def State.spanSite (s : State) (t : BitVec 16) (die lanes : Nat) : Option (BitVec 4 × BitVec 5) :=
  let fits (p : BitVec 4 × BitVec 5) : Bool :=
    let x := (s.hall p.1).cluster p.2
    let u := s.unclaimed p.1 p.2
    (s.hall p.1).st == .running && s.owns t p.1 && decide (s.placed p.1 p.2 < 8) && decide (8 ≤ x.healthy)
      && decide (8 * (s.placed p.1 p.2 + 1) ≤ Nat.min x.cap x.healthy)
      && decide (((x.shares u).map (·.granted)).sum + lanes ≤ x.budget u) && (s.freeSlots p.1 1).length == 1
  ([2 * die, 2 * die + 1].flatMap fun h => (List.range 32).map fun c => (BitVec.ofNat 4 h, BitVec.ofNat 5 c)).find? fits

/-- Where the remote positions of a span would lie; none when some die has no room or is not the tenant's. -/
def State.spanPlaces (s : State) (t : BitVec 16) (dies : BitVec 8) (lanes : Nat) : Option (List Place) :=
  ((List.range 8).filter fun d => dies.getLsbD d && d != s.myHall.toNat / 2).foldr
    (fun d acc => match acc, s.spanSite t d lanes with
      | some l, some (h, c) => some ({ hall := h, cluster := c, slot := (s.freeSlots h 1).headD 0 } :: l)
      | _, _ => none) (some [])

/-- Count the claim of the hart in its cluster and in the clusters of its span (R214, R216, R220). -/
def State.addClaims (s : State) (c : Claim) : State :=
  let s := s.onCluster s.myHall s.myCluster fun x =>
    { x with claims := x.claims ++ [{ hart := s.myHart.toNat, ceiling := c.ceiling, granted := c.grant, share := c.share }] }
  c.places.foldl (fun t p => t.onCluster p.hall p.cluster fun x =>
    { x with claims := x.claims ++
        [{ hart := spanSlot s.myHall s.myCluster s.myHart, ceiling := c.ceiling, granted := c.grant, share := 0#2 }] }) s

/-- GrantNow: the share of the hart, or of a span the smallest of its shares (R140, R215). -/
def State.grantNow (s : State) (c : Claim) : Nat :=
  let own := ((s.hall s.myHall).cluster s.myCluster).shareOf (s.unclaimed s.myHall s.myCluster) s.myHart.toNat
  c.places.foldl (fun m p =>
    Nat.min m (((s.hall p.hall).cluster p.cluster).shareOf (s.unclaimed p.hall p.cluster) (spanSlot s.myHall s.myCluster s.myHart))) own

/-- The lanes now granted, as the pools count them (R217). -/
def State.noteGrant (s : State) (c : Claim) (lanes : Nat) : State :=
  let upd (k : Nat) (x : Cluster) : Cluster :=
    { x with claims := x.claims.map fun q => if q.hart = k then { q with granted := lanes } else q }
  let s := s.onCluster s.myHall s.myCluster (upd s.myHart.toNat)
  let s := c.places.foldl (fun t p => t.onCluster p.hall p.cluster (upd (spanSlot s.myHall s.myCluster s.myHart))) s
  s.onHart fun h => { h with claim := some { c with grant := lanes } }

/-! ## Context save (R320 to R322) -/

/-- Steps 1 to 5 for the hart: what it waits for stays its PC, non-blocking operations complete, everything
covered is performed, and the slots of its positions are written. -/
def State.saveHart (s : State) (u : UnitRec) : State :=
  let s := (s.rollback.completeVecs fun _ => true).settleAll
  let s := match s.hart.wait with
    | some (.held tok) => s.unhold s.myHall tok
    | _ => s
  let own := match s.hart.claim with | some c => c.own s.myHall | none => 0
  let places := match s.hart.claim with | some c => c.places | none => []
  let s' := s.writePieces (s.slotPa u.slotHall u.slot) (s.hart.pieces own)
  (places.zipIdx).foldl (fun t p =>
    t.writePieces (t.slotPa p.1.hall p.1.slot) (s.hart.blocks (spanPos own p.2))) s'

/-- The units of a group. -/
def State.groupOf (s : State) (v : BitVec 10) (serial : BitVec 32) (group : Nat) : List UnitRec :=
  s.units.filter fun u => u.key.vf == v && u.key.serial == serial && u.group == group

/-- The hart can stop now: it is not in mode P, nor inside a blocking engine command (R318, R320), and its store-error queue takes
every response that it still awaits (R89, R322). -/
def State.canStop (s : State) : Bool :=
  s.hart.mode != .p && !s.hart.stopped && s.settleAll.hart.posted.isEmpty && (match s.hart.wait with | some (.engine _) => false | _ => true)

/-- The record of a unit that is pre-empted, with its image at a page and, for the one on the hart, what its hart keeps there. -/
def UnitRec.stopped (u : UnitRec) (page : Nat) (on : Option (Hart × BitVec 4)) : UnitRec :=
  let u := { u with st := .preempted, preempt := false, image := page }
  match on with
  | none => u
  | some (h, hall) =>
    { u with
      places := (h.claim.map (·.places)).getD [], own := (h.claim.map fun c => c.own hall).getD 0
      saved := h.vlmaxb, spbase := h.spbase, rejoin := h.joinedAt, warm := h.warm }

/-- Save a whole group that was asked to stop (R322): its harts, its image; then its claims, its range and its
barrier slots return. Nothing happens while one of its harts cannot stop, or when the region has no room. -/
def State.saveGroup (s : State) (v : BitVec 10) (serial : BitVec 32) (group : Nat) : State :=
  let us := s.groupOf v serial group
  match us with
  | [] => s
  | u0 :: _ =>
    let mine := us.find? fun u => s.isMine u && s.hart.unit == some u.key
    match s.freeImage u0.slotHall (imagePages u0.spBytes u0.size) with
    | none => s
    | some page =>
      if !(us.all fun u => u.onHart && u.preempt) || (mine.isSome && !s.canStop) then s
      else
        let s := match mine with | some u => s.saveHart u | none => s
        let h := s.hart
        let s := s.writeImage u0 page
        let s := us.foldl (fun s u => s.dropClaims u.hall u.cluster u.hart) s
        let stop (u : UnitRec) : UnitRec :=
          if u.key.vf = v && u.key.serial = serial && u.group = group then
            u.stopped page (if h.unit = some u.key then some (h, s.myHall) else none)
          else u
        let s : State := { s with units := s.units.map stop }
        let s := s.onCluster u0.hall u0.cluster fun c =>
          { c with barriers := c.barriers.filter fun p => !(p.1.1 == v && p.1.2.1 == serial && p.1.2.2.1 == group) }
        if mine.isSome then s.onHart Hart.release else s

/-- CONTEXT_SAVE (R322). -/
def execContextSave (vf : BitVec 10) (serial : BitVec 32) (group : Nat) (s : State) := happened (s.saveGroup vf serial group)

/-- PREEMPTION_TIMEOUT (R310): the pre-emption that was asked for is taken. -/
def execPreemptionTimeout (vf : BitVec 10) (serial : BitVec 32) (group : Nat) (s : State) :=
  happened (s.saveGroup vf serial group)

/-! ## Resumption (R323, R324) -/

/-- A group may resume on a cluster: its range is free there, and tile storage holds every saved share. -/
def State.canResume (s : State) (us : List UnitRec) (h : BitVec 4) (c : BitVec 5) : Bool :=
  match us with
  | [] => false
  | u0 :: _ =>
    let shares := us.map fun u => (s.word (s.slotPa u.slotHall u.slot + 0x150)).extractLsb' 10 2
    us.all (fun u => !u.onHart) && s.roomFor u0.key.vf h c us.length 8 0#2 && s.rangeFree h c u0.spOff u0.spBytes
      && sharesFit ((s.hall h).cluster c).mapart
          ((((s.hall h).cluster c).claims.map (·.share) ++ shares).filter (· != 0#2))

/-- Reclaim the lanes, the share and the span of a hart that resumes (R324 step 2). -/
def State.reclaim (s : State) (v : BitVec 10) (w : Word) : State × Option Claim :=
  if w = 0#64 then (s, none)
  else
    let c := (s.hall s.myHall).cluster s.myCluster
    let most := c.grantFor (s.unclaimed s.myHall s.myCluster - 1) (fieldNat w 0 8)
    let span := w.extractLsb' 12 2
    let sites (n : Nat) := s.spanPlaces (s.tenantOf v) (w.extractLsb' 16 8) n
    let lanes := if span = 0#2 then most
      else (([128, 64, 32, 16, 8].filter fun n => decide (n ≤ most) && (sites n).isSome).head?).getD 8
    let places := if span = 0#2 then [] else (sites lanes).getD []
    let claim : Claim := { ceiling := lanes, grant := lanes, share := w.extractLsb' 10 2, span := span, dies := w.extractLsb' 16 8,
                           places := places }
    (s.addClaims claim, some claim)

/-- Steps 2 to 8 for the hart that now runs the unit. -/
def State.resumeHart (s : State) (u : UnitRec) : State :=
  let base := s.slotPa u.slotHall u.slot
  let (s, claim) := s.reclaim u.key.vf (s.slotWord base 0x150)
  let h := s.headerHart base { Hart.reset with
    uid := place u.pos 32 3 ||| place u.key.idx 0 32
    lid := place u.key.serial.toNat 32 32 ||| place u.key.vf.toNat 16 10
      ||| place ((s.launch? u.key.vf u.key.serial).map (fun l => l.fld 0x20 48 16) |>.getD 0) 0 16
    spbase := u.spbase, unit := some u.key, claim := claim, warm := u.warm }
  let len := if claim.isNone then 0 else Nat.min ((claim.map (·.grant)).getD 0 * 64) h.vcap
  let positions := (claim.map fun c => 2 ^ c.span.toNat).getD 1
  let remote := u.places.map fun p => s.slotPa p.hall p.slot
  let h := s.restoreBlocks (remote.take u.own ++ [base] ++ remote.drop u.own) base u.saved len h
  let h := { h with
    rejoin := if (s.slotWord base 0x108).getLsbD 3 then some (h.pc, (s.slotWord base 0x1C8).extractLsb' 0 32) else u.rejoin
    vl := if h.vlw = 0 then h.vl else Nat.min h.vl (positions * len * 8 / h.vlw)
    ldesc := h.ldesc.map fun d => d.map fun d => { d with todo := BitVec.allOnes 64, resumeAt := some h.pc } }
  s.takeHart h

/-- A group may resume on a cluster (R323): canResume, and the dies of a span have room. -/
def State.mayResume (s : State) (v : BitVec 10) (serial : BitVec 32) (group : Nat) (h : BitVec 4) (c : BitVec 5) : Bool :=
  let us := s.groupOf v serial group
  s.canResume us h c && (us.zip (s.freeHarts h c)).all fun p =>
    let w := s.word (s.slotPa p.1.slotHall p.1.slot + 0x150)
    !(s.isHart h c p.2) || w.extractLsb' 12 2 == 0#2
      || (w.getLsbD (16 + h.toNat / 2) && (s.spanPlaces (s.tenantOf v) (w.extractLsb' 16 8) 8).isSome)

/-- A slot of a unit holds what failed its check (R388, R389). -/
def State.slotBad (s : State) (u : UnitRec) : Bool :=
  (s.slotPa u.slotHall u.slot :: u.places.map fun p => s.slotPa p.hall p.slot).any fun a => s.poisoned a (2 ^ 19)

/-- A unit whose registers failed their check is killed, with a log entry of source 4 (R388). -/
def State.loseUnit (s : State) (u : UnitRec) : State :=
  (s.killUnit u.key).logError u.hall { s.errorEntry 4 0 true 0#64 with cluster := u.cluster, hart := u.hart }

/-- Resume a group on a cluster (R323, R324); nothing where it may not. A span whose dies have no room keeps the
group waiting (R323). Its units enter Resumed and, in the same step, Running (Table 12.1); one whose slot is bad is killed as it
resumes (R388). -/
def State.resumeGroup (s : State) (v : BitVec 10) (serial : BitVec 32) (group : Nat) (h : BitVec 4) (c : BitVec 5) : State :=
  let us := s.groupOf v serial group
  match us with
  | [] => s
  | u0 :: _ =>
    if !s.mayResume v serial group h c then s
    else
      let us' := (us.zip (s.freeHarts h c)).map fun p =>
        { p.1 with st := .running, hall := h, cluster := c, hart := p.2, placedAt := s.nextId }
      let s := s.readImage u0 h c
      let s : State := { s with
        nextId := s.nextId + 1
        units := s.units.map fun u => (us'.find? fun w => w.key == u.key).getD u }
      let t := match us'.find? s.isMine with
        | some u => s.resumeHart u
        | none => s
      (us'.filter s.slotBad).foldl State.loseUnit t

end Sys2Proof.Machine
end

