-- ==== Sys2Proof/Machine/Dispatcher.lean ====
section
/-! DEFINITION. Dispatcher.lean: work queues, admission, graphs, cancellation, selection and placement
(R208, R298 to R311). -/

namespace Sys2Proof.Machine

/-! ## Queues (R298, R299) -/

/-- EN of a queue. -/
def Queue.en (q : Queue) : Bool := q.cfg.getLsbD 63
/-- WEIGHT of a queue. -/
def Queue.weight (q : Queue) : Nat := fieldNat q.cfg 48 8
/-- HOME of a queue. -/
def Queue.home (q : Queue) : BitVec 4 := q.cfg.extractLsb' 28 4
/-- HALLS of a queue. -/
def Queue.halls (q : Queue) : BitVec 16 := q.cfg.extractLsb' 32 16
/-- Slots of a ring. -/
def Queue.slots (q : Queue) : Nat := 2 ^ fieldNat q.cfg 24 4
/-- AGE of a queue. -/
def Queue.age (q : Queue) : Nat := fieldNat q.cfg 8 12
/-- PRIO of a queue. -/
def Queue.prio (q : Queue) : Nat := fieldNat q.cfg 0 3
/-- The ring is full. -/
def Queue.full (q : Queue) : Bool := decide (q.slots ≤ (q.tail - q.head).toNat)
/-- The virtual address of slot i. -/
def Queue.slotVa (q : Queue) (i : BitVec 32) : Word := setField q.base 0 0#12 + BitVec.ofNat 64 (128 * (i.toNat % q.slots))

/-- The value that a QCFG write stores (Table 20.1); LOG2SLOTS stays while EN is 1 (R299). -/
def State.qcfgStored (s : State) (v : BitVec 10) (old x : Word) : Word :=
  place (fieldNat x 63 1) 63 1 ||| place (Nat.max 1 (fieldNat x 48 8)) 48 8
    ||| place (x.extractLsb' 32 16 &&& s.hallMask (s.tenantOf v)).toNat 32 16 ||| place (fieldNat x 28 4) 28 4
    ||| place (if old.getLsbD 63 then fieldNat old 24 4 else Nat.max 4 (fieldNat x 24 4)) 24 4 ||| place (fieldNat x 8 12) 8 12 ||| place (fieldNat x 0 3) 0 3

/-- QCFG_WRITE (R298). -/
def State.writeQcfg (s : State) (v : BitVec 10) (q : BitVec 7) (x : Word) : State :=
  s.onQueue v q fun y => { y with cfg := s.qcfgStored v y.cfg x }

/-- QCFG_WRITE (R298). -/
def execQcfgWrite (vf : BitVec 10) (q : BitVec 7) (value : Word) (s : State) := happened (s.writeQcfg vf q value)

/-- A QBASE write (R299): ignored while EN is 1. -/
def State.writeQbase (s : State) (v : BitVec 10) (q : BitVec 7) (x : Word) : State :=
  s.onQueue v q fun y => if y.en then y else { y with base := setField x 0 0#12 }

/-- The physical address of QPTR of a queue, in the VF block of a die (Tables 20.3, 30.2). -/
def State.qptrPa (s : State) (h : BitVec 4) (v : BitVec 10) (q : BitVec 7) : Nat :=
  mkPa s.chip (h.toNat / 2) 5 (0x800000 + 0x2000 * v.toNat + 0x1000 + 24 * q.toNat + 16)

/-- A TAIL write (R299), of a request from a hall at the address of QPTR: one that overfills the ring or moves TAIL backward is
ignored and logged. -/
def State.writeTail (s : State) (v : BitVec 10) (q : BitVec 7) (t : BitVec 32) (frm : BitVec 4) (pa : Nat) : State :=
  let x := (s.vf v).queue q
  if x.slots < (t - x.head).toNat || (t - x.head).toNat < (x.tail - x.head).toNat then
    s.logViolation x.home (s.violation pa frm v 4)
  else s.onQueue v q fun y => { y with tail := t }

/-- QPTR_TAIL_WRITE (R299). -/
def execQptrTailWrite (vf : BitVec 10) (q : BitVec 7) (tail : BitVec 32) (s : State) := 
  let h := ((s.vf vf).queue q).home
  happened (s.writeTail vf q tail h (s.qptrPa h vf q))

/-- A queue counts as enabled (R298, R350). -/
def State.queueOpen (s : State) (v : BitVec 10) (q : Queue) : Bool :=
  q.en && (s.vf v).en && s.hallMask (s.tenantOf v) != 0#16 && s.owns (s.tenantOf v) q.home

/-- The gate of a hall admits a request of a VF to the hall itself: it runs, and its owner is the VF's tenant (R344). -/
def State.hallAdmits (s : State) (v : BitVec 10) (h : BitVec 4) : Bool :=
  (s.hall h).st == .running && !(s.vf v).rstBusy && s.owns (s.tenantOf v) h

/-- Enqueue a launch record as LAUNCH does (R207, R299): 0 enqueued, 1 full, 2 disabled, 3 the slot cannot be
written, or the request to HOME ends with an error response (R344). -/
def State.enqueue (s : State) (v : BitVec 10) (q : BitVec 7) (rec : List Byte) : State × Nat :=
  let x := (s.vf v).queue q
  if !s.queueOpen v x then (s, 2)
  else if !s.hallAdmits v x.home then (s, 3)
  else if x.full then (s, 1)
  else match s.translate (some v) x.home .s .store (x.slotVa x.tail) with
    | .error _ => (s, 3)
    | .ok a =>
      if a.cls ≠ .nrm then (s, 3)
      else match s.writeHome (some v) x.home a.pa rec with
        | .error s' => (s', 3)
        | .ok s' => (s'.onQueue v q fun y => { y with tail := y.tail + 1 }, 0)

/-! ## Graphs (R305) -/

/-- The graph of a VF with an id. -/
def State.graph? (s : State) (v : BitVec 10) (id : BitVec 16) : Option Graph := s.graphs.find? fun g => g.vf == v && g.id == id

/-- Change a graph. -/
def State.onGraph (s : State) (v : BitVec 10) (id : BitVec 16) (f : Graph → Graph) : State :=
  { s with graphs := replaceFirst (fun g => g.vf == v && g.id == id) f s.graphs }

/-- GRAPH of a launch. -/
def Launch.graph (l : Launch) : BitVec 16 := (wordAt l.words 4).extractLsb' 48 16
/-- NODE of a launch. -/
def Launch.node (l : Launch) : Nat := l.fld 0x20 32 6
/-- NNODES of a launch. -/
def Launch.nnodes (l : Launch) : Nat := l.fld 0x20 24 8
/-- DEPS of a launch. -/
def Launch.deps (l : Launch) : Nat := l.fld 0x20 16 8
/-- PRIO of a launch. -/
def Launch.prio (l : Launch) : Nat := l.fld 0x20 0 3
/-- ERRSTOP of a launch. -/
def Launch.errstop (l : Launch) : Bool := (wordAt l.words 3).getLsbD 34
/-- PHNUM of a launch. -/
def Launch.phnum (l : Launch) : Nat := l.fld 0x40 32 12
/-- PHNODE of a launch. -/
def Launch.phnode (l : Launch) : Nat := l.fld 0x40 0 6
/-- The queue of a launch (R300). -/
def Launch.queue (l : Launch) : BitVec 7 := l.serial.extractLsb' 25 7

/-- The valid successors of a launch. -/
def Launch.succ (l : Launch) : List Nat :=
  ((List.range 8).filter fun j => (wordAt l.words 5).getLsbD (8 * j + 7)).map fun j => l.fld 0x28 (8 * j) 6

/-- The launch has been cancelled. -/
def Launch.cancelled (l : Launch) : Bool := match l.st with | .cancelled _ => true | _ => false

/-- The launch places no further unit: cancelled, or killed by a VF reset (R306, R311). -/
def Launch.dropped (l : Launch) : Bool := l.cancelled || l.st == .killed

/-- A node's remaining count. -/
def Graph.count (g : Graph) (n : Nat) : Int := (alFind n g.counts).getD 0

/-- Add to a node's remaining count. -/
def Graph.add (g : Graph) (n : Nat) (d : Int) : Graph := { g with counts := alSet n (g.count n + d) g.counts }

/-- Where a held launch's gate stands (R305): met, waiting, or never to be met. -/
inductive GateState where
  | met | unmet | never
deriving DecidableEq, Repr

/-- The phase gate of a launch. -/
def Graph.gate (g : Graph) (l : Launch) : GateState :=
  if l.phnum = 0 then .met
  else
    let ended := g.ended.any fun e => e.1 == l.phnode
    match alFind l.phnode g.phases with
    | some n => if l.phnum ≤ n || ended then .met else .unmet
    | none => if ended then .never else .unmet

/-- A launch gated on a phase that its node will not reach falls with it (R306). -/
def Graph.fells (g : Graph) (l : Launch) : Bool :=
  decide (l.phnum ≠ 0) && g.fallen.any fun p => p.1 == l.phnode && decide (p.2 < l.phnum)

/-- Cancel a launch: it is not placed any further, and ends once none of its units is left (R208, R306). Units
that wait or are pre-empted are killed at once; running ones stop at their next row (UNIT_KILL). Their engine commands
end with STATUS 4 (R188, R189). -/
def State.cancelLaunch (s : State) (v : BitVec 10) (serial : BitVec 32) (releases : Bool) : State :=
  let s := s.onLaunch v serial fun l => if l.dropped then l else { l with st := .cancelled releases }
  let mine (c : Cmd) : Bool := (c.owner.map fun u => u.vf == v && u.serial == serial).getD false
  let s : State := { s with cmds := s.cmds.map fun c => if mine c then c.cancel else c }
  let waits (u : UnitRec) : Bool :=
    u.st == .preempted || u.st == .waiting || (s.hart.unit == some u.key && s.hart.wait.isSome)
  s.killUnits fun u => u.key.vf == v && u.key.serial == serial && waits u

/-- Cancel what CANCEL level 0, or an error end with ERRSTOP, takes with a launch (R306): its successors, and
those gated on its phases. `level2`: only launches gated on phases it has not reached. -/
def State.cancelNode (s : State) (v : BitVec 10) (id : BitVec 16) (n : Nat) : State :=
  let s := s.onGraph v id fun g => { g with cancelNodes := natInsert n g.cancelNodes, fallen := (n, 0) :: g.fallen }
  match s.launches.find? fun l => l.vf == v && l.graph == id && l.node == n with
  | some l => s.cancelLaunch v l.serial false
  | none => s

/-- The nodes that fall with a set of nodes: successors and gated launches, `fuel` links deep. -/
def State.fallen (s : State) (v : BitVec 10) (id : BitVec 16) : Nat → List Nat → List Nat
  | 0, l => l
  | fuel + 1, l =>
    let next := s.launches.foldl (fun acc x =>
      if x.vf == v && x.graph == id then
        let acc := if acc.contains x.node then x.succ.foldl (fun a n => natInsert n a) acc else acc
        if x.phnum ≠ 0 && acc.contains x.phnode then natInsert x.node acc else acc
      else acc) l
    s.fallen v id fuel next

/-- Cancel every node that falls with these nodes; a graph has at most 64 nodes. -/
def State.cancelNodes (s : State) (v : BitVec 10) (id : BitVec 16) (l : List Nat) : State :=
  (s.fallen v id 64 l).foldl (fun s n => s.cancelNode v id n) s

/-! ## The end of a launch (R303 to R306) -/

/-- Write the graph word: running, or final once every node has ended, which closes the graph. -/
def State.writeGraphWord (s : State) (v : BitVec 10) (id : BitVec 16) : State :=
  match s.graph? v id with
  | none => s
  | some g =>
    let done := g.ended.length
    let erru := (g.ended.filter (·.2)).length
    let final := decide (g.nnodes ≤ done)
    let st := if !final then 1 else if g.cancelled then 4 else if erru = 0 then 2 else 3
    let s := s.dispatchWrite v g.home g.gcounter (completionWord st 0 erru done)
    if final then { s with graphs := s.graphs.filter fun x => !(x.vf == v && x.id == id) } else s

/-- A node ends (R303, R305, R306): `released` when its successors' counts fall, else they are cancelled, with the launches gated
on its phases. -/
def State.endNode (s : State) (l : Launch) (err released : Bool) : State :=
  let s := s.onGraph l.vf l.graph fun g => { g with ended := g.ended ++ [(l.node, err)] }
  let s := if released then s.onGraph l.vf l.graph fun g => l.succ.foldl (fun g n => g.add n (-1)) g
    else
      let gated := s.launches.filter fun x => x.vf == l.vf && x.graph == l.graph && x.phnum ≠ 0 && x.phnode == l.node
      (s.onGraph l.vf l.graph fun g => { g with fallen := (l.node, 0) :: g.fallen }).cancelNodes l.vf l.graph
        (l.succ ++ gated.map (·.node))
  s.writeGraphWord l.vf l.graph

/-- Settle the held launches of a graph: ready in their order, or cancelled when a gate can never be met. -/
def State.refreshGraph (s : State) (v : BitVec 10) (id : BitVec 16) : State :=
  match s.graph? v id with
  | none => s
  | some g =>
    (s.launches.filter fun l => l.vf == v && l.graph == id && l.st == .held).foldl (fun s l =>
      match g.gate l with
      | .never => s.cancelNode v id l.node
      | .unmet => s
      | .met =>
        if g.count l.node ≤ 0 then
          { s.onLaunch v l.serial (fun x => { x with st := .ready, order := s.nextId }) with nextId := s.nextId + 1 }
        else s) s

/-- The launch's units have all ended: final word, job counts, graph (R303 to R306). -/
def State.endLaunch (s : State) (l : Launch) : State :=
  let st := if l.cancelled then 4 else if l.erru = 0 then 2 else 3
  let s := s.writeLaunchWord l st
  let s := s.onVf l.vf fun f => if st = 2 then f else { f with errl := Nat.min 65535 (f.errl + 1) }
  let s : State := { s with launches := s.launches.filter fun x => !(x.vf == l.vf && x.serial == l.serial) }
  if l.graph = 0#16 then s
  else
    let released := match l.st with | .cancelled r => r | _ => st == 2 || !l.errstop
    (s.endNode l (st != 2) released).refreshGraph l.vf l.graph

/-- A launch is over: every unit has ended, or it places no more and none of its units is left. -/
def State.launchOver (s : State) (l : Launch) : Bool :=
  if l.dropped then !(s.units.any fun u => u.key.vf == l.vf && u.key.serial == l.serial)
  else decide (l.units ≤ l.done)

/-- End the launches of a VF that are over; each end may cancel further ones. -/
def State.endOver (s : State) (v : BitVec 10) : Nat → State
  | 0 => s
  | fuel + 1 =>
    match s.launches.find? fun l => l.vf == v && l.dropped && s.launchOver l with
    | none => s
    | some l => (s.endLaunch l).endOver v fuel

/-- LAUNCH_COMPLETION (R303). -/
def execLaunchCompletion (vf : BitVec 10) (serial : BitVec 32) (s : State) :=
  happened (match s.launch? vf serial with
    | some l => if s.launchOver l then (s.endLaunch l).endOver vf s.launches.length else s
    | none => s)

/-! ## CANCEL (R208, R306) -/

/-- CANCEL of a level by a VF: whether the named work existed, and the state after it. -/
def State.cancel (s : State) (v : BitVec 10) (level : BitVec 2) (name : Word) : State × Bool :=
  let serial := name.extractLsb' 0 32
  let id := name.extractLsb' 0 16
  let fuel := s.launches.length
  match level.toNat with
  | 0 =>
    match s.launch? v serial with
    | none => (s, false)
    | some l =>
      let s := if l.graph = 0#16 then s.cancelLaunch v serial false else (s.cancelLaunch v serial false).cancelNodes v l.graph [l.node]
      (s.endOver v fuel, true)
  | 1 =>
    match s.graph? v id with
    | none => (s, false)
    | some _ =>
      let s := s.onGraph v id fun g => { g with cancelled := true }
      let s := (s.launches.filter fun l => l.vf == v && l.graph == id).foldl (fun s l => s.cancelLaunch v l.serial false) s
      (s.endOver v fuel, true)
  | 2 =>
    match s.launch? v serial with
    | none => (s, false)
    | some l =>
      if !l.cohort then (s, false)
      else
        let s := s.cancelLaunch v serial true
        let gated := s.launches.filter fun x => x.vf == v && l.graph != 0#16 && x.graph == l.graph && x.phnum ≠ 0
          && x.phnode == l.node && decide (l.phase < x.phnum)
        let s := s.onGraph v l.graph fun g => { g with fallen := (l.node, l.phase) :: g.fallen }
        let s := s.cancelNodes v l.graph (gated.map (·.node))
        (s.endOver v fuel, true)
  | _ =>
    let queued := (s.vf v).queues.any fun q => q.2.tail != q.2.head
    let live := s.launches.any fun l => l.vf == v
    let s := (s.launches.filter fun l => l.vf == v).foldl (fun s l => s.cancelLaunch v l.serial false) s
    let s := s.onVf v fun f => { f with queues := f.queues.map fun q => (q.1, { q.2 with head := q.2.tail }) }
    (s.endOver v fuel, queued || live)

/-- UNIT_KILL (R208): a running unit of a cancelled launch stops. -/
def State.stopCancelled (s : State) (k : UnitKey) : State :=
  match s.launch? k.vf k.serial with
  | some l => if l.cancelled then (s.killUnit k).endOver k.vf s.launches.length else s
  | none => s

/-- UNIT_KILL (R208). -/
def execUnitKill (vf : BitVec 10) (serial : BitVec 32) (unit : Nat) (s : State) :=
  happened (s.stopCancelled { vf := vf, serial := serial, idx := unit })

/-! ## Admission (R301, R302) -/

/-- Every "—" field of Table 20.4 is zero. -/
def reservedClear (w : List Word) : Bool :=
  wordAt w 2 &&& 0xFF000000F000CFFF#64 == 0#64 && wordAt w 3 &&& 0xFFFFFFFA00000000#64 == 0#64
    && wordAt w 4 &&& 0x0000FFC00000FFF8#64 == 0#64 && wordAt w 5 &&& 0x4040404040404040#64 == 0#64
    && wordAt w 8 &&& 0xFFFFF000FFFFFFC0#64 == 0#64 && (upTo 9 16).all fun i => wordAt w i == 0#64

/-- A completion word address is 0, or an NRM page in HBM4E or tier-2 memory of the tenant (R302). -/
def State.wordUsable (s : State) (v : BitVec 10) (h : BitVec 4) (va : Word) : Bool :=
  va == 0#64 || (va.toNat % 8 == 0 && match s.translate (some v) h .s .store va with
    | .error _ => false
    | .ok x => x.cls == .nrm && decide (paTarget x.pa < 4) && s.tenantOf v != 0#16 && s.ownerOf x.pa == s.tenantOf v)

/-- The fields of a record lie in their ranges, and its graph fields agree (R301, R302). -/
def Launch.fieldsOk (l : Launch) : Bool :=
  reservedClear l.words && (wordAt l.words 0).toNat % 4 == 0
    && decide (1 ≤ l.units) && decide (1 ≤ l.group) && decide (l.group ≤ 8)
    && (l.lanes == 0 || (decide (8 ≤ l.lanes) && decide (l.lanes ≤ 128))) && decide (l.fld 0x18 0 32 ≤ 2 ^ 21)
    && (if l.graph = 0#16 then
          wordAt l.words 4 &&& 0xFFFFFFFFFFFF0000#64 == 0#64 && wordAt l.words 5 == 0#64 && wordAt l.words 7 == 0#64 && l.phnum == 0
        else
          decide (1 ≤ l.nnodes) && decide (l.nnodes ≤ 64) && decide (l.deps ≤ 63) && decide (l.node < l.nnodes)
            && l.succ.all fun n => decide (n < l.nnodes) && n != l.node)

/-- G[c] of R309 for an empty cluster: the groups of a launch that it holds. -/
def Cluster.holds (c : Cluster) (l : Launch) : Nat :=
  let lanes := Nat.min c.cap c.healthy
  let perUnit := l.group * Nat.max l.lanes 8
  let quarters := 4 - popCount c.mapart
  let shares := match l.share.toNat with
    | 1 => bit (c.mapart == 0#4)
    | 2 => if sharesFit c.mapart [2#2, 2#2] then 2 else bit (sharesFit c.mapart [2#2])
    | _ => quarters
  let byShare := if l.share = 0#2 then 8 else shares / l.group
  Nat.min (Nat.min (8 / l.group) (2 ^ 21 / Nat.max 4096 l.spBytes)) (Nat.min (lanes / perUnit) byShare)

/-- The clusters of a queue's halls in the order of R308: HOME first where HALLS holds it, then the other hall of
its die, then the rest ascending. -/
def siteOrder (home : BitVec 4) (halls : BitVec 16) : List (BitVec 4 × BitVec 5) :=
  let first := [home, home ^^^ 1#4]
  let rest := ((List.range 16).map (BitVec.ofNat 4)).filter fun h => !first.contains h
  ((first ++ rest).filter fun h => halls.getLsbD h.toNat).flatMap fun h => (List.range 32).map fun c => (h, BitVec.ofNat 5 c)

/-- A cohort launch fits on empty clusters (R309). -/
def State.cohortFits (s : State) (l : Launch) (halls : BitVec 16) : Bool :=
  decide (l.units ≤ ((siteOrder 0#4 halls).map fun p => ((s.hall p.1).cluster p.2).holds l * l.group).sum)

/-- Advance HEAD of a queue. -/
def State.takeHead (s : State) (v : BitVec 10) (q : BitVec 7) : State := s.onQueue v q fun y => { y with head := y.head + 1 }

/-- Count a rejected record (R304). -/
def State.countRej (s : State) (v : BitVec 10) : State := s.onVf v fun f => { f with rej := Nat.min 65535 (f.rej + 1) }

/-- Open the graph of a launch where it is not open. -/
def State.openGraph (s : State) (l : Launch) (home : BitVec 4) : State :=
  if l.graph = 0#16 || (s.graph? l.vf l.graph).isSome then s
  else { s with graphs := s.graphs ++
    [{ vf := l.vf, id := l.graph, home := home, nnodes := l.nnodes, gcounter := wordAt l.words 7, counts := [], ended := [],
       cancelled := false, cancelNodes := [], fallen := [], phases := [] }] }

/-- A rejected record (R302): STATE 5 where its word is usable, REJ, and its node ends with error; one of a cohort launch has
then ended for the launches gated on it (R305). -/
def State.reject (s : State) (l : Launch) (home : BitVec 4) : State :=
  let s := (s.takeHead l.vf l.queue).countRej l.vf
  let counter := wordAt l.words 6
  let s := if s.wordUsable l.vf home counter then s.dispatchWrite l.vf home counter (completionWord 5 0 0 0) else s
  if l.graph = 0#16 || decide (l.nnodes ≤ l.node) then s
  else
    let s := (s.openGraph l home).onGraph l.vf l.graph fun g => if l.cohort then { g with phases := alSet l.node 0 g.phases } else g
    (s.endNode l true (!l.errstop)).refreshGraph l.vf l.graph

/-- A record is admitted (R303, R305): held or ready, or ended at once when its graph or node is cancelled. -/
def State.accept (s : State) (l : Launch) (home : BitVec 4) : State :=
  let s := (s.takeHead l.vf l.queue).openGraph l home
  let all : List UnitKey := (List.range l.units).map fun i => { vf := l.vf, serial := l.serial, idx := i }
  let bar (scope : BitVec 3) : Barrier :=
    if l.cohort then { Barrier.reset with tgt := l.units, scope := scope, members := all } else Barrier.reset
  let l := { l with st := if l.graph = 0#16 then .ready else .held, order := s.nextId, bar := bar 4#3, phaseBar := bar 4#3 }
  let s : State := { s with launches := s.launches ++ [l], nextId := s.nextId + 1 }
  let s := s.writeLaunchWord l 1
  if l.graph = 0#16 then s
  else
    let s := s.onGraph l.vf l.graph fun g =>
      { g.add l.node l.deps with phases := if l.cohort then alSet l.node 0 g.phases else g.phases }
    match s.graph? l.vf l.graph with
    | none => s
    | some g =>
      if g.cancelled || g.cancelNodes.contains l.node || g.fells l then
        (s.cancelNodes l.vf l.graph [l.node]).endOver l.vf s.launches.length
      else (s.writeGraphWord l.vf l.graph).refreshGraph l.vf l.graph

/-- Take the record at HEAD of a queue (R299, R302). -/
def State.admitHead (s : State) (v : BitVec 10) (q : BitVec 7) : State :=
  let x := (s.vf v).queue q
  if !s.queueOpen v x || x.head = x.tail then s
  else
    let serial := q ++ x.head.extractLsb' 0 25
    let va := x.slotVa x.head
    let unreadable (pa : Nat) : State :=
      ((s.takeHead v q).countRej v).logViolation x.home (s.violation pa x.home v 6)
    match s.translate (some v) x.home .s .load va with
    | .error _ => unreadable 0
    | .ok a =>
      if a.cls ≠ .nrm then unreadable a.pa
      else match s.readHome (some v) x.home a.pa 128 false with
        | .error _ => unreadable a.pa
        | .ok bs =>
          let l : Launch := { vf := v, serial := serial, words := leWords bs 16, st := .held, order := 0, nextGroup := 0, done := 0,
                              erru := 0, phase := 0, bar := Barrier.reset, phaseBar := Barrier.reset }
          if l.graph != 0#16 && decide (l.node < l.nnodes) && (s.graph? v l.graph).isNone
              && decide (16 ≤ (s.graphs.filter fun g => g.vf == v && g.home == x.home).length) then s
          else if !(l.fieldsOk && s.wordUsable v x.home (wordAt l.words 6) && s.wordUsable v x.home (wordAt l.words 7)
              && (!l.cohort || s.cohortFits l x.halls)) then s.reject l x.home
          else s.accept l x.home

/-- LAUNCH_ADMISSION (R302). -/
def execLaunchAdmission (vf : BitVec 10) (q : BitVec 7) (s : State) := happened (s.admitHead vf q)

/-! ## Selection and placement (R307 to R310) -/

/-- What a queue offers: its first ready launch, in the order in which they became ready. -/
def State.headOf (s : State) (v : BitVec 10) (q : BitVec 7) : Option Launch :=
  (s.launches.filter fun l => l.vf == v && l.queue == q && (l.st == .ready || l.st == .placing || l.st == .pending)
      && decide (l.nextGroup < l.groups)).foldl
    (fun b l => match b with | none => some l | some m => if l.order < m.order then some l else some m) none

/-- A queue as selection sees it. `back`: its head is a pre-empted group of the launch (R310). -/
structure Offer where
  key : Nat
  vf : BitVec 10
  q : BitVec 7
  launch : Launch
  back : Option Nat
  eff : Nat
deriving DecidableEq, Repr

/-- The pre-empted group that heads a queue, ahead of its ready launches (R310): the first of those that are pre-empted. -/
def State.backOf (s : State) (v : BitVec 10) (q : BitVec 7) : Option (Launch × Nat) :=
  (s.units.find? fun u => u.st == .preempted && u.key.vf == v && u.key.serial.extractLsb' 25 7 == q
      && ((s.launch? v u.key.serial).map fun l => !l.dropped).getD false).bind fun u =>
    (s.launch? v u.key.serial).map fun l => (l, u.group)

/-- eff of R307. -/
def effOf (q : Queue) (l : Launch) : Nat := Nat.min 7 (Nat.min q.prio l.prio + q.boost)

/-- The queues homed at a hall that have a head, by ascending global queue number. -/
def State.offers (s : State) (h : BitVec 4) : List Offer :=
  let all := s.vfs.flatMap fun p => p.2.queues.filterMap fun x =>
    let v := BitVec.ofNat 10 p.1
    let q := BitVec.ofNat 7 x.1
    if s.queueOpen v x.2 && x.2.home == h then
      (match s.backOf v q with
        | some (l, g) => some { key := p.1 * 128 + x.1, vf := v, q := q, launch := l, back := some g, eff := effOf x.2 l }
        | none => (s.headOf v q).map fun l => { key := p.1 * 128 + x.1, vf := v, q := q, launch := l, back := none, eff := effOf x.2 l })
    else none
  all.foldl (fun acc o => insertBy (·.key) o acc) []

/-- The clusters that a pending cohort launch has chosen (R309): the first ones that hold all of it when
empty. -/
def State.reserved (s : State) (l : Launch) : List (BitVec 4 × BitVec 5) :=
  let q := (s.vf l.vf).queue l.queue
  (siteOrder q.home q.halls).foldl (fun (acc : List (BitVec 4 × BitVec 5) × Nat) p =>
    let n := ((s.hall p.1).cluster p.2).holds l * l.group
    if acc.2 < l.units && n ≠ 0 then (acc.1 ++ [p], acc.2 + n) else acc) ([], 0) |>.1

/-- The clusters where a launch of this eff may not be placed, for a pending launch that goes before it. -/
def State.barred (s : State) (h : BitVec 4) (eff : Nat) (self : Launch) : List (BitVec 4 × BitVec 5) :=
  (s.offers h).flatMap fun o =>
    if o.launch.st = .pending && !(o.launch.vf == self.vf && o.launch.serial == self.serial) && eff ≤ o.eff then s.reserved o.launch
    else []

/-- Groups of a launch on a cluster. -/
def State.groupsAt (s : State) (l : Launch) (h : BitVec 4) (c : BitVec 5) : Nat :=
  (((s.placedUnits h c).filter fun u => u.key.vf == l.vf && u.key.serial == l.serial).map (·.group)).eraseDups.length

/-- Place one group of a launch on the first of its clusters that fits; of a cohort launch a cluster c holds at most G[c]
(R308, R309). -/
def State.placeNext (s : State) (l : Launch) (j eff : Nat) (sites : List (BitVec 4 × BitVec 5)) : Option State :=
  (sites.filter fun p => !l.cohort || decide (s.groupsAt l p.1 p.2 < ((s.hall p.1).cluster p.2).holds l)).findSome? fun p =>
    (s.fitsAt l j p.1 p.2).map fun x => s.placeGroup l j p.1 p.2 x eff

/-- Place groups j, j+1, … of a launch, all n of them or none. -/
def State.placeAll (s : State) (l : Launch) (eff : Nat) (sites : List (BitVec 4 × BitVec 5)) : Nat → Nat → Option State
  | _, 0 => some s
  | j, n + 1 => (s.placeNext l j eff sites).bind fun s' => s'.placeAll l eff sites (j + 1) n

/-- Resume a group on the first of these clusters where it may resume. -/
def State.resumeFirst (s : State) (v : BitVec 10) (serial : BitVec 32) (group : Nat) (sites : List (BitVec 4 × BitVec 5)) : Option State :=
  (sites.find? fun p => s.mayResume v serial group p.1 p.2).map fun p => s.resumeGroup v serial group p.1 p.2

/-- Resume pre-empted groups, all of them or none. -/
def State.resumeAll (s : State) (v : BitVec 10) (serial : BitVec 32) (sites : List (BitVec 4 × BitVec 5)) : List Nat → Option State
  | [] => some s
  | g :: r => (s.resumeFirst v serial g sites).bind fun s' => s'.resumeAll v serial sites r

/-- The pre-empted groups of a launch. -/
def State.backGroups (s : State) (l : Launch) : List Nat :=
  ((s.units.filter fun u => u.st == .preempted && u.key.vf == l.vf && u.key.serial == l.serial).map (·.group)).eraseDups

/-- The smallest scope of HALL, DIE, PKG and TEN that covers these halls of one package (R198). -/
def coveringScope (halls : List (BitVec 4)) : BitVec 3 :=
  if halls.all fun h => halls.head? == some h then 1#3
  else if halls.all fun h => (halls.head?.map fun g => g.toNat / 2) == some (h.toNat / 2) then 2#3
  else 3#3

/-- Place what an offer offers: one group, or every group of a cohort launch (R307). A pre-empted group resumes, a cohort launch
whole (R310); a pending one goes on the clusters that it has chosen, once they have drained (R309). -/
def State.placeOffer (s : State) (h : BitVec 4) (o : Offer) : Option State :=
  let l := o.launch
  let q := (s.vf l.vf).queue l.queue
  let barred := s.barred h o.eff l
  let sites := (siteOrder q.home q.halls).filter fun p => !barred.contains p
  if let some g := o.back then
    if l.cohort then s.resumeAll l.vf l.serial sites (s.backGroups l) else s.resumeFirst l.vf l.serial g sites
  else if l.cohort then
    let chosen := s.reserved l
    if l.st = .pending && !(chosen.all fun p => (s.placedUnits p.1 p.2).isEmpty) then none
    else
    (s.placeAll l o.eff (if l.st = .pending then chosen else sites) 0 l.groups).map fun s' =>
      let halls := (s'.units.filter fun u => u.key.vf == l.vf && u.key.serial == l.serial).map (·.hall)
      s'.onLaunch l.vf l.serial fun x =>
        { x with st := .placing, nextGroup := l.groups, bar := { x.bar with scope := coveringScope halls } }
  else
    (s.placeNext l l.nextGroup o.eff sites).map fun s' =>
      s'.onLaunch l.vf l.serial fun x => { x with st := .placing, nextGroup := x.nextGroup + 1 }

/-- The state without some units: what a pre-emption of them would leave room for. -/
def State.without (s : State) (p : UnitRec → Bool) : State :=
  (s.units.filter p).foldl (fun s u =>
    { s.dropClaims u.hall u.cluster u.hart with units := s.units.filter fun w => w.key != u.key }) s

/-- Pre-empting a unit's group helps an offer: it would fit if the groups below its eff left, those of the unit's cluster, or all
of them for a cohort launch (R310). -/
def State.helps (s : State) (h : BitVec 4) (o : Offer) (u : UnitRec) : Bool :=
  ((s.without fun w => w.onHart && decide (w.eff < o.eff)
    && (o.launch.cohort || (w.hall == u.hall && w.cluster == u.cluster))).placeOffer h o).isSome

/-- The lowest-eff running group below an offer that makes room for it, the most recently placed among equals (R310); a cohort
launch only where every group of it lies below. -/
def State.victim (s : State) (h : BitVec 4) (o : Offer) : Option UnitRec :=
  let eff := o.eff
  (s.units.filter fun u => u.onHart && u.eff < eff && !u.preempt && s.homeOf u.key.vf u.key.serial == h && s.helps h o u
      && !(((s.launch? u.key.vf u.key.serial).map (·.cohort)).getD false
        && s.units.any fun w => w.key.vf == u.key.vf && w.key.serial == u.key.serial && decide (eff ≤ w.eff))).foldl
    (fun b u => match b with
      | none => some u
      | some w => if u.eff < w.eff || (u.eff == w.eff && w.placedAt < u.placedAt) then some u else some w) none

/-- Ask the group of a unit to stop, or every group of its launch when that is a cohort (R310). -/
def State.askStop (s : State) (u : UnitRec) : State :=
  let whole := ((s.launch? u.key.vf u.key.serial).map (·.cohort)).getD false
  { s with units := s.units.map fun w =>
      if w.key.vf = u.key.vf && w.key.serial = u.key.serial && (whole || w.group = u.group) && w.onHart then { w with preempt := true }
      else w }

/-- The queue that a level serves (R307): the first with credit after the last one served, wrapping; the credits
of the level are renewed when none that fits has any. -/
def State.chooseQueue (s : State) (h : BitVec 4) (lvl : Nat) (level : List Offer) (fits : Offer → Bool) : State × Option Offer :=
  let credit (s : State) (o : Offer) : Nat := ((s.vf o.vf).queue o.q).credit
  let s' := if level.any fun o => fits o && decide (0 < credit s o) then s
    else level.foldl (fun s o => s.onQueue o.vf o.q fun y => { y with credit := y.weight }) s
  let ready := level.filter fun o => fits o && decide (0 < credit s' o)
  let after := ready.filter fun o => match alFind lvl (s.hall h).lastServed with | some k => decide (k < o.key) | none => true
  (s', (after ++ ready).head?)

/-- One dispatcher step (R307, R309, R310). -/
def State.dispatch (s : State) (h : BitVec 4) : State :=
  let s := (s.launches.filter fun l => l.st == .pending && s.homeOf l.vf l.serial == h
      && !(s.cohortFits l ((s.vf l.vf).queue l.queue).halls)).foldl
    (fun s l => ((s.cancelLaunch l.vf l.serial false).countRej l.vf).endOver l.vf s.launches.length) s
  let os := s.offers h
  let fits (o : Offer) : Bool := (s.placeOffer h o).isSome
  let best := os.foldl (fun m o => Nat.max m (o.eff + 1)) 0
  let lvl := os.foldl (fun m o => if fits o then Nat.max m (o.eff + 1) else m) 0
  let level := os.filter fun o => o.eff + 1 == lvl
  let pend := level.find? fun o => o.launch.st == .pending && o.back.isNone
  let s := if lvl < best then
      (match os.find? fun o => o.eff + 1 == best with
        | some o => (match s.victim h o with | some u => s.askStop u | none => s)
        | none => s)
    else s
  let s := os.foldl (fun s o =>
    if o.launch.cohort && o.back.isNone && o.launch.st == .ready && !fits o && o.eff + 1 == best then
      s.onLaunch o.vf o.launch.serial fun l => { l with st := .pending }
    else s) s
  if lvl = 0 then s
  else
    let (s, pick) := match pend with
      | some o => (s, if fits o then some o else none)
      | none => s.chooseQueue h (lvl - 1) level fits
    match pick with
    | none => s
    | some o =>
      match s.placeOffer h o with
      | none => s
      | some s' =>
        let s' := s'.onQueue o.vf o.q fun y => { y with credit := y.credit - 1, boost := 0, wait := 0 }
        s'.onHall h fun x => { x with lastServed := alSet (lvl - 1) o.key x.lastServed }

/-- DISPATCHER_STEP (R307). -/
def execDispatcherStep (hall : BitVec 4) (s : State) := happened (s.dispatch hall)

/-- PRIO of the record at HEAD of a ring; none where the ring is empty, 0 where its slot cannot be read. -/
def State.ringPrio (s : State) (v : BitVec 10) (q : BitVec 7) : Option Nat :=
  let x := (s.vf v).queue q
  if x.head = x.tail then none
  else match s.translate (some v) x.home .s .load (x.slotVa x.head) with
    | .error _ => some 0
    | .ok a => some (fieldNat (s.word (a.pa + 0x20)) 0 3)

/-- PRIO of the head of a queue: a pre-empted group's launch, a ready launch, or the ring's record (R307). -/
def State.headPrio (s : State) (v : BitVec 10) (q : BitVec 7) : Option Nat :=
  match s.backOf v q with
  | some p => some p.1.prio
  | none => match s.headOf v q with | some l => some l.prio | none => s.ringPrio v q

/-- AGE_BOOST (R307): the wait of a queue that has a head reaches the next multiple of AGE; a queue that enters a
level through its boost receives its credit. -/
def execAgeBoost (vf : BitVec 10) (q : BitVec 7) (s : State) :=
  let x := (s.vf vf).queue q
  happened (match s.headPrio vf q with
    | none => s
    | some p =>
      if x.age = 0 || !s.queueOpen vf x then s
      else
        let rises := decide (Nat.min x.prio p + x.boost < 7)
        s.onQueue vf q fun y =>
          { y with wait := (y.wait / y.age + 1) * y.age, boost := y.boost + 1, credit := if rises then y.weight else y.credit })

/-! ## Resumption (R310, R324) -/

/-- RESUMPTION of the pre-empted group that heads its queue, on a cluster of its HALLS; a cohort launch resumes whole, its other
groups where they may. -/
def State.resumption (s : State) (v : BitVec 10) (serial : BitVec 32) (group : Nat) (h : BitVec 4) (c : BitVec 5) : State :=
  let q := (s.vf v).queue (serial.extractLsb' 25 7)
  match s.backOf v (serial.extractLsb' 25 7) with
  | none => s
  | some (l, g) =>
    if l.serial ≠ serial || (!l.cohort && g ≠ group) || !(s.backGroups l).contains group || !q.halls.getLsbD h.toNat
        || !s.mayResume v serial group h c then s
    else
      let t := s.resumeGroup v serial group h c
      if l.cohort then (t.resumeAll v serial (siteOrder q.home q.halls) ((s.backGroups l).filter (· != group))).getD s else t

/-- RESUMPTION (R324). -/
def execResumption (vf : BitVec 10) (serial : BitVec 32) (group : Nat) (hall : BitVec 4) (cluster : BitVec 5) (s : State) :=
  happened (s.resumption vf serial group hall cluster)

/-! ## VF reset (R311, R352) -/

/-- A launch after its units were killed by a VF reset: one that lost some ends with error, one that lost none is cancelled
(R303, R311; log 39). -/
def Launch.kill (l : Launch) : Launch :=
  if l.dropped then l else { l with st := if l.erru = 0 then .cancelled false else .killed }

/-- The launches of a VF that is reset: their units are killed, then each ends with its final word. -/
def State.endAll (s : State) (v : BitVec 10) : State :=
  let s := s.killUnits fun u => u.key.vf == v
  let s : State := { s with launches := s.launches.map fun l => if l.vf = v then l.kill else l }
  s.endOver v s.launches.length

/-- Steps 1 and 2 of a VF reset (R352), unless one is in progress. -/
def State.startVfReset (s : State) (v : BitVec 10) : State :=
  if (s.vf v).rstBusy then s
  else
    let r := (s.endAll v).drainPosted fun p => p.who == some v
    let s := r.1.dropTlb v none
    let s : State := { s with halls := s.halls.map fun x =>
      { x with
        windows := x.windows.filter fun p => p.2.vf != v
        landings := x.landings.filter fun p => p.2.vf != v
        held := x.held.filter fun p => p.vf != v } }
    s.onVf v fun x =>
      { x with rstBusy := true, abnd := BitVec.ofNat 32 r.2, queues := x.queues.map fun p => (p.1, { p.2 with head := p.2.tail }) }

/-- VF_RESET (R352). -/
def execVfReset (vf : BitVec 10) (s : State) := happened (s.startVfReset vf)

end Sys2Proof.Machine
end

