-- ==== Sys2Proof/Machine/Regs.lean ====
section
/-! DEFINITION. Regs.lean: the system-register aperture and the census (R400 to R402, R406), the registers of
every block with the access that their tables give. -/

namespace Sys2Proof.Machine

/-- Who makes a register access (R402, R406): a mode, or the PF; a VF's host driver acts as mode S of it. -/
inductive Role where
  | a | s | p | pf
deriving DecidableEq, Repr

/-- The requester of a register access. -/
structure Req where
  role : Role
  vf : BitVec 10
deriving DecidableEq, Repr

/-- Mode P. -/
def Req.isP (q : Req) : Bool := q.role == .p
/-- Mode P or the PF. -/
def Req.high (q : Req) : Bool := q.role == .p || q.role == .pf
/-- Mode S of a VF, or its host driver. -/
def Req.mine (q : Req) (v : BitVec 10) : Bool := q.role == .s && q.vf == v
/-- Mode S of a VF, its host driver, or a higher one. -/
def Req.forVf (q : Req) (v : BitVec 10) : Bool := q.high || q.mine v

/-- The hart as a requester. -/
def State.req (s : State) : Req :=
  { role := match s.hart.mode with | .a => .a | .s => .s | .p => .p, vf := s.myVf }

/-! ## The package block (Table 30.6) -/

/-- HPSTAT (Table 24.1). -/
def HostPort.stat (p : HostPort) : Word :=
  place p.gen.toNat 20 4 ||| place p.width.toNat 8 8 ||| place (bit p.cache) 3 1 ||| place (bit p.mem) 2 1 ||| place p.mode.toNat 0 2

/-- FABSTAT of a die (Table 27.1). -/
def Fabric.stat (f : Fabric) (d : BitVec 3) : Word :=
  place (pick (w := 3) f.lost d).toNat 16 8 ||| place (pick (w := 3) f.relayed d).toNat 8 8 ||| place (pick (w := 3) f.dark d).toNat 0 8

/-- A read of the package block. -/
def State.readPackage (s : State) (o : Nat) : Word :=
  if o = 0 then s.pkgstat.setWidth 64
  else if 0x100 ≤ o && o < 0x140 then s.fabric.stat (BitVec.ofNat 3 ((o - 0x100) / 8))
  else if o = 0x200 then s.ptpcfg
  else if o = 0x208 then place (bit s.ptpLock) 63 1 ||| place s.ptpOffset.toNat 0 32
  else if 0x300 ≤ o && o < 0x400 then (Config.identityKey ((o - 0x300) / 32)).extractLsb' (64 * ((o - 0x300) % 32 / 8)) 64
  else if 0x1000 ≤ o && o < 0x2000 then
    let p := pick (w := 2) s.hostPorts (BitVec.ofNat 2 ((o - 0x1000) / 0x400))
    let r := (o - 0x1000) % 0x400
    if r = 0 then p.stat
    else if 0x100 ≤ r && r < 0x180 then
      ((if r % 16 = 0 then p.hdmBase else p.hdmCtl)[(r - 0x100) / 16]?).getD 0#64
    else 0#64
  else 0#64

/-- A write of the package block: mode P only. -/
def State.writePackage (s : State) (q : Req) (o : Nat) (v : Word) : Option State :=
  if !q.isP then none
  else if o = 0x200 then some { s with ptpcfg := place (fieldNat v 62 2) 62 2 ||| place (fieldNat v 48 8) 48 8 }
  else if 0x1000 ≤ o && o < 0x2000 && 0x100 ≤ (o - 0x1000) % 0x400 && (o - 0x1000) % 0x400 < 0x180 then
    let r := (o - 0x1000) % 0x400
    let i := (r - 0x100) / 16
    some (s.onHostPort (BitVec.ofNat 2 ((o - 0x1000) / 0x400)) fun p =>
      if ((p.hdmCtl[i]?).getD 0#64).getLsbD 63 && (r % 16 = 0 || v.getLsbD 63) then p
      else if r % 16 = 0 then { p with hdmBase := p.hdmBase.setIfInBounds i (setField v 0 0#28) }
      else
        let old := (p.hdmCtl[i]?).getD 0#64
        let new := if old.getLsbD 63 then setBit old 63 false else v &&& 0x800FFFFFF3FFFFFF#64
        { p with hdmCtl := p.hdmCtl.setIfInBounds i new })
  else none

/-! ## VF blocks (Table 30.2) -/

/-- CPATH0 to CPATH3 of a VF at a die (R265). -/
def VF.paths (f : VF) (die : BitVec 3) : Vector Word 4 := pick (w := 3) f.cpath die

/-- JOBST (Table 20.6). -/
def State.jobst (s : State) (v : BitVec 10) : Word :=
  place (s.vf v).rej 48 16 ||| place (s.vf v).errl 32 16 ||| place (s.launches.filter fun l => l.vf == v).length 0 32

/-- A read of a VF block through a die: CPATH lies at each (R265). -/
def State.readVf (s : State) (v : BitVec 10) (die : BitVec 3) (o : Nat) : Word :=
  let f := s.vf v
  if o = 0x000 then place (bit f.en) 63 1 ||| place f.tenant.toNat 32 16 ||| place (s.hallMask f.tenant).toNat 0 16
  else if o = 0x008 then f.scope
  else if o = 0x010 then place (bit f.rstBusy) 62 1 ||| place f.abnd.toNat 0 32
  else if o = 0x018 then f.evt
  else if o = 0x020 then f.xroot
  else if o = 0x028 then f.xalias
  else if o = 0x030 then s.jobst v
  else if o = 0x038 then BitVec.ofNat 64 f.vcap
  else if 0x040 ≤ o && o < 0x060 then ((f.paths die)[(o - 0x40) / 8]?).getD 0#64
  else if o = 0x140 then f.attaddr
  else if o = 0x148 then place (bit f.attBusy) 62 1 ||| place (bit f.attErr) 61 1
  else if 0x1000 ≤ o && o < 0x1000 + 24 * 128 then
    let q := f.queue (BitVec.ofNat 7 ((o - 0x1000) / 24))
    match (o - 0x1000) % 24 with
    | 0 => q.cfg
    | 8 => q.base
    | _ => q.head ++ q.tail
  else 0#64

/-- A VFCFG write is measured in every hall of its tenant (R397). -/
def State.writeVfcfg (s : State) (v : BitVec 10) (x : Word) : State :=
  let t := x.extractLsb' 32 16
  let s := s.onVf v fun f => { f with en := x.getLsbD 63, tenant := t }
  let stored := place (bit (x.getLsbD 63)) 63 1 ||| place t.toNat 32 16 ||| place (s.hallMask t).toNat 0 16
  (List.range 16).foldl (fun s i =>
    let h := BitVec.ofNat 4 i
    if s.owns t h then s.extend h (measured (0x800000 + 0x2000 * v.toNat) stored) else s) s

/-- A write of a VF block, at a physical address of which `o` is the offset in the block, by a requester in a hall: each register by
those that its own rule names (R265, R298, R334, R350, R351, R398; log 43). -/
def State.writeVf (s : State) (q : Req) (frm : BitVec 4) (v : BitVec 10) (pa o : Nat) (x : Word) : Option State :=
  let own := q.forVf v
  let mine := q.mine v
  let on (b : Bool) (t : State) : Option State := if b then some t else none
  if o = 0x000 then on q.isP (s.writeVfcfg v x)
  else if o = 0x008 then on q.isP (s.onVf v fun f => { f with scope := x &&& 3#64 })
  else if o = 0x010 then on q.high (if x.getLsbD 63 then s.startVfReset v else s)
  else if o = 0x018 then on mine (s.onVf v fun f => { f with evt := f.evt &&& ~~~(x &&& 0xF#64) })
  else if o = 0x020 then
    on own (s.onVf v fun f =>
      let root := if f.xroot.getLsbD 1 && !q.high then f.xroot else x
      let shadow := if q.high then x else f.xroot
      { f with xroot := setField root 0 0#13 ||| (shadow &&& 2#64) ||| (x &&& 1#64) })
  else if o = 0x028 then on own (s.onVf v fun f => { f with xalias := setField x 0 0#21 ||| (x &&& 1#64) })
  else if o = 0x030 then on q.isP (s.onVf v fun f => { f with rej := fieldNat x 48 16, errl := fieldNat x 32 16 })
  else if o = 0x038 then on (mine || q.isP) (s.onVf v fun f => { f with vcap := vcapStored (fieldNat x 0 14) })
  else if 0x040 ≤ o && o < 0x060 then
    on mine (s.onVf v fun f =>
      let i := (o - 0x40) / 8
      let mine := f.paths (paDie pa)
      let new := ((mine[i]?).getD 0#64 &&& 0x0000FFFF00000000#64) ||| (x &&& 0x00000000E00FFFFF#64)
      { f with cpath := put (w := 3) f.cpath (paDie pa) (mine.setIfInBounds i new) })
  else if 0x100 ≤ o && o < 0x140 then
    on mine (s.onVf v fun f => if f.attBusy then f else { f with attn := f.attn.setIfInBounds ((o - 0x100) / 8) x })
  else if o = 0x140 then on mine (s.onVf v fun f => { f with attaddr := x })
  else if o = 0x148 then on mine (if x.getLsbD 63 then s.startAttest v else s)
  else if 0x1000 ≤ o && o < 0x1000 + 24 * 128 then
    let n := BitVec.ofNat 7 ((o - 0x1000) / 24)
    match (o - 0x1000) % 24 with
    | 0 => on mine (s.writeQcfg v n x)
    | 8 => on mine (s.writeQbase v n x)
    | _ => on mine (s.writeTail v n (x.extractLsb' 0 32) frm pa)
  else none

/-! ## Hall blocks (Table 30.3) -/

/-- STATE of HALLCTL. -/
def HallState.code : HallState → Nat
  | .running => 0 | .reset => 1 | .fenced => 2

/-- The lane pool register (Table 12.2). -/
def State.poolReg (s : State) (h : BitVec 4) (c : BitVec 5) : Word :=
  let x := (s.hall h).cluster c
  let u := s.unclaimed h c
  place x.healthy 40 8 ||| place x.cap 32 8 ||| place (s.placed h c) 24 4 ||| place (8 * u) 16 8
    ||| place ((x.shares u).map (·.granted)).sum 8 8 ||| place (x.claims.map (·.granted)).sum 0 8

/-- Registers of a cluster (Tables 12.2, 28.4; R405). What another cluster than the hart's has counted is open
(log 1). -/
def State.readCluster (s : State) (h : BitVec 4) (c : BitVec 5) (o : Nat) : Word :=
  let x := (s.hall h).cluster c
  let own (w : Word) : Word := if s.myHall == h && s.myCluster == c then w else Config.freeWord s.fresh
  match o with
  | 0x00 => s.poolReg h c
  | 0x40 => x.lrmap.extractLsb' 0 64
  | 0x48 => x.lrmap.extractLsb' 64 64
  | 0x60 => place x.rfce.toNat 32 32 ||| place x.charges.toNat 16 16 ||| place x.mapart.toNat 0 4
  | 0x80 => place (bit x.recov) 24 1 ||| place x.stopped.toNat 16 8
  | 0xC0 => own x.cyc
  | 0xC8 => own x.instr
  | 0xD0 => own x.vrows
  | 0xD8 => own x.macs
  | _ => 0#64

/-- STATE of a landing (Table 16.3). -/
def LandingState.code : LandingState → Nat
  | .free => 0 | .armed => 1 | .closing => 2

/-- Landing status register (Table 16.3). -/
def Landing.stat (l : Landing) : Word :=
  place l.trigs.toNat 32 16 ||| place l.lostn 24 8 ||| place (bit l.err) 23 1 ||| place l.pend 16 4 ||| place l.st.code 14 2
    ||| place (fieldNat (wordAt l.desc 0) 4 2) 12 2 ||| place l.vf.toNat 0 10

/-- Registers of an external port (Table 27.2); key words read 0. -/
def ExtPort.read (p : ExtPort) (o : Nat) : Word :=
  match o with
  | 0x00 => place p.peerChip.toNat 52 12 ||| place p.peerPort.toNat 44 8 ||| place p.lat.toNat 32 12 ||| place p.width.toNat 28 4
      ||| place p.retrains.toNat 16 8 ||| place (bit p.kpend) 5 1 ||| place (bit p.kact) 4 1 ||| place p.state.toNat 0 4
  | 0x08 => p.retry ++ p.tagfail
  | 0x10 => place (bit p.kpend) 62 1 ||| place (bit p.keylow) 61 1 ||| place p.loaded.toNat 0 2
  | _ => 0#64

/-- A read of a hall block. -/
def State.readHall (s : State) (h : BitVec 4) (o : Nat) : Word :=
  let x := s.hall h
  if o = 0x000 then place x.tenant.toNat 32 16
  else if o = 0x008 then place x.st.code 6 2 ||| place (bit x.shapeErr) 5 1 ||| place x.cause.toNat 0 4
  else if o = 0x010 then place x.vovf.toNat 32 32 ||| place x.vnext 0 8
  else if 0x100 ≤ o && o < 0x300 then
    let g := s.galleryAt h (BitVec.ofNat 5 ((o - 0x100) / 16))
    if o % 16 = 0 then g.base else g.ctl ||| place (bit g.busy) 61 1
  else if 0x300 ≤ o && o < 0x348 then
    let p := s.port h ((o - 0x300) / 8)
    place p.width.toNat 8 4 ||| place p.guar.toNat 0 4
  else if 0x400 ≤ o && o < 0x880 then (s.port h ((o - 0x400) / 0x80)).read ((o - 0x400) % 0x80)
  else if 0xC00 ≤ o && o < 0xC40 then x.hmeas.extractLsb' (8 * (o - 0xC00)) 64
  else if o = 0xC40 then x.hmcnt.setWidth 64
  else if o = 0x1000 then x.wellcfg
  else if o = 0x1008 then x.inkcfg
  else if o = 0x1010 then x.cscfg
  else if o = 0x1018 then x.cswin
  else if 0x1100 ≤ o && o < 0x1150 then (x.traffic[(o - 0x1100) / 8]?).getD 0#64
  else if o = 0x1150 then place (bit x.freeze) 0 1
  else if o = 0x1200 then x.fqbase
  else if o = 0x1208 then x.fqcfg
  else if o = 0x1210 then x.fqhead ++ x.fqtail
  else if o = 0x1218 then x.fqdata
  else if o = 0x1228 then x.fqovf
  else if o = 0x1230 then x.shootva
  else if o = 0x1238 then x.shootctl ||| place (bit x.shootBusy) 62 1
  else if o = 0x1240 then x.proot ||| 1#64
  else if o = 0x1300 then x.scrubcfg
  else if o = 0x1308 then
    place x.scrubPasses.toNat 48 16 ||| place x.scrubFactor.toNat 44 4 ||| place (bit x.scrubPaused) 43 1 ||| place x.scrubPos.toNat 0 36
  else if o = 0x1310 then place x.eovf.toNat 32 32 ||| place x.enext 0 10
  else if o = 0x1318 then x.ecc
  else if o = 0x1400 then place x.pwr.toNat 48 16 ||| place x.plim.toNat 32 16 ||| place x.tj.toNat 24 8 ||| place x.tlim.toNat 16 8
  else if 0x2000 ≤ o && o < 0x4000 then s.readCluster h (BitVec.ofNat 5 ((o - 0x2000) / 0x100)) ((o - 0x2000) % 0x100)
  else if 0x4000 ≤ o && o < 0x4200 then ((alFind ((o - 0x4000) / 8) x.landings).map Landing.stat).getD 0#64
  else if 0x6000 ≤ o && o < 0x8000 then
    (List.range 4).foldl (fun w j => w ||| place ((alFind (4 * ((o - 0x6000) / 8) + j) x.route).getD 0#16).toNat (16 * j) 16) 0#64
  else 0#64

/-- The value that a SCRUBCFG write stores (Table 28.2). -/
def scrubStored (v : Word) : Word :=
  place (Nat.max 10 (Nat.min 100 (fieldNat v 16 8))) 16 8 ||| place (Nat.max 1 (fieldNat v 8 8)) 8 8 ||| place (fieldNat v 0 1) 0 1

/-- The harts of a mask, one after another. -/
def State.eachHart (s : State) (m : BitVec 8) (f : State → BitVec 3 → State) : State :=
  ((List.range 8).filter fun i => m.getLsbD i).foldl (fun s i => f s (BitVec.ofNat 3 i)) s

/-- A write of a cluster's registers (mode P). -/
def State.writeCluster (s : State) (h : BitVec 4) (c : BitVec 5) (o : Nat) (v : Word) : Option State :=
  match o with
  | 0x00 => some (s.writeCap h c (fieldNat v 32 8))
  | 0x50 => some (s.markLanes h c false v)
  | 0x58 => some (s.markLanes h c true v)
  | 0x60 => some (s.markQuarters h c (v.extractLsb' 4 4))
  | 0x80 =>
    let s := s.onCluster h c fun x => { x with recov := v.getLsbD 24 }
    let s := s.eachHart (v.extractLsb' 0 8) fun s n => s.stopHart h c n
    some (s.eachHart (v.extractLsb' 8 8) fun s n => s.runHart h c n)
  | _ => none

/-- A write of an external port's registers (mode P): a slot holds a key once its SALT is written (log 19). -/
def ExtPort.write (p : ExtPort) (o : Nat) (v : Word) : Option ExtPort :=
  let keyWord (slot : Bool) (i : Nat) : ExtPort :=
    if p.slotOpen slot then
      { p with keys := p.keys.setIfInBounds (bit slot) (setField ((p.keys[bit slot]?).getD 0#256) (64 * i) v) }
    else p
  if o = 0x10 then
    let p := if v.getLsbD 61 then { p with keylow := false } else p
    some (if v.getLsbD 63 then p.switch else p)
  else if 0x20 ≤ o && o < 0x40 then some (keyWord false ((o - 0x20) / 8))
  else if 0x40 ≤ o && o < 0x60 then some (keyWord true ((o - 0x40) / 8))
  else if o = 0x60 || o = 0x68 then
    let slot := o == 0x68
    some (p.loadKey slot ((p.keys[bit slot]?).getD 0#256) (v.extractLsb' 0 32))
  else none

/-- A write of FQRESP (Table 22.6). -/
def State.writeFqresp (s : State) (h : BitVec 4) (v : Word) : State :=
  let tok := v.extractLsb' 32 32
  match fieldNat v 0 2 with
  | 0 => s.answer h tok .none
  | 1 => s.answer h tok .forward
  | 2 => s.answer h tok (.complete (s.hall h).fqdata)
  | _ => s

/-- A write of the PF translation block, by the PF or mode P (Table 22.4). -/
def State.writeFq (s : State) (h : BitVec 4) (o : Nat) (v : Word) : Option State :=
  match o with
  | 0x00 => some (s.onHall h fun x => { x with fqbase := setField v 0 0#12 })
  | 0x08 =>
    let s := s.onHall h fun x => { x with fqcfg := v &&& 0x800000000000000F#64 }
    some (if (s.hall h).fqcfg.getLsbD 63 then s.fqDrain h (s.hall h).fqPending else s)
  | 0x10 => some (s.writeFqHead h (v.extractLsb' 32 32))
  | 0x18 => some (s.onHall h fun x => { x with fqdata := v })
  | 0x20 => some (s.writeFqresp h v)
  | 0x30 => some (s.onHall h fun x => { x with shootva := v })
  | 0x38 =>
    some (if v.getLsbD 63 then s.startShoot h (v.extractLsb' 10 2) (v.extractLsb' 0 10)
      else if (s.hall h).shootBusy then s
      else s.onHall h fun x => { x with shootctl := v &&& 0xFFF#64 })
  | 0x40 => some (s.onHall h fun x => { x with proot := setField v 0 0#13 })
  | _ => none

/-- RSTREQ of HALLCTL (R342, R345). -/
def State.writeHallctl (s : State) (h : BitVec 4) (v : Word) : State :=
  match fieldNat v 62 2 with
  | 1 => s.resetHall h false 1#4
  | 2 => s.resetHall h true 2#4
  | 3 => s.releaseHall h
  | _ => s

/-- A write of a hall block. -/
def State.writeHall (s : State) (q : Req) (h : BitVec 4) (o : Nat) (v : Word) : Option State :=
  if 0x1200 ≤ o && o < 0x1248 then (if q.high then s.writeFq h (o - 0x1200) v else none)
  else if !q.isP then none
  else if o = 0x000 then some (s.writeHown h (v.extractLsb' 32 16))
  else if o = 0x008 then some (s.writeHallctl h v)
  else if o = 0x010 then
    some (if v.getLsbD 31 then
      s.onHall h fun x => { x with vlog := x.vlog.map fun p => (p.1, { p.2 with valid := false }), vnext := 0, vovf := 0#32 } else s)
  else if 0x100 ≤ o && o < 0x300 then
    let i := BitVec.ofNat 5 ((o - 0x100) / 16)
    some (if o % 16 = 0 then s.writeGwbase h i v else s.writeGwctl h i v)
  else if 0x300 ≤ o && o < 0x348 then some (s.writeGuar h ((o - 0x300) / 8) (v.extractLsb' 0 4))
  else if 0x400 ≤ o && o < 0x880 then
    let p := (o - 0x400) / 0x80
    ((s.port h p).write ((o - 0x400) % 0x80) v).map fun x => s.onPort h p fun _ => x
  else if o = 0x1018 then some (s.onHall h fun x => { x with cswin := v &&& 0x0000000FF0000000#64 })
  else if o = 0x1150 then
    some (s.onHall h fun x =>
      { x with freeze := v.getLsbD 0, traffic := if v.getLsbD 1 then Vector.replicate 10 0#64 else x.traffic })
  else if o = 0x1300 then some (s.onHall h fun x => { x with scrubcfg := scrubStored v })
  else if o = 0x1310 then
    some (if v.getLsbD 31 then
      s.onHall h fun x => { x with elog := x.elog.map fun p => (p.1, { p.2 with valid := false }), enext := 0, eovf := 0#32 } else s)
  else if o = 0x1400 then some (s.onHall h fun x => { x with plim := v.extractLsb' 32 16, tlim := v.extractLsb' 16 8 })
  else if 0x2000 ≤ o && o < 0x4000 then s.writeCluster h (BitVec.ofNat 5 ((o - 0x2000) / 0x100)) ((o - 0x2000) % 0x100) v
  else if 0x6000 ≤ o && o < 0x8000 then
    some (s.onHall h fun x =>
      { x with route := (List.range 4).foldl (fun r j =>
          alSet (4 * ((o - 0x6000) / 8) + j) (v.extractLsb' (16 * j) 16 &&& 0x81FF#16) r) x.route })
  else none

/-! ## The census (R406, Table 30.4) -/

/-- Where the census shows the P set, which Table 21.7 leaves out: in the part of the layout that Table 21.6 leaves free (R317,
log 18). -/
def State.censusPset (s : State) : List (Nat × List Byte) :=
  [(0x57000, wordsBytes [s.pset.evec, s.pset.epc, s.pset.ecause, s.pset.eval, s.pset.estat])]

/-- A word of the live state of the hart, in the layout of its slot, with its P set (R317). -/
def State.censusHart (s : State) (off : Nat) : Word :=
  if 0x1000 ≤ off && off < 0x1800 then
    (match s.myUnit with | some u => s.word (s.slotPa u.slotHall u.slot + off) | none => 0#64)
  else
    let own := match s.hart.claim with | some c => c.own s.myHall | none => 0
    let l := s.hart.pieces own ++ s.censusPset
    leWord ((List.range 8).map fun i => pieceByte l (off + i))

/-- STATE of a tail-table entry (Table 15.6). -/
def InkState.code : InkState → Nat
  | .free => 0 | .openPage => 1 | .sealing => 2 | .sealed => 3 | .freeing => 4

/-- The two words of a tail-table entry (Table 15.6). -/
def InkPage.words (p : InkPage) : List Word :=
  [ place p.st.code 61 3 ||| place p.vf.toNat 51 10 ||| place p.tail 34 17 ||| place p.pend 26 8,
    place p.rmap.toNat 48 16 ||| place (bit p.epois) 32 1 ||| place p.reads 16 16 ]

/-- The two words of a window entry (the packing of the second: log 18). -/
def Window.words (w : Window) : List Word :=
  let filled := (w.lines.filter fun l => match l.line with | .data _ => true | _ => false).length
  [ w.base, place filled 42 22 ||| place w.vf.toNat 32 10 ||| place w.len 0 32 ]

/-- The two words of a barrier slot (Table 30.4). -/
def Barrier.words (b : Barrier) (members num : Nat) (held : Bool) : List Word :=
  [ place b.scope.toNat 49 3 ||| place (bit b.lost) 48 1 ||| place b.tgt 32 16 ||| place b.gen.toNat 0 32,
    place (bit held) 28 1 ||| place num 24 4 ||| place members 16 8 ||| place b.arr 0 16 ]

/-- The members of a cluster barrier by their place in the group of n, as a mask. -/
def memberMask (us : List UnitRec) (b : Barrier) : Nat :=
  b.members.foldl (fun m k => match us.find? fun u => u.key == k with | some u => m ||| 2 ^ u.pos | none => m) 0

/-- A violation log entry (Table 23.7). -/
def Violation.words (v : Violation) : List Word :=
  [ v.pa, place v.chip.toNat 52 12 ||| place v.hall.toNat 48 4 ||| place v.vf.toNat 38 10 ||| place v.cause.toNat 24 8 ||| place (bit v.valid) 0 1,
    v.time, 0#64 ]

/-- An error log entry (Table 28.5). -/
def ErrorEntry.words (e : ErrorEntry) : List Word :=
  [ e.addr, place e.src.toNat 56 8 ||| place (bit e.ue) 55 1 ||| place (bit e.scrub) 54 1 ||| place e.cluster.toNat 37 5
      ||| place e.hart.toNat 34 3 ||| place e.lane.toNat 27 7 ||| place (bit e.valid) 0 1,
    e.time, e.synd ]

/-- A read of the census region of a hall. The registers of harts that this model does not run have free values
(log 1). -/
def State.readCensus (s : State) (h : BitVec 4) (o : Nat) : Word :=
  let x := s.hall h
  if o < 0x8000000 then
    let n := o / 0x80000
    if s.isHart h (BitVec.ofNat 5 (n / 8)) (BitVec.ofNat 3 (n % 8)) then s.censusHart (o % 0x80000) else Config.freeWord s.fresh
  else if o < 0xA000000 then
    let fr := (o - 0x8000000) / 16
    let t := if x.inkcfg.getLsbD 40 then 2 + h.toNat % 2 else h.toNat % 2
    wordAt (s.inkPage (mkPa s.chip (h.toNat / 2) t (fieldNat x.inkcfg 0 9 * 2 ^ 30 + fr * 65536))).words (o % 16 / 8)
  else if o < 0xA000400 then ((alFind ((o - 0xA000000) / 16) x.windows).map fun w => wordAt w.words (o % 16 / 8)).getD 0#64
  else if 0xA001000 ≤ o && o < 0xA001800 then
    ((alFind ((o - 0xA001000) / 32) x.landings).map fun l => wordAt l.desc (o % 32 / 8)).getD 0#64
  else if 0xA004000 ≤ o && o < 0xA006000 then
    let n := (o - 0xA004000) / 16
    match ((x.cluster (BitVec.ofNat 5 (n / 16))).barriers)[n % 16]? with
    | some p => wordAt (p.2.words (memberMask s.units p.2) p.1.2.2.2 true) (o % 16 / 8)
    | none => 0#64
  else if 0xA014000 ≤ o && o < 0xA015000 then
    wordAt (((alFind ((o - 0xA014000) / 16) x.barriers).getD Barrier.reset).words 0 0 false) (o % 16 / 8)
  else if 0xB000000 ≤ o && o < 0xB002000 then
    ((alFind ((o - 0xB000000) / 32) x.vlog).map fun v => wordAt v.words (o % 32 / 8)).getD 0#64
  else if 0xB004000 ≤ o && o < 0xB00C000 then
    ((alFind ((o - 0xB004000) / 32) x.elog).map fun v => wordAt v.words (o % 32 / 8)).getD 0#64
  else if 0xC000000 ≤ o && o < 0x10000000 then
    s.word (spPa s.chip h (BitVec.ofNat 5 ((o - 0xC000000) / 2 ^ 21)) ((o - 0xC000000) % 2 ^ 21))
  else if 0x10000000 ≤ o && o < 0x20000000 then
    let y := fieldNat x.cswin 28 8 * 2 ^ 28 + (o - 0x10000000)
    if y < s.saveSize h then s.word (s.savePa h + y) else 0#64
  else if 0x20000000 ≤ o then
    let line := (o - 0x20000000) / 2
    let first := hbmPa s.chip h (fieldNat x.wellcfg 0 6 * 2 ^ 30) / 64
    if line * 64 < fieldNat x.wellcfg 8 6 * 2 ^ 30 then
      (List.range 4).foldl (fun w j => w ||| place (s.wellLine (first + line + j)).header.toNat (16 * j) 16) 0#64
    else 0#64
  else 0#64

/-! ## The aperture (Table 30.1) -/

/-- The hall of a die with a parity. -/
def hallOf (die : BitVec 3) (parity : Nat) : BitVec 4 := BitVec.ofNat 4 (2 * die.toNat + parity)

/-- Whether a hall answers register accesses of a requester below mode P: its PKGSTAT bit is set (R403). -/
def State.hallUp (s : State) (q : Req) (h : BitVec 4) : Bool := q.high || s.pkgstat.getLsbD h.toNat

/-- What a requester reads of a hall's registers and census: everything in mode P and for the PF, its own tenant's
in mode S, 0 otherwise (R402, R406). -/
def State.seesHall (s : State) (q : Req) (h : BitVec 4) : Bool := q.high || (q.role == .s && s.owns (s.tenantOf q.vf) h)

/-- WELLCFG and INKCFG, which read the same in every mode (R254). -/
def regionReg (o : Nat) : Bool := o == 0x1000 || o == 0x1008

/-- A register read of 8 bytes at a physical address of target 5 of this chip; none: an error response. -/
def State.regRead (s : State) (q : Req) (pa : Nat) : Option Word :=
  let o := paOffset pa
  if o < 0x100000 then some (s.readPackage o)
  else if 0x800000 ≤ o && o < 0x1000000 then
    let v := BitVec.ofNat 10 ((o - 0x800000) / 0x2000)
    some (if q.high || (q.role == .s && s.tenantOf q.vf == s.tenantOf v && s.tenantOf v != 0#16) then s.readVf v (paDie pa) ((o - 0x800000) % 0x2000)
      else 0#64)
  else match regHall o with
    | none => some 0#64
    | some p =>
      let h := hallOf (paDie pa) p
      if 0x80000000 ≤ o then some (if s.seesHall q h then s.readCensus h (o % 0x40000000) else 0#64)
      else if !s.hallUp q h then none
      else some (if s.seesHall q h || (regionReg (o % 0x1000000) && s.owns (s.tenantOf q.vf) h) then s.readHall h (o % 0x1000000) else 0#64)

/-- A register write of 8 bytes by a requester in a hall; none: an error response, and nothing changes (R400, R406). -/
def State.regWrite (s : State) (q : Req) (frm : BitVec 4) (pa : Nat) (v : Word) : Option State :=
  let o := paOffset pa
  if o < 0x100000 then s.writePackage q o v
  else if 0x800000 ≤ o && o < 0x1000000 then s.writeVf q frm (BitVec.ofNat 10 ((o - 0x800000) / 0x2000)) pa ((o - 0x800000) % 0x2000) v
  else match regHall o with
    | none => none
    | some p =>
      if 0x80000000 ≤ o then none
      else
        let h := hallOf (paDie pa) p
        if s.hallUp q h then s.writeHall q h (o % 0x1000000) v else none

/-- REGISTER_WRITE (R400): mode 0 A, 1 S or the VF's host driver, 2 P, 3 the PF; aligned to 8 bytes. -/
def execRegisterWrite (pa value : Word) (mode : BitVec 2) (vf : BitVec 10) (s : State) :=
  let role := match mode.toNat with | 0 => Role.a | 1 => .s | 2 => .p | _ => .pf
  happened (if paTarget pa.toNat = 5 && paChip pa.toNat = s.chip && pa.toNat % 8 = 0 then
    (s.regWrite { role := role, vf := vf } (hallOf (paDie pa.toNat) 0) pa.toNat value).getD s else s)

/-- CENSUS_WRITE (R406): an error response, and nothing changes. -/
def execCensusWrite (_pa _value : Word) (s : State) := happened s

end Sys2Proof.Machine
end

