-- ==== Sys2Proof/Machine/Access.lean ====
section
/-! DEFINITION. Access.lean: the memory accesses of the hart: checks, sources of a load, how a failure is
delivered, and fault run-ahead (R86 to R91, R153, R155, R225 to R233, R326 to R328, R333, R337). -/

namespace Sys2Proof.Machine

/-! ## Run-ahead: the batch (R328) -/

/-- Enter a page once, by its 64 KiB-aligned address, in the order of first faults; a batch holds 64. -/
def RunAhead.enter (r : RunAhead) (e : BatchEntry) : RunAhead :=
  if r.batch.any (fun x => x.va >>> 16 == e.va >>> 16) || 64 ≤ r.batch.length then r else { r with batch := r.batch ++ [e] }

/-- The batch record (Table 21.8). -/
def RunAhead.record (r : RunAhead) (stop : Nat) : List Word :=
  [place r.count 16 16 ||| place stop 12 4 ||| place r.batch.length 0 7, 0#64]
    ++ r.batch.flatMap fun e => [e.va, setField e.pc 0 e.kind]

/-- Nothing is unknown. -/
def Unknown.none : Unknown where
  g := 0#32
  v := Vector.replicate 32 0#524288
  m := Vector.replicate 8 0#131072
  z := 0#4
  l := 0#2
  vl := false
  vmode := false
  stored := []

/-- Run-ahead from the state of the faulting instruction (R326), a scalar access or another. -/
def State.startAhead (s : State) (e : BatchEntry) (detail : BitVec 2) (scalar : Bool) : RunAhead :=
  { checkpoint := { s.hart with cut := none }, first := true, detail := detail, unknown := Unknown.none, batch := [e], count := 0, scalar := scalar }

/-- Where the batch record of the hart's unit lies: offset 0x1000 of its slot (Table 21.6). -/
def State.recordPa (s : State) : Nat :=
  (match s.myUnit with | some u => s.slotPa u.slotHall u.slot | none => s.slotPa s.myHall 0) + 0x1000

/-- The VF of the hart is shadowed, and the hart is not in mode P (R334, R337). -/
def State.shadowed (s : State) : Bool := s.hart.mode != .p && (s.vf s.myVf).xroot.getLsbD 1

/-- Whether the instruction at hand carries a prefix. -/
def State.prefixed (s : State) : Bool := s.hart.ir.1.isSome

/-- Deliver a batch: code 9 with its record, or, in a shadowed VF, a held access (R328, R337). -/
def State.deliverBatch (s : State) (r : RunAhead) (stop : Nat) : State :=
  let x : Held :=
    { token := 0#32, cmd := none, vf := 0#10, va := (r.batch.head?.map (·.va)).getD 0#64, kind := r.detail, tlbsh := none,
      code := 9, after := false, pfx := s.prefixed, scalar := r.scalar, record := r.record stop, recordPa := s.recordPa, cut := none }
  if s.shadowed then s.holdHart (r.batch.map fun e => (e.va, e.kind.toNat, e.reason.toNat)) x else s.forward x

/-- Run-ahead stops (R328): the hart rolls back; for STOP 5 nothing more happens. -/
def State.stopAhead (s : State) (stop : Nat) : State :=
  match s.ra with
  | none => s
  | some r => if stop = 5 then s.rollback else s.rollback.deliverBatch r stop

/-- A pre-emption request awaits the hart's unit (R310). -/
def State.askedToStop (s : State) : Bool := (s.myUnit.map (·.preempt)).getD false

/-- FAULT_RUN_AHEAD_STOP (R328): a stop whose condition holds now. STOP 2, 3 and 4 come from the instruction at the PC, with its
own turn. -/
def execFaultRunAheadStop (stop : BitVec 4) (s : State) :=
  happened (match s.ra with
    | none => s
    | some r =>
      if (stop = 0#4 && decide (256 ≤ r.count)) || (stop = 1#4 && decide (64 ≤ r.batch.length)) || (stop = 5#4 && s.askedToStop)
      then s.stopAhead stop.toNat else s)

/-! ## Delivering a failure of an access (R326, R333, R337) -/

/-- A translation fault of the hart: run-ahead in mode A without a span, a held access in a shadowed VF, code 9
with one entry in a span, code 8 otherwise. A range fault of the alias traps at once. -/
def State.takeFault (s : State) (t : Trap) : State :=
  match t.reason with
  | none => s.takeTrap t
  | some r =>
    let e : BatchEntry := { va := t.eval, pc := s.hart.pc, kind := BitVec.ofNat 2 t.detail, reason := BitVec.ofNat 4 r.code }
    if s.hart.mode = .a && s.positions = 1 then
      (if s.ra.isSome then s.takeTrap t else { s with ra := some (s.startAhead e e.kind t.scalar) })
    else if s.hart.mode = .a then s.deliverBatch (s.startAhead e e.kind t.scalar) 0
    else if s.shadowed then
      s.holdHart [(t.eval, t.detail, r.code)]
        { token := 0#32, cmd := none, vf := 0#10, va := t.eval, kind := e.kind, tlbsh := none, code := 8, after := false,
          pfx := s.prefixed, scalar := t.scalar, record := [], recordPa := 0, cut := none }
    else s.takeTrap t

/-- An instruction that accesses memory ends. -/
def finishMem (p : Option Pfx) (r : Res) : Host.Outcome State Fault Refusal :=
  match r with
  | .ok s => .next (s.retire (pfxLen p))
  | .error (t, s) => .next (s.takeFault { t with pfx := p.isSome })

/-! ## Checks (R86, R153) -/

/-- Classes that an instruction accepts. -/
abbrev Accept := Class → Bool

/-- NRM only. -/
def onlyNrm : Accept := (· == .nrm)
/-- INK only. -/
def onlyInk : Accept := (· == .ink)
/-- NRM, or INK below the tail. -/
def nrmInk : Accept := fun c => c == .nrm || c == .ink
/-- Loads of R86. -/
def loadClasses : Accept := fun c => c == .nrm || c == .ink || c == .dev
/-- Stores of R86. -/
def storeClasses : Accept := fun c => c == .nrm || c == .dev
/-- The well classes. -/
def wellClasses : Accept := fun c => c == .wlx || c == .wlf

/-- The checks of an access of n bytes at va aligned to al, in their order; `frm` is the hall whose translations it uses: that
of the span position it belongs to (R220, R335). -/
def State.locate (s : State) (frm : BitVec 4) (k : Kind) (va : Word) (n al : Nat) (ok : Accept) : Except Trap Xl :=
  if !canonical va then .error { code := 6, eval := va }
  else if va.toNat % al ≠ 0 then .error { code := 7, eval := va }
  else match s.hartXlate frm k va n with
    | .error r =>
      .error { code := 8, eval := va, detail := k.code, reason := if (s.aliasByte va).isSome then none else some r }
    | .ok x => if ok x.cls then .ok x else .error { code := 10, eval := va }

/-- Keep the translation of an access (R335). -/
def State.keepXlate (s : State) (frm : BitVec 4) (va : Word) : State :=
  if (s.aliasByte va).isSome || !canonical va then s else s.fillTlb s.who frm va

/-- Check an access. In run-ahead a translation fault adds its page to the batch, and there is no access
(R327). -/
def State.reach (s : State) (frm : BitVec 4) (k : Kind) (va : Word) (n al : Nat) (ok : Accept) : State × Except Trap (Option Xl) :=
  let r := s.locate frm k va n al ok
  let s := s.keepXlate frm va
  match r with
  | .ok x => (s, .ok (some x))
  | .error t =>
    match s.ra, t.reason with
    | some a, some why =>
      ({ s with ra := some (a.enter { va := va, pc := s.hart.pc, kind := BitVec.ofNat 2 k.code, reason := BitVec.ofNat 4 why.code }) },
        .ok none)
    | _, _ => (s, .error t)

/-! ## Sources of a load (R195, R231) -/

/-- Fill one line of a window from its home (R195). -/
def State.fillLine (s : State) (v : BitVec 10) (h : BitVec 4) (n : Nat) (e : WinEntry) : State × WinLine :=
  let pa := e.pa * 64
  let (s, line) : State × WinLine :=
    match s.refusal (some v) h pa 64 false with
    | some c => (s.logRefusal (some v) h pa c, .error)
    | none =>
      match s.readHome (some v) h pa 64 false with
      | .ok l => (s.count h pa 64 false, .data (BitVec.ofNat 512 (leNat l)))
      | .error .poison => (s, .poison)
      | .error _ => (s, .error)
  (s.onHall h fun x =>
    { x with windows := x.windows.map fun p =>
        if p.1 = n then (p.1, { p.2 with lines := p.2.lines.map fun l => if l.va = e.va then { l with line := line } else l })
        else p }, line)

/-- The line of an open window of the hart's VF in a hall that covers va, with the window's number. -/
def State.windowLine (s : State) (h : BitVec 4) (va : Word) : Option (Nat × WinEntry) :=
  match s.who with
  | none => none
  | some v =>
    ((s.hall h).windows.filterMap fun p =>
      if p.2.vf = v then (p.2.lines.find? fun l => l.va == va.toNat / 64).map fun l => (p.1, l) else none).head?

/-- A published replica of a sealed page that a load of the VF reads: in the pool of hall h, which its tenant
owns. -/
def State.replicaIn (s : State) (v : BitVec 10) (pa : Nat) (h : BitVec 4) : Bool :=
  (s.inkPage pa).st == .sealed && s.owns (s.tenantOf v) h
    && s.replicas.any fun r => r.1 == inkFrame pa && r.2.1 == h.toNat && r.2.2 == .published

/-- The other hall of a die. -/
def sibling (h : BitVec 4) : BitVec 4 := h ^^^ 1#4

/-- The pool from which a load of hall h reads a sealed page (R231). -/
def State.replicaHall (s : State) (who : Option (BitVec 10)) (h : BitVec 4) (pa : Nat) : Option (BitVec 4) :=
  match who with
  | none => none
  | some v =>
    if s.replicaIn v pa h then some h
    else if s.replicaIn v pa (sibling h) && (s.hall (sibling h)).st == .running then some (sibling h)
    else none

/-- Read n bytes at their home, with the counts and logs of the read. -/
def State.readAtHome (s : State) (who : Option (BitVec 10)) (h : BitVec 4) (x : Xl) (n : Nat) : State × Except Late (List Byte) :=
  match s.refusal who h x.pa n false with
  | some c => (s.logRefusal who h x.pa c, .error .error)
  | none =>
    match s.readHome who h x.pa n (x.cls == .ink) with
    | .ok l => (s.count h x.pa n false, .ok l)
    | .error e => (s, .error e)

/-- The pool of hall p and the address in it of the bytes of a page. -/
def State.replicaAt (s : State) (who : Option (BitVec 10)) (h : BitVec 4) (x : Xl) : Option (BitVec 4 × Nat) :=
  match (if x.cls = .ink then s.replicaHall who h x.pa else none) with
  | none => none
  | some p => (s.replicaPa (inkFrame x.pa) p).map fun a => (p, a + x.pa % 65536)

/-- Read n bytes at the replica or at the home. An uncorrectable error in a replica's line reclaims the replica, and the read is
made again at the home (R261); a page with a failed entry is poison (R260). -/
def State.readSource (s : State) (who : Option (BitVec 10)) (h : BitVec 4) (x : Xl) (n : Nat) : State × Except Late (List Byte) :=
  match s.replicaAt who h x with
  | none => s.readAtHome who h x n
  | some (p, a) =>
    if (s.inkPage x.pa).epois then (s, .error .poison)
    else if (s.inkPage x.pa).tail < x.pa % 65536 + n then (s, .error .tail)
    else if s.poisoned a n then (s.reclaimReplica (inkFrame x.pa) p).readAtHome who h x n
    else (s.addTraffic h (if p = h then 0 else 2) n, .ok (s.bytes a n))

/-- What an access of run-ahead counted is not counted (R233, R327). -/
def State.uncount (s t : State) (h : BitVec 4) : State := if s.ra.isSome then s.countsOf t h else s

/-- Read n bytes of one line for the hart: window, where the access may read one, replica, home (R231). What the hart posted to
them is performed first (R90, R157). `frm`: the hall of the span position that reads (R220). -/
def State.readLine (s : State) (frm : BitVec 4) (win : Bool) (va : Word) (x : Xl) (n : Nat) : State × Except Late (List Byte) :=
  let s := s.settleAt x.pa n
  match (if win then s.windowLine frm va else none) with
  | some (i, e) =>
    let (s, line) := match e.line with | .unfilled => s.fillLine s.myVf frm i e | l => (s, l)
    match line with
    | .data b => ((s.addTraffic frm 0 n).uncount s frm, .ok (leBytes n (b.toNat >>> (8 * (va.toNat % 64)))))
    | .poison => (s, .error .poison)
    | _ => (s, .error .error)
  | none =>
    let r := s.readSource s.who frm x n
    (r.1.uncount s frm, r.2)

/-- Read n bytes that may cover several lines, line by line (R195, R231). -/
def State.readLines (s : State) (frm : BitVec 4) (win : Bool) (va : Word) (x : Xl) : List Nat → State × Except Late (List Byte)
  | [] => (s, .ok [])
  | n :: r =>
    match s.readLine frm win va x n with
    | (s, .error e) => (s, .error e)
    | (s, .ok l) =>
      match s.readLines frm win (va + BitVec.ofNat 64 n) { x with pa := x.pa + n } r with
      | (s, .ok m) => (s, .ok (l ++ m))
      | (s, .error e) => (s, .error e)

/-! ## Devices (R91, R355, R400) -/

/-- An address of a register of this chip. -/
def State.ownReg (s : State) (pa : Nat) : Bool := paTarget pa == 5 && paChip pa == s.chip && decide (paOffset pa < 2 ^ 32)

/-- A load of a DEV page: a register of this chip, eight bytes at a time, or bytes of host memory, of which no copy is held (R355,
R356); what another chip's register returns is open (log 9). -/
def State.devLoad (s : State) (pa n : Nat) : State × Except Late Nat :=
  if s.ownReg pa then
    match (if n = 8 && !s.pairLost s.myHall pa then s.regRead s.req pa else none) with
    | some w => (s.countDevice s.myHall pa n false, .ok w.toNat)
    | none => (s, .error .error)
  else match s.refusal s.who s.myHall pa n false with
    | some c => (s.logRefusal s.who s.myHall pa c, .error .error)
    | none =>
      if paTarget pa = 5 then
        (if n ≠ 8 then (s, .error .error)
        else ({ s.countDevice s.myHall pa n false with fresh := s.fresh + 1 }, .ok (Config.freeWord s.fresh).toNat))
      else if s.poisoned pa n then (s, .error .poison)
      else (s.countDevice s.myHall pa n false, .ok (leNat (s.bytes pa n)))

/-- A store to a DEV page, performed at once (R91): the state after it, or that after an error response. -/
def State.devStore (s : State) (pa : Nat) (bs : List Byte) : Except State State :=
  let n := bs.length
  if s.ownReg pa then
    match (if n = 8 && !s.pairLost s.myHall pa then s.regWrite s.req s.myHall pa (leWord bs) else none) with
    | some t => .ok (t.countDevice s.myHall pa n true)
    | none => .error s
  else match s.refusal s.who s.myHall pa n true with
    | some c => .error (s.logRefusal s.who s.myHall pa c)
    | none =>
      if paTarget pa = 5 then (if n ≠ 8 then .error s else .ok (s.countDevice s.myHall pa n true))
      else .ok ((s.performBytes pa bs).countDevice s.myHall pa n true)

/-! ## Loads of the hart (R87, R155, R327) -/

/-- What a load finds. -/
inductive Got where
  | bytes (l : List Byte)
  | unknown
  | late (e : Late)
  | trap (t : Trap)
deriving DecidableEq, Repr

/-- The trap of an error found after issue (R87, Table 9.2). -/
def Late.trap (e : Late) (va : Word) : Trap :=
  { code := match e with | .error => 13 | .poison => 12 | .tail => 11, eval := va }

/-- STATUS of an error found after issue (Table 9.2). -/
def Late.status : Late → BitVec 4
  | .error => 6#4 | .poison => 5#4 | .tail => 1#4

/-- A store, append or other write of run-ahead names a byte of these n (R327). -/
def State.aheadStored (s : State) (pa n : Nat) : Bool :=
  ((s.ra.map (·.unknown.stored)).getD []).any fun r => decide (r.1 < pa + n) && decide (pa < r.1 + r.2)

/-- In run-ahead a load has a known value only in an NRM or INK page homed in the hart's own hall, and of bytes
that no run-ahead store names (R327). -/
def State.aheadKnown (s : State) (x : Xl) (n : Nat) : Bool :=
  (x.cls == .nrm || x.cls == .ink) && decide (paTarget x.pa < 5) && paChip x.pa == s.chip && homeHall x.pa == s.myHall
    && !s.aheadStored x.pa n

/-- A load of n bytes at va, aligned to al, in pieces that each lie in one line; `win`: it may read a window, as scalar loads, VLD,
VLDFF and OLGATH do (R195). -/
def State.loadFrom (s : State) (frm : BitVec 4) (win : Bool) (va : Word) (n al : Nat) (ok : Accept) (pieces : List Nat) :
    State × Got :=
  match s.reach frm .load va n al ok with
  | (s, .error t) => (s, .trap t)
  | (s, .ok none) => (s, .unknown)
  | (s, .ok (some x)) =>
    if s.ra.isSome && !s.aheadKnown x n then (s, .unknown)
    else if x.cls = .dev then
      match s.devLoad x.pa n with
      | (s, .ok w) => (s, .bytes (leBytes n w))
      | (s, .error e) => (s, .late e)
    else
      match s.readLines frm win va x pieces with
      | (s, .ok l) => (s, .bytes l)
      | (s, .error e) => (s, .late e)

/-- A load of the hart itself that reads no window. -/
def State.loadAt (s : State) (va : Word) (n al : Nat) (ok : Accept) (pieces : List Nat) : State × Got :=
  s.loadFrom s.myHall false va n al ok pieces

/-! ## Stores of the hart (R88, R89, R327) -/

/-- In run-ahead a store is only translated, and its bytes are noted (R327). -/
def State.noteStored (s : State) (pa n : Nat) : State :=
  { s with ra := s.ra.map fun r => { r with unknown := { r.unknown with stored := (pa, n) :: r.unknown.stored } } }

/-- Check a write of n bytes; none where run-ahead keeps it from leaving the hart. -/
def State.reachWrite (s : State) (frm : BitVec 4) (k : Kind) (va : Word) (n al : Nat) (ok : Accept) : State × Except Trap (Option Xl) :=
  match s.reach frm k va n al ok with
  | (s, .error t) => (s, .error t)
  | (s, .ok none) => (s, .ok none)
  | (s, .ok (some x)) => if s.ra.isSome then (s.noteStored x.pa n, .ok none) else (s, .ok (some x))

/-- The log2 of an element size. -/
def lszOf (n : Nat) : BitVec 3 := BitVec.ofNat 3 n.log2

/-- Post the write of n bytes at va, or perform it at a device (R88, R91). -/
def State.storeBytes (s : State) (va : Word) (x : Xl) (bs : List Byte) : State :=
  let n := bs.length
  let req : Posted :=
    { va := setField va 0 0#6, lsz := lszOf n, mask := lineBits va.toNat n, pa := x.pa,
      payload := .bytes ((List.range n).zip bs |>.map fun p => (x.pa + p.1, p.2)), who := s.who, failed := false, also := [],
      frm := s.myHall }
  if x.cls = .dev then
    match s.devStore x.pa bs with
    | .ok t => t
    | .error t => t.post { req with failed := true }
  else s.post req

/-- A store of the hart: checks, then the request leaves. -/
def State.storeAt (s : State) (va : Word) (bs : List Byte) (ok : Accept) : Except (Trap × State) State :=
  match s.reachWrite s.myHall .store va bs.length bs.length ok with
  | (s, .error t) => .error (t, s)
  | (s, .ok none) => .ok s
  | (s, .ok (some x)) => .ok (s.storeBytes va x bs)

/-! ## Scopes (R57, R110) -/

/-- The VF of the hart limits an instruction of this scope (R110). Mode P acts for no VF. -/
def State.limited (s : State) (sc : BitVec 3) : Bool := sc == 5#3 && s.who.isSome && (s.vf s.myVf).scope.getLsbD 0

/-- An instruction of a scope in a limited VF traps before any effect, where SYSTRAP is set (R110). -/
def State.scoped (s : State) (sc : BitVec 3) : Res :=
  if s.limited sc && (s.vf s.myVf).scope.getLsbD 1 then .error ({ code := 18 }, s) else .ok s

/-- An instruction of scope SYS has run at TEN in a limited VF, and leaves SCOPEDEMOTED (R110). -/
def State.demote (s : State) (sc : BitVec 3) : State := if s.limited sc then s.noteVstat vstatDemoted else s

/-- The scope at which an instruction runs. -/
def State.scopeRun (s : State) (sc : BitVec 3) : BitVec 3 := if s.limited sc then 4#3 else sc

end Sys2Proof.Machine
end

