-- ==== Sys2Proof/Machine/LoadStore.lean ====
section
/-! DEFINITION. LoadStore.lean: scalar loads and stores (R85 to R91). -/

namespace Sys2Proof.Machine

/-- The effective address of S-I format (R85). -/
def State.ea (s : State) (a : BitVec 5) (i : BitVec 16) : Word := s.g a + i.signExtend 64

/-- Extend a value of n bytes to a register (Table 5.4). -/
def extendBytes (n : Nat) (signed : Bool) (x : Nat) : Word :=
  if signed then BitVec.ofInt 64 (toSigned (8 * n) x) else BitVec.ofNat 64 (x % 2 ^ (8 * n))

/-- The effect of a load into g[d], with the access left out when the hypervisor has completed it (R337). -/
def loadEffect (d : BitVec 5) (n : Nat) (signed : Bool) (va : Word) (s : State) : Res :=
  match s.hart.fq with
  | .complete x => .ok ((s.onHart fun h => { h with fq := .none }).setG d (extendBytes n signed x.toNat))
  | _ =>
    match s.loadFrom s.myHall true va n n loadClasses [n] with
    | (s, .bytes l) => .ok ((s.setG d (extendBytes n signed (leNat l))).noteG d false)
    | (s, .unknown) => .ok (s.noteG d true)
    | (s, .late e) => .error (e.trap va, s)
    | (s, .trap t) => .error ({ t with scalar := true }, s)

/-- The effect of a store of the low n bytes of g[d]. -/
def storeEffect (d : BitVec 5) (n : Nat) (va : Word) (s : State) : Res :=
  match s.hart.fq with
  | .complete _ => .ok (s.onHart fun h => { h with fq := .none })
  | _ =>
    match s.storeAt va (leBytes n (s.g d).toNat) storeClasses with
    | .ok s => .ok s
    | .error (t, s) => .error ({ t with scalar := true }, s)

/-- A scalar load ends. -/
def scalarLoad (d a : BitVec 5) (i : BitVec 16) (n : Nat) (signed : Bool) (s : State) :=
  finishMem none (loadEffect d n signed (s.ea a i) s)

/-- A posting instruction waits while the hart can issue no further request (R89). -/
def postStalls (s : State) (r : Unit → Host.Outcome State Fault Refusal) : Host.Outcome State Fault Refusal :=
  if s.ra.isNone && s.postFull then .next s else r ()

/-- A scalar store ends. -/
def scalarStore (d a : BitVec 5) (i : BitVec 16) (n : Nat) (s : State) :=
  postStalls s fun _ => finishMem none (storeEffect d n (s.ea a i) s)

/-- LDB (R85). -/
def execLdb (d a : BitVec 5) (i : BitVec 16) (s : State) := scalarLoad d a i 1 true s
/-- LDBN (R85). -/
def execLdbn (d a : BitVec 5) (i : BitVec 16) (s : State) := scalarLoad d a i 1 false s
/-- LDH (R85). -/
def execLdh (d a : BitVec 5) (i : BitVec 16) (s : State) := scalarLoad d a i 2 true s
/-- LDHN (R85). -/
def execLdhn (d a : BitVec 5) (i : BitVec 16) (s : State) := scalarLoad d a i 2 false s
/-- LDW (R85). -/
def execLdw (d a : BitVec 5) (i : BitVec 16) (s : State) := scalarLoad d a i 4 true s
/-- LDWN (R85). -/
def execLdwn (d a : BitVec 5) (i : BitVec 16) (s : State) := scalarLoad d a i 4 false s
/-- LDD (R85). -/
def execLdd (d a : BitVec 5) (i : BitVec 16) (s : State) := scalarLoad d a i 8 false s
/-- STB (R85). -/
def execStb (d a : BitVec 5) (i : BitVec 16) (s : State) := scalarStore d a i 1 s
/-- STH (R85). -/
def execSth (d a : BitVec 5) (i : BitVec 16) (s : State) := scalarStore d a i 2 s
/-- STW (R85). -/
def execStw (d a : BitVec 5) (i : BitVec 16) (s : State) := scalarStore d a i 4 s
/-- STD (R85). -/
def execStd (d a : BitVec 5) (i : BitVec 16) (s : State) := scalarStore d a i 8 s

end Sys2Proof.Machine
end

