-- ==== Sys2Proof/Machine/Atomic.lean ====
section
/-! DEFINITION. Atomic.lean: atomics, ordered accesses, FENCE and VDRAIN (R101 to R110). -/

namespace Sys2Proof.Machine

/-- The release of an instruction that carries the mark, at its scope, with the trap that it owes; nothing leaves the hart in
run-ahead (R102, R327). -/
def State.releaseIf (s : State) (mark : Bool) (sc : BitVec 3) : Res := if mark && s.ra.isNone then s.release (s.scopeRun sc) else .ok s

/-- The hypervisor has answered the instruction's held access with COMPLETE. -/
def State.completed (s : State) : Option Word := match s.hart.fq with | .complete x => some x | _ => none

/-- That answer is used up. -/
def State.useAnswer (s : State) : State := s.onHart fun h => { h with fq := .none }

/-- One atomic step of the hart on n bytes of an NRM page (R101, R107). What the hart posted there comes before it
(R90), and the line leaves the windows of its hall (R195). `refused`: no PCIe AtomicOp carries it (R360);
`atHost`: the host home agent performs it on host memory (R161, R358). none: run-ahead keeps it from leaving the
hart. -/
def State.atomicAt (s : State) (va : Word) (n : Nat) (refused atHost : Bool) (f : Nat → Option Nat) :
    Except (Trap × State) (Option Nat × State) :=
  match s.reachWrite s.myHall .rmw va n n onlyNrm with
  | (s, .error t) => .error (t, s)
  | (s, .ok none) => .ok (none, s)
  | (s, .ok (some x)) =>
    let s := s.settleAt x.pa n
    match s.updateHome s.who s.myHall x.pa n refused f with
    | .error (e, s) => .error (e.trap va, s)
    | .ok (m, s) => .ok (some m, (s.countUpdate s.myHall x.pa n atHost).dropWindowLines s.myHall x.pa n)

/-- Bytes of an ATOM access: 4 under W32, else 8. -/
def atomBytes (w : Bool) : Nat := if w then 4 else 8

/-- The AMO family (R103): `op` numbers the update, `signed` says how the old value extends under W32. -/
def amo (op : Nat) (t : BitVec 4) (signed : Bool) (d a b : BitVec 5) (sc : BitVec 3) (rel w : Bool) (s : State) :
    Host.Outcome State Fault Refusal :=
  let n := atomBytes w
  let va := s.g a
  let y := (s.g b).toNat % 2 ^ (8 * n)
  finishMem none (do
    let s ← s.scoped sc
    let s ← s.releaseIf rel sc
    match ← s.atomicAt va n (op != 0 && op != 11) (s.scopeRun sc == 5#3) (fun m => some (amoValue op t m y)) with
    | (some m, s) => .ok (((s.demote sc).setG d (extendBytes n signed m)).noteG d false)
    | (none, s) => .ok (s.noteG d true))

/-- The type of an integer update. -/
def amoInt (w : Bool) : BitVec 4 := if w then 5#4 else 7#4
/-- The type of a floating-point update. -/
def amoFloat (w : Bool) : BitVec 4 := if w then 12#4 else 13#4

/-- AMOADD (R103). -/
def execAmoadd (d a b : BitVec 5) (sc : BitVec 3) (_q l w : Bool) (s : State) := amo 0 (amoInt w) true d a b sc l w s
/-- AMOAND (R103). -/
def execAmoand (d a b : BitVec 5) (sc : BitVec 3) (_q l w : Bool) (s : State) := amo 1 (amoInt w) true d a b sc l w s
/-- AMOOR (R103). -/
def execAmoor (d a b : BitVec 5) (sc : BitVec 3) (_q l w : Bool) (s : State) := amo 2 (amoInt w) true d a b sc l w s
/-- AMOXOR (R103). -/
def execAmoxor (d a b : BitVec 5) (sc : BitVec 3) (_q l w : Bool) (s : State) := amo 3 (amoInt w) true d a b sc l w s
/-- AMOMIN (R103). -/
def execAmomin (d a b : BitVec 5) (sc : BitVec 3) (_q l w : Bool) (s : State) := amo 4 (amoInt w) true d a b sc l w s
/-- AMOMAX (R103). -/
def execAmomax (d a b : BitVec 5) (sc : BitVec 3) (_q l w : Bool) (s : State) := amo 5 (amoInt w) true d a b sc l w s
/-- AMOMINN (R103). -/
def execAmominn (d a b : BitVec 5) (sc : BitVec 3) (_q l w : Bool) (s : State) := amo 6 (amoInt w) false d a b sc l w s
/-- AMOMAXN (R103). -/
def execAmomaxn (d a b : BitVec 5) (sc : BitVec 3) (_q l w : Bool) (s : State) := amo 7 (amoInt w) false d a b sc l w s
/-- AMOSWP (R103). -/
def execAmoswp (d a b : BitVec 5) (sc : BitVec 3) (_q l w : Bool) (s : State) := amo 11 (amoInt w) true d a b sc l w s
/-- AMOFADD (R103). -/
def execAmofadd (d a b : BitVec 5) (sc : BitVec 3) (_q l w : Bool) (s : State) := amo 8 (amoFloat w) false d a b sc l w s

/-- CAS (R104). -/
def execCas (d a b : BitVec 5) (sc : BitVec 3) (_q l w : Bool) (s : State) : Host.Outcome State Fault Refusal :=
  let n := atomBytes w
  let va := s.g a
  let want := (s.g d).toNat % 2 ^ (8 * n)
  let new := (s.g b).toNat % 2 ^ (8 * n)
  finishMem none (do
    let s ← s.scoped sc
    let s ← s.releaseIf l sc
    match ← s.atomicAt va n false (s.scopeRun sc == 5#3) (fun m => if m = want then some new else none) with
    | (some m, s) => .ok (((s.demote sc).setG d (extendBytes n true m)).noteG d false)
    | (none, s) => .ok (s.noteG d true))

/-- The value of a register pair, the lower-numbered register in the low half (R105). -/
def State.pair (s : State) (r : BitVec 5) : Nat := (s.g r).toNat + 2 ^ 64 * (s.g (pairHi r)).toNat

/-- Write a register pair. -/
def State.setPair (s : State) (r : BitVec 5) (x : Nat) : State :=
  (s.setG r (BitVec.ofNat 64 x)).setG (pairHi r) (BitVec.ofNat 64 (x / 2 ^ 64))

/-- CAS2 (R105). -/
def execCas2 (d a b : BitVec 5) (sc : BitVec 3) (_q l : Bool) (s : State) : Host.Outcome State Fault Refusal :=
  let va := s.g a
  let want := s.pair d
  let new := s.pair b
  finishMem none (do
    let s ← s.scoped sc
    let s ← s.releaseIf l sc
    match ← s.atomicAt va 16 false (s.scopeRun sc == 5#3) (fun m => if m = want then some new else none) with
    | (some m, s) => .ok ((((s.demote sc).setPair d m).noteG d false).noteG (pairHi d) false)
    | (none, s) => .ok ((s.noteG d true).noteG (pairHi d) true))

/-- LDA (R106): an acquire, performed at its home, and so read from no window (R101, R195). In a machine whose one order of memory holds for every party, what comes after it in
the program is performed after it. -/
def execLda (d a : BitVec 5) (sc : BitVec 3) (w : Bool) (s : State) : Host.Outcome State Fault Refusal :=
  let n := atomBytes w
  let va := s.g a
  finishMem none (do
    let s ← s.scoped sc
    match s.completed with
    | some x => .ok ((s.useAnswer.demote sc).setG d (extendBytes n true x.toNat))
    | none =>
      match s.loadAt va n n loadClasses [n] with
      | (s, .bytes l) => .ok (((s.demote sc).setG d (extendBytes n true (leNat l))).noteG d false)
      | (s, .unknown) => .ok (s.noteG d true)
      | (s, .late e) => .error (e.trap va, s)
      | (s, .trap t) => .error ({ t with scalar := true }, s))

/-- STREL (R106): a release, then the store. -/
def execStrel (d a : BitVec 5) (sc : BitVec 3) (w : Bool) (s : State) : Host.Outcome State Fault Refusal :=
  let va := s.g a
  let bs := leBytes (atomBytes w) (s.g d).toNat
  postStalls s fun _ =>
    finishMem none (do
      let s ← s.scoped sc
      let s ← s.releaseIf true sc
      match s.completed with
      | some _ => .ok (s.useAnswer.demote sc)
      | none =>
        match s.storeAt va bs storeClasses with
        | .ok s => .ok (s.demote sc)
        | .error (t, s) => .error ({ t with scalar := true }, s))

/-- FENCE (R108): what the hart has issued is performed, and the traps that R88 owes for it are taken first. An acquire kind does
so too: it completes those traps, and loads and atomics are performed when they execute. -/
def execFence (sc : BitVec 3) (_q _l : Bool) (s : State) : Host.Outcome State Fault Refusal :=
  finishMem none (do
    let s ← s.scoped sc
    let s ← s.releaseIf true sc
    .ok (s.demote sc))

/-- VDRAIN (R109). -/
def execVdrain (k sc : BitVec 3) (q l : Bool) (s : State) : Host.Outcome State Fault Refusal :=
  finishMem none (do
    let s ← s.scoped sc
    let s := if s.ra.isSome then s else s.completeVecs fun o => k = 0#3 || o.k = k
    let s ← s.releaseIf (q || l) sc
    .ok (s.demote sc))

end Sys2Proof.Machine
end

