-- ==== Sys2Proof/Machine/Vmem.lean ====
section
/-! DEFINITION. Vmem.lean: vector loads, stores and atomic updates (R151 to R162), with the drivers that every
vector memory instruction uses. -/

namespace Sys2Proof.Machine

/-! ## Elements -/

/-- Whether an element is active; in run-ahead it may be unknown. -/
inductive Act where
  | on | off | unknown
deriving DecidableEq, Repr

/-- Element e under a governing mask (R49). -/
def State.act (s : State) (sel : BitVec 3) (per e : Nat) : Act :=
  if s.activeUnknown sel per e then .unknown else if s.active sel per e then .on else .off

/-- What one vector memory instruction does at every element: the governing mask, the elements of one span
position, the policy, the bytes and alignment of an element, the classes, the kind of translation, and the address;
none where run-ahead does not know it. `win`: its loads may read a window (R195). -/
structure VAccess where
  sel : BitVec 3
  per : Nat
  zero : Bool
  size : Nat
  ok : Accept
  kind : Kind
  win : Bool
  addr : Nat → Option Word

/-- The element addresses of base + e × step (R158). -/
def State.stepAddr (s : State) (a : BitVec 5) (step : Nat → Word) (unk : Nat → Bool) (e : Nat) : Option Word :=
  if s.gUnknown a || unk e then none else some (s.g a + step e)

/-- An index element times a size (R158, R161). -/
def State.indexStep (s : State) (b : BitVec 5) (size e : Nat) : Word := BitVec.ofNat 64 (s.elem (vreg b 32) e * size)

/-- The hall of the span position that holds element e, with `per` elements at each: its own memory path makes the element's
accesses (R138, R220). -/
def State.elemHall (s : State) (per e : Nat) : BitVec 4 :=
  match s.hart.claim with
  | none => s.myHall
  | some c =>
    let own := c.own s.myHall
    let p := e / per
    if p = own then s.myHall else ((c.places[if p < own then p else p - 1]?).map (·.hall)).getD s.myHall

/-! ## Counters (R154) -/

/-- Keep the first failure on counter k without changing COUNT. -/
def State.noteStatus (s : State) (k : BitVec 3) (st : BitVec 4) : State :=
  if k = 0#3 || st = 0#4 then s
  else
    let c := s.counter k
    s.setCounter k { c with err := true, status := if c.err then c.status else st }

/-- A non-blocking operation has issued elements at some span positions: it counts on k until its completion (R154). -/
def State.issueVec (s : State) (k : BitVec 3) (st : BitVec 4) (at' : BitVec 8) : State :=
  if k = 0#3 || at' = 0#8 || s.ra.isSome then s
  else
    { (s.countUp k).onHart fun h =>
        { h with vops := h.vops ++ [{ id := s.nextId, k := k, status := st, seals := none, at' := at' }] } with
      nextId := s.nextId + 1 }

/-- A further operation on k waits while COUNT is at its limit (R47). -/
def State.counterFull (s : State) (k : BitVec 3) : Bool := k != 0#3 && (s.counter k).count == BitVec.allOnes 32

/-- The first of two statuses. -/
def firstStatus (a b : BitVec 4) : BitVec 4 := if a = 0#4 then b else a

/-! ## Loads (R153 to R155, R158, R159) -/

/-- How far a vector memory instruction has come: its state, the status it will report, and where it traps. -/
structure Run where
  s : State
  st : BitVec 4
  trap : Option (Nat × Trap)

/-- What a non-blocking instruction writes to an element that met an error after issue: zero for tail and poison; for an error
response the manual gives no value, and it is free (Table 9.2, log 81). -/
def State.lateElem (s : State) (o : VOpd) (e : Nat) : Late → State
  | .error => { s.setElem o e (Config.freeWord s.fresh).toNat with fresh := s.fresh + 1 }
  | .poison => s.setElem o e 0
  | .tail => s.setElem o e 0

/-- One element of a load into operand o. Late errors trap in the blocking form and are noted in the other. -/
def loadElem (v : VAccess) (o : VOpd) (nb : Bool) (r : Run) (e : Nat) : Run :=
  let s := r.s
  match s.act v.sel v.per e with
  | .unknown => { r with s := s.noteElem o e true }
  | .off => if v.zero then { r with s := s.setElem o e 0 } else r
  | .on =>
    match v.addr e with
    | none => { r with s := s.noteElem o e true }
    | some va =>
      match s.loadFrom (s.elemHall v.per e) v.win va v.size v.size v.ok [v.size] with
      | (s, .bytes l) => { r with s := s.setElem o e (leNat l) }
      | (s, .unknown) => { r with s := s.noteElem o e true }
      | (s, .late l) =>
        if nb then { s := s.lateElem o e l, st := firstStatus r.st l.status, trap := none }
        else { r with s := s, trap := some (e, l.trap va) }
      | (s, .trap t) => { r with s := s, trap := some (e, t) }

/-- Go through elements in ascending index until one traps. -/
def runElems (f : Run → Nat → Run) : List Nat → Run → Run
  | [], r => r
  | e :: l, r => if r.trap.isSome then r else runElems f l (f r e)

/-- The span positions that hold active elements of the instruction (R221). -/
def State.activeAt (s : State) (v : VAccess) : BitVec 8 :=
  s.range.foldl (fun m e => if s.act v.sel v.per e == .on then setBit m (e / v.per) true else m) 0#8

/-- The first active element. -/
def State.firstActive (s : State) (v : VAccess) : Option Nat := s.range.find? fun e => s.act v.sel v.per e == .on

/-- A vector memory instruction ends: its trap is precise at its element, or it counts on k and VSTART is 0. -/
def Run.done (r : Run) (k : BitVec 3) (at' : BitVec 8) : Res :=
  match r.trap with
  | some (e, t) => .error (t, (r.s.noteStatus k r.st).setVstart e)
  | none => .ok ((r.s.issueVec k r.st at').setVstart 0)

/-- The effect of a load. -/
def State.vload (s : State) (v : VAccess) (o : VOpd) (k : BitVec 3) : Res :=
  (runElems (loadElem v o (k != 0#3)) s.range { s := s, st := 0#4, trap := none }).done k (s.activeAt v)

/-- An element passes its checks, and so issues (R153). -/
def State.elemIssues (s : State) (v : VAccess) (e : Nat) : Bool :=
  match v.addr e with
  | none => false
  | some va => (s.locate (s.elemHall v.per e) v.kind va v.size v.size v.ok).isOk

/-- An instruction whose first element to issue is `first` waits at issue: while its counter is full (R47), or, where it posts,
while the hart can issue no further request (R89). -/
def State.issueWaits (s : State) (k : BitVec 3) (posts : Bool) (v : VAccess) (first : Option Nat) : Bool :=
  s.ra.isNone && (s.counterFull k || (posts && k == 0#3 && s.postFull)) && first.any (s.elemIssues v)

/-- A vector memory instruction: its checks and its access, the first element that it issues, and its effect. -/
def issueOp (p : Option Pfx) (k : BitVec 3) (posts : Bool) (prep : Except (Trap × State) (State × VAccess))
    (first : State → VAccess → Option Nat) (run : State → VAccess → Res) (s : State) : Host.Outcome State Fault Refusal :=
  match prep with
  | .error e => finishMem p (.error e)
  | .ok (t, v) => if t.issueWaits k posts v (first t v) then .next s else finishMem p (run t v)

/-- The access of a VLD or VST of elements of 2^eew bytes. -/
def State.vmAccess (s : State) (p : Option Pfx) (m : BitVec 3) (eew : BitVec 2) (kind : Kind) (ok : Accept)
    (addr : Nat → Option Word) : VAccess :=
  { sel := s.maskSel p m, per := s.perPos (vreg 0#5 (8 * 2 ^ eew.toNat)), zero := s.zeroing p, size := 2 ^ eew.toNat, ok := ok,
    kind := kind, win := true, addr := addr }

/-- VLD modes 0 to 2. -/
def vectorLoad (p : Option Pfx) (d : BitVec 5) (m : BitVec 3) (eew : BitVec 2) (k : BitVec 3) (srcs : List VOpd)
    (addr : Nat → Option Word) (s : State) : Host.Outcome State Fault Refusal :=
  let o := vreg d (8 * 2 ^ eew.toNat)
  issueOp p k false
    (do
      let s ← s.vecCheck true [o] srcs false
      .ok (s, s.vmAccess p m eew .load nrmInk addr))
    State.firstActive (fun s v => s.vload v o k) s

/-- Bytes of an element. -/
def eewSize (eew : BitVec 2) : Nat := 2 ^ eew.toNat

/-- VLD (R158). -/
def execVld (p : Option Pfx) (d a : BitVec 5) (m : BitVec 3) (e : BitVec 2) (k : BitVec 3) (s : State) :=
  vectorLoad p d m e k [] (s.stepAddr a (fun i => BitVec.ofNat 64 (i * eewSize e)) fun _ => false) s

/-- VLDS (R158). -/
def execVlds (p : Option Pfx) (d a b : BitVec 5) (m : BitVec 3) (e : BitVec 2) (k : BitVec 3) (s : State) :=
  vectorLoad p d m e k [] (s.stepAddr a (fun i => BitVec.ofNat 64 i * s.g b) fun _ => s.gUnknown b) s

/-- VLDX (R158). -/
def execVldx (p : Option Pfx) (d a b : BitVec 5) (_c : Bool) (m : BitVec 3) (e : BitVec 2) (k : BitVec 3) (s : State) :=
  vectorLoad p d m e k [vreg b 32] (s.stepAddr a (s.indexStep b (eewSize e)) (s.elemUnknown (vreg b 32))) s

/-- VL becomes unknown in run-ahead. -/
def State.loseVl (s : State) : State := { s with ra := s.ra.map fun r => { r with unknown := { r.unknown with vl := true } } }

/-- The first active element of a VLDFF: where a held element walks again, that of the instruction as it began (R337). -/
def State.firstOfLoad (s : State) (v : VAccess) : Option Nat :=
  match s.hart.fq with
  | .again f => some f
  | _ => s.firstActive v

/-- VLDFF holds at an element above its first active one that misses in the shadow tables (R337): forwarded, it ends there. -/
def State.holdCut (s : State) (t : Trap) (r : Reason) (first e w : Nat) : State :=
  (s.setVstart e).holdHart [(t.eval, t.detail, r.code)]
    { token := 0#32, cmd := none, vf := 0#10, va := t.eval, kind := BitVec.ofNat 2 t.detail, tlbsh := none, code := 8, after := false,
      pfx := s.prefixed, scalar := false, record := [], recordPa := 0, cut := some (first, e, w) }

/-- The effect of VLDFF (R159): a condition above the first active element cuts VL there, and the instruction retires; in a
shadowed VF a translation fault there is held first. In run-ahead VL is unknown when an element above it is. -/
def State.vloadFirst (s : State) (p : Option Pfx) (v : VAccess) (o : VOpd) : Host.Outcome State Fault Refusal :=
  let first := s.firstOfLoad v
  let r := runElems (loadElem v o false) s.range { s := s.useAnswer, st := 0#4, trap := none }
  let cut (e : Nat) : Bool := match first with | some f => decide (f < e) | none => false
  match r.trap with
  | some (e, t) =>
    if cut e && s.ra.isSome then finishMem p (.ok (r.s.loseVl.setVstart 0))
    else if cut e then
      match (if s.shadowed then t.reason else none) with
      | some why => .next (r.s.holdCut t why (first.getD 0) e o.w)
      | none => finishMem p (.ok ((r.s.onHart fun h => { h with vl := e, vlw := o.w }).setVstart 0))
    else finishMem p (.error (t, r.s.setVstart e))
  | none =>
    let lost := s.range.any fun e => cut e && s.act v.sel v.per e == .on && r.s.elemUnknown o e
    finishMem p (.ok ((if lost then r.s.loseVl else r.s).setVstart 0))

/-- VLDFF (R159): illegal in a span of more than one position (R152). -/
def execVldff (p : Option Pfx) (d a : BitVec 5) (m : BitVec 3) (e : BitVec 2) (s : State) : Host.Outcome State Fault Refusal :=
  let o := vreg d (8 * 2 ^ e.toNat)
  let addr := s.stepAddr a (fun i => BitVec.ofNat 64 (i * eewSize e)) fun _ => false
  match s.vecCheck (s.positions == 1) [o] [] false with
  | .error e => finishMem p (.error e)
  | .ok s => s.vloadFirst p (s.vmAccess p m e .load nrmInk addr) o

/-! ## Posting instructions (R153 to R155, R158, R160) -/

/-- Join the writes of one instruction to one line. -/
def Payload.join : Payload → Payload → Payload
  | .bytes a, .bytes b => .bytes (a ++ b)
  | .amo op t a, .amo _ _ b => .amo op t (a ++ b)
  | .deposit w l a, .deposit _ _ b => .deposit w l (a ++ b)
  | _, p => p

/-- Two requests of one instruction go to one line, from one span position (R89, R225). -/
def Posted.joins (p q : Posted) : Bool := p.pa / 64 == q.pa / 64 && p.frm == q.frm

/-- A request also names bytes of a line by a virtual address, its own or another of the same line (R225). -/
def Posted.addMask (q : Posted) (va : Word) (m : BitVec 64) : Posted :=
  if q.va = va then { q with mask := q.mask ||| m }
  else { q with also := alSet va (((alFind va q.also).getD 0#64) ||| m) q.also }

/-- Add a request to those of the instruction: one for each line and span position (R89, R160, R168). -/
def joinPosted (l : List Posted) (p : Posted) : List Posted :=
  if l.any p.joins then
    l.map fun q => if p.joins q then { q.addMask p.va p.mask with payload := q.payload.join p.payload } else q
  else l ++ [p]

/-- How far a posting instruction has come. -/
structure PRun where
  s : State
  reqs : List Posted
  trap : Option (Nat × Trap)

/-- One element of a posting instruction; `mk` gives what it carries home. An element that run-ahead does not know
is skipped. -/
def postElem (v : VAccess) (mk : Nat → Xl → Except Trap Payload) (r : PRun) (e : Nat) : PRun :=
  match r.s.act v.sel v.per e, v.addr e with
  | .on, some va =>
    match r.s.reachWrite (r.s.elemHall v.per e) v.kind va v.size v.size v.ok with
    | (s, .error t) => { r with s := s, trap := some (e, t) }
    | (s, .ok none) => { r with s := s }
    | (s, .ok (some x)) =>
      match mk e x with
      | .error t => { r with s := s, trap := some (e, { t with eval := va }) }
      | .ok pl =>
        { r with
          s := s
          reqs := joinPosted r.reqs
            { va := setField va 0 0#6, lsz := lszOf v.size, mask := lineBits va.toNat v.size, pa := x.pa, payload := pl,
              who := s.who, failed := false, also := [], frm := s.elemHall v.per e } }
  | _, _ => r

/-- Go through the elements until one traps. -/
def postElems (v : VAccess) (mk : Nat → Xl → Except Trap Payload) : List Nat → PRun → PRun
  | [], r => r
  | e :: l, r => if r.trap.isSome then r else postElems v mk l (postElem v mk r e)

/-- Perform a request at its home at once, after what the hart posted to its line; its status. -/
def State.performNow (s : State) (p : Posted) : State × BitVec 4 :=
  match ((s.settleAt p.pa 1).dropOwnLines p.frm (p.pa / 64 * 64) 64).performPosted p with
  | (s, none) => (s, 0#4)
  | (s, some (e, _)) => (s, e.status)

/-- Issue the requests of an instruction: posted in the blocking form, performed and counted in the other (log 7). -/
def State.issueReqs (s : State) (k : BitVec 3) (l : List Posted) : State × BitVec 4 :=
  if k = 0#3 then (l.foldl State.post s, 0#4)
  else l.foldl (fun r p => let (t, st) := r.1.performNow p; (t, firstStatus r.2 st)) (s, 0#4)

/-- The effect of a posting instruction. -/
def State.vpost (s : State) (v : VAccess) (mk : Nat → Xl → Except Trap Payload) (k : BitVec 3) : Res :=
  let r := postElems v mk s.range { s := s, reqs := [], trap := none }
  let (t, st) := r.s.issueReqs k r.reqs
  ({ s := t, st := st, trap := r.trap } : Run).done k (s.activeAt v)

/-- The bytes of a store element. -/
def storePayload (size : Nat) (x : Xl) (value : Nat) : Payload :=
  .bytes ((List.range size).zip (leBytes size value) |>.map fun p => (x.pa + p.1, p.2))

/-- VST modes 0 to 2. -/
def vectorStore (p : Option Pfx) (d : BitVec 5) (m : BitVec 3) (eew : BitVec 2) (k : BitVec 3) (srcs : List VOpd)
    (addr : Nat → Option Word) (s : State) : Host.Outcome State Fault Refusal :=
  let o := vreg d (8 * 2 ^ eew.toNat)
  issueOp p k true
    (do
      let s ← s.vecCheck true [] (o :: srcs) false
      .ok (s, s.vmAccess p m eew .store onlyNrm addr))
    State.firstActive (fun t v => t.vpost v (fun e x => .ok (storePayload (eewSize eew) x (s.elem o e))) k) s

/-- VST (R158). -/
def execVst (p : Option Pfx) (d a : BitVec 5) (_c : Bool) (m : BitVec 3) (e : BitVec 2) (k : BitVec 3) (s : State) :=
  vectorStore p d m e k [] (s.stepAddr a (fun i => BitVec.ofNat 64 (i * eewSize e)) fun _ => false) s

/-- VSTS (R158). -/
def execVsts (p : Option Pfx) (d a b : BitVec 5) (_c : Bool) (m : BitVec 3) (e : BitVec 2) (k : BitVec 3) (s : State) :=
  vectorStore p d m e k [] (s.stepAddr a (fun i => BitVec.ofNat 64 i * s.g b) fun _ => s.gUnknown b) s

/-- VSTX (R158). -/
def execVstx (p : Option Pfx) (d a b : BitVec 5) (_c : Bool) (m : BitVec 3) (e : BitVec 2) (k : BitVec 3) (s : State) :=
  vectorStore p d m e k [vreg b 32] (s.stepAddr a (s.indexStep b (eewSize e)) (s.elemUnknown (vreg b 32))) s

/-! ## VAMO (R161, R162) -/

/-- Types of an integer VAMO. -/
def vamoInt (t : BitVec 4) : Bool := t == 5#4 || t == 6#4 || t == 7#4
/-- Types of a floating-point VAMO. -/
def vamoFloat (t : BitVec 4) : Bool := t == 12#4 || t == 13#4

/-- An update of the fetch form: its element, the hall that sends it, its addresses and its operand. -/
structure Fetch where
  e : Nat
  frm : BitVec 4
  va : Word
  pa : Nat
  x : Nat

/-- The checks of the fetch form, element by element: the updates to make, and where they stop. -/
def fetchElems (v : VAccess) (o : VOpd) (x : Nat → Nat) : List Nat → State → List Fetch → State × List Fetch × Option (Nat × Trap)
  | [], s, l => (s, l, none)
  | e :: r, s, l =>
    match s.act v.sel v.per e with
    | .unknown => fetchElems v o x r (s.noteElem o e true) l
    | .off => fetchElems v o x r (if v.zero then s.setElem o e 0 else s) l
    | .on =>
      match v.addr e with
      | none => fetchElems v o x r (s.noteElem o e true) l
      | some va =>
        match s.reachWrite (s.elemHall v.per e) v.kind va v.size v.size v.ok with
        | (s, .error t) => (s, l, some (e, t))
        | (s, .ok none) => fetchElems v o x r (s.noteElem o e true) l
        | (s, .ok (some y)) => fetchElems v o x r (s.settleAt y.pa v.size) (l ++ [{ e := e, frm := s.elemHall v.per e, va := va, pa := y.pa, x := x e }])

/-- How an update would fail at its home. -/
def State.fetchLate (s : State) (size : Nat) (f : Fetch) : Option Late := s.updateLate s.who f.frm f.pa size true

/-- Make one update and write the old value to the fetch register, or note how it failed. -/
def fetchOne (op : Nat) (t : BitVec 4) (o : VOpd) (size : Nat) (r : State × BitVec 4) (f : Fetch) : State × BitVec 4 :=
  match r.1.updateHome r.1.who f.frm f.pa size true (fun m => some (amoValue op t m f.x)) with
  | .ok (m, s) => (((s.countUpdate f.frm f.pa size true).dropOwnLines f.frm f.pa size).setElem o f.e m, r.2)
  | .error (e, s) => (s.lateElem o f.e e, firstStatus r.2 e.status)

/-- Make the updates of the fetch form, in an open order where addresses repeat (R162). -/
def State.fetchAll (s : State) (v : VAccess) (o : VOpd) (op : Nat) (t : BitVec 4) (l : List Fetch) : State × BitVec 4 :=
  (s.openOrder (·.pa) l).foldl (fetchOne op t o v.size) ({ s with fresh := s.fresh + 1 }, 0#4)

/-- The effect of the fetch form. In the blocking form nothing at or above the lowest failing element has effect
(R155). -/
def State.vfetch (s : State) (v : VAccess) (o : VOpd) (op : Nat) (t : BitVec 4) (x : Nat → Nat) (k : BitVec 3) : Res :=
  let (s1, l, trap) := fetchElems v o x s.range s []
  match (if k = 0#3 then l.find? fun f => (s1.fetchLate v.size f).isSome else none) with
  | none =>
    let (s2, st) := s1.fetchAll v o op t l
    ({ s := s2, st := st, trap := trap } : Run).done k (s.activeAt v)
  | some b =>
    let (s1', l', _) := fetchElems v o x (s.range.filter (· < b.e)) s []
    let (s2, st) := (s1'.logUpdate s1'.who b.frm b.pa v.size).fetchAll v o op t l'
    ({ s := s2, st := st, trap := some (b.e, ((s1.fetchLate v.size b).getD .error).trap b.va) } : Run).done k (s.activeAt v)

/-- A VAMO instruction: `op` numbers the update (Table 9.5). The fetch register overlaps neither vs nor vb. -/
def vamo (op : Nat) (ok : BitVec 4 → Bool) (o : VAmoOp) (s : State) : Host.Outcome State Fault Refusal :=
  let t := s.vtype o.pfx
  let w := typeWidth t
  let src := vreg o.d w
  let idx := vreg o.b 32
  let fetch := match o.pfx with | some q => if q.cv then some (vreg q.c w) else none | none => none
  let v : VAccess :=
    { sel := s.maskSel o.pfx o.msk, per := s.perPos src, zero := s.zeroing o.pfx, size := w / 8, ok := onlyNrm, kind := .rmw,
      win := false, addr := s.stepAddr o.a (s.indexStep o.b (w / 8)) (s.elemUnknown idx) }
  issueOp o.pfx o.k fetch.isNone
    (do
      let s ← s.vecCheck (ok t) fetch.toList [src, idx] true
      .ok (s, v))
    State.firstActive
    (fun s v => match fetch with
      | some c => s.vfetch v c op t (s.elem src) o.k
      | none => s.vpost v (fun e x => .ok (.amo op t [(x.pa, BitVec.ofNat 64 (s.elem src e))])) o.k) s

/-- VAMOADD (R161). -/
def execVamoadd (o : VAmoOp) (s : State) := vamo 0 vamoInt o s
/-- VAMOAND (R161). -/
def execVamoand (o : VAmoOp) (s : State) := vamo 1 vamoInt o s
/-- VAMOOR (R161). -/
def execVamoor (o : VAmoOp) (s : State) := vamo 2 vamoInt o s
/-- VAMOXOR (R161). -/
def execVamoxor (o : VAmoOp) (s : State) := vamo 3 vamoInt o s
/-- VAMOMIN (R161). -/
def execVamomin (o : VAmoOp) (s : State) := vamo 4 vamoInt o s
/-- VAMOMAX (R161). -/
def execVamomax (o : VAmoOp) (s : State) := vamo 5 vamoInt o s
/-- VAMOMINN (R161). -/
def execVamominn (o : VAmoOp) (s : State) := vamo 6 vamoInt o s
/-- VAMOMAXN (R161). -/
def execVamomaxn (o : VAmoOp) (s : State) := vamo 7 vamoInt o s
/-- VAMOFADD (R161). -/
def execVamofadd (o : VAmoOp) (s : State) := vamo 8 vamoFloat o s
/-- VAMOFMIN (R161). -/
def execVamofmin (o : VAmoOp) (s : State) := vamo 9 vamoFloat o s
/-- VAMOFMAX (R161). -/
def execVamofmax (o : VAmoOp) (s : State) := vamo 10 vamoFloat o s
/-- VAMOSWP (R161). -/
def execVamoswp (o : VAmoOp) (s : State) := vamo 11 (fun t => vamoInt t || vamoFloat t) o s

end Sys2Proof.Machine
end

