-- ==== Sys2Proof/Machine/Vctl.lean ====
section
/-! DEFINITION. Vctl.lean: lane claims, VL and VMODE, spills and fills of registers and tiles (R137 to R142). -/

namespace Sys2Proof.Machine

/-! ## Claims (R137 to R139, R221) -/

/-- The vector state of a hart after a claim begins or ends: VL, VSTART and every mark 0, so that every register reads as
zero; tiles and latches zero. -/
def Hart.clearVector (h : Hart) : Hart :=
  { h with
    vl := 0, vstart := 0, hwm := Vector.replicate 32 0, v := Vector.replicate 32 0#524288, z := Vector.replicate 4 0#131072
    l := Vector.replicate 2 0#65536, ldesc := Vector.replicate 2 none }

/-- The claim ends and its lanes and its share return to the pools. -/
def State.dropClaim (s : State) : State :=
  (s.dropClaims s.myHall s.myCluster s.myHart).onHart fun h =>
    { h.clearVector with claim := none, vlmaxb := 0, spanLost := 0#8 }

/-- VREL's effect (R139): nothing without a claim; it waits for the vector operations in flight. -/
def State.releaseClaim (s : State) : State :=
  if s.hart.claim.isNone then s else (s.completeVecs fun _ => true).dropClaim

/-- The fields of a VCLAIM request (Table 8.1). -/
def reqLanes (w : Word) : Nat := fieldNat w 0 8
/-- SHARE of a request. -/
def reqShare (w : Word) : BitVec 2 := w.extractLsb' 10 2
/-- SPAN of a request. -/
def reqSpan (w : Word) : BitVec 2 := w.extractLsb' 12 2

/-- The tenant of the hart's VF owns both halls of every die of a mask. -/
def State.ownsDies (s : State) (dies : BitVec 8) : Bool :=
  (List.range 16).all fun h => !dies.getLsbD (h / 2) || s.owns (s.tenantOf s.myVf) (BitVec.ofNat 4 h)

/-- Where the remote positions of a requested span lie; none where a condition of R138 fails. -/
def State.spanFor (s : State) (span : BitVec 2) (dies : BitVec 8) (lanes : Nat) : Option (List Place) :=
  if span ≠ 0#2 && popCount dies == 2 ^ span.toNat && dies.getLsbD (s.myHall.toNat / 2) && s.ownsDies dies then
    s.spanPlaces (s.tenantOf s.myVf) dies lanes
  else none

/-- The claim that VCLAIM makes from what is free (R137, R138, R216): the budget counts the requester as claiming. -/
def State.newClaim (s : State) (req : Word) (dies : BitVec 8) : Claim :=
  let c := (s.hall s.myHall).cluster s.myCluster
  let lanes := c.grantFor (s.unclaimed s.myHall s.myCluster - 1) (reqLanes req)
  match s.spanFor (reqSpan req) dies lanes with
  | some l => { ceiling := lanes, grant := lanes, share := 0#2, span := reqSpan req, dies := dies, places := l }
  | none => { ceiling := lanes, grant := lanes, share := c.grantShare (reqShare req), span := 0#2, dies := 0#8, places := [] }

/-- Take a claim: the visible length is that of its grant (R50). -/
def State.takeClaim (s : State) (c : Claim) : State :=
  (s.addClaims c).onHart fun h =>
    { h.clearVector with claim := some c, vlmaxb := Nat.min (c.grant * 64) h.vcap, spanLost := 0#8 }

/-- VCLAIM (R137). -/
def execVclaim (p : Option Pfx) (d a b : BitVec 5) (s : State) : Host.Outcome State Fault Refusal :=
  let s1 := s.releaseClaim
  let c := s1.newClaim (s.g a) ((s.g b).extractLsb' 0 8)
  finish p (.ok ((s1.takeClaim c).setG d (c.word c.grant)))

/-- VREL (R139). -/
def execVrel (p : Option Pfx) (s : State) : Host.Outcome State Fault Refusal := finish p (.ok s.releaseClaim)

/-! ## VL (R140, R141) -/

/-- The visible length changes: registers and marks (R140). -/
def Hart.relayout (h : Hart) (positions new : Nat) : Hart :=
  if new = h.vlmaxb then h
  else
    { h with
      v := h.v.map (relayoutReg positions h.vlmaxb new)
      hwm := h.hwm.map fun m => Nat.min m (new / 8)
      vlmaxb := new }

/-- The same for what run-ahead does not know. -/
def State.relayout (s : State) (new : Nat) : State :=
  let ra := s.ra.map fun r =>
    { r with unknown := { r.unknown with v :=
        if new = s.hart.vlmaxb then r.unknown.v else r.unknown.v.map (relayoutReg s.positions s.hart.vlmaxb new) } }
  { s with ra := ra, hart := s.hart.relayout s.positions new }

/-- The lanes that SETVL grants now; the grant does not change in run-ahead (R327). -/
def State.lanesNow (s : State) (c : Claim) : Nat := if s.ra.isSome then c.grant else s.grantNow c

/-- The effect of SETVL for elements of w bits and n elements wanted (R140). -/
def State.setLength (s : State) (c : Claim) (w n : Nat) : State :=
  let lanes := s.lanesNow c
  let s1 := (if s.ra.isSome then s else s.noteGrant c lanes).relayout (Nat.min (lanes * 64) s.hart.vcap)
  let s2 := s1.onHart fun h =>
    { h with vl := Nat.min n (2 ^ c.span.toNat * (h.vlmaxb * 8 / w)), vlw := w, vstart := 0 }
  { s2 with ra := s2.ra.map fun r => { r with unknown := { r.unknown with vl := false } } }

/-- Set VL from g[n] under elements of w bits, and write it to g[d]. -/
def State.lengthTo (s : State) (d n : BitVec 5) (want : Word) (w : Nat) : Res :=
  match s.hart.claim with
  | none => .error (claimTrap, s)
  | some c =>
    if s.gUnknown n then .ok ((s.loseVl.noteG d true).setVstart 0)
    else
      let s := s.setLength c w want.toNat
      .ok ((s.setG d (BitVec.ofNat 64 s.hart.vl)).noteG d false)

/-- SETVL (R140). -/
def execSetvl (p : Option Pfx) (d a : BitVec 5) (s : State) : Host.Outcome State Fault Refusal :=
  let t := s.vtype p
  finish p (do
    let s ← require (anyType t) s.illegal s
    s.lengthTo d a (s.g a) (typeWidth t))

/-- Write VMODE, which run-ahead then knows or not (Table 3.4). -/
def State.setVmode (s : State) (x : Word) (unk : Bool) : State :=
  { s with
    hart := { s.hart with vmode := x &&& 0x1FFF#64 }
    ra := s.ra.map fun r => { r with unknown := { r.unknown with vmode := unk } } }

/-- SETVM (R141). -/
def execSetvm (p : Option Pfx) (d a b : BitVec 5) (s : State) : Host.Outcome State Fault Refusal :=
  let t := (s.g a).extractLsb' 0 4
  let want := s.g b
  finish p (do
    let s ← require (anyType t || s.gUnknown a) s.illegal s
    let s ← require s.hart.claim.isSome claimTrap s
    if s.gUnknown a then .ok (((s.setVmode s.hart.vmode true).loseVl.noteG d true).setVstart 0)
    else (s.setVmode (s.g a) false).lengthTo d b want (typeWidth t))

/-! ## Spills and fills (R142) -/

/-- The base of a spill or fill is a multiple of 64, before any effect. -/
def State.aligned64 (s : State) (a : BitVec 5) : Res :=
  require (s.gUnknown a || (s.g a).toNat % 64 == 0) { code := 7, eval := s.g a } s

/-- A claim is held. -/
def State.needClaim (s : State) : Res := require s.hart.claim.isSome claimTrap s

/-- The access of a spill or fill in units of `size` bytes. -/
def State.unitAccess (s : State) (a : BitVec 5) (size : Nat) (kind : Kind) : VAccess :=
  { sel := 0#3, per := 0, zero := false, size := size, ok := onlyNrm, kind := kind, win := false,
    addr := s.stepAddr a (fun i => BitVec.ofNat 64 (size * i)) fun _ => false }

/-- The element groups of a register, as an operand of 8-byte elements. -/
def groupsOf (d : BitVec 5) : VOpd := vreg d 64

/-- An element group as VSPILL stores it: zero at or above the mark. -/
def State.spilled (s : State) (d : BitVec 5) (e : Nat) : Nat :=
  if e < pick (w := 5) s.hart.hwm d then s.elem (groupsOf d) e else 0

/-- VSPILL (R142): at span position 0 in a span (log 14). -/
def execVspill (p : Option Pfx) (d a : BitVec 5) (s : State) : Host.Outcome State Fault Refusal :=
  issueOp p 0#3 true
    (do
      let s ← s.needClaim
      let s ← s.aligned64 a
      .ok (s, s.unitAccess a 8 .store))
    (fun s _ => if s.hart.vstart < s.hart.vlmaxb / 8 then some s.hart.vstart else none)
    (fun s v =>
      let r := postElems v (fun e x => .ok (storePayload 8 x (s.spilled d e)))
        (upTo s.hart.vstart (s.endAt (s.hart.vlmaxb / 8)))
        { s := s, reqs := [], trap := none }
      ({ s := (r.s.issueReqs 0#3 r.reqs).1, st := 0#4, trap := r.trap } : Run).done 0#3 0#8) s

/-- The mark of a filled register. -/
def State.fullMark (s : State) (d : BitVec 5) : State :=
  s.onHart fun h => { h with hwm := put (w := 5) h.hwm d (h.vlmaxb / 8) }

/-- VFILL (R142). -/
def execVfill (p : Option Pfx) (d a : BitVec 5) (s : State) : Host.Outcome State Fault Refusal :=
  finishMem p (do
    let s ← s.needClaim
    let s ← s.aligned64 a
    let r := runElems (loadElem (s.unitAccess a 8 .load) (groupsOf d) false)
      (upTo s.hart.vstart (s.endAt (s.hart.vlmaxb / 8)))
      { s := s, st := 0#4, trap := none }
    let s ← r.done 0#3 0#8
    .ok (if s.hart.cut.isSome then s else s.fullMark d))

/-! ## Tiles (R171) -/

/-- Rows of a tile under a share. -/
def shareRows (c : BitVec 2) : Nat := if c = 3#2 then 32 else 64
/-- Columns of a tile under a share. -/
def shareCols (c : BitVec 2) : Nat := if c = 1#2 then 64 else 32

/-- The share of the hart; 0 without one. -/
def State.shareCode (s : State) : BitVec 2 := match s.hart.claim with | some c => c.share | none => 0#2
/-- M. -/
def State.tileRows (s : State) : Nat := shareRows s.shareCode
/-- N. -/
def State.tileCols (s : State) : Nat := shareCols s.shareCode

/-- A matrix share is held (R46, R174). -/
def State.needShare (s : State) : Res := require (s.shareCode != 0#2) claimTrap s

/-- Tile z. -/
def State.tile (s : State) (z : BitVec 2) : TileBits := pick (w := 2) s.hart.z z

/-- Replace tile z. -/
def State.setTile (s : State) (z : BitVec 2) (x : TileBits) : State := s.onHart fun h => { h with z := put (w := 2) h.z z x }

/-- Element (i, j) of a tile of n columns. -/
def tileElem (n : Nat) (x : TileBits) (i j : Nat) : Nat := fieldNat x (32 * (i * n + j)) 32

/-- Tile z is unknown. -/
def State.tileUnknown (s : State) (z : BitVec 2) : Bool := (s.ra.map fun r => r.unknown.z.getLsbD z.toNat).getD false

/-- Note in run-ahead that tile z is known or unknown. -/
def State.noteTile (s : State) (z : BitVec 2) (unk : Bool) : State :=
  { s with ra := s.ra.map fun r => { r with unknown := { r.unknown with z := setBit r.unknown.z z.toNat unk } } }

/-- Go through rows of several elements each: the requests of a row leave only when all of it passed its checks, and a
trap is precise at its row. -/
def postRows (elems : Nat → State → PRun) : List Nat → PRun → PRun
  | [], r => r
  | i :: l, r =>
    let q := elems i r.s
    match q.trap with
    | some (_, t) => { s := q.s, reqs := r.reqs, trap := some (i, t) }
    | none => postRows elems l { s := q.s, reqs := r.reqs ++ q.reqs, trap := none }

/-- Bytes of one tile row. -/
def State.rowBytes (s : State) : Nat := 4 * s.tileCols

/-- ZSPILL (R142): 64 bytes at a time. -/
def execZspill (p : Option Pfx) (d : BitVec 2) (a : BitVec 5) (s : State) : Host.Outcome State Fault Refusal :=
  issueOp p 0#3 true
    (do
      let s ← s.needShare
      let s ← s.aligned64 a
      .ok (s, s.unitAccess a 64 .store))
    (fun s _ => if s.hart.vstart < s.tileRows then some (s.hart.vstart * (s.rowBytes / 64)) else none)
    (fun s v =>
      let per := s.rowBytes / 64
      let row (i : Nat) (t : State) : PRun :=
        postElems v (fun e x => .ok (storePayload 64 x (fieldNat (s.tile d) (512 * e) 512))) (upTo (i * per) (i * per + per))
          { s := t, reqs := [], trap := none }
      let r := postRows row (upTo s.hart.vstart (s.endAt s.tileRows)) { s := s, reqs := [], trap := none }
      ({ s := (r.s.issueReqs 0#3 r.reqs).1, st := 0#4, trap := r.trap } : Run).done 0#3 0#8) s

/-- Read one row: its bytes, nothing where run-ahead does not know them, or a trap. -/
def loadRow (v : VAccess) : List Nat → State → State × Except Trap (Option (List Byte))
  | [], s => (s, .ok (some []))
  | e :: l, s =>
    match v.addr e with
    | none => (s, .ok none)
    | some va =>
      match s.loadAt va v.size v.size v.ok [v.size] with
      | (s, .trap t) => (s, .error t)
      | (s, .late x) => (s, .error (x.trap va))
      | (s, .unknown) => match loadRow v l s with | (s, .error t) => (s, .error t) | (s, .ok _) => (s, .ok none)
      | (s, .bytes bs) => match loadRow v l s with
        | (s, .ok (some r)) => (s, .ok (some (bs ++ r)))
        | (s, x) => (s, x)

/-- Go through the rows of a fill. -/
def fillRows (v : VAccess) (d : BitVec 2) (per bytes : Nat) (r : Run) (i : Nat) : Run :=
  match loadRow v (upTo (i * per) (i * per + per)) r.s with
  | (s, .error t) => { r with s := s, trap := some (i, t) }
  | (s, .ok none) => { r with s := s.noteTile d true }
  | (s, .ok (some bs)) =>
    { r with s := s.setTile d (setField (s.tile d) (8 * bytes * i) (BitVec.ofNat (8 * bytes) (leNat bs))) }

/-- ZFILL (R142). -/
def execZfill (p : Option Pfx) (d : BitVec 2) (a : BitVec 5) (s : State) : Host.Outcome State Fault Refusal :=
  finishMem p (do
    let s ← s.needShare
    let s ← s.aligned64 a
    let per := s.rowBytes / 64
    let s1 := s.noteTile d (s.tileUnknown d && s.hart.vstart != 0)
    let r := runElems (fillRows (s.unitAccess a 64 .load) d per s.rowBytes) (upTo s.hart.vstart (s.endAt s.tileRows))
      { s := s1, st := 0#4, trap := none }
    r.done 0#3 0#8)

end Sys2Proof.Machine
end

