-- ==== Sys2Proof/Machine/Mat.lean ====
section
/-! DEFINITION. Mat.lean: matrix instructions (R171 to R183) and the rebuilding of operand latches (R176, R388). -/

namespace Sys2Proof.Machine

/-! ## Latches (R172, R175, R176) -/

/-- Latch n. -/
def State.latch (s : State) (n : BitVec 1) : LatchBits := pick (w := 1) s.hart.l n

/-- Element k, of w bits, of a latch row. -/
def latchElem (x : LatchBits) (row w k : Nat) : Nat := fieldNat x (1024 * row + w * k) w

/-- Replace a row of latch n. -/
def State.setLatchRow (s : State) (n : BitVec 1) (row x : Nat) : State :=
  s.onHart fun h => { h with l := put (w := 1) h.l n (setField (pick (w := 1) h.l n) (1024 * row) (BitVec.ofNat 1024 x)) }

/-- Latch n is unknown. -/
def State.latchUnknown (s : State) (n : BitVec 1) : Bool := (s.ra.map fun r => r.unknown.l.getLsbD n.toNat).getD false

/-- Note in run-ahead that latch n is known or unknown. -/
def State.noteLatch (s : State) (n : BitVec 1) (unk : Bool) : State :=
  { s with ra := s.ra.map fun r => { r with unknown := { r.unknown with l := setBit r.unknown.l n.toNat unk } } }

/-- The address of row r (R175). -/
def OlgathDesc.addr (d : OlgathDesc) (r : Nat) : Word := d.base + (d.idx.getD r 0#32).setWidth 64 * d.pitch

/-- Row r is read, rather than written as zero. -/
def OlgathDesc.reads (d : OlgathDesc) (r : Nat) : Bool := decide (r < d.vl) && d.act.getLsbD r

/-- The 128 bytes of one row, as a load of the hart, which may read a window (R176, R195). -/
def State.gatherRow (s : State) (d : OlgathDesc) (r : Nat) : State × Got := s.loadFrom s.myHall true (d.addr r) 128 128 nrmInk [64, 64]

/-- One row of OLGATH. `lost`: run-ahead does not know where the row lies, or whether it is read. -/
def olgathRow (n : BitVec 1) (d : OlgathDesc) (lost : Nat → Bool) (r : Run) (row : Nat) : Run :=
  if lost row then { r with s := r.s.noteLatch n true }
  else if !d.reads row then { r with s := r.s.setLatchRow n row 0 }
  else match r.s.gatherRow d row with
    | (s, .bytes l) => { r with s := s.setLatchRow n row (leNat l) }
    | (s, .unknown) => { r with s := s.noteLatch n true }
    | (s, .late e) => { r with s := s, trap := some (row, e.trap (d.addr row)) }
    | (s, .trap t) => { r with s := s, trap := some (row, t) }

/-- Keep the descriptor of latch n, whose rows below `reached` hold what it describes. -/
def State.setDesc (s : State) (n : BitVec 1) (d : OlgathDesc) (reached : Nat) : State :=
  s.onHart fun h => { h with ldesc := put (w := 1) h.ldesc n (some { d with reached := reached }) }

/-- OLGATH (R175). -/
def execOlgath (p : Option Pfx) (d : BitVec 1) (a b : BitVec 5) (_y : Bool) (m : BitVec 3) (s : State) :
    Host.Outcome State Fault Refusal :=
  let o := vreg b 32
  let sel := s.maskSel p m
  let per := s.perPos o
  let vl := s.hart.vl
  let desc : OlgathDesc :=
    { base := s.g a, pitch := s.g (pairHi a), vl := vl, reached := 0, todo := 0#64, resumeAt := none
      idx := (List.range 64).map fun r => if r < vl then BitVec.ofNat 32 (s.elem o r) else 0#32
      act := (List.range 64).foldl (fun (x : BitVec 64) r => setBit x r (decide (r < vl) && s.active sel per r)) 0#64 }
  let lost (r : Nat) : Bool :=
    decide (r < vl) && (s.activeUnknown sel per r
      || (s.active sel per r && (s.gUnknown a || s.gUnknown (pairHi a) || s.elemUnknown o r)))
  finishMem p (do
    let s ← s.vecCheck (decide (vl ≤ 64)) [] [o] false
    let s ← s.needShare
    if 64 ≤ s.hart.vstart then .ok (s.setVstart 0)
    else
      let s1 := s.noteLatch d (s.latchUnknown d && s.hart.vstart != 0)
      let r := runElems (olgathRow d desc lost) (upTo s.hart.vstart (s.endAt 64)) { s := s1, st := 0#4, trap := none }
      match r.trap with
      | some (row, t) => .error (t, (r.s.setDesc d desc row).setVstart row)
      | none => .ok ((r.s.setDesc d desc (s.endAt 64)).setVstart 0))

/-- Read again one row of latch n, or write it as zero; the trap of a read that fails, whose row is still to be
rebuilt. -/
def rebuildRow (n : BitVec 1) (r : State × Option Trap) (row : Nat) : State × Option Trap :=
  let s := r.1
  match pick (w := 1) s.hart.ldesc n with
  | none => r
  | some d =>
    let done (t : State) : State :=
      t.onHart fun h => { h with ldesc := put (w := 1) h.ldesc n (some { d with todo := setBit d.todo row false }) }
    if !d.todo.getLsbD row then r
    else if !(d.reads row && decide (row < d.reached)) then (done (s.setLatchRow n row 0), r.2)
    else match s.gatherRow d row with
      | (t, .bytes l) => (done (t.setLatchRow n row (leNat l)), r.2)
      | (t, .unknown) => (t, r.2)
      | (t, .late e) => (t, r.2.or (some (e.trap (d.addr row))))
      | (t, .trap x) => (t, r.2.or (some x))

/-- Rebuild what is still to be rebuilt of both latches, and the first trap of a row that fails (R176). -/
def State.rebuildLatches (s : State) : State × Option Trap :=
  (List.range 64).foldl (rebuildRow 1#1) ((List.range 64).foldl (rebuildRow 0#1) (s, none))

/-- Some row of latch n is still to be rebuilt. -/
def State.latchPending (s : State) (n : BitVec 1) : Bool :=
  match pick (w := 1) s.hart.ldesc n with | some d => d.todo != 0#64 | none => false

/-- A rebuild is due before the instruction at the PC (R176). -/
def State.rebuildDue (s : State) : Bool :=
  s.ra.isNone && [0#1, 1#1].any fun n =>
    match pick (w := 1) s.hart.ldesc n with | some d => d.todo != 0#64 && d.resumeAt == some s.hart.pc | none => false

/-- The trap of a rebuild: run-ahead does not start (R176); in a shadowed VF a translation fault is held (R337). -/
def State.takeRebuild (s : State) (t : Trap) : State :=
  match t.reason with
  | some r =>
    if s.shadowed then
      s.holdHart [(t.eval, t.detail, r.code)]
        { token := 0#32, cmd := none, vf := 0#10, va := t.eval, kind := BitVec.ofNat 2 t.detail, tlbsh := none, code := 8,
          after := false, pfx := s.prefixed, scalar := false, record := [], recordPa := 0, cut := none }
    else s.takeTrap t
  | none => s.takeTrap t

/-! ## Products (R177, R178) -/

/-- BF16, FP16, E4M3, E5M2 and E2M1 (R173). -/
def matType (t : BitVec 4) : Bool := t == 8#4 || t == 9#4 || t == 10#4 || t == 11#4 || t == 14#4

/-- A tile of m rows by n columns from its elements, row by row. -/
def tileFrom (l : List Nat) : TileBits := BitVec.ofNat 131072 (l.foldr (fun x acc => acc * 2 ^ 32 + x % 2 ^ 32) 0)

/-- Update every element of a tile: the new tile, and the flags. -/
def updateTile (m n : Nat) (z : TileBits) (f : Nat → Nat → Nat → Nat × Flags) : TileBits × Flags :=
  let l := (List.range (m * n)).map fun k => f (k / n) (k % n) (tileElem n z (k / n) (k % n))
  (tileFrom (l.map (·.1)), l.foldl (fun a x => a ||| x.2) 0#5)

/-- Count multiply-adds (R405). -/
def State.countMacs (s : State) (n : Nat) : State :=
  if s.ra.isSome then s else s.onCluster s.myHall s.myCluster fun c => { c with macs := c.macs + BitVec.ofNat 64 n }

/-- The update of z[i][j] by ZRANK, from the row value and the column value that row i sees. -/
def rankElem (f : Fmt) (x : Nat → Nat) (y : Nat → Nat → Nat) (i j c : Nat) : Nat × Flags :=
  groupSum c [product f (x i) (y i j)] (f.isSNaN (x i) || f.isSNaN (y i j))

/-- ZRANK (R177). An inactive row receives zero products, whatever its column values are (log 20). -/
def execZrank (p : Option Pfx) (d : BitVec 2) (a b : BitVec 5) (_x _y : Bool) (m : BitVec 3) (s : State) :
    Host.Outcome State Fault Refusal :=
  let t := s.vtype p
  let va := vreg a (typeWidth t)
  let vb := vreg b (typeWidth t)
  let sel := s.maskSel p m
  let per := s.perPos va
  let vl := s.hart.vl
  let rows := s.tileRows
  let cols := s.tileCols
  let row (i : Nat) : Bool := decide (i < vl) && s.active sel per i
  let x (i : Nat) : Nat := if row i then s.elem va i else 0
  let y (i j : Nat) : Nat := if row i && decide (j < vl) then s.elem vb j else 0
  let lost := (List.range vl).any fun i =>
    (i < rows && (s.activeUnknown sel per i || (s.active sel per i && s.elemUnknown va i))) || (i < cols && s.elemUnknown vb i)
  finish p (do
    let s ← s.vecCheck (matType t) [] [va, vb] false
    let s ← s.needShare
    if lost || s.tileUnknown d then .ok ((s.noteTile d true).setVstart 0)
    else
      let (z, fl) := updateTile rows cols (s.tile d) (rankElem (fmtOf t) x y)
      .ok ((((s.setTile d z).orVstat fl).countMacs (rows * cols)).setVstart 0))

/-- One group of at most 32 products of MBLK. -/
def blockGroup (f : Fmt) (w k : Nat) (l0 l1 : LatchBits) (i j : Nat) (r : Nat × Flags) (g : Nat) : Nat × Flags :=
  let ks := upTo (32 * g) (Nat.min (32 * g + 32) k)
  let q := groupSum r.1 (ks.map fun e => product f (latchElem l0 i w e) (latchElem l1 j w e))
    (ks.any fun e => f.isSNaN (latchElem l0 i w e) || f.isSNaN (latchElem l1 j w e))
  (q.1, r.2 ||| q.2)

/-- The update of z[i][j] by MBLK: its groups in ascending k. -/
def blockElem (f : Fmt) (w k : Nat) (l0 l1 : LatchBits) (i j c : Nat) : Nat × Flags :=
  (List.range ((k + 31) / 32)).foldl (blockGroup f w k l0 l1 i j) (c, 0#5)

/-- MBLK (R178), which rebuilds first the rows that it reads (R388). -/
def execMblk (p : Option Pfx) (d : BitVec 2) (b : BitVec 5) (s : State) : Host.Outcome State Fault Refusal :=
  let t := s.vtype p
  let w := typeWidth t
  let k := Nat.min (s.g b).toNat (1024 / w)
  let lost := s.gUnknown b || s.latchUnknown 0#1 || s.latchUnknown 1#1 || s.tileUnknown d
  match (do
    let s ← require (matType t) s.illegal s
    s.needShare : Res) with
  | .error (x, s) => .next (s.takeTrap { x with pfx := p.isSome })
  | .ok s =>
    match s.rebuildLatches with
    | (s, some x) => .next (s.takeRebuild { x with pfx := p.isSome })
    | (s, none) =>
      if lost || s.latchPending 0#1 || s.latchPending 1#1 then .next (((s.noteTile d true).setVstart 0).retire (pfxLen p))
      else
        let (z, fl) := updateTile s.tileRows s.tileCols (s.tile d) (blockElem (fmtOf t) w k (s.latch 0#1) (s.latch 1#1))
        .next (((((s.setTile d z).orVstat fl).countMacs (s.tileRows * s.tileCols * k)).setVstart 0).retire (pfxLen p))

/-! ## Moving tiles (R180, R181) -/

/-- ZZERO (R180). -/
def execZzero (p : Option Pfx) (d : BitVec 2) (s : State) : Host.Outcome State Fault Refusal :=
  finish p (do
    let s ← s.needShare
    .ok (((s.setTile d 0#131072).noteTile d false).setVstart 0))

/-- VL is at most a dimension of the tile; without a share the claim trap comes first, whatever VL holds (R174). -/
def State.vlFits (s : State) (n : Nat) : Bool := decide (s.hart.vl ≤ n)

/-- ZREAD (R180). -/
def execZread (p : Option Pfx) (d : BitVec 5) (a : BitVec 2) (b : BitVec 5) (m : BitVec 3) (s : State) :
    Host.Outcome State Fault Refusal :=
  let o := vreg d 32
  let n := (s.g b).toNat
  let lost := s.gUnknown b || s.tileUnknown a
  finish p (do
    let s ← s.needShare
    let s ← s.vecCheck (s.vlFits s.tileCols) [o] [] false
    .ok (s.elementwise (s.maskSel p m) (s.zeroing p) (s.perPos o) (.vec o) (fun _ => lost)
      (fun e => (if s.tileRows ≤ n then 0 else tileElem s.tileCols (s.tile a) n e, 0#5))))

/-- One element of ZWRITE. -/
def zwriteElem (sel : BitVec 3) (o : VOpd) (d : BitVec 2) (n cols : Nat) (src : State) (s : State) (e : Nat) : State :=
  let per := src.perPos o
  if src.activeUnknown sel per e || (src.active sel per e && src.elemUnknown o e) then s.noteTile d true
  else if src.active sel per e then
    s.setTile d (setField (s.tile d) (32 * (n * cols + e)) (BitVec.ofNat 32 (src.elem o e)))
  else s

/-- ZWRITE (R180). -/
def execZwrite (p : Option Pfx) (d : BitVec 2) (a b : BitVec 5) (_x : Bool) (m : BitVec 3) (s : State) :
    Host.Outcome State Fault Refusal :=
  let o := vreg a 32
  let n := (s.g b).toNat
  let sel := s.maskSel p m
  finish p (do
    let s ← s.needShare
    let s ← s.vecCheck (s.vlFits s.tileCols) [] [o] false
    if s.gUnknown b then .ok ((s.noteTile d true).setVstart 0)
    else if s.tileRows ≤ n then .ok (s.setVstart 0)
    else .ok ((s.range.foldl (zwriteElem sel o d n s.tileCols s) s).setVstart 0))

/-- ZDIM (R181). -/
def execZdim (p : Option Pfx) (d : BitVec 5) (s : State) : Host.Outcome State Fault Refusal :=
  let w : Word := if s.shareCode = 0#2 then 0#64 else
    place s.shareCode.toNat 16 2 ||| place s.tileCols 8 8 ||| place s.tileRows 0 8
  finish p (.ok (((s.setG d w).noteG d false).setVstart 0))

/-! ## Scale and deposit (R182, R183) -/

/-- The lines of one row of ZDEP: all of the class of its first line. -/
def State.depositRow (s : State) (rowva : Word) (cols : Nat) (addend : Nat → FVal) : PRun :=
  match s.reach s.myHall .store rowva 64 64 wellClasses with
  | (s, .error t) => { s := s, reqs := [], trap := some (0, t) }
  | (s, .ok none) => { s := s, reqs := [], trap := none }
  | (s, .ok (some x0)) =>
    let slot := wellSlot (x0.cls == .wlf)
    let per := 64 / slot
    let v : VAccess :=
      { sel := 0#3, per := 0, zero := false, size := 64, ok := (· == x0.cls), kind := .store, win := false,
        addr := fun j => some (rowva + BitVec.ofNat 64 (64 * j)) }
    postElems v (fun j x => .ok (.deposit (x.cls == .wlf) (x.pa / 64) ((List.range per).map fun e => (e, addend (j * per + e)))))
      (List.range (cols / per)) { s := s, reqs := [], trap := none }

/-- ZDEP (R182, R183). -/
def execZdep (q : Pfx) (d : BitVec 5) (a : BitVec 2) (b : BitVec 5) (m : BitVec 3) (s : State) :
    Host.Outcome State Fault Refusal :=
  let p := some q
  let o := vreg q.c 32
  let base := s.g d
  let pitch := s.g (pairHi d)
  let scale := (s.g b).toNat % 2 ^ 32
  let sel := s.maskSel p m
  let per := s.perPos o
  let cols := s.tileCols
  let off := s.gUnknown d || s.gUnknown (pairHi d)
  let eval := if base.toNat % 64 = 0 then base + pitch else base
  let row (i : Nat) (t : State) : PRun :=
    if off || s.activeUnknown sel per i || !s.active sel per i then { s := t, reqs := [], trap := none }
    else t.depositRow (base + BitVec.ofNat 64 i * pitch) cols fun j =>
      scaleProduct (tileElem cols (s.tile a) i j) (s.elem o i) scale
  issueOp p 0#3 true
    (do
      let s ← s.needShare
      let s ← s.vecCheck (s.vlFits s.tileRows) [] [o] false
      let s ← require (off || (base.toNat % 64 == 0 && pitch.toNat % 64 == 0)) { code := 7, eval := eval } s
      .ok (s,
        { sel := sel, per := per, zero := false, size := 64, ok := wellClasses, kind := .store, win := false,
          addr := fun i => if off then none else some (base + BitVec.ofNat 64 i * pitch) }))
    State.firstActive
    (fun s _ =>
      let r := postRows row s.range { s := s, reqs := [], trap := none }
      ({ s := (r.s.issueReqs 0#3 r.reqs).1, st := 0#4, trap := r.trap } : Run).done 0#3 0#8) s

end Sys2Proof.Machine
end

