-- ==== Sys2Proof/Machine/Engine.lean ====
section
/-! DEFINITION. Engine.lean: engine commands (R185 to R190, R194 to R196, R278, R337): how they are issued, how their
engines reach memory, COPY, IXG and windows, and how a command completes. -/

namespace Sys2Proof.Machine

/-! ## Memory as an engine reaches it (R188, R190, R227, R336) -/

/-- Why an engine's access fails: its CAUSE, the address, and the kind and reason of a translation fault that the
hypervisor may answer (R337). -/
structure EngErr where
  cause : Nat
  va : Word
  hold : Option (Kind × Reason)
deriving DecidableEq, Repr

/-- Whom an engine acts for: the VF, or no VF for a command of mode P (R334, R336). -/
def Cmd.who (c : Cmd) : Option (BitVec 10) := if c.mode = .p then none else some c.vf

/-- An address of the local alias of a VF, which no engine resolves (R227). -/
def State.inAlias (s : State) (v : BitVec 10) (va : Word) : Bool :=
  let x := (s.vf v).xalias
  x.getLsbD 0 && va &&& ~~~0x1FFFFF#64 == setField x 0 0#21

/-- Translate an access of a command, an index-stream engine through its own TLB (R278). -/
def State.engXlate (s : State) (c : Cmd) (k : Kind) (va : Word) : State × Except EngErr Xl :=
  if !canonical va || (c.mode != .p && s.inAlias c.vf va) then (s, .error { cause := 0, va := va, hold := none })
  else
    let ixg := c.op == 3#3
    let r := s.translateBy ixg c.who c.hall c.mode k va
    let s := s.fillTlbBy ixg c.who c.hall va
    match r with
    | .ok x => (s, .ok x)
    | .error e => (s, .error { cause := if e = .class then 1 else 0, va := va, hold := some (k, e) })

/-- The pieces of n bytes at va that lie in one 64-byte line each; `fuel` bounds their number. -/
def linePieces : Nat → Word → Nat → List (Word × Nat)
  | 0, _, _ => []
  | fuel + 1, va, n =>
    if n = 0 then []
    else
      let k := Nat.min n (64 - va.toNat % 64)
      (va, k) :: linePieces fuel (va + BitVec.ofNat 64 k) (n - k)

/-- The pieces of n bytes. -/
def piecesOf (va : Word) (n : Nat) : List (Word × Nat) := linePieces (n / 64 + 2) va n

/-- How a home's answer fails an engine: tail and poison with the first byte that they concern (R188). -/
def State.engLate (s : State) (va : Word) (pa n : Nat) : Late → EngErr
  | .error => { cause := 3, va := va, hold := none }
  | .poison =>
    { cause := 2, va := va + BitVec.ofNat 64 (((List.range n).find? fun i => s.poisoned (pa + i) 1).getD 0), hold := none }
  | .tail => { cause := 9, va := va + BitVec.ofNat 64 ((s.inkPage pa).tail - pa % 65536), hold := none }

/-- Read pieces: NRM pages, or INK pages below the tail, from a replica or from home (R188, R231). -/
def engReadPieces (c : Cmd) : List (Word × Nat) → State → State × Except EngErr (List Byte)
  | [], s => (s, .ok [])
  | (va, n) :: r, s =>
    match s.engXlate c .load va with
    | (s, .error e) => (s, .error e)
    | (s, .ok x) =>
      if !nrmInk x.cls then (s, .error { cause := 1, va := va, hold := none })
      else match s.readSource c.who c.hall x n with
        | (s, .error e) => (s, .error (s.engLate va x.pa n e))
        | (s, .ok l) =>
          match engReadPieces c r s with
          | (s, .ok m) => (s, .ok (l ++ m))
          | (s, .error e) => (s, .error e)

/-- Read n bytes at va for a command; its hall counts them. -/
def State.engRead (s : State) (c : Cmd) (va : Word) (n : Nat) : State × Except EngErr (List Byte) :=
  engReadPieces c (piecesOf va n) s

/-- Read n bytes at va for a command where no counter counts them (R233). -/
def State.engPeek (s : State) (c : Cmd) (va : Word) (n : Nat) : State × Except EngErr (List Byte) :=
  let r := s.engRead c va n
  (r.1.countsOf s c.hall, r.2)

/-- Where pieces would be written: the physical addresses before the first that fails, and that failure. -/
def engTargets (c : Cmd) : List (Word × Nat) → State → State × List Nat × Option EngErr
  | [], s => (s, [], none)
  | (va, _) :: r, s =>
    match s.engXlate c .store va with
    | (s, .error e) => (s, [], some e)
    | (s, .ok x) =>
      if x.cls ≠ .nrm then (s, [], some { cause := 1, va := va, hold := none })
      else
        let (s, l, e) := engTargets c r s
        (s, x.pa :: l, e)

/-- Count a write of an engine, where some hall counts it (R233). -/
def State.countBy (s : State) (cnt : Option (BitVec 4)) (pa n : Nat) : State :=
  match cnt with
  | some h => s.count h pa n true
  | none => s

/-- Write pieces at their homes until one answers with an error. -/
def engPut (c : Cmd) (cnt : Option (BitVec 4)) : List (Nat × Word × List Byte) → State → State × Option EngErr
  | [], s => (s, none)
  | (pa, va, bs) :: r, s =>
    match s.writeHome c.who c.hall pa bs with
    | .error s => (s, some { cause := 3, va := va, hold := none })
    | .ok s => engPut c cnt r (s.countBy cnt pa bs.length)

/-- Cut a byte string into pieces. -/
def cutBytes : List (Word × Nat) → List Byte → List (Word × List Byte)
  | [], _ => []
  | (va, n) :: r, l => (va, l.take n) :: cutBytes r (l.drop n)

/-- Write bytes at va for a command, which hall `cnt` counts. A row that crosses into a page that fails is left untouched, or
written before that page; which is open (R189, log 9). -/
def State.engStore (s : State) (c : Cmd) (cnt : Option (BitVec 4)) (va : Word) (bs : List Byte) : State × Option EngErr :=
  let ps := piecesOf va bs.length
  let (s, pas, bad) := engTargets c ps s
  let put := pas.zip (cutBytes ps bs)
  match bad with
  | none => engPut c cnt put s
  | some e =>
    let s' : State := { s with fresh := s.fresh + 1 }
    if pageOf e.va ≠ pageOf va && Config.freeBit s.fresh then ((engPut c cnt put s').1, some e) else (s', some e)

/-- Write bytes at va for a command; its hall counts them. -/
def State.engWrite (s : State) (c : Cmd) (va : Word) (bs : List Byte) : State × Option EngErr := s.engStore c (some c.hall) va bs

/-! ## Positions (R189, R337) -/

/-- A position of the command is held for the hypervisor. -/
def State.cmdHeld (s : State) (c : Cmd) : Bool := (s.hall c.hall).held.any fun x => x.cmd == some c.id

/-- A translation fault of the command is held first: it acts for a shadowed VF (R337). -/
def State.cmdShadowed (s : State) (c : Cmd) : Bool := c.mode != .p && (s.vf c.vf).xroot.getLsbD 1

/-- Hold a position: one entry in the PF fault queue, whose SRC names the engine (R337, Table 22.5); `st` says what a FORWARD
fails. -/
def State.holdCmd (s : State) (c : Cmd) (va : Word) (k : Kind) (r : Reason) (st : Stuck) : State :=
  let h := c.hall
  let tok := (s.hall h).nextToken
  let src := match c.op.toNat with | 0 => 1 | 3 => 3 | _ => 2
  let s := s.fqPost h (fqEntry va tok c.vf h 0#5 0#3 k.code src r.code 1 s.podt)
  (s.onCmd c.id fun c => { c with stuck := some st, forward := false }).onHall h fun x =>
    { x with nextToken := tok + 1, held := x.held ++
        [{ token := tok, cmd := some c.id, vf := c.vf, va := va, kind := BitVec.ofNat 2 k.code, tlbsh := none, code := 8,
           after := false, pfx := false, scalar := false, record := [], recordPa := 0, cut := none }] }

/-- Settle position pos by what its transfer met. In a shadowed VF a translation fault is held first. -/
def State.settlePos (s : State) (c : Cmd) (pos : Nat) (idxv : BitVec 32) : Option EngErr → State
  | none => s.onCmd c.id fun c => { c with done := c.done ++ [pos] }
  | some e =>
    let fails : State := s.onCmd c.id fun c => c.failAt pos e.cause e.va idxv
    match e.hold with
    | some (k, r) =>
      if s.cmdShadowed c then s.holdCmd c e.va k r { pos := pos, source := false, cause := e.cause, va := e.va, idxv := idxv } else fails
    | none => fails

/-- A command cannot read its source as a whole: its rank of a collective and every other end with it (R407), or an IXG reads no
row (R194). -/
def State.failSource (s : State) (c : Cmd) (cause : Nat) (va : Word) : State :=
  let s := s.onCmd c.id fun c => c.finishWith cause va
  if c.op = 1#3 then s.abortRun c.run c.hall cause else s

/-- The same, where a shadowed VF's fault is held first. -/
def State.meetSource (s : State) (c : Cmd) (e : EngErr) : State :=
  match e.hold with
  | some (k, r) =>
    if s.cmdShadowed c then s.holdCmd c e.va k r { pos := 0, source := true, cause := e.cause, va := e.va, idxv := 0#32 }
    else s.failSource c e.cause e.va
  | none => s.failSource c e.cause e.va

/-- A position that was held goes on once it has been answered: it fails where the fault is forwarded, and walks again where it is
not (R337). -/
def State.resolveStuck (s : State) (i : Nat) : State :=
  match s.cmd? i with
  | none => s
  | some c =>
    match c.stuck with
    | none => s
    | some st =>
      if s.cmdHeld c then s
      else
        let s := s.onCmd i fun c => { c with stuck := none, forward := false }
        if !c.forward then s
        else if st.source then s.failSource c st.cause st.va
        else s.onCmd i fun c => c.failAt st.pos st.cause st.va st.idxv

/-- Go through positions in the order given; nothing more once the command has ended or is held. -/
def State.eachPos (s : State) (i : Nat) (f : State → Cmd → Nat → State) (l : List Nat) : State :=
  l.foldl (fun s pos =>
    match s.cmd? i with
    | none => s
    | some c => if c.live && !c.done.contains pos && !s.cmdHeld c then f s c pos else s) (s.resolveStuck i)

/-- Positions of one command are performed in any order (R162, R190, R192, R278; log 13). -/
def State.anyOrder (s : State) (l : List Nat) : List Nat :=
  l.foldl (fun acc p => insertBy (Config.elementRank s.fresh) p acc) []

/-! ## COPY (R190) -/

/-- The index of row r, in indirect mode. -/
def State.copyIndex (s : State) (c : Cmd) (r : Nat) : State × Except EngErr Nat :=
  if c.copyMode = 2 then
    match s.engRead c (c.at 0x28 + BitVec.ofNat 64 (4 * r)) 4 with
    | (s, .ok l) => (s, .ok (leNat l))
    | (s, .error e) => (s, .error e)
  else (s, .ok r)

/-- The source of row r, whose index is i. -/
def Cmd.copySrc (c : Cmd) (i : Nat) : Word :=
  c.at 0 + BitVec.ofNat 64 i * (if c.copyMode = 0 then BitVec.ofNat 64 c.copyBytes else c.at 0x18)

/-- The destination of row r. -/
def Cmd.copyDst (c : Cmd) (r : Nat) : Word :=
  c.at 8 + BitVec.ofNat 64 r * (if c.copyMode = 0 then BitVec.ofNat 64 c.copyBytes else c.at 0x20)

/-- Move one row: every byte is read, then written. -/
def copyRow (s : State) (c : Cmd) (r : Nat) : State :=
  match s.copyIndex c r with
  | (s, .error e) => s.settlePos c r 0#32 (some e)
  | (s, .ok i) =>
    match s.engRead c (c.copySrc i) c.copyBytes with
    | (s, .error e) => s.settlePos c r 0#32 (some e)
    | (s, .ok bs) =>
      let (s, e) := s.engWrite c (c.copyDst r) bs
      s.settlePos c r 0#32 e

/-- Two ranges of n bytes meet, modulo 2^64. -/
def rangesMeet (a b : Word) (n : Nat) : Bool := decide ((b - a).toNat < n) || decide ((a - b).toNat < n)

/-- The row indices of a command, where they can be read. -/
def State.copyIndices (s : State) (c : Cmd) : List (Nat × Nat) :=
  (List.range c.copyRows).filterMap fun r => match s.copyIndex c r with | (_, .ok i) => some (r, i) | _ => none

/-- Some source range overlaps some destination range. -/
def State.copyOverlaps (s : State) (c : Cmd) : Bool :=
  let l := s.copyIndices c
  l.any fun p => l.any fun q => rangesMeet (c.copySrc p.2) (c.copyDst q.1) c.copyBytes

/-- A row whose bytes move one by one: its number, its index, and its bytes before the command. -/
structure LooseRow where
  row : Nat
  idx : Nat
  old : List Byte

/-- Read the rows of a command whose ranges overlap: a row that fails is settled, one that does not is kept (R190). -/
def looseRows (i : Nat) : List Nat → State → List LooseRow → State × List LooseRow
  | [], s, acc => (s, acc)
  | r :: l, s, acc =>
    match s.cmd? i with
    | none => (s, acc)
    | some c =>
      if s.cmdHeld c then (s, acc)
      else match s.copyIndex c r with
        | (s, .error e) => looseRows i l (s.settlePos c r 0#32 (some e)) acc
        | (s, .ok x) =>
          match s.engRead c (c.copySrc x) c.copyBytes with
          | (s, .error e) => looseRows i l (s.settlePos c r 0#32 (some e)) acc
          | (s, .ok bs) =>
            match engTargets c (piecesOf (c.copyDst r) c.copyBytes) s with
            | (s, _, none) => looseRows i l s (acc ++ [{ row := r, idx := x, old := bs }])
            | (s, _, some _) =>
              let (s, e) := s.engWrite c (c.copyDst r) bs
              looseRows i l (s.settlePos c r 0#32 e) acc

/-- One byte of a row in a command whose ranges overlap: it is read before the command or when it is written, which is
open (R190, log 9). -/
def copyByte (c : Cmd) (x : LooseRow) (off : Nat) (s : State) : State :=
  let old := x.old.getD off 0#8
  let r := s.engPeek c (c.copySrc x.idx + BitVec.ofNat 64 off) 1
  let now := match r.2 with | .ok [b] => b | _ => old
  let b := if Config.freeBit s.fresh then old else now
  (({ r.1 with fresh := s.fresh + 1 } : State).engWrite c (c.copyDst x.row + BitVec.ofNat 64 off) [b]).1

/-- COPY with overlapping ranges: the bytes of the rows that fail in no place move in any order. -/
def State.copyLoose (s : State) (c : Cmd) (rows : List Nat) : State :=
  let n := c.copyBytes
  let (s, good) := looseRows c.id rows (s.resolveStuck c.id) []
  let tasks := (List.range good.length).flatMap fun k => (List.range n).map fun o => k * n + o
  let s := (s.anyOrder tasks).foldl (fun t p => match good[p / n]? with | some x => copyByte c x (p % n) t | none => t)
    ({ s with fresh := s.fresh + 1 } : State)
  good.foldl (fun t x => t.settlePos c x.row 0#32 none) s

/-! ## IXG (R194, R278) -/

/-- Fix the table root: TABLE, or a load of ROOTP. -/
def State.fixRoot (s : State) (i : Nat) : State :=
  let s := s.resolveStuck i
  match s.cmd? i with
  | none => s
  | some c =>
    if c.root.isSome || c.ixgCount = 0 || !c.live || s.cmdHeld c then s
    else if c.at 0x38 = 0#64 then s.onCmd i fun c => { c with root := some (c.at 0) }
    else
      let r : State × Except EngErr Word :=
        match s.engXlate c .load (c.at 0x38) with
        | (s, .error e) => (s, .error e)
        | (s, .ok x) =>
          if x.cls ≠ .nrm then (s, .error { cause := 1, va := c.at 0x38, hold := none })
          else match s.readSource c.who c.hall x 8 with
            | (s, .error e) => (s, .error (s.engLate (c.at 0x38) x.pa 8 e))
            | (s, .ok l) => (s, .ok (leWord l))
      match r with
      | (s, .ok w) => s.onCmd i fun c => { c with root := some w }
      | (s, .error e) => s.meetSource c { e with va := c.at 0x38 }

/-- The positions of the batch that is at hand: the 256 stream elements among which the lowest open one lies (R278). -/
def Cmd.batchOpen (c : Cmd) : List Nat :=
  match c.open with
  | [] => []
  | j :: _ => c.open.filter fun k => k / 256 == j / 256

/-- The index of a stream element, as its batch read it. -/
def Cmd.indexOf (c : Cmd) (j : Nat) : Option (BitVec 32) := alFind j c.batch

/-- Read one index of the batch; one that cannot be read fails its position. -/
def readIndex (s : State) (c : Cmd) (j : Nat) : State :=
  if (c.indexOf j).isSome then s
  else match s.engRead c (c.at 0x08 + BitVec.ofNat 64 (4 * j)) 4 with
    | (s, .error e) => s.settlePos c j 0#32 (some e)
    | (s, .ok l) => s.onCmd c.id fun c => { c with batch := (j, BitVec.ofNat 32 (leNat l)) :: c.batch.filter fun p => p.1 / 256 == j / 256 }

/-- Read the indices of the batch at hand, before any of its rows moves (R278). -/
def State.readBatch (s : State) (i : Nat) : State :=
  match s.cmd? i with
  | none => s
  | some c => s.eachPos i readIndex c.batchOpen

/-- The batch at hand has been read. -/
def Cmd.batchRead (c : Cmd) : Bool := c.batchOpen.all fun j => (c.indexOf j).isSome

/-- One row: its index, then its bytes; only of the batch that has been read. -/
def ixgRow (s : State) (c : Cmd) (j : Nat) : State :=
  match c.root, (if c.batchRead && c.batchOpen.contains j then c.indexOf j else none) with
  | some root, some iv =>
    let i := iv.toNat
    if c.fld 0x28 0 32 ≤ i then s.settlePos c j iv (some { cause := 4, va := c.at 0x08 + BitVec.ofNat 64 (4 * j), hold := none })
    else match s.engRead c (root + BitVec.ofNat 64 i * c.at 0x20) c.ixgBytes with
      | (s, .error e) => s.settlePos c j iv (some e)
      | (s, .ok bs) =>
        let (s, e) := s.engWrite c (c.at 0x10 + BitVec.ofNat 64 (j * c.ixgBytes)) bs
        s.settlePos c j iv e
  | _, _ => s

/-- IXG_REMOTE_ROW_REQUEST (R278): one row of a command, which another hall's engine reads and writes. -/
def execIxgRemoteRowRequest (i row : Nat) (s : State) :=
  happened (match s.cmd? i with
    | some c => if c.op = 3#3 && row < c.ixgCount then ((s.fixRoot i).readBatch i).eachPos i ixgRow [row] else s
    | none => s)

/-- What is left of the batch at hand: its rows move in any order. -/
def State.runBatch (s : State) (i : Nat) : State :=
  let s := s.readBatch i
  match s.cmd? i with
  | none => s
  | some c => ({ s with fresh := s.fresh + 1 } : State).eachPos i ixgRow (s.anyOrder c.batchOpen)

/-- The batches of an index stream, one after another; `n` bounds their number. -/
def State.runBatches (i : Nat) : Nat → State → State
  | 0, s => s
  | n + 1, s => State.runBatches i n (s.runBatch i)

/-! ## Completion (R187 to R189, R322) -/

/-- The engine writes the fault record of a command that failed; a write that fails is dropped (R188). -/
def State.writeFault (s : State) (c : Cmd) : State :=
  match c.fail with
  | none => s
  | some f =>
    if c.frec = 0#64 || c.frec.toNat % 32 ≠ 0 then s
    else (s.engWrite c c.frec (wordsBytes (c.faultRecord f))).1

/-- The completion reaches its issuer: the counter of the hart, or of its slot, or the hart that waits, which takes the
engine-fault trap where the command failed (R188, R189). -/
def State.deliver (s : State) (c : Cmd) : State :=
  let st : BitVec 4 := match c.fail with | some f => causeStatus f.cause.toNat | none => 0#4
  if !c.counted then s
  else if s.hart.unit = c.owner then
    if c.k ≠ 0#3 then s.countDown c.k st
    else if s.hart.wait = some (.engine c.id) then
      let s := s.onHart fun h => { h with wait := none }
      match c.fail with
      | none => s.retire 4#64
      | some f => s.takeTrap { code := 19, eval := f.va }
    else s
  else match s.units.find? fun u => some u.key == c.owner with
    | some u => if u.onHart then s else s.completeInSlot u c.k st
    | none => s

/-- A command completes, and leaves its collective. -/
def State.complete (s : State) (c : Cmd) : State :=
  let s := s.writeFault c
  let rest := s.cmds.filter fun d => d.id != c.id
  let s : State := { s with cmds := rest, accums := s.accums.filter fun a => !(c.op == 1#3 && a.cmd == c.id) }
  (s.leaveRun c).deliver c

/-- Every position of a command is settled, or it has ended. -/
def Cmd.over (c : Cmd) : Bool := !c.live || c.open == []

/-- Perform what is left of a COPY or an IXG, and complete it unless a position is held. -/
def State.runRows (s : State) (i : Nat) : State :=
  match s.cmd? i with
  | none => s
  | some c =>
    let s1 :=
      if !c.live then s
      else if c.op = 0#3 then
        (if s.copyOverlaps c then s.copyLoose c c.open
         else ({ s with fresh := s.fresh + 1 } : State).eachPos i copyRow (s.anyOrder c.open))
      else (s.fixRoot i).runBatches i (c.ixgCount / 256 + 1)
    match s1.cmd? i with
    | none => s1
    | some c => if c.over then s1.complete c else s1

/-! ## Issue (R186 to R188, R263) -/

/-- Commands that an engine queue holds: 64 for a copy engine, 32 for each hall of a collective engine (Table 11.10,
R263). The manual bounds no other engine. -/
def State.queueFullAt (s : State) (h : BitVec 4) (op : BitVec 3) : Bool :=
  let n (ops : List (BitVec 3)) := (s.cmds.filter fun c => ops.contains c.op && c.hall == h && c.away.isNone).length
  match op.toNat with
  | 0 => decide (64 ≤ n [0#3])
  | 1 => decide (32 ≤ n [1#3, 2#3])
  | 2 => decide (32 ≤ n [1#3, 2#3])
  | _ => false

/-- The queue of an engine of the hart's hall is full. -/
def State.queueFull (s : State) (op : BitVec 3) : Bool := s.queueFullAt s.myHall op

/-- A command as it begins. -/
def Cmd.fresh (id : Nat) (op : BitVec 3) (v : BitVec 10) (h : BitVec 4) (rank : Nat) (words : List Word) : Cmd :=
  { id := id, op := op, vf := v, hall := h, owner := none, mode := .a, k := 0#3, counted := false
    scope := 1#3, acq := false, rel := false, rank := rank, words := words, window := 0, armed := false, split := [], tree := 0
    root := none, batch := [], done := [], fail := none, stuck := none, forward := false, live := true, run := 0, tab := []
    away := none, lostAt := none }

/-- The command that the hart issues. -/
def State.newCmd (s : State) (op : BitVec 3) (words : List Word) (rank : Nat) (sc : BitVec 3) (q l : Bool) (k : BitVec 3) : Cmd :=
  { Cmd.fresh s.nextId op s.myVf s.myHall rank words with
    owner := s.hart.unit, mode := s.hart.mode, k := k, counted := true, scope := sc, acq := q, rel := l }

/-- Another COLL in flight has the match key and the rank of this one. -/
def State.twin (s : State) (c d : Cmd) : Bool :=
  c.op == 1#3 && d.op == 1#3 && s.runKey c == s.runKey d && d.rank == c.rank && d.away == c.away

/-- A COLL fails where its twin is on the same die; where it is on another die, whether it fails is open (R264, log 9). -/
def State.duplicated (s : State) (c : Cmd) : Bool :=
  (s.cmds.any fun d => s.twin c d && d.hall.toNat / 2 == c.hall.toNat / 2)
    || ((s.cmds.any fun d => s.twin c d) && Config.freeBit s.fresh)

/-- A command whose record is bad ends before it begins: nothing states its POS and NFAIL (R188, log 9). -/
def State.judge (s : State) (c : Cmd) : Cmd :=
  if c.recordOk && !s.duplicated c then c
  else
    { c with
      live := false
      fail := some { cause := 5#4, va := 0#64, pos := Config.freeWord s.fresh, nfail := (Config.freeWord (s.fresh + 1)).setWidth 32,
                     idxv := 0#32 } }

/-- Hand a command to its engine. -/
def State.addCmd (s : State) (c : Cmd) : State :=
  let (t, c) := s.joinRun (s.judge c)
  { t with cmds := t.cmds ++ [c], nextId := s.nextId + 1, fresh := s.fresh + 2 }

/-- The command has been issued: it counts on its counter and retires, or the hart waits for it (R188). -/
def State.issued (s : State) (id : Nat) (k : BitVec 3) : State :=
  if k = 0#3 then s.onHart fun h => { h with wait := some (.engine id) } else (s.countUp k).retire 4#64

/-- Issue a command with a record of n bytes at g[a] (R186, R187): every check comes before any effect, and a record that can be
reached waits for room in the queue. In run-ahead its address is translated, and nothing leaves the hart (R327). -/
def issueCmd (op : BitVec 3) (n : Nat) (a : BitVec 5) (rank : Nat) (sc : BitVec 3) (q l : Bool) (k : BitVec 3) (s : State) :
    Host.Outcome State Fault Refusal :=
  let va := s.g a
  match s.scoped sc with
  | .error (t, s) => .next (s.takeTrap t)
  | .ok s =>
    if s.ra.isSome && s.gUnknown a then .next (s.retire 4#64)
    else match s.reach s.myHall .load va n n onlyNrm with
      | (s, .error t) => .next (s.takeFault t)
      | (s, .ok x) =>
        if s.ra.isSome || x.isNone then .next (s.retire 4#64)
        else if s.counterFull k || s.queueFull op then .next s
        else match s.loadAt va n n onlyNrm (List.replicate (n / 64) 64) with
          | (s, .trap t) => .next (s.takeFault t)
          | (s, .late e) => .next (s.takeFault (e.trap va))
          | (s, .unknown) => .next (s.retire 4#64)
          | (s, .bytes bs) =>
            let run := s.scopeRun sc
            let s := s.demote sc
            let s := if q then s.settleScope run else s
            .next ((s.addCmd (s.newCmd op (leWords bs (n / 8)) rank run q l k)).issued s.nextId k)

/-- COPY (R190). -/
def execCopy (a : BitVec 5) (sc : BitVec 3) (q l : Bool) (k : BitVec 3) (s : State) := issueCmd 0#3 64 a 0 sc q l k s

/-- COLL (R193). -/
def execColl (a b : BitVec 5) (sc : BitVec 3) (q l : Bool) (k : BitVec 3) (s : State) :=
  issueCmd 1#3 64 a ((s.g b).toNat % 65536) sc q l k s

/-- FLIGHT (R191). -/
def execFlight (a b : BitVec 5) (sc : BitVec 3) (q l : Bool) (k : BitVec 3) (s : State) :=
  issueCmd 2#3 128 a ((s.g b).toNat % 65536) sc q l k s

/-- IXG (R194). -/
def execIxg (a : BitVec 5) (sc : BitVec 3) (q l : Bool) (k : BitVec 3) (s : State) := issueCmd 3#3 64 a 0 sc q l k s

/-! ## Windows (R195, R196) -/

/-- The lowest window number of a hall that is free, where the hall has room for n bytes. -/
def Hall.freeWindow (x : Hall) (n : Nat) : Option Nat :=
  if (x.windows.map (·.2.len)).sum + n ≤ 2 ^ 24 then (List.range 64).find? fun i => (alFind i x.windows).isNone else none

/-- A line that no L2 holds: of the scratchpad aperture, or of host memory behind a port without CXL (R226, R229, Table 13.1). It is
left out of the window, and is no failure (log 87). -/
def State.neverCached (s : State) (pa : Nat) : Bool := paTarget pa == 4 || s.pcieOnly pa

/-- What becomes of line i of a window: an entry that is to be filled, or nothing; where its class is not NRM or it has no
translation, its position fails, and a shadow miss leaves it open. -/
def windowLine (s : State) (c : Cmd) (i : Nat) : State × Option WinEntry × Option EngErr :=
  let va := wordAt c.words 0 + BitVec.ofNat 64 (64 * i)
  match s.engXlate c .load va with
  | (s, .error e) => (s, none, some e)
  | (s, .ok x) =>
    if x.cls ≠ .nrm then (s, none, some { cause := 1, va := va, hold := none })
    else if s.neverCached x.pa then (s, none, none)
    else (s, some { va := va.toNat / 64, pa := x.pa / 64, line := .unfilled }, none)

/-- The lines of a window that can be filled, and the command with the failures among the others. -/
def windowLines (c : Cmd) : List Nat → State → State × List WinEntry × Cmd
  | [], s => (s, [], c)
  | i :: r, s =>
    match windowLine s c i with
    | (s, some e, _) =>
      let (s, l, c) := windowLines { c with done := c.done ++ [i] } r s
      (s, e :: l, c)
    | (s, none, none) => windowLines { c with done := c.done ++ [i] } r s
    | (s, none, some e) =>
      windowLines (if e.hold.isSome && s.cmdShadowed c then c else c.failAt i e.cause e.va 0#32) r s

/-- Open a window: its handle, and the command that fills it. Its record holds the range. Its acquire comes first: what the hart
has posted is performed, so that the lines hold it (R195, R247). -/
def State.openWindow (s : State) (d : BitVec 5) (base len : Word) (sc k : BitVec 3) (n : Nat) : State :=
  let s := s.settleAll
  let h := s.myHall
  let c0 := { s.newCmd 4#3 [base, len] 0 sc true false k with window := h.toNat * 64 + n }
  let (s, lines, c) := windowLines c0 (List.range (len.toNat / 64)) s
  let s := s.onHall h fun x =>
    { x with windows := alSet n { base := base, len := len.toNat, vf := s.myVf, lines := lines } x.windows }
  (({ s with cmds := s.cmds ++ [c], nextId := s.nextId + 1 } : State).setG d (BitVec.ofNat 64 c.window)).issued c.id k

/-- The number of a window for a range of this length; none where the length is bad or there is no room (R195). -/
def State.windowRoom (s : State) (len : Nat) : Option Nat :=
  if len % 64 = 0 && 64 ≤ len && len ≤ 2 ^ 24 then (s.hall s.myHall).freeWindow len else none

/-- The translations of a range, one for each 64 KiB page, as run-ahead makes them. -/
def aheadRange (base : Word) : List Nat → State → State
  | [], s => s
  | i :: r, s => aheadRange base r (s.reach s.myHall .load (setField (base + BitVec.ofNat 64 (65536 * i)) 0 0#6) 64 64 fun _ => true).1

/-- ROWIN (R195): a range that gets no window changes nothing but g[d]. In run-ahead its pages are translated, and no window opens
(R327). -/
def execRowin (d a b : BitVec 5) (sc k : BitVec 3) (s : State) : Host.Outcome State Fault Refusal :=
  let base := s.g a
  let len := s.g b
  let unk := s.ra.isSome && (s.gUnknown a || s.gUnknown b)
  if !unk && base.toNat % 64 ≠ 0 then .next (s.takeTrap { code := 7, eval := base })
  else match s.scoped sc with
    | .error (t, s) => .next (s.takeTrap t)
    | .ok s =>
      if s.ra.isSome then
        let n := len.toNat
        let ok := !unk && decide (n % 64 = 0) && decide (64 ≤ n) && decide (n ≤ 2 ^ 24)
        let s := if ok then aheadRange base (List.range ((base.toNat % 65536 + n + 65535) / 65536)) s else s
        .next ((s.noteG d true).retire 4#64)
      else match s.windowRoom len.toNat with
        | none => .next ((s.setG d (BitVec.allOnes 64)).retire 4#64)
        | some n => .next (if s.counterFull k then s else (s.demote sc).openWindow d base len (s.scopeRun sc) k n)

/-- Fill a line of a window that a shadow miss had left open. -/
def fillHeld (s : State) (c : Cmd) (i : Nat) : State :=
  let h := BitVec.ofNat 4 (c.window / 64)
  let n := c.window % 64
  match windowLine s c i with
  | (s, some e, _) =>
    let s := s.onHall h fun x =>
      { x with windows := x.windows.map fun p => if p.1 = n then (p.1, { p.2 with lines := p.2.lines ++ [e] }) else p }
    (s.fillLine c.vf h n e).1.settlePos c i 0#32 none
  | (s, none, e) => s.settlePos c i 0#32 e

/-- Fill every line of a window that is not filled, and complete its command unless a line is held. -/
def State.fillWindow (s : State) (c : Cmd) : State :=
  let h := BitVec.ofNat 4 (c.window / 64)
  let n := c.window % 64
  let todo := ((alFind n (s.hall h).windows).map fun w => w.lines.filter fun e => e.line == .unfilled).getD []
  let s := todo.foldl (fun s e => (s.fillLine c.vf h n e).1) s
  let s := s.eachPos c.id fillHeld c.open
  match s.cmd? c.id with
  | none => s
  | some c => if c.over then s.complete c else s

/-- ROWIN_FILL_DONE (R195). -/
def execRowinFillDone (i : Nat) (s : State) :=
  happened (match s.cmd? i with
    | some c => if c.op = 4#3 then s.fillWindow c else s
    | none => s)

/-- ROWOUT (R196): a handle that names no open window of the VF changes nothing. -/
def execRowout (a : BitVec 5) (s : State) : Host.Outcome State Fault Refusal :=
  let w := (s.g a).toNat
  let h := BitVec.ofNat 4 (w / 64)
  finish none (.ok (if s.ra.isSome || 1024 ≤ w then s
    else s.onHall h fun x => { x with windows := x.windows.filter fun p => !(p.1 == w % 64 && p.2.vf == s.myVf) }))

end Sys2Proof.Machine
end

