-- ==== Sys2Proof/Machine/Coll.lean ====
section
/-! DEFINITION. Coll.lean: flights, collectives, receiver reduction units and paths (R191 to R193, R263 to R275,
R407). -/

namespace Sys2Proof.Machine

/-! ## Combining (R269 to R271) -/

/-- Widen an element of FP16, BF16 or FP32 to FP32. -/
def widen (t : BitVec 4) (x : Nat) : Nat := (roundTo .fp32 .plain ((fmtOf t).value x)).1

/-- One FP32 addition, rounded to nearest even. -/
def add32 (a b : Nat) : Nat := (roundTo .fp32 .plain (addVal .rne (Fmt.fp32.value a) (Fmt.fp32.value b)).1).1

/-- Round an FP32 sum to a type. -/
def narrow (t : BitVec 4) (x : Nat) : Nat := (roundTo (fmtOf t) .plain (Fmt.fp32.value x)).1

/-- The value of some full binary tree of additions: `pick` says which two are added next (R270). -/
def treeSum (pick : Nat → Nat) : Nat → List Nat → Nat
  | 0, l => l.headD 0
  | n + 1, l =>
    match l with
    | [] => 0
    | [x] => x
    | l =>
      let i := pick (2 * n) % l.length
      let r := l.eraseIdx i
      let j := pick (2 * n + 1) % r.length
      treeSum pick n (r.set j (add32 (l.getD i 0) (r.getD j 0)))

/-- The contributions by ascending key. -/
def ascending (l : List (Nat × BitVec 32)) : List Nat := (l.foldl (fun acc p => insertBy (·.1) p acc) []).map fun p => p.2.toNat

/-- Add contributions one after another. -/
def sumFrom : List Nat → Nat
  | [] => 0
  | x :: l => l.foldl add32 x

/-! ## Wells as destinations (R192, R272) -/

/-- Where each addend goes: the line and the slot; all on pages of one class. -/
def depositSites (c : Cmd) (cls : Class) : List (Word × FVal) → State → State × Except EngErr (List (Nat × Nat × FVal))
  | [], s => (s, .ok [])
  | (va, a) :: r, s =>
    match s.engXlate c .store va with
    | (s, .error e) => (s, .error e)
    | (s, .ok x) =>
      let slot := wellSlot (cls == .wlf)
      if x.cls ≠ cls || va.toNat % slot ≠ 0 then (s, .error { cause := 1, va := va, hold := none })
      else match depositSites c cls r s with
        | (s, .error e) => (s, .error e)
        | (s, .ok l) => (s, .ok ((x.pa / 64, x.pa % 64 / slot, a) :: l))

/-- One line step for every line, in the order of their first addends. -/
def depositLines (c : Cmd) (cnt : Option (BitVec 4)) (wlf : Bool) (va : Word) (l : List (Nat × Nat × FVal)) : List Nat → State → State × Option EngErr
  | [], s => (s, none)
  | line :: r, s =>
    match s.refusal c.who c.hall (line * 64) 64 true with
    | some x => (s.logRefusal c.who c.hall (line * 64) x, some { cause := 3, va := va, hold := none })
    | none =>
      let adds := (l.filter fun p => p.1 == line).map (·.2)
      match s.wellDeposit wlf line adds with
      | (s, true) => (s, some { cause := 2, va := va, hold := none })
      | (s, false) => depositLines c cnt wlf va l r (s.countBy cnt (line * 64) (adds.length * wellSlot wlf))

/-- Deposit addends at consecutive slots from va, as WDEPX would (R168); hall `cnt` counts them. -/
def State.engDeposit (s : State) (c : Cmd) (cnt : Option (BitVec 4)) (va : Word) (adds : List FVal) : State × Option EngErr :=
  match s.engXlate c .store va with
  | (s, .error e) => (s, some e)
  | (s, .ok x) =>
    if !wellClasses x.cls then (s, some { cause := 1, va := va, hold := none })
    else
      let slot := wellSlot (x.cls == .wlf)
      let l := ((List.range adds.length).zip adds).map fun p => (va + BitVec.ofNat 64 (p.1 * slot), p.2)
      match depositSites c x.cls l s with
      | (s, .error e) => (s, some e)
      | (s, .ok l) => depositLines c cnt (x.cls == .wlf) va l ((l.map (·.1)).foldl (fun acc n => if acc.contains n then acc else acc ++ [n]) []) s

/-! ## Pairs of dies (R274) -/

/-- The wavelength from one die to another is dark and its relay is not in place, nor the pair lost: transfers for the pair
wait at their senders (R274). -/
def Fabric.waits (f : Fabric) (src dst : BitVec 3) : Bool :=
  src != dst && f.isDark src dst && !(pick (w := 3) f.relayed src).getLsbD dst.toNat && f.connected src dst

/-- The die of a hall. -/
def dieOfHall (h : BitVec 4) : BitVec 3 := h.extractLsb' 1 3

/-- A command may move data: it has not ended, no transfer of it was lost, and its hall runs (R274, R346). -/
def State.moves (s : State) (c : Cmd) : Bool := c.live && c.lostAt.isNone && (c.away.isSome || (s.hall c.hall).st == .running)

/-! ## Flights (R191, R192, R271) -/

/-- The base address of rank p, from RANKTAB; no counter counts the read (R233). -/
def State.rankBase (s : State) (c : Cmd) (p : Nat) : State × Except EngErr Word :=
  match s.engPeek c (c.at 0x10 + BitVec.ofNat 64 (8 * p)) 8 with
  | (s, .ok l) => (s, .ok (leWord l))
  | (s, .error e) => (s, .error e)

/-- The elements of w bytes of a byte string. -/
def elemsOf (w : Nat) (l : List Byte) : List Nat := (List.range (l.length / w)).map fun k => leNat ((l.drop (k * w)).take w)

/-- The die of this package on which an address of a command lies. -/
def State.dieAt (s : State) (c : Cmd) (k : Kind) (va : Word) : Option (BitVec 3) :=
  match (s.engXlate c k va).2 with
  | .ok x => if paChip x.pa == s.chip && decide (paTarget x.pa < 6) then some (paDie x.pa) else none
  | .error _ => none

/-- The far side of a transfer: a GET reads there, every other one writes there. -/
def Cmd.farKind (c : Cmd) : Kind := if c.flightOp = 1 then .load else .store

/-- A transfer to or from this address waits for a relay, in either direction. -/
def State.farWaits (s : State) (c : Cmd) (va : Word) : Bool :=
  (s.dieAt c c.farKind va).any fun d => s.fabric.waits (dieOfHall c.hall) d || s.fabric.waits d (dieOfHall c.hall)

/-- Perform transfer t of a flight that combines nothing. The hall of its issuer counts it once, at its far side (R233). -/
def flightMove (s : State) (c : Cmd) (t : Nat) : State :=
  if !s.moves c then s
  else match s.rankBase c (c.peer c.rank t) with
    | (s, .error e) => s.settlePos c t 0#32 (some e)
    | (s, .ok b) =>
      let loc := c.localAt t
      let rem := b + c.remoteOff t
      if s.farWaits c rem then s
      else match (if c.flightOp = 1 then s.engRead c rem c.xbytes else s.engPeek c loc c.xbytes) with
        | (s, .error e) => s.settlePos c t 0#32 (some e)
        | (s, .ok l) =>
          let r := match c.flightOp with
            | 0 => s.engStore c (some c.hall) rem l
            | 1 => s.engStore c none loc l
            | _ => s.engDeposit c (some c.hall) rem ((elemsOf c.flightElem l).map fun x => (fmtOf c.flightType).value x)
          r.1.settlePos c t 0#32 r.2

/-! ### Reducing flights (R271)

Under both orders the unit of the receiver holds what has arrived, and writes each element once, when its last contribution has
arrived: Table 16.2 leaves no partial combination (log 88). -/

/-- The contributions that the unit of rank p expects at address a, whose base is b: how many points of all ranks'
nests reach it (R271). -/
def Cmd.expected (c : Cmd) (p : Nat) (b a : Word) : Nat :=
  ((List.range c.flightSize).map fun q =>
    ((List.range c.points).filter fun t =>
      let off := (a - (b + c.remoteOff t)).toNat
      c.peer q t == p && decide (off < c.xbytes) && off % c.flightElem == 0).length).sum

/-- What the unit holds at an address of a flight. -/
def State.flightAcc (s : State) (c : Cmd) (a : Word) : Option Accum := s.accums.find? fun x => x.cmd == c.run && x.elem == a.toNat

/-- Replace what the unit holds at an address of a flight. -/
def State.setFlightAcc (s : State) (c : Cmd) (x : Accum) : State :=
  { s with accums := x :: s.accums.filter fun y => !(y.cmd == c.run && y.elem == x.elem) }

/-- A destination element that a failed transfer leaves without its combination: it keeps its old value (log 88). -/
def State.dropElem (s : State) (c : Cmd) (a : Word) : State :=
  s.setFlightAcc c { cmd := c.run, elem := a.toNat, start := 0#32, got := [], written := true }

/-- One contribution to one destination element; the last one writes it (R271 steps 3 to 5). The destination's own value is read
before the first contribution. -/
def applyPiece (c : Cmd) (p : Nat) (b : Word) (key : Nat) (s : State) (a : Word) (x : Nat) : State × Option EngErr :=
  let w := c.flightElem
  let t := c.flightType
  let r : State × Except EngErr Accum :=
    match s.flightAcc c a with
    | some y => (s, .ok y)
    | none =>
      match s.engPeek c a w with
      | (s, .error e) => (s, .error e)
      | (s, .ok l) => (s, .ok { cmd := c.run, elem := a.toNat, start := BitVec.ofNat 32 (widen t (leNat l)), got := [], written := false })
  match r with
  | (s, .error e) => (s, some e)
  | (s, .ok y) =>
    if y.written || y.got.any fun g => g.1 == key then (s, none)
    else
      let y := { y with got := y.got ++ [(key, BitVec.ofNat 32 (widen t x))] }
      if y.got.length < c.expected p b a then (s.setFlightAcc c y, none)
      else
        let l := if c.flightArrival then y.got.map fun g => g.2.toNat else ascending y.got
        let (s, e) := s.engStore c none a (leBytes w (narrow t (sumFrom (y.start.toNat :: l))))
        (s.setFlightAcc c { y with written := true }, e)

/-- The contributions of one transfer. -/
def applyPieces (c : Cmd) (p : Nat) (b : Word) (key : Nat) : List (Word × Nat) → State → State × Option EngErr
  | [], s => (s, none)
  | (a, x) :: r, s =>
    match applyPiece c p b key s a x with
    | (s, some e) => (s, some e)
    | (s, none) => applyPieces c p b key r s

/-- Where n bytes of a command would be written, piece by piece; or why they cannot be. -/
def State.engLanding (s : State) (c : Cmd) (va : Word) (n : Nat) : State × Except EngErr (List (Nat × Nat)) :=
  let ps := piecesOf va n
  match engTargets c ps s with
  | (s, _, some e) => (s, .error e)
  | (s, pas, none) =>
    let l := pas.zip (ps.map (·.2))
    match l.find? fun p => (s.refusal c.who c.hall p.1 p.2 true).isSome with
    | some p => (s.logRefusal c.who c.hall p.1 ((s.refusal c.who c.hall p.1 p.2 true).getD none), .error { cause := 3, va := va, hold := none })
    | none => (s, .ok l)

/-- The contribution of a transfer has failed: its position fails, and the elements that it would have reached keep their old
values. Nothing is settled while the position is held. -/
def State.failGive (s : State) (d : Cmd) (t : Nat) (as : List Word) (e : EngErr) : State :=
  let u := s.settlePos d t 0#32 (some e)
  if e.hold.isSome && s.cmdShadowed d then u else as.foldl (fun s a => s.dropElem d a) u

/-- What the elements of transfer t are worth: read at its sender, or free for a rank of another package. -/
def State.sentElems (s : State) (d : Cmd) (t : Nat) : State × Except EngErr (List Nat) :=
  let w := d.flightElem
  let n := d.xbytes / w
  if d.away.isSome then
    ({ s with fresh := s.fresh + n }, .ok ((List.range n).map fun k => (Config.freeWord (s.fresh + k)).toNat % 2 ^ (8 * w)))
  else match s.engPeek d (d.localAt t) d.xbytes with
    | (s, .ok l) => (s, .ok (elemsOf w l))
    | (s, .error e) => (s, .error e)

/-- Transfer t of command d reaches the unit of rank p, whose command is e; the translations are those of a command here. The
sender's hall counts it once, at its far side (R233). -/
def State.giveTo (s : State) (d e : Cmd) (p t : Nat) : State :=
  let who := if d.away.isNone then d else e
  let w := d.flightElem
  match s.rankBase who p with
  | (s, .error x) => s.failGive d t [] x
  | (s, .ok b) =>
    let rem := b + d.remoteOff t
    let at' (k : Nat) : Word := rem + BitVec.ofNat 64 (k * w)
    let as := (List.range (d.xbytes / w)).map at'
    if s.farWaits who rem then s
    else match s.engLanding who rem d.xbytes with
      | (s, .error x) => s.failGive d t as x
      | (s, .ok pas) =>
        match s.sentElems d t with
        | (s, .error x) => s.failGive d t as x
        | (s, .ok xs) =>
          match applyPieces who p b (d.rank * d.points + t) (as.zip xs) s with
          | (s, some x) => s.failGive d t as x
          | (s, none) =>
            let s := if d.away.isNone then pas.foldl (fun s q => s.count d.hall q.1 q.2 true) s else s
            s.settlePos d t 0#32 none

/-- A receiver's record differs from a sender's: the receiver and every sender to it end with CAUSE 5, also a later one
(R271). -/
def State.digestClash (s : State) (d e : Cmd) (p : Nat) : State :=
  let hit (x : Cmd) : Bool :=
    x.inRun && x.run == d.run && (x.id == e.id || (List.range x.points).any fun t => x.peer x.rank t == p)
  ({ s with cmds := s.cmds.map fun x => if hit x then x.finishWith 5 0#64 else x } : State).onColl d.run fun r => { r with bad := p :: r.bad }

/-- Transfer t of command d, which reduces: it waits until its receiver has issued its FLIGHT (R271). -/
def contribute (s : State) (d : Cmd) (t : Nat) : State :=
  let p := d.peer d.rank t
  if !s.moves d then s
  else if (s.coll? d.run).any fun r => r.bad.contains p then s.onCmd d.id fun c => c.finishWith 5 0#64
  else match (s.runPeers d.run).find? fun e => e.rank == p with
    | none => s
    | some e => if e.words ≠ d.words then s.digestClash d e p else if s.moves e then s.giveTo d e p t else s

/-- Transfer t of rank q of the flight that command i belongs to. -/
def State.flightGive (s : State) (i q t : Nat) : State :=
  match s.cmd? i with
  | none => s
  | some c =>
    match (s.runPeers c.run).find? fun d => d.rank == q with
    | some d => if c.inRun && c.op == 2#3 && decide (t < d.points) then s.eachPos d.id contribute [t] else s
    | none => s

/-- The unit of a flight's own rank has dealt with every element that it expects. -/
def State.received (s : State) (c : Cmd) : Bool :=
  if c.flightOp ≠ 2 || c.away.isSome then true
  else match s.rankBase c c.rank with
    | (_, .error _) => true
    | (_, .ok b) =>
      (List.range c.flightSize).all fun q => (List.range c.points).all fun t =>
        c.peer q t != c.rank || (List.range (c.xbytes / c.flightElem)).all fun k =>
          ((s.flightAcc c (b + c.remoteOff t + BitVec.ofNat 64 (k * c.flightElem))).map (·.written)).getD false

/-- FLIGHT_TRANSFER (R192): one transfer arrives and is performed. -/
def State.transfer (s : State) (i t : Nat) : State :=
  match s.cmd? i with
  | none => s
  | some c => if c.op = 2#3 && t < c.points then s.eachPos i (if c.flightOp = 2 then contribute else flightMove) [t] else s

/-- FLIGHT_TRANSFER (R192). -/
def execFlightTransfer (i ordinal : Nat) (s : State) := happened (s.transfer i ordinal)

/-- A flight is over: ended, or every transfer performed and everything received. -/
def State.flightOver (s : State) (c : Cmd) : Bool := !c.live || (c.open == [] && s.received c)

/-- Perform what is left of a flight, in any order. -/
def State.runTransfers (s : State) (c : Cmd) : State :=
  (s.anyOrder c.open).foldl (fun s t => s.transfer c.id t) { s with fresh := s.fresh + 1 }

/-- Perform what is left of a flight, with what the other ranks here send to a reduction, and complete it when it is over. -/
def State.runFlight (s : State) (i : Nat) : State :=
  match s.cmd? i with
  | none => s
  | some c =>
    let s := if c.inRun then (s.runPeers c.run).foldl (fun s d => if d.away.isNone then s.runTransfers d else s) s else s.runTransfers c
    match s.cmd? i with
    | none => s
    | some c => if s.flightOver c then s.complete c else s

/-! ## Paths (R265 to R267) -/

/-- A path register is usable for SIZE ranks (R265). -/
def pathUsable (x : Word) (size : Nat) : Bool :=
  let stride := fieldNat x 0 16
  let fan := fieldNat x 16 4
  x.getLsbD 31 && match fieldNat x 29 2 with
    | 0 => Nat.gcd stride size == 1
    | 1 => decide (stride < size) && decide (2 ≤ fan) && decide (fan ≤ 8)
    | _ => false

/-- The ring of stride 1, which a collective uses where no register is usable. -/
def plainRing : Word := place 1 31 1 ||| place 1 0 16

/-- The paths that a collective is offered: the four registers of its VF at its die, or the ring of stride 1 (R265). -/
def State.offeredPaths (s : State) (c : Cmd) : List Word :=
  let l := (pick (w := 3) (s.vf c.vf).cpath (dieOfHall c.hall)).toList
  if l.any fun x => pathUsable x c.collSize then l else [plainRing]

/-- The rank at a tree position: positions count on from the root's rank, modulo SIZE (log 89). -/
def treeRank (x : Word) (size i : Nat) : Nat := (fieldNat x 0 16 + i) % size

/-- The hops between ranks that a path has: a ring's successors, or a tree's links in both directions. -/
def pathHops (x : Word) (size : Nat) : List (Nat × Nat) :=
  if fieldNat x 29 2 = 0 then (List.range size).map fun q => (q, (q + fieldNat x 0 16) % size)
  else (upTo 1 size).flatMap fun i =>
    let up := treeRank x size ((i - 1) / fieldNat x 16 4)
    let me := treeRank x size i
    [(up, me), (me, up)]

/-- Consecutive members of a list. -/
def hopsOf (l : List Nat) : List (Nat × Nat) := l.zip l.tail

/-- A tree position and those above it, up to the root. -/
def treeUp (fan : Nat) : Nat → Nat → List Nat
  | 0, i => [i]
  | fuel + 1, i => if i = 0 then [0] else i :: treeUp fan fuel ((i - 1) / fan)

/-- The ranks that a path passes from rank r to rank q. -/
def pathWay (x : Word) (size r q : Nat) : List (Nat × Nat) :=
  let st := fieldNat x 0 16
  if fieldNat x 29 2 = 0 then
    let steps := ((List.range size).find? fun k => (r + k * st) % size == q).getD 0
    hopsOf ((List.range (steps + 1)).map fun k => (r + k * st) % size)
  else
    let pos (k : Nat) : Nat := (k + size - st % size) % size
    let u := treeUp (fieldNat x 16 4) size (pos r)
    let v := treeUp (fieldNat x 16 4) size (pos q)
    let top := (u.filter v.contains).take 1
    hopsOf ((u.takeWhile (fun i => !v.contains i) ++ top ++ (v.takeWhile fun i => !u.contains i).reverse).map (treeRank x size))

/-- The commands here of the two ranks of a hop. -/
def State.hopEnds (s : State) (run : Nat) (p : Nat × Nat) : Option (Cmd × Cmd) :=
  match (s.runPeers run).find? fun d => d.rank == p.1, (s.runPeers run).find? fun d => d.rank == p.2 with
  | some a, some b => some (a, b)
  | _, _ => none

/-- The hall of a rank reaches that of another: the pair of their dies is not lost, or a circuit toward the other package is up. -/
def State.hopUp (s : State) (a b : Cmd) : Bool :=
  match a.away, b.away with
  | none, none => !s.pairLost a.hall (hbmPa s.chip b.hall 0)
  | none, some chip => s.routeUp a.hall chip
  | some chip, none => s.routeUp b.hall chip
  | some _, some _ => true

/-- Some hop is lost, as far as its ranks are known here. -/
def State.hopsLost (s : State) (run : Nat) (l : List (Nat × Nat)) : Bool :=
  l.any fun p => (s.hopEnds run p).any fun e => !s.hopUp e.1 e.2

/-- Some hop waits for a relay. -/
def State.hopsWait (s : State) (run : Nat) (l : List (Nat × Nat)) : Bool :=
  l.any fun p => (s.hopEnds run p).any fun e =>
    e.1.away.isNone && e.2.away.isNone && s.fabric.waits (dieOfHall e.1.hall) (dieOfHall e.2.hall)

/-- The weight of a path at arming (R265 to R267): its measured one, 0 where it is not usable or has lost a hop; the ring of
stride 1 has no measurement, and is the only path. -/
def State.pathWeight (s : State) (c : Cmd) (x : Word) : Nat :=
  if !pathUsable x c.collSize || s.hopsLost c.run (pathHops x c.collSize) then 0
  else if s.offeredPaths c = [plainRing] then 1 else fieldNat x 32 16

/-! ## Collectives: arming (R264 to R268) -/

/-- The largest remainder among paths not yet served; ties to the lower number. -/
def largestAt (rem : List Nat) (taken : List Nat) : Nat :=
  ((List.range rem.length).filter fun j => !taken.contains j).foldl
    (fun b j => if taken.contains b || rem.getD b 0 < rem.getD j 0 then j else b) 0

/-- Leftover chunks go one each to the largest remainders. -/
def leftovers (rem : List Nat) : Nat → List Nat → List Nat
  | 0, t => t
  | n + 1, t => leftovers rem n (t ++ [largestAt rem t])

/-- The chunks of each path (R267). -/
def splitChunks (n : Nat) (w : List Nat) : List Nat :=
  let total := w.sum
  let base := w.map fun x => n * x / total
  let extra := leftovers (w.map fun x => n * x % total) (n - base.sum) []
  ((List.range base.length).zip base).map fun p => p.2 + bit (extra.contains p.1)

/-- The chunks of 4096 bytes of a message: B is COUNT × the element width (R267). -/
def Cmd.chunks (c : Cmd) : Nat := (c.collCount * typeWidth c.collType + 32767) / 32768

/-- The path of a chunk. -/
def pathOf (split : List Nat) (chunk : Nat) : Nat :=
  ((List.range split.length).find? fun j => decide (chunk < (split.take (j + 1)).sum)).getD 0

/-- The contents of RANKTAB; free for a rank of another package. -/
def State.readTab (s : State) (c : Cmd) : State × Except EngErr (List Word) :=
  if c.away.isSome then (s, .ok [])
  else match s.engPeek c (c.at 0x10) (8 * c.collSize) with
    | (s, .ok l) => (s, .ok (leWords l c.collSize))
    | (s, .error e) => (s, .error e)

/-- The weights that an arming lead finds, and its paths; those of a lead on another package are open (log 57). -/
def State.armWeights (s : State) (c : Cmd) : List Nat × List Word :=
  if c.away.isSome then ((List.range 4).map fun j => (Config.freeWord (s.fresh + 1 + j)).toNat % 2 ^ 16, [])
  else ((s.offeredPaths c).map (s.pathWeight c), s.offeredPaths c)

/-- The lead rank arms its collective: with no path left it ends at every rank, and nothing is transferred (R267). -/
def State.arm (s : State) (i : Nat) : State :=
  let s := s.resolveStuck i
  match s.cmd? i with
  | none => s
  | some c =>
    if !s.moves c || c.armed || s.cmdHeld c then s
    else match s.readTab c with
      | (s, .error e) => s.meetSource c e
      | (s, .ok tab) =>
        let (w, paths) := s.armWeights c
        let t : State := { s with fresh := s.fresh + 8 }
        if w.sum = 0 then t.abortRun c.run c.hall 6
        else (t.onCmd i fun c => { c with armed := true, split := splitChunks c.chunks w, tree := s.fresh, tab := tab }).onColl c.run
          fun r => { r with paths := paths }

/-- COLL_ARMING (R267). -/
def execCollArming (i : Nat) (s : State) :=
  happened (match s.cmd? i with
    | some c => if c.op = 1#3 && c.rank = c.lead then s.arm i else s
    | none => s)

/-- The records of two ranks agree in what the split flit carries (R407). -/
def Cmd.agrees (c d : Cmd) : Bool :=
  c.kind == d.kind && c.collType == d.collType && c.collCount == d.collCount && c.collSize == d.collSize && c.collRoot == d.collRoot

/-- The RANKTAB contents of two ranks agree; of a rank on another package they are open (R407, log 57). -/
def State.tabsAgree (s : State) (c d : Cmd) (tab : List Word) : Bool :=
  if c.away.isSome || d.away.isSome then Config.freeBit s.fresh else tab == d.tab

/-- Leads of a collective that have armed it, other than this command, whose flits reach it. -/
def State.armedLeads (s : State) (c : Cmd) : List Cmd :=
  (s.runPeers c.run).filter fun d => d.armed && d.rank == d.lead && d.id != c.id && s.hears d.hall c

/-- A rank receives the split flit: it may send, or its record differs and every rank fails (R264, R407). A lead that receives one
differs from its sender. -/
def State.receiveSplit (s : State) (i : Nat) : State :=
  let s := s.resolveStuck i
  match s.cmd? i with
  | none => s
  | some c =>
    if !s.moves c || s.cmdHeld c then s
    else match s.armedLeads c with
      | [] => s
      | d :: rest =>
        if c.rank = c.lead || rest ≠ [] || !c.agrees d then s.abortRun c.run c.hall 5
        else if c.armed then s
        else match s.readTab c with
          | (s, .error e) => s.meetSource c e
          | (s, .ok tab) =>
            let t : State := { s with fresh := s.fresh + 1 }
            if !s.tabsAgree c d tab then t.abortRun c.run c.hall 5
            else t.onCmd i fun c => { c with armed := true, split := d.split, tree := d.tree, tab := tab }

/-- SPLIT_FLIT (R264). -/
def execSplitFlit (i : Nat) (s : State) :=
  happened (match s.cmd? i with
    | some c => if c.op = 1#3 then s.receiveSplit i else s
    | none => s)

/-- The causes with which an abort flit ends a rank: a failed source, a record that differs, a path lost (R407, R267). -/
def abortCause (cause : BitVec 4) : Bool := [0#4, 1#4, 2#4, 3#4, 5#4, 6#4, 9#4].contains cause

/-- ABORT_FLIT (R407): from a rank of another package, or the one that this collective has sent. -/
def execAbortFlit (i : Nat) (cause : BitVec 4) (s : State) :=
  happened (match s.cmd? i with
    | some c =>
      if c.op = 1#3 && abortCause cause
          && (((s.runPeers c.run).any fun d => d.away.isSome) || (s.coll? c.run).any fun r => r.flit.any fun f => f.1 == cause) then
        s.onCmd i fun c => c.endBy cause.toNat
      else s
    | none => s)

/-! ## Collectives: contributions (R193, R269, R270, R272, R407) -/

/-- Read element e of a buffer of elements of w bits; two elements that share a byte count it once. -/
def State.engGetElem (s : State) (c : Cmd) (base : Word) (w e : Nat) : State × Except EngErr Nat :=
  let va := base + BitVec.ofNat 64 (e * w / 8)
  let n := (w + 7) / 8
  match (if e * w % 8 = 0 then s.engRead c va n else s.engPeek c va n) with
  | (s, .ok l) => (s, .ok (leNat l >>> (e * w % 8) % 2 ^ w))
  | (s, .error x) => (s, .error x)

/-- What rank r has contributed to element m of the message. -/
def Collective.value (x : Collective) (m r : Nat) : Option Word := (x.got.find? fun g => g.1 == m && g.2.1 == r).map (·.2.2)

/-- Every rank that contributes to element m has done so. -/
def Collective.full (x : Collective) (c : Cmd) (m : Nat) : Bool := (c.givers m).all fun r => (x.value m r).isSome

/-- The rank whose unit finishes element m and distributes it: the owner of its block, the root, or the rank that gives it
(R269, R270; log 90). -/
def Cmd.ownerOf (c : Cmd) (m : Nat) : Nat :=
  match c.kind with
  | 0 => m / ((c.collCount + c.collSize - 1) / c.collSize)
  | 1 => m / c.block
  | 2 => m / c.block
  | _ => c.collRoot

/-- The hops of element m from rank r to rank q, on the path of its chunk. -/
def State.wayOf (s : State) (c : Cmd) (m r q : Nat) : List (Nat × Nat) :=
  let paths := ((s.coll? c.run).map (·.paths)).getD []
  match paths[pathOf c.split (m * typeWidth c.collType / 32768)]? with
  | some x => pathWay x c.collSize r q
  | none => []

/-- How data of a collective gets from rank to rank now. -/
inductive Way where
  | clear | waits | lost
deriving DecidableEq, Repr

/-- How element m gets from rank r to rank q: a hop that waits for its relay holds it, and one that is lost loses it (R274). -/
def State.way (s : State) (c : Cmd) (m r q : Nat) : Way :=
  let l := s.wayOf c m r q
  if s.hopsLost c.run l then .lost else if s.hopsWait c.run l then .waits else .clear

/-- The first element of its SBUF, in ascending order, that a rank cannot read any more and has not contributed (R407). -/
def State.lowestBad (s : State) (d : Cmd) (x : Collective) : Option EngErr :=
  (d.gives.filter fun m => (x.value m d.rank).isNone).findSome? fun m =>
    match (s.engGetElem d (d.at 0) (typeWidth d.collType) (d.sourceElem m)).2 with
    | .ok _ => none
    | .error e => if e.hold.isSome && s.cmdShadowed d then none else some e

/-- A rank cannot read an element of its SBUF: it ends with the lowest failing address, and every other rank with it (R407). -/
def State.sourceError (s : State) (d : Cmd) (x : Collective) (e : EngErr) : State :=
  if e.hold.isSome && s.cmdShadowed d then s.meetSource d e
  else
    let low := (s.lowestBad d x).getD e
    s.failSource d low.cause low.va

/-- Rank r contributes its element m: its SBUF is read once, as soon as it may send (R264, R269). What a rank on another package
sends is open (log 57). -/
def State.collRead (s : State) (c : Cmd) (r m : Nat) : State :=
  match (s.runPeers c.run).find? fun d => d.rank == r with
  | none => s
  | some d =>
    let s := s.resolveStuck d.id
    match s.cmd? d.id, s.coll? c.run with
    | some d, some x =>
      let w := typeWidth d.collType
      if (x.value m r).isSome || !d.armed || !s.moves d || s.cmdHeld d then s
      else match s.way d m r (d.ownerOf m) with
        | .lost => s.abortRun c.run d.hall 6
        | .waits => s
        | .clear =>
          if d.away.isSome then
            ({ s with fresh := s.fresh + 1 } : State).onColl c.run fun x => { x with got := (m, r, BitVec.ofNat 64 ((Config.freeWord s.fresh).toNat % 2 ^ w)) :: x.got }
          else match s.engGetElem d (d.at 0) w (d.sourceElem m) with
            | (s, .ok v) => s.onColl c.run fun x => { x with got := (m, r, BitVec.ofNat 64 v) :: x.got }
            | (s, .error e) => s.sourceError d x e
    | _, _ => s

/-- The class of the page of DBUF. -/
def State.destClass (s : State) (c : Cmd) : Option Class :=
  match s.engXlate c .store (c.at 8) with | (_, .ok x) => some x.cls | _ => none

/-- What the unit has deposited of element e of a command. -/
def State.collAcc (s : State) (c : Cmd) (e : Nat) : List (Nat × BitVec 32) :=
  ((s.accums.find? fun x => x.cmd == c.id && x.elem == e).map (·.got)).getD []

/-- Note a deposit to element e. -/
def State.keepAcc (s : State) (c : Cmd) (e : Nat) (got : List (Nat × BitVec 32)) : State :=
  { s with accums := { cmd := c.id, elem := e, start := 0#32, got := got, written := false }
      :: s.accums.filter fun x => !(x.cmd == c.id && x.elem == e) }

/-- The value of element m of a combination (R269, R270): every rank that receives it receives the same bits. -/
def finishedElem (c : Cmd) (x : Collective) (m : Nat) : Nat :=
  let l := (c.givers m).map fun r => widen c.collType ((x.value m r).getD 0#64).toNat
  narrow c.collType (if c.collArrival then treeSum (fun n => Config.elementRank c.tree (m * 2 ^ 40 + n)) l.length l else sumFrom l)

/-- The hall that counts the writes of element m: that of the rank that sends it, where it is here (R233, log 90). -/
def State.countsElem (s : State) (c : Cmd) (m : Nat) : Option (BitVec 4) :=
  ((s.runPeers c.run).find? fun d => d.rank == c.ownerOf m && d.away.isNone).map (·.hall)

/-- The rank of a command has read what it gives from the bytes from va on: DBUF may be SBUF (Table 11.5). -/
def Cmd.sourceRead (c : Cmd) (x : Collective) (va : Word) (n : Nat) : Bool :=
  let w := typeWidth c.collType
  c.gives.all fun m =>
    let a := c.at 0 + BitVec.ofNat 64 (c.sourceElem m * w / 8)
    (x.value m c.rank).isSome || (decide (n ≤ (a - va).toNat) && decide ((w + 7) / 8 ≤ (va - a).toNat))

/-- The bytes lo to hi of DBUF, counted from its start, that are written together with element e: those of the element in a
combination, and whole aligned 8-byte pieces where bits are moved (R187, Table 16.2). -/
def Cmd.together (c : Cmd) (e : Nat) : Nat × Nat :=
  let w := typeWidth c.collType
  let b := (c.at 8).toNat
  let lo := e * w / 8
  let hi := (e * w + w + 7) / 8
  if c.reduces then (lo, hi)
  else ((b + lo) / 8 * 8 - b, Nat.min (((b + hi + 7) / 8) * 8 - b) ((c.destCount * w + 7) / 8))

/-- The elements of DBUF that have bits among its bytes lo to hi. -/
def Cmd.elemsIn (c : Cmd) (lo hi : Nat) : List Nat :=
  let w := typeWidth c.collType
  upTo (lo * 8 / w) (Nat.min c.destCount ((hi * 8 + w - 1) / w))

/-- The value that element e of DBUF receives. -/
def Cmd.received (c : Cmd) (x : Collective) (e : Nat) : Nat :=
  let m := c.msgElem e
  if c.reduces then finishedElem c x m else (x.value m ((c.givers m).headD 0) |>.getD 0#64).toNat

/-- The bytes lo to hi of DBUF: a last half byte keeps its other half, `old`. -/
def Cmd.image (c : Cmd) (x : Collective) (lo hi old : Nat) : List Byte :=
  let w := typeWidth c.collType
  let es := c.elemsIn lo hi
  let first := es.headD 0
  let bits := es.foldl (fun acc e => acc + c.received x e <<< ((e - first) * w)) 0
  let bits := bits >>> (lo * 8 - first * w)
  let top := c.destCount * w - lo * 8
  leBytes (hi - lo) (if top < (hi - lo) * 8 then bits % 2 ^ top + old / 2 ^ (top % 8) * 2 ^ top else bits % 2 ^ ((hi - lo) * 8))

/-- The last byte of DBUF as it is, where COUNT leaves half of it. -/
def State.oldHalf (s : State) (c : Cmd) (hi : Nat) : State × Except EngErr Nat :=
  if c.destCount * typeWidth c.collType < hi * 8 then
    match s.engPeek c (c.at 8 + BitVec.ofNat 64 (hi - 1)) 1 with
    | (s, .ok l) => (s, .ok (leNat l))
    | (s, .error e) => (s, .error e)
  else (s, .ok 0)

/-- Settle the elements of DBUF that lie whole in bytes lo to hi; while the first is held, only it. -/
def State.settleElems (s : State) (c : Cmd) (lo hi : Nat) (err : Option EngErr) : State :=
  let w := typeWidth c.collType
  let es := (c.elemsIn lo hi).filter fun e => !c.done.contains e && decide (lo ≤ e * w / 8) && decide ((e * w + w + 7) / 8 ≤ hi)
  match err with
  | some x => if x.hold.isSome && s.cmdShadowed c then s.settlePos c (es.headD 0) 0#32 err else es.foldl (fun s e => s.settlePos c e 0#32 err) s
  | none => es.foldl (fun s e => s.settlePos c e 0#32 none) s

/-- Element e of DBUF is written, once every contribution to what is written with it has arrived. -/
def State.collWrite (s : State) (c : Cmd) (x : Collective) (e : Nat) : State :=
  let (lo, hi) := c.together e
  let va := c.at 8 + BitVec.ofNat 64 lo
  if !((c.elemsIn lo hi).all (fun k => x.full c (c.msgElem k)) && (c.away.isSome || c.sourceRead x va (hi - lo))) then s
  else if c.away.isSome then s.settleElems c lo hi none
  else match s.oldHalf c hi with
    | (s, .error err) => s.settleElems c lo hi (some err)
    | (s, .ok old) =>
      let (s, err) := s.engStore c (s.countsElem c (c.msgElem e)) va (c.image x lo hi old)
      s.settleElems c lo hi err

/-- The contribution of rank r to element e is deposited into the well at its slot (R272): once, and in ascending rank into a WLF
well under ORDER 0. -/
def State.collDeposit (s : State) (c : Cmd) (x : Collective) (wlf : Bool) (r e : Nat) : State :=
  let m := c.msgElem e
  let acc := s.collAcc c e
  match x.value m r with
  | none => s
  | some v =>
    if (acc.any fun g => g.1 == r) || (wlf && !c.collArrival && (c.givers m)[acc.length]? != some r) then s
    else
      let (s, err) :=
        s.engDeposit c (s.countsElem c m) (c.at 8 + BitVec.ofNat 64 (e * wellSlot wlf)) [(fmtOf c.collType).value v.toNat]
      match err with
      | some _ => s.settlePos c e 0#32 err
      | none =>
        let s := s.keepAcc c e (acc ++ [(r, v.setWidth 32)])
        if acc.length + 1 = (c.givers m).length then s.settlePos c e 0#32 none else s

/-- Element e of a rank's DBUF may be written now. -/
def State.mayTake (s : State) (c : Cmd) (e : Nat) : Bool :=
  c.op == 1#3 && c.armed && decide (e < c.destCount) && !c.done.contains e && s.moves c && !s.cmdHeld c

/-- What has arrived for element e reaches DBUF: from its owner's unit, over the path of its chunk. -/
def State.collDeliver (s : State) (c : Cmd) (r e : Nat) : State :=
  match s.coll? c.run with
  | none => s
  | some x =>
    match s.way c (c.msgElem e) (c.ownerOf (c.msgElem e)) c.rank with
    | .lost => s.abortRun c.run c.hall 6
    | .waits => s
    | .clear =>
      match (if c.reduces && c.away.isNone then s.destClass c else none) with
      | some .wlx => s.collDeposit c x false r e
      | some .wlf => s.collDeposit c x true r e
      | _ => s.collWrite c x e

/-- Rank r contributes to element e of command i. -/
def State.collGive (s : State) (i r e : Nat) : State :=
  let s := s.resolveStuck i
  match s.cmd? i with
  | none => s
  | some c =>
    if !s.mayTake c e || !(c.givers (c.msgElem e)).contains r then s
    else
      let s := s.collRead c r (c.msgElem e)
      match s.cmd? i with
      | none => s
      | some c => if s.mayTake c e then s.collDeliver c r e else s

/-- RRU_CONTRIBUTION (R269 to R272). For a flight, `elem` is the ordinal of the sender's transfer. -/
def execRruContribution (i : Nat) (rank elem : Nat) (s : State) :=
  happened (match s.cmd? i with
    | some c => if c.op = 1#3 then s.collGive i rank elem else s.flightGive i rank elem
    | none => s)

/-- A collective is over at its rank (R264): its DBUF is written, its SBUF will be read no further, and every rank has issued it. -/
def State.collOver (s : State) (c : Cmd) : Bool :=
  !c.live || (c.armed && c.open == [] && (s.coll? c.run).any fun x =>
    decide (c.collSize ≤ x.joined.length) && c.gives.all fun m => (x.value m c.rank).isSome)

/-! ## Completion events -/

/-- A command a transfer of which was lost ends with PATH_LOST wherever it has not completed, and a collective at every rank (R274). -/
def State.endLost (s : State) (i : Nat) : State :=
  match s.cmd? i with
  | none => s
  | some c => if c.lostAt.isNone then s else if c.inRun then s.abortRun c.run c.hall 6 else s.onCmd i Cmd.lose

/-- Complete a command: what its engine has left to do is done, unless a rank elsewhere must act first. A collective or a flight never
completes in a hall that is fenced (R346). -/
def State.completeCmd (s : State) (i : Nat) : State :=
  let s := (s.resolveStuck i).endLost i
  match s.cmd? i with
  | none => s
  | some c =>
    match c.op.toNat with
    | 0 => s.runRows i
    | 1 => if s.collOver c && (s.moves c || !c.live) then s.complete c else s
    | 2 => if s.moves c || !c.live then s.runFlight i else s
    | 3 => s.runRows i
    | _ => s.fillWindow c

/-- ENGINE_COMMAND_COMPLETION (R188). -/
def execEngineCommandCompletion (i : Nat) (s : State) := happened (s.completeCmd i)

/-- The ranks of a collective that are here arm it or receive its split. -/
def State.armAll (s : State) (run : Nat) : State :=
  let l := (s.runPeers run).filter fun d => d.away.isNone
  let s := l.foldl (fun s d => if d.rank = d.lead then s.arm d.id else s) s
  l.foldl (fun s d => s.receiveSplit d.id) s

/-- Every contribution that the ranks here can make to a collective. -/
def State.giveAll (s : State) (run : Nat) : State :=
  let l := (s.runPeers run).filter fun d => d.away.isNone
  l.foldl (fun s d => d.open.foldl (fun s e => (d.givers (d.msgElem e)).foldl (fun s r =>
    if l.any (fun p => p.rank == r) then s.collGive d.id r e else s) s) s) s

/-- A command goes on as far as this package alone can take it. -/
def State.advanceCmd (s : State) (i : Nat) : State :=
  match s.cmd? i with
  | none => s
  | some c => if c.op = 1#3 then ((s.armAll c.run).giveAll c.run).completeCmd i else s.completeCmd i

/-! ## Paths (R266, R274) -/

/-- The weights of the edges of a tenant's halls, in GB/s: the pairs of their dies, and the circuits of their ports at the width that
they have, rounded down (R266, R378, log 91). -/
def State.edgeWeights (s : State) (t : BitVec 16) : List Nat :=
  let halls := (List.range 16).map (BitVec.ofNat 4)
  let mine := halls.filter fun h => s.owns t h
  let on (d : Nat) : Nat := (mine.filter fun h => h.toNat / 2 == d).length
  let bitOf (v : Vector (BitVec 8) 8) (a b : Nat) : Bool := ((v[a]?).getD 0#8).getLsbD b
  let pairs := (List.range 8).flatMap fun a => (List.range 8).filterMap fun b =>
    if a = b || on a = 0 || on b = 0 then none
    else some (if bitOf s.fabric.lost a b then 0 else if bitOf s.fabric.relayed a b then 4570 * on a / 2 else 4570 * on a)
  let circuits := mine.flatMap fun h => (s.hall h).ports.toList.map fun p => if p.up then p.width.toNat * 25 * 232 / 256 else 0
  pairs ++ circuits

/-- The smallest of some of these weights: which edges lie on a path depends on where the ranks of a collective will run (R266, log 91). -/
def leastOf (seed : Nat) (l : List Nat) : Option Nat :=
  ((List.range l.length).zip l |>.filter fun p => Config.freeBit (seed + p.1)).map (·.2) |>.min?

/-- PATH_WEIGHT_MEASURE (R266): a die measures the weight of every path of every VF that holds a hall of it. -/
def execPathWeightMeasure (die : BitVec 3) (s : State) :=
  let here (t : BitVec 16) : Bool := s.owns t (BitVec.ofNat 4 (2 * die.toNat)) || s.owns t (BitVec.ofNat 4 (2 * die.toNat + 1))
  let one (v : Nat) (f : VF) (i : Nat) (x : Word) : Word :=
    let seed := s.fresh + 1024 * (4 * v + i)
    if x.getLsbD 31 && decide (fieldNat x 29 2 < 2) then
      let m := (leastOf (seed + 1) (s.edgeWeights f.tenant)).getD (Config.freeWord seed).toNat
      setField x 32 (BitVec.ofNat 16 (Nat.min m 65535))
    else x
  let measure (v : Nat) (f : VF) : VF :=
    if !here f.tenant then f
    else { f with cpath := put (w := 3) f.cpath die (Vector.ofFn fun i : Fin 4 => one v f i.val (pick (w := 3) f.cpath die)[i]) }
  happened { s with fresh := s.fresh + 4194304, vfs := s.vfs.map fun p => (p.1, measure p.1 p.2) }

/-- A path of an armed collective that carries chunks has a hop from one die to another; of one that a rank elsewhere armed, it may
have where ranks lie on both. -/
def State.runCrosses (s : State) (run : Nat) (src dst : BitVec 3) : Bool :=
  let peers := s.runPeers run
  let on (d : BitVec 3) (c : Cmd) : Bool := c.away.isNone && dieOfHall c.hall == d
  match peers.find? fun d => d.armed, s.coll? run with
  | some c, some x =>
    if x.paths = [] then peers.any (on src) && peers.any (on dst)
    else ((x.paths.zip c.split).any fun p => p.2 != 0 && (pathHops p.1 c.collSize).any fun h =>
      (s.hopEnds run h).any fun e => on src e.1 && on dst e.2)
  | _, _ => false

/-- A flight has a transfer, not yet performed, between the two dies. -/
def State.flightCrosses (s : State) (c : Cmd) (src dst : BitVec 3) : Bool :=
  let me := dieOfHall c.hall
  c.op == 2#3 && c.live && c.away.isNone && (me == src || me == dst) && c.open.any fun t =>
    match (s.rankBase c (c.peer c.rank t)).2 with
    | .ok b => s.dieAt c c.farKind (b + c.remoteOff t) == some (if me = src then dst else src)
    | .error _ => false

/-- A collective of this run, or a flight, may have a transfer that travels on a wavelength: between its dies, or between two dies whose
relay has it as a hop (R274, R376). -/
def State.mayCross (s : State) (run : Nat) (flight : Option Cmd) (src dst : BitVec 3) : Bool :=
  ((src, dst) :: s.fabric.relayedOver src dst).any fun p =>
    match flight with | none => s.runCrosses run p.1 p.2 | some c => s.flightCrosses c p.1 p.2

/-- The wavelength between two dies goes dark: of the collectives and flights that may have had a transfer on it, each had one that was not
delivered, or not; which is open, and one answer for all ranks of a collective (R274, log 57). -/
def State.markLost (s : State) (src dst : BitVec 3) : State :=
  let hit (c : Cmd) : Bool :=
    c.live && (if c.inRun then
      ((if c.op = 1#3 then s.mayCross c.run none src dst else (s.runPeers c.run).any fun d => s.mayCross c.run (some d) src dst)
        && Config.freeBit (s.fresh + c.run))
    else s.mayCross c.run (some c) src dst && Config.freeBit (s.fresh + c.id))
  { s with fresh := s.fresh + s.nextId, cmds := s.cmds.map fun c => if hit c then { c with lostAt := some (src, dst) } else c }

/-- WAVELENGTH_DARK (R274, R376): wavelength 0 reaches no other die and carries only test traffic. -/
def execWavelengthDark (die w : BitVec 3) (s : State) :=
  let dst := dieOf die w
  let s := if die = dst || s.fabric.isDark die dst then s else s.markLost die dst
  happened { s with fabric := s.fabric.darken die dst }

/-- PATH_LOST (R274): every COLL or FLIGHT that had a transfer on the pair when its wavelength went dark ends with STATUS 3. -/
def execPathLost (src dst : BitVec 3) (s : State) :=
  happened ((s.cmds.filter fun c => c.lostAt == some (src, dst)).foldl (fun s c => s.endLost c.id) s)

/-- VF_RESET_FLIT_TIMEOUT (R352): an operation of a VF in reset, with a flit that is not acknowledged, is abandoned and
counted in ABND. -/
def execVfResetFlitTimeout (vf : BitVec 10) (i : Nat) (s : State) :=
  happened (match s.cmd? i with
    | some c =>
      if c.vf = vf && (s.vf vf).rstBusy then
        ((s.onCmd i Cmd.abandon).completeCmd i).onVf vf fun f => { f with abnd := f.abnd + 1 }
      else s
    | none => s)

end Sys2Proof.Machine
end

