-- ==== Sys2Proof/Machine/System.lean ====
section
/-! DEFINITION. System.lean: system registers, trap calls and returns, cache lines, translations, waiting
(R48, R111 to R117, R313 to R316, R339, R405). -/

namespace Sys2Proof.Machine

/-! ## System registers (R48, Table 3.3) -/

/-- What a mode may do with a system register. -/
inductive SysAccess where
  | unassigned | hidden | ro | rw
deriving DecidableEq, Repr

/-- Access to system register n in a mode (Table 3.3). -/
def sysAccess (m : Mode) (n : Nat) : SysAccess :=
  if n = 0x000 || n = 0x004 || n = 0x010 || n = 0x011 || n = 0x012 || n = 0x030 then .ro
  else if n = 0x001 || n = 0x002 || n = 0x003 || n = 0x008 || n = 0x020 || n = 0x021 then .rw
  else if n = 0x005 || n = 0x018 then (if m = .a then .ro else .rw)
  else if 0x100 ≤ n && n < 0x105 then (if m = .a then .hidden else .rw)
  else if 0x200 ≤ n && n < 0x205 then (if m = .p then .rw else .hidden)
  else .unassigned

/-- Register i of a trap set. -/
def TrapSet.read (t : TrapSet) (i : Nat) : Word :=
  match i with
  | 0 => t.evec
  | 1 => t.epc
  | 2 => t.ecause
  | 3 => t.eval
  | _ => t.estat

/-- Write register i of a trap set, but for its reserved bits (Tables 21.2, 21.3). -/
def TrapSet.write (t : TrapSet) (i : Nat) (x : Word) : TrapSet :=
  match i with
  | 0 => { t with evec := setField x 0 0#2 }
  | 1 => { t with epc := x }
  | 2 => { t with ecause := x &&& 0xFFFF#64 }
  | 3 => { t with eval := x }
  | _ => { t with estat := x &&& 0x1F#64 }

/-- The value of system register n. -/
def State.sysRead (s : State) (n : Nat) : Word :=
  let h := s.hart
  if n = 0x000 then BitVec.ofNat 64 h.vl
  else if n = 0x001 then BitVec.ofNat 64 h.vstart
  else if n = 0x002 then h.vmode
  else if n = 0x003 then h.vstat
  else if n = 0x004 then BitVec.ofNat 64 h.vlmaxb
  else if n = 0x005 then BitVec.ofNat 64 h.vcap
  else if n = 0x008 then h.fstat
  else if n = 0x010 then hidOf s.chip s.hid
  else if n = 0x011 then h.uid
  else if n = 0x012 then h.lid
  else if n = 0x018 then h.spbase
  else if n = 0x020 then h.srseed
  else if n = 0x021 then h.srbase
  else if n = 0x030 then s.podt
  else if n < 0x105 then h.sset.read (n - 0x100)
  else s.pset.read (n - 0x200)

/-- Write system register n, as its own rules store it (R2, R50, R51). -/
def State.sysWrite (s : State) (n : Nat) (x : Word) : State :=
  if n = 0x001 then s.onHart fun h => { h with vstart := x.toNat % 2 ^ 17 }
  else if n = 0x002 then s.onHart fun h => { h with vmode := x &&& 0x1FFF#64 }
  else if n = 0x003 then s.onHart fun h => { h with vstat := x &&& 0xFF#64 }
  else if n = 0x005 then s.onHart fun h => { h with vcap := vcapStored x.toNat }
  else if n = 0x008 then s.onHart fun h => { h with fstat := x &&& 0x1FF#64 }
  else if n = 0x018 then s.onHart fun h => { h with spbase := x }
  else if n = 0x020 then s.onHart fun h => { h with srseed := x }
  else if n = 0x021 then s.onHart fun h => { h with srbase := x }
  else if 0x100 ≤ n && n < 0x105 then s.onHart fun h => { h with sset := h.sset.write (n - 0x100) x }
  else if 0x200 ≤ n && n < 0x205 then { s with pset := s.pset.write (n - 0x200) x }
  else s

/-- The register number of a SYS word (R111). -/
def sysNum (n h : BitVec 5) : Nat := (h ++ n).toNat

/-- The checks of R48 on register n, for a read or a write. -/
def State.sysCheck (s : State) (n : Nat) (write : Bool) : Res :=
  match sysAccess s.hart.mode n with
  | .unassigned => .error (s.illegal, s)
  | .hidden => .error (s.privileged, s)
  | .ro => if write then .error (s.illegal, s) else .ok s
  | .rw => .ok s

/-- SRD (R112). -/
def execSrd (d n h : BitVec 5) (s : State) : Host.Outcome State Fault Refusal :=
  finish none (do
    let s ← s.sysCheck (sysNum n h) false
    .ok (s.setG d (s.sysRead (sysNum n h))))

/-- SWR, SSET and SCLR: the register's old value, and the new one that f gives (R112). -/
def sysUpdate (d a n h : BitVec 5) (f : Word → Word → Word) (s : State) : Host.Outcome State Fault Refusal :=
  let i := sysNum n h
  finish none (do
    let s ← s.sysCheck i true
    let old := s.sysRead i
    .ok ((s.sysWrite i (f old (s.g a))).setG d old))

/-- SWR (R112). -/
def execSwr (d a n h : BitVec 5) (s : State) := sysUpdate d a n h (fun _ x => x) s
/-- SSET (R112). -/
def execSset (d a n h : BitVec 5) (s : State) := sysUpdate d a n h (fun old x => old ||| x) s
/-- SCLR (R112). -/
def execSclr (d a n h : BitVec 5) (s : State) := sysUpdate d a n h (fun old x => old &&& ~~~x) s

/-! ## Trap calls and returns (R113, R316) -/

/-- A trap taken after the instruction has completed: EPC is the next instruction (R312, R315). -/
def trapAfter (code : Nat) (n h : BitVec 5) (s : State) : Host.Outcome State Fault Refusal :=
  .next ((s.retire 4#64).takeTrap { code := code, eval := BitVec.ofNat 64 (sysNum n h), after := true })

/-- TRAP (R113). -/
def execTrap (n h : BitVec 5) (s : State) := trapAfter 22 n h s
/-- SVC (R113). -/
def execSvc (n h : BitVec 5) (s : State) := trapAfter 23 n h s

/-- The mode is at least S, or at least P. -/
def State.needMode (s : State) (m : Mode) : Res := require (decide (m.code ≤ s.hart.mode.code)) s.privileged s

/-- ERET (R316). -/
def execEret (s : State) : Host.Outcome State Fault Refusal :=
  finishAt (do
    let s ← s.needMode .s
    s.eret)

/-! ## Cache lines (R114) -/

/-- Check the line of LINEWB and LINEINV: as a store under R86, alignment aside, on an NRM page. -/
def lineCheck (va : Word) (s : State) : Except (Trap × State) (Option Xl × State) :=
  match s.reach s.myHall .store va 1 1 onlyNrm with
  | (s, .error t) => .error (t, s)
  | (s, .ok x) => .ok (x, s)

/-- LINEWB (R114): a Modified host line is written back and stays valid; device memory is current at its home. -/
def execLinewb (a : BitVec 5) (s : State) : Host.Outcome State Fault Refusal :=
  let va := s.g a
  finishMem none (do
    match ← lineCheck va s with
    | (none, s) => .ok s
    | (some x, s) =>
      let s := s.settleAt (x.pa / 64 * 64) 64
      match s.hostLines.find? fun l => l.line == x.pa / 64 && l.modified with
      | some l =>
        .ok ({ s.addTraffic l.holder 9 64 with
          hostLines := s.hostLines.map fun l => if l.line = x.pa / 64 then { l with modified := false } else l })
      | none => .ok s)

/-- LINEINV (R114): written back in the same way, then removed from every device cache but its home slice: the L2
that holds a host line, and the windows. -/
def execLineinv (a : BitVec 5) (s : State) : Host.Outcome State Fault Refusal :=
  let va := s.g a
  finishMem none (do
    match ← lineCheck va s with
    | (none, s) => .ok s
    | (some x, s) =>
      let s := (s.settleAt (x.pa / 64 * 64) 64).dropHostLine x.pa
      .ok ((List.range 16).foldl (fun s i => s.dropWindowLines (BitVec.ofNat 4 i) (x.pa / 64 * 64) 64) s))

/-! ## Translations (R115, R339) -/

/-- TLBSH (R115): the hart's accesses are performed; kinds 2 and 3 name VF g[d] and need mode P, and a number of 1024 or above names by its low
ten bits (log 80); in a shadowed VF a guest's kinds 0 and 1 wait for the
hypervisor (R339). -/
def execTlbsh (d a k : BitVec 5) (s : State) : Host.Outcome State Fault Refusal :=
  finishAt (do
    let s ← require (decide (k.toNat < 4)) s.illegal s
    let s ← s.needMode (if k.toNat < 2 then .s else .p)
    let page := if k.getLsbD 0 then none else some (s.g a)
    let s := s.settle fun _ => true
    if k.toNat < 2 && s.shadowed then
      let va := page.getD 0#64
      .ok (s.holdHart [(va, k.toNat, 0)]
        { token := 0#32, cmd := none, vf := 0#10, va := va, kind := 0#2, tlbsh := some (BitVec.ofNat 2 k.toNat), code := 0,
          after := false, pfx := false, scalar := false, record := [], recordPa := 0, cut := none })
    else
      let v := if k.toNat < 2 then s.myVf else (s.g d).extractLsb' 0 10
      .ok ((s.invalidate v page).retire 4#64))

/-- FENCEI (R116): the hart's own stores are performed, and its fetches see them. -/
def execFencei (s : State) : Host.Outcome State Fault Refusal :=
  finish none (.ok { s.settle fun _ => true with icache := [] })

/-! ## Waiting (R117) -/

/-- A wake condition of WFI is pending: a landing's wake, a fired entry, or a pre-emption. -/
def State.wakePending (s : State) : Bool :=
  s.hart.wakes != 0#64 || s.hart.fired != 0#64 || s.askedToStop

/-- WFI (R117). -/
def execWfi (s : State) : Host.Outcome State Fault Refusal :=
  finishAt (do
    let s ← s.needMode .s
    if s.wakePending then .ok (s.retire 4#64) else .ok (s.onHart fun h => { h with wait := some .wfi }))

/-- WFI_WAKE (R117): an event addressed to the hart, or no cause at all, ends the wait. -/
def execWfiWake (s : State) :=
  happened (if s.hart.wait = some .wfi then (s.onHart fun h => { h with wait := none }).retire 4#64 else s)

/-- HALT (R117): stopped until hall reset or a restart, which goes on after it. -/
def execHalt (s : State) : Host.Outcome State Fault Refusal :=
  finishAt (do
    let s ← s.needMode .p
    let s := (s.retire 4#64).onHart fun h => { h with stopped := true }
    .ok (s.onCluster s.myHall s.myCluster fun c => { c with stopped := setBit c.stopped s.myHart.toNat true }))

end Sys2Proof.Machine
end

