-- ==== Sys2Proof/Machine/Sync.lean ====
section
/-! DEFINITION. Sync.lean: barriers, counters, waiting, wait entries, landings, phases, launches, cancellation and exit
(R197 to R209, R276, R277), with the events that end a wait, and the faults that meet the hart between instructions
(R59, R69, R221, R388). -/

namespace Sys2Proof.Machine

/-! ## Barriers (R198 to R200) -/

/-- The unit that the hart runs, as a member of barriers. -/
def State.myKey (s : State) : UnitKey :=
  s.hart.unit.getD { vf := s.myVf, serial := s.hart.lid.extractLsb' 32 32, idx := fieldNat s.hart.uid 0 32 }

/-- A barrier that a handle names (R198). -/
inductive BarRef where
  | cluster (u : UnitRec) (n : Nat)
  | hall (h : BitVec 4) (n : Nat)
  | launch (vf : BitVec 10) (serial : BitVec 32)
deriving DecidableEq, Repr

/-- The launch of the hart's unit. -/
def State.myLaunch (s : State) : Option Launch := s.hart.unit.bind fun k => s.launch? k.vf k.serial

/-- The barrier-state trap (R198, R199). -/
def barrierTrap (handle : Word) : Trap := { code := 21, eval := handle }

/-- The cohort trap (R198, R206). -/
def cohortTrap : Trap := { code := 20 }

/-- A hall answers a barrier operation of the hart: its tenant owns it, it runs, and a path leads there (R16, R198). -/
def State.barrierHall (s : State) (h : BitVec 4) : Bool :=
  (s.who.isNone || s.owns (s.tenantOf s.myVf) h) && (s.hall h).st == .running && !s.pairLost s.myHall (hbmPa s.chip h 0)

/-- The barrier that a handle names, or its trap (R198). -/
def State.barrierOf (s : State) (handle : Word) : Except Trap BarRef :=
  let n := fieldNat handle 0 8
  match fieldNat handle 8 2 with
  | 0 =>
    match s.myUnit with
    | some u => if n < 2 * u.size then .ok (.cluster u n) else .error (barrierTrap handle)
    | none => .error (barrierTrap handle)
  | 1 =>
    let h := handle.extractLsb' 12 4
    if s.barrierHall h then .ok (.hall h n) else .error { code := 13, eval := handle }
  | 2 =>
    if n ≠ 0 then .error (barrierTrap handle)
    else match s.myLaunch with
      | some l => if l.cohort then .ok (.launch l.vf l.serial) else .error cohortTrap
      | none => .error cohortTrap
  | _ => .error (barrierTrap handle)

/-- The state of a barrier. -/
def State.barrier (s : State) : BarRef → Barrier
  | .cluster u n => s.groupBarrier u n
  | .hall h n => (alFind n (s.hall h).barriers).getD Barrier.reset
  | .launch v k => ((s.launch? v k).map (·.bar)).getD Barrier.reset

/-- Replace a barrier: one step at its home. -/
def State.setBarrier (s : State) (r : BarRef) (b : Barrier) : State :=
  match r with
  | .cluster u n => s.onCluster u.hall u.cluster fun c => { c with barriers := alSet (u.barrierKey n) b c.barriers }
  | .hall h n => s.onHall h fun x => { x with barriers := alSet n b x.barriers }
  | .launch v k => s.onLaunch v k fun l => { l with bar := b }

/-- A barrier whose members software may change: not cluster barrier 0, not a launch barrier (R198). -/
def BarRef.isOpen : BarRef → Bool
  | .cluster _ n => n != 0
  | .hall _ _ => true
  | .launch _ _ => false

/-- The barrier that BARINIT, BARJOIN and BARLEAVE act on. -/
def State.openBarrier (s : State) (handle : Word) : Except (Trap × State) BarRef :=
  match s.barrierOf handle with
  | .error t => .error (t, s)
  | .ok r => if r.isOpen then .ok r else .error (barrierTrap handle, s)

/-- Any barrier, for an operation of the hart. -/
def State.anyBarrier (s : State) (handle : Word) : Except (Trap × State) BarRef :=
  match s.barrierOf handle with
  | .error t => .error (t, s)
  | .ok r => .ok r

/-- The hart waits. -/
def State.waitFor (s : State) (w : Wait) : State := s.onHart fun h => { h with wait := some w }

/-- BARINIT (R199). -/
def execBarinit (a b : BitVec 5) (sc : BitVec 3) (s : State) : Host.Outcome State Fault Refusal :=
  let handle := s.g a
  let n := fieldNat (s.g b) 0 16
  finish4 (do
    let s ← s.scoped sc
    let r ← s.openBarrier handle
    let x := s.barrier r
    if n = 0 || x.arr ≠ 0 then .error (barrierTrap handle, s)
    else .ok ((s.demote sc).setBarrier r
      { x with tgt := n, scope := s.scopeRun sc, lost := false, members := [], arrived := [], leaving := [] }))

/-- BARJOIN (R199). -/
def execBarjoin (a : BitVec 5) (s : State) : Host.Outcome State Fault Refusal :=
  finish4 (do
    let r ← s.openBarrier (s.g a)
    let x := s.barrier r
    .ok (if x.members.contains s.myKey then s else s.setBarrier r { x with members := x.members ++ [s.myKey] }))

/-- BARLEAVE (R199): a member that has arrived waits for its generation, and the instruction is performed then. -/
def execBarleave (a : BitVec 5) (s : State) : Host.Outcome State Fault Refusal :=
  let handle := s.g a
  match s.openBarrier handle with
  | .error (t, s) => .next (s.takeTrap t)
  | .ok r =>
    let x := s.barrier r
    if x.members.contains s.myKey && x.arrived.contains s.myKey then .next (s.waitFor (.arrive handle x.gen))
    else .next ((s.setBarrier r (x.leave s.myKey)).retire 4#64)

/-- Arrive at a barrier: the generation arrived in; none while the unit has arrived in it already, and then it waits
(BARARR of R199). -/
def State.arriveAt (s : State) (handle : Word) : Except (Trap × State) (Option (BitVec 32) × State) := do
  let r ← s.anyBarrier handle
  let x := s.barrier r
  let key := s.myKey
  if x.arrived.contains key then .ok (none, s.waitFor (.arrive handle x.gen))
  else
    let s ← s.release x.scope
    .ok (some x.gen, s.setBarrier r (x.arrive key))

/-- BARARR (R199). -/
def execBararr (d a : BitVec 5) (s : State) : Host.Outcome State Fault Refusal :=
  match s.arriveAt (s.g a) with
  | .error (t, s) => .next (s.takeTrap t)
  | .ok (none, s) => .next s
  | .ok (some gen, s) => .next ((s.setG d (gen.setWidth 64)).retire 4#64)

/-- The status word of BARWAIT and BARSYN, as the latest completion left it (R199). Before a first completion nothing
states it (log 9). -/
def State.barrierStatus (s : State) (b : Barrier) : Word :=
  if b.last.2.1 = 0 then (Config.freeWord s.fresh).extractLsb' 0 49 |>.setWidth 64
  else place (bit b.last.2.2) 48 1 ||| place b.last.2.1 32 16 ||| place b.last.1.toNat 0 32

/-- A wait at a barrier is over: the status is written and the instruction retires. -/
def State.passBarrier (s : State) (d : BitVec 5) (b : Barrier) : State :=
  let w := s.barrierStatus b
  ((({ s with fresh := s.fresh + 1 } : State).onHart fun h => { h with wait := none }).setG d w).retire 4#64

/-- BARWAIT (R199). -/
def execBarwait (d a b : BitVec 5) (s : State) : Host.Outcome State Fault Refusal :=
  let handle := s.g a
  let gen := (s.g b).extractLsb' 0 32
  match s.anyBarrier handle with
  | .error (t, s) => .next (s.takeTrap t)
  | .ok r =>
    let x := s.barrier r
    .next (if x.gen ≠ gen then s.passBarrier d x else s.waitFor (.arrive handle gen))

/-- The generation that the hart joined at this address before it was pre-empted; the instruction does not arrive again (R321). -/
def State.joinedHere (s : State) : Option (BitVec 32) :=
  match s.hart.rejoin with
  | some (pc, gen) => if pc = s.hart.pc then some gen else none
  | none => none

/-- BARSYN has arrived in a generation: it goes on as BARWAIT on it. -/
def State.awaitGen (s : State) (d : BitVec 5) (handle : Word) (gen : BitVec 32) : State :=
  match s.barrierOf handle with
  | .ok r => if (s.barrier r).gen ≠ gen then s.passBarrier d (s.barrier r) else s.waitFor (.barrier handle gen d)
  | .error t => s.takeTrap t

/-- BARSYN (R199); one that had arrived when its hart was pre-empted resumes as BARWAIT (R321). -/
def execBarsyn (d a : BitVec 5) (s : State) : Host.Outcome State Fault Refusal :=
  let handle := s.g a
  match s.joinedHere with
  | some gen => .next ((s.onHart fun h => { h with rejoin := none }).awaitGen d handle gen)
  | none =>
    match s.arriveAt handle with
    | .error (t, s) => .next (s.takeTrap t)
    | .ok (none, s) => .next s
    | .ok (some gen, s) => .next (s.awaitGen d handle gen)

/-- A waiting BARWAIT, BARSYN, BARARR or BARLEAVE sees its barrier: the wait ends once GEN has changed, or with the trap of
a handle that names a barrier no longer. -/
def State.endBarrierWait (s : State) : State :=
  match s.hart.wait with
  | some (.barrier handle gen d) =>
    (match s.barrierOf handle with
      | .error t => s.takeTrap t
      | .ok r => if (s.barrier r).gen ≠ gen then s.passBarrier d (s.barrier r) else s)
  | some (.arrive handle gen) =>
    (match s.barrierOf handle with
      | .error t => s.takeTrap t
      | .ok r => if (s.barrier r).gen ≠ gen then s.onHart fun h => { h with wait := none } else s)
  | _ => s

/-- The barrier that a handle names for a unit of another hart, where its operation is performed. -/
def State.barrierOfUnit (s : State) (u : UnitRec) (handle : Word) : Option BarRef :=
  let n := fieldNat handle 0 8
  match fieldNat handle 8 2 with
  | 0 => if n < 2 * u.size then some (.cluster u n) else none
  | 1 => if s.hallAdmits u.key.vf (handle.extractLsb' 12 4) then some (.hall (handle.extractLsb' 12 4) n) else none
  | 2 => if n = 0 then (s.launch? u.key.vf u.key.serial).bind fun l => if l.cohort then some (.launch l.vf l.serial) else none else none
  | _ => none

/-- The record of a unit that another hart runs. -/
def State.otherUnit (s : State) (k : UnitKey) : Option UnitRec :=
  if s.hart.unit = some k then none else (s.units.find? fun u => u.key == k).bind fun u => if u.onHart then some u else none

/-- A unit of another hart arrives at a barrier (R199): once in a generation. -/
def State.otherArrives (s : State) (k : UnitKey) (handle : Word) : State :=
  match (s.otherUnit k).bind fun u => s.barrierOfUnit u handle with
  | none => s
  | some r => if (s.barrier r).arrived.contains k then s else s.setBarrier r ((s.barrier r).arrive k)

/-- A unit of another hart arrives at the phase barrier of its launch (R206). -/
def State.otherPhases (s : State) (k : UnitKey) : State :=
  match (s.otherUnit k).bind fun u => s.launch? u.key.vf u.key.serial with
  | none => s
  | some l =>
    if l.cohort && !l.phaseBar.arrived.contains k then s.onLaunch l.vf l.serial fun l => { l with phaseBar := l.phaseBar.arrive k } else s

/-- A store of another hart is performed (R243): its line leaves the windows of its hall (R195). -/
def State.otherStores (s : State) (v : BitVec 10) (h : BitVec 4) (pa : Nat) (bs : List Byte) : State :=
  if bs = [] || paTarget pa = 5 || s.inWells pa then s
  else match s.writeHome (some v) h pa bs with
    | .ok s => (s.dropWindowLines h pa bs.length).count h pa bs.length true
    | .error s => s

/-- A COLL or a FLIGHT that a unit of another hart issues, here or on another package (R193, R271). A full queue keeps it from issuing. -/
def State.otherIssues (s : State) (op : BitVec 3) (v : BitVec 10) (chip : BitVec 12) (h : BitVec 4) (rank : Nat) (words : List Word) : State :=
  if !(op == 1#3 || op == 2#3) || (chip == s.chip && s.queueFullAt h op) then s
  else s.addCmd { Cmd.fresh s.nextId op v h rank words with away := if chip = s.chip then none else some chip }

/-- BARRIER_WAIT_END (R199). -/
def execBarrierWaitEnd (s : State) := happened s.endBarrierWait

/-! ## Counters (R201) -/

/-- COUNT of counter k is 0; of all seven for code 0. -/
def State.countsZero (s : State) (k : BitVec 3) : Bool :=
  if k = 0#3 then (upTo 1 8).all fun i => (s.counter (BitVec.ofNat 3 i)).count == 0#32 else (s.counter k).count == 0#32

/-- The effect of KSTAT. -/
def State.kstat (s : State) (d : BitVec 5) (k : BitVec 3) : State :=
  let c := s.counter k
  (s.setCounter k { c with err := false, status := 0#4 }).setG d c.word

/-- The effect of KSET. -/
def State.kset (s : State) (d a : BitVec 5) (k : BitVec 3) : State :=
  let c := s.counter k
  let x := s.g a
  (s.setCounter k { c with err := x.getLsbD 32, status := x.extractLsb' 33 4 }).setG d c.word

/-- KWAIT (R201). -/
def execKwait (k : BitVec 3) (s : State) : Host.Outcome State Fault Refusal :=
  .next (if s.countsZero k then s.retire 4#64 else s.waitFor (.kwait k))

/-- KRD (R201). -/
def execKrd (d : BitVec 5) (k : BitVec 3) (s : State) : Host.Outcome State Fault Refusal :=
  .next ((s.setG d (s.counter k).word).retire 4#64)

/-- KSET (R201). -/
def execKset (d a : BitVec 5) (k : BitVec 3) (s : State) : Host.Outcome State Fault Refusal :=
  .next (if s.countsZero k then (s.kset d a k).retire 4#64 else s.waitFor (.kset d a k))

/-- KSTAT (R201). -/
def execKstat (d : BitVec 5) (k : BitVec 3) (s : State) : Host.Outcome State Fault Refusal :=
  .next (if s.countsZero k then (s.kstat d k).retire 4#64 else s.waitFor (.kstat d k))

/-- A wait on a counter ends once COUNT is 0. -/
def State.endCounterWait (s : State) : State :=
  let go (t : State) : State := (t.onHart fun h => { h with wait := none }).retire 4#64
  match s.hart.wait with
  | some (.kwait k) => if s.countsZero k then go s else s
  | some (.kstat d k) => if s.countsZero k then go (s.kstat d k) else s
  | some (.kset d a k) => if s.countsZero k then go (s.kset d a k) else s
  | _ => s

/-- KWAIT_END (R201). -/
def execKwaitEnd (s : State) := happened s.endCounterWait

/-! ## PAUSE and YIELD (R205) -/

/-- PAUSE (R205): retires, and holds the hart's issue; nothing to hold in run-ahead. -/
def execPause (s : State) : Host.Outcome State Fault Refusal :=
  let s := s.retire 4#64
  .next (if s.ra.isSome then s else s.waitFor .pause)

/-- PAUSE_EXPIRY (R205). -/
def execPauseExpiry (s : State) :=
  happened (if s.hart.wait = some .pause then s.onHart fun h => { h with wait := none } else s)

/-- YIELD (R205): a pre-emption that was asked for may be taken here. -/
def execYield (s : State) : Host.Outcome State Fault Refusal :=
  let s := s.retire 4#64
  .next (match s.myUnit with
    | some u => if u.preempt then s.saveGroup u.key.vf u.key.serial u.group else s
    | none => s)

/-! ## Landings (R204, R276, R277) -/

/-- The codes and reserved bits of a landing descriptor (Table 11.8). -/
def landingOk (w : List Word) : Bool :=
  let w0 := wordAt w 0
  let act := fieldNat w0 4 2
  w0 &&& 0xFFFFFFFFFFFFFEC8#64 == 0#64 && decide (act < 3) && decide (fieldNat w0 0 3 < 5)
    && wordAt w 3 &&& 0xFFFFFFFF80800000#64 == 0#64 && (act ≠ 0 || wordAt w 2 == 0#64)
    && (act ≠ 1 || (fieldNat (wordAt w 3) 21 2 == 0 && decide (fieldNat (wordAt w 3) 16 3 < 6)))

/-- The address that WATCH binds: an aligned word of an NRM page in HBM4E or tier-2 memory of the tenant; any other
address is a class violation (R204). -/
def State.watchSite (s : State) (va : Word) : State × Except Trap (Option Xl) :=
  if va.toNat % 8 ≠ 0 then (s, .error { code := 10, eval := va })
  else match s.reach s.myHall .load va 8 8 onlyNrm with
    | (s, .ok (some x)) =>
      if decide (paTarget x.pa < 4) && paChip x.pa == s.chip
          && (s.who.isNone || s.owns (s.tenantOf s.myVf) (homeHall x.pa)) then (s, .ok (some x))
      else (s, .error { code := 10, eval := va })
    | r => r

/-- The lowest landing of a hall that is free. -/
def Hall.freeLanding (x : Hall) : Option Nat := (List.range 64).find? fun i => (alFind i x.landings).isNone

/-- The size of the page through which a landing is bound. -/
def State.watchPage (s : State) (va : Word) : Nat :=
  match s.leaf s.who s.myHall false va with | .ok pte => pageSize pte | .error _ => 65536

/-- Bind a landing to the word at va, and write its handle to g[d] (R204). A bad descriptor gives all ones before its scope is looked at:
the manual gives no order between that and the scope-limit trap (R110; log 92). -/
def State.bindLanding (s : State) (d : BitVec 5) (va : Word) (x : Xl) (w : List Word) : Res :=
  let flight := fieldNat (wordAt w 0) 4 2 == 1
  let sc := if flight then (wordAt w 3).extractLsb' 16 3 else 0#3
  if !landingOk w then .ok (s.setG d (BitVec.allOnes 64))
  else do
    let s ← s.scoped sc
    match s.refusal s.who s.myHall x.pa 8 false with
    | some c => .error ({ code := 13, eval := va }, s.logRefusal s.who s.myHall x.pa c)
    | none =>
      let h := homeHall x.pa
      match (s.hall h).freeLanding with
      | none => .ok (s.setG d (BitVec.allOnes 64))
      | some n =>
        let l : Landing :=
          { st := .armed, va := va, pa := x.pa, page := s.watchPage va, vf := s.myVf, desc := w, demoted := s.scopeRun sc != sc, owner := s.hart.unit
            trigs := 0#16, lostn := 0, err := false, pend := 0 }
        .ok (((s.demote sc).onHall h fun y => { y with landings := alSet n l y.landings }).setG d (BitVec.ofNat 64 (h.toNat * 64 + n)))

/-- WATCH (R204); in run-ahead its addresses are only translated. -/
def execWatch (d a b : BitVec 5) (s : State) : Host.Outcome State Fault Refusal :=
  let va := s.g a
  let dv := s.g b
  finishMem none (match s.watchSite va with
    | (s, .error t) => .error (t, s)
    | (s, .ok site) =>
      match s.loadAt dv 32 32 onlyNrm [32] with
      | (s, .trap t) => .error (t, s)
      | (s, .late e) => .error (e.trap dv, s)
      | (s, .unknown) => .ok (s.noteG d true)
      | (s, .bytes l) =>
        match site with
        | none => .ok (s.noteG d true)
        | some x => if s.ra.isSome then .ok (s.noteG d true) else s.bindLanding d va x (leWords l 4))

/-- Free a landing, or keep it closing while actions are pending (R204, R277). -/
def State.freeLanding (s : State) (h : BitVec 4) (n : Nat) (l : Landing) : State :=
  s.onHall h fun x =>
    { x with landings := if l.pend = 0 then alErase n x.landings else alSet n { l with st := .closing } x.landings }

/-- UNWATCH (R204); a hall of the tenant that does not answer gives the error-response trap (R344). -/
def execUnwatch (d a : BitVec 5) (s : State) : Host.Outcome State Fault Refusal :=
  let handle := (s.g a).toNat
  let h := BitVec.ofNat 4 (handle / 64)
  let n := handle % 64
  let held : Option Landing :=
    if handle < 1024 then (alFind n (s.hall h).landings).bind fun l => if l.vf = s.myVf then some l else none else none
  if handle < 1024 && (s.who.isNone || s.owns (s.tenantOf s.myVf) h) && !s.barrierHall h then
    .next (s.takeTrap { code := 13, eval := s.g a })
  else
    let s' : State := match held with
      | none => s.setG d (BitVec.allOnes 64)
      | some l => if l.st = .armed then (s.freeLanding h n l).setG d 1#64 else s.setG d 0#64
    .next (s'.retire 4#64)

/-- LANDING_TRIGGER (R204): a write that another party has performed is evaluated. -/
def execLandingTrigger (hall : BitVec 4) (n : BitVec 6) (s : State) :=
  happened (match alFind n.toNat (s.hall hall).landings with
    | some l => s.evalLanding hall n.toNat l
    | none => s)

/-- How an action of a landing ends (R277). -/
inductive Issue where
  | done | stays | failed
deriving DecidableEq, Repr

/-- Wake the context that issued WATCH, wherever it is (R204). -/
def State.wake (s : State) (n : Nat) (owner : Option UnitKey) : State :=
  match owner with
  | none => s
  | some k =>
    if s.hart.unit = some k then s.onHart fun h => { h with wakes := setBit h.wakes n true }
    else match s.units.find? fun u => u.key == k with
      | some u =>
        if u.onHart then s
        else
          let a := s.slotPa u.slotHall u.slot + 0x198
          s.putWord a (setBit (s.word a) n true)
      | none => s

/-- The flight command of a landing of a hall (R204): it has no counter and no issuer. -/
def Landing.flight (l : Landing) (id : Nat) (h : BitVec 4) (words : List Word) : Cmd :=
  let f := wordAt l.desc 3
  { Cmd.fresh id 2#3 l.vf h (fieldNat f 0 16) words with
    scope := if l.demoted then 4#3 else f.extractLsb' 16 3, acq := f.getLsbD 19, rel := f.getLsbD 20 }

/-- Read the record of a landing's action: 128 bytes, aligned, of an NRM page of its VF (R186, R207). -/
def State.landingRecord (s : State) (h : BitVec 4) (l : Landing) : State × Option (List Byte) :=
  let va := wordAt l.desc 2
  let c := l.flight 0 h []
  if va.toNat % 128 ≠ 0 then (s, none)
  else match s.engXlate c .load va with
    | (s, .error _) => (s, none)
    | (s, .ok x) =>
      if x.cls ≠ .nrm then (s, none)
      else match s.readSource c.who h x 128 with
        | (s, .ok bs) => (s, some bs)
        | (s, .error _) => (s, none)

/-- Issue one action of a landing. -/
def State.landingIssue (s : State) (h : BitVec 4) (n : Nat) (l : Landing) : State × Issue :=
  match fieldNat (wordAt l.desc 0) 4 2 with
  | 0 => (s.wake n l.owner, .done)
  | 1 =>
    if s.queueFullAt h 2#3 then (s, .stays)
    else match s.landingRecord h l with
      | (s, none) => (s, .failed)
      | (s, some bs) => (s.addCmd (l.flight s.nextId h (leWords bs 16)), .done)
  | _ =>
    match s.landingRecord h l with
    | (s, none) => (s, .failed)
    | (s, some bs) =>
      let r := s.enqueue l.vf ((wordAt l.desc 3).extractLsb' 24 7) bs
      (r.1, if r.2 = 0 then .done else if r.2 = 1 then .stays else .failed)

/-- The oldest pending action of a landing is issued, or dropped with ERR; a closing landing is freed with its last one
(R277). -/
def State.landingAct (s : State) (h : BitVec 4) (n : Nat) : State :=
  match alFind n (s.hall h).landings with
  | none => s
  | some l =>
    if l.pend = 0 then s
    else match s.landingIssue h n l with
      | (s, .stays) => s
      | (s, how) =>
        let l' : Landing := { l with pend := l.pend - 1, err := l.err || how == .failed }
        s.onHall h fun x =>
          { x with landings := if l'.pend = 0 && l'.st == .closing then alErase n x.landings else alSet n l' x.landings }

/-- LANDING_ACTION (R204, R277). -/
def execLandingAction (hall : BitVec 4) (n : BitVec 6) (s : State) := happened (s.landingAct hall n.toNat)

/-! ## Wait entries (R202, R203) -/

/-- WAIT_ENTRY_FIRE (R202): a write of another party to a word fires its entry. -/
def execWaitEntryFire (pa : Word) (s : State) := happened (s.fireWaits (pa.toNat / 8 * 8) 8)

/-- The bank of a scratchpad byte (R226). -/
def bankOf (pa : Nat) : Nat × Nat := (pa / 2 ^ 21, pa / 16 % 64)

/-- What a bank answers to a request for an entry. -/
inductive BankAnswer where
  | entry | refused | retry
deriving DecidableEq, Repr

/-- Ask the bank of a word for an entry (R202, R203). Entries that other harts hold there are open (log 9). -/
def State.askBank (s : State) (pa : Nat) : State × BankAnswer :=
  let own := (s.hart.armedPa.filter fun p => bankOf p.2 == bankOf pa).length
  let recov := ((s.hall (homeHall pa)).cluster (spCluster pa)).recov
  let others := s.units.any fun u => u.onHart && s.hart.unit != some u.key
  let s' : State := { s with fresh := s.fresh + 1 }
  if 16 ≤ own then (s, if recov then .retry else .refused)
  else if others && !recov then (s', if Config.freeBit s.fresh then .refused else .entry)
  else (s, .entry)

/-- How arming stops before its last element. -/
inductive ArmStop where
  | refused (e : Nat)
  | retry (e : Nat)
  | trap (e : Nat) (t : Trap)
deriving DecidableEq, Repr

/-- Arm the entry of element e on the word at pa. -/
def State.armEntry (s : State) (e pa : Nat) : State :=
  s.onHart fun h => { h with armed := setBit h.armed e true, armedPa := h.armedPa ++ [(e, pa)] }

/-- Arm elements in ascending order (R202); in run-ahead they are only translated. -/
def armFrom (v : VAccess) : List Nat → State → State × Option ArmStop
  | [], s => (s, none)
  | e :: r, s =>
    match s.act v.sel v.per e, v.addr e with
    | .on, some va =>
      (match s.reach (s.elemHall v.per e) v.kind va v.size v.size v.ok with
        | (s, .error t) => (s, some (.trap e t))
        | (s, .ok none) => armFrom v r s
        | (s, .ok (some x)) =>
          if s.ra.isSome then armFrom v r s
          else if paTarget x.pa ≠ 4 then (s, some (.trap e { code := 10, eval := va }))
          else match s.refusal s.who s.myHall x.pa 8 false with
            | some c => (s.logRefusal s.who s.myHall x.pa c, some (.trap e { code := 13, eval := va }))
            | none =>
              match s.askBank x.pa with
              | (s, .entry) => armFrom v r (s.armEntry e x.pa)
              | (s, .refused) => (s, some (.refused e))
              | (s, .retry) => (s, some (.retry e)))
    | _, _ => armFrom v r s

/-- Disarm every entry and clear the fired set. -/
def State.disarm (s : State) : State := s.onHart fun h => { h with armed := 0#64, fired := 0#64, armedPa := [] }

/-- This VWARM goes on at the VSTART that a trap or a retry left it with, and keeps what it has armed (R318). -/
def State.warmsOn (s : State) : Bool := s.hart.warm == some (s.hart.pc, s.hart.vstart)

/-- Part of a VWARM is done: it goes on at element e. -/
def State.warmTo (s : State) (e : Nat) : State := (s.setVstart e).onHart fun h => { h with warm := some (h.pc, e) }

/-- VWARM (R202, R203). -/
def execVwarm (d a b : BitVec 5) (m : BitVec 3) (s : State) : Host.Outcome State Fault Refusal :=
  let o := vreg b 32
  let v : VAccess :=
    { sel := s.maskSel none m, per := s.perPos o, zero := false, size := 8, ok := onlyNrm, kind := .load, win := false
      addr := s.stepAddr a (s.indexStep b 8) (s.elemUnknown o) }
  match s.vecCheck (decide (s.hart.vl ≤ 64) && decide (s.hart.vl ≤ s.hart.vlmaxb / 4)) [] [o] false with
  | .error (t, s) => .next (s.takeTrap t)
  | .ok s =>
    let ahead := s.ra.isSome
    let fin (t : State) (x : Nat) : State :=
      (((if ahead then t.noteG d true else t.setG d (BitVec.ofNat 64 x)).setVstart 0).onHart fun h => { h with warm := none }).retire 4#64
    match armFrom v s.range (if ahead || s.warmsOn then s else s.disarm) with
    | (t, none) => .next (fin t s.hart.vl)
    | (t, some (.refused e)) => .next (fin t e)
    | (t, some (.retry e)) => .next (t.warmTo e)
    | (t, some (.trap e x)) => .next ((if ahead then t else t.warmTo e).takeFault x)

/-! ## WAITANY (R205) -/

/-- The conditions of WAITANY that hold, of those that g[a] names. -/
def State.conditions (s : State) (a : BitVec 5) : BitVec 9 :=
  let all : BitVec 9 := (upTo 1 8).foldl (fun m i => setBit m i ((s.counter (BitVec.ofNat 3 i)).count == 0#32)) 0#9
  let all := setBit (setBit all 0 (s.hart.fired != 0#64)) 8 (s.hart.wakes != 0#64)
  all &&& (s.g a).extractLsb' 0 9

/-- The deadline in g[b] has passed. -/
def State.pastDeadline (s : State) (b : BitVec 5) : Bool := s.g b != 0#64 && (s.g b).ule s.podt

/-- The results of WAITANY: a wake that is reported is consumed, and so is the fired set. -/
def State.waitanyResult (s : State) (d a b : BitVec 5) : State :=
  let c := s.conditions a
  let n := ((List.range 64).find? fun i => s.hart.wakes.getLsbD i).getD 0
  let w := (if c.getLsbD 8 then place n 16 6 else 0#64) ||| place (bit (s.pastDeadline b)) 9 1 ||| c.setWidth 64
  let fired := s.hart.fired
  let s := s.onHart fun h => { h with wakes := if c.getLsbD 8 then setBit h.wakes n false else h.wakes, fired := 0#64, wait := none }
  ((s.setG d w).setG (pairHi d) fired).retire 4#64

/-- WAITANY (R205). -/
def execWaitany (d a b : BitVec 5) (s : State) : Host.Outcome State Fault Refusal :=
  .next (if s.conditions a ≠ 0#9 || s.pastDeadline b then s.waitanyResult d a b else s.waitFor (.waitany d a b))

/-- WAITANY_END (R205): it may also end with no cause. -/
def execWaitanyEnd (s : State) :=
  happened (match s.hart.wait with | some (.waitany d a b) => s.waitanyResult d a b | _ => s)

/-! ## Phases (R206) -/

/-- Engine commands of the hart in flight, but for those of landings. -/
def State.ownCmds (s : State) : Bool := s.cmds.any fun c => c.counted && c.owner == s.hart.unit

/-- A wait in PHASE is over: the launch's phase number is written. -/
def State.endPhase (s : State) (d : BitVec 5) (gen : Nat) : State :=
  ((s.onHart fun h => { h with wait := none }).setG d (BitVec.ofNat 64 gen)).retire 4#64

/-- The hart has joined the phase of its launch in generation n: it waits until that is over. -/
def State.awaitPhase (s : State) (l : Launch) (d : BitVec 5) (n : Nat) : State :=
  if l.phaseBar.gen.toNat ≠ n then s.endPhase d l.phaseBar.gen.toNat else s.waitFor (.phase d n)

/-- PHASE (R206): the hart drains, and arrives at the phase barrier once; one that has joined does not arrive again (R321). -/
def execPhase (d : BitVec 5) (s : State) : Host.Outcome State Fault Refusal :=
  match s.myLaunch with
  | none => .next (s.takeTrap cohortTrap)
  | some l =>
    if !l.cohort then .next (s.takeTrap cohortTrap)
    else match s.joinedHere with
      | some n => .next ((s.onHart fun h => { h with rejoin := none }).awaitPhase l d n.toNat)
      | none =>
        let s := s.completeVecs fun _ => true
        if s.ownCmds then .next (s.waitFor .drain)
        else match s.release 4#3 with
          | .error (t, s) => .next (s.takeTrap t)
          | .ok s =>
            .next ((s.onLaunch l.vf l.serial fun l => { l with phaseBar := l.phaseBar.arrive s.myKey }).waitFor
              (.phase d l.phaseBar.gen.toNat))

/-- The phase of a launch has advanced: its word and the launches gated on it follow (R303, R305). -/
def State.notePhase (s : State) (l : Launch) (gen : Nat) : State :=
  let s := s.onLaunch l.vf l.serial fun l => { l with phase := gen }
  let s := s.writeLaunchWord { l with phase := gen } 1
  if l.graph = 0#16 then s
  else (s.onGraph l.vf l.graph fun g => { g with phases := alSet l.node gen g.phases }).refreshGraph l.vf l.graph

/-- Every member has arrived at the phase barrier: the phase advances, its gates and its word follow, and the hart that
waits in PHASE goes on (R206, R303, R305). -/
def State.completePhase (s : State) (v : BitVec 10) (serial : BitVec 32) : State :=
  match s.launch? v serial with
  | none => s
  | some l =>
    let gen := l.phaseBar.gen.toNat
    let s := if gen = l.phase then s else s.notePhase l gen
    match s.hart.wait with
    | some (.phase d n) =>
      if s.hart.unit.any (fun k => k.vf == v && k.serial == serial) && gen != n then s.endPhase d gen else s
    | _ => s

/-- PHASE_COMPLETE (R206). -/
def execPhaseComplete (vf : BitVec 10) (serial : BitVec 32) (s : State) := happened (s.completePhase vf serial)

/-! ## LAUNCH, CANCEL and EXIT (R207 to R209) -/

/-- LAUNCH (R207); in run-ahead its record is only translated. -/
def execLaunch (d a b : BitVec 5) (sc : BitVec 3) (s : State) : Host.Outcome State Fault Refusal :=
  let va := s.g a
  let q := s.g b
  finishMem none (do
    let s ← s.scoped sc
    let s ← s.releaseIf true sc
    match s.loadAt va 128 128 onlyNrm [64, 64] with
    | (s, .trap t) => .error (t, s)
    | (s, .late e) => .error (e.trap va, s)
    | (s, .unknown) => .ok (s.noteG d true)
    | (s, .bytes bs) =>
      if s.ra.isSome then .ok (s.noteG d true)
      else if 127 < q.toNat then .ok ((s.demote sc).setG d 2#64)
      else
        let r := (s.demote sc).enqueue s.myVf (q.extractLsb' 0 7) bs
        .ok (r.1.setG d (BitVec.ofNat 64 r.2)))

/-- CANCEL (R208): a unit that cancels its own work is killed after it has completed. -/
def execCancel (d a : BitVec 5) (n : BitVec 2) (s : State) : Host.Outcome State Fault Refusal :=
  if n = 3#2 && s.hart.mode = .a then .next (s.takeTrap s.privileged)
  else
    let r := s.cancel s.myVf n (s.g a)
    let s' := (r.1.setG d (BitVec.ofNat 64 (bit r.2))).retire 4#64
    .next (match s'.hart.unit with
      | some k => s'.stopCancelled k
      | none => s')

/-- EXIT (R209): the hart drains, releases, and its unit ends. -/
def execExit (a : BitVec 5) (sc : BitVec 3) (s : State) : Host.Outcome State Fault Refusal :=
  let err := fieldNat (s.g a) 0 8 != 0
  match s.scoped sc with
  | .error (t, s) => .next (s.takeTrap t)
  | .ok s =>
    let s := s.completeVecs fun _ => true
    if s.ownCmds then .next (s.waitFor .drain)
    else match s.release (s.scopeRun sc) with
      | .error (t, s) => .next (s.takeTrap t)
      | .ok s =>
        let s := (s.demote sc).retire 4#64
        .next (match s.myUnit with
          | some u => s.endUnit u false err
          | none => s.dropClaim.onHart Hart.release)

/-! ## Faults between instructions (R59, R69, R94, R221, R388) -/

/-- The hart takes the illegal-instruction trap for this word and prefix. -/
def State.takeIllegal (s : State) (word : IWord) (pfx : Option IWord) : State :=
  let s := s.onHart fun h => { h with ir := (pfx, word) }
  s.takeTrap { s.illegal with pfx := pfx.isSome }

/-- An event that meets a hart between instructions, and no other. -/
def State.atBoundary (s : State) : Bool := !s.hart.stopped && s.hart.wait.isNone && s.ra.isNone

/-- ILLEGAL_INSTRUCTION (R69); a prefix word of 0 is none. -/
def execIllegalInstruction (word pfxWord : IWord) (s : State) :=
  happened (if s.atBoundary then s.takeIllegal word (if pfxWord = 0#32 then none else some pfxWord) else s)

/-- A fetch fails (R59): after completion when a transfer led there (R94); in a shadowed VF a translation fault is held
(R337). -/
def State.fetchFault (s : State) (code : Nat) (va : Word) (pfx : Bool) (why : Option Reason) : State :=
  match why with
  | some r =>
    if s.shadowed && s.ra.isNone then
      s.holdHart [(va, Kind.fetch.code, r.code)]
        { token := 0#32, cmd := none, vf := 0#10, va := va, kind := 3#2, tlbsh := none, code := code, after := s.hart.transfer,
          pfx := pfx, scalar := false, record := [], recordPa := 0, cut := none }
    else s.takeTrap { code := code, eval := va, after := s.hart.transfer, pfx := pfx }
  | none => s.takeTrap { code := code, eval := va, after := s.hart.transfer, pfx := pfx }

/-- INSTRUCTION_FETCH_FAULT (R59). -/
def execInstructionFetchFault (code : BitVec 8) (va : Word) (s : State) :=
  let why := match s.hartXlate s.myHall .fetch va 4 with | .error r => some r | .ok _ => none
  happened (if s.atBoundary && (code = 1#8 || code = 2#8) then s.fetchFault code.toNat va false (if code = 2#8 then why else none)
    else s)

/-- SPAN_POSITION_LOST (R221): a position other than the hart's own. -/
def execSpanPositionLost (pos : BitVec 3) (s : State) :=
  happened (match s.hart.claim with
    | none => s
    | some c =>
      let own := c.own s.myHall
      match (if pos.toNat = own then none else c.places[if pos.toNat < own then pos.toNat else pos.toNat - 1]?) with
      | some p => s.loseSpanIn (· == p)
      | none => s)

/-- The span-loss fault at a vector instruction (R221): the claim ends without waiting, and every vector register, mask and
mark reads as zero. -/
def State.takeSpanLoss (s : State) : State :=
  let dies := s.hart.spanLost
  let start := s.hart.vstart
  let s := (s.noteVstat vstatSpanLoss).dropClaim.onHart fun h => { h with m := Vector.replicate 8 0#131072, vstart := start }
  s.takeTrap { code := 16, eval := dies.setWidth 64, pfx := s.prefixed }

/-- An uncorrectable error of a register or a latch of the hart is logged (R394). -/
def State.logRegister (s : State) : State :=
  s.logError s.myHall { s.errorEntry 4 0 true 0#64 with cluster := s.myCluster, hart := s.myHart }

/-- REGISTER_UNCORRECTABLE_ERROR (R388, R394): a latch is rebuilt before an instruction reads it; for any other register the
unit is killed. A log entry of source 4 for either. -/
def execRegisterUncorrectableError (latch : Option (BitVec 1)) (s : State) :=
  happened (match latch with
    | some n =>
      let again (d : OlgathDesc) : OlgathDesc := { d with todo := BitVec.allOnes 64, resumeAt := none }
      (s.rollback.onHart fun h => { h with ldesc := put (w := 1) h.ldesc n ((pick (w := 1) h.ldesc n).map again) }).logRegister
    | none => (match s.hart.unit with | some k => s.rollback.killUnit k | none => s).logRegister)

end Sys2Proof.Machine
end

