-- ==== Sys2Proof/Machine/Ahead.lean ====
section
/-! DEFINITION. Ahead.lean: what fault run-ahead does with a word before its meaning: where it stops, what it skips, and
which destinations become unknown (R326 to R328; log 12). Fields lie where R60 puts them. -/

namespace Sys2Proof.Machine

/-! ## Fields of a word (R60) -/

/-- The major of a word. -/
def majorOf (w : IWord) : Nat := fieldNat w 26 6
/-- Field d. -/
def fieldD (w : IWord) : BitVec 5 := w.extractLsb' 21 5
/-- Field a. -/
def fieldA (w : IWord) : BitVec 5 := w.extractLsb' 16 5
/-- Field b. -/
def fieldB (w : IWord) : BitVec 5 := w.extractLsb' 11 5

/-- What an instruction writes. -/
structure Dests where
  g : List (BitVec 5)
  v : List Nat
  m : List (BitVec 3)
  z : List (BitVec 2)
  l : List (BitVec 1)
  vl : Bool
deriving DecidableEq, Repr

/-- Nothing is written. -/
def Dests.none : Dests := { g := [], v := [], m := [], z := [], l := [], vl := false }

/-- n vector registers from r. -/
def Dests.vec (r n : Nat) : Dests := { Dests.none with v := (List.range n).map (r + ·) }

/-- The registers that the word w, with this prefix, may write. -/
def destsOf (p : Option IWord) (w : IWord) : Dests :=
  let d := fieldD w
  let n := d.toNat
  let f := fieldNat w 0 6
  let gd : Dests := { Dests.none with g := [d] }
  let md : Dests := { Dests.none with m := [d.setWidth 3] }
  let zd : Dests := { Dests.none with z := [d.setWidth 2] }
  let vc : Dests := match p with
    | some q => if q.getLsbD 20 then Dests.vec (fieldNat q 21 5) 1 else Dests.none
    | none => Dests.none
  let k := majorOf w
  if 0x01 ≤ k && k ≤ 0x11 then gd
  else if k = 0x1C then { Dests.none with g := [1#5] }
  else if k = 0x1D || k = 0x1E then gd
  else if k = 0x1F then
    (if fieldNat w 0 5 = 11 then { Dests.none with g := [d, pairHi d] } else if fieldNat w 0 5 < 13 then gd else Dests.none)
  else if k = 0x20 then (if f = 15 then { Dests.none with g := [d, pairHi d] } else gd)
  else if k = 0x22 then
    (match f with
      | 2 => { gd with vl := true }
      | 3 => { gd with vl := true }
      | 5 => Dests.vec n 1
      | 7 => zd
      | _ => Dests.none)
  else if k = 0x23 then
    (if f = 30 then gd else if 20 ≤ f && f ≤ 25 then md else if f = 32 || f = 33 then Dests.vec n 2 else Dests.vec n 1)
  else if k = 0x24 then (if 12 ≤ f && f ≤ 14 then md else Dests.vec n 1)
  else if k = 0x25 then { Dests.vec n 4 with v := (Dests.vec n 4).v ++ vc.v }
  else if k = 0x26 then Dests.vec n (if f = 18 then 2 else 1)
  else if k = 0x27 then (if f = 7 || f = 8 then gd else if f = 10 then Dests.vec n 1 else md)
  else if k = 0x28 then { Dests.vec n 1 with vl := fieldNat w 5 2 == 3 }
  else if k = 0x2A then vc
  else if k = 0x2B then
    (match fieldNat w 3 4 with
      | 0 => { Dests.none with g := [fieldB w] }
      | 2 => gd
      | 6 => Dests.vec n 1
      | 7 => Dests.vec n 1
      | _ => Dests.none)
  else if k = 0x2C then
    (match f with
      | 0 => { Dests.none with l := [d.setWidth 1] }
      | 4 => Dests.vec n 1
      | 6 => Dests.none
      | 7 => gd
      | _ => zd)
  else if k = 0x2D then (if fieldNat w 0 3 = 4 then gd else Dests.none)
  else Dests.none

/-- Every destination becomes unknown. -/
def State.loseDests (s : State) (d : Dests) : State :=
  let s := d.g.foldl (fun t i => t.noteG i true) s
  let s := d.z.foldl (fun t i => t.noteTile i true) s
  let s := d.l.foldl (fun t i => t.noteLatch i true) s
  let s := if d.vl then s.loseVl else s
  let v (u : Vector VReg 32) : Vector VReg 32 := d.v.foldl (fun u i => u.setIfInBounds i (BitVec.allOnes 524288)) u
  let m (u : Vector MReg 8) : Vector MReg 8 := d.m.foldl (fun u i => put (w := 3) u i (BitVec.allOnes 131072)) u
  { s with ra := s.ra.map fun r => { r with unknown := { r.unknown with v := v r.unknown.v, m := m r.unknown.m } } }

/-! ## Where run-ahead stops, and what it skips (R327, R328) -/

/-- The STOP code with which run-ahead ends before a word. -/
def State.stopBefore (s : State) (w : IWord) : Option Nat :=
  let k := majorOf w
  if k = 0x20 && fieldNat w 0 6 ≠ 10 || k = 0x21 || (k = 0x22 && fieldNat w 0 6 < 2) then some 3
  else if 0x16 ≤ k && k ≤ 0x1B && (s.gUnknown (fieldD w) || s.gUnknown (fieldA w)) then some 2
  else if k = 0x1D && s.gUnknown (fieldA w) then some 2
  else none

/-- VL or VMODE is unknown. -/
def State.lengthUnknown (s : State) : Bool := (s.ra.map fun r => r.unknown.vl || r.unknown.vmode).getD false

/-- A word whose result, or whose address, comes from an unknown value, so that it is passed over. -/
def State.passedOver (s : State) (w : IWord) : Bool :=
  let k := majorOf w
  let a := s.gUnknown (fieldA w)
  let b := s.gUnknown (fieldB w)
  if k = 0x01 then a || b
  else if 0x02 ≤ k && k ≤ 0x15 then a
  else if k = 0x1E then a || b || (fieldNat w 0 6 = 5 && s.gUnknown (fieldD w))
  else if k = 0x1F then fieldNat w 0 5 < 14 && a
  else if k = 0x22 then
    (match fieldNat w 0 6 with
      | 2 => s.lengthUnknown && (s.ra.map fun r => r.unknown.vmode).getD false
      | _ => false)
  else 0x23 ≤ k && k ≤ 0x2C && s.lengthUnknown

/-- Pass over a word: what it writes is unknown. -/
def State.passOver (s : State) (p : Option IWord) (w : IWord) : State :=
  let s := s.loseDests (destsOf p w)
  (if 0x22 ≤ majorOf w && majorOf w ≤ 0x2C then s.setVstart 0 else s).retire (if p.isSome then 8#64 else 4#64)

/-- A scalar word whose sources are known has a known result. -/
def State.learn (s : State) (w : IWord) : State :=
  let k := majorOf w
  if (0x01 ≤ k && k ≤ 0x0A) || k = 0x1D || k = 0x1E then s.noteG (fieldD w) false
  else if k = 0x1C then s.noteG 1#5 false
  else s

/-- Count one instruction of run-ahead; the faulting instruction, gone through again, is not counted. -/
def State.countAhead (s : State) (p : Option IWord) (w : IWord) : State :=
  match s.ra with
  | none => s
  | some r =>
    if r.first then (({ s with ra := some { r with first := false } } : State).loseDests (destsOf p w))
    else { s with ra := some { r with count := r.count + 1 } }

/-- A trap met run-ahead: what the instruction had added to the batch stays, and nothing else of it does. -/
def State.trapAhead (s t : State) : State :=
  ({ s with ra := match t.ra with | some r => some r | none => s.ra } : State).stopAhead 4

/-- Where run-ahead stands after an instruction that left t: stopped by a trap or a full batch, or still going. The instruction
that fills the batch is not counted (Table 21.8). -/
def State.afterAhead (s t : State) (p : Option IWord) (w : IWord) : State :=
  if t.hart.mode ≠ .a || t.hart.stopped || t.ra.isNone then s.trapAhead t
  else
    if 64 ≤ ((t.ra.map (·.batch.length)).getD 0) then t.stopAhead 1 else t.countAhead p w

end Sys2Proof.Machine
end

