-- ==== Sys2Proof/WellFormed.lean ====
section
/-! DEFINITION. WellFormed.lean: which instructions are legal whatever the state holds (R61, R63, R67,
R69, R74). What depends on a resolved type, on VL or on a claim is checked when the instruction runs. -/

namespace Sys2Proof

/-- How an instruction uses the fourth operand of a prefix (R67). -/
inductive FourthUse where
  | unused | optional | required
deriving DecidableEq, Repr

/-- The prefix fields that an instruction's description lists (R67). -/
structure Use where
  c : FourthUse := .unused
  type : Bool := false
  rnd : Bool := false
  mask : Bool := false
  policy : Bool := false
deriving DecidableEq, Repr

/-- No prefix field is used: only the all-zero prefix is legal before it (R67). -/
def Use.zero : Use := {}
/-- The type alone. -/
def Use.typed : Use := { type := true }
/-- The mask alone. -/
def Use.masked : Use := { mask := true }
/-- Type and mask: a destination that the policy does not govern. -/
def Use.typedMask : Use := { type := true, mask := true }
/-- Type, mask and policy (R120). -/
def Use.element : Use := { type := true, mask := true, policy := true }
/-- Type, rounding, mask and policy (R130, R132, R134). -/
def Use.rounded : Use := { Use.element with rnd := true }

/-- The prefix of an instruction. -/
def Instr.pfx : Instr → Option Pfx
  | .vadd o | .vsub o | .vrsub o | .vmul o | .vmulh o | .vmulhn o | .vdiv o | .vdivn o | .vrem o | .vremn o
  | .vmin o | .vmax o | .vminn o | .vmaxn o | .vand o | .vor o | .vxor o | .vsll o | .vsrl o | .vsra o
  | .vcmpeq o | .vcmpne o | .vcmplt o | .vcmple o | .vcmpltn o | .vcmplen o | .vmerge o | .vmv o | .vwmul o
  | .vwadd o | .vfadd o | .vfsub o | .vfmul o | .vfdiv o | .vfsqrt o | .vfma o | .vfms o | .vfnma o | .vfmin o
  | .vfmax o | .vfabs o | .vfneg o | .vfcmpeq o | .vfcmplt o | .vfcmple o | .vfclass o | .vfrcp o | .vfrsq o
  | .vfex2 o | .vflg2 o | .vftnh o | .vfsig o | .vfexp o | .vfscl o | .vredsum o | .vredmin o | .vredmax o
  | .vredminn o | .vredmaxn o | .vredand o | .vredor o | .vredxor o | .vfredsum o | .vfredmin o | .vfredmax o
  | .vscan o | .vscanx o | .vfscan o | .vperm o | .vpack o | .vunpack o | .vrev o | .vamoadd o | .vamoand o
  | .vamoor o | .vamoxor o | .vamomin o | .vamomax o | .vamominn o | .vamomaxn o | .vamofadd o | .vamofmin o
  | .vamofmax o | .vamoswp o => o.pfx
  | .vclaim p _ _ _ | .vrel p | .setvl p _ _ | .setvm p _ _ _ | .vspill p _ _ | .vfill p _ _ | .zspill p _ _
  | .zfill p _ _ | .vbcast p _ _ _ | .vid p _ _ | .vext p _ _ _ _ | .vins p _ _ _ | .vcvt p _ _ _ _ _
  | .vftoi p _ _ _ _ _ | .vitof p _ _ _ _ _ | .vslup p _ _ _ _ _ | .vsldn p _ _ _ _ _ | .vxchg p _ _ _ _ _
  | .mand p _ _ _ | .mor p _ _ _ | .mxor p _ _ _ | .mandn p _ _ _ | .mnot p _ _ | .mset p _ | .mclr p _
  | .mpop p _ _ _ | .mfirst p _ _ _ | .mfromv p _ _ _ _ | .mtov p _ _ _ | .msbf p _ _ _ | .vld p _ _ _ _ _
  | .vlds p _ _ _ _ _ _ | .vldx p _ _ _ _ _ _ _ | .vldff p _ _ _ _ | .vst p _ _ _ _ _ _ | .vsts p _ _ _ _ _ _ _
  | .vstx p _ _ _ _ _ _ _ | .vapnd p _ _ _ _ _ _ | .sealPage p _ _ _ | .inktail p _ _ | .winit p _ _ _ _ _
  | .wdep p _ _ _ _ _ | .wdepx p _ _ _ _ _ _ | .wread p _ _ _ _ | .wdrain p _ _ _ _ | .olgath p _ _ _ _ _
  | .zrank p _ _ _ _ _ _ | .mblk p _ _ | .zzero p _ | .zread p _ _ _ _ | .zwrite p _ _ _ _ _ | .zdim p _ => p
  | .vcvtef p _ _ _ _ _ | .zdep p _ _ _ _ => some p
  | .add .. | .sub .. | .and .. | .or .. | .xor .. | .andn .. | .orn .. | .sll .. | .srl .. | .sra .. | .rol ..
  | .ror .. | .slt .. | .sltn .. | .min .. | .max .. | .minn .. | .maxn .. | .mul .. | .mulh .. | .mulhn ..
  | .div .. | .divn .. | .rem .. | .remn .. | .clz .. | .ctz .. | .popc .. | .bswp .. | .sext .. | .zext ..
  | .selnz .. | .addi .. | .andi .. | .ori .. | .xori .. | .slli .. | .srli .. | .srai .. | .rori .. | .slti ..
  | .sltni .. | .ldhi .. | .addpc .. | .ldb .. | .ldbn .. | .ldh .. | .ldhn .. | .ldw .. | .ldwn .. | .ldd ..
  | .stb .. | .sth .. | .stw .. | .std .. | .beq .. | .bne .. | .blt .. | .bge .. | .bltn .. | .bgen ..
  | .jal .. | .jalr .. | .fadd .. | .fsub .. | .fmul .. | .fdiv .. | .fsqrt .. | .fma .. | .fmin .. | .fmax ..
  | .feq .. | .flt .. | .fle .. | .fclass .. | .fcvtff .. | .fcvti .. | .fcvtn .. | .fcvtw .. | .fcvtwn ..
  | .fcvtif .. | .fcvtnf .. | .fsgn .. | .fsgnn .. | .fsgnx .. | .amoadd .. | .amoand .. | .amoor ..
  | .amoxor .. | .amomin .. | .amomax .. | .amominn .. | .amomaxn .. | .amoswp .. | .amofadd .. | .cas ..
  | .cas2 .. | .lda .. | .strel .. | .fence .. | .vdrain .. | .barinit .. | .barjoin .. | .barleave ..
  | .bararr .. | .barwait .. | .barsyn .. | .kwait .. | .krd .. | .kset .. | .kstat .. | .pause | .yield
  | .watch .. | .unwatch .. | .vwarm .. | .waitany .. | .phase .. | .launch .. | .cancel .. | .exit ..
  | .trap .. | .eret | .srd .. | .swr .. | .sset .. | .sclr .. | .svc .. | .linewb .. | .lineinv .. | .tlbsh ..
  | .fencei | .wfi | .halt | .copy .. | .coll .. | .flight .. | .ixg .. | .rowin .. | .rowout ..
  | .storeErrorResponse .. | .storeErrorTrap | .vectorMemoryCompletion .. | .tailUnitAppend .. | .sealRequest ..
  | .sealingComplete .. | .wellLineStep .. | .wellLineFill .. | .wellLineEvict .. | .wellLineWriteback ..
  | .inkPageFree .. | .inkFreeDrainDone .. | .replicaCreate .. | .replicaCopyDone .. | .replicaReclaim ..
  | .replicaReclaimDone .. | .engineCommandCompletion .. | .rowinFillDone .. | .waitEntryFire ..
  | .landingTrigger .. | .landingAction .. | .barrierWaitEnd | .kwaitEnd | .waitanyEnd | .wfiWake
  | .phaseComplete .. | .pauseExpiry | .unitKill .. | .dispatcherStep .. | .preemptionTimeout ..
  | .launchAdmission .. | .launchCompletion .. | .ageBoost .. | .qptrTailWrite .. | .qcfgWrite ..
  | .contextSave .. | .resumption .. | .faultRunAheadStop .. | .spanPositionLost .. | .lanePoolCapWrite ..
  | .trfctlClear .. | .trfctlFreeze .. | .fqrespRetry .. | .fqrespForward .. | .fqrespComplete ..
  | .shootctlGo .. | .shootdownDone .. | .hownWrite .. | .hallWarmReset .. | .hallForcedReset ..
  | .hallRelease .. | .hallFence .. | .hallHangTimeout .. | .gwctlWrite .. | .galleryRevokeDrainDone ..
  | .violationLogClear .. | .vfReset .. | .vfResetFlitTimeout .. | .vfResetComplete .. | .vfvcapWrite ..
  | .portcfgGuarWrite .. | .hostPortTrain .. | .hostPortDown .. | .hostSnoop .. | .hostCxlMemRequest ..
  | .collArming .. | .splitFlit .. | .abortFlit .. | .rruContribution .. | .flightTransfer ..
  | .pathWeightMeasure .. | .wavelengthDark .. | .relayEstablished .. | .pathLost .. | .wavelengthRelit ..
  | .ixgRemoteRowRequest .. | .extPortTrain .. | .extFlitReceive .. | .nakReceived .. | .ackReceived ..
  | .portRetrain .. | .retrainTimeout .. | .epkctlSwitch .. | .keyLow .. | .keyExhausted ..
  | .keyExhaustedTimeout .. | .fabricPacketForward .. | .ptpTimeFlit .. | .lrsetWrite .. | .mpsetWrite ..
  | .scrubLine .. | .scrubPauseEnd .. | .memoryUncorrectableError .. | .registerUncorrectableError ..
  | .errorLogClear .. | .attestationGo .. | .attestationReportDone .. | .keyRecord .. | .powerOn
  | .powerCapAdjust .. | .thermalTrip .. | .hctlStop .. | .hctlRun .. | .hctlRecov .. | .censusWrite ..
  | .registerWrite .. | .illegalInstruction .. | .instructionFetchFault .. | .postedWritePerformed ..
  | .wellPageMap .. | .inkFrameMap .. => none

/-- The prefix fields that each instruction uses (R119, R124, R128, R131, R135, R137, R143, R149, R151,
Table 10.1). VAMO takes the policy only in its fetch form (R151). VFSCAN rounds (R43), so it uses rnd. VXCHG
takes the policy (log 83). -/
def Instr.use : Instr → Use
  | .vclaim .. | .vrel .. | .setvm .. | .vspill .. | .vfill .. | .zspill .. | .zfill .. | .mand .. | .mor ..
  | .mxor .. | .mandn .. | .mnot .. | .mset .. | .mclr .. | .sealPage .. | .inktail .. | .zzero .. | .zdim .. => Use.zero
  | .setvl .. | .vext .. | .vins .. | .mblk .. => Use.typed
  | .vadd .. | .vsub .. | .vrsub .. | .vmul .. | .vmulh .. | .vmulhn .. | .vdiv .. | .vdivn .. | .vrem ..
  | .vremn .. | .vmin .. | .vmax .. | .vminn .. | .vmaxn .. | .vand .. | .vor .. | .vxor .. | .vsll ..
  | .vsrl .. | .vsra .. | .vcmpeq .. | .vcmpne .. | .vcmplt .. | .vcmple .. | .vcmpltn .. | .vcmplen ..
  | .vmv .. | .vbcast .. | .vid .. | .vwmul .. | .vwadd .. | .vfmin .. | .vfmax .. | .vfabs .. | .vfneg ..
  | .vfcmpeq .. | .vfcmplt .. | .vfcmple .. | .vfclass .. | .vscan .. | .vscanx .. | .vslup .. | .vsldn ..
  | .vperm .. | .vunpack .. | .vxchg .. | .vrev .. | .mfromv .. | .mtov .. => Use.element
  | .vmerge .. | .vredsum .. | .vredmin .. | .vredmax .. | .vredminn .. | .vredmaxn .. | .vredand ..
  | .vredor .. | .vredxor .. | .vfredmin .. | .vfredmax .. | .vpack .. | .vapnd .. | .wdep .. | .wdepx ..
  | .zrank .. => Use.typedMask
  | .vfadd .. | .vfsub .. | .vfmul .. | .vfdiv .. | .vfsqrt .. | .vfma .. | .vfms .. | .vfnma .. | .vfrcp ..
  | .vfrsq .. | .vfex2 .. | .vflg2 .. | .vftnh .. | .vfsig .. | .vfexp .. | .vfscl .. | .vcvt .. | .vftoi ..
  | .vitof .. | .vfscan .. => Use.rounded
  | .vcvtef .. => { Use.rounded with c := .required }
  | .vfredsum .. => { Use.typedMask with rnd := true }
  | .mpop .. | .mfirst .. | .vst .. | .vsts .. | .vstx .. | .winit .. | .olgath .. | .zwrite .. => Use.masked
  | .msbf .. | .vld .. | .vlds .. | .vldx .. | .vldff .. | .wread .. | .wdrain .. | .zread .. => { Use.masked with policy := true }
  | .vamoadd o | .vamoand o | .vamoor o | .vamoxor o | .vamomin o | .vamomax o | .vamominn o | .vamomaxn o
  | .vamofadd o | .vamofmin o | .vamofmax o | .vamoswp o => { Use.typedMask with c := .optional, policy := o.pfx.any (·.cv) }
  | .zdep .. => { Use.masked with c := .required }
  | .add .. | .sub .. | .and .. | .or .. | .xor .. | .andn .. | .orn .. | .sll .. | .srl .. | .sra .. | .rol ..
  | .ror .. | .slt .. | .sltn .. | .min .. | .max .. | .minn .. | .maxn .. | .mul .. | .mulh .. | .mulhn ..
  | .div .. | .divn .. | .rem .. | .remn .. | .clz .. | .ctz .. | .popc .. | .bswp .. | .sext .. | .zext ..
  | .selnz .. | .addi .. | .andi .. | .ori .. | .xori .. | .slli .. | .srli .. | .srai .. | .rori .. | .slti ..
  | .sltni .. | .ldhi .. | .addpc .. | .ldb .. | .ldbn .. | .ldh .. | .ldhn .. | .ldw .. | .ldwn .. | .ldd ..
  | .stb .. | .sth .. | .stw .. | .std .. | .beq .. | .bne .. | .blt .. | .bge .. | .bltn .. | .bgen ..
  | .jal .. | .jalr .. | .fadd .. | .fsub .. | .fmul .. | .fdiv .. | .fsqrt .. | .fma .. | .fmin .. | .fmax ..
  | .feq .. | .flt .. | .fle .. | .fclass .. | .fcvtff .. | .fcvti .. | .fcvtn .. | .fcvtw .. | .fcvtwn ..
  | .fcvtif .. | .fcvtnf .. | .fsgn .. | .fsgnn .. | .fsgnx .. | .amoadd .. | .amoand .. | .amoor ..
  | .amoxor .. | .amomin .. | .amomax .. | .amominn .. | .amomaxn .. | .amoswp .. | .amofadd .. | .cas ..
  | .cas2 .. | .lda .. | .strel .. | .fence .. | .vdrain .. | .barinit .. | .barjoin .. | .barleave ..
  | .bararr .. | .barwait .. | .barsyn .. | .kwait .. | .krd .. | .kset .. | .kstat .. | .pause | .yield
  | .watch .. | .unwatch .. | .vwarm .. | .waitany .. | .phase .. | .launch .. | .cancel .. | .exit ..
  | .trap .. | .eret | .srd .. | .swr .. | .sset .. | .sclr .. | .svc .. | .linewb .. | .lineinv .. | .tlbsh ..
  | .fencei | .wfi | .halt | .copy .. | .coll .. | .flight .. | .ixg .. | .rowin .. | .rowout ..
  | .storeErrorResponse .. | .storeErrorTrap | .vectorMemoryCompletion .. | .tailUnitAppend .. | .sealRequest ..
  | .sealingComplete .. | .wellLineStep .. | .wellLineFill .. | .wellLineEvict .. | .wellLineWriteback ..
  | .inkPageFree .. | .inkFreeDrainDone .. | .replicaCreate .. | .replicaCopyDone .. | .replicaReclaim ..
  | .replicaReclaimDone .. | .engineCommandCompletion .. | .rowinFillDone .. | .waitEntryFire ..
  | .landingTrigger .. | .landingAction .. | .barrierWaitEnd | .kwaitEnd | .waitanyEnd | .wfiWake
  | .phaseComplete .. | .pauseExpiry | .unitKill .. | .dispatcherStep .. | .preemptionTimeout ..
  | .launchAdmission .. | .launchCompletion .. | .ageBoost .. | .qptrTailWrite .. | .qcfgWrite ..
  | .contextSave .. | .resumption .. | .faultRunAheadStop .. | .spanPositionLost .. | .lanePoolCapWrite ..
  | .trfctlClear .. | .trfctlFreeze .. | .fqrespRetry .. | .fqrespForward .. | .fqrespComplete ..
  | .shootctlGo .. | .shootdownDone .. | .hownWrite .. | .hallWarmReset .. | .hallForcedReset ..
  | .hallRelease .. | .hallFence .. | .hallHangTimeout .. | .gwctlWrite .. | .galleryRevokeDrainDone ..
  | .violationLogClear .. | .vfReset .. | .vfResetFlitTimeout .. | .vfResetComplete .. | .vfvcapWrite ..
  | .portcfgGuarWrite .. | .hostPortTrain .. | .hostPortDown .. | .hostSnoop .. | .hostCxlMemRequest ..
  | .collArming .. | .splitFlit .. | .abortFlit .. | .rruContribution .. | .flightTransfer ..
  | .pathWeightMeasure .. | .wavelengthDark .. | .relayEstablished .. | .pathLost .. | .wavelengthRelit ..
  | .ixgRemoteRowRequest .. | .extPortTrain .. | .extFlitReceive .. | .nakReceived .. | .ackReceived ..
  | .portRetrain .. | .retrainTimeout .. | .epkctlSwitch .. | .keyLow .. | .keyExhausted ..
  | .keyExhaustedTimeout .. | .fabricPacketForward .. | .ptpTimeFlit .. | .lrsetWrite .. | .mpsetWrite ..
  | .scrubLine .. | .scrubPauseEnd .. | .memoryUncorrectableError .. | .registerUncorrectableError ..
  | .errorLogClear .. | .attestationGo .. | .attestationReportDone .. | .keyRecord .. | .powerOn
  | .powerCapAdjust .. | .thermalTrip .. | .hctlStop .. | .hctlRun .. | .hctlRecov .. | .censusWrite ..
  | .registerWrite .. | .illegalInstruction .. | .instructionFetchFault .. | .postedWritePerformed ..
  | .wellPageMap .. | .inkFrameMap .. => Use.zero

/-- The pairings of R67. -/
def pairOk (u : Use) (p : Pfx) : Bool :=
  (match u.c with | .unused => !p.cv | .optional => true | .required => p.cv)
  && (p.cv || p.c == 0)
  && (u.type || p.type == 0)
  && (u.rnd || p.rnd == 0)
  && (if p.mv then u.mask else p.mask == 0)
  && (if p.pv then u.policy else !p.z && !p.sat)

/-- The system-register numbers that Table 3.3 assigns. -/
def sysRegAssigned (n : BitVec 10) : Bool :=
  n.toNat ∈ [0x000, 0x001, 0x002, 0x003, 0x004, 0x005, 0x008, 0x010, 0x011, 0x012, 0x018, 0x020, 0x021, 0x030,
    0x100, 0x101, 0x102, 0x103, 0x104, 0x200, 0x201, 0x202, 0x203, 0x204]

/-- The checks of an instruction's own fields: mask operands name m1 to m7 (R61), pairs are even (R74,
R173, R205), scopes are 0 to 5 (R57), counters are in range (R197), system registers are assigned (R48),
FENCE has a kind (R108), source types are 1 to 14 (R133), TLBSH kinds are 0 to 3 (R115). An event has no
words and is not well formed as an instruction of a program. -/
def Instr.fieldsOk : Instr → Bool
  | .add .. | .sub .. | .and .. | .or .. | .xor .. | .andn .. | .orn .. | .sll .. | .srl .. | .sra .. | .rol ..
  | .ror .. | .slt .. | .sltn .. | .min .. | .max .. | .minn .. | .maxn .. | .mul .. | .mulh .. | .mulhn ..
  | .div .. | .divn .. | .rem .. | .remn .. | .clz .. | .ctz .. | .popc .. | .bswp .. | .sext .. | .zext ..
  | .selnz .. | .addi .. | .andi .. | .ori .. | .xori .. | .slli .. | .srli .. | .srai .. | .rori .. | .slti ..
  | .sltni .. | .ldhi .. | .addpc .. | .ldb .. | .ldbn .. | .ldh .. | .ldhn .. | .ldw .. | .ldwn .. | .ldd ..
  | .stb .. | .sth .. | .stw .. | .std .. | .beq .. | .bne .. | .blt .. | .bge .. | .bltn .. | .bgen ..
  | .jal .. | .jalr .. | .fadd .. | .fsub .. | .fmul .. | .fdiv .. | .fsqrt .. | .fma .. | .fmin .. | .fmax ..
  | .feq .. | .flt .. | .fle .. | .fclass .. | .fcvtff .. | .fcvti .. | .fcvtn .. | .fcvtw .. | .fcvtwn ..
  | .fcvtif .. | .fcvtnf .. | .fsgn .. | .fsgnn .. | .fsgnx .. | .barjoin .. | .barleave .. | .bararr ..
  | .barwait .. | .barsyn .. | .kwait .. | .pause | .yield | .watch .. | .unwatch .. | .vwarm .. | .phase ..
  | .cancel .. | .trap .. | .eret | .svc .. | .linewb .. | .lineinv .. | .fencei | .wfi | .halt | .vclaim ..
  | .vrel .. | .setvl .. | .setvm .. | .vspill .. | .vfill .. | .zspill .. | .zfill .. | .vadd .. | .vsub ..
  | .vrsub .. | .vmul .. | .vmulh .. | .vmulhn .. | .vdiv .. | .vdivn .. | .vrem .. | .vremn .. | .vmin ..
  | .vmax .. | .vminn .. | .vmaxn .. | .vand .. | .vor .. | .vxor .. | .vsll .. | .vsrl .. | .vsra ..
  | .vmerge .. | .vmv .. | .vbcast .. | .vid .. | .vext .. | .vins .. | .vwmul .. | .vwadd .. | .vfadd ..
  | .vfsub .. | .vfmul .. | .vfdiv .. | .vfsqrt .. | .vfma .. | .vfms .. | .vfnma .. | .vfmin .. | .vfmax ..
  | .vfabs .. | .vfneg .. | .vfclass .. | .vfrcp .. | .vfrsq .. | .vfex2 .. | .vflg2 .. | .vftnh .. | .vfsig ..
  | .vfexp .. | .vfscl .. | .vredsum .. | .vredmin .. | .vredmax .. | .vredminn .. | .vredmaxn .. | .vredand ..
  | .vredor .. | .vredxor .. | .vfredsum .. | .vfredmin .. | .vfredmax .. | .vscan .. | .vscanx .. | .vfscan ..
  | .vslup .. | .vsldn .. | .vperm .. | .vpack .. | .vunpack .. | .vxchg .. | .vrev .. | .vld .. | .vlds ..
  | .vldx .. | .vldff .. | .vst .. | .vsts .. | .vstx .. | .vamoadd .. | .vamoand .. | .vamoor .. | .vamoxor ..
  | .vamomin .. | .vamomax .. | .vamominn .. | .vamomaxn .. | .vamofadd .. | .vamofmin .. | .vamofmax ..
  | .vamoswp .. | .vapnd .. | .inktail .. | .winit .. | .wdep .. | .wdepx .. | .wread .. | .wdrain ..
  | .zrank .. | .mblk .. | .zzero .. | .zread .. | .zwrite .. | .zdim .. | .rowout .. => true
  | .amoadd _ _ _ s _ _ _ | .amoand _ _ _ s _ _ _ | .amoor _ _ _ s _ _ _ | .amoxor _ _ _ s _ _ _
  | .amomin _ _ _ s _ _ _ | .amomax _ _ _ s _ _ _ | .amominn _ _ _ s _ _ _ | .amomaxn _ _ _ s _ _ _
  | .amoswp _ _ _ s _ _ _ | .amofadd _ _ _ s _ _ _ | .cas _ _ _ s _ _ _ | .lda _ _ s _ | .strel _ _ s _
  | .vdrain _ s _ _ | .barinit _ _ s | .launch _ _ _ s | .exit _ s | .sealPage _ s _ _ | .copy _ s _ _ _
  | .coll _ _ s _ _ _ | .flight _ _ s _ _ _ | .ixg _ s _ _ _ | .rowin _ _ _ s _ => s.toNat < 6
  | .cas2 d _ b s _ _ => s.toNat < 6 && !d.getLsbD 0 && !b.getLsbD 0 && d != b
  | .fence s q l => s.toNat < 6 && (q || l)
  | .krd _ k | .kset _ _ k | .kstat _ k => k != 0
  | .waitany d _ _ | .zdep _ d _ _ _ => !d.getLsbD 0
  | .srd _ n h | .swr _ _ n h | .sset _ _ n h | .sclr _ _ n h => sysRegAssigned (h ++ n)
  | .tlbsh _ _ k => k.toNat < 4
  | .vcmpeq o | .vcmpne o | .vcmplt o | .vcmple o | .vcmpltn o | .vcmplen o | .vfcmpeq o | .vfcmplt o
  | .vfcmple o => o.d != 0
  | .vcvt _ _ _ t _ _ | .vcvtef _ _ _ t _ _ | .vftoi _ _ _ t _ _ | .vitof _ _ _ t _ _ => t != 0 && t != 15
  | .mand _ d a b | .mor _ d a b | .mxor _ d a b | .mandn _ d a b => d != 0 && a != 0 && b != 0
  | .mnot _ d a | .msbf _ d a _ => d != 0 && a != 0
  | .mset _ d | .mclr _ d | .mfromv _ d _ _ _ => d != 0
  | .mpop _ _ a _ | .mfirst _ _ a _ | .mtov _ _ a _ => a != 0
  | .olgath _ _ a _ _ _ => !a.getLsbD 0
  | .storeErrorResponse .. | .storeErrorTrap | .vectorMemoryCompletion .. | .tailUnitAppend .. | .sealRequest ..
  | .sealingComplete .. | .wellLineStep .. | .wellLineFill .. | .wellLineEvict .. | .wellLineWriteback ..
  | .inkPageFree .. | .inkFreeDrainDone .. | .replicaCreate .. | .replicaCopyDone .. | .replicaReclaim ..
  | .replicaReclaimDone .. | .engineCommandCompletion .. | .rowinFillDone .. | .waitEntryFire ..
  | .landingTrigger .. | .landingAction .. | .barrierWaitEnd | .kwaitEnd | .waitanyEnd | .wfiWake
  | .phaseComplete .. | .pauseExpiry | .unitKill .. | .dispatcherStep .. | .preemptionTimeout ..
  | .launchAdmission .. | .launchCompletion .. | .ageBoost .. | .qptrTailWrite .. | .qcfgWrite ..
  | .contextSave .. | .resumption .. | .faultRunAheadStop .. | .spanPositionLost .. | .lanePoolCapWrite ..
  | .trfctlClear .. | .trfctlFreeze .. | .fqrespRetry .. | .fqrespForward .. | .fqrespComplete ..
  | .shootctlGo .. | .shootdownDone .. | .hownWrite .. | .hallWarmReset .. | .hallForcedReset ..
  | .hallRelease .. | .hallFence .. | .hallHangTimeout .. | .gwctlWrite .. | .galleryRevokeDrainDone ..
  | .violationLogClear .. | .vfReset .. | .vfResetFlitTimeout .. | .vfResetComplete .. | .vfvcapWrite ..
  | .portcfgGuarWrite .. | .hostPortTrain .. | .hostPortDown .. | .hostSnoop .. | .hostCxlMemRequest ..
  | .collArming .. | .splitFlit .. | .abortFlit .. | .rruContribution .. | .flightTransfer ..
  | .pathWeightMeasure .. | .wavelengthDark .. | .relayEstablished .. | .pathLost .. | .wavelengthRelit ..
  | .ixgRemoteRowRequest .. | .extPortTrain .. | .extFlitReceive .. | .nakReceived .. | .ackReceived ..
  | .portRetrain .. | .retrainTimeout .. | .epkctlSwitch .. | .keyLow .. | .keyExhausted ..
  | .keyExhaustedTimeout .. | .fabricPacketForward .. | .ptpTimeFlit .. | .lrsetWrite .. | .mpsetWrite ..
  | .scrubLine .. | .scrubPauseEnd .. | .memoryUncorrectableError .. | .registerUncorrectableError ..
  | .errorLogClear .. | .attestationGo .. | .attestationReportDone .. | .keyRecord .. | .powerOn
  | .powerCapAdjust .. | .thermalTrip .. | .hctlStop .. | .hctlRun .. | .hctlRecov .. | .censusWrite ..
  | .registerWrite .. | .illegalInstruction .. | .instructionFetchFault .. | .postedWritePerformed ..
  | .wellPageMap .. | .inkFrameMap .. => false

/-- Legal whatever the state holds. -/
def Instr.wf (i : Instr) : Bool :=
  i.fieldsOk && (match i.pfx with | none => true | some p => pairOk i.use p)

end Sys2Proof
end

