-- ==== Sys2Proof/Decode.lean ====
section
/-! DEFINITION. Decode.lean: the encoder and the decoder of instruction words (R59 to R75).
Both are written from Tables 4.1, 4.4 and 4.6. A decoded word must be the encoding of what it decodes
to, which is R63: every field that the instruction does not use is zero. What builds an `Instr` is marked
noncomputable only because Lean's compiler allows no constructor with fields beyond the 245th of a type;
the kernel evaluates it. -/

namespace Sys2Proof

/-! ## Word formats (Table 4.1) -/

/-- S-R. -/
def sr (maj : BitVec 6) (d a b : BitVec 5) (f : BitVec 11) : IWord := maj ++ d ++ a ++ b ++ f

/-- S-I and S-B. -/
def si (maj : BitVec 6) (d a : BitVec 5) (i : BitVec 16) : IWord := maj ++ d ++ a ++ i

/-- S-J. -/
def sj (maj : BitVec 6) (o : BitVec 26) : IWord := maj ++ o

/-- V-R. -/
def vr (maj : BitVec 6) (d a b : BitVec 5) (ea eb : Bool) (msk : BitVec 3) (f : BitVec 6) : IWord :=
  maj ++ d ++ a ++ b ++ BitVec.ofBool ea ++ BitVec.ofBool eb ++ msk ++ f

/-- V-M (mode and eew in `f`) and V-A (op in `f`). -/
def vm (maj : BitVec 6) (d a b : BitVec 5) (ch : Bool) (msk : BitVec 3) (f : BitVec 4) (k : BitVec 3) : IWord :=
  maj ++ d ++ a ++ b ++ BitVec.ofBool ch ++ msk ++ f ++ k

/-- The prefix word (Table 4.4). -/
def Pfx.encode (p : Pfx) : IWord :=
  0x3E#6 ++ p.c ++ BitVec.ofBool p.cv ++ p.type ++ p.rnd ++ p.mask ++ BitVec.ofBool p.mv ++ BitVec.ofBool p.z
    ++ BitVec.ofBool p.pv ++ BitVec.ofBool p.sat ++ 0#6

/-! ## Encoding -/

/-- The word of an instruction, without its prefix; none for an event, which has no word. -/
def encodeWord : Instr → Option IWord
  | .add d a b => some (sr 0x01#6 d a b 0#11)
  | .sub d a b => some (sr 0x01#6 d a b 1#11)
  | .and d a b => some (sr 0x01#6 d a b 2#11)
  | .or d a b => some (sr 0x01#6 d a b 3#11)
  | .xor d a b => some (sr 0x01#6 d a b 4#11)
  | .andn d a b => some (sr 0x01#6 d a b 5#11)
  | .orn d a b => some (sr 0x01#6 d a b 6#11)
  | .sll d a b => some (sr 0x01#6 d a b 7#11)
  | .srl d a b => some (sr 0x01#6 d a b 8#11)
  | .sra d a b => some (sr 0x01#6 d a b 9#11)
  | .rol d a b => some (sr 0x01#6 d a b 10#11)
  | .ror d a b => some (sr 0x01#6 d a b 11#11)
  | .slt d a b => some (sr 0x01#6 d a b 12#11)
  | .sltn d a b => some (sr 0x01#6 d a b 13#11)
  | .min d a b => some (sr 0x01#6 d a b 14#11)
  | .max d a b => some (sr 0x01#6 d a b 15#11)
  | .minn d a b => some (sr 0x01#6 d a b 16#11)
  | .maxn d a b => some (sr 0x01#6 d a b 17#11)
  | .mul d a b => some (sr 0x01#6 d a b 18#11)
  | .mulh d a b => some (sr 0x01#6 d a b 19#11)
  | .mulhn d a b => some (sr 0x01#6 d a b 20#11)
  | .div d a b => some (sr 0x01#6 d a b 21#11)
  | .divn d a b => some (sr 0x01#6 d a b 22#11)
  | .rem d a b => some (sr 0x01#6 d a b 23#11)
  | .remn d a b => some (sr 0x01#6 d a b 24#11)
  | .clz d a => some (sr 0x01#6 d a 0#5 25#11)
  | .ctz d a => some (sr 0x01#6 d a 0#5 26#11)
  | .popc d a => some (sr 0x01#6 d a 0#5 27#11)
  | .bswp d a => some (sr 0x01#6 d a 0#5 28#11)
  | .sext d a b => some (sr 0x01#6 d a b 29#11)
  | .zext d a b => some (sr 0x01#6 d a b 30#11)
  | .selnz d a b => some (sr 0x01#6 d a b 31#11)
  | .addi d a i => some (si 0x02#6 d a i)
  | .andi d a i => some (si 0x03#6 d a i)
  | .ori d a i => some (si 0x04#6 d a i)
  | .xori d a i => some (si 0x05#6 d a i)
  | .slli d a n => some (si 0x06#6 d a (0#10 ++ n))
  | .srli d a n => some (si 0x06#6 d a (256#10 ++ n))
  | .srai d a n => some (si 0x06#6 d a (512#10 ++ n))
  | .rori d a n => some (si 0x06#6 d a (768#10 ++ n))
  | .slti d a i => some (si 0x07#6 d a i)
  | .sltni d a i => some (si 0x08#6 d a i)
  | .ldhi d i => some (si 0x09#6 d 0#5 i)
  | .addpc d i => some (si 0x0A#6 d 0#5 i)
  | .ldb d a i => some (si 0x0B#6 d a i)
  | .ldbn d a i => some (si 0x0C#6 d a i)
  | .ldh d a i => some (si 0x0D#6 d a i)
  | .ldhn d a i => some (si 0x0E#6 d a i)
  | .ldw d a i => some (si 0x0F#6 d a i)
  | .ldwn d a i => some (si 0x10#6 d a i)
  | .ldd d a i => some (si 0x11#6 d a i)
  | .stb d a i => some (si 0x12#6 d a i)
  | .sth d a i => some (si 0x13#6 d a i)
  | .stw d a i => some (si 0x14#6 d a i)
  | .std d a i => some (si 0x15#6 d a i)
  | .beq a b o => some (si 0x16#6 a b o)
  | .bne a b o => some (si 0x17#6 a b o)
  | .blt a b o => some (si 0x18#6 a b o)
  | .bge a b o => some (si 0x19#6 a b o)
  | .bltn a b o => some (si 0x1A#6 a b o)
  | .bgen a b o => some (si 0x1B#6 a b o)
  | .jal o => some (sj 0x1C#6 o)
  | .jalr d a i => some (si 0x1D#6 d a i)
  | .fadd d a b r p => some (sr 0x1E#6 d a b (0#1 ++ r ++ BitVec.ofBool p ++ 0#6))
  | .fsub d a b r p => some (sr 0x1E#6 d a b (0#1 ++ r ++ BitVec.ofBool p ++ 1#6))
  | .fmul d a b r p => some (sr 0x1E#6 d a b (0#1 ++ r ++ BitVec.ofBool p ++ 2#6))
  | .fdiv d a b r p => some (sr 0x1E#6 d a b (0#1 ++ r ++ BitVec.ofBool p ++ 3#6))
  | .fsqrt d a r p => some (sr 0x1E#6 d a 0#5 (0#1 ++ r ++ BitVec.ofBool p ++ 4#6))
  | .fma d a b r p => some (sr 0x1E#6 d a b (0#1 ++ r ++ BitVec.ofBool p ++ 5#6))
  | .fmin d a b p => some (sr 0x1E#6 d a b (0#4 ++ BitVec.ofBool p ++ 6#6))
  | .fmax d a b p => some (sr 0x1E#6 d a b (0#4 ++ BitVec.ofBool p ++ 7#6))
  | .feq d a b p => some (sr 0x1E#6 d a b (0#4 ++ BitVec.ofBool p ++ 8#6))
  | .flt d a b p => some (sr 0x1E#6 d a b (0#4 ++ BitVec.ofBool p ++ 9#6))
  | .fle d a b p => some (sr 0x1E#6 d a b (0#4 ++ BitVec.ofBool p ++ 10#6))
  | .fclass d a p => some (sr 0x1E#6 d a 0#5 (0#4 ++ BitVec.ofBool p ++ 11#6))
  | .fcvtff d a r p => some (sr 0x1E#6 d a 0#5 (0#1 ++ r ++ BitVec.ofBool p ++ 12#6))
  | .fcvti d a r p => some (sr 0x1E#6 d a 1#5 (0#1 ++ r ++ BitVec.ofBool p ++ 12#6))
  | .fcvtn d a r p => some (sr 0x1E#6 d a 2#5 (0#1 ++ r ++ BitVec.ofBool p ++ 12#6))
  | .fcvtw d a r p => some (sr 0x1E#6 d a 3#5 (0#1 ++ r ++ BitVec.ofBool p ++ 12#6))
  | .fcvtwn d a r p => some (sr 0x1E#6 d a 4#5 (0#1 ++ r ++ BitVec.ofBool p ++ 12#6))
  | .fcvtif d a r p => some (sr 0x1E#6 d a 5#5 (0#1 ++ r ++ BitVec.ofBool p ++ 12#6))
  | .fcvtnf d a r p => some (sr 0x1E#6 d a 6#5 (0#1 ++ r ++ BitVec.ofBool p ++ 12#6))
  | .fsgn d a b p => some (sr 0x1E#6 d a b (0#4 ++ BitVec.ofBool p ++ 13#6))
  | .fsgnn d a b p => some (sr 0x1E#6 d a b (1#4 ++ BitVec.ofBool p ++ 13#6))
  | .fsgnx d a b p => some (sr 0x1E#6 d a b (2#4 ++ BitVec.ofBool p ++ 13#6))
  | .amoadd d a b s q l w => some (sr 0x1F#6 d a b (s ++ BitVec.ofBool q ++ BitVec.ofBool l ++ BitVec.ofBool w ++ 0#5))
  | .amoand d a b s q l w => some (sr 0x1F#6 d a b (s ++ BitVec.ofBool q ++ BitVec.ofBool l ++ BitVec.ofBool w ++ 1#5))
  | .amoor d a b s q l w => some (sr 0x1F#6 d a b (s ++ BitVec.ofBool q ++ BitVec.ofBool l ++ BitVec.ofBool w ++ 2#5))
  | .amoxor d a b s q l w => some (sr 0x1F#6 d a b (s ++ BitVec.ofBool q ++ BitVec.ofBool l ++ BitVec.ofBool w ++ 3#5))
  | .amomin d a b s q l w => some (sr 0x1F#6 d a b (s ++ BitVec.ofBool q ++ BitVec.ofBool l ++ BitVec.ofBool w ++ 4#5))
  | .amomax d a b s q l w => some (sr 0x1F#6 d a b (s ++ BitVec.ofBool q ++ BitVec.ofBool l ++ BitVec.ofBool w ++ 5#5))
  | .amominn d a b s q l w => some (sr 0x1F#6 d a b (s ++ BitVec.ofBool q ++ BitVec.ofBool l ++ BitVec.ofBool w ++ 6#5))
  | .amomaxn d a b s q l w => some (sr 0x1F#6 d a b (s ++ BitVec.ofBool q ++ BitVec.ofBool l ++ BitVec.ofBool w ++ 7#5))
  | .amoswp d a b s q l w => some (sr 0x1F#6 d a b (s ++ BitVec.ofBool q ++ BitVec.ofBool l ++ BitVec.ofBool w ++ 8#5))
  | .amofadd d a b s q l w => some (sr 0x1F#6 d a b (s ++ BitVec.ofBool q ++ BitVec.ofBool l ++ BitVec.ofBool w ++ 9#5))
  | .cas d a b s q l w => some (sr 0x1F#6 d a b (s ++ BitVec.ofBool q ++ BitVec.ofBool l ++ BitVec.ofBool w ++ 10#5))
  | .cas2 d a b s q l => some (sr 0x1F#6 d a b (s ++ BitVec.ofBool q ++ BitVec.ofBool l ++ 11#6))
  | .lda d a s w => some (sr 0x1F#6 d a 0#5 (s ++ 0#2 ++ BitVec.ofBool w ++ 12#5))
  | .strel d a s w => some (sr 0x1F#6 d a 0#5 (s ++ 0#2 ++ BitVec.ofBool w ++ 13#5))
  | .fence s q l => some (sr 0x1F#6 0#5 0#5 0#5 (s ++ BitVec.ofBool q ++ BitVec.ofBool l ++ 14#6))
  | .vdrain k s q l => some (sr 0x1F#6 0#5 0#5 (k.setWidth 5) (s ++ BitVec.ofBool q ++ BitVec.ofBool l ++ 15#6))
  | .barinit a b s => some (sr 0x20#6 0#5 a b (0#2 ++ s ++ 0#6))
  | .barjoin a => some (sr 0x20#6 0#5 a 0#5 1#11)
  | .barleave a => some (sr 0x20#6 0#5 a 0#5 2#11)
  | .bararr d a => some (sr 0x20#6 d a 0#5 3#11)
  | .barwait d a b => some (sr 0x20#6 d a b 4#11)
  | .barsyn d a => some (sr 0x20#6 d a 0#5 5#11)
  | .kwait k => some (sr 0x20#6 0#5 0#5 (k.setWidth 5) 6#11)
  | .krd d k => some (sr 0x20#6 d 0#5 (k.setWidth 5) 7#11)
  | .kset d a k => some (sr 0x20#6 d a (k.setWidth 5) 8#11)
  | .kstat d k => some (sr 0x20#6 d 0#5 (k.setWidth 5) 9#11)
  | .pause => some (sr 0x20#6 0#5 0#5 0#5 10#11)
  | .yield => some (sr 0x20#6 0#5 0#5 0#5 11#11)
  | .watch d a b => some (sr 0x20#6 d a b 12#11)
  | .unwatch d a => some (sr 0x20#6 d a 0#5 13#11)
  | .vwarm d a b m => some (sr 0x20#6 d a b (0#2 ++ m ++ 14#6))
  | .waitany d a b => some (sr 0x20#6 d a b 15#11)
  | .phase d => some (sr 0x20#6 d 0#5 0#5 16#11)
  | .launch d a b s => some (sr 0x20#6 d a b (0#2 ++ s ++ 17#6))
  | .cancel d a n => some (sr 0x20#6 d a 0#5 (0#3 ++ n ++ 18#6))
  | .exit a s => some (sr 0x20#6 0#5 a 0#5 (0#2 ++ s ++ 19#6))
  | .trap n h => some (sr 0x21#6 0#5 0#5 n (h ++ 0#6))
  | .eret => some (sr 0x21#6 0#5 0#5 0#5 1#11)
  | .srd d n h => some (sr 0x21#6 d 0#5 n (h ++ 2#6))
  | .swr d a n h => some (sr 0x21#6 d a n (h ++ 3#6))
  | .sset d a n h => some (sr 0x21#6 d a n (h ++ 4#6))
  | .sclr d a n h => some (sr 0x21#6 d a n (h ++ 5#6))
  | .svc n h => some (sr 0x21#6 0#5 0#5 n (h ++ 6#6))
  | .linewb a => some (sr 0x21#6 0#5 a 0#5 7#11)
  | .lineinv a => some (sr 0x21#6 0#5 a 0#5 8#11)
  | .tlbsh d a k => some (sr 0x21#6 d a 0#5 (k ++ 9#6))
  | .fencei => some (sr 0x21#6 0#5 0#5 0#5 10#11)
  | .wfi => some (sr 0x21#6 0#5 0#5 0#5 11#11)
  | .halt => some (sr 0x21#6 0#5 0#5 0#5 12#11)
  | .vclaim _ d a b => some (vr 0x22#6 d a b false false 0#3 0#6)
  | .vrel _ => some (vr 0x22#6 0#5 0#5 0#5 false false 0#3 1#6)
  | .setvl _ d a => some (vr 0x22#6 d a 0#5 false false 0#3 2#6)
  | .setvm _ d a b => some (vr 0x22#6 d a b false false 0#3 3#6)
  | .vspill _ d a => some (vr 0x22#6 d a 0#5 false false 0#3 4#6)
  | .vfill _ d a => some (vr 0x22#6 d a 0#5 false false 0#3 5#6)
  | .zspill _ d a => some (vr 0x22#6 (d.setWidth 5) a 0#5 false false 0#3 6#6)
  | .zfill _ d a => some (vr 0x22#6 (d.setWidth 5) a 0#5 false false 0#3 7#6)
  | .vadd o => some (vr 0x23#6 o.d o.a o.b o.ea o.eb o.msk 0#6)
  | .vsub o => some (vr 0x23#6 o.d o.a o.b o.ea o.eb o.msk 1#6)
  | .vrsub o => some (vr 0x23#6 o.d o.a o.b o.ea o.eb o.msk 2#6)
  | .vmul o => some (vr 0x23#6 o.d o.a o.b o.ea o.eb o.msk 3#6)
  | .vmulh o => some (vr 0x23#6 o.d o.a o.b o.ea o.eb o.msk 4#6)
  | .vmulhn o => some (vr 0x23#6 o.d o.a o.b o.ea o.eb o.msk 5#6)
  | .vdiv o => some (vr 0x23#6 o.d o.a o.b o.ea o.eb o.msk 6#6)
  | .vdivn o => some (vr 0x23#6 o.d o.a o.b o.ea o.eb o.msk 7#6)
  | .vrem o => some (vr 0x23#6 o.d o.a o.b o.ea o.eb o.msk 8#6)
  | .vremn o => some (vr 0x23#6 o.d o.a o.b o.ea o.eb o.msk 9#6)
  | .vmin o => some (vr 0x23#6 o.d o.a o.b o.ea o.eb o.msk 10#6)
  | .vmax o => some (vr 0x23#6 o.d o.a o.b o.ea o.eb o.msk 11#6)
  | .vminn o => some (vr 0x23#6 o.d o.a o.b o.ea o.eb o.msk 12#6)
  | .vmaxn o => some (vr 0x23#6 o.d o.a o.b o.ea o.eb o.msk 13#6)
  | .vand o => some (vr 0x23#6 o.d o.a o.b o.ea o.eb o.msk 14#6)
  | .vor o => some (vr 0x23#6 o.d o.a o.b o.ea o.eb o.msk 15#6)
  | .vxor o => some (vr 0x23#6 o.d o.a o.b o.ea o.eb o.msk 16#6)
  | .vsll o => some (vr 0x23#6 o.d o.a o.b o.ea o.eb o.msk 17#6)
  | .vsrl o => some (vr 0x23#6 o.d o.a o.b o.ea o.eb o.msk 18#6)
  | .vsra o => some (vr 0x23#6 o.d o.a o.b o.ea o.eb o.msk 19#6)
  | .vcmpeq o => some (vr 0x23#6 (o.d.setWidth 5) o.a o.b o.ea o.eb o.msk 20#6)
  | .vcmpne o => some (vr 0x23#6 (o.d.setWidth 5) o.a o.b o.ea o.eb o.msk 21#6)
  | .vcmplt o => some (vr 0x23#6 (o.d.setWidth 5) o.a o.b o.ea o.eb o.msk 22#6)
  | .vcmple o => some (vr 0x23#6 (o.d.setWidth 5) o.a o.b o.ea o.eb o.msk 23#6)
  | .vcmpltn o => some (vr 0x23#6 (o.d.setWidth 5) o.a o.b o.ea o.eb o.msk 24#6)
  | .vcmplen o => some (vr 0x23#6 (o.d.setWidth 5) o.a o.b o.ea o.eb o.msk 25#6)
  | .vmerge o => some (vr 0x23#6 o.d o.a o.b o.ea o.eb o.msk 26#6)
  | .vmv o => some (vr 0x23#6 o.d o.a 0#5 o.ea false o.msk 27#6)
  | .vbcast _ d a m => some (vr 0x23#6 d a 0#5 false false m 28#6)
  | .vid _ d m => some (vr 0x23#6 d 0#5 0#5 false false m 29#6)
  | .vext _ d a b x => some (vr 0x23#6 d a b x false 0#3 30#6)
  | .vins _ d a b => some (vr 0x23#6 d a b false false 0#3 31#6)
  | .vwmul o => some (vr 0x23#6 o.d o.a o.b o.ea o.eb o.msk 32#6)
  | .vwadd o => some (vr 0x23#6 o.d o.a o.b o.ea o.eb o.msk 33#6)
  | .vfadd o => some (vr 0x24#6 o.d o.a o.b o.ea o.eb o.msk 0#6)
  | .vfsub o => some (vr 0x24#6 o.d o.a o.b o.ea o.eb o.msk 1#6)
  | .vfmul o => some (vr 0x24#6 o.d o.a o.b o.ea o.eb o.msk 2#6)
  | .vfdiv o => some (vr 0x24#6 o.d o.a o.b o.ea o.eb o.msk 3#6)
  | .vfsqrt o => some (vr 0x24#6 o.d o.a 0#5 o.ea false o.msk 4#6)
  | .vfma o => some (vr 0x24#6 o.d o.a o.b o.ea o.eb o.msk 5#6)
  | .vfms o => some (vr 0x24#6 o.d o.a o.b o.ea o.eb o.msk 6#6)
  | .vfnma o => some (vr 0x24#6 o.d o.a o.b o.ea o.eb o.msk 7#6)
  | .vfmin o => some (vr 0x24#6 o.d o.a o.b o.ea o.eb o.msk 8#6)
  | .vfmax o => some (vr 0x24#6 o.d o.a o.b o.ea o.eb o.msk 9#6)
  | .vfabs o => some (vr 0x24#6 o.d o.a 0#5 o.ea false o.msk 10#6)
  | .vfneg o => some (vr 0x24#6 o.d o.a 0#5 o.ea false o.msk 11#6)
  | .vfcmpeq o => some (vr 0x24#6 (o.d.setWidth 5) o.a o.b o.ea o.eb o.msk 12#6)
  | .vfcmplt o => some (vr 0x24#6 (o.d.setWidth 5) o.a o.b o.ea o.eb o.msk 13#6)
  | .vfcmple o => some (vr 0x24#6 (o.d.setWidth 5) o.a o.b o.ea o.eb o.msk 14#6)
  | .vfclass o => some (vr 0x24#6 o.d o.a 0#5 o.ea false o.msk 15#6)
  | .vfrcp o => some (vr 0x24#6 o.d o.a 0#5 o.ea false o.msk 16#6)
  | .vfrsq o => some (vr 0x24#6 o.d o.a 0#5 o.ea false o.msk 17#6)
  | .vfex2 o => some (vr 0x24#6 o.d o.a 0#5 o.ea false o.msk 18#6)
  | .vflg2 o => some (vr 0x24#6 o.d o.a 0#5 o.ea false o.msk 19#6)
  | .vftnh o => some (vr 0x24#6 o.d o.a 0#5 o.ea false o.msk 20#6)
  | .vfsig o => some (vr 0x24#6 o.d o.a 0#5 o.ea false o.msk 21#6)
  | .vfexp o => some (vr 0x24#6 o.d o.a 0#5 o.ea false o.msk 22#6)
  | .vfscl o => some (vr 0x24#6 o.d o.a o.b o.ea o.eb o.msk 23#6)
  | .vcvt _ d a t x m => some (vr 0x25#6 d a (0#1 ++ t) x false m 0#6)
  | .vcvtef _ d a t x m => some (vr 0x25#6 d a (t.setWidth 5) x false m 1#6)
  | .vftoi _ d a t x m => some (vr 0x25#6 d a (0#1 ++ t) x false m 2#6)
  | .vitof _ d a t x m => some (vr 0x25#6 d a (0#1 ++ t) x false m 3#6)
  | .vredsum o => some (vr 0x26#6 o.d o.a o.b o.ea o.eb o.msk 0#6)
  | .vredmin o => some (vr 0x26#6 o.d o.a o.b o.ea o.eb o.msk 1#6)
  | .vredmax o => some (vr 0x26#6 o.d o.a o.b o.ea o.eb o.msk 2#6)
  | .vredminn o => some (vr 0x26#6 o.d o.a o.b o.ea o.eb o.msk 3#6)
  | .vredmaxn o => some (vr 0x26#6 o.d o.a o.b o.ea o.eb o.msk 4#6)
  | .vredand o => some (vr 0x26#6 o.d o.a o.b o.ea o.eb o.msk 5#6)
  | .vredor o => some (vr 0x26#6 o.d o.a o.b o.ea o.eb o.msk 6#6)
  | .vredxor o => some (vr 0x26#6 o.d o.a o.b o.ea o.eb o.msk 7#6)
  | .vfredsum o => some (vr 0x26#6 o.d o.a o.b o.ea o.eb o.msk 8#6)
  | .vfredmin o => some (vr 0x26#6 o.d o.a o.b o.ea o.eb o.msk 9#6)
  | .vfredmax o => some (vr 0x26#6 o.d o.a o.b o.ea o.eb o.msk 10#6)
  | .vscan o => some (vr 0x26#6 o.d o.a o.b o.ea o.eb o.msk 11#6)
  | .vscanx o => some (vr 0x26#6 o.d o.a o.b o.ea o.eb o.msk 12#6)
  | .vfscan o => some (vr 0x26#6 o.d o.a o.b o.ea o.eb o.msk 13#6)
  | .vslup _ d a b x m => some (vr 0x26#6 d a b x false m 14#6)
  | .vsldn _ d a b x m => some (vr 0x26#6 d a b x false m 15#6)
  | .vperm o => some (vr 0x26#6 o.d o.a o.b o.ea o.eb o.msk 16#6)
  | .vpack o => some (vr 0x26#6 o.d o.a 0#5 o.ea false o.msk 17#6)
  | .vunpack o => some (vr 0x26#6 o.d o.a 0#5 o.ea false o.msk 18#6)
  | .vxchg _ d a b x m => some (vr 0x26#6 d a b x false m 19#6)
  | .vrev o => some (vr 0x26#6 o.d o.a 0#5 o.ea false o.msk 20#6)
  | .mand _ d a b => some (vr 0x27#6 (d.setWidth 5) (a.setWidth 5) (b.setWidth 5) false false 0#3 0#6)
  | .mor _ d a b => some (vr 0x27#6 (d.setWidth 5) (a.setWidth 5) (b.setWidth 5) false false 0#3 1#6)
  | .mxor _ d a b => some (vr 0x27#6 (d.setWidth 5) (a.setWidth 5) (b.setWidth 5) false false 0#3 2#6)
  | .mandn _ d a b => some (vr 0x27#6 (d.setWidth 5) (a.setWidth 5) (b.setWidth 5) false false 0#3 3#6)
  | .mnot _ d a => some (vr 0x27#6 (d.setWidth 5) (a.setWidth 5) 0#5 false false 0#3 4#6)
  | .mset _ d => some (vr 0x27#6 (d.setWidth 5) 0#5 0#5 false false 0#3 5#6)
  | .mclr _ d => some (vr 0x27#6 (d.setWidth 5) 0#5 0#5 false false 0#3 6#6)
  | .mpop _ d a m => some (vr 0x27#6 d (a.setWidth 5) 0#5 false false m 7#6)
  | .mfirst _ d a m => some (vr 0x27#6 d (a.setWidth 5) 0#5 false false m 8#6)
  | .mfromv _ d a x m => some (vr 0x27#6 (d.setWidth 5) a 0#5 x false m 9#6)
  | .mtov _ d a m => some (vr 0x27#6 d (a.setWidth 5) 0#5 false false m 10#6)
  | .msbf _ d a m => some (vr 0x27#6 (d.setWidth 5) (a.setWidth 5) 0#5 false false m 11#6)
  | .vld _ d a m e k => some (vm 0x28#6 d a 0#5 false m (0#2 ++ e) k)
  | .vlds _ d a b m e k => some (vm 0x28#6 d a b false m (1#2 ++ e) k)
  | .vldx _ d a b c m e k => some (vm 0x28#6 d a b c m (2#2 ++ e) k)
  | .vldff _ d a m e => some (vm 0x28#6 d a 0#5 false m (3#2 ++ e) 0#3)
  | .vst _ d a c m e k => some (vm 0x29#6 d a 0#5 c m (0#2 ++ e) k)
  | .vsts _ d a b c m e k => some (vm 0x29#6 d a b c m (1#2 ++ e) k)
  | .vstx _ d a b c m e k => some (vm 0x29#6 d a b c m (2#2 ++ e) k)
  | .vamoadd o => some (vm 0x2A#6 o.d o.a o.b o.ch o.msk 0#4 o.k)
  | .vamoand o => some (vm 0x2A#6 o.d o.a o.b o.ch o.msk 1#4 o.k)
  | .vamoor o => some (vm 0x2A#6 o.d o.a o.b o.ch o.msk 2#4 o.k)
  | .vamoxor o => some (vm 0x2A#6 o.d o.a o.b o.ch o.msk 3#4 o.k)
  | .vamomin o => some (vm 0x2A#6 o.d o.a o.b o.ch o.msk 4#4 o.k)
  | .vamomax o => some (vm 0x2A#6 o.d o.a o.b o.ch o.msk 5#4 o.k)
  | .vamominn o => some (vm 0x2A#6 o.d o.a o.b o.ch o.msk 6#4 o.k)
  | .vamomaxn o => some (vm 0x2A#6 o.d o.a o.b o.ch o.msk 7#4 o.k)
  | .vamofadd o => some (vm 0x2A#6 o.d o.a o.b o.ch o.msk 8#4 o.k)
  | .vamofmin o => some (vm 0x2A#6 o.d o.a o.b o.ch o.msk 9#4 o.k)
  | .vamofmax o => some (vm 0x2A#6 o.d o.a o.b o.ch o.msk 10#4 o.k)
  | .vamoswp o => some (vm 0x2A#6 o.d o.a o.b o.ch o.msk 11#4 o.k)
  | .vapnd _ d a b c m k => some (vm 0x2B#6 d a b c m 0#4 k)
  | .sealPage _ s a k => some (vm 0x2B#6 (0#2 ++ s) a 0#5 false 0#3 1#4 k)
  | .inktail _ d a => some (vm 0x2B#6 d a 0#5 false 0#3 2#4 0#3)
  | .winit _ d a c m k => some (vm 0x2B#6 d a 0#5 c m 3#4 k)
  | .wdep _ d a c m k => some (vm 0x2B#6 d a 0#5 c m 4#4 k)
  | .wdepx _ d a b c m k => some (vm 0x2B#6 d a b c m 5#4 k)
  | .wread _ d a m k => some (vm 0x2B#6 d a 0#5 false m 6#4 k)
  | .wdrain _ d a m k => some (vm 0x2B#6 d a 0#5 false m 7#4 k)
  | .olgath _ d a b y m => some (vr 0x2C#6 (d.setWidth 5) a b false y m 0#6)
  | .zrank _ d a b x y m => some (vr 0x2C#6 (d.setWidth 5) a b x y m 1#6)
  | .mblk _ d b => some (vr 0x2C#6 (d.setWidth 5) 0#5 b false false 0#3 2#6)
  | .zzero _ d => some (vr 0x2C#6 (d.setWidth 5) 0#5 0#5 false false 0#3 3#6)
  | .zread _ d a b m => some (vr 0x2C#6 d (a.setWidth 5) b false false m 4#6)
  | .zwrite _ d a b x m => some (vr 0x2C#6 (d.setWidth 5) a b x false m 5#6)
  | .zdep _ d a b m => some (vr 0x2C#6 d (a.setWidth 5) b false false m 6#6)
  | .zdim _ d => some (vr 0x2C#6 d 0#5 0#5 false false 0#3 7#6)
  | .copy a s q l k => some (sr 0x2D#6 0#5 a 0#5 (s ++ BitVec.ofBool q ++ BitVec.ofBool l ++ k ++ 0#3))
  | .coll a b s q l k => some (sr 0x2D#6 0#5 a b (s ++ BitVec.ofBool q ++ BitVec.ofBool l ++ k ++ 1#3))
  | .flight a b s q l k => some (sr 0x2D#6 0#5 a b (s ++ BitVec.ofBool q ++ BitVec.ofBool l ++ k ++ 2#3))
  | .ixg a s q l k => some (sr 0x2D#6 0#5 a 0#5 (s ++ BitVec.ofBool q ++ BitVec.ofBool l ++ k ++ 3#3))
  | .rowin d a b s k => some (sr 0x2D#6 d a b (s ++ 0#2 ++ k ++ 4#3))
  | .rowout a => some (sr 0x2D#6 0#5 a 0#5 5#11)
  | .storeErrorResponse _ | .storeErrorTrap | .vectorMemoryCompletion _ | .tailUnitAppend _ _ _ 
  | .sealRequest _ | .sealingComplete _ | .wellLineStep _ | .wellLineFill _ _ | .wellLineEvict _ 
  | .wellLineWriteback _ _ | .inkPageFree _ | .inkFreeDrainDone _ | .replicaCreate _ _ | .replicaCopyDone _ _ 
  | .replicaReclaim _ _ | .replicaReclaimDone _ _ | .engineCommandCompletion _ | .rowinFillDone _ 
  | .waitEntryFire _ | .landingTrigger _ _ | .landingAction _ _ | .barrierWaitEnd | .kwaitEnd | .waitanyEnd 
  | .wfiWake | .phaseComplete _ _ | .pauseExpiry | .unitKill _ _ _ | .dispatcherStep _ 
  | .preemptionTimeout _ _ _ | .launchAdmission _ _ | .launchCompletion _ _ | .ageBoost _ _ 
  | .qptrTailWrite _ _ _ | .qcfgWrite _ _ _ | .contextSave _ _ _ | .resumption _ _ _ _ _ 
  | .faultRunAheadStop _ | .spanPositionLost _ | .lanePoolCapWrite _ _ _ | .trfctlClear _ | .trfctlFreeze _ _ 
  | .fqrespRetry _ _ | .fqrespForward _ _ | .fqrespComplete _ _ | .shootctlGo _ _ _ | .shootdownDone _ 
  | .hownWrite _ _ | .hallWarmReset _ | .hallForcedReset _ | .hallRelease _ | .hallFence _ _ 
  | .hallHangTimeout _ | .gwctlWrite _ _ _ | .galleryRevokeDrainDone _ _ | .violationLogClear _ | .vfReset _ 
  | .vfResetFlitTimeout _ _ | .vfResetComplete _ | .vfvcapWrite _ _ | .portcfgGuarWrite _ _ _ 
  | .hostPortTrain _ _ _ _ _ _ | .hostPortDown _ | .hostSnoop _ _ | .hostCxlMemRequest _ _ _ | .collArming _ 
  | .splitFlit _ | .abortFlit _ _ | .rruContribution _ _ _ | .flightTransfer _ _ | .pathWeightMeasure _ 
  | .wavelengthDark _ _ | .relayEstablished _ _ | .pathLost _ _ | .wavelengthRelit _ _ 
  | .ixgRemoteRowRequest _ _ | .extPortTrain _ _ _ _ _ _ | .extFlitReceive _ _ _ _ _ _ | .nakReceived _ _ _ 
  | .ackReceived _ _ _ | .portRetrain _ _ | .retrainTimeout _ _ | .epkctlSwitch _ _ | .keyLow _ _ 
  | .keyExhausted _ _ | .keyExhaustedTimeout _ _ | .fabricPacketForward _ _ _ _ | .ptpTimeFlit _ 
  | .lrsetWrite _ _ _ _ | .mpsetWrite _ _ _ | .scrubLine _ _ _ _ _ | .scrubPauseEnd _ 
  | .memoryUncorrectableError _ _ _ | .registerUncorrectableError _ | .errorLogClear _ | .attestationGo _ 
  | .attestationReportDone _ | .keyRecord _ | .powerOn | .powerCapAdjust _ _ _ | .thermalTrip _ 
  | .hctlStop _ _ _ | .hctlRun _ _ _ | .hctlRecov _ _ _ | .censusWrite _ _ | .registerWrite _ _ _ _ 
  | .illegalInstruction _ _ | .instructionFetchFault _ _ | .postedWritePerformed _ | .wellPageMap _ _ 
  | .inkFrameMap _ _ => none

/-- The words of an instruction: its prefix word, if it has one, and its word. -/
def encode (i : Instr) : Option (Option IWord × IWord) :=
  (encodeWord i).map fun w => (i.pfx.map Pfx.encode, w)

/-! ## Decoding -/

/-- Why words are no instruction (R69, Table 4.5). -/
inductive DecodeError where
  /-- A major, func6, func11, op or mode value that Table 4.6 does not assign, or VCVTEF or ZDEP alone. -/
  | reserved
  /-- A field that must be zero is not, or a register field is out of its range (R61, R63). -/
  | badField
  /-- A prefix before a word outside the vector majors, or before a prefix. -/
  | misplacedPrefix
  /-- A pairing that R67 rules out, a scope of 6 or 7, or an unassigned number. -/
  | illFormed
  /-- The bytes end before the instruction does. -/
  | truncated
deriving DecidableEq, Repr

/-- The major of a prefix word. -/
def isPfx (w : IWord) : Bool := w.extractLsb' 26 6 == 0x3E#6

/-- A word of one of the vector majors (R66). -/
def isVector (w : IWord) : Bool := 0x22#6 ≤ w.extractLsb' 26 6 && w.extractLsb' 26 6 ≤ 0x2C#6

/-- The fields of a prefix word (Table 4.4). -/
def Pfx.decode (w : IWord) : Pfx where
  c := w.extractLsb' 21 5
  cv := w.getLsbD 20
  type := w.extractLsb' 16 4
  rnd := w.extractLsb' 13 3
  mask := w.extractLsb' 10 3
  mv := w.getLsbD 9
  z := w.getLsbD 8
  pv := w.getLsbD 7
  sat := w.getLsbD 6

/-- V-R fields with two sources. -/
def vop3 (p : Option Pfx) (w : IWord) : VOp3 :=
  ⟨p, w.extractLsb' 21 5, w.extractLsb' 16 5, w.extractLsb' 11 5, w.getLsbD 10, w.getLsbD 9, w.extractLsb' 6 3⟩

/-- V-R fields with one source. -/
def vop2 (p : Option Pfx) (w : IWord) : VOp2 :=
  ⟨p, w.extractLsb' 21 5, w.extractLsb' 16 5, w.getLsbD 10, w.extractLsb' 6 3⟩

/-- V-R fields of a compare. -/
def vcmpOp (p : Option Pfx) (w : IWord) : VCmpOp :=
  ⟨p, w.extractLsb' 21 3, w.extractLsb' 16 5, w.extractLsb' 11 5, w.getLsbD 10, w.getLsbD 9, w.extractLsb' 6 3⟩

/-- V-A fields of a VAMO. -/
def vamoOp (p : Option Pfx) (w : IWord) : VAmoOp :=
  ⟨p, w.extractLsb' 21 5, w.extractLsb' 16 5, w.extractLsb' 11 5, w.getLsbD 10, w.extractLsb' 7 3, w.extractLsb' 0 3⟩

/-- Major 0x01 (Table 4.6). -/
def decodeSalu (w : IWord) : Option Instr :=
  match w.extractLsb' 0 5 with
  | 0#5 => some (.add (w.extractLsb' 21 5) (w.extractLsb' 16 5) (w.extractLsb' 11 5))
  | 1#5 => some (.sub (w.extractLsb' 21 5) (w.extractLsb' 16 5) (w.extractLsb' 11 5))
  | 2#5 => some (.and (w.extractLsb' 21 5) (w.extractLsb' 16 5) (w.extractLsb' 11 5))
  | 3#5 => some (.or (w.extractLsb' 21 5) (w.extractLsb' 16 5) (w.extractLsb' 11 5))
  | 4#5 => some (.xor (w.extractLsb' 21 5) (w.extractLsb' 16 5) (w.extractLsb' 11 5))
  | 5#5 => some (.andn (w.extractLsb' 21 5) (w.extractLsb' 16 5) (w.extractLsb' 11 5))
  | 6#5 => some (.orn (w.extractLsb' 21 5) (w.extractLsb' 16 5) (w.extractLsb' 11 5))
  | 7#5 => some (.sll (w.extractLsb' 21 5) (w.extractLsb' 16 5) (w.extractLsb' 11 5))
  | 8#5 => some (.srl (w.extractLsb' 21 5) (w.extractLsb' 16 5) (w.extractLsb' 11 5))
  | 9#5 => some (.sra (w.extractLsb' 21 5) (w.extractLsb' 16 5) (w.extractLsb' 11 5))
  | 10#5 => some (.rol (w.extractLsb' 21 5) (w.extractLsb' 16 5) (w.extractLsb' 11 5))
  | 11#5 => some (.ror (w.extractLsb' 21 5) (w.extractLsb' 16 5) (w.extractLsb' 11 5))
  | 12#5 => some (.slt (w.extractLsb' 21 5) (w.extractLsb' 16 5) (w.extractLsb' 11 5))
  | 13#5 => some (.sltn (w.extractLsb' 21 5) (w.extractLsb' 16 5) (w.extractLsb' 11 5))
  | 14#5 => some (.min (w.extractLsb' 21 5) (w.extractLsb' 16 5) (w.extractLsb' 11 5))
  | 15#5 => some (.max (w.extractLsb' 21 5) (w.extractLsb' 16 5) (w.extractLsb' 11 5))
  | 16#5 => some (.minn (w.extractLsb' 21 5) (w.extractLsb' 16 5) (w.extractLsb' 11 5))
  | 17#5 => some (.maxn (w.extractLsb' 21 5) (w.extractLsb' 16 5) (w.extractLsb' 11 5))
  | 18#5 => some (.mul (w.extractLsb' 21 5) (w.extractLsb' 16 5) (w.extractLsb' 11 5))
  | 19#5 => some (.mulh (w.extractLsb' 21 5) (w.extractLsb' 16 5) (w.extractLsb' 11 5))
  | 20#5 => some (.mulhn (w.extractLsb' 21 5) (w.extractLsb' 16 5) (w.extractLsb' 11 5))
  | 21#5 => some (.div (w.extractLsb' 21 5) (w.extractLsb' 16 5) (w.extractLsb' 11 5))
  | 22#5 => some (.divn (w.extractLsb' 21 5) (w.extractLsb' 16 5) (w.extractLsb' 11 5))
  | 23#5 => some (.rem (w.extractLsb' 21 5) (w.extractLsb' 16 5) (w.extractLsb' 11 5))
  | 24#5 => some (.remn (w.extractLsb' 21 5) (w.extractLsb' 16 5) (w.extractLsb' 11 5))
  | 25#5 => some (.clz (w.extractLsb' 21 5) (w.extractLsb' 16 5))
  | 26#5 => some (.ctz (w.extractLsb' 21 5) (w.extractLsb' 16 5))
  | 27#5 => some (.popc (w.extractLsb' 21 5) (w.extractLsb' 16 5))
  | 28#5 => some (.bswp (w.extractLsb' 21 5) (w.extractLsb' 16 5))
  | 29#5 => some (.sext (w.extractLsb' 21 5) (w.extractLsb' 16 5) (w.extractLsb' 11 5))
  | 30#5 => some (.zext (w.extractLsb' 21 5) (w.extractLsb' 16 5) (w.extractLsb' 11 5))
  | 31#5 => some (.selnz (w.extractLsb' 21 5) (w.extractLsb' 16 5) (w.extractLsb' 11 5))
  | _ => none

/-- Major 0x06 (Table 4.6). -/
def decodeShi (w : IWord) : Option Instr :=
  match w.extractLsb' 14 2 with
  | 0#2 => some (.slli (w.extractLsb' 21 5) (w.extractLsb' 16 5) (w.extractLsb' 0 6))
  | 1#2 => some (.srli (w.extractLsb' 21 5) (w.extractLsb' 16 5) (w.extractLsb' 0 6))
  | 2#2 => some (.srai (w.extractLsb' 21 5) (w.extractLsb' 16 5) (w.extractLsb' 0 6))
  | 3#2 => some (.rori (w.extractLsb' 21 5) (w.extractLsb' 16 5) (w.extractLsb' 0 6))
  | _ => none

/-- Major 0x1E (Table 4.6). -/
def decodeSfp (w : IWord) : Option Instr :=
  match w.extractLsb' 0 6 with
  | 0#6 => some (.fadd (w.extractLsb' 21 5) (w.extractLsb' 16 5) (w.extractLsb' 11 5) (w.extractLsb' 7 3) (w.getLsbD 6))
  | 1#6 => some (.fsub (w.extractLsb' 21 5) (w.extractLsb' 16 5) (w.extractLsb' 11 5) (w.extractLsb' 7 3) (w.getLsbD 6))
  | 2#6 => some (.fmul (w.extractLsb' 21 5) (w.extractLsb' 16 5) (w.extractLsb' 11 5) (w.extractLsb' 7 3) (w.getLsbD 6))
  | 3#6 => some (.fdiv (w.extractLsb' 21 5) (w.extractLsb' 16 5) (w.extractLsb' 11 5) (w.extractLsb' 7 3) (w.getLsbD 6))
  | 4#6 => some (.fsqrt (w.extractLsb' 21 5) (w.extractLsb' 16 5) (w.extractLsb' 7 3) (w.getLsbD 6))
  | 5#6 => some (.fma (w.extractLsb' 21 5) (w.extractLsb' 16 5) (w.extractLsb' 11 5) (w.extractLsb' 7 3) (w.getLsbD 6))
  | 6#6 => some (.fmin (w.extractLsb' 21 5) (w.extractLsb' 16 5) (w.extractLsb' 11 5) (w.getLsbD 6))
  | 7#6 => some (.fmax (w.extractLsb' 21 5) (w.extractLsb' 16 5) (w.extractLsb' 11 5) (w.getLsbD 6))
  | 8#6 => some (.feq (w.extractLsb' 21 5) (w.extractLsb' 16 5) (w.extractLsb' 11 5) (w.getLsbD 6))
  | 9#6 => some (.flt (w.extractLsb' 21 5) (w.extractLsb' 16 5) (w.extractLsb' 11 5) (w.getLsbD 6))
  | 10#6 => some (.fle (w.extractLsb' 21 5) (w.extractLsb' 16 5) (w.extractLsb' 11 5) (w.getLsbD 6))
  | 11#6 => some (.fclass (w.extractLsb' 21 5) (w.extractLsb' 16 5) (w.getLsbD 6))
  | 12#6 =>
    match w.extractLsb' 11 5 with
    | 0#5 => some (.fcvtff (w.extractLsb' 21 5) (w.extractLsb' 16 5) (w.extractLsb' 7 3) (w.getLsbD 6))
    | 1#5 => some (.fcvti (w.extractLsb' 21 5) (w.extractLsb' 16 5) (w.extractLsb' 7 3) (w.getLsbD 6))
    | 2#5 => some (.fcvtn (w.extractLsb' 21 5) (w.extractLsb' 16 5) (w.extractLsb' 7 3) (w.getLsbD 6))
    | 3#5 => some (.fcvtw (w.extractLsb' 21 5) (w.extractLsb' 16 5) (w.extractLsb' 7 3) (w.getLsbD 6))
    | 4#5 => some (.fcvtwn (w.extractLsb' 21 5) (w.extractLsb' 16 5) (w.extractLsb' 7 3) (w.getLsbD 6))
    | 5#5 => some (.fcvtif (w.extractLsb' 21 5) (w.extractLsb' 16 5) (w.extractLsb' 7 3) (w.getLsbD 6))
    | 6#5 => some (.fcvtnf (w.extractLsb' 21 5) (w.extractLsb' 16 5) (w.extractLsb' 7 3) (w.getLsbD 6))
    | _ => none
  | 13#6 =>
    match w.extractLsb' 7 3 with
    | 0#3 => some (.fsgn (w.extractLsb' 21 5) (w.extractLsb' 16 5) (w.extractLsb' 11 5) (w.getLsbD 6))
    | 1#3 => some (.fsgnn (w.extractLsb' 21 5) (w.extractLsb' 16 5) (w.extractLsb' 11 5) (w.getLsbD 6))
    | 2#3 => some (.fsgnx (w.extractLsb' 21 5) (w.extractLsb' 16 5) (w.extractLsb' 11 5) (w.getLsbD 6))
    | _ => none
  | _ => none

/-- Major 0x1F (Table 4.6). -/
def decodeAtom (w : IWord) : Option Instr :=
  match w.extractLsb' 0 5 with
  | 0#5 => some (.amoadd (w.extractLsb' 21 5) (w.extractLsb' 16 5) (w.extractLsb' 11 5) (w.extractLsb' 8 3) (w.getLsbD 7) (w.getLsbD 6) (w.getLsbD 5))
  | 1#5 => some (.amoand (w.extractLsb' 21 5) (w.extractLsb' 16 5) (w.extractLsb' 11 5) (w.extractLsb' 8 3) (w.getLsbD 7) (w.getLsbD 6) (w.getLsbD 5))
  | 2#5 => some (.amoor (w.extractLsb' 21 5) (w.extractLsb' 16 5) (w.extractLsb' 11 5) (w.extractLsb' 8 3) (w.getLsbD 7) (w.getLsbD 6) (w.getLsbD 5))
  | 3#5 => some (.amoxor (w.extractLsb' 21 5) (w.extractLsb' 16 5) (w.extractLsb' 11 5) (w.extractLsb' 8 3) (w.getLsbD 7) (w.getLsbD 6) (w.getLsbD 5))
  | 4#5 => some (.amomin (w.extractLsb' 21 5) (w.extractLsb' 16 5) (w.extractLsb' 11 5) (w.extractLsb' 8 3) (w.getLsbD 7) (w.getLsbD 6) (w.getLsbD 5))
  | 5#5 => some (.amomax (w.extractLsb' 21 5) (w.extractLsb' 16 5) (w.extractLsb' 11 5) (w.extractLsb' 8 3) (w.getLsbD 7) (w.getLsbD 6) (w.getLsbD 5))
  | 6#5 => some (.amominn (w.extractLsb' 21 5) (w.extractLsb' 16 5) (w.extractLsb' 11 5) (w.extractLsb' 8 3) (w.getLsbD 7) (w.getLsbD 6) (w.getLsbD 5))
  | 7#5 => some (.amomaxn (w.extractLsb' 21 5) (w.extractLsb' 16 5) (w.extractLsb' 11 5) (w.extractLsb' 8 3) (w.getLsbD 7) (w.getLsbD 6) (w.getLsbD 5))
  | 8#5 => some (.amoswp (w.extractLsb' 21 5) (w.extractLsb' 16 5) (w.extractLsb' 11 5) (w.extractLsb' 8 3) (w.getLsbD 7) (w.getLsbD 6) (w.getLsbD 5))
  | 9#5 => some (.amofadd (w.extractLsb' 21 5) (w.extractLsb' 16 5) (w.extractLsb' 11 5) (w.extractLsb' 8 3) (w.getLsbD 7) (w.getLsbD 6) (w.getLsbD 5))
  | 10#5 => some (.cas (w.extractLsb' 21 5) (w.extractLsb' 16 5) (w.extractLsb' 11 5) (w.extractLsb' 8 3) (w.getLsbD 7) (w.getLsbD 6) (w.getLsbD 5))
  | 11#5 => some (.cas2 (w.extractLsb' 21 5) (w.extractLsb' 16 5) (w.extractLsb' 11 5) (w.extractLsb' 8 3) (w.getLsbD 7) (w.getLsbD 6))
  | 12#5 => some (.lda (w.extractLsb' 21 5) (w.extractLsb' 16 5) (w.extractLsb' 8 3) (w.getLsbD 5))
  | 13#5 => some (.strel (w.extractLsb' 21 5) (w.extractLsb' 16 5) (w.extractLsb' 8 3) (w.getLsbD 5))
  | 14#5 => some (.fence (w.extractLsb' 8 3) (w.getLsbD 7) (w.getLsbD 6))
  | 15#5 => some (.vdrain (w.extractLsb' 11 3) (w.extractLsb' 8 3) (w.getLsbD 7) (w.getLsbD 6))
  | _ => none

/-- Major 0x20 (Table 4.6). -/
def decodeSync (w : IWord) : Option Instr :=
  match w.extractLsb' 0 6 with
  | 0#6 => some (.barinit (w.extractLsb' 16 5) (w.extractLsb' 11 5) (w.extractLsb' 6 3))
  | 1#6 => some (.barjoin (w.extractLsb' 16 5))
  | 2#6 => some (.barleave (w.extractLsb' 16 5))
  | 3#6 => some (.bararr (w.extractLsb' 21 5) (w.extractLsb' 16 5))
  | 4#6 => some (.barwait (w.extractLsb' 21 5) (w.extractLsb' 16 5) (w.extractLsb' 11 5))
  | 5#6 => some (.barsyn (w.extractLsb' 21 5) (w.extractLsb' 16 5))
  | 6#6 => some (.kwait (w.extractLsb' 11 3))
  | 7#6 => some (.krd (w.extractLsb' 21 5) (w.extractLsb' 11 3))
  | 8#6 => some (.kset (w.extractLsb' 21 5) (w.extractLsb' 16 5) (w.extractLsb' 11 3))
  | 9#6 => some (.kstat (w.extractLsb' 21 5) (w.extractLsb' 11 3))
  | 10#6 => some .pause
  | 11#6 => some .yield
  | 12#6 => some (.watch (w.extractLsb' 21 5) (w.extractLsb' 16 5) (w.extractLsb' 11 5))
  | 13#6 => some (.unwatch (w.extractLsb' 21 5) (w.extractLsb' 16 5))
  | 14#6 => some (.vwarm (w.extractLsb' 21 5) (w.extractLsb' 16 5) (w.extractLsb' 11 5) (w.extractLsb' 6 3))
  | 15#6 => some (.waitany (w.extractLsb' 21 5) (w.extractLsb' 16 5) (w.extractLsb' 11 5))
  | 16#6 => some (.phase (w.extractLsb' 21 5))
  | 17#6 => some (.launch (w.extractLsb' 21 5) (w.extractLsb' 16 5) (w.extractLsb' 11 5) (w.extractLsb' 6 3))
  | 18#6 => some (.cancel (w.extractLsb' 21 5) (w.extractLsb' 16 5) (w.extractLsb' 6 2))
  | 19#6 => some (.exit (w.extractLsb' 16 5) (w.extractLsb' 6 3))
  | _ => none

/-- Major 0x21 (Table 4.6). -/
def decodeSys (w : IWord) : Option Instr :=
  match w.extractLsb' 0 6 with
  | 0#6 => some (.trap (w.extractLsb' 11 5) (w.extractLsb' 6 5))
  | 1#6 => some .eret
  | 2#6 => some (.srd (w.extractLsb' 21 5) (w.extractLsb' 11 5) (w.extractLsb' 6 5))
  | 3#6 => some (.swr (w.extractLsb' 21 5) (w.extractLsb' 16 5) (w.extractLsb' 11 5) (w.extractLsb' 6 5))
  | 4#6 => some (.sset (w.extractLsb' 21 5) (w.extractLsb' 16 5) (w.extractLsb' 11 5) (w.extractLsb' 6 5))
  | 5#6 => some (.sclr (w.extractLsb' 21 5) (w.extractLsb' 16 5) (w.extractLsb' 11 5) (w.extractLsb' 6 5))
  | 6#6 => some (.svc (w.extractLsb' 11 5) (w.extractLsb' 6 5))
  | 7#6 => some (.linewb (w.extractLsb' 16 5))
  | 8#6 => some (.lineinv (w.extractLsb' 16 5))
  | 9#6 => some (.tlbsh (w.extractLsb' 21 5) (w.extractLsb' 16 5) (w.extractLsb' 6 5))
  | 10#6 => some .fencei
  | 11#6 => some .wfi
  | 12#6 => some .halt
  | _ => none

/-- Major 0x22 (Table 4.6). -/
def decodeVctl (p : Option Pfx) (w : IWord) : Option Instr :=
  match w.extractLsb' 0 6 with
  | 0#6 => some (.vclaim p (w.extractLsb' 21 5) (w.extractLsb' 16 5) (w.extractLsb' 11 5))
  | 1#6 => some (.vrel p)
  | 2#6 => some (.setvl p (w.extractLsb' 21 5) (w.extractLsb' 16 5))
  | 3#6 => some (.setvm p (w.extractLsb' 21 5) (w.extractLsb' 16 5) (w.extractLsb' 11 5))
  | 4#6 => some (.vspill p (w.extractLsb' 21 5) (w.extractLsb' 16 5))
  | 5#6 => some (.vfill p (w.extractLsb' 21 5) (w.extractLsb' 16 5))
  | 6#6 => some (.zspill p (w.extractLsb' 21 2) (w.extractLsb' 16 5))
  | 7#6 => some (.zfill p (w.extractLsb' 21 2) (w.extractLsb' 16 5))
  | _ => none

/-- Major 0x23 (Table 4.6). -/
def decodeVint (p : Option Pfx) (w : IWord) : Option Instr :=
  match w.extractLsb' 0 6 with
  | 0#6 => some (.vadd (vop3 p w))
  | 1#6 => some (.vsub (vop3 p w))
  | 2#6 => some (.vrsub (vop3 p w))
  | 3#6 => some (.vmul (vop3 p w))
  | 4#6 => some (.vmulh (vop3 p w))
  | 5#6 => some (.vmulhn (vop3 p w))
  | 6#6 => some (.vdiv (vop3 p w))
  | 7#6 => some (.vdivn (vop3 p w))
  | 8#6 => some (.vrem (vop3 p w))
  | 9#6 => some (.vremn (vop3 p w))
  | 10#6 => some (.vmin (vop3 p w))
  | 11#6 => some (.vmax (vop3 p w))
  | 12#6 => some (.vminn (vop3 p w))
  | 13#6 => some (.vmaxn (vop3 p w))
  | 14#6 => some (.vand (vop3 p w))
  | 15#6 => some (.vor (vop3 p w))
  | 16#6 => some (.vxor (vop3 p w))
  | 17#6 => some (.vsll (vop3 p w))
  | 18#6 => some (.vsrl (vop3 p w))
  | 19#6 => some (.vsra (vop3 p w))
  | 20#6 => some (.vcmpeq (vcmpOp p w))
  | 21#6 => some (.vcmpne (vcmpOp p w))
  | 22#6 => some (.vcmplt (vcmpOp p w))
  | 23#6 => some (.vcmple (vcmpOp p w))
  | 24#6 => some (.vcmpltn (vcmpOp p w))
  | 25#6 => some (.vcmplen (vcmpOp p w))
  | 26#6 => some (.vmerge (vop3 p w))
  | 27#6 => some (.vmv (vop2 p w))
  | 28#6 => some (.vbcast p (w.extractLsb' 21 5) (w.extractLsb' 16 5) (w.extractLsb' 6 3))
  | 29#6 => some (.vid p (w.extractLsb' 21 5) (w.extractLsb' 6 3))
  | 30#6 => some (.vext p (w.extractLsb' 21 5) (w.extractLsb' 16 5) (w.extractLsb' 11 5) (w.getLsbD 10))
  | 31#6 => some (.vins p (w.extractLsb' 21 5) (w.extractLsb' 16 5) (w.extractLsb' 11 5))
  | 32#6 => some (.vwmul (vop3 p w))
  | 33#6 => some (.vwadd (vop3 p w))
  | _ => none

/-- Major 0x24 (Table 4.6). -/
def decodeVfp (p : Option Pfx) (w : IWord) : Option Instr :=
  match w.extractLsb' 0 6 with
  | 0#6 => some (.vfadd (vop3 p w))
  | 1#6 => some (.vfsub (vop3 p w))
  | 2#6 => some (.vfmul (vop3 p w))
  | 3#6 => some (.vfdiv (vop3 p w))
  | 4#6 => some (.vfsqrt (vop2 p w))
  | 5#6 => some (.vfma (vop3 p w))
  | 6#6 => some (.vfms (vop3 p w))
  | 7#6 => some (.vfnma (vop3 p w))
  | 8#6 => some (.vfmin (vop3 p w))
  | 9#6 => some (.vfmax (vop3 p w))
  | 10#6 => some (.vfabs (vop2 p w))
  | 11#6 => some (.vfneg (vop2 p w))
  | 12#6 => some (.vfcmpeq (vcmpOp p w))
  | 13#6 => some (.vfcmplt (vcmpOp p w))
  | 14#6 => some (.vfcmple (vcmpOp p w))
  | 15#6 => some (.vfclass (vop2 p w))
  | 16#6 => some (.vfrcp (vop2 p w))
  | 17#6 => some (.vfrsq (vop2 p w))
  | 18#6 => some (.vfex2 (vop2 p w))
  | 19#6 => some (.vflg2 (vop2 p w))
  | 20#6 => some (.vftnh (vop2 p w))
  | 21#6 => some (.vfsig (vop2 p w))
  | 22#6 => some (.vfexp (vop2 p w))
  | 23#6 => some (.vfscl (vop3 p w))
  | _ => none

/-- Major 0x25 (Table 4.6). -/
def decodeVcvt (p : Option Pfx) (w : IWord) : Option Instr :=
  match w.extractLsb' 0 6 with
  | 0#6 => some (.vcvt p (w.extractLsb' 21 5) (w.extractLsb' 16 5) (w.extractLsb' 11 4) (w.getLsbD 10) (w.extractLsb' 6 3))
  | 1#6 => p.map fun q => .vcvtef q (w.extractLsb' 21 5) (w.extractLsb' 16 5) (w.extractLsb' 11 4) (w.getLsbD 10) (w.extractLsb' 6 3)
  | 2#6 => some (.vftoi p (w.extractLsb' 21 5) (w.extractLsb' 16 5) (w.extractLsb' 11 4) (w.getLsbD 10) (w.extractLsb' 6 3))
  | 3#6 => some (.vitof p (w.extractLsb' 21 5) (w.extractLsb' 16 5) (w.extractLsb' 11 4) (w.getLsbD 10) (w.extractLsb' 6 3))
  | _ => none

/-- Major 0x26 (Table 4.6). -/
def decodeVrp (p : Option Pfx) (w : IWord) : Option Instr :=
  match w.extractLsb' 0 6 with
  | 0#6 => some (.vredsum (vop3 p w))
  | 1#6 => some (.vredmin (vop3 p w))
  | 2#6 => some (.vredmax (vop3 p w))
  | 3#6 => some (.vredminn (vop3 p w))
  | 4#6 => some (.vredmaxn (vop3 p w))
  | 5#6 => some (.vredand (vop3 p w))
  | 6#6 => some (.vredor (vop3 p w))
  | 7#6 => some (.vredxor (vop3 p w))
  | 8#6 => some (.vfredsum (vop3 p w))
  | 9#6 => some (.vfredmin (vop3 p w))
  | 10#6 => some (.vfredmax (vop3 p w))
  | 11#6 => some (.vscan (vop3 p w))
  | 12#6 => some (.vscanx (vop3 p w))
  | 13#6 => some (.vfscan (vop3 p w))
  | 14#6 => some (.vslup p (w.extractLsb' 21 5) (w.extractLsb' 16 5) (w.extractLsb' 11 5) (w.getLsbD 10) (w.extractLsb' 6 3))
  | 15#6 => some (.vsldn p (w.extractLsb' 21 5) (w.extractLsb' 16 5) (w.extractLsb' 11 5) (w.getLsbD 10) (w.extractLsb' 6 3))
  | 16#6 => some (.vperm (vop3 p w))
  | 17#6 => some (.vpack (vop2 p w))
  | 18#6 => some (.vunpack (vop2 p w))
  | 19#6 => some (.vxchg p (w.extractLsb' 21 5) (w.extractLsb' 16 5) (w.extractLsb' 11 5) (w.getLsbD 10) (w.extractLsb' 6 3))
  | 20#6 => some (.vrev (vop2 p w))
  | _ => none

/-- Major 0x27 (Table 4.6). -/
def decodeMask (p : Option Pfx) (w : IWord) : Option Instr :=
  match w.extractLsb' 0 6 with
  | 0#6 => some (.mand p (w.extractLsb' 21 3) (w.extractLsb' 16 3) (w.extractLsb' 11 3))
  | 1#6 => some (.mor p (w.extractLsb' 21 3) (w.extractLsb' 16 3) (w.extractLsb' 11 3))
  | 2#6 => some (.mxor p (w.extractLsb' 21 3) (w.extractLsb' 16 3) (w.extractLsb' 11 3))
  | 3#6 => some (.mandn p (w.extractLsb' 21 3) (w.extractLsb' 16 3) (w.extractLsb' 11 3))
  | 4#6 => some (.mnot p (w.extractLsb' 21 3) (w.extractLsb' 16 3))
  | 5#6 => some (.mset p (w.extractLsb' 21 3))
  | 6#6 => some (.mclr p (w.extractLsb' 21 3))
  | 7#6 => some (.mpop p (w.extractLsb' 21 5) (w.extractLsb' 16 3) (w.extractLsb' 6 3))
  | 8#6 => some (.mfirst p (w.extractLsb' 21 5) (w.extractLsb' 16 3) (w.extractLsb' 6 3))
  | 9#6 => some (.mfromv p (w.extractLsb' 21 3) (w.extractLsb' 16 5) (w.getLsbD 10) (w.extractLsb' 6 3))
  | 10#6 => some (.mtov p (w.extractLsb' 21 5) (w.extractLsb' 16 3) (w.extractLsb' 6 3))
  | 11#6 => some (.msbf p (w.extractLsb' 21 3) (w.extractLsb' 16 3) (w.extractLsb' 6 3))
  | _ => none

/-- Major 0x28 (Table 4.6). -/
def decodeVld (p : Option Pfx) (w : IWord) : Option Instr :=
  match w.extractLsb' 5 2 with
  | 0#2 => some (.vld p (w.extractLsb' 21 5) (w.extractLsb' 16 5) (w.extractLsb' 7 3) (w.extractLsb' 3 2) (w.extractLsb' 0 3))
  | 1#2 => some (.vlds p (w.extractLsb' 21 5) (w.extractLsb' 16 5) (w.extractLsb' 11 5) (w.extractLsb' 7 3) (w.extractLsb' 3 2) (w.extractLsb' 0 3))
  | 2#2 => some (.vldx p (w.extractLsb' 21 5) (w.extractLsb' 16 5) (w.extractLsb' 11 5) (w.getLsbD 10) (w.extractLsb' 7 3) (w.extractLsb' 3 2) (w.extractLsb' 0 3))
  | 3#2 => some (.vldff p (w.extractLsb' 21 5) (w.extractLsb' 16 5) (w.extractLsb' 7 3) (w.extractLsb' 3 2))
  | _ => none

/-- Major 0x29 (Table 4.6). -/
def decodeVst (p : Option Pfx) (w : IWord) : Option Instr :=
  match w.extractLsb' 5 2 with
  | 0#2 => some (.vst p (w.extractLsb' 21 5) (w.extractLsb' 16 5) (w.getLsbD 10) (w.extractLsb' 7 3) (w.extractLsb' 3 2) (w.extractLsb' 0 3))
  | 1#2 => some (.vsts p (w.extractLsb' 21 5) (w.extractLsb' 16 5) (w.extractLsb' 11 5) (w.getLsbD 10) (w.extractLsb' 7 3) (w.extractLsb' 3 2) (w.extractLsb' 0 3))
  | 2#2 => some (.vstx p (w.extractLsb' 21 5) (w.extractLsb' 16 5) (w.extractLsb' 11 5) (w.getLsbD 10) (w.extractLsb' 7 3) (w.extractLsb' 3 2) (w.extractLsb' 0 3))
  | _ => none

/-- Major 0x2A (Table 4.6). -/
noncomputable def decodeVamo (p : Option Pfx) (w : IWord) : Option Instr :=
  match w.extractLsb' 3 4 with
  | 0#4 => some (.vamoadd (vamoOp p w))
  | 1#4 => some (.vamoand (vamoOp p w))
  | 2#4 => some (.vamoor (vamoOp p w))
  | 3#4 => some (.vamoxor (vamoOp p w))
  | 4#4 => some (.vamomin (vamoOp p w))
  | 5#4 => some (.vamomax (vamoOp p w))
  | 6#4 => some (.vamominn (vamoOp p w))
  | 7#4 => some (.vamomaxn (vamoOp p w))
  | 8#4 => some (.vamofadd (vamoOp p w))
  | 9#4 => some (.vamofmin (vamoOp p w))
  | 10#4 => some (.vamofmax (vamoOp p w))
  | 11#4 => some (.vamoswp (vamoOp p w))
  | _ => none

/-- Major 0x2B (Table 4.6). -/
noncomputable def decodeInkw (p : Option Pfx) (w : IWord) : Option Instr :=
  match w.extractLsb' 3 4 with
  | 0#4 => some (.vapnd p (w.extractLsb' 21 5) (w.extractLsb' 16 5) (w.extractLsb' 11 5) (w.getLsbD 10) (w.extractLsb' 7 3) (w.extractLsb' 0 3))
  | 1#4 => some (.sealPage p (w.extractLsb' 21 3) (w.extractLsb' 16 5) (w.extractLsb' 0 3))
  | 2#4 => some (.inktail p (w.extractLsb' 21 5) (w.extractLsb' 16 5))
  | 3#4 => some (.winit p (w.extractLsb' 21 5) (w.extractLsb' 16 5) (w.getLsbD 10) (w.extractLsb' 7 3) (w.extractLsb' 0 3))
  | 4#4 => some (.wdep p (w.extractLsb' 21 5) (w.extractLsb' 16 5) (w.getLsbD 10) (w.extractLsb' 7 3) (w.extractLsb' 0 3))
  | 5#4 => some (.wdepx p (w.extractLsb' 21 5) (w.extractLsb' 16 5) (w.extractLsb' 11 5) (w.getLsbD 10) (w.extractLsb' 7 3) (w.extractLsb' 0 3))
  | 6#4 => some (.wread p (w.extractLsb' 21 5) (w.extractLsb' 16 5) (w.extractLsb' 7 3) (w.extractLsb' 0 3))
  | 7#4 => some (.wdrain p (w.extractLsb' 21 5) (w.extractLsb' 16 5) (w.extractLsb' 7 3) (w.extractLsb' 0 3))
  | _ => none

/-- Major 0x2C (Table 4.6). -/
noncomputable def decodeMat (p : Option Pfx) (w : IWord) : Option Instr :=
  match w.extractLsb' 0 6 with
  | 0#6 => some (.olgath p (w.extractLsb' 21 1) (w.extractLsb' 16 5) (w.extractLsb' 11 5) (w.getLsbD 9) (w.extractLsb' 6 3))
  | 1#6 => some (.zrank p (w.extractLsb' 21 2) (w.extractLsb' 16 5) (w.extractLsb' 11 5) (w.getLsbD 10) (w.getLsbD 9) (w.extractLsb' 6 3))
  | 2#6 => some (.mblk p (w.extractLsb' 21 2) (w.extractLsb' 11 5))
  | 3#6 => some (.zzero p (w.extractLsb' 21 2))
  | 4#6 => some (.zread p (w.extractLsb' 21 5) (w.extractLsb' 16 2) (w.extractLsb' 11 5) (w.extractLsb' 6 3))
  | 5#6 => some (.zwrite p (w.extractLsb' 21 2) (w.extractLsb' 16 5) (w.extractLsb' 11 5) (w.getLsbD 10) (w.extractLsb' 6 3))
  | 6#6 => p.map fun q => .zdep q (w.extractLsb' 21 5) (w.extractLsb' 16 2) (w.extractLsb' 11 5) (w.extractLsb' 6 3)
  | 7#6 => some (.zdim p (w.extractLsb' 21 5))
  | _ => none

/-- Major 0x2D (Table 4.6). -/
noncomputable def decodeEng (w : IWord) : Option Instr :=
  match w.extractLsb' 0 3 with
  | 0#3 => some (.copy (w.extractLsb' 16 5) (w.extractLsb' 8 3) (w.getLsbD 7) (w.getLsbD 6) (w.extractLsb' 3 3))
  | 1#3 => some (.coll (w.extractLsb' 16 5) (w.extractLsb' 11 5) (w.extractLsb' 8 3) (w.getLsbD 7) (w.getLsbD 6) (w.extractLsb' 3 3))
  | 2#3 => some (.flight (w.extractLsb' 16 5) (w.extractLsb' 11 5) (w.extractLsb' 8 3) (w.getLsbD 7) (w.getLsbD 6) (w.extractLsb' 3 3))
  | 3#3 => some (.ixg (w.extractLsb' 16 5) (w.extractLsb' 8 3) (w.getLsbD 7) (w.getLsbD 6) (w.extractLsb' 3 3))
  | 4#3 => some (.rowin (w.extractLsb' 21 5) (w.extractLsb' 16 5) (w.extractLsb' 11 5) (w.extractLsb' 8 3) (w.extractLsb' 3 3))
  | 5#3 => some (.rowout (w.extractLsb' 16 5))
  | _ => none

/-- A word whose major lies outside the vector majors (R75). -/
noncomputable def decodeScalar (w : IWord) : Option Instr :=
  match w.extractLsb' 26 6 with
  | 0x01#6 => decodeSalu w
  | 0x02#6 => some (.addi (w.extractLsb' 21 5) (w.extractLsb' 16 5) (w.extractLsb' 0 16))
  | 0x03#6 => some (.andi (w.extractLsb' 21 5) (w.extractLsb' 16 5) (w.extractLsb' 0 16))
  | 0x04#6 => some (.ori (w.extractLsb' 21 5) (w.extractLsb' 16 5) (w.extractLsb' 0 16))
  | 0x05#6 => some (.xori (w.extractLsb' 21 5) (w.extractLsb' 16 5) (w.extractLsb' 0 16))
  | 0x06#6 => decodeShi w
  | 0x07#6 => some (.slti (w.extractLsb' 21 5) (w.extractLsb' 16 5) (w.extractLsb' 0 16))
  | 0x08#6 => some (.sltni (w.extractLsb' 21 5) (w.extractLsb' 16 5) (w.extractLsb' 0 16))
  | 0x09#6 => some (.ldhi (w.extractLsb' 21 5) (w.extractLsb' 0 16))
  | 0x0A#6 => some (.addpc (w.extractLsb' 21 5) (w.extractLsb' 0 16))
  | 0x0B#6 => some (.ldb (w.extractLsb' 21 5) (w.extractLsb' 16 5) (w.extractLsb' 0 16))
  | 0x0C#6 => some (.ldbn (w.extractLsb' 21 5) (w.extractLsb' 16 5) (w.extractLsb' 0 16))
  | 0x0D#6 => some (.ldh (w.extractLsb' 21 5) (w.extractLsb' 16 5) (w.extractLsb' 0 16))
  | 0x0E#6 => some (.ldhn (w.extractLsb' 21 5) (w.extractLsb' 16 5) (w.extractLsb' 0 16))
  | 0x0F#6 => some (.ldw (w.extractLsb' 21 5) (w.extractLsb' 16 5) (w.extractLsb' 0 16))
  | 0x10#6 => some (.ldwn (w.extractLsb' 21 5) (w.extractLsb' 16 5) (w.extractLsb' 0 16))
  | 0x11#6 => some (.ldd (w.extractLsb' 21 5) (w.extractLsb' 16 5) (w.extractLsb' 0 16))
  | 0x12#6 => some (.stb (w.extractLsb' 21 5) (w.extractLsb' 16 5) (w.extractLsb' 0 16))
  | 0x13#6 => some (.sth (w.extractLsb' 21 5) (w.extractLsb' 16 5) (w.extractLsb' 0 16))
  | 0x14#6 => some (.stw (w.extractLsb' 21 5) (w.extractLsb' 16 5) (w.extractLsb' 0 16))
  | 0x15#6 => some (.std (w.extractLsb' 21 5) (w.extractLsb' 16 5) (w.extractLsb' 0 16))
  | 0x16#6 => some (.beq (w.extractLsb' 21 5) (w.extractLsb' 16 5) (w.extractLsb' 0 16))
  | 0x17#6 => some (.bne (w.extractLsb' 21 5) (w.extractLsb' 16 5) (w.extractLsb' 0 16))
  | 0x18#6 => some (.blt (w.extractLsb' 21 5) (w.extractLsb' 16 5) (w.extractLsb' 0 16))
  | 0x19#6 => some (.bge (w.extractLsb' 21 5) (w.extractLsb' 16 5) (w.extractLsb' 0 16))
  | 0x1A#6 => some (.bltn (w.extractLsb' 21 5) (w.extractLsb' 16 5) (w.extractLsb' 0 16))
  | 0x1B#6 => some (.bgen (w.extractLsb' 21 5) (w.extractLsb' 16 5) (w.extractLsb' 0 16))
  | 0x1C#6 => some (.jal (w.extractLsb' 0 26))
  | 0x1D#6 => some (.jalr (w.extractLsb' 21 5) (w.extractLsb' 16 5) (w.extractLsb' 0 16))
  | 0x1E#6 => decodeSfp w
  | 0x1F#6 => decodeAtom w
  | 0x20#6 => decodeSync w
  | 0x21#6 => decodeSys w
  | 0x2D#6 => decodeEng w
  | _ => none

/-- A word of a vector major, with the prefix before it (R66, R75). -/
noncomputable def decodeVector (p : Option Pfx) (w : IWord) : Option Instr :=
  match w.extractLsb' 26 6 with
  | 0x22#6 => decodeVctl p w
  | 0x23#6 => decodeVint p w
  | 0x24#6 => decodeVfp p w
  | 0x25#6 => decodeVcvt p w
  | 0x26#6 => decodeVrp p w
  | 0x27#6 => decodeMask p w
  | 0x28#6 => decodeVld p w
  | 0x29#6 => decodeVst p w
  | 0x2A#6 => decodeVamo p w
  | 0x2B#6 => decodeInkw p w
  | 0x2C#6 => decodeMat p w
  | _ => none

/-- The instruction that a word stands for by its major and selector, before the checks of R63 and R67. -/
noncomputable def decodeFields (p : Option Pfx) (w : IWord) : Option Instr :=
  match p with
  | none => (decodeScalar w).or (decodeVector none w)
  | some q => decodeVector (some q) w

/-- Check what the fields gave: the words must encode it (R61, R63) and it must be well formed (R67, R69). -/
def decodeCheck (p : Option IWord) (w : IWord) (i : Instr) : Except DecodeError Instr :=
  if encode i ≠ some (p, w) then .error .badField
  else if i.wf then .ok i else .error .illFormed

/-- The instruction of a word and, perhaps, the prefix word before it (R66 to R69). Total: every pair of
words is an instruction or is refused by name. -/
noncomputable def decode (p : Option IWord) (w : IWord) : Except DecodeError Instr :=
  match p with
  | none =>
    match decodeFields none w with
    | none => .error .reserved
    | some i => decodeCheck none w i
  | some q =>
    if !isPfx q || !isVector w then .error .misplacedPrefix
    else match decodeFields (some (Pfx.decode q)) w with
      | none => .error .reserved
      | some i => decodeCheck p w i

/-- A little-endian word of four bytes (R59). -/
def wordOfBytes (a b c d : Byte) : IWord := d ++ c ++ b ++ a

/-- The first instruction of a byte string, and the bytes after it (R59, R68). -/
noncomputable def decodeBytes : List Byte → Except DecodeError (Instr × List Byte)
  | a :: b :: c :: d :: rest =>
    let w := wordOfBytes a b c d
    if isPfx w then
      match rest with
      | e :: f :: g :: h :: rest' => (decode (some w) (wordOfBytes e f g h)).map (·, rest')
      | _ => .error .truncated
    else (decode none w).map (·, rest)
  | _ => .error .truncated

/-- The bytes of a word, the least significant first (R59). -/
def bytesOfWord (w : IWord) : List Byte :=
  [w.extractLsb' 0 8, w.extractLsb' 8 8, w.extractLsb' 16 8, w.extractLsb' 24 8]

/-- The two words that hold an instruction of the opcode table whose bits are `w`: the first word is bits
31..0 and the second bits 63..32; bits at and above `nbits` are zero. -/
def tableWords (nbits w : Nat) : IWord × IWord :=
  (BitVec.ofNat 32 (w % 2 ^ nbits), BitVec.ofNat 32 (w % 2 ^ nbits / 2 ^ 32))

/-- What the decoder reads from an instruction whose bits are `w`, numbered as the opcode table numbers
them: its bytes are laid out as R59 stores them. -/
noncomputable def decodeTableWord (nbits w : Nat) : Option Instr :=
  match decodeBytes (bytesOfWord (tableWords nbits w).1 ++ bytesOfWord (tableWords nbits w).2) with
  | .ok (i, _) => some i
  | .error _ => none

end Sys2Proof
end

