-- ==== Sys2Proof/Machine/Inkw.lean ====
section
/-! DEFINITION. Inkw.lean: appends, seals and tails of ink pages, and the instructions of wells (R163 to R169). -/

namespace Sys2Proof.Machine

/-! ## Ink pages -/

/-- All ones: a full page, or a non-blocking append that failed (R163). -/
def allOnes : Word := BitVec.allOnes 64

/-- The bytes that VAPND gathers: the active elements in ascending index. -/
def State.gathered (s : State) (sel : BitVec 3) (o : VOpd) : List Byte :=
  (s.range.filter fun e => s.act sel (s.perPos o) e == .on).flatMap fun e => leBytes (o.w / 8) (s.elem o e)

/-- The effect of VAPND once its page is reached (R163). -/
def State.vapnd (s : State) (va : Word) (x : Xl) (b : BitVec 5) (w : Nat) (data : List Byte) (k : BitVec 3) : Res :=
  match s.append s.who s.myHall x.pa (w / 8) data with
  | (s, .took n) => .ok (((s.setG b (BitVec.ofNat 64 n)).issueVec k 0#4 1#8).setVstart 0)
  | (s, .full) => .ok (((s.setG b allOnes).issueVec k 0#4 1#8).setVstart 0)
  | (s, .failed e) =>
    if k = 0#3 then .error (e.trap va, s) else .ok (((s.setG b allOnes).issueVec k e.status 1#8).setVstart 0)

/-- In run-ahead an append is only translated: g[b] is unknown, and so is what lies above the tail (R327). -/
def State.aheadAppend (s : State) (x : Option Xl) (b : BitVec 5) : State :=
  match x with
  | none => s.noteG b true
  | some x => (s.noteStored (x.pa / 65536 * 65536 + (s.inkPage x.pa).tail) (65536 - (s.inkPage x.pa).tail)).noteG b true

/-- The access of an instruction that makes one request at g[a] (R163, R165): no Size is given for SEAL and INKTAIL, and
alignment is not asked of them (log 82). -/
def State.pageAccess (s : State) (a : BitVec 5) (kind : Kind) : VAccess :=
  { sel := 0#3, per := 0, zero := false, size := 1, ok := onlyInk, kind := kind, win := false, addr := s.stepAddr a (fun _ => 0#64) fun _ => false }

/-- VAPND (R163). -/
def execVapnd (p : Option Pfx) (d a b : BitVec 5) (_c : Bool) (m k : BitVec 3) (s : State) : Host.Outcome State Fault Refusal :=
  let t := s.vtype p
  let w := typeWidth t
  let o := vreg d w
  let va := s.g a
  issueOp p k false
    (do
      let s ← s.vecCheck (anyType t && t != 14#4 && s.positions == 1) [] [o] false
      .ok (s, s.pageAccess a .rmw))
    (fun _ _ => some 0)
    (fun s _ =>
      if s.gUnknown a then .ok ((s.noteG b true).setVstart 0)
      else
        match s.reach s.myHall .rmw va 1 1 onlyInk with
        | (s, .error t) => .error (t, s)
        | (s, .ok x) =>
          match s.ra, x with
          | none, some x => s.vapnd va x b w (s.gathered (s.maskSel p m) o) k
          | _, x => .ok ((s.aheadAppend x b).setVstart 0)) s

/-- The error of a posting request without elements, as the form reports it (Table 9.2). -/
def State.sealFailed (s : State) (va : Word) (pa : Nat) (k : BitVec 3) : State :=
  if k = 0#3 then
    (s.post
      { va := setField va 0 0#6, lsz := 0#3, mask := lineBits va.toNat 1, pa := pa, payload := .bytes [], who := s.who,
        failed := true, also := [], frm := s.myHall }).collectErrors
  else s.issueVec k 6#4 1#8

/-- The effect of SEAL at the tail unit (R165): the blocking form ends with the bit set; the other counts until the
tail unit answers. -/
def State.sealAt (s : State) (va : Word) (x : Xl) (k : BitVec 3) : State :=
  match s.seal s.who s.myHall x.pa with
  | .error s => s.sealFailed va x.pa k
  | .ok s =>
    if k = 0#3 then s.sealDone x.pa
    else
      { (s.countUp k).onHart fun h =>
          { h with vops := h.vops ++ [{ id := s.nextId, k := k, status := 0#4, seals := some (inkFrame x.pa), at' := 1#8 }] } with
        nextId := s.nextId + 1 }

/-- SEAL (R165): a release at its scope, then the seal. -/
def execSealPage (p : Option Pfx) (sc : BitVec 3) (a : BitVec 5) (k : BitVec 3) (s : State) : Host.Outcome State Fault Refusal :=
  let va := s.g a
  issueOp p k true
    (do
      let s ← s.scoped sc
      .ok (s, s.pageAccess a .store))
    (fun _ _ => some 0)
    (fun s _ =>
      if s.gUnknown a then .ok (s.setVstart 0)
      else
        match s.reach s.myHall .store va 1 1 onlyInk with
        | (s, .error t) => .error (t, s)
        | (s, .ok x) =>
          match s.ra, x with
          | none, some x =>
            match s.release (s.scopeRun sc) with
            | .error e => .error e
            | .ok s => .ok (((s.demote sc).sealAt va x k).setVstart 0)
          | _, _ => .ok (s.setVstart 0)) s

/-- The value of INKTAIL (R166). -/
def InkPage.tailWord (p : InkPage) : Word := place (bit (p.st == .sealed)) 63 1 ||| place p.tail 0 17

/-- What INKTAIL meets at the home tail unit. -/
def State.inkTail (s : State) (pa : Nat) : State × Except Late Word :=
  match s.refusal s.who s.myHall pa 1 false with
  | some c => (s.logRefusal s.who s.myHall pa c, .error .error)
  | none =>
    let p := s.inkPage pa
    if p.epois then (s, .error .poison)
    else match p.st with
      | .free => (s, .error .error)
      | .freeing => (s, .error .error)
      | _ => (s, .ok p.tailWord)

/-- INKTAIL (R166). -/
def execInktail (p : Option Pfx) (d a : BitVec 5) (s : State) : Host.Outcome State Fault Refusal :=
  let va := s.g a
  finishMem p (do
    if s.gUnknown a then .ok ((s.noteG d true).setVstart 0)
    else
      match s.reach s.myHall .load va 1 1 onlyInk with
      | (s, .error t) => .error (t, s)
      | (s, .ok none) => .ok ((s.noteG d true).setVstart 0)
      | (s, .ok (some x)) =>
        if s.ra.isSome && (homeHall x.pa != s.myHall || s.aheadStored (x.pa / 65536 * 65536) 65536) then
          .ok ((s.noteG d true).setVstart 0)
        else
          match s.inkTail x.pa with
          | (s, .error e) => .error (e.trap va, s)
          | (s, .ok w) => .ok (((s.setG d w).noteG d false).setVstart 0))

/-! ## Wells -/

/-- WINIT (R167). -/
def execWinit (p : Option Pfx) (d a : BitVec 5) (_c : Bool) (m k : BitVec 3) (s : State) : Host.Outcome State Fault Refusal :=
  let o := vreg d 8
  let v : VAccess :=
    { sel := s.maskSel p m, per := s.perPos o, zero := false, size := 64, ok := wellClasses, kind := .store,
      win := false, addr := s.stepAddr a (fun i => BitVec.ofNat 64 (64 * i)) fun _ => false }
  issueOp p k true
    (do
      let s ← s.vecCheck true [] [o] false
      .ok (s, v))
    State.firstActive
    (fun t v => t.vpost v (fun e x => .ok (.winit (x.cls == .wlf) (x.pa / 64) (BitVec.ofNat 8 (s.elem o e)))) k) s

/-- What the page of g[a] decides before the first active element (R168): the slot size and its class; none when no
element is active, or when run-ahead does not know it. -/
def State.wellBase (s : State) (kind : Kind) (a : BitVec 5) (first : Option Nat) : Except (Trap × State) (State × Option Class) :=
  match first with
  | none => .ok (s, none)
  | some e =>
    if s.gUnknown a then .ok (s, none)
    else
      match s.reach s.myHall kind (s.g a) 1 1 wellClasses with
      | (s, .error t) => .error (t, s.setVstart e)
      | (s, .ok x) => .ok (s, x.map (·.cls))

/-- The access of a well instruction, of elements of the class that its base has. -/
def State.wellAccess (s : State) (p : Option Pfx) (m : BitVec 3) (o : VOpd) (kind : Kind) (cls : Option Class)
    (addr : Nat → Nat → Option Word) : VAccess :=
  let slot := wellSlot (cls == some .wlf)
  { sel := s.maskSel p m, per := s.perPos o, zero := s.zeroing p, size := slot, ok := fun c => some c == cls, kind := kind,
    win := false, addr := fun e => if cls.isNone then none else addr slot e }

/-- The element e of the instruction is active, for the first one. -/
def State.firstOf (s : State) (p : Option Pfx) (m : BitVec 3) (o : VOpd) : Option Nat :=
  s.range.find? fun e => s.act (s.maskSel p m) (s.perPos o) e == .on

/-- WDEP and WDEPX: one addend for each active element (R168). -/
def wellDepositOp (p : Option Pfx) (d a : BitVec 5) (m k : BitVec 3) (srcs : List VOpd) (step : Nat → Nat → Word)
    (unk : Nat → Bool) (s : State) : Host.Outcome State Fault Refusal :=
  let t := s.vtype p
  let o := vreg d (typeWidth t)
  issueOp p k true
    (do
      let s ← s.vecCheck (arithFloat t) [] (o :: srcs) false
      let (s, cls) ← s.wellBase .store a (s.firstOf p m o)
      .ok (s, s.wellAccess p m o .store cls fun slot => s.stepAddr a (step slot) unk))
    State.firstActive
    (fun t' v => t'.vpost v (fun e x =>
        .ok (.deposit (x.cls == .wlf) (x.pa / 64) [(x.pa % 64 / v.size, (fmtOf t).value (s.elem o e))])) k) s

/-- WDEP (R168). -/
def execWdep (p : Option Pfx) (d a : BitVec 5) (_c : Bool) (m k : BitVec 3) (s : State) :=
  wellDepositOp p d a m k [] (fun slot e => BitVec.ofNat 64 (e * slot)) (fun _ => false) s

/-- WDEPX (R168). -/
def execWdepx (p : Option Pfx) (d a b : BitVec 5) (_c : Bool) (m k : BitVec 3) (s : State) :=
  wellDepositOp p d a m k [vreg b 32] (s.indexStep b) (s.elemUnknown (vreg b 32)) s

/-- A well element to read: its element, the hall that reads it, address and place. -/
structure WellRead where
  e : Nat
  frm : BitVec 4
  va : Word
  pa : Nat

/-- The checks of WREAD and WDRAIN, element by element. Well operations do not leave the hart in run-ahead. -/
def wellElems (v : VAccess) (o : VOpd) : List Nat → State → List WellRead → State × List WellRead × Option (Nat × Trap)
  | [], s, l => (s, l, none)
  | e :: r, s, l =>
    match s.act v.sel v.per e with
    | .unknown => wellElems v o r (s.noteElem o e true) l
    | .off => wellElems v o r (if v.zero then s.setElem o e 0 else s) l
    | .on =>
      match v.addr e with
      | none => wellElems v o r (s.noteElem o e true) l
      | some va =>
        match s.reach (s.elemHall v.per e) v.kind va v.size v.size v.ok with
        | (s, .error t) => (s, l, some (e, t))
        | (s, .ok none) => wellElems v o r (s.noteElem o e true) l
        | (s, .ok (some x)) =>
          if s.ra.isSome then wellElems v o r (s.noteElem o e true) l
          else wellElems v o r (s.settleAt x.pa v.size) (l ++ [{ e := e, frm := s.elemHall v.per e, va := va, pa := x.pa }])

/-- How a read of a well line fails. -/
def State.wellLate (s : State) (frm : BitVec 4) (line : Nat) (write : Bool) : Option Late :=
  if (s.refusal s.who frm (line * 64) 64 write).isSome then some .error
  else if (s.wellLine line).pois then some .poison else none

/-- The log entry of a read of a well line that a gate refuses. -/
def State.logWell (s : State) (frm : BitVec 4) (line : Nat) (write : Bool) : State :=
  match s.refusal s.who frm (line * 64) 64 write with
  | some c => s.logRefusal s.who frm (line * 64) c
  | none => s

/-- The line, and the span position's hall, of a well element to read. -/
def WellRead.place (q : WellRead) : Nat × BitVec 4 := (q.pa / 64, q.frm)

/-- One line step of WREAD or WDRAIN (R169): its elements are read in one step, and reset in it by WDRAIN. -/
def wellStep (o : VOpd) (wlf drain : Bool) (l : List WellRead) (r : State × BitVec 4) (place : Nat × BitVec 4) : State × BitVec 4 :=
  let mine := l.filter fun q => q.place == place
  let line := place.1
  let s := r.1
  match s.wellLate place.2 line drain with
  | some e => (mine.foldl (fun s q => s.lateElem o q.e e) (s.logWell place.2 line drain), firstStatus r.2 e.status)
  | none =>
    let slots := mine.map fun q => q.pa % 64 / wellSlot wlf
    let (s, vals) := s.wellRead wlf line slots
    let s := (mine.zip (vals.getD [])).foldl (fun s q => s.setElem o q.1.e q.2) s
    let s := if drain then s.wellReset wlf line slots else s
    (s.count place.2 (line * 64) (mine.length * wellSlot wlf) false, r.2)

/-- The distinct lines of a list, in the order of their first elements. -/
def wellLines (l : List WellRead) : List (Nat × BitVec 4) :=
  l.foldl (fun acc q => if acc.contains q.place then acc else acc ++ [q.place]) []

/-- The effect of WREAD and WDRAIN. In the blocking form nothing at or above the lowest failing element has effect
(R155). -/
def State.wellReadOp (s : State) (v : VAccess) (o : VOpd) (wlf drain : Bool) (k : BitVec 3) : Res :=
  let (s1, l, trap) := wellElems v o s.range s []
  match (if k = 0#3 then l.find? fun q => (s1.wellLate q.frm (q.pa / 64) drain).isSome else none) with
  | none =>
    let (s2, st) := (wellLines l).foldl (wellStep o wlf drain l) (s1, 0#4)
    ({ s := s2, st := st, trap := trap } : Run).done k (s.activeAt v)
  | some b =>
    let (s1', l', _) := wellElems v o (s.range.filter (· < b.e)) s []
    let (s2, st) := (wellLines l').foldl (wellStep o wlf drain l') (s1'.logWell b.frm (b.pa / 64) drain, 0#4)
    ({ s := s2, st := st, trap := some (b.e, ((s1.wellLate b.frm (b.pa / 64) drain).getD .error).trap b.va) } : Run).done k
      (s.activeAt v)

/-- WREAD and WDRAIN. -/
def wellReader (drain : Bool) (p : Option Pfx) (d a : BitVec 5) (m k : BitVec 3) (s : State) :
    Host.Outcome State Fault Refusal :=
  let o := vreg d 32
  issueOp p k false
    (do
      let s ← s.vecCheck true [o] [] false
      let (s, cls) ← s.wellBase .load a (s.firstOf p m o)
      .ok (s, s.wellAccess p m o .load cls fun slot => s.stepAddr a (fun e => BitVec.ofNat 64 (e * slot)) fun _ => false))
    State.firstActive (fun s v => s.wellReadOp v o (v.size == 4) drain k) s

/-- WREAD (R169). -/
def execWread (p : Option Pfx) (d a : BitVec 5) (m k : BitVec 3) (s : State) := wellReader false p d a m k s
/-- WDRAIN (R169). -/
def execWdrain (p : Option Pfx) (d a : BitVec 5) (m k : BitVec 3) (s : State) := wellReader true p d a m k s

end Sys2Proof.Machine
end

