-- ==== Sys2Proof/Machine/Scalar.lean ====
section
/-! DEFINITION. Scalar.lean: register and immediate arithmetic, branches and jumps (R81 to R84, R92 to R94). -/

namespace Sys2Proof.Machine

/-- Write a scalar result and retire (R81). -/
def scalar (d : BitVec 5) (x : Word) (s : State) : Host.Outcome State Fault Refusal := .next ((s.setG d x).retire 4#64)

/-- A truth value as 0 or 1. -/
def flagWord (b : Bool) : Word := if b then 1#64 else 0#64

/-- The shift amount y mod 64 (Table 5.1). -/
def shamt (y : Word) : Nat := y.toNat % 64

/-- DIV of Table 5.1. -/
def divS (x y : Word) : Word := if y = 0#64 then BitVec.allOnes 64 else x.sdiv y

/-- REM of Table 5.1. -/
def remS (x y : Word) : Word := if y = 0#64 then x else x.srem y

/-- DIVN of Table 5.1. -/
def divU (x y : Word) : Word := if y = 0#64 then BitVec.allOnes 64 else x / y

/-- REMN of Table 5.1. -/
def remU (x y : Word) : Word := if y = 0#64 then x else x % y

/-- Bits 127:64 of the signed product. -/
def mulHiS (x y : Word) : Word := ((x.signExtend 128 * y.signExtend 128) >>> 64).setWidth 64

/-- Bits 127:64 of the unsigned product. -/
def mulHiU (x y : Word) : Word := ((x.setWidth 128 * y.setWidth 128) >>> 64).setWidth 64

/-- The number of zero bits above the highest one bit; 64 for 0. -/
def leadingZeros (x : Word) : Nat := if x = 0#64 then 64 else 63 - x.toNat.log2

/-- The number of zero bits below the lowest one bit; 64 for 0. -/
def trailingZeros (x : Word) : Nat := ((List.range 64).find? fun i => x.getLsbD i).getD 64

/-- Bytes reversed. -/
def byteSwap (x : Word) : Word :=
  x.extractLsb' 0 8 ++ x.extractLsb' 8 8 ++ x.extractLsb' 16 8 ++ x.extractLsb' 24 8 ++
    x.extractLsb' 32 8 ++ x.extractLsb' 40 8 ++ x.extractLsb' 48 8 ++ x.extractLsb' 56 8

/-- Bits n:0 kept, the bits above zero. -/
def zextFrom (x : Word) (n : Nat) : Word := BitVec.ofNat 64 (x.toNat % 2 ^ (n + 1))

/-- Bits n:0 kept, the bits above copies of bit n. -/
def sextFrom (x : Word) (n : Nat) : Word :=
  if x.getLsbD n then zextFrom x n ||| (BitVec.allOnes 64 <<< (n + 1)) else zextFrom x n

/-- ADD (R83). -/
def execAdd (d a b : BitVec 5) (s : State) := scalar d (s.g a + s.g b) s
/-- SUB (R83). -/
def execSub (d a b : BitVec 5) (s : State) := scalar d (s.g a - s.g b) s
/-- AND (R83). -/
def execAnd (d a b : BitVec 5) (s : State) := scalar d (s.g a &&& s.g b) s
/-- OR (R83). -/
def execOr (d a b : BitVec 5) (s : State) := scalar d (s.g a ||| s.g b) s
/-- XOR (R83). -/
def execXor (d a b : BitVec 5) (s : State) := scalar d (s.g a ^^^ s.g b) s
/-- ANDN (R83). -/
def execAndn (d a b : BitVec 5) (s : State) := scalar d (s.g a &&& ~~~s.g b) s
/-- ORN (R83). -/
def execOrn (d a b : BitVec 5) (s : State) := scalar d (s.g a ||| ~~~s.g b) s
/-- SLL (R83). -/
def execSll (d a b : BitVec 5) (s : State) := scalar d (s.g a <<< shamt (s.g b)) s
/-- SRL (R83). -/
def execSrl (d a b : BitVec 5) (s : State) := scalar d (s.g a >>> shamt (s.g b)) s
/-- SRA (R83). -/
def execSra (d a b : BitVec 5) (s : State) := scalar d ((s.g a).sshiftRight (shamt (s.g b))) s
/-- ROL (R83). -/
def execRol (d a b : BitVec 5) (s : State) := scalar d ((s.g a).rotateLeft (shamt (s.g b))) s
/-- ROR (R83). -/
def execRor (d a b : BitVec 5) (s : State) := scalar d ((s.g a).rotateRight (shamt (s.g b))) s
/-- SLT (R83). -/
def execSlt (d a b : BitVec 5) (s : State) := scalar d (flagWord ((s.g a).slt (s.g b))) s
/-- SLTN (R83). -/
def execSltn (d a b : BitVec 5) (s : State) := scalar d (flagWord ((s.g a).ult (s.g b))) s
/-- MIN (R83). -/
def execMin (d a b : BitVec 5) (s : State) := scalar d (if (s.g a).sle (s.g b) then s.g a else s.g b) s
/-- MAX (R83). -/
def execMax (d a b : BitVec 5) (s : State) := scalar d (if (s.g b).sle (s.g a) then s.g a else s.g b) s
/-- MINN (R83). -/
def execMinn (d a b : BitVec 5) (s : State) := scalar d (if (s.g a).ule (s.g b) then s.g a else s.g b) s
/-- MAXN (R83). -/
def execMaxn (d a b : BitVec 5) (s : State) := scalar d (if (s.g b).ule (s.g a) then s.g a else s.g b) s
/-- MUL (R83). -/
def execMul (d a b : BitVec 5) (s : State) := scalar d (s.g a * s.g b) s
/-- MULH (R83). -/
def execMulh (d a b : BitVec 5) (s : State) := scalar d (mulHiS (s.g a) (s.g b)) s
/-- MULHN (R83). -/
def execMulhn (d a b : BitVec 5) (s : State) := scalar d (mulHiU (s.g a) (s.g b)) s
/-- DIV (R83). -/
def execDiv (d a b : BitVec 5) (s : State) := scalar d (divS (s.g a) (s.g b)) s
/-- DIVN (R83). -/
def execDivn (d a b : BitVec 5) (s : State) := scalar d (divU (s.g a) (s.g b)) s
/-- REM (R83). -/
def execRem (d a b : BitVec 5) (s : State) := scalar d (remS (s.g a) (s.g b)) s
/-- REMN (R83). -/
def execRemn (d a b : BitVec 5) (s : State) := scalar d (remU (s.g a) (s.g b)) s
/-- CLZ (R83). -/
def execClz (d a : BitVec 5) (s : State) := scalar d (BitVec.ofNat 64 (leadingZeros (s.g a))) s
/-- CTZ (R83). -/
def execCtz (d a : BitVec 5) (s : State) := scalar d (BitVec.ofNat 64 (trailingZeros (s.g a))) s
/-- POPC (R83). -/
def execPopc (d a : BitVec 5) (s : State) := scalar d (BitVec.ofNat 64 (popCount (s.g a))) s
/-- BSWP (R83). -/
def execBswp (d a : BitVec 5) (s : State) := scalar d (byteSwap (s.g a)) s
/-- SEXT (R83). -/
def execSext (d a b : BitVec 5) (s : State) := scalar d (sextFrom (s.g a) (shamt (s.g b))) s
/-- ZEXT (R83). -/
def execZext (d a b : BitVec 5) (s : State) := scalar d (zextFrom (s.g a) (shamt (s.g b))) s
/-- SELNZ (R83). -/
def execSelnz (d a b : BitVec 5) (s : State) := scalar d (if s.g b = 0#64 then 0#64 else s.g a) s

/-! ## Immediate forms (Table 5.3) -/

/-- ADDI (R84). -/
def execAddi (d a : BitVec 5) (i : BitVec 16) (s : State) := scalar d (s.g a + i.signExtend 64) s
/-- ANDI (R84). -/
def execAndi (d a : BitVec 5) (i : BitVec 16) (s : State) := scalar d (s.g a &&& i.setWidth 64) s
/-- ORI (R84). -/
def execOri (d a : BitVec 5) (i : BitVec 16) (s : State) := scalar d (s.g a ||| i.setWidth 64) s
/-- XORI (R84). -/
def execXori (d a : BitVec 5) (i : BitVec 16) (s : State) := scalar d (s.g a ^^^ i.setWidth 64) s
/-- SLLI (R84). -/
def execSlli (d a : BitVec 5) (n : BitVec 6) (s : State) := scalar d (s.g a <<< n.toNat) s
/-- SRLI (R84). -/
def execSrli (d a : BitVec 5) (n : BitVec 6) (s : State) := scalar d (s.g a >>> n.toNat) s
/-- SRAI (R84). -/
def execSrai (d a : BitVec 5) (n : BitVec 6) (s : State) := scalar d ((s.g a).sshiftRight n.toNat) s
/-- RORI (R84). -/
def execRori (d a : BitVec 5) (n : BitVec 6) (s : State) := scalar d ((s.g a).rotateRight n.toNat) s
/-- SLTI (R84). -/
def execSlti (d a : BitVec 5) (i : BitVec 16) (s : State) := scalar d (flagWord ((s.g a).slt (i.signExtend 64))) s
/-- SLTNI (R84). -/
def execSltni (d a : BitVec 5) (i : BitVec 16) (s : State) := scalar d (flagWord ((s.g a).ult (i.signExtend 64))) s
/-- LDHI (R84). -/
def execLdhi (d : BitVec 5) (i : BitVec 16) (s : State) := scalar d (i.signExtend 64 <<< 16) s
/-- ADDPC (R84). -/
def execAddpc (d : BitVec 5) (i : BitVec 16) (s : State) := scalar d (s.hart.pc + (i.signExtend 64 <<< 16)) s

/-! ## Control transfer -/

/-- The target of a PC-relative word offset (R65). -/
def branchTarget (pc : Word) {w : Nat} (o : BitVec w) : Word := pc + 4#64 + (o.signExtend 64 <<< 2)

/-- A branch (R92). -/
def branch (taken : Bool) (o : BitVec 16) (s : State) : Host.Outcome State Fault Refusal :=
  .next (if taken then s.jump (branchTarget s.hart.pc o) else s.retire 4#64)

/-- BEQ (R92). -/
def execBeq (a b : BitVec 5) (o : BitVec 16) (s : State) := branch (s.g a == s.g b) o s
/-- BNE (R92). -/
def execBne (a b : BitVec 5) (o : BitVec 16) (s : State) := branch (s.g a != s.g b) o s
/-- BLT (R92). -/
def execBlt (a b : BitVec 5) (o : BitVec 16) (s : State) := branch ((s.g a).slt (s.g b)) o s
/-- BGE (R92). -/
def execBge (a b : BitVec 5) (o : BitVec 16) (s : State) := branch ((s.g b).sle (s.g a)) o s
/-- BLTN (R92). -/
def execBltn (a b : BitVec 5) (o : BitVec 16) (s : State) := branch ((s.g a).ult (s.g b)) o s
/-- BGEN (R92). -/
def execBgen (a b : BitVec 5) (o : BitVec 16) (s : State) := branch ((s.g b).ule (s.g a)) o s

/-- JAL (R93). -/
def execJal (o : BitVec 26) (s : State) : Host.Outcome State Fault Refusal :=
  .next ((s.setG 1#5 (s.hart.pc + 4#64)).jump (branchTarget s.hart.pc o))

/-- JALR (R94): the target is formed from the old g[a]. -/
def execJalr (d a : BitVec 5) (i : BitVec 16) (s : State) : Host.Outcome State Fault Refusal :=
  .next ((s.setG d (s.hart.pc + 4#64)).jump (s.g a + (i.signExtend 64 <<< 2)))

end Sys2Proof.Machine
end

