-- ==== Sys2Proof/Machine/Vfp.lean ====
section
/-! DEFINITION. Vfp.lean: vector floating point, special functions and conversions (R130 to R135). -/

namespace Sys2Proof.Machine

/-! ## Operations on patterns (shared with the scalar instructions, R98, R99) -/

/-- Round a value and its flags, with NV for a signalling NaN among the operands. -/
def rounded (f : Fmt) (env : RndEnv) (xs : List Nat) (v : FVal × Flags) : Nat × Flags :=
  let (b, fl) := roundTo f env v.1
  (b, fl ||| v.2 ||| flag (xs.any f.isSNaN) flNV)

/-- x + y, or x − y. -/
def fpAdd (f : Fmt) (env : RndEnv) (sub : Bool) (x y : Nat) : Nat × Flags :=
  let b := f.operand env.ftz y
  rounded f env [x, y] (addVal env.rnd (f.operand env.ftz x) (if sub then b.negate else b))

/-- x × y. -/
def fpMul (f : Fmt) (env : RndEnv) (x y : Nat) : Nat × Flags :=
  rounded f env [x, y] (mulVal (f.operand env.ftz x) (f.operand env.ftz y))

/-- x ÷ y. -/
def fpDiv (f : Fmt) (env : RndEnv) (x y : Nat) : Nat × Flags :=
  rounded f env [x, y] (divVal (f.operand env.ftz x) (f.operand env.ftz y))

/-- √x. -/
def fpSqrt (f : Fmt) (env : RndEnv) (x : Nat) : Nat × Flags := rounded f env [x] (sqrtVal (f.operand env.ftz x))

/-- ±(x × y) ± w, rounded once; 0 × ∞ is invalid whatever w holds. -/
def fpFma (f : Fmt) (env : RndEnv) (negProd negW : Bool) (x y w : Nat) : Nat × Flags :=
  let p := mulVal (f.operand env.ftz x) (f.operand env.ftz y)
  let c := f.operand env.ftz w
  let r := addVal env.rnd (if negProd then p.1.negate else p.1) (if negW then c.negate else c)
  rounded f env [x, y, w] (r.1, r.2 ||| p.2)

/-- The relations of FEQ, FLT and FLE (R99): 0 for a NaN, with NV as each gives. -/
inductive FRel where
  | eq | lt | le
deriving DecidableEq, Repr

/-- A compare. -/
def fpCompare (f : Fmt) (rel : FRel) (x y : Nat) : Bool × Flags :=
  if f.isNaN x || f.isNaN y then
    (false, flag (rel != .eq || f.isSNaN x || f.isSNaN y) flNV)
  else
    (match rel with
      | .eq => eqVal (f.value x) (f.value y)
      | .lt => ltVal (f.value x) (f.value y)
      | .le => !ltVal (f.value y) (f.value x), 0#5)

/-- A special function (R132). -/
def fpSpecial (f : Fmt) (env : RndEnv) (fn : Special) (x : Nat) : Nat × Flags :=
  rounded f env [x] (fn.value (f.operand env.ftz x))

/-- VFSCL's bound on n: beyond it every finite operand overflows, or is tiny below every quantum. -/
def scaleBound : Int := 5000

/-- x × 2^n (Table 7.4); an infinity or a zero stays, with no flag. -/
def fpScale (f : Fmt) (env : RndEnv) (x : Nat) (n : Int) : Nat × Flags :=
  match f.operand env.ftz x with
  | .nan => rounded f env [x] (.nan, 0#5)
  | .inf g => (f.signed g f.infBits, 0#5)
  | .fin g m e st => rounded f env [x] (.fin g m (e + max (-scaleBound) (min scaleBound n)) st, 0#5)

/-! ## Arithmetic (R130) -/

/-- A rounded operation with two sources. -/
def vfBinary (o : VOp3) (f : Fmt → RndEnv → Nat → Nat → Nat × Flags) (s : State) : Host.Outcome State Fault Refusal :=
  binaryOp o arithFloat (fun t e x y => f (fmtOf t) (s.vecEnv o.pfx e) x y) s

/-- VFADD (R130). -/
def execVfadd (o : VOp3) (s : State) := vfBinary o (fun f env => fpAdd f env false) s
/-- VFSUB (R130). -/
def execVfsub (o : VOp3) (s : State) := vfBinary o (fun f env => fpAdd f env true) s
/-- VFMUL (R130). -/
def execVfmul (o : VOp3) (s : State) := vfBinary o fpMul s
/-- VFDIV (R130). -/
def execVfdiv (o : VOp3) (s : State) := vfBinary o fpDiv s
/-- VFSQRT (R130). -/
def execVfsqrt (o : VOp2) (s : State) :=
  unaryOp o arithFloat (fun t e x => fpSqrt (fmtOf t) (s.vecEnv o.pfx e) x) s

/-- A multiply-add: the old vd[e] is a source too. -/
def vfMultiplyAdd (o : VOp3) (negProd negW : Bool) (s : State) : Host.Outcome State Fault Refusal :=
  let t := s.vtype o.pfx
  let w := typeWidth t
  let d := vreg o.d w
  let a := vreg o.a w
  let b := vreg o.b w
  elementOp o.pfx o.msk (arithFloat t) d [a, b] false (s.anyUnknown [a, b, d])
    (fun e => fpFma (fmtOf t) (s.vecEnv o.pfx e) negProd negW (s.elem a e) (s.elem b e) (s.elem d e)) s

/-- VFMA (R130). -/
def execVfma (o : VOp3) (s : State) := vfMultiplyAdd o false false s
/-- VFMS (R130). -/
def execVfms (o : VOp3) (s : State) := vfMultiplyAdd o false true s
/-- VFNMA (R130). -/
def execVfnma (o : VOp3) (s : State) := vfMultiplyAdd o true false s
/-- VFSCL (R130). -/
def execVfscl (o : VOp3) (s : State) :=
  binaryOp o arithFloat (fun t e x y => fpScale (fmtOf t) (s.vecEnv o.pfx e) x (toSigned (typeWidth t) y)) s

/-! ## What does not round (R131). Of the types R131 names none: they are those of R130 (log 85). -/

/-- VFMIN (R131). -/
def execVfmin (o : VOp3) (s : State) := binaryOp o arithFloat (fun t _ x y => minMax (fmtOf t) false x y) s
/-- VFMAX (R131). -/
def execVfmax (o : VOp3) (s : State) := binaryOp o arithFloat (fun t _ x y => minMax (fmtOf t) true x y) s
/-- VFABS (R131). -/
def execVfabs (o : VOp2) (s : State) := unaryOp o arithFloat (fun t _ x => ((fmtOf t).magnitude x, 0#5)) s
/-- VFNEG (R131). -/
def execVfneg (o : VOp2) (s : State) := unaryOp o arithFloat (fun t _ x => (x ^^^ 2 ^ (typeWidth t - 1), 0#5)) s
/-- VFCMPEQ (R131). -/
def execVfcmpeq (o : VCmpOp) (s : State) := compareOp o arithFloat (fun t x y => fpCompare (fmtOf t) .eq x y) s
/-- VFCMPLT (R131). -/
def execVfcmplt (o : VCmpOp) (s : State) := compareOp o arithFloat (fun t x y => fpCompare (fmtOf t) .lt x y) s
/-- VFCMPLE (R131). -/
def execVfcmple (o : VCmpOp) (s : State) := compareOp o arithFloat (fun t x y => fpCompare (fmtOf t) .le x y) s
/-- VFCLASS (R131). -/
def execVfclass (o : VOp2) (s : State) := unaryOp o arithFloat (fun t _ x => (classBits (fmtOf t) x, 0#5)) s

/-! ## Special functions (R132) -/

/-- A special function of each element. -/
def vfSpecial (o : VOp2) (fn : Special) (s : State) : Host.Outcome State Fault Refusal :=
  unaryOp o specialFloat (fun t e x => fpSpecial (fmtOf t) (s.vecEnv o.pfx e) fn x) s

/-- VFRCP (R132). -/
def execVfrcp (o : VOp2) (s : State) := vfSpecial o .rcp s
/-- VFRSQ (R132). -/
def execVfrsq (o : VOp2) (s : State) := vfSpecial o .rsq s
/-- VFEX2 (R132). -/
def execVfex2 (o : VOp2) (s : State) := vfSpecial o .ex2 s
/-- VFLG2 (R132). -/
def execVflg2 (o : VOp2) (s : State) := vfSpecial o .lg2 s
/-- VFTNH (R132). -/
def execVftnh (o : VOp2) (s : State) := vfSpecial o .tnh s
/-- VFSIG (R132). -/
def execVfsig (o : VOp2) (s : State) := vfSpecial o .sig s
/-- VFEXP (R132). -/
def execVfexp (o : VOp2) (s : State) := vfSpecial o .exp s

/-! ## Conversions (R133 to R135) -/

/-- The operands of a conversion between widths dw and sw: the wider one is a group (R133). -/
def convOpd (r : BitVec 5) (own other : Nat) : VOpd := ⟨r, if other < own then own / other else 1, own⟩

/-- The ratio of the widths is 1, 2 or 4 (R133). -/
def ratioOk (a b : Nat) : Bool := decide (a ≤ 4 * b) && decide (b ≤ 4 * a)

/-- Convert one element from type st to type dt (Table 2.8). -/
def convert (env : RndEnv) (st dt : BitVec 4) (x : Nat) : Nat × Flags :=
  if st = dt then (x, 0#5)
  else if isInt st then
    (if isInt dt then (intToInt (typeWidth st) (isSigned st) (typeWidth dt) (isSigned dt) env.sat x, 0#5)
     else fromInt (fmtOf dt) env (typeWidth st) (isSigned st) x)
  else if isInt dt then
    -- a signalling NaN sets NV as every NaN does here
    toInt env (typeWidth dt) (isSigned dt) ((fmtOf st).operand env.ftz x)
  else floatToFloat (fmtOf st) (fmtOf dt) env x

/-- A conversion instruction: the destination type resolves under R20, the source type is given. -/
def conversionOp (p : Option Pfx) (d a : BitVec 5) (st : BitVec 4) (m : BitVec 3) (ok : BitVec 4 → BitVec 4 → Bool)
    (s : State) : Host.Outcome State Fault Refusal :=
  let dt := s.vtype p
  let dw := typeWidth dt
  let sw := typeWidth st
  let src := convOpd a sw dw
  elementOp p m (ok st dt && ratioOk sw dw) (convOpd d dw sw) [src] false (s.anyUnknown [src])
    (fun e => convert (s.vecEnv p e) st dt (s.elem src e)) s

/-- VCVT (R133): integer to integer, or float to float. -/
def execVcvt (p : Option Pfx) (d a : BitVec 5) (t : BitVec 4) (_x : Bool) (m : BitVec 3) (s : State) :=
  conversionOp p d a t m (fun st dt => (isInt st && isInt dt) || (isFloat st && isFloat dt)) s

/-- VFTOI (R133). -/
def execVftoi (p : Option Pfx) (d a : BitVec 5) (t : BitVec 4) (_x : Bool) (m : BitVec 3) (s : State) :=
  conversionOp p d a t m (fun st dt => isFloat st && isInt dt) s

/-- VITOF (R133). -/
def execVitof (p : Option Pfx) (d a : BitVec 5) (t : BitVec 4) (_x : Bool) (m : BitVec 3) (s : State) :=
  conversionOp p d a t m (fun st dt => isInt st && isFloat dt) s

/-- n is finite, and R27 or R28 did not produce it from an overflow or an infinite operand (`sat`): the residual is exact (R35). -/
def exactResidual (dst : Fmt) (n : Nat) (sat : Bool) : Bool :=
  (match dst.value n with | .fin .. => true | _ => false) && !sat

/-- The residual of R35, in the source format: x − Widen(n), and NX where it is rounded. An exact one has the sign of an exact
difference under the instruction's rounding code (R26). Where the source type cannot hold the difference that R35 calls exact (a
tiny x rounded up to the least subnormal), the manual states no value, and it is `free` (log 84). -/
def residual (src dst : Fmt) (rnd : Rnd) (x n : Nat) (sat : Bool) (free : Nat) : Nat × Flags :=
  let exact := exactResidual dst n sat
  let d := (addVal (if exact then rnd else .rne) (src.value x) (dst.value n).negate).1
  let (b, fl) := roundTo src .plain d
  (if exact && fl != 0#5 then free % 2 ^ src.width else b, flag (!exact) flNX)

/-- The narrowing of an element was an overflow, or its operand was infinite (R35). -/
def narrowedOver (src dst : Fmt) (env : RndEnv) (x : Nat) : Bool :=
  match src.operand env.ftz x with
  | .inf _ => true
  | v => (roundTo dst env v).2.getLsbD 2 || (dst.kind == .e4m3 && dst.isNaN (roundTo dst env v).1)

/-- VCVTEF accepts FP64, FP32, FP16 and BF16 sources and narrower floats; FP16 and BF16 count as narrower
than each other (R133). -/
def narrows (st dt : BitVec 4) : Bool :=
  arithFloat st && isFloat dt && st != dt && (decide (typeWidth dt < typeWidth st) || (typeWidth st == 16 && typeWidth dt == 16))

/-- One element of VCVTEF: vd and vc are written together, or left to the policy together (R135). -/
def State.errorFreeStep (s : State) (sel : BitVec 3) (zero : Bool) (d c src : VOpd) (st dt : BitVec 4)
    (p : Option Pfx) (t : State) (e : Nat) : State :=
  let per := s.perPos d
  if s.activeUnknown sel per e || (s.active sel per e && s.elemUnknown src e) then (t.noteElem d e true).noteElem c e true
  else if s.active sel per e then
    let x := s.elem src e
    let env := s.vecEnv p e
    let (n, fl) := convert env st dt x
    let (r, fr) := residual (fmtOf st) (fmtOf dt) env.rnd x n (narrowedOver (fmtOf st) (fmtOf dt) env x)
      (Config.freeWord (s.fresh + e)).toNat
    ((t.setElem d e n).setElem c e r).orVstat (fl ||| fr)
  else if zero then (t.setElem d e 0).setElem c e 0
  else t

/-- VCVTEF (R35, R135). -/
def execVcvtef (p : Pfx) (d a : BitVec 5) (t : BitVec 4) (_x : Bool) (m : BitVec 3) (s : State) :
    Host.Outcome State Fault Refusal :=
  let dt := s.vtype (some p)
  let dw := typeWidth dt
  let sw := typeWidth t
  let src := convOpd a sw dw
  let vd := convOpd d dw sw
  let vc := convOpd p.c sw dw
  finish (some p) (do
    let s ← s.vecCheck (narrows t dt && ratioOk sw dw && !vc.overlaps vd) [vd, vc] [src] false
    .ok { (s.range.foldl (s.errorFreeStep (s.maskSel (some p) m) (s.zeroing (some p)) vd vc src t dt (some p)) s).setVstart 0 with
      fresh := s.fresh + s.hart.vl })

end Sys2Proof.Machine
end

