-- ==== Sys2Proof/Machine/Sfp.lean ====
section
/-! DEFINITION. Sfp.lean: scalar floating point (R97 to R100). -/

namespace Sys2Proof.Machine

/-- The format that bit 6 selects. -/
def sfmt (p : Bool) : Fmt := if p then .fp64 else .fp32

/-- The low bits of a register as a pattern of a format (R45). -/
def State.fpat (s : State) (p : Bool) (i : BitVec 5) : Nat := (s.g i).toNat % 2 ^ (sfmt p).width

/-- Write a result, OR its flags into FSTAT, and retire (R97). -/
def scalarFp (d : BitVec 5) (r : Nat × Flags) (s : State) : Host.Outcome State Fault Refusal :=
  .next (((s.setG d (BitVec.ofNat 64 r.1)).orFstat r.2).retire 4#64)

/-- FADD (R98). -/
def execFadd (d a b : BitVec 5) (r : BitVec 3) (p : Bool) (s : State) :=
  scalarFp d (fpAdd (sfmt p) (s.scalarEnv r) false (s.fpat p a) (s.fpat p b)) s
/-- FSUB (R98). -/
def execFsub (d a b : BitVec 5) (r : BitVec 3) (p : Bool) (s : State) :=
  scalarFp d (fpAdd (sfmt p) (s.scalarEnv r) true (s.fpat p a) (s.fpat p b)) s
/-- FMUL (R98). -/
def execFmul (d a b : BitVec 5) (r : BitVec 3) (p : Bool) (s : State) :=
  scalarFp d (fpMul (sfmt p) (s.scalarEnv r) (s.fpat p a) (s.fpat p b)) s
/-- FDIV (R98). -/
def execFdiv (d a b : BitVec 5) (r : BitVec 3) (p : Bool) (s : State) :=
  scalarFp d (fpDiv (sfmt p) (s.scalarEnv r) (s.fpat p a) (s.fpat p b)) s
/-- FSQRT (R98). -/
def execFsqrt (d a : BitVec 5) (r : BitVec 3) (p : Bool) (s : State) :=
  scalarFp d (fpSqrt (sfmt p) (s.scalarEnv r) (s.fpat p a)) s
/-- FMA (R98). -/
def execFma (d a b : BitVec 5) (r : BitVec 3) (p : Bool) (s : State) :=
  scalarFp d (fpFma (sfmt p) (s.scalarEnv r) false false (s.fpat p a) (s.fpat p b) (s.fpat p d)) s
/-- FMIN (R99). -/
def execFmin (d a b : BitVec 5) (p : Bool) (s : State) :=
  scalarFp d (minMax (sfmt p) false (s.fpat p a) (s.fpat p b)) s
/-- FMAX (R99). -/
def execFmax (d a b : BitVec 5) (p : Bool) (s : State) :=
  scalarFp d (minMax (sfmt p) true (s.fpat p a) (s.fpat p b)) s

/-- A compare (R99). -/
def scalarCompare (rel : FRel) (d a b : BitVec 5) (p : Bool) (s : State) : Host.Outcome State Fault Refusal :=
  let r := fpCompare (sfmt p) rel (s.fpat p a) (s.fpat p b)
  scalarFp d (bit r.1, r.2) s

/-- FEQ (R99). -/
def execFeq (d a b : BitVec 5) (p : Bool) (s : State) := scalarCompare .eq d a b p s
/-- FLT (R99). -/
def execFlt (d a b : BitVec 5) (p : Bool) (s : State) := scalarCompare .lt d a b p s
/-- FLE (R99). -/
def execFle (d a b : BitVec 5) (p : Bool) (s : State) := scalarCompare .le d a b p s
/-- FCLASS (R99). -/
def execFclass (d a : BitVec 5) (p : Bool) (s : State) := scalarFp d (classBits (sfmt p) (s.fpat p a), 0#5) s

/-- x with its sign bit replaced (R99). -/
def withSign (p neg : Bool) (x : Nat) : Nat := (sfmt p).signed neg ((sfmt p).magnitude x)

/-- FSGN (R99). -/
def execFsgn (d a b : BitVec 5) (p : Bool) (s : State) :=
  scalarFp d (withSign p ((sfmt p).neg (s.fpat p b)) (s.fpat p a), 0#5) s
/-- FSGNN (R99). -/
def execFsgnn (d a b : BitVec 5) (p : Bool) (s : State) :=
  scalarFp d (withSign p (!(sfmt p).neg (s.fpat p b)) (s.fpat p a), 0#5) s
/-- FSGNX (R99). -/
def execFsgnx (d a b : BitVec 5) (p : Bool) (s : State) :=
  scalarFp d (withSign p ((sfmt p).neg (s.fpat p a) != (sfmt p).neg (s.fpat p b)) (s.fpat p a), 0#5) s

/-- FCVTFF (R100): the suffix names the destination. -/
def execFcvtff (d a : BitVec 5) (r : BitVec 3) (p : Bool) (s : State) :=
  scalarFp d (floatToFloat (sfmt !p) (sfmt p) (s.scalarEnv r) (s.fpat (!p) a)) s

/-- A float to an integer of width w, extended to 64 bits by sign or by zeros (R100). -/
def floatToScalar (d a : BitVec 5) (r : BitVec 3) (p : Bool) (w : Nat) (sgn : Bool) (s : State) :
    Host.Outcome State Fault Refusal :=
  let env := s.scalarEnv r
  let (x, f) := toInt env w sgn ((sfmt p).operand env.ftz (s.fpat p a))
  scalarFp d (ofSigned 64 (intOf w sgn x), f) s

/-- FCVTI (R100). -/
def execFcvti (d a : BitVec 5) (r : BitVec 3) (p : Bool) (s : State) := floatToScalar d a r p 64 true s
/-- FCVTN (R100). -/
def execFcvtn (d a : BitVec 5) (r : BitVec 3) (p : Bool) (s : State) := floatToScalar d a r p 64 false s
/-- FCVTW (R100). -/
def execFcvtw (d a : BitVec 5) (r : BitVec 3) (p : Bool) (s : State) := floatToScalar d a r p 32 true s
/-- FCVTWN (R100). -/
def execFcvtwn (d a : BitVec 5) (r : BitVec 3) (p : Bool) (s : State) := floatToScalar d a r p 32 false s
/-- FCVTIF (R100). -/
def execFcvtif (d a : BitVec 5) (r : BitVec 3) (p : Bool) (s : State) :=
  scalarFp d (fromInt (sfmt p) (s.scalarEnv r) 64 true (s.g a).toNat) s
/-- FCVTNF (R100). -/
def execFcvtnf (d a : BitVec 5) (r : BitVec 3) (p : Bool) (s : State) :=
  scalarFp d (fromInt (sfmt p) (s.scalarEnv r) 64 false (s.g a).toNat) s

end Sys2Proof.Machine
end

