-- ==== Sys2Proof/Machine/Vint.lean ====
section
/-! DEFINITION. Vint.lean: vector integer arithmetic, compares, moves and widening (R124 to R129). -/

namespace Sys2Proof.Machine

/-! ## Arithmetic on patterns of width w (Table 7.1) -/

/-- A result stored modulo 2^w, or clamped to the range of the type where saturation acts (R126). -/
def wrapOrSat (t : BitVec 4) (sat : Bool) (i : Int) : Nat :=
  ofSigned (typeWidth t) (if sat then clampInt (typeWidth t) (isSigned t) i else i)

/-- An operation on which saturation acts: exact on the values that the type gives the patterns. -/
def satOp (o : VOp3) (f : Int → Int → Int) (s : State) : Host.Outcome State Fault Refusal :=
  let sat := s.saturates o.pfx
  binaryOp o isInt (fun t _ x y =>
    (wrapOrSat t sat (f (intOf (typeWidth t) (isSigned t) x) (intOf (typeWidth t) (isSigned t) y)), 0#5)) s

/-- An operation on which it does not, given the width. -/
def plainOp (o : VOp3) (f : Nat → Nat → Nat → Nat) (s : State) : Host.Outcome State Fault Refusal :=
  binaryOp o isInt (fun t _ x y => (f (typeWidth t) x y, 0#5)) s

/-- The upper half of a product, signed or unsigned. -/
def mulHigh (sgn : Bool) (w x y : Nat) : Nat := ofSigned w (intOf w sgn x * intOf w sgn y / (2 ^ w : Nat))

/-- Quotient, with division by zero and overflow as Table 5.1 gives. -/
def quot (sgn : Bool) (w x y : Nat) : Nat :=
  if y = 0 then 2 ^ w - 1 else ofSigned w ((intOf w sgn x).tdiv (intOf w sgn y))

/-- Remainder. -/
def remainder (sgn : Bool) (w x y : Nat) : Nat :=
  if y = 0 then x else ofSigned w ((intOf w sgn x).tmod (intOf w sgn y))

/-- Minimum or maximum, signed or unsigned. -/
def extremum (sgn max : Bool) (w x y : Nat) : Nat :=
  if intOf w sgn x < intOf w sgn y then (if max then y else x) else (if max then x else y)

/-- Shift left, right logically, right arithmetically, by y mod w. -/
def shiftLeft (w x y : Nat) : Nat := (x <<< (y % w)) % 2 ^ w
@[inherit_doc shiftLeft] def shiftRight (w x y : Nat) : Nat := x >>> (y % w)
@[inherit_doc shiftLeft] def shiftArith (w x y : Nat) : Nat := ofSigned w (intOf w true x >>> (y % w))

/-- VADD (R125). -/
def execVadd (o : VOp3) (s : State) := satOp o (· + ·) s
/-- VSUB (R125). -/
def execVsub (o : VOp3) (s : State) := satOp o (· - ·) s
/-- VRSUB (R125). -/
def execVrsub (o : VOp3) (s : State) := satOp o (fun x y => y - x) s
/-- VMUL (R125). -/
def execVmul (o : VOp3) (s : State) := satOp o (· * ·) s
/-- VMULH (R125). -/
def execVmulh (o : VOp3) (s : State) := plainOp o (mulHigh true) s
/-- VMULHN (R125). -/
def execVmulhn (o : VOp3) (s : State) := plainOp o (mulHigh false) s
/-- VDIV (R125). -/
def execVdiv (o : VOp3) (s : State) := plainOp o (quot true) s
/-- VDIVN (R125). -/
def execVdivn (o : VOp3) (s : State) := plainOp o (quot false) s
/-- VREM (R125). -/
def execVrem (o : VOp3) (s : State) := plainOp o (remainder true) s
/-- VREMN (R125). -/
def execVremn (o : VOp3) (s : State) := plainOp o (remainder false) s
/-- VMIN (R125). -/
def execVmin (o : VOp3) (s : State) := plainOp o (extremum true false) s
/-- VMAX (R125). -/
def execVmax (o : VOp3) (s : State) := plainOp o (extremum true true) s
/-- VMINN (R125). -/
def execVminn (o : VOp3) (s : State) := plainOp o (extremum false false) s
/-- VMAXN (R125). -/
def execVmaxn (o : VOp3) (s : State) := plainOp o (extremum false true) s
/-- VAND (R125). -/
def execVand (o : VOp3) (s : State) := plainOp o (fun _ x y => x &&& y) s
/-- VOR (R125). -/
def execVor (o : VOp3) (s : State) := plainOp o (fun _ x y => x ||| y) s
/-- VXOR (R125). -/
def execVxor (o : VOp3) (s : State) := plainOp o (fun _ x y => x ^^^ y) s
/-- VSLL (R125). -/
def execVsll (o : VOp3) (s : State) := plainOp o shiftLeft s
/-- VSRL (R125). -/
def execVsrl (o : VOp3) (s : State) := plainOp o shiftRight s
/-- VSRA (R125). -/
def execVsra (o : VOp3) (s : State) := plainOp o shiftArith s

/-! ## Compares (R127) -/

/-- An integer compare on the signed or unsigned values. -/
def intCompare (o : VCmpOp) (sgn : Bool) (rel : Int → Int → Bool) (s : State) : Host.Outcome State Fault Refusal :=
  compareOp o isInt (fun t x y => (rel (intOf (typeWidth t) sgn x) (intOf (typeWidth t) sgn y), 0#5)) s

/-- VCMPEQ (R127). -/
def execVcmpeq (o : VCmpOp) (s : State) := intCompare o false (fun x y => x == y) s
/-- VCMPNE (R127). -/
def execVcmpne (o : VCmpOp) (s : State) := intCompare o false (fun x y => x != y) s
/-- VCMPLT (R127). -/
def execVcmplt (o : VCmpOp) (s : State) := intCompare o true (fun x y => decide (x < y)) s
/-- VCMPLE (R127). -/
def execVcmple (o : VCmpOp) (s : State) := intCompare o true (fun x y => decide (x ≤ y)) s
/-- VCMPLTN (R127). -/
def execVcmpltn (o : VCmpOp) (s : State) := intCompare o false (fun x y => decide (x < y)) s
/-- VCMPLEN (R127). -/
def execVcmplen (o : VCmpOp) (s : State) := intCompare o false (fun x y => decide (x ≤ y)) s

/-! ## Moves (R128) -/

/-- VMERGE (R128): the mask selects; every element below VL is written. -/
def execVmerge (o : VOp3) (s : State) : Host.Outcome State Fault Refusal :=
  let w := typeWidth (s.vtype o.pfx)
  let a := vreg o.a w
  let b := vreg o.b w
  let sel := s.maskSel o.pfx o.msk
  let per := s.perPos a
  finish o.pfx (do
    let s ← s.vecCheck (anyType (s.vtype o.pfx)) [vreg o.d w] [a, b] false
    let src e := if s.active sel per e then b else a
    .ok (s.elementwise 0#3 false per (.vec (vreg o.d w))
      (fun e => s.activeUnknown sel per e || s.elemUnknown (src e) e) (fun e => (s.elem (src e) e, 0#5))))

/-- VMV (R128). -/
def execVmv (o : VOp2) (s : State) := unaryOp o anyType (fun _ _ x => (x, 0#5)) s

/-- VBCAST (R128). -/
def execVbcast (p : Option Pfx) (d a : BitVec 5) (m : BitVec 3) (s : State) : Host.Outcome State Fault Refusal :=
  elementOp p m (anyType (s.vtype p)) (vreg d (typeWidth (s.vtype p))) [] false
    (fun _ => s.gUnknown a) (fun _ => ((s.g a).toNat, 0#5)) s

/-- VID (R128). -/
def execVid (p : Option Pfx) (d : BitVec 5) (m : BitVec 3) (s : State) : Host.Outcome State Fault Refusal :=
  elementOp p m (isInt (s.vtype p)) (vreg d (typeWidth (s.vtype p))) [] false (fun _ => false) (fun e => (e, 0#5)) s

/-- The value that VEXT writes: extended by sign for an I type (R45, R128). -/
def extended (t : BitVec 4) (x : Nat) : Word :=
  BitVec.ofNat 64 (if isSigned t then ofSigned 64 (toSigned (typeWidth t) x) else x)

/-- VEXT (R128). -/
def execVext (p : Option Pfx) (d a b : BitVec 5) (_x : Bool) (s : State) : Host.Outcome State Fault Refusal :=
  let t := s.vtype p
  let o := vreg a (typeWidth t)
  let i := (s.g b).toNat
  finish p (do
    let s ← s.vecCheck (anyType t) [] [o] false
    let unk := s.gUnknown b || (decide (i < s.hart.vl) && s.elemUnknown o i)
    let x := if i < s.hart.vl then extended t (s.elem o i) else 0#64
    .ok (((s.setG d x).noteG d unk).setVstart 0))

/-- VINS (R128). -/
def execVins (p : Option Pfx) (d a b : BitVec 5) (s : State) : Host.Outcome State Fault Refusal :=
  let t := s.vtype p
  let o := vreg d (typeWidth t)
  let i := (s.g b).toNat
  finish p (do
    let s ← s.vecCheck (anyType t) [o] [] false
    let t := if i < s.hart.vl then
        (if s.gUnknown a then s.noteElem o i true else s.setElem o i (s.g a).toNat) else s
    .ok (t.setVstart 0))

/-! ## Widening (R129) -/

/-- An instruction that writes a group of two at twice the width. -/
def wideningOp (o : VOp3) (f : Int → Int → Int) (s : State) : Host.Outcome State Fault Refusal :=
  let t := s.vtype o.pfx
  let w := typeWidth t
  let a := vreg o.a w
  let b := vreg o.b w
  elementOp o.pfx o.msk (narrowInt t) ⟨o.d, 2, 2 * w⟩ [a, b] false (s.anyUnknown [a, b])
    (fun e => (ofSigned (2 * w) (f (intOf w (isSigned t) (s.elem a e)) (intOf w (isSigned t) (s.elem b e))), 0#5)) s

/-- VWMUL (R129). -/
def execVwmul (o : VOp3) (s : State) := wideningOp o (· * ·) s
/-- VWADD (R129). -/
def execVwadd (o : VOp3) (s : State) := wideningOp o (· + ·) s

end Sys2Proof.Machine
end

