-- ==== Sys2Proof/Machine/Vmask.lean ====
section
/-! DEFINITION. Vmask.lean: mask instructions (R149). An instruction with no type of its own takes the element
width under which VL was set (VLW) for the place of element e among span positions (log 14). -/

namespace Sys2Proof.Machine

/-- Elements at one span position at the width of VLW (log 14). -/
def State.maskPer (s : State) : Nat := s.hart.vlmaxb * 8 / s.hart.vlw

/-- A bitwise mask instruction, not governed by a mask. -/
def maskLogic (p : Option Pfx) (d : BitVec 3) (srcs : List (BitVec 3)) (f : Nat → Bool) (s : State) :
    Host.Outcome State Fault Refusal :=
  finish p (.ok (s.elementwise 0#3 false s.maskPer (.mask d s.maskPer)
    (fun e => srcs.any fun r => s.maskUnknown r s.maskPer e) (fun e => (bit (f e), 0#5))))

/-- Bit e of an operand. -/
def State.mbit (s : State) (r : BitVec 3) (e : Nat) : Bool := s.maskBit r s.maskPer e

/-- MAND (R149). -/
def execMand (p : Option Pfx) (d a b : BitVec 3) (s : State) := maskLogic p d [a, b] (fun e => s.mbit a e && s.mbit b e) s
/-- MOR (R149). -/
def execMor (p : Option Pfx) (d a b : BitVec 3) (s : State) := maskLogic p d [a, b] (fun e => s.mbit a e || s.mbit b e) s
/-- MXOR (R149). -/
def execMxor (p : Option Pfx) (d a b : BitVec 3) (s : State) := maskLogic p d [a, b] (fun e => s.mbit a e != s.mbit b e) s
/-- MANDN (R149). -/
def execMandn (p : Option Pfx) (d a b : BitVec 3) (s : State) := maskLogic p d [a, b] (fun e => s.mbit a e && !s.mbit b e) s
/-- MNOT (R149). -/
def execMnot (p : Option Pfx) (d a : BitVec 3) (s : State) := maskLogic p d [a] (fun e => !s.mbit a e) s
/-- MSET (R149). -/
def execMset (p : Option Pfx) (d : BitVec 3) (s : State) := maskLogic p d [] (fun _ => true) s
/-- MCLR (R149). -/
def execMclr (p : Option Pfx) (d : BitVec 3) (s : State) := maskLogic p d [] (fun _ => false) s

/-- The active elements below VL with ma[e] = 1. -/
def State.setActives (s : State) (sel a : BitVec 3) : List Nat :=
  (List.range s.hart.vl).filter fun e => s.active sel s.maskPer e && s.mbit a e

/-- Some bit that the set of active elements with ma[e] = 1 depends on is unknown. -/
def State.setUnknown (s : State) (sel a : BitVec 3) : Bool :=
  (List.range s.hart.vl).any fun e =>
    s.activeUnknown sel s.maskPer e || (s.active sel s.maskPer e && s.maskUnknown a s.maskPer e)

/-- MPOP or MFIRST: a scalar result; VSTART is ignored and written as 0. -/
def maskScalar (p : Option Pfx) (d : BitVec 5) (a m : BitVec 3) (f : List Nat → Word) (s : State) :
    Host.Outcome State Fault Refusal :=
  let sel := s.maskSel p m
  finish p (.ok (((s.setG d (f (s.setActives sel a))).noteG d (s.setUnknown sel a)).setVstart 0))

/-- MPOP (R149). -/
def execMpop (p : Option Pfx) (d : BitVec 5) (a m : BitVec 3) (s : State) :=
  maskScalar p d a m (fun l => BitVec.ofNat 64 l.length) s
/-- MFIRST (R149). -/
def execMfirst (p : Option Pfx) (d : BitVec 5) (a m : BitVec 3) (s : State) :=
  maskScalar p d a m (fun l => match l with | e :: _ => BitVec.ofNat 64 e | [] => BitVec.allOnes 64) s

/-- MFROMV (R149). -/
def execMfromv (p : Option Pfx) (d : BitVec 3) (a : BitVec 5) (_x : Bool) (m : BitVec 3) (s : State) :
    Host.Outcome State Fault Refusal :=
  let t := s.vtype p
  let o := vreg a (typeWidth t)
  let per := s.perPos o
  finish p (do
    let s ← s.vecCheck (anyType t) [] [o] false
    .ok (s.elementwise (s.maskSel p m) (s.zeroing p) per (.mask d per) (s.elemUnknown o)
      (fun e => (bit (s.elem o e != 0), 0#5))))

/-- MTOV (R149). -/
def execMtov (p : Option Pfx) (d : BitVec 5) (a m : BitVec 3) (s : State) : Host.Outcome State Fault Refusal :=
  let t := s.vtype p
  let o := vreg d (typeWidth t)
  elementOp p m (isInt t) o [] false (s.maskUnknown a (s.perPos o)) (fun e => (bit (s.maskBit a (s.perPos o) e), 0#5)) s

/-- MSBF (R149). -/
def execMsbf (p : Option Pfx) (d a m : BitVec 3) (s : State) : Host.Outcome State Fault Refusal :=
  let sel := s.maskSel p m
  let per := s.maskPer
  finish p (.ok (s.elementwise sel (s.zeroing p) per (.mask d per)
    (fun e => (List.range (e + 1)).any fun i =>
      s.activeUnknown sel per i || (s.active sel per i && s.maskUnknown a per i))
    (fun e => (bit (!s.mbit a e && !(List.range e).any fun i => s.active sel per i && s.mbit a i), 0#5))))

end Sys2Proof.Machine
end

