-- ==== Sys2Proof/Machine/Vrp.lean ====
section
/-! DEFINITION. Vrp.lean: reductions, scans and the instructions that move elements between indices
(R42, R43, R143 to R148). -/

namespace Sys2Proof.Machine

/-! ## Reductions (R143) -/

/-- The active elements below VL. -/
def State.actives (s : State) (sel : BitVec 3) (per : Nat) : List Nat :=
  (List.range s.hart.vl).filter fun e => s.active sel per e

/-- Something that the active elements depend on is unknown. -/
def State.activesUnknown (s : State) (sel : BitVec 3) (per : Nat) (a : VOpd) : Bool :=
  (List.range s.hart.vl).any fun e => s.activeUnknown sel per e || (s.active sel per e && s.elemUnknown a e)

/-- A reduction: checks, then vd[0], or EMPTY (R143, R145). `f` reduces the active elements from vb[0]. -/
def reductionOp (o : VOp3) (ok : BitVec 4 → Bool)
    (f : BitVec 4 → BitVec 3 → Nat → Nat → List Nat → Nat × Flags) (s : State) : Host.Outcome State Fault Refusal :=
  let t := s.vtype o.pfx
  let w := typeWidth t
  let d := vreg o.d w
  let a := vreg o.a w
  let b := vreg o.b w
  let sel := s.maskSel o.pfx o.msk
  let per := s.perPos a
  finish o.pfx (do
    let s ← s.vecCheck (ok t && s.hart.vstart == 0) [d] [a, b] false
    if s.hart.vl = 0 then .ok (s.setVstart 0)
    else if s.activesUnknown sel per a || s.elemUnknown b 0 then .ok ((s.noteElem d 0 true).setVstart 0)
    else
      let act := s.actives sel per
      if act = [] then .ok (((s.setElem d 0 (s.elem b 0)).noteVstat vstatEmpty).setVstart 0)
      else
        let (x, fl) := f t sel per (s.elem b 0) act
        .ok (((s.setElem d 0 x).orVstat fl).setVstart 0))

/-- An integer reduction: any order gives the same result. -/
def intReduction (o : VOp3) (f : Nat → Nat → Nat → Nat) (s : State) : Host.Outcome State Fault Refusal :=
  reductionOp o isInt (fun t _ _ z act =>
    let w := typeWidth t
    (act.foldl (fun r e => f w r (s.elem (vreg o.a w) e)) z, 0#5)) s

/-- VREDSUM (R143). -/
def execVredsum (o : VOp3) (s : State) := intReduction o (fun w x y => (x + y) % 2 ^ w) s
/-- VREDMIN (R143). -/
def execVredmin (o : VOp3) (s : State) := intReduction o (extremum true false) s
/-- VREDMAX (R143). -/
def execVredmax (o : VOp3) (s : State) := intReduction o (extremum true true) s
/-- VREDMINN (R143). -/
def execVredminn (o : VOp3) (s : State) := intReduction o (extremum false false) s
/-- VREDMAXN (R143). -/
def execVredmaxn (o : VOp3) (s : State) := intReduction o (extremum false true) s
/-- VREDAND (R143). -/
def execVredand (o : VOp3) (s : State) := intReduction o (fun _ x y => x &&& y) s
/-- VREDOR (R143). -/
def execVredor (o : VOp3) (s : State) := intReduction o (fun _ x y => x ||| y) s
/-- VREDXOR (R143). -/
def execVredxor (o : VOp3) (s : State) := intReduction o (fun _ x y => x ^^^ y) s

/-- Node(lo, 2^k) of R42: absent when no active element lies in it. `leaf` is the value of an active
element; Combine takes its element index. -/
def treeNode (leaf : Nat → Option Nat) (vl : Nat) (combine : Nat → Nat → Nat → Nat × Flags) :
    Nat → Nat → Option (Nat × Flags)
  | 0, lo => (leaf lo).map (·, 0#5)
  | k + 1, lo =>
    if vl ≤ lo then none
    else
      match treeNode leaf vl combine k lo, treeNode leaf vl combine k (lo + 2 ^ k) with
      | none, b => b
      | a, none => a
      | some (a, fa), some (b, fb) =>
        let (c, fc) := combine (lo + 2 ^ k) a b
        some (c, fa ||| fb ||| fc)

/-- The depth of the tree: P is the smallest power of two that is at least VL. -/
def treeDepth (vl : Nat) : Nat := if vl ≤ 1 then 0 else (vl - 1).log2 + 1

/-- A float reduction over the fixed tree (R42). -/
def treeReduction (o : VOp3) (combine : BitVec 4 → Nat → Nat → Nat → Nat × Flags) (s : State) :
    Host.Outcome State Fault Refusal :=
  reductionOp o arithFloat (fun t sel per z _ =>
    let a := vreg o.a (typeWidth t)
    let leaf e := if e < s.hart.vl && s.active sel per e then some (s.elem a e) else none
    match treeNode leaf s.hart.vl (combine t) (treeDepth s.hart.vl) 0 with
    | none => (z, 0#5)
    | some (x, fx) =>
      let (r, fr) := combine t 0 z x
      (r, fx ||| fr)) s

/-- VFREDSUM (R143). -/
def execVfredsum (o : VOp3) (s : State) :=
  treeReduction o (fun t i x y => fpAdd (fmtOf t) (s.vecEnv o.pfx i) false x y) s
/-- An operand pattern as Combine reads it: under FTZ a subnormal is a zero of its sign (R25). -/
def Fmt.flushed (f : Fmt) (ftz : Bool) (x : Nat) : Nat :=
  if ftz && f.flushes && f.isSub x then f.signed (f.neg x) 0 else x

/-- Combine of VFREDMIN and VFREDMAX (R42), with R25 at each node. -/
def extremeOf (f : Fmt) (ftz max : Bool) (x y : Nat) : Nat × Flags := minMax f max (f.flushed ftz x) (f.flushed ftz y)

/-- VFREDMIN (R143). -/
def execVfredmin (o : VOp3) (s : State) :=
  treeReduction o (fun t i x y => extremeOf (fmtOf t) (s.vecEnv o.pfx i).ftz false x y) s
/-- VFREDMAX (R143). -/
def execVfredmax (o : VOp3) (s : State) :=
  treeReduction o (fun t i x y => extremeOf (fmtOf t) (s.vecEnv o.pfx i).ftz true x y) s

/-! ## Scans (R144) -/

/-- The running value of a scan: the pattern, and whether it is unknown. -/
structure Running where
  t : State
  x : Nat
  unk : Bool

/-- One element of a scan. `incl`: the element receives the value after its own Combine. -/
def State.scanStep (s : State) (sel : BitVec 3) (zero : Bool) (d a : VOpd) (incl : Bool)
    (combine : Nat → Nat → Nat → Nat × Flags) (r : Running) (e : Nat) : Running :=
  let per := s.perPos a
  if s.activeUnknown sel per e then { r with t := r.t.noteElem d e true, unk := true }
  else if s.active sel per e then
    let (y, f) := combine e r.x (s.elem a e)
    let unk := r.unk || s.elemUnknown a e
    let out := if incl then (y, unk) else (r.x, r.unk)
    { t := if out.2 then r.t.noteElem d e true else (r.t.setElem d e out.1).orVstat f, x := y, unk := unk }
  else { r with t := if zero then r.t.setElem d e 0 else r.t }

/-- A scan (R144, R145). -/
def scanOp (o : VOp3) (ok : BitVec 4 → Bool) (incl : Bool) (combine : BitVec 4 → Nat → Nat → Nat → Nat × Flags)
    (s : State) : Host.Outcome State Fault Refusal :=
  let t := s.vtype o.pfx
  let w := typeWidth t
  let d := vreg o.d w
  let a := vreg o.a w
  let b := vreg o.b w
  let sel := s.maskSel o.pfx o.msk
  finish o.pfx (do
    let s ← s.vecCheck (ok t && s.hart.vstart == 0) [d] [a, b] false
    if s.hart.vl = 0 then .ok (s.setVstart 0)
    else if s.actives sel (s.perPos a) = [] && !s.activesUnknown sel (s.perPos a) a then
      .ok ((s.noteVstat vstatEmpty).setVstart 0)
    else
      let r := (List.range s.hart.vl).foldl (s.scanStep sel (s.zeroing o.pfx) d a incl (combine t))
        { t := s, x := s.elem b 0, unk := s.elemUnknown b 0 }
      .ok (r.t.setVstart 0))

/-- VSCAN (R144). -/
def execVscan (o : VOp3) (s : State) := scanOp o isInt true (fun t _ x y => ((x + y) % 2 ^ typeWidth t, 0#5)) s
/-- VSCANX (R144). -/
def execVscanx (o : VOp3) (s : State) := scanOp o isInt false (fun t _ x y => ((x + y) % 2 ^ typeWidth t, 0#5)) s
/-- VFSCAN (R43, R144). -/
def execVfscan (o : VOp3) (s : State) :=
  scanOp o arithFloat true (fun t i x y => fpAdd (fmtOf t) (s.vecEnv o.pfx i) false x y) s

/-! ## Moving elements between indices (R146 to R148) -/

/-- A source element of a destination element: none gives 0. -/
abbrev Source := Nat → Option Nat

/-- Some active destination element would read a source element at another span position (R147). -/
def State.crosses (s : State) (sel : BitVec 3) (d : VOpd) (src : Source) (from0 : Nat) : Bool :=
  s.toVl.any fun e =>
    from0 ≤ e && s.active sel (s.perPos d) e && ((src e).map fun i => i / s.perPos d != e / s.perPos d).getD false

/-- Code 17 (R147). -/
def crossingTrap : Trap := { code := 17 }

/-- An instruction of Table 8.4 that writes va[src e] to each active element at or above `from0`; the elements
below it stay as they are. `crossing`: R147 applies. `unk`: an operand that chooses elements is unknown. -/
def moveOp (p : Option Pfx) (msk : BitVec 3) (d a : BitVec 5) (srcs : List VOpd) (ok crossing : Bool) (from0 : Nat)
    (unk : Nat → Bool) (src : Source) (s : State) : Host.Outcome State Fault Refusal :=
  let w := typeWidth (s.vtype p)
  let vd := vreg d w
  let va := vreg a w
  let sel := s.maskSel p msk
  finish p (do
    let s ← s.vecCheck ok [vd] (va :: srcs) true
    let s ← require (!(crossing && s.crosses sel vd src from0)) crossingTrap s
    let lost e := unk e || ((src e).map (s.elemUnknown va)).getD false
    let op e : Nat × Flags := (((src e).map (s.elem va)).getD 0, 0#5)
    .ok (((s.range.filter (from0 ≤ ·)).foldl
      (s.elementStep sel (s.zeroing p) (s.perPos vd) (.vec vd) lost op) s).setVstart 0))

/-- In run-ahead every element from VSTART on is unknown, where the shift of VSLUP is (R327). -/
def State.loseMove (s : State) (p : Option Pfx) (d a : BitVec 5) : Host.Outcome State Fault Refusal :=
  let w := typeWidth (s.vtype p)
  finish p (do
    let s ← s.vecCheck (anyType (s.vtype p)) [vreg d w] [vreg a w] true
    .ok ((s.range.foldl (fun t e => t.noteElem (vreg d w) e true) s).setVstart 0))

/-- VSLUP (R146). -/
def execVslup (p : Option Pfx) (d a b : BitVec 5) (_x : Bool) (m : BitVec 3) (s : State) :=
  let n := (s.g b).toNat
  if s.gUnknown b then s.loseMove p d a
  else moveOp p m d a [] (anyType (s.vtype p)) true n (fun _ => false) (fun e => some (e - n)) s

/-- VSLDN (R146). -/
def execVsldn (p : Option Pfx) (d a b : BitVec 5) (_x : Bool) (m : BitVec 3) (s : State) :=
  let n := (s.g b).toNat
  moveOp p m d a [] (anyType (s.vtype p)) true 0 (fun _ => s.gUnknown b)
    (fun e => if e + n < s.hart.vl then some (e + n) else none) s

/-- VPERM (R146); E2M1 is illegal. -/
def execVperm (o : VOp3) (s : State) :=
  let t := s.vtype o.pfx
  let b := vreg o.b (typeWidth t)
  moveOp o.pfx o.msk o.d o.a [b] (anyType t && t != 14#4) true 0 (s.elemUnknown b)
    (fun e => if s.elem b e < s.hart.vl then some (s.elem b e) else none) s

/-- VUNPACK (R146). -/
def execVunpack (o : VOp2) (s : State) :=
  let per := s.perPos (vreg o.a (typeWidth (s.vtype o.pfx)))
  let sel := s.maskSel o.pfx o.msk
  moveOp o.pfx o.msk o.d o.a [] (anyType (s.vtype o.pfx)) true 0
    (fun e => (List.range e).any fun i => s.activeUnknown sel per i)
    (fun e => some ((List.range e).countP fun i => s.active sel per i)) s

/-- VREV (R146). -/
def execVrev (o : VOp2) (s : State) :=
  moveOp o.pfx o.msk o.d o.a [] (anyType (s.vtype o.pfx)) true 0 (fun _ => false)
    (fun e => some (s.hart.vl - 1 - e)) s

/-- VXCHG (R148). It takes the policy, and its inactive elements follow it, as those of Table 8.4 do (R146); R148 lists no policy
(log 83). -/
def execVxchg (p : Option Pfx) (d a b : BitVec 5) (_x : Bool) (m : BitVec 3) (s : State) :=
  let per := s.perPos (vreg a (typeWidth (s.vtype p)))
  let np := s.positions
  let step := fieldNat (s.g b) 0 3
  let q pos := if (s.g b).getLsbD 3 then (pos ^^^ step) % np else (pos + step) % np
  moveOp p m d a [] (anyType (s.vtype p)) false 0 (fun _ => s.gUnknown b)
    (fun e => let i := q (e / per) * per + e % per; if i < s.hart.vl then some i else none) s

/-- One source element of VPACK: the destination position is the number of active elements below it. -/
def State.packStep (s : State) (sel : BitVec 3) (d a : VOpd) (r : State × Nat × Bool) (e : Nat) : State × Nat × Bool :=
  let per := s.perPos a
  let unk := r.2.2 || s.activeUnknown sel per e
  if unk then (r.1.noteElem d r.2.1 true, r.2.1 + 1, true)
  else if s.active sel per e then
    (if s.elemUnknown a e then r.1.noteElem d r.2.1 true else r.1.setElem d r.2.1 (s.elem a e), r.2.1 + 1, false)
  else r

/-- The elements that VPACK moves, each with its destination. -/
def State.packMoves (s : State) (sel : BitVec 3) (per : Nat) : List (Nat × Nat) :=
  (s.toVl.filter fun e => s.active sel per e).map fun e => ((List.range e).countP fun i => s.active sel per i, e)

/-- VPACK (R146): VSTART counts source elements. -/
def execVpack (o : VOp2) (s : State) : Host.Outcome State Fault Refusal :=
  let w := typeWidth (s.vtype o.pfx)
  let d := vreg o.d w
  let a := vreg o.a w
  let sel := s.maskSel o.pfx o.msk
  let per := s.perPos a
  finish o.pfx (do
    let s ← s.vecCheck (anyType (s.vtype o.pfx)) [d] [a] true
    let s ← require (!(s.packMoves sel per).any fun m => m.1 / per != m.2 / per) crossingTrap s
    let c0 := (List.range s.hart.vstart).countP fun i => s.active sel per i
    .ok ((s.range.foldl (s.packStep sel d a) (s, c0, false)).1.setVstart 0))

end Sys2Proof.Machine
end

