-- ==== Sys2Proof/Machine/Dispatch.lean ====
section
/-! DEFINITION. Dispatch.lean: one arm per row of the opcode table. -/

namespace Sys2Proof.Machine

def exec (i : Instr) (s : State) : Host.Outcome State Fault Refusal :=
  match i with
  | .add d a b => Sys2Proof.Machine.execAdd d a b s
  | .sub d a b => Sys2Proof.Machine.execSub d a b s
  | .and d a b => Sys2Proof.Machine.execAnd d a b s
  | .or d a b => Sys2Proof.Machine.execOr d a b s
  | .xor d a b => Sys2Proof.Machine.execXor d a b s
  | .andn d a b => Sys2Proof.Machine.execAndn d a b s
  | .orn d a b => Sys2Proof.Machine.execOrn d a b s
  | .sll d a b => Sys2Proof.Machine.execSll d a b s
  | .srl d a b => Sys2Proof.Machine.execSrl d a b s
  | .sra d a b => Sys2Proof.Machine.execSra d a b s
  | .rol d a b => Sys2Proof.Machine.execRol d a b s
  | .ror d a b => Sys2Proof.Machine.execRor d a b s
  | .slt d a b => Sys2Proof.Machine.execSlt d a b s
  | .sltn d a b => Sys2Proof.Machine.execSltn d a b s
  | .min d a b => Sys2Proof.Machine.execMin d a b s
  | .max d a b => Sys2Proof.Machine.execMax d a b s
  | .minn d a b => Sys2Proof.Machine.execMinn d a b s
  | .maxn d a b => Sys2Proof.Machine.execMaxn d a b s
  | .mul d a b => Sys2Proof.Machine.execMul d a b s
  | .mulh d a b => Sys2Proof.Machine.execMulh d a b s
  | .mulhn d a b => Sys2Proof.Machine.execMulhn d a b s
  | .div d a b => Sys2Proof.Machine.execDiv d a b s
  | .divn d a b => Sys2Proof.Machine.execDivn d a b s
  | .rem d a b => Sys2Proof.Machine.execRem d a b s
  | .remn d a b => Sys2Proof.Machine.execRemn d a b s
  | .clz d a => Sys2Proof.Machine.execClz d a s
  | .ctz d a => Sys2Proof.Machine.execCtz d a s
  | .popc d a => Sys2Proof.Machine.execPopc d a s
  | .bswp d a => Sys2Proof.Machine.execBswp d a s
  | .sext d a b => Sys2Proof.Machine.execSext d a b s
  | .zext d a b => Sys2Proof.Machine.execZext d a b s
  | .selnz d a b => Sys2Proof.Machine.execSelnz d a b s
  | .addi d a imm => Sys2Proof.Machine.execAddi d a imm s
  | .andi d a imm => Sys2Proof.Machine.execAndi d a imm s
  | .ori d a imm => Sys2Proof.Machine.execOri d a imm s
  | .xori d a imm => Sys2Proof.Machine.execXori d a imm s
  | .slli d a n => Sys2Proof.Machine.execSlli d a n s
  | .srli d a n => Sys2Proof.Machine.execSrli d a n s
  | .srai d a n => Sys2Proof.Machine.execSrai d a n s
  | .rori d a n => Sys2Proof.Machine.execRori d a n s
  | .slti d a imm => Sys2Proof.Machine.execSlti d a imm s
  | .sltni d a imm => Sys2Proof.Machine.execSltni d a imm s
  | .ldhi d imm => Sys2Proof.Machine.execLdhi d imm s
  | .addpc d imm => Sys2Proof.Machine.execAddpc d imm s
  | .ldb d a imm => Sys2Proof.Machine.execLdb d a imm s
  | .ldbn d a imm => Sys2Proof.Machine.execLdbn d a imm s
  | .ldh d a imm => Sys2Proof.Machine.execLdh d a imm s
  | .ldhn d a imm => Sys2Proof.Machine.execLdhn d a imm s
  | .ldw d a imm => Sys2Proof.Machine.execLdw d a imm s
  | .ldwn d a imm => Sys2Proof.Machine.execLdwn d a imm s
  | .ldd d a imm => Sys2Proof.Machine.execLdd d a imm s
  | .stb d a imm => Sys2Proof.Machine.execStb d a imm s
  | .sth d a imm => Sys2Proof.Machine.execSth d a imm s
  | .stw d a imm => Sys2Proof.Machine.execStw d a imm s
  | .std d a imm => Sys2Proof.Machine.execStd d a imm s
  | .beq a b o => Sys2Proof.Machine.execBeq a b o s
  | .bne a b o => Sys2Proof.Machine.execBne a b o s
  | .blt a b o => Sys2Proof.Machine.execBlt a b o s
  | .bge a b o => Sys2Proof.Machine.execBge a b o s
  | .bltn a b o => Sys2Proof.Machine.execBltn a b o s
  | .bgen a b o => Sys2Proof.Machine.execBgen a b o s
  | .jal o => Sys2Proof.Machine.execJal o s
  | .jalr d a imm => Sys2Proof.Machine.execJalr d a imm s
  | .fadd d a b r p => Sys2Proof.Machine.execFadd d a b r p s
  | .fsub d a b r p => Sys2Proof.Machine.execFsub d a b r p s
  | .fmul d a b r p => Sys2Proof.Machine.execFmul d a b r p s
  | .fdiv d a b r p => Sys2Proof.Machine.execFdiv d a b r p s
  | .fsqrt d a r p => Sys2Proof.Machine.execFsqrt d a r p s
  | .fma d a b r p => Sys2Proof.Machine.execFma d a b r p s
  | .fmin d a b p => Sys2Proof.Machine.execFmin d a b p s
  | .fmax d a b p => Sys2Proof.Machine.execFmax d a b p s
  | .feq d a b p => Sys2Proof.Machine.execFeq d a b p s
  | .flt d a b p => Sys2Proof.Machine.execFlt d a b p s
  | .fle d a b p => Sys2Proof.Machine.execFle d a b p s
  | .fclass d a p => Sys2Proof.Machine.execFclass d a p s
  | .fcvtff d a r p => Sys2Proof.Machine.execFcvtff d a r p s
  | .fcvti d a r p => Sys2Proof.Machine.execFcvti d a r p s
  | .fcvtn d a r p => Sys2Proof.Machine.execFcvtn d a r p s
  | .fcvtw d a r p => Sys2Proof.Machine.execFcvtw d a r p s
  | .fcvtwn d a r p => Sys2Proof.Machine.execFcvtwn d a r p s
  | .fcvtif d a r p => Sys2Proof.Machine.execFcvtif d a r p s
  | .fcvtnf d a r p => Sys2Proof.Machine.execFcvtnf d a r p s
  | .fsgn d a b p => Sys2Proof.Machine.execFsgn d a b p s
  | .fsgnn d a b p => Sys2Proof.Machine.execFsgnn d a b p s
  | .fsgnx d a b p => Sys2Proof.Machine.execFsgnx d a b p s
  | .amoadd d a b sc q l w => Sys2Proof.Machine.execAmoadd d a b sc q l w s
  | .amoand d a b sc q l w => Sys2Proof.Machine.execAmoand d a b sc q l w s
  | .amoor d a b sc q l w => Sys2Proof.Machine.execAmoor d a b sc q l w s
  | .amoxor d a b sc q l w => Sys2Proof.Machine.execAmoxor d a b sc q l w s
  | .amomin d a b sc q l w => Sys2Proof.Machine.execAmomin d a b sc q l w s
  | .amomax d a b sc q l w => Sys2Proof.Machine.execAmomax d a b sc q l w s
  | .amominn d a b sc q l w => Sys2Proof.Machine.execAmominn d a b sc q l w s
  | .amomaxn d a b sc q l w => Sys2Proof.Machine.execAmomaxn d a b sc q l w s
  | .amoswp d a b sc q l w => Sys2Proof.Machine.execAmoswp d a b sc q l w s
  | .amofadd d a b sc q l w => Sys2Proof.Machine.execAmofadd d a b sc q l w s
  | .cas d a b sc q l w => Sys2Proof.Machine.execCas d a b sc q l w s
  | .cas2 d a b sc q l => Sys2Proof.Machine.execCas2 d a b sc q l s
  | .lda d a sc w => Sys2Proof.Machine.execLda d a sc w s
  | .strel d a sc w => Sys2Proof.Machine.execStrel d a sc w s
  | .fence sc q l => Sys2Proof.Machine.execFence sc q l s
  | .vdrain k sc q l => Sys2Proof.Machine.execVdrain k sc q l s
  | .barinit a b sc => Sys2Proof.Machine.execBarinit a b sc s
  | .barjoin a => Sys2Proof.Machine.execBarjoin a s
  | .barleave a => Sys2Proof.Machine.execBarleave a s
  | .bararr d a => Sys2Proof.Machine.execBararr d a s
  | .barwait d a b => Sys2Proof.Machine.execBarwait d a b s
  | .barsyn d a => Sys2Proof.Machine.execBarsyn d a s
  | .kwait k => Sys2Proof.Machine.execKwait k s
  | .krd d k => Sys2Proof.Machine.execKrd d k s
  | .kset d a k => Sys2Proof.Machine.execKset d a k s
  | .kstat d k => Sys2Proof.Machine.execKstat d k s
  | .pause => Sys2Proof.Machine.execPause s
  | .yield => Sys2Proof.Machine.execYield s
  | .watch d a b => Sys2Proof.Machine.execWatch d a b s
  | .unwatch d a => Sys2Proof.Machine.execUnwatch d a s
  | .vwarm d a b m => Sys2Proof.Machine.execVwarm d a b m s
  | .waitany d a b => Sys2Proof.Machine.execWaitany d a b s
  | .phase d => Sys2Proof.Machine.execPhase d s
  | .launch d a b sc => Sys2Proof.Machine.execLaunch d a b sc s
  | .cancel d a n => Sys2Proof.Machine.execCancel d a n s
  | .exit a sc => Sys2Proof.Machine.execExit a sc s
  | .trap n h => Sys2Proof.Machine.execTrap n h s
  | .eret => Sys2Proof.Machine.execEret s
  | .srd d n h => Sys2Proof.Machine.execSrd d n h s
  | .swr d a n h => Sys2Proof.Machine.execSwr d a n h s
  | .sset d a n h => Sys2Proof.Machine.execSset d a n h s
  | .sclr d a n h => Sys2Proof.Machine.execSclr d a n h s
  | .svc n h => Sys2Proof.Machine.execSvc n h s
  | .linewb a => Sys2Proof.Machine.execLinewb a s
  | .lineinv a => Sys2Proof.Machine.execLineinv a s
  | .tlbsh d a k => Sys2Proof.Machine.execTlbsh d a k s
  | .fencei => Sys2Proof.Machine.execFencei s
  | .wfi => Sys2Proof.Machine.execWfi s
  | .halt => Sys2Proof.Machine.execHalt s
  | .vclaim p d a b => Sys2Proof.Machine.execVclaim p d a b s
  | .vrel p => Sys2Proof.Machine.execVrel p s
  | .setvl p d a => Sys2Proof.Machine.execSetvl p d a s
  | .setvm p d a b => Sys2Proof.Machine.execSetvm p d a b s
  | .vspill p d a => Sys2Proof.Machine.execVspill p d a s
  | .vfill p d a => Sys2Proof.Machine.execVfill p d a s
  | .zspill p d a => Sys2Proof.Machine.execZspill p d a s
  | .zfill p d a => Sys2Proof.Machine.execZfill p d a s
  | .vadd o => Sys2Proof.Machine.execVadd o s
  | .vsub o => Sys2Proof.Machine.execVsub o s
  | .vrsub o => Sys2Proof.Machine.execVrsub o s
  | .vmul o => Sys2Proof.Machine.execVmul o s
  | .vmulh o => Sys2Proof.Machine.execVmulh o s
  | .vmulhn o => Sys2Proof.Machine.execVmulhn o s
  | .vdiv o => Sys2Proof.Machine.execVdiv o s
  | .vdivn o => Sys2Proof.Machine.execVdivn o s
  | .vrem o => Sys2Proof.Machine.execVrem o s
  | .vremn o => Sys2Proof.Machine.execVremn o s
  | .vmin o => Sys2Proof.Machine.execVmin o s
  | .vmax o => Sys2Proof.Machine.execVmax o s
  | .vminn o => Sys2Proof.Machine.execVminn o s
  | .vmaxn o => Sys2Proof.Machine.execVmaxn o s
  | .vand o => Sys2Proof.Machine.execVand o s
  | .vor o => Sys2Proof.Machine.execVor o s
  | .vxor o => Sys2Proof.Machine.execVxor o s
  | .vsll o => Sys2Proof.Machine.execVsll o s
  | .vsrl o => Sys2Proof.Machine.execVsrl o s
  | .vsra o => Sys2Proof.Machine.execVsra o s
  | .vcmpeq o => Sys2Proof.Machine.execVcmpeq o s
  | .vcmpne o => Sys2Proof.Machine.execVcmpne o s
  | .vcmplt o => Sys2Proof.Machine.execVcmplt o s
  | .vcmple o => Sys2Proof.Machine.execVcmple o s
  | .vcmpltn o => Sys2Proof.Machine.execVcmpltn o s
  | .vcmplen o => Sys2Proof.Machine.execVcmplen o s
  | .vmerge o => Sys2Proof.Machine.execVmerge o s
  | .vmv o => Sys2Proof.Machine.execVmv o s
  | .vbcast p d a m => Sys2Proof.Machine.execVbcast p d a m s
  | .vid p d m => Sys2Proof.Machine.execVid p d m s
  | .vext p d a b x => Sys2Proof.Machine.execVext p d a b x s
  | .vins p d a b => Sys2Proof.Machine.execVins p d a b s
  | .vwmul o => Sys2Proof.Machine.execVwmul o s
  | .vwadd o => Sys2Proof.Machine.execVwadd o s
  | .vfadd o => Sys2Proof.Machine.execVfadd o s
  | .vfsub o => Sys2Proof.Machine.execVfsub o s
  | .vfmul o => Sys2Proof.Machine.execVfmul o s
  | .vfdiv o => Sys2Proof.Machine.execVfdiv o s
  | .vfsqrt o => Sys2Proof.Machine.execVfsqrt o s
  | .vfma o => Sys2Proof.Machine.execVfma o s
  | .vfms o => Sys2Proof.Machine.execVfms o s
  | .vfnma o => Sys2Proof.Machine.execVfnma o s
  | .vfmin o => Sys2Proof.Machine.execVfmin o s
  | .vfmax o => Sys2Proof.Machine.execVfmax o s
  | .vfabs o => Sys2Proof.Machine.execVfabs o s
  | .vfneg o => Sys2Proof.Machine.execVfneg o s
  | .vfcmpeq o => Sys2Proof.Machine.execVfcmpeq o s
  | .vfcmplt o => Sys2Proof.Machine.execVfcmplt o s
  | .vfcmple o => Sys2Proof.Machine.execVfcmple o s
  | .vfclass o => Sys2Proof.Machine.execVfclass o s
  | .vfrcp o => Sys2Proof.Machine.execVfrcp o s
  | .vfrsq o => Sys2Proof.Machine.execVfrsq o s
  | .vfex2 o => Sys2Proof.Machine.execVfex2 o s
  | .vflg2 o => Sys2Proof.Machine.execVflg2 o s
  | .vftnh o => Sys2Proof.Machine.execVftnh o s
  | .vfsig o => Sys2Proof.Machine.execVfsig o s
  | .vfexp o => Sys2Proof.Machine.execVfexp o s
  | .vfscl o => Sys2Proof.Machine.execVfscl o s
  | .vcvt p d a t x m => Sys2Proof.Machine.execVcvt p d a t x m s
  | .vcvtef p d a t x m => Sys2Proof.Machine.execVcvtef p d a t x m s
  | .vftoi p d a t x m => Sys2Proof.Machine.execVftoi p d a t x m s
  | .vitof p d a t x m => Sys2Proof.Machine.execVitof p d a t x m s
  | .vredsum o => Sys2Proof.Machine.execVredsum o s
  | .vredmin o => Sys2Proof.Machine.execVredmin o s
  | .vredmax o => Sys2Proof.Machine.execVredmax o s
  | .vredminn o => Sys2Proof.Machine.execVredminn o s
  | .vredmaxn o => Sys2Proof.Machine.execVredmaxn o s
  | .vredand o => Sys2Proof.Machine.execVredand o s
  | .vredor o => Sys2Proof.Machine.execVredor o s
  | .vredxor o => Sys2Proof.Machine.execVredxor o s
  | .vfredsum o => Sys2Proof.Machine.execVfredsum o s
  | .vfredmin o => Sys2Proof.Machine.execVfredmin o s
  | .vfredmax o => Sys2Proof.Machine.execVfredmax o s
  | .vscan o => Sys2Proof.Machine.execVscan o s
  | .vscanx o => Sys2Proof.Machine.execVscanx o s
  | .vfscan o => Sys2Proof.Machine.execVfscan o s
  | .vslup p d a b x m => Sys2Proof.Machine.execVslup p d a b x m s
  | .vsldn p d a b x m => Sys2Proof.Machine.execVsldn p d a b x m s
  | .vperm o => Sys2Proof.Machine.execVperm o s
  | .vpack o => Sys2Proof.Machine.execVpack o s
  | .vunpack o => Sys2Proof.Machine.execVunpack o s
  | .vxchg p d a b x m => Sys2Proof.Machine.execVxchg p d a b x m s
  | .vrev o => Sys2Proof.Machine.execVrev o s
  | .mand p d a b => Sys2Proof.Machine.execMand p d a b s
  | .mor p d a b => Sys2Proof.Machine.execMor p d a b s
  | .mxor p d a b => Sys2Proof.Machine.execMxor p d a b s
  | .mandn p d a b => Sys2Proof.Machine.execMandn p d a b s
  | .mnot p d a => Sys2Proof.Machine.execMnot p d a s
  | .mset p d => Sys2Proof.Machine.execMset p d s
  | .mclr p d => Sys2Proof.Machine.execMclr p d s
  | .mpop p d a m => Sys2Proof.Machine.execMpop p d a m s
  | .mfirst p d a m => Sys2Proof.Machine.execMfirst p d a m s
  | .mfromv p d a x m => Sys2Proof.Machine.execMfromv p d a x m s
  | .mtov p d a m => Sys2Proof.Machine.execMtov p d a m s
  | .msbf p d a m => Sys2Proof.Machine.execMsbf p d a m s
  | .vld p d a m e k => Sys2Proof.Machine.execVld p d a m e k s
  | .vlds p d a b m e k => Sys2Proof.Machine.execVlds p d a b m e k s
  | .vldx p d a b c m e k => Sys2Proof.Machine.execVldx p d a b c m e k s
  | .vldff p d a m e => Sys2Proof.Machine.execVldff p d a m e s
  | .vst p d a c m e k => Sys2Proof.Machine.execVst p d a c m e k s
  | .vsts p d a b c m e k => Sys2Proof.Machine.execVsts p d a b c m e k s
  | .vstx p d a b c m e k => Sys2Proof.Machine.execVstx p d a b c m e k s
  | .vamoadd o => Sys2Proof.Machine.execVamoadd o s
  | .vamoand o => Sys2Proof.Machine.execVamoand o s
  | .vamoor o => Sys2Proof.Machine.execVamoor o s
  | .vamoxor o => Sys2Proof.Machine.execVamoxor o s
  | .vamomin o => Sys2Proof.Machine.execVamomin o s
  | .vamomax o => Sys2Proof.Machine.execVamomax o s
  | .vamominn o => Sys2Proof.Machine.execVamominn o s
  | .vamomaxn o => Sys2Proof.Machine.execVamomaxn o s
  | .vamofadd o => Sys2Proof.Machine.execVamofadd o s
  | .vamofmin o => Sys2Proof.Machine.execVamofmin o s
  | .vamofmax o => Sys2Proof.Machine.execVamofmax o s
  | .vamoswp o => Sys2Proof.Machine.execVamoswp o s
  | .vapnd p d a b c m k => Sys2Proof.Machine.execVapnd p d a b c m k s
  | .sealPage p sc a k => Sys2Proof.Machine.execSealPage p sc a k s
  | .inktail p d a => Sys2Proof.Machine.execInktail p d a s
  | .winit p d a c m k => Sys2Proof.Machine.execWinit p d a c m k s
  | .wdep p d a c m k => Sys2Proof.Machine.execWdep p d a c m k s
  | .wdepx p d a b c m k => Sys2Proof.Machine.execWdepx p d a b c m k s
  | .wread p d a m k => Sys2Proof.Machine.execWread p d a m k s
  | .wdrain p d a m k => Sys2Proof.Machine.execWdrain p d a m k s
  | .olgath p d a b y m => Sys2Proof.Machine.execOlgath p d a b y m s
  | .zrank p d a b x y m => Sys2Proof.Machine.execZrank p d a b x y m s
  | .mblk p d b => Sys2Proof.Machine.execMblk p d b s
  | .zzero p d => Sys2Proof.Machine.execZzero p d s
  | .zread p d a b m => Sys2Proof.Machine.execZread p d a b m s
  | .zwrite p d a b x m => Sys2Proof.Machine.execZwrite p d a b x m s
  | .zdep p d a b m => Sys2Proof.Machine.execZdep p d a b m s
  | .zdim p d => Sys2Proof.Machine.execZdim p d s
  | .copy a sc q l k => Sys2Proof.Machine.execCopy a sc q l k s
  | .coll a b sc q l k => Sys2Proof.Machine.execColl a b sc q l k s
  | .flight a b sc q l k => Sys2Proof.Machine.execFlight a b sc q l k s
  | .ixg a sc q l k => Sys2Proof.Machine.execIxg a sc q l k s
  | .rowin d a b sc k => Sys2Proof.Machine.execRowin d a b sc k s
  | .rowout a => Sys2Proof.Machine.execRowout a s
  | .storeErrorResponse imm => Sys2Proof.Machine.execStoreErrorResponse imm s
  | .storeErrorTrap => Sys2Proof.Machine.execStoreErrorTrap s
  | .vectorMemoryCompletion imm => Sys2Proof.Machine.execVectorMemoryCompletion imm s
  | .tailUnitAppend page esize data => Sys2Proof.Machine.execTailUnitAppend page esize data s
  | .sealRequest page => Sys2Proof.Machine.execSealRequest page s
  | .sealingComplete page => Sys2Proof.Machine.execSealingComplete page s
  | .wellLineStep line => Sys2Proof.Machine.execWellLineStep line s
  | .wellLineFill line bad => Sys2Proof.Machine.execWellLineFill line bad s
  | .wellLineEvict line => Sys2Proof.Machine.execWellLineEvict line s
  | .wellLineWriteback line ok => Sys2Proof.Machine.execWellLineWriteback line ok s
  | .inkPageFree page => Sys2Proof.Machine.execInkPageFree page s
  | .inkFreeDrainDone page => Sys2Proof.Machine.execInkFreeDrainDone page s
  | .replicaCreate page hall => Sys2Proof.Machine.execReplicaCreate page hall s
  | .replicaCopyDone page hall => Sys2Proof.Machine.execReplicaCopyDone page hall s
  | .replicaReclaim page hall => Sys2Proof.Machine.execReplicaReclaim page hall s
  | .replicaReclaimDone page hall => Sys2Proof.Machine.execReplicaReclaimDone page hall s
  | .engineCommandCompletion imm => Sys2Proof.Machine.execEngineCommandCompletion imm s
  | .rowinFillDone imm => Sys2Proof.Machine.execRowinFillDone imm s
  | .waitEntryFire pa => Sys2Proof.Machine.execWaitEntryFire pa s
  | .landingTrigger hall n => Sys2Proof.Machine.execLandingTrigger hall n s
  | .landingAction hall n => Sys2Proof.Machine.execLandingAction hall n s
  | .barrierWaitEnd => Sys2Proof.Machine.execBarrierWaitEnd s
  | .kwaitEnd => Sys2Proof.Machine.execKwaitEnd s
  | .waitanyEnd => Sys2Proof.Machine.execWaitanyEnd s
  | .wfiWake => Sys2Proof.Machine.execWfiWake s
  | .phaseComplete vf serial => Sys2Proof.Machine.execPhaseComplete vf serial s
  | .pauseExpiry => Sys2Proof.Machine.execPauseExpiry s
  | .unitKill vf serial unit => Sys2Proof.Machine.execUnitKill vf serial unit s
  | .dispatcherStep hall => Sys2Proof.Machine.execDispatcherStep hall s
  | .preemptionTimeout vf serial group => Sys2Proof.Machine.execPreemptionTimeout vf serial group s
  | .launchAdmission vf q => Sys2Proof.Machine.execLaunchAdmission vf q s
  | .launchCompletion vf serial => Sys2Proof.Machine.execLaunchCompletion vf serial s
  | .ageBoost vf q => Sys2Proof.Machine.execAgeBoost vf q s
  | .qptrTailWrite vf q tail => Sys2Proof.Machine.execQptrTailWrite vf q tail s
  | .qcfgWrite vf q value => Sys2Proof.Machine.execQcfgWrite vf q value s
  | .contextSave vf serial group => Sys2Proof.Machine.execContextSave vf serial group s
  | .resumption vf serial group hall cluster => Sys2Proof.Machine.execResumption vf serial group hall cluster s
  | .faultRunAheadStop stop => Sys2Proof.Machine.execFaultRunAheadStop stop s
  | .spanPositionLost pos => Sys2Proof.Machine.execSpanPositionLost pos s
  | .lanePoolCapWrite hall cluster cap => Sys2Proof.Machine.execLanePoolCapWrite hall cluster cap s
  | .trfctlClear hall => Sys2Proof.Machine.execTrfctlClear hall s
  | .trfctlFreeze hall on => Sys2Proof.Machine.execTrfctlFreeze hall on s
  | .fqrespRetry hall token => Sys2Proof.Machine.execFqrespRetry hall token s
  | .fqrespForward hall token => Sys2Proof.Machine.execFqrespForward hall token s
  | .fqrespComplete hall token => Sys2Proof.Machine.execFqrespComplete hall token s
  | .shootctlGo hall kind vf => Sys2Proof.Machine.execShootctlGo hall kind vf s
  | .shootdownDone hall => Sys2Proof.Machine.execShootdownDone hall s
  | .hownWrite hall tenant => Sys2Proof.Machine.execHownWrite hall tenant s
  | .hallWarmReset hall => Sys2Proof.Machine.execHallWarmReset hall s
  | .hallForcedReset hall => Sys2Proof.Machine.execHallForcedReset hall s
  | .hallRelease hall => Sys2Proof.Machine.execHallRelease hall s
  | .hallFence hall cause => Sys2Proof.Machine.execHallFence hall cause s
  | .hallHangTimeout hall => Sys2Proof.Machine.execHallHangTimeout hall s
  | .gwctlWrite hall imm value => Sys2Proof.Machine.execGwctlWrite hall imm value s
  | .galleryRevokeDrainDone hall imm => Sys2Proof.Machine.execGalleryRevokeDrainDone hall imm s
  | .violationLogClear hall => Sys2Proof.Machine.execViolationLogClear hall s
  | .vfReset vf => Sys2Proof.Machine.execVfReset vf s
  | .vfResetFlitTimeout vf imm => Sys2Proof.Machine.execVfResetFlitTimeout vf imm s
  | .vfResetComplete vf => Sys2Proof.Machine.execVfResetComplete vf s
  | .vfvcapWrite vf value => Sys2Proof.Machine.execVfvcapWrite vf value s
  | .portcfgGuarWrite hall port guar => Sys2Proof.Machine.execPortcfgGuarWrite hall port guar s
  | .hostPortTrain port mode gen width cache mem => Sys2Proof.Machine.execHostPortTrain port mode gen width cache mem s
  | .hostPortDown port => Sys2Proof.Machine.execHostPortDown port s
  | .hostSnoop pa invalidate => Sys2Proof.Machine.execHostSnoop pa invalidate s
  | .hostCxlMemRequest port addr wdata => Sys2Proof.Machine.execHostCxlMemRequest port addr wdata s
  | .collArming imm => Sys2Proof.Machine.execCollArming imm s
  | .splitFlit imm => Sys2Proof.Machine.execSplitFlit imm s
  | .abortFlit imm cause => Sys2Proof.Machine.execAbortFlit imm cause s
  | .rruContribution imm rank elem => Sys2Proof.Machine.execRruContribution imm rank elem s
  | .flightTransfer imm ordinal => Sys2Proof.Machine.execFlightTransfer imm ordinal s
  | .pathWeightMeasure die => Sys2Proof.Machine.execPathWeightMeasure die s
  | .wavelengthDark die w => Sys2Proof.Machine.execWavelengthDark die w s
  | .relayEstablished src dst => Sys2Proof.Machine.execRelayEstablished src dst s
  | .pathLost src dst => Sys2Proof.Machine.execPathLost src dst s
  | .wavelengthRelit die w => Sys2Proof.Machine.execWavelengthRelit die w s
  | .ixgRemoteRowRequest imm row => Sys2Proof.Machine.execIxgRemoteRowRequest imm row s
  | .extPortTrain hall port width chip peer tenant => Sys2Proof.Machine.execExtPortTrain hall port width chip peer tenant s
  | .extFlitReceive hall port seq slot type tagOk => Sys2Proof.Machine.execExtFlitReceive hall port seq slot type tagOk s
  | .nakReceived hall port seq => Sys2Proof.Machine.execNakReceived hall port seq s
  | .ackReceived hall port seq => Sys2Proof.Machine.execAckReceived hall port seq s
  | .portRetrain hall port => Sys2Proof.Machine.execPortRetrain hall port s
  | .retrainTimeout hall port => Sys2Proof.Machine.execRetrainTimeout hall port s
  | .epkctlSwitch hall port => Sys2Proof.Machine.execEpkctlSwitch hall port s
  | .keyLow hall port => Sys2Proof.Machine.execKeyLow hall port s
  | .keyExhausted hall port => Sys2Proof.Machine.execKeyExhausted hall port s
  | .keyExhaustedTimeout hall port => Sys2Proof.Machine.execKeyExhaustedTimeout hall port s
  | .fabricPacketForward hall chip hops line => Sys2Proof.Machine.execFabricPacketForward hall chip hops line s
  | .ptpTimeFlit offset => Sys2Proof.Machine.execPtpTimeFlit offset s
  | .lrsetWrite hall cluster high lanes => Sys2Proof.Machine.execLrsetWrite hall cluster high lanes s
  | .mpsetWrite hall cluster quarters => Sys2Proof.Machine.execMpsetWrite hall cluster quarters s
  | .scrubLine hall tier2 line corrected uncorrectable => Sys2Proof.Machine.execScrubLine hall tier2 line corrected uncorrectable s
  | .scrubPauseEnd hall => Sys2Proof.Machine.execScrubPauseEnd hall s
  | .memoryUncorrectableError pa src synd => Sys2Proof.Machine.execMemoryUncorrectableError pa src synd s
  | .registerUncorrectableError latch => Sys2Proof.Machine.execRegisterUncorrectableError latch s
  | .errorLogClear hall => Sys2Proof.Machine.execErrorLogClear hall s
  | .attestationGo vf => Sys2Proof.Machine.execAttestationGo vf s
  | .attestationReportDone vf => Sys2Proof.Machine.execAttestationReportDone vf s
  | .keyRecord bytes => Sys2Proof.Machine.execKeyRecord bytes s
  | .powerOn => Sys2Proof.Machine.execPowerOn s
  | .powerCapAdjust hall pwr tj => Sys2Proof.Machine.execPowerCapAdjust hall pwr tj s
  | .thermalTrip hall => Sys2Proof.Machine.execThermalTrip hall s
  | .hctlStop hall cluster hart => Sys2Proof.Machine.execHctlStop hall cluster hart s
  | .hctlRun hall cluster hart => Sys2Proof.Machine.execHctlRun hall cluster hart s
  | .hctlRecov hall cluster on => Sys2Proof.Machine.execHctlRecov hall cluster on s
  | .censusWrite pa value => Sys2Proof.Machine.execCensusWrite pa value s
  | .registerWrite pa value mode vf => Sys2Proof.Machine.execRegisterWrite pa value mode vf s
  | .illegalInstruction word pfxWord => Sys2Proof.Machine.execIllegalInstruction word pfxWord s
  | .instructionFetchFault code va => Sys2Proof.Machine.execInstructionFetchFault code va s
  | .postedWritePerformed imm => Sys2Proof.Machine.execPostedWritePerformed imm s
  | .wellPageMap page wlf => Sys2Proof.Machine.execWellPageMap page wlf s
  | .inkFrameMap frame vf => Sys2Proof.Machine.execInkFrameMap frame vf s

end Sys2Proof.Machine
end

