-- ==== Sys2Proof/Machine/Stop.lean ====
section
/-! DEFINITION. Stop.lean: an instruction that is left part-way: pre-empted at an element row, or ended by the silent-error trap
(R122, R123, R145, R148, R156, R179, R318, R385 to R387; log 93). -/

namespace Sys2Proof.Machine

/-! ## Where an instruction may be left (Table 21.4) -/

/-- How an instruction runs through its elements: element by element, of w bits up to `last` (`voted`: each group runs twice,
R122); unit by unit; as a whole that is voted (`single`: of one element); through the matrix array; or as a whole. -/
inductive Course where
  | rows (w last : Nat) (voted : Bool)
  | units (last : Nat)
  | whole (w : Nat) (single : Bool)
  | array
  | plain
deriving DecidableEq, Repr

/-- An arithmetic instruction of the chapter on vector arithmetic, with elements of type t. -/
def State.votedRows (s : State) (p : Option Pfx) : Course := .rows (typeWidth (s.vtype p)) s.hart.vl true

/-- A conversion: the rows of its narrower elements are also rows of the wider ones (log 93). -/
def State.convertRows (s : State) (p : Option Pfx) (t : BitVec 4) : Course :=
  .rows (Nat.min (typeWidth (s.vtype p)) (typeWidth t)) s.hart.vl true

/-- An instruction that moves elements of w bits. -/
def State.movedRows (s : State) (w : Nat) : Course := .rows w s.hart.vl false

/-- A vector memory instruction with elements of w bits: only the blocking form is left part-way (R156). -/
def State.memoryRows (s : State) (w : Nat) (k : BitVec 3) : Course := if k = 0#3 then s.movedRows w else .plain

/-- The course of an instruction. -/
def State.course (s : State) : Instr → Course
  | .vadd o | .vsub o | .vrsub o | .vmul o | .vmulh o | .vmulhn o | .vdiv o | .vdivn o | .vrem o | .vremn o | .vmin o
  | .vmax o | .vminn o | .vmaxn o | .vand o | .vor o | .vxor o | .vsll o | .vsrl o | .vsra o | .vmerge o | .vwmul o
  | .vwadd o | .vfadd o | .vfsub o | .vfmul o | .vfdiv o | .vfma o | .vfms o | .vfnma o | .vfmin o | .vfmax o
  | .vfscl o => s.votedRows o.pfx
  | .vmv o | .vfsqrt o | .vfabs o | .vfneg o | .vfclass o | .vfrcp o | .vfrsq o | .vfex2 o | .vflg2 o | .vftnh o
  | .vfsig o | .vfexp o => s.votedRows o.pfx
  | .vcmpeq o | .vcmpne o | .vcmplt o | .vcmple o | .vcmpltn o | .vcmplen o | .vfcmpeq o | .vfcmplt o | .vfcmple o =>
    s.votedRows o.pfx
  | .vbcast p .. | .vid p .. => s.votedRows p
  | .vcvt p _ _ t .. | .vftoi p _ _ t .. | .vitof p _ _ t .. => s.convertRows p t
  | .vcvtef p _ _ t .. => s.convertRows (some p) t
  | .vext p .. | .vins p .. => .whole (typeWidth (s.vtype p)) true
  | .vredsum o | .vredmin o | .vredmax o | .vredminn o | .vredmaxn o | .vredand o | .vredor o | .vredxor o | .vfredsum o
  | .vfredmin o | .vfredmax o | .vscan o | .vscanx o | .vfscan o => .whole (typeWidth (s.vtype o.pfx)) false
  | .vslup p .. | .vsldn p .. | .vxchg p .. | .mfromv p .. | .mtov p .. => s.movedRows (typeWidth (s.vtype p))
  | .vperm o => s.movedRows (typeWidth (s.vtype o.pfx))
  | .vpack o | .vunpack o | .vrev o => s.movedRows (typeWidth (s.vtype o.pfx))
  | .zread .. | .zwrite .. => s.movedRows 32
  | .vld _ _ _ _ e k | .vlds _ _ _ _ _ e k | .vldx _ _ _ _ _ _ e k | .vst _ _ _ _ _ e k | .vsts _ _ _ _ _ _ e k
  | .vstx _ _ _ _ _ _ e k => s.memoryRows (8 * eewSize e) k
  | .vldff _ _ _ _ e => s.movedRows (8 * eewSize e)
  | .vamoadd o | .vamoand o | .vamoor o | .vamoxor o | .vamomin o | .vamomax o | .vamominn o | .vamomaxn o | .vamofadd o
  | .vamofmin o | .vamofmax o | .vamoswp o => s.memoryRows (typeWidth (s.vtype o.pfx)) o.k
  | .winit _ _ _ _ _ k => s.memoryRows 8 k
  | .wdep p _ _ _ _ k | .wdepx p _ _ _ _ _ k => s.memoryRows (typeWidth (s.vtype p)) k
  | .wread _ _ _ _ k | .wdrain _ _ _ _ k => s.memoryRows 32 k
  | .vspill .. | .vfill .. => .rows 64 (s.hart.vlmaxb / 8) false
  | .zspill .. | .zfill .. => .units s.tileRows
  | .olgath .. => .units 64
  | .zdep .. => .units s.hart.vl
  | .zrank .. | .mblk .. => .array
  | _ => .plain

/-- The lanes of the grant. -/
def State.lanes (s : State) : Nat := match s.hart.claim with | some c => c.grant | none => 0

/-- Elements of w bits in one element row: 8 bytes of each lane (R52). -/
def State.rowLen (s : State) (w : Nat) : Nat := s.lanes * 64 / w

/-- Element rows of one register at one span position. -/
def State.rowsHere (s : State) (w : Nat) : Nat :=
  Nat.max 1 (s.perPos (vreg 0#5 w) / s.rowLen w)

/-- The first element of element row r; the rows of a span are counted position by position (log 93). -/
def State.rowStart (s : State) (w r : Nat) : Nat :=
  r / s.rowsHere w * s.perPos (vreg 0#5 w) + r % s.rowsHere w * s.rowLen w

/-- Element n begins an element row. -/
def State.atRow (s : State) (w n : Nat) : Bool := n % s.perPos (vreg 0#5 w) % s.rowLen w == 0

/-- Pre-emption may leave an instruction of this course before element n (Table 21.4). -/
def State.mayLeave (s : State) (c : Course) (n : Nat) : Bool :=
  decide (s.hart.vstart < n) && (match c with
    | .rows w last _ => decide (n < last) && s.atRow w n
    | .units last => decide (n < last)
    | .whole _ _ => false
    | .array => false
    | .plain => false)

/-! ## Leaving it -/

/-- The code of a trap that an instruction took on the way from s to t; of one that could not be taken, its code (R317). -/
def State.trapped (s t : State) : Option Nat :=
  let code (x : TrapSet) : Nat := if fieldNat x.ecause 0 8 = 24 then x.eval.toNat else fieldNat x.ecause 0 8
  if !s.hart.sset.busy && t.hart.sset.busy then some (code t.hart.sset)
  else if !s.pset.busy && t.pset.busy then some (code t.pset)
  else if !s.hart.stopped && t.hart.stopped then t.hart.undelivered.map (·.toNat)
  else none

/-- The instruction of `len` bytes at the PC of s has retired in t. -/
def State.retiredIn (s t : State) (len : Word) : Bool :=
  (s.trapped t).isNone && !t.hart.stopped && t.hart.wait.isNone && t.ra.isNone && t.hart.vl == s.hart.vl
    && t.hart.pc == s.hart.pc + len

/-- Element rows that an instruction issued: nothing states how many (R405, log 9). One that is illegal, or that lacks its claim,
issues none (R69, R70). -/
def State.countRows (s t : State) (w : IWord) : State :=
  if isVector w && s.ra.isNone && s.trapped t != some 3 && s.trapped t != some 5 then
    ({ t with fresh := t.fresh + 1 } : State).onCluster s.myHall s.myCluster fun c =>
      { c with vrows := c.vrows + Config.freeWord t.fresh }
  else t

/-- t, in which the instruction of s retired, stands at that instruction again with VSTART n: it is not counted as retired. -/
def State.standAt (s t : State) (n : Nat) : State :=
  (t.onHart fun h => { h with pc := s.hart.pc, vstart := n, transfer := s.hart.transfer }).onCluster s.myHall s.myCluster fun c =>
    { c with instr := ((s.hall s.myHall).cluster s.myCluster).instr }

/-- Run an instruction up to element n, and leave it there. What ends it below n ends it as ever. -/
noncomputable def State.runTo (s : State) (i : Instr) (w : IWord) (len : Word) (n : Nat) (leave : State → State) :
    Host.Outcome State Fault Refusal :=
  match exec i (s.onHart fun h => { h with cut := some n }) with
  | .next t =>
    let t := t.onHart fun h => { h with cut := none }
    if s.retiredIn t len then .next (s.countRows (leave (s.standAt t n)) w) else .next (s.countRows t w)
  | x => x

/-- Run an instruction whose whole effect is then discarded: what ends it otherwise ends it as ever. -/
noncomputable def State.runDiscarded (s : State) (i : Instr) (w : IWord) (len : Word) (leave : State → State) :
    Host.Outcome State Fault Refusal :=
  match exec i s with
  | .next t => if s.retiredIn t len then .next (s.countRows (leave s) w) else .next (s.countRows t w)
  | x => x

/-- The silent-error trap at element row r (R122, R179, Table 21.1). -/
def silentError (r : Nat) (pfx : Bool) : Trap := { code := 15, eval := BitVec.ofNat 64 r, pfx := pfx }

/-- Three runs disagree at element row r (R122, R385, R386). A reduction or a scan is discarded whole, with VSTART 0 (R145); VEXT
and VINS stand at the row of their element. -/
noncomputable def State.runVoted (s : State) (i : Instr) (w : IWord) (pfx : Bool) (r : Nat) : Option (Host.Outcome State Fault Refusal) :=
  let len : Word := if pfx then 8#64 else 4#64
  match s.course i with
  | .rows ew last true =>
    let n := Nat.max (s.rowStart ew r) s.hart.vstart
    if n < Nat.min last (s.rowStart ew (r + 1)) then some (s.runTo i w len n fun t => t.takeTrap (silentError r pfx)) else none
  | .whole ew single =>
    let n := if single then Nat.max (s.rowStart ew r) s.hart.vstart else 0
    if s.rowStart ew r < s.hart.vl then
      some (s.runDiscarded i w len fun t => (t.setVstart n).takeTrap (silentError r pfx))
    else none
  | _ => none

/-- A matrix checksum disagrees in the run and in the rerun (R179, R387, R394): two log entries, the quarter is marked, and the
tile is as it was. -/
noncomputable def State.runArray (s : State) (i : Instr) (w : IWord) (pfx : Bool) (q : BitVec 2) : Option (Host.Outcome State Fault Refusal) :=
  match s.course i with
  | .array =>
    some (s.runDiscarded i w (if pfx then 8#64 else 4#64) fun t =>
      let log (t : State) := t.logChecksum t.myHall t.myCluster t.myHart q
      (((log (log t)).markQuarter t.myHall t.myCluster q.toNat).setVstart 0).takeTrap (silentError 0 pfx))
  | _ => none

/-- The instruction is left part-way as the schedule says, where it may be. An answer of the hypervisor is for the whole
instruction. -/
noncomputable def State.runStopped (s : State) (i : Instr) (w : IWord) (pfx : Bool) (stop : Option Stop) :
    Option (Host.Outcome State Fault Refusal) :=
  if s.hart.fq != .none then none
  else match stop with
    | none => none
    | some (.row n) =>
      if s.mayLeave (s.course i) n then some (s.runTo i w (if pfx then 8#64 else 4#64) n id) else none
    | some (.lanes r) => s.runVoted i w pfx r
    | some (.macs q) => s.runArray i w pfx q

end Sys2Proof.Machine
end

