-- ==== Sys2Proof/Machine/Turn.lean ====
section
/-! DEFINITION. Turn.lean: the hart's turn: fetch, what it takes before an instruction, waiting, run-ahead, and the time
that passes (R6, R59, R68, R176, R208, R221, R326, R384, R405). -/

namespace Sys2Proof.Machine

/-! ## Fetch (R59, R116) -/

/-- The word at a physical address as a fetch finds it: a word that the instruction cache holds may be older than the
home's until FENCEI, and which is read is open (R116, log 9). -/
def State.fetchHome (s : State) (pa : Nat) : State × Option IWord :=
  match s.refusal s.who s.myHall pa 4 false with
  | some c => (s.logRefusal s.who s.myHall pa c, none)
  | none =>
    if s.poisoned pa 4 then (s, none)
    else
      let w : IWord := BitVec.ofNat 32 (leNat (s.bytes pa 4))
      match alFind pa s.icache with
      | some x =>
        if x = w then (s, some w)
        else
          let y := if Config.freeBit s.fresh then x else w
          ({ s with fresh := s.fresh + 1, icache := alSet pa y s.icache }, some y)
      | none => ({ s with icache := alSet pa w s.icache }, some w)

/-- Fetch the word at va: the code of its fault, and why a walk failed. -/
def State.fetchAt (s : State) (va : Word) : State × Except (Nat × Option Reason) IWord :=
  if va.toNat % 4 ≠ 0 then (s, .error (1, none))
  else if !canonical va then (s, .error (2, none))
  else
    let r := s.hartXlate s.myHall .fetch va 4
    let s := s.fillTlb s.who s.myHall va
    match r with
    | .error e => (s, .error (2, some e))
    | .ok x =>
      if x.cls ≠ .nrm then (s, .error (2, none))
      else match s.fetchHome x.pa with
        | (s, some w) => (s, .ok w)
        | (s, none) => (s, .error (2, none))

/-- What a fetch gives: a prefix word or none, and a word; or the fault, its address and whether a prefix was read. -/
inductive Fetched where
  | words (p : Option IWord) (w : IWord)
  | fault (code : Nat) (va : Word) (pfx : Bool) (why : Option Reason)
deriving DecidableEq, Repr

/-- Fetch at the PC: a prefix is fetched with the word that it governs (R59, R68). -/
def State.fetch (s : State) : State × Fetched :=
  let pc := s.hart.pc
  match s.fetchAt pc with
  | (s, .error (c, r)) => (s, .fault c pc false r)
  | (s, .ok w) =>
    if isPfx w then
      (match s.fetchAt (pc + 4#64) with
        | (s, .error (c, r)) => (s, .fault c (pc + 4#64) true r)
        | (s, .ok x) => (s, .words (some w) x))
    else (s, .words none w)

/-- The words of the instruction at hand. -/
def State.setIr (s : State) (p : Option IWord) (w : IWord) : State := s.onHart fun h => { h with ir := (p, w) }

/-! ## One instruction -/

/-- The effect of a decoded instruction, whole or, where the schedule says so, left part-way. An access that the hypervisor has
completed is not made again (R337). -/
noncomputable def State.perform (s : State) (i : Instr) (w : IWord) (pfx : Bool) (stop : Option Stop) :
    Host.Outcome State Fault Refusal :=
  match s.runStopped i w pfx stop with
  | some x => x
  | none =>
    match exec i s with
    | .next t => .next (s.countRows (t.onHart fun h => { h with fq := .none }) w)
    | x => x

/-- Both trap sets can take a trap. -/
def State.readied (s : State) : State :=
  let open' (x : TrapSet) : TrapSet := { x with evec := 4#64, estat := 0#64 }
  { s with pset := open' s.pset, hart := { s.hart with sset := open' s.hart.sset } }

/-- The instruction, which left t, is illegal: it took code 3, or would have, had a set been able to take it (R69, R317). -/
noncomputable def State.illegalIn (s : State) (i : Instr) (t : State) : Bool :=
  s.trapped t == some 3
    || (s.trapped t == some 24 && (match exec i s.readied with | .next u => s.readied.trapped u == some 3 | _ => false))

/-- A vector instruction takes the fault of a lost span position before its effect, unless it is illegal (R70, R221). -/
noncomputable def State.orSpanLoss (s : State) (i : Instr) (w : IWord) (r : Host.Outcome State Fault Refusal) :
    Host.Outcome State Fault Refusal :=
  if s.hart.spanLost ≠ 0#8 && isVector w then
    (match r with
      | .next t => .next (if s.illegalIn i t then t else s.takeSpanLoss)
      | x => x)
  else r

/-- Run the words that were fetched. -/
noncomputable def State.runWords (s : State) (p : Option IWord) (w : IWord) (stop : Option Stop) : Host.Outcome State Fault Refusal :=
  let s := s.setIr p w
  match decode p w with
  | .error _ => .next (s.takeTrap { s.illegal with pfx := p.isSome })
  | .ok i => s.orSpanLoss i w (s.perform i w p.isSome stop)

/-- The hart runs its next instruction. -/
noncomputable def State.runNext (s : State) (stop : Option Stop) : Host.Outcome State Fault Refusal :=
  match s.fetch with
  | (s, .fault c va pfx why) => .next (s.fetchFault c va pfx why)
  | (s, .words p w) => s.runWords p w stop

/-- The instruction at the PC has a prefix. -/
def State.prefixedAt (s : State) : Bool :=
  match s.fetch with
  | (_, .words p _) => p.isSome
  | (_, .fault _ _ pfx _) => pfx

/-- After a resumption the latches are rebuilt, before the hart waits again, takes a trap that is owed or runs an instruction
(R176, R324). -/
def State.rebuildTurn (s : State) : State :=
  match s.rebuildLatches with
  | (t, some x) => t.takeRebuild { x with pfx := s.prefixedAt }
  | (t, none) => t

/-! ## Run-ahead (R326 to R328) -/

/-- One instruction of run-ahead, whose words are fetched. -/
noncomputable def State.aheadWords (s : State) (r : RunAhead) (p : Option IWord) (w : IWord) : Host.Outcome State Fault Refusal :=
  let s := s.setIr p w
  match (if r.first then none else s.stopBefore w) with
  | some k => .next (s.stopAhead k)
  | none =>
    match decode p w with
    | .error _ => .next (s.stopAhead 4)
    | .ok i =>
      if !r.first && s.passedOver w then .next (s.afterAhead (s.passOver p w) p w)
      else match exec i s with
        | .next t => .next (s.afterAhead (t.learn w) p w)
        | x => x

/-- The hart's turn in run-ahead. -/
noncomputable def State.goAhead (s : State) (r : RunAhead) : Host.Outcome State Fault Refusal :=
  if s.askedToStop then .next (s.stopAhead 5)
  else if 256 ≤ r.count then .next (s.stopAhead 0)
  else match s.fetch with
    | (s, .fault _ _ _ _) => .next (s.stopAhead 4)
    | (s, .words p w) => s.aheadWords r p w

/-! ## Waiting -/

/-- The oldest operation of the hart that is in flight goes on: a vector memory operation completes, or an engine command
goes as far as it can. -/
def State.progress (s : State) : State :=
  match s.hart.vops with
  | o :: _ => s.completeVec o
  | [] =>
    match s.cmds.find? fun c => c.counted && c.owner == s.hart.unit with
    | some c => s.advanceCmd c.id
    | none => s

/-- The hart waits: what ends its wait is done when it can be, else what it waits for goes on. -/
def State.waitTurn (s : State) (w : Wait) : State :=
  match w with
  | .kwait k => if s.countsZero k then s.endCounterWait else s.progress
  | .kstat _ k => if s.countsZero k then s.endCounterWait else s.progress
  | .kset _ _ k => if s.countsZero k then s.endCounterWait else s.progress
  | .barrier _ _ _ => s.endBarrierWait
  | .arrive _ _ => s.endBarrierWait
  | .waitany d a b => if s.conditions a ≠ 0#9 || s.pastDeadline b then s.waitanyResult d a b else s.progress
  | .phase _ _ => match s.hart.unit with | some k => s.completePhase k.vf k.serial | none => s
  | .wfi => if s.wakePending then (s.onHart fun h => { h with wait := none }).retire 4#64 else s
  | .pause => s.onHart fun h => { h with wait := none }
  | .engine i => s.advanceCmd i
  | .drain => if s.ownCmds then s.progress else s.onHart fun h => { h with wait := none }
  | .held _ => s
  | .shoot => s

/-! ## The turn -/

/-- The hart has nothing to run: it is stopped, or holds no unit outside mode P. -/
def State.idle (s : State) : Bool := s.hart.stopped || (s.hart.unit.isNone && s.hart.mode != .p)

/-- The unit of the hart whose launch is cancelled (R208). -/
def State.doomed (s : State) : Option UnitKey :=
  match s.hart.unit with
  | none => none
  | some k => match s.launch? k.vf k.serial with | some l => if l.cancelled then some k else none | none => none

/-- The hart's turn; `stop`: where the instruction that it runs is left. -/
noncomputable def State.turn (s : State) (stop : Option Stop) : Host.Outcome State Fault Refusal :=
  if s.idle then .next s
  else match s.doomed with
    | some k => .next (s.stopCancelled k)
    | none =>
      match s.ra with
      | some r => s.goAhead r
      | none =>
        if s.rebuildDue then .next s.rebuildTurn
        else match s.hart.wait with
          | some w => .next (s.waitTurn w)
          | none =>
            match s.owedTrap with
            | some (t, s) => .next (s.takeTrap t)
            | none => s.runNext stop

/-! ## The state of a unit (R211) -/

/-- A hart that waits so is Waiting in Table 12.1. -/
def Wait.isWaiting : Wait → Bool
  | .kwait .. | .kstat .. | .kset .. | .barrier .. | .arrive .. | .waitany .. | .phase .. | .wfi | .drain => true
  | .pause | .engine .. | .held .. | .shoot => false

/-- The units that were placed start (R211). -/
def State.startPlaced (s : State) : State :=
  if s.units.any (·.st == .placed) then
    { s with units := s.units.map fun u => if u.st = .placed then { u with st := .running } else u }
  else s

/-- The unit of the hart is Running, or Waiting while it waits. -/
def State.syncUnit (s : State) : State :=
  match s.hart.unit with
  | none => s
  | some k =>
    let st := if s.hart.wait.any Wait.isWaiting then UnitState.waiting else .running
    { s with units := s.units.map fun u => if u.key = k && u.st != .preempted && u.st != .placed then { u with st := st } else u }

/-! ## What the schedule says (log 2) -/

/-- One thing happens. An event is never an instruction of a hart. -/
noncomputable def State.happen (s : State) : Happening → Host.Outcome State Fault Refusal
  | .turn stop => s.turn stop
  | .event i => if (encodeWord i).isSome then .fault .scheduledInstruction else exec i s
  | .evict line => .next (if paTarget (line * 64) = 6 then s.dropHostLine (line * 64) else s.evictLine line)
  | .store v h pa bs => .next (s.otherStores v h pa bs)
  | .arrives k handle => .next (s.otherArrives k handle)
  | .phases k => .next (s.otherPhases k)
  | .issues op v chip h rank words => .next (s.otherIssues op v chip h rank words)
  | .charge h c hart lane synd => .next (s.chargeLane h c hart lane synd)
  | .checksum h c hart q => .next (s.logChecksum h c hart q)
  | .corrected h c => .next (s.correctedRegister h c)
  | .correctedRead h tier2 line => .next (s.correctedRead h tier2 line)

/-! ## Time (R6, R384, R405; log 11) -/

/-- Time passes: PODT never falls, and the cycle counter of the hart's cluster counts outside run-ahead. No instruction is left
part-way any more. -/
def State.tick (s : State) : State :=
  let s := s.syncUnit
  let s' : State :=
    { s with
      podt := s.podt + BitVec.ofNat 64 (Config.elapsed s.fresh), fresh := s.fresh + 1, era := s.era + 1
      hart := { s.hart with cut := none } }
  if s.ra.isSome then s'
  else s'.onCluster s.myHall s.myCluster fun c => { c with cyc := c.cyc + Config.freeWord s.fresh }

/-! ## A program from outside (log 3) -/

/-- The hart can fetch: it runs, and the pages at its PC are executable memory. -/
def State.canFetch (s : State) : Bool :=
  let at' (va : Word) : Bool := match s.hartXlate s.myHall .fetch va 4 with | .ok x => x.cls == .nrm | .error _ => false
  !s.idle && s.hart.pc.toNat % 4 == 0 && canonical s.hart.pc && at' s.hart.pc && at' (s.hart.pc + 4#64)

/-- The unit of a program that is loaded: alone in its group, with 4 KiB of scratchpad. -/
def loadedUnit (h : BitVec 4) (c : BitVec 5) (n : BitVec 3) : UnitRec where
  key := { vf := 0#10, serial := 0#32, idx := 0 }
  group := 0
  pos := 0
  size := 1
  st := .running
  hall := h
  cluster := c
  hart := n
  slotHall := h
  slot := 0
  spOff := 0
  spBytes := 4096
  lanes := 8
  share := 0#2
  eff := 0
  placedAt := 0
  preempt := false
  places := []
  image := 0
  spbase := 0#64
  saved := 0
  own := 0
  rejoin := none
  warm := none

/-- What bring-up, the hypervisor and a launch would have set: running halls with the image's settings, VF 0 with tables
that map page 0 of its space, and a unit of it on the hart, in mode A at address 0. -/
def State.loadUnit (s : State) : State :=
  let set (i : Fin 16) : Hall :=
    let x := s.halls[i]
    let y := s.image.halls[i]
    { x.withImage y with st := .running, tenant := y.tenant }
  let u := loadedUnit s.myHall s.myCluster s.myHart
  let tenant := (pick (w := 4) s.image.halls s.myHall).tenant
  let frame := hbmPa s.chip s.myHall 0
  let s : State := { s with
    halls := Vector.ofFn set
    vfs := alSet 0 { VF.reset with en := true, tenant := tenant, xroot := BitVec.ofNat 64 (frame + 0x10001) } s.vfs
    units := [u], tlb := [], walks := [], icache := [], ra := none
    hart := { Hart.reset with unit := some u.key } }
  (((s.putWord (frame + 0x10000) (BitVec.ofNat 64 (frame + 0x12001))).putWord (frame + 0x12000)
    (BitVec.ofNat 64 (frame + 0x14001))).putWord (frame + 0x14000) (BitVec.ofNat 64 (frame + 0x16001))).putWord
      (frame + 0x16000) (BitVec.ofNat 64 (frame + 0x783))

/-- Store a word where the hart would fetch it. -/
def State.putCode (s : State) (va : Word) (w : IWord) : State :=
  match s.hartXlate s.myHall .fetch va 4 with
  | .ok x => s.putBytes x.pa (leBytes 4 w.toNat)
  | .error _ => s

/-- Nothing stands between the hart and its next fetch: no wait, no trap that is owed, no rebuild that is due. -/
def State.clearWay (s : State) : State :=
  let built (d : Option OlgathDesc) : Option OlgathDesc := d.map fun d => { d with resumeAt := none }
  let h : Hart :=
    { s.hart with
      wait := none, seq := [], stopped := false, spanLost := 0#8, fq := .none, ldesc := s.hart.ldesc.map built }
  { s with schedule := [], icache := [], ra := none, hart := h }

/-- Place two words where the hart fetches next, so that its next step runs them. -/
def State.placeWords (s : State) (w1 w2 : IWord) : State :=
  let s := s.clearWay
  let s := if s.canFetch then s else s.loadUnit
  (s.putCode s.hart.pc w1).putCode (s.hart.pc + 4#64) w2

end Sys2Proof.Machine
end

