-- ==== Sys2Proof/Machine/Step.lean ====
section
/-! DEFINITION. Step.lean: one step of the machine (log 2), and how an instruction is placed for the next one (log 3). -/

namespace Sys2Proof.Machine

/-- Time passes with every step that has a next state. -/
def andTick (r : Host.Outcome State Fault Refusal) : Host.Outcome State Fault Refusal :=
  match r with
  | .next s => .next s.tick
  | x => x

/-- One step: what the schedule says happens next, or the hart's turn. -/
noncomputable def step (s : State) : Host.Outcome State Fault Refusal :=
  match s.schedule with
  | [] => andTick (s.startPlaced.turn none)
  | e :: r => andTick (({ s with schedule := r } : State).startPlaced.happen e)

/-- The state with an instruction of the opcode table stored where `step` fetches next. -/
def State.withFetchWord (s : State) (nbits w : Nat) : State := s.placeWords (tableWords nbits w).1 (tableWords nbits w).2

end Sys2Proof.Machine
end

