-- ==== Sys2Proof/Safety.lean ====
section
/-! DEFINITION. Safety.lean: what a safe run is, and the invariants in which claims are made. -/

namespace Sys2Proof.Machine

/-- The machine goes on from s. -/
def State.GoesOn (s : State) : Prop := ∃ t, step s = .next t

/-- What the schedule of s asks for next is no instruction of a hart. -/
def State.Scheduled (s : State) : Prop := ∀ e, s.schedule.head? = some (.event e) → encodeWord e = none

/-- The reserved bits of a trap set read 0 (Tables 21.2, 21.3). -/
def TrapSet.Legal (t : TrapSet) : Prop :=
  t.evec.extractLsb' 0 2 = 0#2 ∧ t.ecause.extractLsb' 16 48 = 0#48 ∧ t.estat.extractLsb' 5 59 = 0#59

/-- The invariant of every step: memory is in canonical form, and the reserved bits of the P set read 0. -/
def State.Inv (s : State) : Prop := Memory.wf s.mem = true ∧ s.pset.Legal

end Sys2Proof.Machine
end

