-- ==== Sys2Proof/Certificates/Slice0/Obligations.lean ====
section
/-! DEFINITION. Obligations.lean: the statements about this machine. -/

namespace Sys2Proof.Machine

/-! ## Vocabulary -/

/-- Memory reads, byte by byte, as before. -/
def SameMem (s t : State) : Prop := ∀ a, Memory.read t.mem a = Memory.read s.mem a

/-- Outside the hart nothing has changed but the count of retired instructions of the hart's cluster (R405), which
run-ahead does not change (R327): no byte of memory, no register of a hall, a VF or an engine. -/
def Elsewhere (s t : State) : Prop :=
  { t with hart := s.hart, halls := s.halls } = s ∧ t.halls = s.countInstr.halls ∧ SameMem s t

/-- An instruction of `len` bytes has retired with v in g[d] and x in FSTAT: g0 stays zero, every other register of the
hart keeps its value, and the mode and the trap registers are as before. -/
def WroteG (s t : State) (d : BitVec 5) (v x len : Word) : Prop :=
  (∀ k, t.g k = if k = d ∧ k ≠ 0#5 then v else s.g k) ∧ t.hart.pc = s.hart.pc + len ∧ t.hart.transfer = false
    ∧ t.hart.fstat = x
    ∧ { t.hart with g := s.hart.g, pc := s.hart.pc, transfer := s.hart.transfer, fstat := s.hart.fstat } = s.hart
    ∧ Elsewhere s t

/-- In every state the instruction completes with this value in g[d]. -/
def Computes (i : Instr) (d : BitVec 5) (v : State → Word) : Prop :=
  ∀ s, ∃ t, exec i s = .next t ∧ WroteG s t d (v s) s.hart.fstat 4#64

/-- The same, with these flags put into FSTAT (R97). -/
def ComputesFp (i : Instr) (d : BitVec 5) (v : State → Nat × Flags) : Prop :=
  ∀ s, ∃ t, exec i s = .next t ∧ WroteG s t d (BitVec.ofNat 64 (v s).1) (s.hart.fstat ||| fstatFlags (v s).2) 4#64

/-- What entry writes into a trap set (R315, Tables 21.2, 21.3): where the trap was taken, the code and DETAIL, EVAL, and in
ESTAT the mode before, BUSY, PFX and AFTER. EVEC stays. -/
def EnteredSet (before after : TrapSet) (m : Mode) (pc : Word) (code detail : Nat) (eval : Word) (pfx aft : Bool) : Prop :=
  after.evec = before.evec ∧ after.epc = pc ∧ after.eval = eval
    ∧ after.ecause = BitVec.ofNat 64 (code % 256 + 256 * (detail % 256))
    ∧ after.estat = BitVec.ofNat 64 (m.code + 4 + (if pfx then 8 else 0) + (if aft then 16 else 0))

/-- The address that EVEC names: its bits 1:0 read 0. -/
def vectorOf (t : TrapSet) : Word := t.evec &&& ~~~3#64

/-- R314, R315, R316: a trap in mode A, or in mode S with a code other than 22 and 23, enters the S set unless that set is busy
or names no handler; every other trap, and with code 24 and the first code in EVAL one that the S set cannot take, enters the P
set. The mode becomes that of the set and the pc its vector; nothing else changes but what the hart was waiting for. -/
def TrapEntry : Prop := ∀ (s : State) (t : Trap),
  let forS := s.hart.mode = .a ∨ (s.hart.mode = .s ∧ t.code ≠ 22 ∧ t.code ≠ 23)
  let free (x : TrapSet) := vectorOf x ≠ 0#64 ∧ (t.deferred = true ∨ x.estat.getLsbD 2 = false)
  let open24 (x : TrapSet) := vectorOf x ≠ 0#64 ∧ x.estat.getLsbD 2 = false
  let u := s.takeTrap t
  let toP (code detail : Nat) (eval : Word) :=
    EnteredSet s.pset u.pset s.hart.mode s.hart.pc code detail eval t.pfx t.after
    ∧ { u with pset := s.pset, hart := s.hart } = s
    ∧ u.hart = { s.hart with mode := .p, pc := vectorOf s.pset, transfer := false, wait := none }
  (forS → free s.hart.sset →
    EnteredSet s.hart.sset u.hart.sset s.hart.mode s.hart.pc t.code t.detail t.eval t.pfx t.after
    ∧ { u with hart := s.hart } = s
    ∧ { u.hart with sset := s.hart.sset } = { s.hart with mode := .s, pc := vectorOf s.hart.sset, transfer := false, wait := none })
  ∧ (¬forS → free s.pset → toP t.code t.detail t.eval)
  ∧ (forS → ¬free s.hart.sset → open24 s.pset → toP 24 0 (BitVec.ofNat 64 t.code))

/-- R317: a trap that neither set can take stops the hart and ends its unit; the registers stay as they are, but VLMAXB, which reads 0 without a
claim (R50), and memory too where the hart ran no unit. A trap that the S set cannot take is not deferred at the P set. -/
def UndeliverableTrapStops : Prop := ∀ (s : State) (t : Trap),
  let free (x : TrapSet) := vectorOf x ≠ 0#64 ∧ (t.deferred = true ∨ x.estat.getLsbD 2 = false)
  let forS := s.hart.mode = .a ∨ (s.hart.mode = .s ∧ t.code ≠ 22 ∧ t.code ≠ 23)
  (¬forS → ¬free s.pset) → (forS → ¬free s.hart.sset ∧ (vectorOf s.pset = 0#64 ∨ s.pset.estat.getLsbD 2 = true)) →
  let u := s.takeTrap t
  let code := if forS then 24 else t.code
  u.hart.stopped = true ∧ u.hart.undelivered = some (BitVec.ofNat 8 code) ∧ u.hart.unit = none ∧ u.hart.claim = none
    ∧ u.hart.wait = none ∧ u.pset = s.pset ∧ (s.hart.unit = none → SameMem s u)
    ∧ { u.hart with
        unit := s.hart.unit, claim := s.hart.claim, vlmaxb := s.hart.vlmaxb, wait := s.hart.wait, stopped := s.hart.stopped
        undelivered := s.hart.undelivered } = s.hart
    ∧ u.hart.vlmaxb = 0

/-- R113, R312: TRAP and SVC take codes 22 and 23 once they have retired, so the trap is taken at the next address with AFTER set;
EVAL is the ten-bit number that they carry. From mode A the S set takes them, from mode S the P set. -/
def TrapCalls : Prop := ∀ (n h : BitVec 5) (s : State),
  let calls (i : Instr) (code : Nat) :=
    exec i s = .next ((s.retire 4#64).takeTrap { code := code, eval := BitVec.ofNat 64 (32 * h.toNat + n.toNat), after := true })
    ∧ (s.hart.mode = .a → vectorOf s.hart.sset ≠ 0#64 → s.hart.sset.estat.getLsbD 2 = false → ∃ t, exec i s = .next t
        ∧ t.hart.mode = .s ∧ t.hart.pc = vectorOf s.hart.sset ∧ t.pset = s.pset ∧ (∀ k, t.g k = s.g k) ∧ SameMem s t
        ∧ EnteredSet s.hart.sset t.hart.sset .a (s.hart.pc + 4#64) code 0 (BitVec.ofNat 64 (32 * h.toNat + n.toNat)) false true)
    ∧ (s.hart.mode ≠ .a → vectorOf s.pset ≠ 0#64 → s.pset.estat.getLsbD 2 = false → ∃ t, exec i s = .next t
        ∧ t.hart.mode = .p ∧ t.hart.pc = vectorOf s.pset ∧ t.hart.sset = s.hart.sset ∧ (∀ k, t.g k = s.g k) ∧ SameMem s t
        ∧ EnteredSet s.pset t.pset s.hart.mode (s.hart.pc + 4#64) code 0 (BitVec.ofNat 64 (32 * h.toNat + n.toNat)) false true)
  calls (.trap n h) 22 ∧ calls (.svc n h) 23

/-- R316: ERET in mode S or P goes to EPC of the set of its mode, in the mode that PREV names, with BUSY of that set cleared, where
PREV is a mode at most the current one; otherwise, and in mode A, it does not return: it traps with code 3, or 4 in mode A. -/
def EretReturns : Prop := ∀ (s : State),
  let x := if s.hart.mode = .p then s.pset else s.hart.sset
  let prev := x.estat.toNat % 4
  let cleared : TrapSet := { x with estat := x.estat &&& ~~~4#64 }
  (s.hart.mode ≠ .a → prev ≤ s.hart.mode.code → ∃ t m, exec .eret s = .next t ∧ Mode.code m = prev
    ∧ t.hart = { s.hart with
        mode := m, pc := x.epc, transfer := false
        sset := if s.hart.mode = .p then s.hart.sset else cleared }
    ∧ t.pset = (if s.hart.mode = .p then cleared else s.pset) ∧ SameMem s t)
  ∧ (s.hart.mode ≠ .a → s.hart.mode.code < prev → exec .eret s = .next (s.takeTrap { code := 3, eval := s.irWord }))
  ∧ (s.hart.mode = .a → exec .eret s = .next (s.takeTrap { code := 4, eval := s.irWord }))

/-- The instruction is encoded by this one word. -/
def HasWord (i : Instr) (n : Nat) : Prop := encode i = some (none, BitVec.ofNat 32 n)

/-- R82: the SALU instruction with this func has its word and computes. -/
def Salu (f : Nat) (i : Instr) (d a b : BitVec 5) (v : State → Word) : Prop :=
  HasWord i (0x04000000 + d.toNat * 2 ^ 21 + a.toNat * 2 ^ 16 + b.toNat * 2 ^ 11 + f) ∧ Computes i d v

/-- R84: the immediate instruction with this major has its word and computes. -/
def Immediate (maj : Nat) (i : Instr) (d a : BitVec 5) (imm : BitVec 16) (v : State → Word) : Prop :=
  HasWord i (maj * 2 ^ 26 + d.toNat * 2 ^ 21 + a.toNat * 2 ^ 16 + imm.toNat) ∧ Computes i d v

/-- A transfer has retired at address `pc` with v in g[d]; `taken` says whether it was taken. -/
def Moved (s t : State) (pc : Word) (taken : Bool) (d : BitVec 5) (v : Word) : Prop :=
  t.hart.pc = pc ∧ t.hart.transfer = taken ∧ (∀ k, t.g k = if k = d ∧ k ≠ 0#5 then v else s.g k)
    ∧ { t.hart with g := s.hart.g, pc := s.hart.pc, transfer := s.hart.transfer } = s.hart ∧ Elsewhere s t

/-- R82, R83, Table 5.1: logic, sums, shifts and compares of two registers, the shift amount being the second operand
mod 64. The words of R82: CLZ, CTZ, POPC and BSWP with a nonzero b field are refused. -/
def RegisterLogicAndShifts : Prop := ∀ d a b,
  let x s := State.g s a
  let y s := State.g s b
  let k s := (State.g s b).toNat % 64
  Salu 0 (.add d a b) d a b (fun s => BitVec.ofNat 64 ((x s).toNat + (y s).toNat))
  ∧ Salu 1 (.sub d a b) d a b (fun s => BitVec.ofInt 64 ((x s).toInt - (y s).toInt))
  ∧ Salu 2 (.and d a b) d a b (fun s => x s &&& y s)
  ∧ Salu 3 (.or d a b) d a b (fun s => x s ||| y s)
  ∧ Salu 4 (.xor d a b) d a b (fun s => x s ^^^ y s)
  ∧ Salu 5 (.andn d a b) d a b (fun s => x s &&& ~~~y s)
  ∧ Salu 6 (.orn d a b) d a b (fun s => x s ||| ~~~y s)
  ∧ Salu 7 (.sll d a b) d a b (fun s => BitVec.ofNat 64 ((x s).toNat * 2 ^ k s))
  ∧ Salu 8 (.srl d a b) d a b (fun s => BitVec.ofNat 64 ((x s).toNat / 2 ^ k s))
  ∧ Salu 9 (.sra d a b) d a b (fun s => BitVec.ofInt 64 ((x s).toInt / 2 ^ k s))
  ∧ Salu 10 (.rol d a b) d a b (fun s => BitVec.ofNat 64 ((x s).toNat * 2 ^ k s + (x s).toNat / 2 ^ (64 - k s)))
  ∧ Salu 11 (.ror d a b) d a b (fun s => BitVec.ofNat 64 ((x s).toNat / 2 ^ k s + (x s).toNat * 2 ^ (64 - k s)))
  ∧ Salu 12 (.slt d a b) d a b (fun s => if (x s).toInt < (y s).toInt then 1#64 else 0#64)
  ∧ Salu 13 (.sltn d a b) d a b (fun s => if (x s).toNat < (y s).toNat then 1#64 else 0#64)
  ∧ Salu 14 (.min d a b) d a b (fun s => BitVec.ofInt 64 (min (x s).toInt (y s).toInt))
  ∧ Salu 15 (.max d a b) d a b (fun s => BitVec.ofInt 64 (max (x s).toInt (y s).toInt))
  ∧ Salu 16 (.minn d a b) d a b (fun s => BitVec.ofNat 64 (min (x s).toNat (y s).toNat))
  ∧ Salu 17 (.maxn d a b) d a b (fun s => BitVec.ofNat 64 (max (x s).toNat (y s).toNat))
  ∧ Salu 31 (.selnz d a b) d a b (fun s => if y s ≠ 0#64 then x s else 0#64)
  ∧ ∀ f : Fin 4, b ≠ 0#5 → decode none (BitVec.ofNat 32 (0x04000000 + d.toNat * 2 ^ 21 + a.toNat * 2 ^ 16 + b.toNat * 2 ^ 11 + 25 + f))
      = .error .badField

/-- R83, Table 5.1: products, quotients, remainders, counts and extensions, on the integers that the operands stand for.
A division by zero gives all ones and a remainder by zero the dividend; the most negative dividend over −1 wraps; and always
DIV(x, y) × y + REM(x, y) = x. -/
def RegisterMultiplyDivideCount : Prop := ∀ d a b,
  let x s := State.g s a
  let y s := State.g s b
  let n s := (State.g s b).toNat % 64
  let quo s := if y s = 0#64 then BitVec.allOnes 64 else BitVec.ofInt 64 ((x s).toInt.tdiv (y s).toInt)
  let rem s := if y s = 0#64 then x s else BitVec.ofInt 64 ((x s).toInt.tmod (y s).toInt)
  let count (p : Word → Nat → Bool) s := BitVec.ofNat 64 ((List.range 64).countP (p (State.g s a)))
  Salu 18 (.mul d a b) d a b (fun s => BitVec.ofInt 64 ((x s).toInt * (y s).toInt))
  ∧ Salu 19 (.mulh d a b) d a b (fun s => BitVec.ofInt 64 ((x s).toInt * (y s).toInt / 2 ^ 64))
  ∧ Salu 20 (.mulhn d a b) d a b (fun s => BitVec.ofNat 64 ((x s).toNat * (y s).toNat / 2 ^ 64))
  ∧ Salu 21 (.div d a b) d a b quo
  ∧ Salu 22 (.divn d a b) d a b (fun s => if y s = 0#64 then BitVec.allOnes 64 else BitVec.ofNat 64 ((x s).toNat / (y s).toNat))
  ∧ Salu 23 (.rem d a b) d a b rem
  ∧ Salu 24 (.remn d a b) d a b (fun s => if y s = 0#64 then x s else BitVec.ofNat 64 ((x s).toNat % (y s).toNat))
  ∧ Salu 25 (.clz d a) d a 0#5 (count fun v i => decide (v.toNat < 2 ^ i))
  ∧ Salu 26 (.ctz d a) d a 0#5 (count fun v i => decide (v.toNat % 2 ^ (i + 1) = 0))
  ∧ Salu 27 (.popc d a) d a 0#5 (count fun v i => v.toNat.testBit i)
  ∧ Salu 28 (.bswp d a) d a 0#5 (fun s => leWord (leBytes 8 (x s).toNat).reverse)
  ∧ Salu 29 (.sext d a b) d a b (fun s => BitVec.ofInt 64 (toSigned (n s + 1) (x s).toNat))
  ∧ Salu 30 (.zext d a b) d a b (fun s => BitVec.ofNat 64 ((x s).toNat % 2 ^ (n s + 1)))
  ∧ ∀ s, quo s * y s + rem s = x s

/-- R65, R92: a branch goes to PC + 4 + 4 × offset when its condition holds, else to PC + 4; it writes no register. -/
def Branches : Prop := ∀ a b (o : BitVec 16) s,
  let x := State.g s a
  let y := State.g s b
  let goes (maj : Nat) (c : Bool) (i : Instr) :=
    HasWord i (maj * 2 ^ 26 + a.toNat * 2 ^ 21 + b.toNat * 2 ^ 16 + o.toNat) ∧ ∃ t, exec i s = .next t ∧
    Moved s t (if c then s.hart.pc + BitVec.ofInt 64 (4 + 4 * o.toInt) else s.hart.pc + 4#64) c 0#5 0#64
  goes 0x16 (decide (x = y)) (.beq a b o) ∧ goes 0x17 (decide (x ≠ y)) (.bne a b o)
  ∧ goes 0x18 (decide (x.toInt < y.toInt)) (.blt a b o) ∧ goes 0x19 (decide (y.toInt ≤ x.toInt)) (.bge a b o)
  ∧ goes 0x1A (decide (x.toNat < y.toNat)) (.bltn a b o) ∧ goes 0x1B (decide (y.toNat ≤ x.toNat)) (.bgen a b o)

/-- R93, R94: JAL writes PC + 4 to g1 and goes to PC + 4 + 4 × offset; JALR writes PC + 4 to g[d] and goes to
g[a] + 4 × imm16, formed from the old g[a]. -/
def JumpsLink : Prop := ∀ s,
  (∀ o : BitVec 26, HasWord (.jal o) (0x70000000 + o.toNat) ∧ ∃ t, exec (.jal o) s = .next t ∧
    Moved s t (s.hart.pc + BitVec.ofInt 64 (4 + 4 * o.toInt)) true 1#5 (s.hart.pc + 4#64))
  ∧ ∀ d a (i : BitVec 16), HasWord (.jalr d a i) (0x1D * 2 ^ 26 + d.toNat * 2 ^ 21 + a.toNat * 2 ^ 16 + i.toNat)
    ∧ ∃ t, exec (.jalr d a i) s = .next t ∧
    Moved s t (s.g a + BitVec.ofInt 64 (4 * i.toInt)) true d (s.hart.pc + 4#64)

/-- R99: compares, class and sign operations. A compare with a NaN writes 0; FLT and FLE then set NV for every NaN, FEQ for
a signalling one. -/
def ScalarFloatCompareSign : Prop := ∀ d a b p,
  let f := sfmt p
  let x s := State.fpat s p a
  let y s := State.fpat s p b
  let nan s := f.isNaN (x s) || f.isNaN (y s)
  let snan s := f.isSNaN (x s) || f.isSNaN (y s)
  let truth s (c : Bool) : Nat := if nan s then 0 else bit c
  let top : Nat := 2 ^ (f.width - 1)
  let signed (neg : Bool) (v : Nat) : Nat := (if neg then top else 0) + v % top
  let neg s (q : State → Nat) : Bool := decide (top ≤ q s)
  ComputesFp (.feq d a b p) d (fun s => (truth s (eqVal (f.value (x s)) (f.value (y s))), flag (snan s) flNV))
  ∧ ComputesFp (.flt d a b p) d (fun s => (truth s (ltVal (f.value (x s)) (f.value (y s))), flag (nan s) flNV))
  ∧ ComputesFp (.fle d a b p) d (fun s => (truth s (!ltVal (f.value (y s)) (f.value (x s))), flag (nan s) flNV))
  ∧ ComputesFp (.fclass d a p) d (fun s => (classBits f (x s), 0#5))
  ∧ ComputesFp (.fsgn d a b p) d (fun s => (signed (neg s y) (x s), 0#5))
  ∧ ComputesFp (.fsgnn d a b p) d (fun s => (signed (!neg s y) (x s), 0#5))
  ∧ ComputesFp (.fsgnx d a b p) d (fun s => (signed (neg s x != neg s y) (x s), 0#5))

/-- R100: conversions. Those to an integer saturate to its width and are extended to 64 bits by sign (FCVTI, FCVTW) or by
zeros (FCVTN, FCVTWN). -/
def ScalarFloatConvert : Prop := ∀ d a r p,
  let f := sfmt p
  let e s := State.scalarEnv s r
  let v s := f.operand (e s).ftz (State.fpat s p a)
  let ext (q : Nat × Flags) (w : Nat) (sgn : Bool) : Nat × Flags :=
    ((BitVec.ofInt 64 (if sgn then toSigned w q.1 else (q.1 % 2 ^ w : Nat))).toNat, q.2)
  ComputesFp (.fcvtff d a r p) d (fun s => floatToFloat (sfmt !p) f (e s) (State.fpat s (!p) a))
  ∧ ComputesFp (.fcvti d a r p) d (fun s => ext (toInt (e s) 64 true (v s)) 64 true)
  ∧ ComputesFp (.fcvtn d a r p) d (fun s => ext (toInt (e s) 64 false (v s)) 64 false)
  ∧ ComputesFp (.fcvtw d a r p) d (fun s => ext (toInt (e s) 32 true (v s)) 32 true)
  ∧ ComputesFp (.fcvtwn d a r p) d (fun s => ext (toInt (e s) 32 false (v s)) 32 false)
  ∧ ComputesFp (.fcvtif d a r p) d (fun s => fromInt f (e s) 64 true (s.g a).toNat)
  ∧ ComputesFp (.fcvtnf d a r p) d (fun s => fromInt f (e s) 64 false (s.g a).toNat)

/-- The hart is in no run-ahead, none of its accesses was held for a hypervisor, and nothing that it posted is under way or
failed. -/
def Settled (s : State) : Prop :=
  s.ra = none ∧ s.hart.posted = [] ∧ s.hart.seq = [] ∧ ∀ w, s.hart.fq ≠ .complete w

/-- The n bytes at va are aligned to their size and lie in an NRM page, which translates them to x (R86). -/
def Lies (s : State) (k : Kind) (va : Word) (n : Nat) (x : Xl) : Prop :=
  canonical va = true ∧ va.toNat % n = 0 ∧ s.hartXlate s.myHall k va n = .ok x ∧ x.cls = .nrm

/-- The home of n bytes serves the hart: no gate refuses them, none is poisoned, and they lie in no ink page
that is in use (R15, R16, R164). -/
def Serves (s : State) (pa n : Nat) (write : Bool) : Prop :=
  s.refusal s.who s.myHall pa n write = none ∧ s.poisoned pa n = false
    ∧ (write = true → paTarget pa < 4 → s.inkRefuses pa = false)

/-- No limit of the VF stops an instruction of this scope with a trap (R110). -/
def Scoped (s : State) (sc : BitVec 3) : Prop := s.limited sc = true → (s.vf s.myVf).scope.getLsbD 1 = false

/-- Memory with n bytes of x at pa, the lowest first, and every other byte as in s. -/
def MemWith (s t : State) (pa n x : Nat) : Prop :=
  ∀ a, Memory.read t.mem a = if pa ≤ a ∧ a < pa + n then BitVec.ofNat 8 (x / 256 ^ (a - pa)) else Memory.read s.mem a

/-- g[d] becomes v, g0 stays zero, and every other scalar register keeps its value. -/
def OnlyG (s t : State) (d : BitVec 5) (v : Word) : Prop := ∀ k, t.g k = if k = d ∧ k ≠ 0#5 then v else s.g k

/-- A load of n bytes at va that the checks of R86 admit and that finds the bytes l, leaving s'. -/
def Finds (s : State) (va : Word) (n : Nat) (l : List Byte) (s' : State) : Prop :=
  s.loadFrom s.myHall true va n n loadClasses [n] = (s', .bytes l)

/-- The value of n little-endian bytes in a register, extended by sign or by zeros (Table 5.4). -/
def Extended (n : Nat) (signed : Bool) (x : Nat) : Word :=
  if signed then BitVec.ofInt 64 (toSigned (8 * n) x) else BitVec.ofNat 64 (x % 2 ^ (8 * n))

/-- From s, in which an access has just been made, the instruction retires with v in g[d]; run-ahead then knows g[d]
(R327), and no other register and no byte of memory changes. -/
def Received (s t : State) (d : BitVec 5) (v : Word) : Prop :=
  (∀ k, t.g k = if k = d ∧ k ≠ 0#5 then v else s.g k) ∧ t.hart.pc = s.hart.pc + 4#64
    ∧ { t.hart with g := s.hart.g, pc := s.hart.pc, transfer := s.hart.transfer } = s.hart
    ∧ { t with hart := s.hart, halls := s.halls, ra := s.ra } = s ∧ (s.ra = none → t.ra = none)

/-- A request of n bytes at va, physical address pa (R89): the line, log2 of the element size, a mask of the bytes of the line, and
what it carries home. -/
def requestTo (s : State) (va : Word) (pa n : Nat) (payload : Payload) : Posted where
  va := va &&& ~~~0x3F#64
  lsz := BitVec.ofNat 3 n.log2
  mask := BitVec.ofNat 64 ((2 ^ n - 1) <<< (va.toNat % 64))
  pa := pa
  payload := payload
  who := s.who
  failed := false
  also := []
  frm := s.myHall

/-- Bytes, each with its address, from pa on. -/
def bytesFrom (pa : Nat) (bs : List Byte) : Payload := .bytes ((List.range bs.length).zip bs |>.map fun p => (pa + p.1, p.2))

/-- The request that a store of bytes bs at va, physical address pa, posts (R88, R89). -/
def storeRequest (s : State) (va : Word) (pa : Nat) (bs : List Byte) : Posted := requestTo s va pa bs.length (bytesFrom pa bs)

/-- R85, R86, Table 5.4: a scalar load at g[a] + imm16 writes to g[d] the bytes that its access finds, the lowest
address in the lowest bits, extended as its name says: those of memory, where an NRM page gives the address, its home serves it
and no read-only window covers it. An access that the hypervisor has completed (R337) is not made: the load takes the value
given. -/
def ScalarLoads : Prop := ∀ (d a : BitVec 5) (i : BitVec 16) (s : State),
  let loads (x : Instr) (n : Nat) (signed : Bool) :=
    (∀ l s', (∀ w, s.hart.fq ≠ .complete w) → Finds s (s.g a + i.signExtend 64) n l s' →
      ∃ t, exec x s = .next t ∧ Received s' t d (Extended n signed (leNat l)))
    ∧ (∀ xl, Settled s → Lies s .load (s.g a + i.signExtend 64) n xl → s.windowLine s.myHall (s.g a + i.signExtend 64) = none →
      Serves s xl.pa n false →
      ∃ t, exec x s = .next t ∧ OnlyG s t d (Extended n signed (leNat (s.bytes xl.pa n))) ∧ t.hart.pc = s.hart.pc + 4#64
        ∧ SameMem s t)
    ∧ ∀ w, s.hart.fq = .complete w → ∃ t, exec x s = .next t ∧ t.hart.pc = s.hart.pc + 4#64 ∧ SameMem s t
      ∧ (∀ k, t.g k = if k = d ∧ k ≠ 0#5 then Extended n signed w.toNat else s.g k)
  loads (.ldb d a i) 1 true ∧ loads (.ldbn d a i) 1 false ∧ loads (.ldh d a i) 2 true ∧ loads (.ldhn d a i) 2 false
  ∧ loads (.ldw d a i) 4 true ∧ loads (.ldwn d a i) 4 false ∧ loads (.ldd d a i) 8 false

/-- R87: where the checks admit a load of an NRM page that its home serves (no gate refuses it, no granule is poisoned), no
read-only window covers it and nothing that the hart posted is under way, the load finds the bytes of memory at the physical
address, and changes no byte of memory and no register. -/
def LoadsFindMemory : Prop := ∀ (s : State) (va : Word) (n : Nat) (x : Xl),
  s.ra = none → s.hart.posted = [] → s.locate s.myHall .load va n n loadClasses = .ok x → x.cls = .nrm →
  s.windowLine s.myHall va = none →
  s.refusal s.who s.myHall x.pa n false = none → s.poisoned x.pa n = false →
  ∃ s', Finds s va n (s.bytes x.pa n) s' ∧ s'.hart = s.hart ∧ SameMem s s'
    ∧ { s' with tlb := s.tlb, walks := s.walks, fresh := s.fresh, halls := s.halls, hostLines := s.hostLines } = s

/-- R85, R86, R88: a scalar store at g[a] + imm16 posts the low bytes of g[d], the lowest byte at the lowest address, to the
physical address that its checks give, and retires: no byte of memory changes until the request is performed, and no
register changes; once it is performed, memory holds those bytes, where the home serves it. A request that finds 256 waiting
first waits for them. To a DEV page the store is performed at once (R91). -/
def ScalarStores : Prop := ∀ (d a : BitVec 5) (i : BitVec 16) (s : State),
  let va := s.g a + i.signExtend 64
  let stores (x : Instr) (n : Nat) :=
    let bs := leBytes n (s.g d).toNat
    (∀ xl, (∀ w, s.hart.fq ≠ .complete w) → s.ra = none → s.locate s.myHall .store va n n storeClasses = .ok xl →
      s.hart.posted.length < 256 →
      (xl.cls = .nrm →
        ∃ t, exec x s = .next t ∧ t.hart.posted = s.hart.posted ++ [storeRequest s va xl.pa bs] ∧ SameMem s t
          ∧ t.hart.pc = s.hart.pc + 4#64
          ∧ { t.hart with pc := s.hart.pc, transfer := s.hart.transfer, posted := s.hart.posted } = s.hart
          ∧ { t with hart := s.hart, tlb := s.tlb, walks := s.walks, halls := s.halls } = s)
      ∧ (xl.cls = .dev → exec x s = .next (((s.keepXlate s.myHall va).storeBytes va xl bs).retire 4#64)))
    ∧ (∀ xl, Settled s → Lies s .store va n xl → Serves s xl.pa n true →
      ∃ t, exec x s = .next t ∧ (∀ k, t.g k = s.g k) ∧ t.hart.pc = s.hart.pc + 4#64 ∧ SameMem s t
        ∧ (Memory.wf s.mem = true → MemWith s t.settleAll xl.pa n (s.g d).toNat))
    ∧ ∀ w, s.hart.fq = .complete w → s.hart.posted.length < 256 →
      ∃ t, exec x s = .next t ∧ (∀ k, t.g k = s.g k) ∧ t.hart.pc = s.hart.pc + 4#64 ∧ SameMem s t
  stores (.stb d a i) 1 ∧ stores (.sth d a i) 2 ∧ stores (.stw d a i) 4 ∧ stores (.std d a i) 8

/-- R88, R89, R15: when the request of a store at position k of the posted requests, the only one to its line, is performed and
its home admits it (memory being in canonical form, which every step keeps), the bytes stored are in memory, every other byte reads as before, and the request leaves the list. -/
def PostedStoreLands : Prop := ∀ (s : State) (k : Nat) (p : Posted) (pa : Nat) (bs : List Byte),
  s.Inv → s.hart.posted[k]? = some p → (∀ j q, s.hart.posted[j]? = some q → j ≠ k → q.pa / 64 ≠ p.pa / 64) → p.failed = false →
  p.pa = pa → p.payload = .bytes ((List.range bs.length).zip bs |>.map fun q => (pa + q.1, q.2)) → bs ≠ [] →
  s.refusal p.who p.frm pa bs.length true = none → (paTarget pa < 4 → s.inkRefuses pa = false) →
  ∃ t, exec (.postedWritePerformed k) s = .next t ∧ t.hart.posted = s.hart.posted.eraseIdx k
    ∧ ∀ a, Memory.read t.mem a = if pa ≤ a ∧ a < pa + bs.length then bs.getD (a - pa) 0#8 else Memory.read s.mem a

/-- The scope and the release mark of an instruction have let it go on: s' is the state after them (R57, R102, R110). -/
def Ordered (s : State) (sc : BitVec 3) (rel : Bool) (s' : State) : Prop := (s.scoped sc).bind (·.releaseIf rel sc) = .ok s'

/-- R101, R103, R104, R105: an atomic on the W32 word or the doubleword at g[a] replaces it, in one step at its home, by what
its name says of the old value m and of g[b], and writes m to g[d], extended by sign or, for the unsigned and floating-point
forms, by zeros. CAS and CAS2 replace it only where it equals g[d]; CAS2 compares and writes pairs of registers. -/
def AtomicsReturnOld : Prop := ∀ (d a b : BitVec 5) (sc : BitVec 3) (q rel w : Bool) (s s' : State),
  Ordered s sc rel s' →
  let n := if w then 4 else 8
  let y := (s.g b).toNat % 2 ^ (8 * n)
  let c := (s.g d).toNat % 2 ^ (8 * n)
  let host := s.scopeRun sc == 5#3
  let swaps (i : Instr) (signed refused : Bool) (f : Nat → Option Nat) := ∀ m u,
    s'.atomicAt (s.g a) n refused host f = .ok (some m, u) →
      ∃ t, exec i s = .next t ∧ Received (u.demote sc) t d (Extended n signed m)
  let f := if w then Fmt.fp32 else Fmt.fp64
  swaps (.amoadd d a b sc q rel w) true false (fun m => some ((m + y) % 2 ^ (8 * n)))
  ∧ swaps (.amoand d a b sc q rel w) true true (fun m => some (m &&& y))
  ∧ swaps (.amoor d a b sc q rel w) true true (fun m => some (m ||| y))
  ∧ swaps (.amoxor d a b sc q rel w) true true (fun m => some (m ^^^ y))
  ∧ swaps (.amomin d a b sc q rel w) true true (fun m => some (if toSigned (8 * n) y < toSigned (8 * n) m then y else m))
  ∧ swaps (.amomax d a b sc q rel w) true true (fun m => some (if toSigned (8 * n) m < toSigned (8 * n) y then y else m))
  ∧ swaps (.amominn d a b sc q rel w) false true (fun m => some (Nat.min m y))
  ∧ swaps (.amomaxn d a b sc q rel w) false true (fun m => some (Nat.max m y))
  ∧ swaps (.amoswp d a b sc q rel w) true false (fun _ => some y)
  ∧ swaps (.amofadd d a b sc q rel w) false true (fun m => some (roundTo f .plain (addVal .rne (f.value m) (f.value y)).1).1)
  ∧ swaps (.cas d a b sc q rel w) true false (fun m => if m = c then some y else none)
  ∧ ∀ m u, s'.atomicAt (s.g a) 16 false host
      (fun m => if m = (s.g d).toNat + 2 ^ 64 * (s.g (d + 1)).toNat then some ((s.g b).toNat + 2 ^ 64 * (s.g (b + 1)).toNat) else none)
        = .ok (some m, u) →
      ∃ t, exec (.cas2 d a b sc q rel) s = .next t ∧ t.hart.pc = u.hart.pc + 4#64 ∧ SameMem u t
        ∧ ∀ k, t.g k = if k = d + 1 ∧ k ≠ 0#5 then BitVec.ofNat 64 (m / 2 ^ 64)
            else if k = d ∧ k ≠ 0#5 then BitVec.ofNat 64 m else u.g k

/-- R101 to R105: on an aligned word of an NRM page that its home serves, with nothing that the hart posted under
way, an atomic completes: g[d] (a pair of registers for CAS2) receives the old value, memory the new one, and nothing else of
memory or of the scalar registers changes. A PCIe-only port carries only the updates that R360 gives it, and those
while its root complex takes them. -/
def AtomicsComplete : Prop := ∀ (d a b : BitVec 5) (sc : BitVec 3) (q rel w : Bool) (s : State),
  let n := if w then 4 else 8
  let y := (s.g b).toNat % 2 ^ (8 * n)
  let c := (s.g d).toNat % 2 ^ (8 * n)
  let done (i : Instr) (n : Nat) (refused : Bool) (f : Nat → Option Nat) (got : Nat → State → Prop) :=
    ∀ x, Settled s → Scoped s sc → Lies s .rmw (s.g a) n x → Serves s x.pa n true → s.noAtomic x.pa refused = false →
      Memory.wf s.mem = true →
      let m := leNat (s.bytes x.pa n)
      ∃ t, exec i s = .next t ∧ t.hart.pc = s.hart.pc + 4#64 ∧ got m t
        ∧ (match f m with | some z => MemWith s t x.pa n z | none => SameMem s t)
  let swaps (i : Instr) (signed refused : Bool) (f : Nat → Option Nat) :=
    done i n refused f fun m t => OnlyG s t d (Extended n signed m)
  let f := if w then Fmt.fp32 else Fmt.fp64
  swaps (.amoadd d a b sc q rel w) true false (fun m => some ((m + y) % 2 ^ (8 * n)))
  ∧ swaps (.amoand d a b sc q rel w) true true (fun m => some (m &&& y))
  ∧ swaps (.amoor d a b sc q rel w) true true (fun m => some (m ||| y))
  ∧ swaps (.amoxor d a b sc q rel w) true true (fun m => some (m ^^^ y))
  ∧ swaps (.amomin d a b sc q rel w) true true (fun m => some (if toSigned (8 * n) y < toSigned (8 * n) m then y else m))
  ∧ swaps (.amomax d a b sc q rel w) true true (fun m => some (if toSigned (8 * n) m < toSigned (8 * n) y then y else m))
  ∧ swaps (.amominn d a b sc q rel w) false true (fun m => some (Nat.min m y))
  ∧ swaps (.amomaxn d a b sc q rel w) false true (fun m => some (Nat.max m y))
  ∧ swaps (.amoswp d a b sc q rel w) true false (fun _ => some y)
  ∧ swaps (.amofadd d a b sc q rel w) false true (fun m => some (roundTo f .plain (addVal .rne (f.value m) (f.value y)).1).1)
  ∧ swaps (.cas d a b sc q rel w) true false (fun m => if m = c then some y else none)
  ∧ done (.cas2 d a b sc q rel) 16 false
      (fun m => if m = (s.g d).toNat + 2 ^ 64 * (s.g (d + 1)).toNat then some ((s.g b).toNat + 2 ^ 64 * (s.g (b + 1)).toNat) else none)
      fun m t => ∀ k, t.g k = if k = d + 1 ∧ k ≠ 0#5 then BitVec.ofNat 64 (m / 2 ^ 64)
        else if k = d ∧ k ≠ 0#5 then BitVec.ofNat 64 m else s.g k

/-- R101: where the checks admit an atomic of n bytes on an NRM page whose home performs it and nothing that the hart posted is
under way, it finds the n bytes of memory as a little-endian number, leaves there the number that f gives (the old one where
f gives none), and leaves every other byte and every register as they were. -/
def AtomicsUpdateMemory : Prop :=
  ∀ (s : State) (va : Word) (n : Nat) (x : Xl) (refused host : Bool) (f : Nat → Option Nat),
  s.Inv → s.ra = none → s.hart.posted = [] → 0 < n → s.locate s.myHall .rmw va n n onlyNrm = .ok x →
  s.updateLate s.who s.myHall x.pa n refused = none →
  ∃ u, s.atomicAt va n refused host f = .ok (some (leNat (s.bytes x.pa n)), u)
    ∧ (∀ k, u.g k = s.g k) ∧ u.hart.pc = s.hart.pc
    ∧ ∀ a, Memory.read u.mem a =
        match f (leNat (s.bytes x.pa n)) with
        | some z => if x.pa ≤ a ∧ a < x.pa + n then BitVec.ofNat 8 (z / 256 ^ (a - x.pa)) else Memory.read s.mem a
        | none => Memory.read s.mem a

/-- R106, R108, R109, R240: LDA loads as an acquire, and STREL releases and then stores, at the scope it names. FENCE, of every
kind, has what the hart issued performed, and completes the traps that R88 owes for it; VDRAIN completes the non-blocking
operations on its counter, or all of them for counter 0, and then releases where its marks ask for it. -/
def OrderedAccesses : Prop := ∀ (d a : BitVec 5) (k sc : BitVec 3) (q rel w : Bool) (s s' : State),
  let n := if w then 4 else 8
  (s.scoped sc = .ok s' → s.completed = none → ∀ l u, s'.loadFrom s'.myHall false (s.g a) n n loadClasses [n] = (u, .bytes l) →
    ∃ t, exec (.lda d a sc w) s = .next t ∧ Received (u.demote sc) t d (Extended n true (leNat l)))
  ∧ (Ordered s sc true s' → s'.completed = none → s.hart.posted.length < 256 →
    ∀ u, s'.storeAt (s.g a) (leBytes n (s.g d).toNat) storeClasses = .ok u →
    exec (.strel d a sc w) s = .next ((u.demote sc).retire 4#64))
  ∧ (Ordered s sc true s' → exec (.fence sc q rel) s = .next ((s'.demote sc).retire 4#64))
  ∧ (s.ra = none → ∀ u, s.scoped sc = .ok u →
      (u.completeVecs fun o => decide (k = 0#3) || decide (o.k = k)).releaseIf (q || rel) sc = .ok s' →
      exec (.vdrain k sc q rel) s = .next ((s'.demote sc).retire 4#64))

/-- R106, R108, R109: when LDA, STREL, FENCE and VDRAIN complete. LDA and STREL do on an aligned word of an NRM page that its
home serves, with nothing that the hart posted under way: g[d] then holds the bytes of memory, or memory, once
the store is performed, those of g[d]. FENCE does where no performed store leaves a trap owed that is not held (at a scope above CLU
everything posted is then performed), and VDRAIN where nothing is posted: no operation on its counter is left. An owed trap that is not held
is taken instead, at the FENCE. -/
def OrderedComplete : Prop := ∀ (d a : BitVec 5) (k sc : BitVec 3) (q rel w : Bool) (s : State),
  let n := if w then 4 else 8
  Scoped s sc →
  (∀ x, Settled s → Lies s .load (s.g a) n x → Serves s x.pa n false →
    ∃ t, exec (.lda d a sc w) s = .next t ∧ OnlyG s t d (Extended n true (leNat (s.bytes x.pa n)))
      ∧ t.hart.pc = s.hart.pc + 4#64 ∧ SameMem s t)
  ∧ (∀ x, Settled s → Lies s .store (s.g a) n x → Serves s x.pa n true →
    ∃ t, exec (.strel d a sc w) s = .next t ∧ (∀ k, t.g k = s.g k) ∧ t.hart.pc = s.hart.pc + 4#64 ∧ SameMem s t
      ∧ (Memory.wf s.mem = true → MemWith s t.settleAll x.pa n (s.g d).toNat))
  ∧ (s.ra = none → (s.settleScope (s.scopeRun sc)).owedTrap = none →
    ∃ t, exec (.fence sc q rel) s = .next t ∧ (∀ k, t.g k = s.g k) ∧ t.hart.pc = s.hart.pc + 4#64 ∧ t.hart.mode = s.hart.mode
      ∧ (sc ≠ 0#3 → t.hart.posted = s.settleAll.hart.posted ∧ t.mem = s.settleAll.mem))
  ∧ (s.ra = none → ∀ e u, (s.settleScope (s.scopeRun sc)).owedTrap = some (e, u) →
    exec (.fence sc q rel) s = .next (u.takeTrap e) ∧ e.code = 14 ∧ u.hart.pc = s.hart.pc)
  ∧ (s.ra = none → s.hart.posted = [] → s.hart.seq = [] →
    ∃ t, exec (.vdrain k sc q rel) s = .next t ∧ (∀ j, t.g j = s.g j) ∧ t.hart.pc = s.hart.pc + 4#64
      ∧ ∀ o ∈ t.hart.vops, o ∈ s.hart.vops ∧ k ≠ 0#3 ∧ o.k ≠ k)

/-! ## Vector instructions -/

/-- Every check of R121 passes: the type is legal, the operands are, and a claim is held; and the instruction is not the one
that is left part-way (R123), which is so in every state that a step leaves. -/
def VecOk (s : State) (ok : Bool) (dsts srcs : List VOpd) (cross : Bool) : Prop :=
  ok = true ∧ s.operandsOk dsts srcs cross = true ∧ s.hart.claim.isSome = true ∧ s.hart.cut = none

/-- One step for each element from VSTART to VL − 1, in order, and then VSTART is 0. -/
def rangeDone (s : State) (f : State → Nat → State) : State :=
  let t := (upTo s.hart.vstart s.hart.vl).foldl f s
  { t with hart := { t.hart with vstart := 0 } }

/-- The state after the elements VSTART to VL − 1 have been processed in order (R120): an active element receives the value
that `res` gives it in the state before, its flags going into VSTAT; an inactive one becomes zero under the zero policy and
keeps its value otherwise; VSTART becomes 0. `put` writes one element. -/
def elementsDone (s : State) (p : Option Pfx) (m : BitVec 3) (per : Nat) (put : State → Nat → Nat → State)
    (res : Nat → Nat × Flags) : State :=
  rangeDone s fun t e =>
    if s.active (s.maskSel p m) per e then (put t e (res e).1).orVstat (res e).2
    else if s.zeroing p then put t e 0 else t

/-- R119 to R121: an instruction that computes each element of d by itself: with its checks passed it completes, in run-ahead too,
where only what is unknown differs. -/
def Elementwise (i : Instr) (p : Option Pfx) (m : BitVec 3) (ok : State → Bool) (d : State → VOpd) (srcs : State → List VOpd)
    (res : State → Nat → Nat × Flags) : Prop :=
  ∀ s, VecOk s (ok s) [d s] (srcs s) false →
    (s.ra = none → exec i s = .next ((elementsDone s p m (s.perPos (d s)) (·.setElem (d s)) (res s)).retire (pfxLen p)))
    ∧ ∃ t, exec i s = .next t ∧ t.hart.pc = s.hart.pc + pfxLen p ∧ t.hart.vstart = 0 ∧ SameMem s t

/-- An instruction of two vector sources and a destination of one type, which must satisfy `ok`; `f` maps the type, the state,
the element's index and its operands to the result. -/
def Binary (mk : VOp3 → Instr) (ok : BitVec 4 → Bool)
    (f : BitVec 4 → State → Option Pfx → Nat → Nat → Nat → Nat × Flags) : Prop :=
  ∀ o : VOp3,
    let w s := typeWidth (State.vtype s o.pfx)
    Elementwise (mk o) o.pfx o.msk (fun s => ok (s.vtype o.pfx)) (fun s => vreg o.d (w s))
      (fun s => [vreg o.a (w s), vreg o.b (w s)])
      (fun s e => f (s.vtype o.pfx) s o.pfx e (s.elem (vreg o.a (w s)) e) (s.elem (vreg o.b (w s)) e))

/-- The same with one vector source. -/
def Unary (mk : VOp2 → Instr) (ok : BitVec 4 → Bool)
    (f : BitVec 4 → State → Option Pfx → Nat → Nat → Nat × Flags) : Prop :=
  ∀ o : VOp2,
    let w s := typeWidth (State.vtype s o.pfx)
    Elementwise (mk o) o.pfx o.msk (fun s => ok (s.vtype o.pfx)) (fun s => vreg o.d (w s)) (fun s => [vreg o.a (w s)])
      (fun s e => f (s.vtype o.pfx) s o.pfx e (s.elem (vreg o.a (w s)) e))

/-- A compare of two vector sources: the results are bits of mask register d (R127). -/
def Compare (mk : VCmpOp → Instr) (ok : BitVec 4 → Bool) (f : BitVec 4 → Nat → Nat → Bool × Flags) : Prop :=
  ∀ (o : VCmpOp) (s : State),
    let t := s.vtype o.pfx
    let a := vreg o.a (typeWidth t)
    let b := vreg o.b (typeWidth t)
    VecOk s (ok t) [] [a, b] false →
      (s.ra = none → exec (mk o) s = .next ((elementsDone s o.pfx o.msk (s.perPos a)
          (fun u e x => u.setMaskBit o.d (s.perPos a) e (x != 0))
          (fun e => let r := f t (s.elem a e) (s.elem b e); (if r.1 then 1 else 0, r.2))).retire (pfxLen o.pfx)))
      ∧ ∃ u, exec (mk o) s = .next u ∧ u.hart.pc = s.hart.pc + pfxLen o.pfx ∧ u.hart.vstart = 0 ∧ SameMem s u

/-- The pattern of width w that stands for an integer modulo 2^w. -/
def patternOf (w : Nat) (i : Int) : Nat := (i % 2 ^ w).toNat

/-- The least and the greatest integer of a width. -/
def lowestOf (w : Nat) (sgn : Bool) : Int := if sgn then -2 ^ (w - 1) else 0
@[inherit_doc lowestOf] def highestOf (w : Nat) (sgn : Bool) : Int := if sgn then 2 ^ (w - 1) - 1 else 2 ^ w - 1

/-- R132 to R134, Tables 2.8, 7.5: the special functions on FP16, BF16 and FP32 are their exact values rounded once. A conversion
between a type of width w and a wider one keeps the wider operand in a group of registers; equal types copy, integers wrap or
saturate, and the others round once. -/
def VectorSpecialAndConvert : Prop :=
  let special (mk : VOp2 → Instr) (fn : Special) := Unary mk specialFloat fun t s p e x =>
    let q := fn.value ((fmtOf t).operand (s.vecEnv p e).ftz x)
    let r := roundTo (fmtOf t) (s.vecEnv p e) q.1
    (r.1, r.2 ||| q.2 ||| flag ((fmtOf t).isSNaN x) flNV)
  let group (r : BitVec 5) (own other : Nat) : VOpd := ⟨r, if other < own then own / other else 1, own⟩
  let converts (mk : Option Pfx → BitVec 5 → BitVec 5 → BitVec 4 → Bool → BitVec 3 → Instr) (ok : BitVec 4 → BitVec 4 → Bool)
      (f : RndEnv → BitVec 4 → BitVec 4 → Nat → Nat × Flags) := ∀ p d a t x m,
    let dw s := typeWidth (State.vtype s p)
    Elementwise (mk p d a t x m) p m
      (fun s => ok t (s.vtype p) && decide (typeWidth t ≤ 4 * dw s) && decide (dw s ≤ 4 * typeWidth t))
      (fun s => group d (dw s) (typeWidth t)) (fun s => [group a (typeWidth t) (dw s)])
      (fun s e => f (s.vecEnv p e) t (s.vtype p) (s.elem (group a (typeWidth t) (dw s)) e))
  special .vfrcp .rcp ∧ special .vfrsq .rsq ∧ special .vfex2 .ex2 ∧ special .vflg2 .lg2 ∧ special .vftnh .tnh
  ∧ special .vfsig .sig ∧ special .vfexp .exp
  ∧ converts .vcvt (fun s t => (isInt s && isInt t) || (isFloat s && isFloat t)) (fun env s t x =>
      if s = t then (x, 0#5)
      else if isInt s then
        let i : Int := if isSigned s then toSigned (typeWidth s) x else (x % 2 ^ typeWidth s : Nat)
        let w := typeWidth t
        (patternOf w (if env.sat && decide (w ≤ typeWidth s) then max (lowestOf w (isSigned t)) (min (highestOf w (isSigned t)) i) else i), 0#5)
      else floatToFloat (fmtOf s) (fmtOf t) env x)
  ∧ converts .vftoi (fun s t => isFloat s && isInt t)
      (fun env s t x => toInt env (typeWidth t) (isSigned t) ((fmtOf s).operand env.ftz x))
  ∧ converts .vitof (fun s t => isInt s && isFloat t)
      (fun env s t x => fromInt (fmtOf t) env (typeWidth s) (isSigned s) x)

/-- R35, R135: VCVTEF narrows x to n in vd and writes to vc, in x's format, the residual x − n: the exact difference, with the sign of
an exact zero that R26 gives, where n is finite and not the result of an overflow, and rounded to nearest with NX otherwise. Where
x's format cannot hold the exact difference the residual is a free value (log 84). Both destinations follow the mask and the
policy together. -/
def VectorConvertErrorFree : Prop := ∀ (p : Pfx) (d a : BitVec 5) (t : BitVec 4) (x : Bool) (m : BitVec 3) (s : State),
  let dt := s.vtype (some p)
  let dw := typeWidth dt
  let sw := typeWidth t
  let src := convOpd a sw dw
  let vd := convOpd d dw sw
  let vc := convOpd p.c sw dw
  let f := fmtOf t
  let g := fmtOf dt
  let env := s.vecEnv (some p)
  let narrow e := floatToFloat f g (env e) (s.elem src e)
  let isFinite (v : FVal) : Bool := match v with | .fin .. => true | _ => false
  let past e := !isFinite (f.operand (env e).ftz (s.elem src e)) && !(f.isNaN (s.elem src e))
    || (roundTo g (env e) (f.operand (env e).ftz (s.elem src e))).2.getLsbD 2
    || (g.kind == .e4m3 && g.isNaN (narrow e).1)
  let exact e := isFinite (g.value (narrow e).1) && !past e
  let diff e := roundTo f .plain (addVal (if exact e then (env e).rnd else .rne) (f.value (s.elem src e)) (g.value (narrow e).1).negate).1
  let rest e := if exact e && (diff e).2 != 0#5 then (Config.freeWord (s.fresh + e)).toNat % 2 ^ f.width else (diff e).1
  VecOk s (narrows t dt && ratioOk sw dw && !vc.overlaps vd) [vd, vc] [src] false →
    (s.ra = none → exec (.vcvtef p d a t x m) s = .next (({ elementsDone s (some p) m (s.perPos vd)
        (fun u e n => (u.setElem vd e n).setElem vc e (if s.active (s.maskSel (some p) m) (s.perPos vd) e then rest e else 0))
        (fun e => ((narrow e).1, (narrow e).2 ||| flag (!exact e) flNX)) with fresh := s.fresh + s.hart.vl } : State).retire 8#64))
    ∧ ∃ u, exec (.vcvtef p d a t x m) s = .next u ∧ u.hart.pc = s.hart.pc + 8#64 ∧ u.hart.vstart = 0 ∧ SameMem s u

/-- The active elements below n of the elements below VL, for an operand with `per` elements at each span position. -/
def activeBelow (s : State) (p : Option Pfx) (m : BitVec 3) (per n : Nat) : List Nat :=
  (List.range (Nat.min n s.hart.vl)).filter fun e => s.active (s.maskSel p m) per e

/-- The instruction completes with VSTART 0 and no byte of memory changed. -/
def CompletesInRegisters (i : Instr) (p : Option Pfx) (s : State) : Prop :=
  ∃ t, exec i s = .next t ∧ t.hart.pc = s.hart.pc + pfxLen p ∧ t.hart.vstart = 0 ∧ SameMem s t

/-- The value of the elements lo to lo + 2^k − 1 on the tree of R42: none active, none; else the combination of the halves. The
combination of two halves takes the index of the first element of the upper one. -/
def onTree (leaf : Nat → Option Nat) (combine : Nat → Nat → Nat → Nat × Flags) : Nat → Nat → Option (Nat × Flags)
  | 0, lo => (leaf lo).map fun x => (x, 0#5)
  | k + 1, lo =>
    match onTree leaf combine k lo, onTree leaf combine k (lo + 2 ^ k) with
    | none, r => r
    | r, none => r
    | some x, some y => let c := combine (lo + 2 ^ k) x.1 y.1; some (c.1, x.2 ||| y.2 ||| c.2)

/-- An operand as R25 has it read: under FTZ a subnormal is a zero of its sign. -/
def zeroed (f : Fmt) (ftz : Bool) (x : Nat) : Nat := if ftz && f.flushes && f.isSub x then f.signed (f.neg x) 0 else x

/-- R42, R143, R145: a reduction with VSTART 0 writes vd[0]: vb[0] combined with the active elements. The integer ones wrap; the
float ones combine over the fixed tree of the least power of two that reaches VL, and then with vb[0]. With no active element vd[0]
is vb[0] and EMPTY is set; with VL 0 nothing is written. A nonzero VSTART is illegal. -/
def VectorReductions : Prop :=
  let reduces (mk : VOp3 → Instr) (ok : BitVec 4 → Bool) (f : BitVec 4 → State → Option Pfx → BitVec 3 → BitVec 5 → Nat → Nat × Flags) :=
    ∀ (o : VOp3) (s : State),
      let t := s.vtype o.pfx
      let w := typeWidth t
      let d := vreg o.d w
      let a := vreg o.a w
      let b := vreg o.b w
      let act := activeBelow s o.pfx o.msk (s.perPos a) s.hart.vl
      let r := f t s o.pfx o.msk o.a (s.elem b 0)
      (VecOk s (ok t) [d] [a, b] false → s.hart.vstart = 0 → s.ra = none → exec (mk o) s = .next (
        (if s.hart.vl = 0 then s
         else if act = [] then { s.setElem d 0 (s.elem b 0) with
           hart := { (s.setElem d 0 (s.elem b 0)).hart with vstat := s.hart.vstat ||| 0x20#64 } }
         else { s.setElem d 0 r.1 with
           hart := { (s.setElem d 0 r.1).hart with vstat := s.hart.vstat ||| r.2.setWidth 64 } }).retire (pfxLen o.pfx)))
      ∧ (VecOk s (ok t) [d] [a, b] false → s.hart.vstart = 0 → CompletesInRegisters (mk o) o.pfx s)
      ∧ (s.hart.vstart ≠ 0 → exec (mk o) s = .next (s.takeTrap { code := 3, eval := s.irWord, pfx := o.pfx.isSome }))
  let elems (t : BitVec 4) (s : State) (p : Option Pfx) (m : BitVec 3) (a : BitVec 5) : List Nat :=
    (activeBelow s p m (s.perPos (vreg a (typeWidth t))) s.hart.vl).map (s.elem (vreg a (typeWidth t)))
  let int (mk : VOp3 → Instr) (f : Nat → Nat → List Nat → Nat) := reduces mk isInt fun t s p m a z =>
    (f (typeWidth t) z (elems t s p m a), 0#5)
  let signed (mk : VOp3 → Instr) (f : Int → Int → Int) := int mk fun w z l =>
    patternOf w ((l.map (toSigned w)).foldl f (toSigned w z))
  let tree (mk : VOp3 → Instr) (f : BitVec 4 → State → Option Pfx → Nat → Nat → Nat → Nat × Flags) := reduces mk arithFloat fun t s p m a z =>
    let o := vreg a (typeWidth t)
    let leaf e := if e ∈ activeBelow s p m (s.perPos o) s.hart.vl then some (s.elem o e) else none
    match onTree leaf (f t s p) (Nat.clog 2 s.hart.vl) 0 with
    | some x => let r := f t s p 0 z x.1; (r.1, x.2 ||| r.2)
    | none => (z, 0#5)
  int .vredsum (fun w z l => (z + l.sum) % 2 ^ w)
  ∧ signed .vredmin min ∧ signed .vredmax max
  ∧ int .vredminn (fun _ z l => l.foldl Nat.min z) ∧ int .vredmaxn (fun _ z l => l.foldl Nat.max z)
  ∧ int .vredand (fun _ z l => l.foldl Nat.land z) ∧ int .vredor (fun _ z l => l.foldl Nat.lor z)
  ∧ int .vredxor (fun _ z l => l.foldl Nat.xor z)
  ∧ tree .vfredsum (fun t s p i x y => fpAdd (fmtOf t) (s.vecEnv p i) false x y)
  ∧ tree .vfredmin (fun t s p i x y => minMax (fmtOf t) false (zeroed (fmtOf t) (s.vecEnv p i).ftz x) (zeroed (fmtOf t) (s.vecEnv p i).ftz y))
  ∧ tree .vfredmax (fun t s p i x y => minMax (fmtOf t) true (zeroed (fmtOf t) (s.vecEnv p i).ftz x) (zeroed (fmtOf t) (s.vecEnv p i).ftz y))

/-- R43, R144, R145: an inclusive scan writes to each active element vb[0] combined in turn with the active elements up to it, an
exclusive one with those before it; VSCAN and VSCANX are sums modulo 2^w. With no active element nothing is written and EMPTY is
set; with VL 0 nothing happens. A nonzero VSTART is illegal. -/
def VectorScans : Prop :=
  let scans (mk : VOp3 → Instr) (ok : BitVec 4 → Bool) (f : BitVec 4 → State → Option Pfx → (Nat → Nat) → Nat → List Nat → Nat → Nat × Flags) :=
    ∀ (o : VOp3) (s : State),
      let t := s.vtype o.pfx
      let w := typeWidth t
      let d := vreg o.d w
      let a := vreg o.a w
      let b := vreg o.b w
      (VecOk s (ok t) [d] [a, b] false → s.hart.vstart = 0 → s.ra = none → exec (mk o) s = .next (
        (if s.hart.vl = 0 then s
         else if activeBelow s o.pfx o.msk (s.perPos a) s.hart.vl = [] then
           { s with hart := { s.hart with vstat := s.hart.vstat ||| 0x20#64 } }
         else elementsDone s o.pfx o.msk (s.perPos a) (·.setElem d) fun e =>
           f t s o.pfx (s.elem a) (s.elem b 0) (activeBelow s o.pfx o.msk (s.perPos a) e) e).retire (pfxLen o.pfx)))
      ∧ (VecOk s (ok t) [d] [a, b] false → s.hart.vstart = 0 → CompletesInRegisters (mk o) o.pfx s)
      ∧ (s.hart.vstart ≠ 0 → exec (mk o) s = .next (s.takeTrap { code := 3, eval := s.irWord, pfx := o.pfx.isSome }))
  scans .vscan isInt (fun t _ _ x z before e => ((z + (before.map x).sum + x e) % 2 ^ typeWidth t, 0#5))
  ∧ scans .vscanx isInt (fun t _ _ x z before _ => ((z + (before.map x).sum) % 2 ^ typeWidth t, 0#5))
  ∧ scans .vfscan arithFloat (fun t s p x z before e =>
      let add i r := fpAdd (fmtOf t) (s.vecEnv p i) false r (x i)
      add e (before.foldl (fun r i => (add i r).1) z))

/-! ## Vector memory -/

/-- What an element of a non-blocking load receives where its access fails after issue: zero, or, for an error response, a free
value (Table 9.2, log 81). -/
def failedElem (s : State) (o : VOpd) (e : Nat) (why : Late) : State :=
  if why = .error then { s.setElem o e (Config.freeWord s.fresh).toNat with fresh := s.fresh + 1 } else s.setElem o e 0

/-- The elements of a load, in ascending index from the state and the status p to q (R153 to R155, R220): an active element receives
the bytes that the access of its span position finds, or, in the non-blocking form, what a failure after issue leaves, the first such
status being kept; an inactive one follows the policy. -/
def ElementsLoaded (s : State) (sel : BitVec 3) (per : Nat) (zero : Bool) (o : VOpd) (n : Nat) (k : BitVec 3) (addr : Nat → Word) :
    List Nat → State × BitVec 4 → State × BitVec 4 → Prop
  | [], p, q => q = p
  | e :: l, p, q =>
    if p.1.active sel per e then
      (∃ u bs, p.1.loadFrom (p.1.elemHall per e) true (addr e) n n nrmInk [n] = (u, .bytes bs) ∧
        ElementsLoaded s sel per zero o n k addr l (u.setElem o e (leNat bs), p.2) q)
      ∨ (k ≠ 0#3 ∧ ∃ u err, p.1.loadFrom (p.1.elemHall per e) true (addr e) n n nrmInk [n] = (u, .late err) ∧
        ElementsLoaded s sel per zero o n k addr l (failedElem u o e err, if p.2 = 0#4 then err.status else p.2) q)
    else ElementsLoaded s sel per zero o n k addr l (if zero then p.1.setElem o e 0 else p.1, p.2) q

/-- The active elements from VSTART to VL − 1. -/
def activeElems (s : State) (sel : BitVec 3) (per : Nat) : List Nat :=
  (upTo s.hart.vstart s.hart.vl).filter fun e => s.active sel per e

/-- The span positions of the active elements, one bit each. -/
def activePositions (s : State) (sel : BitVec 3) (per : Nat) : BitVec 8 :=
  (activeElems s sel per).foldl (fun m e => m ||| (1#8 <<< (e / per))) 0#8

/-- The end of a vector memory instruction: in its non-blocking form, where some element was active, counter k has one operation more
in flight, which carries the status and its span positions (R154, R221); VSTART is 0. -/
def vectorEnded (s u : State) (sel : BitVec 3) (per : Nat) (k : BitVec 3) (st : BitVec 4) (len : Word) : State :=
  ((u.issueVec k st (activePositions s sel per)).setVstart 0).retire len

/-- The first active element of the instruction passes its checks, and so it would be issued (R153). -/
def FirstIssues (s : State) (sel : BitVec 3) (per n : Nat) (kind : Kind) (ok : Accept) (addr : Nat → Word) : Prop :=
  ∃ e x, (activeElems s sel per).head? = some e ∧ s.locate (s.elemHall per e) kind (addr e) n n ok = .ok x

/-- The active elements `els` of n bytes lie at the places x of one page of NRM memory, each aligned to its size, and the home of each
line serves the hart; the hart's own hall makes the accesses (R86, R153, R220). -/
def ElementsLie (s : State) (els : List Nat) (per : Nat) (kind : Kind) (n : Nat) (addr : Nat → Word) (x : Nat → Xl) (write : Bool) :
    Prop :=
  (∀ e ∈ els, Lies s kind (addr e) n (x e) ∧ Serves s ((x e).pa / 64 * 64) 64 write ∧ s.elemHall per e = s.myHall)
    ∧ ∀ e ∈ els, ∀ f ∈ els, pageOf (addr e) = pageOf (addr f)

/-- Memory of t once what its hart posted is performed: that of s with these bytes stored, one list after another. -/
def MemStored (s t : State) (stores : List (Nat × List Byte)) : Prop :=
  Memory.wf s.mem = true → ∀ a, Memory.read t.settleAll.mem a =
    Memory.read (stores.foldl (fun (u : State) p => u.putBytes p.1 p.2) s).mem a

/-- A vector memory instruction has completed: the PC is past it, VSTART is 0, and no scalar register has changed. -/
def VectorDone (s t : State) (p : Option Pfx) : Prop :=
  t.hart.pc = s.hart.pc + pfxLen p ∧ t.hart.vstart = 0 ∧ ∀ k, t.g k = s.g k

/-- The elements of an instruction that posts, in ascending index (R153): the checks of each active element pass, and its request
joins those of its line; nothing leaves yet. `mk` gives what an element carries home. -/
def ElementsPosted (sel : BitVec 3) (per n : Nat) (kind : Kind) (ok : Accept) (addr : Nat → Word) (mk : Nat → Xl → Payload) :
    List Nat → State × List Posted → State × List Posted → Prop
  | [], p, q => q = p
  | e :: l, p, q =>
    if p.1.active sel per e then
      ∃ u x, p.1.reachWrite (p.1.elemHall per e) kind (addr e) n n ok = (u, .ok (some x)) ∧
        ElementsPosted sel per n kind ok addr mk l
          (u, joinPosted p.2 { requestTo u (addr e) x.pa n (mk e x) with frm := u.elemHall per e }) q
    else ElementsPosted sel per n kind ok addr mk l p q

/-- An instruction that posts, out of run-ahead, with its checks passed: the requests leave when every element has passed its checks;
in the blocking form they are posted, in the other performed and counted. Where element e does not pass, the requests of those below
it leave and it traps there with VSTART e. One that would issue an element waits while its counter is full, or, in the blocking form,
while the hart can post nothing. -/
def Posts (i : Instr) (p : Option Pfx) (s : State) (sel : BitVec 3) (per n : Nat) (kind : Kind) (ok : Accept) (k : BitVec 3)
    (addr : Nat → Word) (mk : Nat → Xl → Payload) : Prop :=
  let run := ElementsPosted sel per n kind ok addr mk
  let waits := (s.counterFull k = true ∨ k = 0#3 ∧ s.postFull = true) ∧ FirstIssues s sel per n kind ok addr
  (¬waits →
    (∀ u l, run (upTo s.hart.vstart s.hart.vl) (s, []) (u, l) →
      (k = 0#3 → exec i s = .next (((l.foldl State.post u).setVstart 0).retire (pfxLen p)))
      ∧ (k ≠ 0#3 → exec i s = .next (vectorEnded s (u.issueReqs k l).1 sel per k (u.issueReqs k l).2 (pfxLen p))))
    ∧ ∀ e u l v t, s.hart.vstart ≤ e → e < s.hart.vl → run (upTo s.hart.vstart e) (s, []) (u, l) → u.active sel per e = true →
        u.reachWrite (u.elemHall per e) kind (addr e) n n ok = (v, .error t) →
        exec i s = .next ((((v.issueReqs k l).1.noteStatus k (v.issueReqs k l).2).setVstart e).takeFault { t with pfx := p.isSome }))
  ∧ (waits → exec i s = .next s)

/-- R151 to R155, R158, Table 9.4: vector loads. Element e is loaded from g[a] + e × size (VLD), g[a] + e × g[b] (VLDS) or g[a] + the
unsigned 32-bit element e of vb × size (VLDX). A load whose elements all pass completes; where they lie in one page whose home serves
them, and no read-only window covers them, each receives the bytes of memory. One that meets a trap, or in the blocking form an error
after issue, at element e traps there with VSTART e, the elements below e being written; one that would issue an element while its
counter is at its limit waits. -/
def VectorLoads : Prop := ∀ (p : Option Pfx) (d a b : BitVec 5) (c : Bool) (m : BitVec 3) (eew : BitVec 2) (k : BitVec 3)
    (s : State),
  let n := 2 ^ eew.toNat
  let o := vreg d (8 * n)
  let sel := s.maskSel p m
  let per := s.perPos o
  let loads (i : Instr) (srcs : List VOpd) (addr : Nat → Word) :=
    let run := ElementsLoaded s sel per (s.zeroing p) o n k addr
    let waits := s.counterFull k = true ∧ FirstIssues s sel per n .load nrmInk addr
    VecOk s true [o] srcs false → s.ra = none → (¬waits →
      (∀ u st, run (upTo s.hart.vstart s.hart.vl) (s, 0#4) (u, st) → exec i s = .next (vectorEnded s u sel per k st (pfxLen p)))
      ∧ ∀ e u st v t, s.hart.vstart ≤ e → e < s.hart.vl → run (upTo s.hart.vstart e) (s, 0#4) (u, st) →
          u.active sel per e = true →
          (u.loadFrom (u.elemHall per e) true (addr e) n n nrmInk [n] = (v, .trap t)
            ∨ k = 0#3 ∧ ∃ err, u.loadFrom (u.elemHall per e) true (addr e) n n nrmInk [n] = (v, .late err) ∧ t = err.trap (addr e)) →
          exec i s = .next (((v.noteStatus k st).setVstart e).takeFault { t with pfx := p.isSome }))
      ∧ (waits → exec i s = .next s)
      ∧ ∀ x, s.counterFull k = false → Settled s → ElementsLie s (activeElems s sel per) per .load n addr x false →
          (∀ e ∈ activeElems s sel per, s.windowLine s.myHall (addr e) = none) →
          ∃ t, exec i s = .next t ∧ VectorDone s t p ∧ SameMem s t
            ∧ t.hart.v = (rangeDone s fun u e =>
                if s.active sel per e then u.setElem o e (leNat (s.bytes (x e).pa n))
                else if s.zeroing p then u.setElem o e 0 else u).hart.v
  loads (.vld p d a m eew k) [] (fun e => s.g a + BitVec.ofNat 64 (e * n))
  ∧ loads (.vlds p d a b m eew k) [] (fun e => s.g a + BitVec.ofNat 64 e * s.g b)
  ∧ loads (.vldx p d a b c m eew k) [vreg b 32] (fun e => s.g a + BitVec.ofNat 64 (s.elem (vreg b 32) e * n))

/-- R159: VLDFF loads as VLD does. Where an element above the first active one traps or fails, it completes with VL set to that
element, but for a translation fault of a shadowed VF, which is held first (R337); the first active one traps as in VLD. -/
def FaultFirstLoads : Prop := ∀ (p : Option Pfx) (d a : BitVec 5) (m : BitVec 3) (eew : BitVec 2) (s : State),
  let n := 2 ^ eew.toNat
  let o := vreg d (8 * n)
  let sel := s.maskSel p m
  let per := s.perPos o
  let addr e := s.g a + BitVec.ofNat 64 (e * n)
  let run := ElementsLoaded s sel per (s.zeroing p) o n 0#3 addr
  VecOk s (s.positions == 1) [o] [] false → s.ra = none → s.hart.fq = .none →
    (∀ u, run (upTo s.hart.vstart s.hart.vl) (s, 0#4) (u, 0#4) → exec (.vldff p d a m eew) s = .next ((u.setVstart 0).retire (pfxLen p)))
    ∧ (∀ e u v t, s.hart.vstart ≤ e → e < s.hart.vl → run (upTo s.hart.vstart e) (s, 0#4) (u, 0#4) → u.active sel per e = true →
        (u.loadFrom (u.elemHall per e) true (addr e) n n nrmInk [n] = (v, .trap t)
          ∨ ∃ err, u.loadFrom (u.elemHall per e) true (addr e) n n nrmInk [n] = (v, .late err) ∧ t = err.trap (addr e)) →
        ((s.shadowed = false ∨ t.reason = none) → (∃ f, s.hart.vstart ≤ f ∧ f < e ∧ s.active sel per f = true) →
          exec (.vldff p d a m eew) s =
            .next (((v.onHart fun h => { h with vl := e, vlw := 8 * n, vstart := 0 }).retire (pfxLen p))))
        ∧ ((∀ f, s.hart.vstart ≤ f → f < e → s.active sel per f = false) →
          exec (.vldff p d a m eew) s = .next ((v.setVstart e).takeFault { t with pfx := p.isSome })))
    ∧ ∀ x, Settled s → ElementsLie s (activeElems s sel per) per .load n addr x false →
        (∀ e ∈ activeElems s sel per, s.windowLine s.myHall (addr e) = none) →
        ∃ t, exec (.vldff p d a m eew) s = .next t ∧ VectorDone s t p ∧ SameMem s t ∧ t.hart.vl = s.hart.vl
          ∧ t.hart.v = (rangeDone s fun u e =>
              if s.active sel per e then u.setElem o e (leNat (s.bytes (x e).pa n))
              else if s.zeroing p then u.setElem o e 0 else u).hart.v

/-- R161, R162, Table 9.5: a VAMO word without a fetch register sends each active element's update, its number and its operand, to
g[a] + the unsigned element e of vb × size; the numbers stand for these functions of the old value m and the operand x. With a fetch
register it completes when its updates do. Where the elements lie at places of their own in one page whose home serves them (and the
port of host memory carries the update, R360), it completes: memory receives every new value, and the fetch register every old one. -/
def VectorAtomics : Prop := ∀ (o : VAmoOp) (s : State),
  let t := s.vtype o.pfx
  let w := typeWidth t
  let src := vreg o.d w
  let idx := vreg o.b 32
  let sel := s.maskSel o.pfx o.msk
  let per := s.perPos src
  let addr e := s.g o.a + BitVec.ofNat 64 (s.elem idx e * (w / 8))
  let fetch : Option VOpd := match o.pfx with | some q => if q.cv then some (vreg q.c w) else none | none => none
  let v : VAccess :=
    { sel := sel, per := per, zero := s.zeroing o.pfx, size := w / 8, ok := onlyNrm, kind := .rmw, win := false,
      addr := fun e => some (addr e) }
  let els := activeElems s sel per
  let updates (i : Instr) (ok : Bool) (op : Nat) (f : Nat → Nat → Nat) := s.ra = none →
    (fetch = none → VecOk s ok [] [src, idx] true →
      Posts i o.pfx s sel per (w / 8) .rmw onlyNrm o.k addr
        (fun e x => .amo op t [(x.pa, BitVec.ofNat 64 (s.elem src e))]))
    ∧ (∀ r u, fetch = some r → VecOk s ok [r] [src, idx] true → s.counterFull o.k = false →
        s.vfetch v r op t (s.elem src) o.k = .ok u → exec i s = .next (u.retire (pfxLen o.pfx)))
    ∧ (∀ x, VecOk s ok fetch.toList [src, idx] true → s.counterFull o.k = false → Settled s →
        ElementsLie s els per .rmw (w / 8) addr x true → (∀ e ∈ els, s.pcieOnly (x e).pa = false) →
        (els.map fun e => (x e).pa).Nodup →
        ∃ u, exec i s = .next u ∧ VectorDone s u o.pfx ∧ (fetch = none → o.k = 0#3 → els.length ≤ 256 → SameMem s u)
          ∧ MemStored s u (els.map fun e => ((x e).pa, leBytes (w / 8) (f (leNat (s.bytes (x e).pa (w / 8))) (s.elem src e))))
          ∧ u.hart.v = (match fetch with
              | none => s.hart.v
              | some r => (rangeDone s fun q e =>
                  if s.active sel per e then q.setElem r e (leNat (s.bytes (x e).pa (w / 8)))
                  else if s.zeroing o.pfx then q.setElem r e 0 else q).hart.v))
    ∧ ∀ m x, amoValue op t m x = f m x
  let int := t == 5#4 || t == 6#4 || t == 7#4
  let float := t == 12#4 || t == 13#4
  let value (x : Nat) := (fmtOf t).value x
  updates (.vamoadd o) int 0 (fun m x => (m + x) % 2 ^ w)
  ∧ updates (.vamoand o) int 1 (fun m x => m &&& x) ∧ updates (.vamoor o) int 2 (fun m x => m ||| x)
  ∧ updates (.vamoxor o) int 3 (fun m x => m ^^^ x)
  ∧ updates (.vamomin o) int 4 (fun m x => if toSigned w x < toSigned w m then x else m)
  ∧ updates (.vamomax o) int 5 (fun m x => if toSigned w m < toSigned w x then x else m)
  ∧ updates (.vamominn o) int 6 (fun m x => min m x) ∧ updates (.vamomaxn o) int 7 (fun m x => max m x)
  ∧ updates (.vamofadd o) float 8 (fun m x => (roundTo (fmtOf t) .plain (addVal .rne (value m) (value x)).1).1)
  ∧ updates (.vamofmin o) float 9 (fun m x => (minMax (fmtOf t) false m x).1)
  ∧ updates (.vamofmax o) float 10 (fun m x => (minMax (fmtOf t) true m x).1)
  ∧ updates (.vamoswp o) (int || float) 11 (fun _ x => x)

/-- R161, R162: the fetch form on one active element e whose update its home performs: memory receives the new value, vc[e] the old one,
and no other byte of memory changes. -/
def VectorFetchUpdatesMemory : Prop := ∀ (s : State) (v : VAccess) (o : VOpd) (op e : Nat) (t : BitVec 4) (x : Nat → Nat)
    (va : Word) (y : Xl),
  s.Inv → s.ra = none → s.hart.posted = [] → s.hart.cut = none → 0 < v.size → v.kind = .rmw → v.zero = false →
  upTo s.hart.vstart s.hart.vl = [e] →
  s.active v.sel v.per e = true → v.addr e = some va → s.locate (s.elemHall v.per e) .rmw va v.size v.size v.ok = .ok y →
  s.updateLate s.who (s.elemHall v.per e) y.pa v.size true = none →
  ∃ u, s.vfetch v o op t x 0#3 = .ok u ∧ u.hart.vstart = 0
    ∧ u.hart.v = (s.setElem o e (leNat (s.bytes y.pa v.size))).hart.v
    ∧ ∀ a, Memory.read u.mem a = if y.pa ≤ a ∧ a < y.pa + v.size then
        BitVec.ofNat 8 (amoValue op t (leNat (s.bytes y.pa v.size)) (x e) / 256 ^ (a - y.pa)) else Memory.read s.mem a

/-! ## Claims, lengths, spills -/

/-- The vector state of a hart when a claim begins or ends: VL and VSTART are 0, and every vector register, tile and latch is zero. -/
def VectorCleared (h : Hart) : Prop :=
  h.vl = 0 ∧ h.vstart = 0 ∧ (∀ i : Fin 32, h.v[i] = 0#524288 ∧ h.hwm[i] = 0) ∧ (∀ i : Fin 4, h.z[i] = 0#131072) ∧ ∀ i : Fin 2, h.l[i] = 0#65536

/-- Unit e of a spill, the first to be stored, passes its checks, and the hart can post nothing (R89, R153). -/
def UnitWaits (s : State) (n e : Nat) (addr : Nat → Word) : Prop :=
  s.postFull = true ∧ ∃ x, s.locate (s.elemHall 0 e) .store (addr e) n n onlyNrm = .ok x

/-- Accesses of n bytes in ascending index, all of which find bytes: from s to t, with the bytes of each. -/
def LinesFound (addr : Nat → Word) (n : Nat) : List Nat → State → State → List Byte → Prop
  | [], s, t, bs => t = s ∧ bs = []
  | e :: l, s, t, bs => ∃ u b r, s.loadAt (addr e) n n onlyNrm [n] = (u, .bytes b) ∧ LinesFound addr n l u t r ∧ bs = b ++ r

/-- R142: VSPILL stores the first VLMAXB bytes of a register at g[a], 8 at a time, and zero in place of the groups at or above its
mark; ZSPILL stores a tile row by row, 64 bytes at a time. Where the units lie in one page whose home serves them, each completes,
and once its requests are performed memory holds its units. A base that is no multiple of 64 traps with code 7, a hart without a
claim or a share with code 5; a unit that traps leaves VSTART at it, or at its row. -/
def SpillsPost : Prop := ∀ (p : Option Pfx) (d : BitVec 5) (z : BitVec 2) (a : BitVec 5) (s : State),
  let aligned := s.ra = none ∧ s.hart.cut = none ∧ (s.g a).toNat % 64 = 0
  let group e := if e < pick (w := 5) s.hart.hwm d then s.elem (vreg d 64) e else 0
  let line e := fieldNat (pick (w := 2) s.hart.z z) (512 * e) 512
  let at' n e := s.g a + BitVec.ofNat 64 (n * e)
  let run n (mk : Nat → Nat) := ElementsPosted 0#3 0 n .store onlyNrm (at' n) (fun e x => bytesFrom x.pa (leBytes n (mk e)))
  let groups := s.hart.vlmaxb / 8
  let per := s.tileCols / 16
  let done (i : Instr) (n : Nat) (units : List Nat) (mk : Nat → Nat) := ∀ x, Settled s → ElementsLie s units 0 .store n (at' n) x true →
    ∃ t, exec i s = .next t ∧ VectorDone s t p ∧ t.hart.v = s.hart.v ∧ t.hart.z = s.hart.z ∧ (units.length ≤ 256 → SameMem s t)
      ∧ MemStored s t (units.map fun e => ((x e).pa, leBytes n (mk e)))
  (s.hart.claim.isSome = true → aligned →
    let waits := s.hart.vstart < groups ∧ UnitWaits s 8 s.hart.vstart (at' 8)
    (waits → exec (.vspill p d a) s = .next s)
    ∧ (¬waits →
      (∀ u l, run 8 group (upTo s.hart.vstart groups) (s, []) (u, l) →
        exec (.vspill p d a) s = .next (((l.foldl State.post u).setVstart 0).retire (pfxLen p)))
      ∧ ∀ e u l v t, s.hart.vstart ≤ e → e < groups → run 8 group (upTo s.hart.vstart e) (s, []) (u, l) →
        u.reachWrite (u.elemHall 0 e) .store (at' 8 e) 8 8 onlyNrm = (v, .error t) →
        exec (.vspill p d a) s = .next (((l.foldl State.post v).setVstart e).takeFault { t with pfx := p.isSome }))
    ∧ done (.vspill p d a) 8 (upTo s.hart.vstart groups) group)
  ∧ (s.shareCode ≠ 0#2 → aligned →
    let waits := s.hart.vstart < s.tileRows ∧ UnitWaits s 64 (s.hart.vstart * per) (at' 64)
    (waits → exec (.zspill p z a) s = .next s)
    ∧ (¬waits → s.hart.vstart ≤ s.tileRows → ∀ q : Nat → State × List Posted, q s.hart.vstart = (s, []) →
      (∀ i, s.hart.vstart ≤ i → i < s.tileRows →
        ∃ l, run 64 line (upTo (i * per) ((i + 1) * per)) ((q i).1, []) ((q (i + 1)).1, l) ∧ (q (i + 1)).2 = (q i).2 ++ l) →
      exec (.zspill p z a) s = .next ((((q s.tileRows).2.foldl State.post (q s.tileRows).1).setVstart 0).retire (pfxLen p)))
    ∧ done (.zspill p z a) 64 (upTo (s.hart.vstart * per) (s.tileRows * per)) line)
  ∧ (s.ra = none → (s.g a).toNat % 64 ≠ 0 →
      (s.hart.claim.isSome = true → exec (.vspill p d a) s = .next (s.takeTrap { code := 7, eval := s.g a, pfx := p.isSome }))
      ∧ (s.shareCode ≠ 0#2 → exec (.zspill p z a) s = .next (s.takeTrap { code := 7, eval := s.g a, pfx := p.isSome })))
  ∧ (s.hart.claim = none → exec (.vspill p d a) s = .next (s.takeTrap { code := 5, pfx := p.isSome })
      ∧ exec (.zspill p z a) s = .next (s.takeTrap { code := 5, pfx := p.isSome }))

/-- R142: VFILL loads the first VLMAXB bytes of a register from g[a], 8 at a time, and sets its mark to all of it; ZFILL loads a tile
row by row. An access that traps leaves what was filled before it, with VSTART at its group or row. Where the units lie in one page
whose home serves them, each completes with the bytes of memory. A base that is no multiple of 64 traps with code 7, a hart without a
claim or a share with code 5. -/
def FillsLoad : Prop := ∀ (p : Option Pfx) (d : BitVec 5) (z : BitVec 2) (a : BitVec 5) (s : State),
  let aligned := s.ra = none ∧ s.hart.cut = none ∧ (s.g a).toNat % 64 = 0
  let at' n e := s.g a + BitVec.ofNat 64 (n * e)
  let load e (u : State) := u.loadFrom (u.elemHall 0 e) false (at' 8 e) 8 8 onlyNrm [8]
  let groups := s.hart.vlmaxb / 8
  let per := s.tileCols / 16
  let filled (q : Nat → State) (n : Nat) := q s.hart.vstart = s ∧ ∀ e, s.hart.vstart ≤ e → e < n →
    ∃ v bs, load e (q e) = (v, .bytes bs) ∧ q (e + 1) = v.setElem (vreg d 64) e (leNat bs)
  let rows (q : Nat → State) (n : Nat) := q s.hart.vstart = s ∧ ∀ i, s.hart.vstart ≤ i → i < n →
    ∃ v bs, LinesFound (at' 64) 64 (upTo (i * per) ((i + 1) * per)) (q i) v bs
      ∧ q (i + 1) = v.setTile z (setField (v.tile z) (8 * (4 * s.tileCols) * i) (BitVec.ofNat (8 * (4 * s.tileCols)) (leNat bs)))
  (s.hart.claim.isSome = true → aligned → s.hart.vstart ≤ groups →
    (∀ q, (filled q groups → let u := q groups
        exec (.vfill p d a) s = .next ((u.onHart fun h =>
          { h with vstart := 0, hwm := put (w := 5) h.hwm d (h.vlmaxb / 8) }).retire (pfxLen p)))
      ∧ ∀ e v t, s.hart.vstart ≤ e → e < groups → filled q e → load e (q e) = (v, .trap t) →
        exec (.vfill p d a) s = .next ((v.setVstart e).takeFault { t with pfx := p.isSome }))
    ∧ ∀ x, Settled s → ElementsLie s (upTo s.hart.vstart groups) 0 .load 8 (at' 8) x false →
      ∃ t, exec (.vfill p d a) s = .next t ∧ VectorDone s t p ∧ SameMem s t ∧ t.hart.z = s.hart.z
        ∧ t.hart.v = ((upTo s.hart.vstart groups).foldl
            (fun (u : State) e => u.setElem (vreg d 64) e (leNat (s.bytes (x e).pa 8))) s).hart.v
        ∧ ∀ r : BitVec 5, pick (w := 5) t.hart.hwm r = if r = d then groups else pick (w := 5) s.hart.hwm r)
  ∧ (s.shareCode ≠ 0#2 → aligned →
    (∀ q, s.hart.vstart ≤ s.tileRows → rows q s.tileRows →
      exec (.zfill p z a) s = .next (((q s.tileRows).setVstart 0).retire (pfxLen p)))
    ∧ ∀ x, Settled s → ElementsLie s (upTo (s.hart.vstart * per) (s.tileRows * per)) 0 .load 64 (at' 64) x false →
      ∃ t, exec (.zfill p z a) s = .next t ∧ VectorDone s t p ∧ SameMem s t ∧ t.hart.v = s.hart.v
        ∧ t.hart.z = put (w := 2) s.hart.z z ((upTo (s.hart.vstart * per) (s.tileRows * per)).foldl
            (fun (w : TileBits) e => setField w (512 * e) (BitVec.ofNat 512 (leNat (s.bytes (x e).pa 64)))) (pick (w := 2) s.hart.z z)))
  ∧ (s.ra = none → (s.g a).toNat % 64 ≠ 0 →
      (s.hart.claim.isSome = true → exec (.vfill p d a) s = .next (s.takeTrap { code := 7, eval := s.g a, pfx := p.isSome }))
      ∧ (s.shareCode ≠ 0#2 → exec (.zfill p z a) s = .next (s.takeTrap { code := 7, eval := s.g a, pfx := p.isSome })))
  ∧ (s.hart.claim = none → exec (.vfill p d a) s = .next (s.takeTrap { code := 5, pfx := p.isSome })
      ∧ exec (.zfill p z a) s = .next (s.takeTrap { code := 5, pfx := p.isSome }))

/-! ## Ink pages and wells -/

/-- The byte at va lies at x, in an INK page that its home lets this hart reach, which is in use and has no failed entry. -/
def InkLies (s : State) (kind : Kind) (va : Word) (x : Xl) (write : Bool) : Prop :=
  canonical va = true ∧ s.hartXlate s.myHall kind va 1 = .ok x ∧ x.cls = .ink ∧ s.refusal s.who s.myHall x.pa 1 write = none
    ∧ (s.inkPage x.pa).epois = false ∧ (s.inkPage x.pa).st ≠ .free ∧ (s.inkPage x.pa).st ≠ .freeing

/-- Where some element of the instruction is active, the page of its base is checked as that of a byte, before the elements
(R168). -/
def baseChecked (s : State) (kind : Kind) (a : BitVec 5) (sel : BitVec 3) (per : Nat) (u : State) (cls : Option Class) : Prop :=
  if (upTo s.hart.vstart s.hart.vl).any fun e => s.active sel per e then
    ∃ x, s.reach s.myHall kind (s.g a) 1 1 wellClasses = (u, .ok (some x)) ∧ cls = some x.cls
  else u = s ∧ cls = none

/-- Bytes of a well element of a class (R168): 4 in a WLF page, 8 in a WLX page. -/
def slotBytes (cls : Option Class) : Nat := if cls = some .wlf then 4 else 8

/-- The active elements `els` of n bytes lie at the places x of one page of wells of a class, each aligned to its size, on lines
without poison whose home serves the hart; where any is active, the byte at the base lies there too (R167 to R169). -/
def WellsLie (s : State) (els : List Nat) (per : Nat) (kind : Kind) (base : Word) (n : Nat) (cls : Class) (addr : Nat → Word)
    (x : Nat → Xl) (write : Bool) : Prop :=
  wellClasses cls = true
  ∧ (∀ e ∈ els, canonical (addr e) = true ∧ (addr e).toNat % n = 0 ∧ s.hartXlate s.myHall kind (addr e) n = .ok (x e) ∧ (x e).cls = cls
    ∧ s.refusal s.who s.myHall ((x e).pa / 64 * 64) 64 write = none ∧ (s.wellLine ((x e).pa / 64)).pois = false
    ∧ s.elemHall per e = s.myHall ∧ pageOf (addr e) = pageOf base)
  ∧ (els ≠ [] → canonical base = true ∧ ∃ b, s.hartXlate s.myHall kind base 1 = .ok b ∧ b.cls = cls)

/-- The requests of the elements `els`, those of one line joined (R89). -/
def Joined (s : State) (n : Nat) (els : List Nat) (addr : Nat → Word) (x : Nat → Xl) (mk : Nat → Xl → Payload) : List Posted :=
  els.foldl (fun l e => joinPosted l (requestTo s (addr e) (x e).pa n (mk e (x e)))) []

/-- R163, R260: an append of a whole number of elements at the home of an open page takes effect in one step where it fits below 64 KiB:
its bytes follow the tail, rounded up to the element, with zeros between; the tail moves past them, and no other byte of memory
changes. One that does not fit changes nothing; one without elements answers the tail. -/
def AppendsAtTail : Prop := ∀ (s : State) (who : Option (BitVec 10)) (h : BitVec 4) (pa n : Nat) (data : List Byte),
  let base := pa / 65536 * 65536
  let tail := (s.inkPage pa).tail
  let start := (tail + n - 1) / n * n
  s.Inv → 0 < n → s.refusal who h pa 1 true = none → (s.inkPage pa).st = .openPage → (s.inkPage pa).epois = false →
    (data = [] → s.append who h pa n data = (s, .took tail))
    ∧ (data ≠ [] → 65536 < start + data.length → s.append who h pa n data = (s, .full))
    ∧ (data ≠ [] → start + data.length ≤ 65536 → s.poison = [] → ∃ t, s.append who h pa n data = (t, .took start)
        ∧ (t.inkPage pa).tail = start + data.length ∧ (t.inkPage pa).st = .openPage
        ∧ ∀ a, Memory.read t.mem a = if base + start ≤ a ∧ a < base + start + data.length then data.getD (a - base - start) 0#8
            else if base + tail ≤ a ∧ a < base + start then 0#8 else Memory.read s.mem a)

/-- R163 to R166: VAPND appends the active elements in ascending index, in one step at the tail unit of the page of g[a], and writes to
g[b] the offset it took, or all ones where the page is full; a failure traps in the blocking form and is all ones and a status in the
other. SEAL releases and ends a page; INKTAIL reads its tail and, in bit 63, whether it is sealed. On a page that its home lets the
hart reach, each completes. -/
def InkInstructions : Prop := ∀ (p : Option Pfx) (d a b : BitVec 5) (c : Bool) (m k sc : BitVec 3) (s : State),
  let w := typeWidth (s.vtype p)
  let n := w / 8
  let o := vreg d w
  let sel := s.maskSel p m
  let data := ((upTo s.hart.vstart s.hart.vl).filter fun e => s.active sel (s.perPos o) e).flatMap fun e => leBytes n (s.elem o e)
  let ok := VecOk s (anyType (s.vtype p) && s.vtype p != 14#4 && s.positions == 1) [] [o] false
  (∀ u x, ok → s.ra = none → s.reach s.myHall .rmw (s.g a) 1 1 onlyInk = (u, .ok (some x)) →
    let ends (v : State) (r : Word) (st : BitVec 4) :=
      exec (.vapnd p d a b c m k) s = .next ((((v.setG b r).issueVec k st 1#8).setVstart 0).retire (pfxLen p))
    (s.counterFull k = true → s.elemHall 0 0 = s.myHall → exec (.vapnd p d a b c m k) s = .next s)
    ∧ (s.counterFull k = false → ∀ v,
      (∀ n', u.append u.who u.myHall x.pa n data = (v, .took n') → ends v (BitVec.ofNat 64 n') 0#4)
      ∧ (u.append u.who u.myHall x.pa n data = (v, .full) → ends v (BitVec.allOnes 64) 0#4)
      ∧ ∀ err, u.append u.who u.myHall x.pa n data = (v, .failed err) → (k ≠ 0#3 → ends v (BitVec.allOnes 64) err.status)
          ∧ (k = 0#3 → exec (.vapnd p d a b c m k) s = .next (v.takeTrap { err.trap (s.g a) with pfx := p.isSome }))))
  ∧ (∀ x, ok → Settled s → s.counterFull k = false → InkLies s .rmw (s.g a) x true → (s.inkPage x.pa).st = .openPage →
      s.poison = [] → Memory.wf s.mem = true →
    let base := x.pa / 65536 * 65536
    let tail := (s.inkPage x.pa).tail
    let start := (tail + n - 1) / n * n
    let full := 65536 < start + data.length
    ∃ t, exec (.vapnd p d a b c m k) s = .next t ∧ t.hart.pc = s.hart.pc + pfxLen p ∧ t.hart.vstart = 0 ∧ t.hart.v = s.hart.v
      ∧ (data = [] → OnlyG s t b (BitVec.ofNat 64 tail) ∧ SameMem s t)
      ∧ (data ≠ [] → full → OnlyG s t b (BitVec.allOnes 64) ∧ SameMem s t ∧ (t.inkPage x.pa).tail = tail)
      ∧ (data ≠ [] → ¬full → OnlyG s t b (BitVec.ofNat 64 start) ∧ (t.inkPage x.pa).tail = start + data.length
        ∧ ∀ a', Memory.read t.mem a' = if base + start ≤ a' ∧ a' < base + start + data.length then data.getD (a' - base - start) 0#8
            else if base + tail ≤ a' ∧ a' < base + start then 0#8 else Memory.read s.mem a'))
  ∧ (∀ v w x, s.ra = none → s.counterFull k = false → (k = 0#3 → s.postFull = false) → Scoped s sc →
      s.reach s.myHall .store (s.g a) 1 1 onlyInk = (v, .ok (some x)) → v.release (v.scopeRun sc) = .ok w →
      exec (.sealPage p sc a k) s = .next ((((w.demote sc).sealAt (s.g a) x k).setVstart 0).retire (pfxLen p)))
  ∧ (∀ x, Settled s → s.counterFull k = false → Scoped s sc → InkLies s .store (s.g a) x true →
      ∃ t, exec (.sealPage p sc a k) s = .next t ∧ VectorDone s t p ∧ SameMem s t
        ∧ (k = 0#3 → (s.inkPage x.pa).pend = 0 → (t.inkPage x.pa).st = .sealed)
        ∧ (k ≠ 0#3 → (t.inkPage x.pa).st = if (s.inkPage x.pa).st = .openPage then .sealing else (s.inkPage x.pa).st))
  ∧ ∀ x, s.ra = none → InkLies s .load (s.g a) x false →
      ∃ t, exec (.inktail p d a) s = .next t ∧ t.hart.pc = s.hart.pc + pfxLen p ∧ t.hart.vstart = 0 ∧ SameMem s t
        ∧ OnlyG s t d (BitVec.ofNat 64 ((s.inkPage x.pa).tail % 2 ^ 17 + (if (s.inkPage x.pa).st = .sealed then 2 ^ 63 else 0)))

/-- R167, R168: WINIT posts one request for each active element e, to the line at g[a] + 64 × e, with its anchor; WDEP and WDEPX post the
exact value of each active element to slot e, or to the slot that the unsigned element e of vb names, from g[a] on, in slots of the size
of the base's page. Where the elements lie in one page of wells, each completes; the blocking form has then posted its requests. -/
def WellsPost : Prop := ∀ (p : Option Pfx) (d a b : BitVec 5) (c : Bool) (m k : BitVec 3) (s : State),
  let t := s.vtype p
  let o := vreg d (typeWidth t)
  let sel := s.maskSel p m
  let done (i : Instr) (per n : Nat) (cls : Class) (addr : Nat → Word) (mk : Nat → Xl → Payload) := ∀ x, Settled s →
    s.counterFull k = false → WellsLie s (activeElems s sel per) per .store (s.g a) n cls addr x true →
    ∃ t, exec i s = .next t ∧ VectorDone s t p ∧ t.hart.v = s.hart.v ∧ (k = 0#3 → (activeElems s sel per).length ≤ 256 →
      t.hart.posted = Joined s n (activeElems s sel per) addr x mk ∧ SameMem s t)
  let deposits (i : Instr) (srcs : List VOpd) (index : Nat → Nat) := VecOk s (arithFloat t) [] (o :: srcs) false → s.ra = none →
    let addr n e := s.g a + BitVec.ofNat 64 (index e * n)
    let mk n e (x : Xl) := Payload.deposit (x.cls == .wlf) (x.pa / 64) [(x.pa % 64 / n, (fmtOf t).value (s.elem o e))]
    (∀ u cls, s.counterFull k = false → (k = 0#3 → s.postFull = false) → baseChecked s .store a sel (s.perPos o) u cls →
      let n := slotBytes cls
      ∀ v l, ElementsPosted sel (u.perPos o) n .store (fun x => some x == cls) (addr n) (mk n) (upTo s.hart.vstart s.hart.vl) (u, []) (v, l) →
        (k = 0#3 → exec i s = .next (((l.foldl State.post v).setVstart 0).retire (pfxLen p)))
        ∧ (k ≠ 0#3 → exec i s = .next (vectorEnded s (v.issueReqs k l).1 sel (s.perPos o) k (v.issueReqs k l).2 (pfxLen p))))
    ∧ ∀ cls, done i (s.perPos o) (slotBytes (some cls)) cls (addr (slotBytes (some cls))) (mk (slotBytes (some cls)))
  let lines e := s.g a + BitVec.ofNat 64 (64 * e)
  let anchor e (x : Xl) := Payload.winit (x.cls == .wlf) (x.pa / 64) (BitVec.ofNat 8 (s.elem (vreg d 8) e))
  (VecOk s true [] [vreg d 8] false → s.ra = none →
    Posts (.winit p d a c m k) p s sel (s.perPos (vreg d 8)) 64 .store wellClasses k lines anchor
    ∧ ∀ cls, done (.winit p d a c m k) (s.perPos (vreg d 8)) 64 cls lines anchor)
  ∧ deposits (.wdep p d a c m k) [] (fun e => e) ∧ deposits (.wdepx p d a b c m k) [vreg b 32] (s.elem (vreg b 32))

/-- R38, R39, R167 to R169, R255, R256: what reaches a well line at its home. WINIT zeroes the line and its flags and sets its anchor in a WLX line;
a deposit of one addend to a line without poison leaves in its slot the element that R38 or R39 gives, and every other byte as it was;
a read leaves memory as it was and a drain zeroes the slots it read, and the flags of a WLX line where it read all eight. -/
def WellLineSteps : Prop := ∀ (s : State) (line : Nat) (anchor : BitVec 8) (slot : Nat) (v : FVal) (wlf : Bool) (l : List Nat),
  let n := if wlf then 4 else 8
  let pa := 64 * line + n * slot
  let old := leNat (s.bytes pa n)
  let w := s.wellLine line
  let x := wlxDeposit w.e.toInt (toSigned 64 old) w.ov w.nan v
  let new : Nat := if wlf then wlfDeposit old v else ofSigned 64 x.1
  s.Inv → slot < 64 / n →
    (let t := s.wellInit wlf line anchor;
      (∀ a, Memory.read t.mem a = if 64 * line ≤ a ∧ a < 64 * line + 64 then 0#8 else Memory.read s.mem a)
      ∧ t.wellLine line = { e := if wlf then w.e else anchor, ov := false, nan := false, pois := false, wlf := wlf, res := .resident })
    ∧ (w.pois = false → ∃ t, s.wellDeposit wlf line [(slot, v)] = (t, false)
      ∧ (∀ a, Memory.read t.mem a = if pa ≤ a ∧ a < pa + n then BitVec.ofNat 8 (new / 256 ^ (a - pa)) else Memory.read s.mem a)
      ∧ (t.wellLine line).ov = (if wlf then w.ov else x.2.1) ∧ (t.wellLine line).nan = (if wlf then w.nan else x.2.2)
      ∧ (t.wellLine line).e = w.e)
    ∧ (w.pois = true → ∃ t, s.wellDeposit wlf line [(slot, v)] = (t, true) ∧ SameMem s t)
    ∧ (w.pois = false → ∃ t, s.wellRead wlf line [slot] = (t, some [if wlf then old else wlxRead w.e.toInt (toSigned 64 old) w.ov w.nan])
      ∧ SameMem s t)
    ∧ ((∀ i ∈ l, i < 64 / n) → let t := s.wellReset wlf line l;
      (∀ a, Memory.read t.mem a = if ∃ i ∈ l, 64 * line + n * i ≤ a ∧ a < 64 * line + n * i + n then 0#8 else Memory.read s.mem a)
      ∧ (wlf = false → (∀ i < 8, i ∈ l) → (t.wellLine line).ov = false ∧ (t.wellLine line).nan = false))

/-- R169: WREAD and WDRAIN read the active elements' slots, as FP32, from the pages of the base's class, each line in one step; WDRAIN
resets them in that step. Where the elements lie in one page of wells, each completes with the values of its lines. -/
def WellsRead : Prop := ∀ (p : Option Pfx) (d a : BitVec 5) (m k : BitVec 3) (s : State),
  let o := vreg d 32
  let sel := s.maskSel p m
  let per := s.perPos o
  let els := activeElems s sel per
  let reads (i : Instr) (drain : Bool) := VecOk s true [o] [] false → s.ra = none → s.counterFull k = false →
    (∀ u cls, baseChecked s .load a sel per u cls →
      let n := slotBytes cls
      let v : VAccess :=
        { sel := sel, per := u.perPos o, zero := s.zeroing p, size := n, ok := fun x => some x == cls, kind := .load, win := false,
          addr := fun e => if cls.isNone then none else some (s.g a + BitVec.ofNat 64 (e * n)) }
      (∀ t, u.wellReadOp v o (cls == some .wlf) drain k = .ok t → exec i s = .next (t.retire (pfxLen p)))
      ∧ ∀ t r, u.wellReadOp v o (cls == some .wlf) drain k = .error (r, t) → exec i s = .next (t.takeFault { r with pfx := p.isSome }))
    ∧ ∀ cls x, Settled s → Memory.wf s.mem = true →
        let n := slotBytes (some cls)
        WellsLie s els per .load (s.g a) n cls (fun e => s.g a + BitVec.ofNat 64 (e * n)) x drain →
        let old e := leNat (s.bytes (x e).pa n)
        let w e := s.wellLine ((x e).pa / 64)
        let value e := if cls = .wlf then old e else wlxRead (w e).e.toInt (toSigned 64 (old e)) (w e).ov (w e).nan
        ∃ t, exec i s = .next t ∧ VectorDone s t p
          ∧ t.hart.v = (rangeDone s fun u e =>
              if s.active sel per e then u.setElem o e (value e) else if s.zeroing p then u.setElem o e 0 else u).hart.v
          ∧ ∀ a', Memory.read t.mem a' = if drain = true ∧ ∃ e ∈ els, (x e).pa ≤ a' ∧ a' < (x e).pa + n then 0#8
              else Memory.read s.mem a'
  reads (.wread p d a m k) false ∧ reads (.wdrain p d a m k) true

/-! ## System instructions -/

/-- What a mode may do with system register n (Table 3.3): nothing, because no register has the number; a privileged trap; read; or read
and write. -/
def sysAllows (m : Mode) (n : Nat) : SysAccess :=
  if n ∈ [0x000, 0x004, 0x010, 0x011, 0x012, 0x030] then .ro
  else if n ∈ [0x001, 0x002, 0x003, 0x008, 0x020, 0x021] then .rw
  else if n ∈ [0x005, 0x018] then (if m = .a then .ro else .rw)
  else if n ∈ [0x100, 0x101, 0x102, 0x103, 0x104] then (if m = .a then .hidden else .rw)
  else if n ∈ [0x200, 0x201, 0x202, 0x203, 0x204] then (if m = .p then .rw else .hidden)
  else .unassigned

/-! ## Synchronisation -/

/-- The hart waits in the instruction at its PC: nothing else has changed. -/
def Waits (s t : State) (w : Wait) : Prop := t = { s with hart := { s.hart with wait := some w } }

/-- A wait is over: the instruction retires with v in g[d], and nothing is waited for. -/
def WaitOver (s t : State) (d : BitVec 5) (v : Word) : Prop :=
  (∀ k, t.g k = if k = d ∧ k ≠ 0#5 then v else s.g k) ∧ t.hart.pc = s.hart.pc + 4#64
    ∧ { t.hart with g := s.hart.g, pc := s.hart.pc, transfer := s.hart.transfer, k := s.hart.k } = { s.hart with wait := none }
    ∧ SameMem s t

/-! ## Matrix -/

/-- A matrix instruction has updated tile d: element (i, j) is `f i j c` of its old value c, cut to 32 bits, and the flags of all
elements have been put into VSTAT; n multiply-adds are counted (R405), VSTART is 0 and the instruction of `len` bytes retires. Nothing
else changes. -/
def TileUpdated (i : Instr) (s : State) (d : BitVec 2) (n : Nat) (f : Nat → Nat → Nat → Nat × Flags) (len : Word) : Prop :=
  let cols := s.tileCols
  let new r c := f r c (tileElem cols (s.tile d) r c)
  ∃ (z : TileBits) (fl : Flags), exec i s = .next
      ((State.countMacs { s with hart := { s.hart with z := put (w := 2) s.hart.z d z, vstat := s.hart.vstat ||| fl.setWidth 64,
                                                       vstart := 0 } } n).retire len)
    ∧ (∀ r c, r < s.tileRows → c < cols → tileElem cols z r c = (new r c).1 % 2 ^ 32)
    ∧ ∀ k, fl.getLsbD k = true ↔ ∃ r c, r < s.tileRows ∧ c < cols ∧ (new r c).2.getLsbD k = true

/-- The rows of ZDEP, in order: the first line of an active row passes its checks in a page of a well class, and then every line of the row
passes them in that class; `f` maps a row and a column to its exact addend. -/
def RowsDeposited (s : State) (act : Nat → Bool) (addr : Nat → Word) (f : Nat → Nat → FVal) :
    List Nat → State × List Posted → State × List Posted → Prop
  | [], p, q => q = p
  | i :: r, p, q =>
    if act i then
      ∃ u x v l, p.1.reach p.1.myHall .store (addr i) 64 64 wellClasses = (u, .ok (some x)) ∧
        (let n := if x.cls == .wlf then 4 else 8
         ElementsPosted 0#3 0 64 .store (fun c => c == x.cls) (fun j => addr i + BitVec.ofNat 64 (64 * j))
          (fun j y => .deposit (y.cls == .wlf) (y.pa / 64) ((List.range (64 / n)).map fun e => (e, f i (j * (64 / n) + e))))
          (List.range (s.tileCols / (64 / n))) (u, []) (v, l)) ∧ RowsDeposited s act addr f r (v, p.2 ++ l) q
    else RowsDeposited s act addr f r p q

/-! ## Engine commands and windows -/

/-- A command has been issued to an engine: in the blocking form the hart waits for it, in the other counter k has one operation more in
flight and the instruction retires. -/
def Issued (s : State) (id : Nat) (k : BitVec 3) (t : State) : Prop :=
  t = if k = 0#3 then { s with hart := { s.hart with wait := some (.engine id) } } else (s.countUp k).retire 4#64

/-- A command of the hart as it begins (R186, R188): of its VF, hall, unit and mode. -/
def Begun (s : State) (op : BitVec 3) (words : List Word) (rank : Nat) (sc : BitVec 3) (acq rel : Bool) (k : BitVec 3) : Cmd where
  id := s.nextId
  op := op
  vf := s.myVf
  hall := s.myHall
  owner := s.hart.unit
  mode := s.hart.mode
  k := k
  counted := true
  scope := sc
  acq := acq
  rel := rel
  rank := rank
  words := words
  window := 0
  armed := false
  split := []
  tree := 0
  root := none
  batch := []
  done := []
  fail := none
  stuck := none
  forward := false
  live := true
  run := 0
  tab := []
  away := none
  lostAt := none

/-- Every line of a window's range translates for a load to an NRM page, in ascending order from s to t; `l` holds where each line lies
that an L2 may hold (log 87). -/
def LinesTranslated (c : Cmd) (base : Word) : List Nat → State → State → List WinEntry → Prop
  | [], s, t, l => t = s ∧ l = []
  | i :: r, s, t, l => ∃ u x m, s.engXlate c .load (base + BitVec.ofNat 64 (64 * i)) = (u, .ok x) ∧ x.cls = .nrm
      ∧ LinesTranslated c base r u t m
      ∧ l = if u.neverCached x.pa then m
          else { va := (base + BitVec.ofNat 64 (64 * i)).toNat / 64, pa := x.pa / 64, line := .unfilled } :: m

/-! ## Events at the homes -/

/-- Request i is the oldest one of the hart that waits for a line and was not answered with an error. -/
def OldestFor (s : State) (line i : Nat) : Prop :=
  (∃ p, s.hart.posted[i]? = some p ∧ p.pa / 64 = line ∧ p.failed = false)
  ∧ ∀ j q, j < i → s.hart.posted[j]? = some q → q.pa / 64 = line → q.failed = true

/-- Nothing waits for a line. -/
def NothingFor (s : State) (line : Nat) : Prop := ∀ p ∈ s.hart.posted, p.pa / 64 = line → p.failed = true

/-- Only the header of one well line has changed. -/
def WellBecomes (s t : State) (line : Nat) (w : WellLine) : Prop :=
  t.wellLine line = w ∧ (∀ l, l ≠ line → t.wellLine l = s.wellLine l) ∧ { t with wells := s.wells } = s

/-- Only the tail-table entry of one ink page has changed, and with it what the L2 holds newer than memory. -/
def InkBecomes (s t : State) (pa : Nat) (p : InkPage) : Prop :=
  t.inkPage pa = p ∧ (∀ q, q / 65536 ≠ pa / 65536 → t.inkPage q = s.inkPage q) ∧ { t with ink := s.ink, dirty := s.dirty, fresh := s.fresh } = s

/-! ## Queues, launches, saved units -/

/-- Only queue q of VF v has changed, and it is y. -/
def QueueBecomes (s t : State) (v : BitVec 10) (q : BitVec 7) (y : Queue) : Prop :=
  (t.vf v).queue q = y ∧ (∀ r, r ≠ q → (t.vf v).queue r = (s.vf v).queue r) ∧ (∀ w, w ≠ v → t.vf w = s.vf w)
    ∧ { t with vfs := s.vfs } = s

/-- The hart as it was before run-ahead, but for what reached it from outside. -/
def rolledBack (s : State) (r : RunAhead) : State :=
  { s with
    ra := none
    hart := { r.checkpoint with
      posted := s.hart.posted, vops := s.hart.vops, seq := s.hart.seq, k := s.hart.k, armed := s.hart.armed, fired := s.hart.fired
      armedPa := s.hart.armedPa, wakes := s.hart.wakes, spanLost := s.hart.spanLost } }

/-- The positions of the hart's span that `lost` names are lost (R221): their dies are noted for the fault, and each operation in flight that
has elements there will complete with STATUS 6; in the hart nothing else has changed. -/
def SpanStruck (s t : State) (lost : Place → Bool) : Prop :=
  let any (f : Place → Nat → Claim → Bool) : Bool :=
    match s.hart.claim with | some c => c.places.zipIdx.any fun p => lost p.1 && f p.1 p.2 c | none => false
  let hit (o : VecOp) := any fun _ i c => o.at'.getLsbD (if i < c.own s.myHall then i else i + 1)
  (∀ j < 8, t.hart.spanLost.getLsbD j = (s.hart.spanLost.getLsbD j || any fun p _ _ => decide (p.hall.toNat / 2 = j)))
    ∧ t.hart.vops = s.hart.vops.map (fun o => if o.status = 0#4 ∧ hit o = true then { o with status := 6#4 } else o)
    ∧ { t.hart with spanLost := s.hart.spanLost, vops := s.hart.vops } = s.hart

/-- R320 to R324, R328, R221, R59, R69, R94: CONTEXT_SAVE and PREEMPTION_TIMEOUT save a group whose every unit was asked to stop, with an image
where one fits, and leave its hart empty; RESUMPTION places it again, where it heads its queue and a cluster of the queue's halls has room, and
the registers come back from the slot; a unit whose slot is poisoned is killed (R388). Run-ahead that stops rolls the hart back and, but for STOP 5, delivers the batch with code 9. A span
position that is lost is noted, and fails what is in flight there. An illegal word traps with code 3, a fetch that fails with code 1 or 2. -/
def SavedContexts : Prop := ∀ (s : State) (vf : BitVec 10) (serial : BitVec 32) (group : Nat) (hall : BitVec 4) (cluster : BitVec 5)
    (stop : BitVec 4) (pos : BitVec 3) (word pfxWord : IWord) (va : Word),
  let us := s.groupOf vf serial group
  let queue := (s.vf vf).queue (serial.extractLsb' 25 7)
  let back := s.backOf vf (serial.extractLsb' 25 7)
  let mine (u : UnitRec) : Prop := u.key.vf = vf ∧ u.key.serial = serial ∧ u.group = group
  (∀ u0 r page, us = u0 :: r → s.freeImage u0.slotHall (imagePages u0.spBytes u0.size) = some page →
      (∀ u ∈ us, u.onHart = true ∧ u.preempt = true) → s.canStop = true →
      ∃ t, exec (.contextSave vf serial group) s = .next t ∧ exec (.preemptionTimeout vf serial group) s = .next t
        ∧ (∀ u ∈ t.units, mine u → u.st = .preempted ∧ u.preempt = false ∧ u.image = page)
        ∧ (∀ u ∈ us, s.isMine u = true → s.hart.unit = some u.key → t.hart.unit = none ∧ t.hart.claim = none ∧ t.hart.wait = none))
  ∧ ((∃ u ∈ us, u.preempt = false) → exec (.contextSave vf serial group) s = .next s ∧ exec (.preemptionTimeout vf serial group) s = .next s)
  ∧ (∀ l, back = some (l, group) → l.serial = serial → l.cohort = false → queue.halls.getLsbD hall.toNat = true →
      s.mayResume vf serial group hall cluster = true →
      (∀ u0 r u, us = u0 :: r → u ∈ us → (s.readImage u0 hall cluster).slotBad u = true →
        ∃ t, exec (.resumption vf serial group hall cluster) s = .next t ∧ ∀ w ∈ t.units, w.key ≠ u.key)
      ∧ ((hall ≠ s.myHall ∨ cluster ≠ s.myCluster) → (∀ u0 r, us = u0 :: r → ∀ u ∈ us, (s.readImage u0 hall cluster).slotBad u = false) →
        ∃ t, exec (.resumption vf serial group hall cluster) s = .next t
        ∧ (∀ u ∈ t.units, mine u → u.st = .running ∧ u.hall = hall ∧ u.cluster = cluster) ∧ t.hart = s.hart)
      ∧ ∀ u r, us = [u] → hall = s.myHall → cluster = s.myCluster → s.freeHarts hall cluster = s.myHart :: r →
          let base := s.slotPa u.slotHall u.slot
          let v := s.readImage u hall cluster
          v.word (base + 0x150) = 0#64 → v.slotBad u = false →
          ∃ t, exec (.resumption vf serial group hall cluster) s = .next t ∧ t.hart.unit = some u.key ∧ t.hart.claim = none ∧ t.ra = none
            ∧ t.hart.wait = none ∧ t.hart.pc = v.word (base + 0x100) ∧ (∀ k, k ≠ 0#5 → t.g k = v.word (base + 8 * k.toNat)) ∧ t.hart.srseed = v.word (base + 0x140)
            ∧ (∀ m : Mode, fieldNat (v.word (base + 0x108)) 0 2 = m.code → t.hart.mode = m))
  ∧ (back = none ∨ queue.halls.getLsbD hall.toNat = false ∨ s.mayResume vf serial group hall cluster = false →
      exec (.resumption vf serial group hall cluster) s = .next s)
  ∧ (∀ r, s.ra = some r →
      (s.askedToStop = true → exec (.faultRunAheadStop 5#4) s = .next (rolledBack s r))
      ∧ (s.askedToStop = false → exec (.faultRunAheadStop 5#4) s = .next s)
      ∧ (r.count < 256 → exec (.faultRunAheadStop 0#4) s = .next s) ∧ (r.batch.length < 64 → exec (.faultRunAheadStop 1#4) s = .next s)
      ∧ (2 ≤ stop.toNat → stop ≠ 5#4 → exec (.faultRunAheadStop stop) s = .next s)
      ∧ ((stop = 0#4 ∧ 256 ≤ r.count) ∨ (stop = 1#4 ∧ 64 ≤ r.batch.length) → (rolledBack s r).shadowed = false →
          let u := rolledBack s r
          exec (.faultRunAheadStop stop) s = .next ((u.putBytes u.recordPa (wordsBytes (r.record stop.toNat))).takeTrap
            { code := 9, eval := BitVec.ofNat 64 u.recordPa, detail := r.detail.toNat, pfx := u.hart.ir.1.isSome })))
  ∧ (s.ra = none → exec (.faultRunAheadStop stop) s = .next s)
  ∧ (∀ c p, s.hart.claim = some c → pos.toNat ≠ c.own s.myHall →
      c.places[if pos.toNat < c.own s.myHall then pos.toNat else pos.toNat - 1]? = some p →
      ∃ t, exec (.spanPositionLost pos) s = .next t ∧ SpanStruck s t (· == p) ∧ { t with hart := s.hart } = s)
  ∧ (s.hart.claim = none → exec (.spanPositionLost pos) s = .next s)
  ∧ (s.hart.stopped = false → s.hart.wait = none → s.ra = none →
      exec (.illegalInstruction word pfxWord) s = .next
        (({ s with hart := { s.hart with ir := (if pfxWord = 0#32 then none else some pfxWord, word) } } : State).takeTrap
          { code := 3, eval := word.setWidth 64 ||| (if pfxWord = 0#32 then 0#64 else pfxWord.setWidth 64 <<< 32), pfx := pfxWord != 0#32 })
      ∧ exec (.instructionFetchFault 1#8 va) s = .next (s.takeTrap { code := 1, eval := va, after := s.hart.transfer })
      ∧ ((∀ r, s.hartXlate s.myHall .fetch va 4 ≠ .error r) ∨ s.shadowed = false →
          exec (.instructionFetchFault 2#8 va) s = .next (s.takeTrap { code := 2, eval := va, after := s.hart.transfer })))

/-! ## Halls, harts and tenants -/

/-- Only one hall has changed, and it is x. -/
def HallBecomes (s t : State) (h : BitVec 4) (x : Hall) : Prop :=
  t.hall h = x ∧ (∀ g, g ≠ h → t.hall g = s.hall g) ∧ { t with halls := s.halls } = s

/-- Only one cluster has changed, and it is x. -/
def ClusterBecomes (s t : State) (h : BitVec 4) (c : BitVec 5) (x : Cluster) : Prop :=
  (t.hall h).cluster c = x ∧ (∀ d, d ≠ c → (t.hall h).cluster d = (s.hall h).cluster d)
    ∧ HallBecomes s t h { s.hall h with clusters := (t.hall h).clusters }

/-- What a measured write leaves in HMEAS (R397): the hash of the value before and of the hash of the record of the write. -/
def remeasured (x : Hall) (offset : Nat) (value : Word) : BitVec 512 :=
  Config.sha512 (leBytes 64 x.hmeas.toNat ++ leBytes 64 (Config.sha512 (leBytes 8 offset ++ leBytes 8 value.toNat)).toNat)

/-- A hall has been reset (R345): it is in reset with this CAUSE and the tenant that it had, nothing of its scratchpad, windows, landings
and barriers is left, no unit is on it, its measurement has begun anew, and its tenant's VFs are told. -/
def HallReset (s t : State) (h : BitVec 4) (cause : BitVec 4) : Prop :=
  (t.hall h).st = .reset ∧ (t.hall h).cause = cause ∧ (t.hall h).tenant = (s.hall h).tenant ∧ (t.hall h).windows = []
    ∧ (t.hall h).landings = [] ∧ (t.hall h).barriers = [] ∧ (t.hall h).hmcnt = 2#32 ∧ (∀ u ∈ t.units, u.hall ≠ h)
    ∧ (s.Inv → ∀ a, paTarget a = 4 → paChip a = s.chip → homeHall a = h → Memory.read t.mem a = 0#8)
    ∧ (s.myHall = h → t.hart.stopped = false)
    ∧ ∀ v, (s.hall h).tenant ≠ 0#16 → (s.vf v).tenant = (s.hall h).tenant → (t.vf v).evt.getLsbD 1 = true

/-- R342, R344, R345, R397, R404: a hall in reset takes a tenant and is released, running where its tenant has halls in a legal shape and fenced
otherwise; a hall that is not fenced is fenced, which loses the span positions in it (R346), and a hang fences it with CAUSE 4; a warm reset takes only a running hall, a forced one a fenced one too,
and a temperature of 115 °C forces one with CAUSE 5. In any other state these do nothing. -/
def HallLifecycle : Prop := ∀ (s : State) (h : BitVec 4) (tenant : BitVec 16) (cause : BitVec 4),
  let x := s.hall h
  let good := shapeOk (s.hallMask x.tenant)
  (x.st = .reset → ∃ t, exec (.hownWrite h tenant) s = .next t ∧ HallBecomes s t h { x with
      tenant := tenant, barriers := [], hmeas := remeasured x (0x1000000 * (1 + h.toNat % 2)) (tenant.setWidth 64 <<< 32)
      hmcnt := if x.hmcnt = BitVec.allOnes 32 then x.hmcnt else x.hmcnt + 1 })
  ∧ (x.st ≠ .reset → exec (.hownWrite h tenant) s = .next s)
  ∧ (x.st = .reset →
      (x.tenant = 0#16 → ∃ t, exec (.hallRelease h) s = .next t ∧ HallBecomes s t h { x with st := .fenced, shapeErr := false })
      ∧ (x.tenant ≠ 0#16 → good = true →
          ∃ t, exec (.hallRelease h) s = .next t ∧ HallBecomes s t h { x with st := .running, shapeErr := false })
      ∧ (x.tenant ≠ 0#16 → good = false →
          ∃ t, exec (.hallRelease h) s = .next t ∧ HallBecomes s t h { x with st := .fenced, shapeErr := true }))
  ∧ (x.st ≠ .reset → ∃ t, exec (.hallRelease h) s = .next t ∧ HallBecomes s t h x)
  ∧ (x.st ≠ .fenced →
      (∃ t, exec (.hallFence h cause) s = .next t ∧ HallBecomes { s with hart := t.hart } t h { x with st := .fenced, cause := cause }
        ∧ SpanStruck s t (fun p => p.hall == h))
      ∧ ∃ t, exec (.hallHangTimeout h) s = .next t ∧ HallBecomes { s with hart := t.hart } t h { x with st := .fenced, cause := 4#4 }
        ∧ SpanStruck s t (fun p => p.hall == h))
  ∧ (x.st = .fenced → exec (.hallFence h cause) s = .next s ∧ exec (.hallHangTimeout h) s = .next s)
  ∧ (x.st = .running → ∃ t, exec (.hallWarmReset h) s = .next t ∧ HallReset s t h 1#4)
  ∧ (x.st ≠ .running → exec (.hallWarmReset h) s = .next s)
  ∧ (x.st ≠ .reset → (∃ t, exec (.hallForcedReset h) s = .next t ∧ HallReset s t h 2#4)
      ∧ ∃ t, exec (.thermalTrip h) s = .next t ∧ HallReset s t h 5#4 ∧ 115#8 ≤ (t.hall h).tj)
  ∧ (x.st = .reset → exec (.hallForcedReset h) s = .next s)

/-- R117, R214, R317, R404, R405: a cap is kept as a multiple of 8 that covers the units placed; each millisecond the power and the temperature
take 8 lanes from the cluster with the most or give 8 to the one with the least, the lowest among equals. HCTL stops and starts a hart: at its
PC, or, where a trap could not be delivered, in mode P at the handler of the P set with code 24, once there is one; without a claim VL and
VLMAXB are then 0 (R50). -/
def LanesAndHarts : Prop := ∀ (s : State) (h : BitVec 4) (c : BitVec 5) (n : BitVec 3) (cap : BitVec 8) (on : Bool)
    (pwr : BitVec 16) (tj : BitVec 8),
  let x := s.hall h
  let y := x.cluster c
  let kept (d : BitVec 5) (v : Nat) := max (v / 8 * 8) (max (8 * s.placed h d) 8)
  let mine := s.myHall = h ∧ s.myCluster = c ∧ s.myHart = n
  let stopped (b : Bool) := y.stopped &&& ~~~BitVec.ofNat 8 (2 ^ n.toNat) ||| BitVec.ofNat 8 (if b then 2 ^ n.toNat else 0)
  let lanes (d : BitVec 5) := (x.cluster d).cap
  let above := x.plim < pwr ∨ x.tlim ≤ tj
  let below := 20 * pwr.toNat < 19 * x.plim.toNat ∧ tj.toNat + 5 < x.tlim.toNat
  let adjusts (t : State) (d : BitVec 5) (v : Nat) := exec (.powerCapAdjust h pwr tj) s = .next t ∧ (t.hall h).pwr = pwr ∧ (t.hall h).tj = tj
    ∧ (t.hall h).cluster d = { x.cluster d with cap := kept d v } ∧ ∀ e, e ≠ d → (t.hall h).cluster e = x.cluster e
  (∃ t, exec (.lanePoolCapWrite h c cap) s = .next t ∧ ClusterBecomes s t h c { y with cap := kept c cap.toNat })
  ∧ (x.st ≠ .reset → 115#8 ≤ tj → ∃ t, exec (.powerCapAdjust h pwr tj) s = .next t ∧ HallReset s t h 5#4)
  ∧ (tj < 115#8 → above → ∃ t d, adjusts t d (lanes d - 8) ∧ (∀ e, lanes e ≤ lanes d) ∧ ∀ e < d, lanes e < lanes d)
  ∧ (tj < 115#8 → ¬above → below → ∃ t d, adjusts t d (min 128 (lanes d + 8)) ∧ (∀ e, lanes d ≤ lanes e) ∧ ∀ e < d, lanes d < lanes e)
  ∧ (tj < 115#8 → ¬above → ¬below → ∃ t, exec (.powerCapAdjust h pwr tj) s = .next t ∧ HallBecomes s t h { x with pwr := pwr, tj := tj })
  ∧ (∃ t, exec (.hctlRecov h c on) s = .next t ∧ ClusterBecomes s t h c { y with recov := on })
  ∧ (¬mine → (∃ t, exec (.hctlStop h c n) s = .next t ∧ ClusterBecomes s t h c { y with stopped := stopped true })
      ∧ ∃ t, exec (.hctlRun h c n) s = .next t ∧ ClusterBecomes s t h c { y with stopped := stopped false })
  ∧ (mine → s.ra = none →
      (∃ t, exec (.hctlStop h c n) s = .next t
        ∧ ClusterBecomes { s with hart := { s.hart with stopped := true } } t h c { y with stopped := stopped true })
      ∧ (s.hart.stopped = true → s.hart.undelivered = none → ∃ t, exec (.hctlRun h c n) s = .next t
          ∧ ClusterBecomes { s with hart := { s.hart with stopped := false } } t h c { y with stopped := stopped false })
      ∧ (∀ code, s.hart.stopped = true → s.hart.undelivered = some code →
          (vectorOf s.pset = 0#64 → exec (.hctlRun h c n) s = .next s)
          ∧ (vectorOf s.pset ≠ 0#64 → ∃ t, exec (.hctlRun h c n) s = .next t
              ∧ EnteredSet s.pset t.pset s.hart.mode s.hart.pc 24 0 (code.setWidth 64) false false
              ∧ t.hart = { s.hart with
                  stopped := false, undelivered := none, mode := .p, pc := vectorOf s.pset, transfer := false
                  vl := if s.hart.claim.isNone then 0 else s.hart.vl
                  vlmaxb := if s.hart.claim.isNone then 0 else s.hart.vlmaxb }
              ∧ (((t.hall h).cluster c).stopped = stopped false) ∧ SameMem s t)))

/-- R348: a write to GWCTL stores ENABLE and bit 62, bits 47:40 and the tenant of bits 31:16, and, while the window is closed, SIZE; EN 0 on an
open window revokes it: BUSY, an event at its tenant, and its lines leave the windows of that tenant's VFs; the drain ends BUSY. -/
def GalleryWindows : Prop := ∀ (s : State) (h : BitVec 4) (i : BitVec 5) (v : Word),
  let x := s.hall h
  let g := pick (w := 5) x.gallery i
  let revoked := g.ctl.getLsbD 63 && !v.getLsbD 63
  let stored : Word := (v &&& 0xC000FF00FFFF0000#64) ||| ((if g.ctl.getLsbD 63 then g.ctl else v) &&& 0xFFFF#64)
  let becomes (t : State) (g' : Gallery) := pick (w := 5) (t.hall h).gallery i = g'
    ∧ ∀ j, j ≠ i → pick (w := 5) (t.hall h).gallery j = pick (w := 5) x.gallery j
  let tenant := g.ctl.extractLsb' 16 16
  (∃ t, exec (.gwctlWrite h i v) s = .next t ∧ becomes t { g with ctl := stored, busy := g.busy || revoked } ∧ SameMem s t ∧ t.hart = s.hart
    ∧ (t.hall h).hmeas = remeasured x (0x1000000 * (1 + h.toNat % 2) + 0x108 + 16 * i.toNat) stored
    ∧ (revoked = false → t.vfs = s.vfs ∧ ∀ k, (t.hall k).windows = (s.hall k).windows)
    ∧ (revoked = true → tenant ≠ 0#16 → ∀ u, (s.vf u).tenant = tenant → (t.vf u).evt.getLsbD 2 = true)
    ∧ (revoked = true → ∀ k w n, alFind n (t.hall k).windows = some w → s.tenantOf w.vf = tenant → ∀ l ∈ w.lines, g.covers (l.pa * 64) = false))
  ∧ ∃ t, exec (.galleryRevokeDrainDone h i) s = .next t ∧ becomes t { g with busy := false }
      ∧ HallBecomes s t h { x with gallery := (t.hall h).gallery }

/-- R115, R234, R337 to R339, R349, R394: logs and counters of a hall are cleared; the hypervisor's answer to a held access of the hart that
waits makes the instruction run again, delivers the fault, or completes a scalar access with FQDATA, and a token that names nothing changes
nothing; a shootdown that is asked for while none is in progress marks it, and ends with the translations of its page or VF gone, at every
level, and the accesses posted before performed. -/
def HallRequests : Prop := ∀ (s : State) (h : BitVec 4) (on : Bool) (tok : BitVec 32) (kind : BitVec 2) (v : BitVec 10),
  let x := s.hall h
  (∃ t, exec (.violationLogClear h) s = .next t ∧ HallBecomes s t h
      { x with vlog := x.vlog.map fun p => (p.1, { p.2 with valid := false }), vnext := 0, vovf := 0#32 })
  ∧ (∃ t, exec (.errorLogClear h) s = .next t ∧ HallBecomes s t h
      { x with elog := x.elog.map fun p => (p.1, { p.2 with valid := false }), enext := 0, eovf := 0#32 })
  ∧ (∃ t, exec (.trfctlClear h) s = .next t ∧ HallBecomes s t h { x with traffic := Vector.replicate 10 0#64 })
  ∧ (∃ t, exec (.trfctlFreeze h on) s = .next t ∧ HallBecomes s t h { x with freeze := on })
  ∧ (s.heldAt h tok = none → exec (.fqrespRetry h tok) s = .next s ∧ exec (.fqrespForward h tok) s = .next s
      ∧ exec (.fqrespComplete h tok) s = .next s)
  ∧ (∀ a, s.heldAt h tok = some a → a.cmd = none → a.tlbsh = none → s.hart.wait = some (.held tok) →
      ∃ u : State, HallBecomes { s with hart := { s.hart with wait := none } } u h { x with held := x.held.filter fun y => y.token != tok }
        ∧ (a.cut = none → exec (.fqrespRetry h tok) s = .next u)
        ∧ (∀ first vl vlw, a.cut = some (first, vl, vlw) →
            exec (.fqrespRetry h tok) s = .next { u with hart := { u.hart with fq := .again first } }
            ∧ exec (.fqrespForward h tok) s = .next
                (({ u with hart := { u.hart with vl := vl, vlw := vlw, vstart := 0 } } : State).retire (if a.pfx then 8#64 else 4#64)))
        ∧ (a.cut = none → a.record = [] → exec (.fqrespForward h tok) s = .next (u.takeTrap
            { code := a.code, eval := a.va, detail := if a.code = 2 then 0 else a.kind.toNat, after := a.after, pfx := a.pfx }))
        ∧ (a.scalar = true → exec (.fqrespComplete h tok) s = .next { u with hart := { u.hart with fq := .complete x.fqdata } })
        ∧ (a.scalar = false → exec (.fqrespComplete h tok) s = exec (.fqrespForward h tok) s))
  ∧ (∀ a i, s.heldAt h tok = some a → a.cmd = some i → ∃ t, exec (.fqrespForward h tok) s = .next t
      ∧ (t.hall h).held = x.held.filter (fun y => y.token != tok)
      ∧ t.cmds = s.cmds.map (fun c => if c.id = i then { c with forward := true } else c))
  ∧ (x.shootBusy = false → ∃ t, exec (.shootctlGo h kind v) s = .next t
      ∧ HallBecomes s t h { x with
          shootctl := BitVec.ofNat 64 (kind.toNat * 2 ^ 10 + v.toNat), shootBusy := decide (kind.toNat < 2)
          shootPage := x.shootva, shootHow := BitVec.ofNat 64 (kind.toNat * 2 ^ 10 + v.toNat) })
  ∧ (x.shootBusy = true → exec (.shootctlGo h kind v) s = .next s)
  ∧ (x.shootBusy = false → exec (.shootdownDone h) s = .next s)
  ∧ (x.shootBusy = true →
      let u := s.settle fun _ => true
      let mine (v : Option (BitVec 10)) := v = some (x.shootHow.extractLsb' 0 10)
      ∃ t, exec (.shootdownDone h) s = .next t ∧ (t.hall h).shootBusy = false ∧ SameMem u t ∧ t.hart = u.hart
      ∧ (∀ p ∈ t.hart.posted, p.failed = true)
      ∧ (∀ e ∈ t.tlb, e ∈ u.tlb ∧ ¬(mine e.space ∧ (fieldNat x.shootHow 10 2 = 0 → inLeaf e.pte e.page x.shootPage = true)))
      ∧ ∀ e ∈ t.walks, e ∈ u.walks ∧ ¬(mine e.space ∧ (fieldNat x.shootHow 10 2 = 0 → e.part = walkPart x.shootPage e.lvl)))

/-! ## Ports, wavelengths, time -/

/-- Only external port p of hall h has changed, and it is x. -/
def PortBecomes (s t : State) (h : BitVec 4) (p : Nat) (x : ExtPort) : Prop :=
  t.port h p = x ∧ (∀ q, q ≠ p → t.port h q = s.port h q) ∧ HallBecomes s t h { s.hall h with ports := (t.hall h).ports }

/-- A count of 32 bits that stays at its greatest value. -/
def counted32 (x : BitVec 32) (n : Nat) : BitVec 32 := BitVec.ofNat 32 (min (2 ^ 32 - 1) (x.toNat + n))

/-- Each command is as before, or is one that `may` allows and has become what `f` gives. -/
def SomeBecome (s t : State) (may : Cmd → Bool) (f : Cmd → Cmd) : Prop :=
  t.cmds.length = s.cmds.length
    ∧ ∀ (i : Nat) (c : Cmd), s.cmds[i]? = some c → t.cmds[i]? = some c ∨ (may c = true ∧ t.cmds[i]? = some (f c))

/-! ## What engines do -/

/-- Position n of the command with this number is settled. -/
def settledAt (s : State) (i n : Nat) : State :=
  { s with cmds := s.cmds.map fun c => if c.id = i then { c with done := c.done ++ [n] } else c }

/-- Every command of a collective that the flit of hall `frm` reaches has ended. -/
def RunEnded (s t : State) (run : Nat) (frm : BitVec 4) : Prop :=
  ∀ x ∈ t.cmds, x.inRun = true → x.run = run → s.hears frm x = true → x.live = false

/-! ## Registers, errors, power -/

/-- An entry has gone into the error log of a hall: at the place that was next. -/
def ErrorLogged (s t : State) (h : BitVec 4) (e : ErrorEntry) : Prop :=
  alFind (s.hall h).enext (t.hall h).elog = some e ∧ (t.hall h).enext = ((s.hall h).enext + 1) % 1024

/-- R385, R387 to R394: marks for lanes and quarters are added, never taken; scrubbing, while it is enabled and not paused, goes on to the next
line and from the last one to the first, which counts a pass; a memory error poisons the 32 bytes of HBM4E or tier-2 memory, unless an L2 holds their line newer, or the granule of a
scratchpad, that it struck, and nothing else, and is logged; one in a register ends the unit, one in a latch has it rebuilt, and both are logged. -/
def ReliabilityEvents : Prop := ∀ (s : State) (h : BitVec 4) (c : BitVec 5) (high tier2 : Bool) (lanes : Word) (quarters : BitVec 4)
    (line : Nat) (pa : Word) (synd : Word) (n : BitVec 1),
  let x := s.hall h
  let y := x.cluster c
  let a := pa.toNat
  let here := paTarget a < 5 ∧ paChip a = s.chip
  let quiet (t : State) := SameMem s t ∧ t.hart = s.hart ∧ t.poison = s.poison
  let lines := if tier2 then 384 * 10 ^ 9 / 64 else 2 ^ 30
  let next := if lines ≤ line + 1 then 0 else line + 1
  let errorAt (src a : Nat) (cluster : BitVec 5) : ErrorEntry :=
    { addr := BitVec.ofNat 64 a, src := BitVec.ofNat 8 src, ue := true, scrub := false, cluster := cluster, hart := 0#3, lane := 0#7,
      time := s.podt, synd := synd, valid := true }
  let registerError : ErrorEntry :=
    { addr := 0#64, src := 4#8, ue := true, scrub := false, cluster := s.myCluster, hart := s.myHart, lane := 0#7, time := s.podt, synd := 0#64
      valid := true }
  (∃ t, exec (.lrsetWrite h c high lanes) s = .next t ∧ quiet t
    ∧ (∀ i < 128, ((t.hall h).cluster c).lrmap.getLsbD i =
        (y.lrmap.getLsbD i || (if high then decide (64 ≤ i) && lanes.getLsbD (i - 64) else decide (i < 64) && lanes.getLsbD i)))
    ∧ { (t.hall h).cluster c with lrmap := y.lrmap } = y ∧ ∀ d, d ≠ c → (t.hall h).cluster d = x.cluster d)
  ∧ (∃ t, exec (.mpsetWrite h c quarters) s = .next t ∧ quiet t ∧ ((t.hall h).cluster c).mapart = y.mapart ||| quarters
    ∧ { (t.hall h).cluster c with mapart := y.mapart } = y ∧ ∀ d, d ≠ c → (t.hall h).cluster d = x.cluster d)
  ∧ (∀ b e, x.scrubcfg.getLsbD 0 = false ∨ x.scrubPaused = true ∨ lines ≤ line → exec (.scrubLine h tier2 line b e) s = .next s)
  ∧ (x.scrubcfg.getLsbD 0 = true → x.scrubPaused = false → line < lines →
      (∃ t, exec (.scrubLine h tier2 line false false) s = .next t ∧ quiet t ∧ (t.hall h).ecc = x.ecc
        ∧ (tier2 = true → (t.hall h).scrub2Pos = next ∧ (t.hall h).scrubPos = x.scrubPos)
        ∧ (tier2 = false → (t.hall h).scrubPos = BitVec.ofNat 36 next
            ∧ (t.hall h).scrubPasses = if next = 0 then x.scrubPasses + 1 else x.scrubPasses))
      ∧ ∃ t, exec (.scrubLine h tier2 line true false) s = .next t ∧ quiet t
        ∧ (s.dirty.contains (memoryPa s.chip h tier2 line / 64) = false →
            fieldNat (t.hall h).ecc (if tier2 then 0 else 32) 32 = min (2 ^ 32 - 1) (fieldNat x.ecc (if tier2 then 0 else 32) 32 + 1)
            ∧ fieldNat (t.hall h).ecc (if tier2 then 32 else 0) 32 = fieldNat x.ecc (if tier2 then 32 else 0) 32))
  ∧ (∃ t, exec (.scrubPauseEnd h) s = .next t ∧ HallBecomes s t h { x with scrubPaused := false })
  ∧ (here → s.inWells a = false → paTarget a < 4 → ∀ src ∈ [0, 1], ∃ t, exec (.memoryUncorrectableError pa (BitVec.ofNat 8 src) synd) s = .next t
      ∧ (∀ b, t.poisoned b 1 = (s.poisoned b 1 || (decide (b / 32 = a / 32) && !s.dirty.contains (a / 64)))) ∧ SameMem s t ∧ t.hart = s.hart
      ∧ ErrorLogged s t (homeHall a) (errorAt src (a / 32 * 32) 0#5))
  ∧ (here → paTarget a = 4 → ∃ t, exec (.memoryUncorrectableError pa 3#8 synd) s = .next t
      ∧ (∀ b, t.poisoned b 1 = (s.poisoned b 1 || decide (b / 8 = a / 8))) ∧ SameMem s t ∧ t.hart = s.hart
      ∧ ErrorLogged s t (homeHall a) (errorAt 3 (a / 8 * 8) (spCluster a)))
  ∧ (¬here → exec (.memoryUncorrectableError pa 0#8 synd) s = .next s)
  ∧ (∃ t, exec (.registerUncorrectableError none) s = .next t ∧ (∀ k, s.hart.unit = some k → ∀ u ∈ t.units, u.key ≠ k)
      ∧ ErrorLogged s t s.myHall registerError)
  ∧ (s.ra = none → ∀ d, pick (w := 1) s.hart.ldesc n = some d → ∃ t, exec (.registerUncorrectableError (some n)) s = .next t
      ∧ pick (w := 1) t.hart.ldesc n = some { d with todo := BitVec.allOnes 64, resumeAt := none }
      ∧ ErrorLogged s t s.myHall registerError ∧ { t with hart := { t.hart with ldesc := s.hart.ldesc }, halls := s.halls } = s)

/-- The hart has the turn and runs an instruction: it is not stopped, its launch is not cancelled, it is not in run-ahead, no latch waits to be
rebuilt, and it neither waits nor owes a trap. -/
def RunsNext (s : State) : Prop :=
  s.idle = false ∧ s.doomed = none ∧ s.ra = none ∧ s.rebuildDue = false ∧ s.hart.wait = none ∧ s.owedTrap = none

/-- What the schedule says of this step is taken from it, and the units that were placed run (R211). -/
def started (s : State) : State := ({ s with schedule := s.schedule.tail } : State).startPlaced

/-- What a step makes of `exec i` on u: the answer of a hypervisor is used up, the element rows count, and time passes. -/
def ranIn (u : State) (i : Instr) (w : IWord) : Host.Outcome State Fault Refusal :=
  match exec i u with
  | .next t => .next (u.countRows (t.onHart fun h => { h with fq := .none }) w).tick
  | r => r

/-- An instruction that is left part-way (R123, R318, R322; log 93): where the schedule leaves it at an element n, at a boundary where
pre-emption may, it stands again at its PC with VSTART n and is not counted as retired, and what it did is what it does when it ends at n;
where it may not be left there, it runs whole. -/
def LeftPartWay : Prop := ∀ (s : State) (n : Nat) u p w i,
  let s' := started s
  let v := u.setIr p w
  let len : Word := if p.isSome then 8#64 else 4#64
  s.schedule.head? = some (.turn (some (.row n))) → RunsNext s' → s'.hart.spanLost = 0#8 → s'.hart.fq = .none →
  s'.fetch = (u, .words p w) → decode p w = .ok i →
  (v.mayLeave (v.course i) n = false → step s = ranIn v i w)
  ∧ ∀ t, v.mayLeave (v.course i) n = true → exec i { v with hart := { v.hart with cut := some n } } = .next t →
      v.retiredIn { t with hart := { t.hart with cut := none } } len = true →
      ∃ t', step s = .next t'
        ∧ t'.hart.v = t.hart.v ∧ t'.hart.m = t.hart.m ∧ t'.hart.z = t.hart.z ∧ t'.hart.l = t.hart.l ∧ t'.hart.posted = t.hart.posted
        ∧ t'.hart.pc = s'.hart.pc ∧ t'.hart.vstart = n ∧ t'.hart.cut = none ∧ SameMem t t'
        ∧ ((t'.hall v.myHall).cluster v.myCluster).instr = ((v.hall v.myHall).cluster v.myCluster).instr

/-- Silent errors (R122, R145, R179, R385, R387, R388): where three runs of element row r disagree, an elementwise instruction ends there with
code 15, EVAL the row and VSTART the greater of its first element and of VSTART at the start; a reduction or a scan, with its effect
discarded and VSTART 0; a matrix instruction whose checksum disagrees twice, with the tile as it was, the quarter marked and VSTART 0. A lane
that is outvoted is charged, and marked when it was charged less than an hour ago; a corrected register error is counted. -/
def SilentErrors : Prop := ∀ (s : State) (r : Nat) (q : BitVec 2) (h : BitVec 4) (c : BitVec 5) (hart : BitVec 3) (lane : BitVec 7)
    (synd : Word),
  let s' := started s
  let next (x : Happening) := s.schedule.head? = some x
  let x := (s'.hall h).cluster c
  let among (t : State) (e : BitVec 8) (who : BitVec 3) (where' : BitVec 7) := ∃ k y, alFind k (t.hall h).elog = some y
    ∧ y.src = e ∧ y.cluster = c ∧ y.hart = who ∧ y.lane = where' ∧ y.time = s'.podt ∧ y.valid = true
  (∀ u p w i, RunsNext s' → s'.hart.spanLost = 0#8 → s'.hart.fq = .none → s'.fetch = (u, .words p w) → decode p w = .ok i →
    let v := u.setIr p w
    let len : Word := if p.isSome then 8#64 else 4#64
    let open' (y : Hart) := y.mode = .a ∧ vectorOf y.sset ≠ 0#64 ∧ y.sset.estat.getLsbD 2 = false
    let trapped (y : Hart) (t : State) (start row : Nat) := t.hart.vstart = start ∧ t.hart.mode = .s ∧ t.hart.pc = vectorOf y.sset
      ∧ EnteredSet y.sset t.hart.sset .a s'.hart.pc 15 0 (BitVec.ofNat 64 row) p.isSome false
    (next (.turn (some (.lanes r))) → ∀ ew last, v.course i = .rows ew last true →
      let n := max (v.rowStart ew r) v.hart.vstart
      n < last → n < v.rowStart ew (r + 1) → ∀ t, exec i { v with hart := { v.hart with cut := some n } } = .next t →
      v.retiredIn { t with hart := { t.hart with cut := none } } len = true → open' t.hart →
      ∃ t', step s = .next t' ∧ trapped t.hart t' n r ∧ t'.hart.v = t.hart.v ∧ t'.hart.m = t.hart.m)
    ∧ (next (.turn (some (.lanes r))) → ∀ ew single, v.course i = .whole ew single → v.rowStart ew r < v.hart.vl →
        ∀ t, exec i v = .next t → v.retiredIn t len = true → open' v.hart →
        ∃ t', step s = .next t' ∧ trapped v.hart t' (if single then max (v.rowStart ew r) v.hart.vstart else 0) r
          ∧ t'.hart.v = v.hart.v ∧ t'.hart.m = v.hart.m ∧ (∀ k, t'.g k = v.g k) ∧ SameMem v t')
    ∧ (next (.turn (some (.macs q))) → v.course i = .array → ∀ t, exec i v = .next t → v.retiredIn t len = true → open' v.hart →
        ∃ t', step s = .next t' ∧ trapped v.hart t' 0 0 ∧ t'.hart.z = v.hart.z ∧ SameMem v t'
          ∧ ((t'.hall v.myHall).cluster v.myCluster).mapart = ((v.hall v.myHall).cluster v.myCluster).mapart ||| BitVec.ofNat 4 (2 ^ q.toNat)))
  ∧ (next (.charge h c hart lane synd) → ∃ t, step s = .next t ∧ among t 5#8 hart lane
      ∧ ((t.hall h).cluster c).charges = (if x.charges = BitVec.allOnes 16 then x.charges else x.charges + 1#16)
      ∧ (∀ k, ((t.hall h).cluster c).lrmap.getLsbD k = (x.lrmap.getLsbD k || (decide (k = lane.toNat)
          && (alFind lane.toNat x.charged).any fun since => decide (s'.podt.toNat < since.toNat + 36 * 10 ^ 11))))
      ∧ t.hart.v = s'.hart.v ∧ SameMem s' t)
  ∧ (next (.checksum h c hart q) → ∃ t, step s = .next t ∧ among t 7#8 hart (q.setWidth 7) ∧ t.hart.z = s'.hart.z ∧ SameMem s' t)
  ∧ (next (.corrected h c) → ∃ t, step s = .next t ∧ SameMem s' t ∧ t.hart.pc = s'.hart.pc
      ∧ ((t.hall h).cluster c).rfce = (if x.rfce = BitVec.allOnes 32 then x.rfce else x.rfce + 1#32))

end Sys2Proof.Machine

open Sys2Proof Sys2Proof.Machine

/-! ## The obligations -/

/-- R59 to R66, the worked listing of the encoding chapter: its words, bit by bit, are its instructions; the word of 32 zeros
is no instruction, and one whose prefix is all zeros but its major is legal. -/
def Obligations.DecodesWords : Prop :=
  let bits (l : List Nat) : IWord := BitVec.ofNat 32 (l.foldl (fun n b => 2 * n + b) 0)
  -- major 000001, d 00101, a 00110, b 00111, func11 0: ADD g5, g6, g7
  decode none (bits [0,0,0,0,0,1, 0,0,1,0,1, 0,0,1,1,0, 0,0,1,1,1, 0,0,0,0,0,0,0,0,0,0,0]) = .ok (.add 5#5 6#5 7#5)
  -- prefix: major 111110, c 0, cv 0, type 1100, rnd 001, mask 000, mv 0, z 1, pv 1, sat 0, 0;
  -- major 100100, d 00001, a 00010, b 00011, ea 1, eb 0, mask 010, func6 0: VFADD.F32.RNE v1, v2.e, v3, m2.z
  ∧ decode (some (bits [1,1,1,1,1,0, 0,0,0,0,0, 0, 1,1,0,0, 0,0,1, 0,0,0, 0, 1, 1, 0, 0,0,0,0,0,0]))
      (bits [1,0,0,1,0,0, 0,0,0,0,1, 0,0,0,1,0, 0,0,0,1,1, 1, 0, 0,1,0, 0,0,0,0,0,0])
    = .ok (.vfadd {
        pfx := some {
          c := 0#5, cv := false, type := 12#4, rnd := 1#3, mask := 0#3, mv := false, z := true, pv := true, sat := false }
        d := 1#5, a := 2#5, b := 3#5, ea := true, eb := false, msk := 2#3 })
  -- major 101000, d 00100, a 01000, b 01001, chain 0, mask 000, mode 10, eew 10, k 010: VLDX.E32 v4, (g8), v9, k2
  ∧ decode none (bits [1,0,1,0,0,0, 0,0,1,0,0, 0,1,0,0,0, 0,1,0,0,1, 0, 0,0,0, 1,0, 1,0, 0,1,0])
    = .ok (.vldx none 4#5 8#5 9#5 false 0#3 2#2 2#3)
  -- major 100001, d 01001, a 0, b 00001, 10:6 = 0, func 2: SRD g9, VSTART
  ∧ decode none (bits [1,0,0,0,0,1, 0,1,0,0,1, 0,0,0,0,0, 0,0,0,0,1, 0,0,0,0,0, 0,0,0,0,1,0]) = .ok (.srd 9#5 1#5 0#5)
  -- major 010111, a 00101, b 0, offset −6: BNE g5, g0
  ∧ decode none (bits [0,1,0,1,1,1, 0,0,1,0,1, 0,0,0,0,0, 1,1,1,1,1,1,1,1,1,1,1,1,1,0,1,0]) = .ok (.bne 5#5 0#5 (BitVec.ofInt 16 (-6)))
  ∧ decode none 0#32 = .error .reserved
  ∧ decode (some 0xF8000000#32) 0x90221C80#32
    = .ok (.vfadd {
        pfx := some {
          c := 0#5, cv := false, type := 0#4, rnd := 0#3, mask := 0#3, mv := false, z := false, pv := false, sat := false }
        d := 1#5, a := 2#5, b := 3#5, ea := true, eb := false, msk := 2#3 })
  ∧ decode (some 0xF8000000#32) 0x04A63800#32 = .error .misplacedPrefix

/-- R59 to R69: the decoder reads the words of every well-formed instruction as that instruction, with every operand, and reads
nothing else: what it accepts is well formed and has exactly those words, so no bit of an encoding is dropped and no two
instructions share a word. -/
def Obligations.DecodeEncode : Prop := ∀ (i : Instr) (p : Option IWord) (w : IWord),
  decode p w = .ok i ↔ i.wf = true ∧ encode i = some (p, w)

/-- R6, R59, R116: where the hart has the turn and runs an instruction, and the four bytes at its PC are a word that is no prefix and that
decodes to i, a step is `exec i` on that state, in which the fetch has filled nothing but the translations and the instruction cache; then
time passes, and the counters of element rows count. The same for the two words of a prefixed instruction, once fetched. Where a die of its
span is lost, a vector instruction that is not illegal takes that fault and has no effect (R70, R221). -/
def Obligations.StepRunsDecoded : Prop := ∀ (s : State),
  let s' := started s
  s.schedule.head?.all (· == .turn none) = true → RunsNext s' →
  (∀ x w i, s'.hart.spanLost = 0#8 → s'.hart.pc.toNat % 4 = 0 → canonical s'.hart.pc = true →
    s'.hartXlate s'.myHall .fetch s'.hart.pc 4 = .ok x → x.cls = .nrm → s'.refusal s'.who s'.myHall x.pa 4 false = none →
    s'.poisoned x.pa 4 = false → alFind x.pa s'.icache = none →
    w = BitVec.ofNat 32 (leNat (s'.bytes x.pa 4)) → isPfx w = false → decode none w = .ok i →
    ∃ u, u.hart = { s'.hart with ir := (none, w) }
      ∧ { u with hart := s'.hart, tlb := s'.tlb, walks := s'.walks, icache := s'.icache } = s' ∧ step s = ranIn u i w)
  ∧ ∀ u p w i, s'.fetch = (u, .words p w) → decode p w = .ok i →
      let v := u.setIr p w
      (s'.hart.spanLost = 0#8 ∨ isVector w = false → step s = ranIn v i w)
      ∧ (s'.hart.spanLost ≠ 0#8 → isVector w = true → ∀ t, exec i v = .next t →
          step s = (if v.illegalIn i t = true then ranIn v i w else .next v.takeSpanLoss.tick))

/-- R403 and the tables of the registers: right after power is applied every hall is in reset with no tenant, its logs empty, its
scrubbing enabled at 24 hours a pass with TLIM at 100; every lane may be granted; no VF is enabled and VCAP is 8192; every port is
down, and no status is set in PKGSTAT. The registers of the hart are 0 and memory that nothing has written reads 0: these are the
model's choices (logs 4 and 5). The state has the invariant of every step. -/
def Obligations.ResetState : Prop :=
  let s := State.reset
  (∀ n : Fin 16, s.halls[n].st = .reset ∧ s.halls[n].tenant = 0#16 ∧ s.halls[n].cause = 0#4 ∧ s.halls[n].vlog = []
      ∧ s.halls[n].elog = [] ∧ s.halls[n].vovf = 0#32 ∧ s.halls[n].eovf = 0#32 ∧ s.halls[n].ecc = 0#64
      ∧ s.halls[n].scrubcfg = 0x501801#64 ∧ s.halls[n].tlim = 100#8 ∧ s.halls[n].hmcnt = 0#32
      ∧ (∀ w : Fin 32, s.halls[n].gallery[w].ctl = 0#64) ∧ ∀ p : Fin 9, s.halls[n].ports[p].state = 0#4)
    ∧ (∀ (n : Fin 16) c, (s.halls[n].cluster c).cap = 128 ∧ (s.halls[n].cluster c).stopped = 0#8)
    ∧ (∀ v, (s.vf v).en = false ∧ (s.vf v).vcap = 8192) ∧ (∀ p : Fin 4, s.hostPorts[p].mode = 0#2)
    ∧ s.pkgstat = 0#16 ∧ s.hart.unit = none ∧ s.units = [] ∧ s.launches = [] ∧ s.cmds = []
    ∧ s.hart.pc = 0#64 ∧ s.hart.mode = .a ∧ (∀ k, s.g k = 0#64) ∧ s.hart.vmode = 0#64 ∧ s.hart.vcap = 8192
    ∧ s.hart.fstat = 0#64 ∧ s.hart.sset.estat = 0#64 ∧ s.pset.estat = 0#64 ∧ s.hart.claim = none ∧ s.hart.cut = none
    ∧ (∀ a, Memory.read s.mem a = 0#8) ∧ s.Inv

/-- Every step, whatever the schedule makes happen, keeps memory in canonical form and the reserved bits of the P set at 0
(Tables 21.2, 21.3); after every step no instruction is being left part-way. -/
def Obligations.StepKeepsInv : Prop := ∀ s t, step s = .next t → (s.Inv → t.Inv) ∧ t.hart.cut = none

/-- R314 to R317: which set a trap enters and what it writes there, and what becomes of the hart where neither set can take
it. -/
def Obligations.TrapsTaken : Prop :=
  TrapEntry ∧ UndeliverableTrapStops

/-- R113, R312, R316: TRAP, SVC and ERET. -/
def Obligations.TrapCallsAndReturns : Prop :=
  TrapCalls ∧ EretReturns

/-- R82, R83, Table 5.1: every SALU instruction. -/
def Obligations.RegisterArithmetic : Prop :=
  RegisterLogicAndShifts ∧ RegisterMultiplyDivideCount

/-- R84, Table 5.3: the immediate forms. The sum and the compares take the immediate sign-extended, the logic takes it
zero-extended, and LDHI and ADDPC shift it left by 16. -/
def Obligations.ImmediateForms : Prop := ∀ d a (i : BitVec 16) (n : BitVec 6),
  let x s := State.g s a
  let shift (k : Nat) : BitVec 16 := BitVec.ofNat 16 (k * 2 ^ 14 + n.toNat)
  Immediate 2 (.addi d a i) d a i (fun s => BitVec.ofInt 64 ((x s).toInt + i.toInt))
  ∧ Immediate 3 (.andi d a i) d a i (fun s => x s &&& BitVec.ofNat 64 i.toNat)
  ∧ Immediate 4 (.ori d a i) d a i (fun s => x s ||| BitVec.ofNat 64 i.toNat)
  ∧ Immediate 5 (.xori d a i) d a i (fun s => x s ^^^ BitVec.ofNat 64 i.toNat)
  ∧ Immediate 6 (.slli d a n) d a (shift 0) (fun s => BitVec.ofNat 64 ((x s).toNat * 2 ^ n.toNat))
  ∧ Immediate 6 (.srli d a n) d a (shift 1) (fun s => BitVec.ofNat 64 ((x s).toNat / 2 ^ n.toNat))
  ∧ Immediate 6 (.srai d a n) d a (shift 2) (fun s => BitVec.ofInt 64 ((x s).toInt / 2 ^ n.toNat))
  ∧ Immediate 6 (.rori d a n) d a (shift 3) (fun s => BitVec.ofNat 64 ((x s).toNat / 2 ^ n.toNat + (x s).toNat * 2 ^ (64 - n.toNat)))
  ∧ Immediate 7 (.slti d a i) d a i (fun s => if (x s).toInt < i.toInt then 1#64 else 0#64)
  ∧ Immediate 8 (.sltni d a i) d a i (fun s => if (x s).toNat < (BitVec.ofInt 64 i.toInt).toNat then 1#64 else 0#64)
  ∧ Immediate 9 (.ldhi d i) d 0#5 i (fun _ => BitVec.ofInt 64 (i.toInt * 65536))
  ∧ Immediate 10 (.addpc d i) d 0#5 i (fun s => BitVec.ofInt 64 (s.hart.pc.toInt + i.toInt * 65536))

/-- R65, R92 to R94: branches and jumps. -/
def Obligations.BranchesAndJumps : Prop :=
  Branches ∧ JumpsLink

/-- R97 to R99: scalar floating point on the low bits of the registers in the format that bit 6 selects, the rest of the
result zero and the flags put into FSTAT. Arithmetic rounds once, the exact value of FMA among it. -/
def Obligations.ScalarFloatArithmetic : Prop := ∀ d a b r p,
  let x s := State.fpat s p a
  let y s := State.fpat s p b
  let z s := State.fpat s p d
  let f := sfmt p
  let e s := State.scalarEnv s r
  let v s i := f.operand (e s).ftz i
  let nan (l : List Nat) := flag ((l.map fun i => decide (f.isSNaN i)).any id) flNV
  let once s (l : List Nat) (q : FVal × Flags) : Nat × Flags :=
    ((roundTo f (e s) q.1).1, (roundTo f (e s) q.1).2 ||| q.2 ||| nan l)
  ComputesFp (.fadd d a b r p) d (fun s => once s [x s, y s] (addVal (e s).rnd (v s (x s)) (v s (y s))))
  ∧ ComputesFp (.fsub d a b r p) d (fun s => once s [x s, y s] (addVal (e s).rnd (v s (x s)) (v s (y s)).negate))
  ∧ ComputesFp (.fmul d a b r p) d (fun s => once s [x s, y s] (mulVal (v s (x s)) (v s (y s))))
  ∧ ComputesFp (.fdiv d a b r p) d (fun s => once s [x s, y s] (divVal (v s (x s)) (v s (y s))))
  ∧ ComputesFp (.fsqrt d a r p) d (fun s => once s [x s] (sqrtVal (v s (x s))))
  ∧ ComputesFp (.fma d a b r p) d (fun s =>
      let m := mulVal (v s (x s)) (v s (y s))
      let q := addVal (e s).rnd m.1 (v s (z s))
      once s [x s, y s, z s] (q.1, q.2 ||| m.2))
  ∧ ComputesFp (.fmin d a b p) d (fun s => minMax f false (x s) (y s))
  ∧ ComputesFp (.fmax d a b p) d (fun s => minMax f true (x s) (y s))

/-- R99, R100: scalar compares, sign operations and conversions. -/
def Obligations.ScalarFloatCompareConvert : Prop :=
  ScalarFloatCompareSign ∧ ScalarFloatConvert

/-- R85 to R87: a scalar load completes with the bytes its access finds, which are those of memory where its home serves it.
-/
def Obligations.ScalarLoadsFindMemory : Prop :=
  ScalarLoads ∧ LoadsFindMemory

/-- R85, R86, R88, R89: a scalar store completes when it has posted its bytes (posting is the model's form of it, log 6), and
a posted store lands. -/
def Obligations.ScalarStoresLand : Prop :=
  ScalarStores ∧ PostedStoreLands

/-- R86, R153: the checks of a scalar access, in their order: an address that is not canonical traps with code 6, one that is
not a multiple of the size with code 7, and a page of a class that the access does not accept with code 10, EVAL being the
address. None of them makes the access. -/
def Obligations.ScalarAccessChecks : Prop := ∀ (d a : BitVec 5) (i : BitVec 16) (s : State),
  (∀ w, s.hart.fq ≠ .complete w) → s.hart.posted.length < 256 →
  let va := s.g a + i.signExtend 64
  let checks (x : Instr) (n : Nat) (k : Kind) (ok : Accept) :=
    let traps (c : Nat) := exec x s = .next ((s.keepXlate s.myHall va).takeTrap { code := c, eval := va, scalar := true })
    (canonical va = false → traps 6)
    ∧ (canonical va = true → va.toNat % n ≠ 0 → traps 7)
    ∧ ∀ xl, canonical va = true → va.toNat % n = 0 → s.hartXlate s.myHall k va n = .ok xl → ok xl.cls = false → traps 10
  checks (.ldb d a i) 1 .load loadClasses ∧ checks (.ldbn d a i) 1 .load loadClasses
  ∧ checks (.ldh d a i) 2 .load loadClasses ∧ checks (.ldhn d a i) 2 .load loadClasses
  ∧ checks (.ldw d a i) 4 .load loadClasses ∧ checks (.ldwn d a i) 4 .load loadClasses
  ∧ checks (.ldd d a i) 8 .load loadClasses
  ∧ checks (.stb d a i) 1 .store storeClasses ∧ checks (.sth d a i) 2 .store storeClasses
  ∧ checks (.stw d a i) 4 .store storeClasses ∧ checks (.std d a i) 8 .store storeClasses

/-- R101, R103 to R105: the atomics: their results, where they complete, and the memory they leave. -/
def Obligations.Atomics : Prop :=
  AtomicsReturnOld ∧ AtomicsComplete ∧ AtomicsUpdateMemory

/-- R88, R106, R108, R109, R240: LDA, STREL, FENCE and VDRAIN: what they order, where they wait, and where they complete. -/
def Obligations.OrderedAccesses : Prop :=
  Sys2Proof.Machine.OrderedAccesses ∧ OrderedComplete

/-- R124 to R126, Table 7.1: the integer instructions on every element, at the width of the type. VADD, VSUB, VRSUB and VMUL
clamp to the type's range where saturation is in effect, on the values that the type gives the elements; every other result
wraps. Division follows DIV and DIVN of Table 5.1, and a shift amount is taken modulo the width. -/
def Obligations.VectorIntegerArithmetic : Prop :=
  let num (t : BitVec 4) (x : Nat) : Int := if isSigned t then toSigned (typeWidth t) x else (x % 2 ^ typeWidth t : Nat)
  let saturable (mk : VOp3 → Instr) (f : Int → Int → Int) := Binary mk isInt fun t s p _ x y =>
    let w := typeWidth t
    let r := f (num t x) (num t y)
    (patternOf w (if s.saturates p then max (lowestOf w (isSigned t)) (min (highestOf w (isSigned t)) r) else r), 0#5)
  let signed (mk : VOp3 → Instr) (f : Nat → Int → Int → Int) := Binary mk isInt fun t _ _ _ x y =>
    (patternOf (typeWidth t) (f (typeWidth t) (toSigned (typeWidth t) x) (toSigned (typeWidth t) y)), 0#5)
  let bits (mk : VOp3 → Instr) (f : Nat → Nat → Nat → Nat) := Binary mk isInt fun t _ _ _ x y => (f (typeWidth t) x y, 0#5)
  saturable .vadd (· + ·) ∧ saturable .vsub (· - ·) ∧ saturable .vrsub (fun x y => y - x) ∧ saturable .vmul (· * ·)
  ∧ signed .vmulh (fun w x y => x * y / 2 ^ w)
  ∧ bits .vmulhn (fun w x y => x % 2 ^ w * (y % 2 ^ w) / 2 ^ w)
  ∧ signed .vdiv (fun _ x y => if y = 0 then -1 else x.tdiv y)
  ∧ bits .vdivn (fun w x y => if y % 2 ^ w = 0 then 2 ^ w - 1 else x % 2 ^ w / (y % 2 ^ w))
  ∧ signed .vrem (fun _ x y => if y = 0 then x else x.tmod y)
  ∧ bits .vremn (fun w x y => x % 2 ^ w % (y % 2 ^ w))
  ∧ signed .vmin (fun _ x y => min x y) ∧ signed .vmax (fun _ x y => max x y)
  ∧ bits .vminn (fun _ x y => Nat.min x y) ∧ bits .vmaxn (fun _ x y => Nat.max x y)
  ∧ bits .vand (fun _ x y => x &&& y) ∧ bits .vor (fun _ x y => x ||| y) ∧ bits .vxor (fun _ x y => x ^^^ y)
  ∧ bits .vsll (fun w x y => x * 2 ^ (y % w) % 2 ^ w) ∧ bits .vsrl (fun w x y => x / 2 ^ (y % w))
  ∧ Binary .vsra isInt (fun t _ _ _ x y => (patternOf (typeWidth t) (toSigned (typeWidth t) x / 2 ^ (y % typeWidth t)), 0#5))

/-- R127, R131: a compare writes one bit of a mask register for each active element: the integer ones on signed or unsigned
values, those of floating point 0 where an operand is a NaN, with the flags of FEQ, FLT and FLE (R99). -/
def Obligations.VectorCompares : Prop :=
  let signed (mk : VCmpOp → Instr) (r : Int → Int → Bool) := Compare mk isInt fun t x y =>
    (r (toSigned (typeWidth t) x) (toSigned (typeWidth t) y), 0#5)
  let unsigned (mk : VCmpOp → Instr) (r : Nat → Nat → Bool) := Compare mk isInt fun _ x y => (r x y, 0#5)
  let float (mk : VCmpOp → Instr) (r : FVal → FVal → Bool) (quiet : Bool) := Compare mk arithFloat fun t x y =>
    let f := fmtOf t
    let nan := f.isNaN x || f.isNaN y
    (!nan && r (f.value x) (f.value y), flag (if quiet then f.isSNaN x || f.isSNaN y else nan) flNV)
  unsigned .vcmpeq (fun x y => decide (x = y)) ∧ unsigned .vcmpne (fun x y => decide (x ≠ y))
  ∧ signed .vcmplt (fun x y => decide (x < y)) ∧ signed .vcmple (fun x y => decide (x ≤ y))
  ∧ unsigned .vcmpltn (fun x y => decide (x < y)) ∧ unsigned .vcmplen (fun x y => decide (x ≤ y))
  ∧ float .vfcmpeq eqVal true ∧ float .vfcmplt ltVal false ∧ float .vfcmple (fun v w => !ltVal w v) false

/-- R128, R129: moves. VMV copies, VBCAST writes the low bits of g[a] and VID the index; VMERGE takes vb where the mask is set
and va elsewhere and writes every element; VEXT reads one element into g[d], extended by its type, and 0 for an index of VL or
more; VINS writes one element and nothing for such an index. VWMUL and VWADD are exact at twice the width. -/
def Obligations.VectorMovesAndWidening : Prop :=
  let wide (mk : VOp3 → Instr) (f : Int → Int → Int) := ∀ o : VOp3,
    let w s := typeWidth (State.vtype s o.pfx)
    let num s (x : Nat) : Int := if isSigned (State.vtype s o.pfx) then toSigned (w s) x else (x % 2 ^ w s : Nat)
    Elementwise (mk o) o.pfx o.msk (fun s => narrowInt (s.vtype o.pfx)) (fun s => ⟨o.d, 2, 2 * w s⟩)
      (fun s => [vreg o.a (w s), vreg o.b (w s)])
      (fun s e => (patternOf (2 * w s) (f (num s (s.elem (vreg o.a (w s)) e)) (num s (s.elem (vreg o.b (w s)) e))), 0#5))
  Unary .vmv anyType (fun _ _ _ _ x => (x, 0#5))
  ∧ (∀ p d a m, Elementwise (.vbcast p d a m) p m (fun s => anyType (s.vtype p)) (fun s => vreg d (typeWidth (s.vtype p)))
      (fun _ => []) (fun s _ => ((s.g a).toNat, 0#5)))
  ∧ (∀ p d m, Elementwise (.vid p d m) p m (fun s => isInt (s.vtype p)) (fun s => vreg d (typeWidth (s.vtype p)))
      (fun _ => []) (fun _ e => (e, 0#5)))
  ∧ (∀ (o : VOp3) (s : State),
      let w := typeWidth (s.vtype o.pfx)
      VecOk s (anyType (s.vtype o.pfx)) [vreg o.d w] [vreg o.a w, vreg o.b w] false →
        (s.ra = none → exec (.vmerge o) s = .next ((rangeDone s fun t e => t.setElem (vreg o.d w) e
            (s.elem (if s.active (s.maskSel o.pfx o.msk) (s.perPos (vreg o.a w)) e then vreg o.b w else vreg o.a w) e)).retire
              (pfxLen o.pfx)))
        ∧ ∃ t, exec (.vmerge o) s = .next t ∧ t.hart.pc = s.hart.pc + pfxLen o.pfx ∧ t.hart.vstart = 0 ∧ SameMem s t)
  ∧ (∀ p d a b x (s : State),
      let t := s.vtype p
      let w := typeWidth t
      let i := (s.g b).toNat
      VecOk s (anyType t) [] [vreg a w] false → ∃ u, exec (.vext p d a b x) s = .next u
        ∧ u.hart = { s.hart with g := u.hart.g, pc := s.hart.pc + pfxLen p, transfer := false, vstart := 0 } ∧ SameMem s u
        ∧ ∀ k, u.g k = if k = d ∧ k ≠ 0#5 then
            (if s.hart.vl ≤ i then 0#64
             else if isSigned t then BitVec.ofInt 64 (toSigned w (s.elem (vreg a w) i)) else BitVec.ofNat 64 (s.elem (vreg a w) i))
          else s.g k)
  ∧ (∀ p d a b (s : State),
      let t := s.vtype p
      let o := vreg d (typeWidth t)
      let i := (s.g b).toNat
      VecOk s (anyType t) [o] [] false →
        (s.ra = none → ∃ u, u = (if i < s.hart.vl then s.setElem o i (s.g a).toNat else s)
          ∧ exec (.vins p d a b) s = .next (({ u with hart := { u.hart with vstart := 0 } } : State).retire (pfxLen p)))
        ∧ ∃ u, exec (.vins p d a b) s = .next u ∧ u.hart.pc = s.hart.pc + pfxLen p ∧ u.hart.vstart = 0 ∧ SameMem s u)
  ∧ wide .vwmul (· * ·) ∧ wide .vwadd (· + ·)

/-- R130, R131, Table 7.4: floating-point arithmetic on every element in the format of the type. The exact result is rounded once,
with the instruction's rounding, saturation and flush-to-zero (R25 to R29); a signalling NaN sets NV. -/
def Obligations.VectorFloatArithmetic : Prop :=
  let once (t : BitVec 4) (s : State) (p : Option Pfx) (e : Nat) (l : List Nat) (v : FVal) (fl : Flags) : Nat × Flags :=
    let r := roundTo (fmtOf t) (s.vecEnv p e) v
    (r.1, r.2 ||| fl ||| flag (l.any fun x => (fmtOf t).isSNaN x) flNV)
  let val (t : BitVec 4) (s : State) (p : Option Pfx) (x : Nat) : FVal := (fmtOf t).operand (s.vecEnv p 0).ftz x
  let two (mk : VOp3 → Instr) (f : Rnd → FVal → FVal → FVal × Flags) := Binary mk arithFloat fun t s p e x y =>
    let q := f (s.vecEnv p e).rnd (val t s p x) (val t s p y)
    once t s p e [x, y] q.1 q.2
  let fma (mk : VOp3 → Instr) (negProd negAdd : Bool) := ∀ o : VOp3,
    let w s := typeWidth (State.vtype s o.pfx)
    Elementwise (mk o) o.pfx o.msk (fun s => arithFloat (s.vtype o.pfx)) (fun s => vreg o.d (w s))
      (fun s => [vreg o.a (w s), vreg o.b (w s)]) (fun s e =>
        let t := s.vtype o.pfx
        let x := s.elem (vreg o.a (w s)) e
        let y := s.elem (vreg o.b (w s)) e
        let z := s.elem (vreg o.d (w s)) e
        let m := mulVal (val t s o.pfx x) (val t s o.pfx y)
        let c := val t s o.pfx z
        let q := addVal (s.vecEnv o.pfx e).rnd (if negProd then m.1.negate else m.1) (if negAdd then c.negate else c)
        once t s o.pfx e [x, y, z] q.1 (q.2 ||| m.2))
  two .vfadd addVal ∧ two .vfsub (fun r v w => addVal r v w.negate) ∧ two .vfmul (fun _ v w => mulVal v w)
  ∧ two .vfdiv (fun _ v w => divVal v w)
  ∧ Unary .vfsqrt arithFloat (fun t s p e x => once t s p e [x] (sqrtVal (val t s p x)).1 (sqrtVal (val t s p x)).2)
  ∧ fma .vfma false false ∧ fma .vfms false true ∧ fma .vfnma true false
  ∧ Binary .vfscl arithFloat (fun t s p e x y =>
      match val t s p x with
      | .fin g m k st => once t s p e [x] (.fin g m (k + max (-5000) (min 5000 (toSigned (typeWidth t) y))) st) 0#5
      | v => once t s p e [x] v 0#5)
  ∧ Binary .vfmin arithFloat (fun t _ _ _ x y => minMax (fmtOf t) false x y)
  ∧ Binary .vfmax arithFloat (fun t _ _ _ x y => minMax (fmtOf t) true x y)
  ∧ Unary .vfabs arithFloat (fun t _ _ _ x => (x % 2 ^ (typeWidth t - 1), 0#5))
  ∧ Unary .vfneg arithFloat (fun t _ _ _ x => (x ^^^ 2 ^ (typeWidth t - 1), 0#5))
  ∧ Unary .vfclass arithFloat (fun t _ _ _ x => (classBits (fmtOf t) x, 0#5))

/-- R132 to R135: special functions, conversions, and VCVTEF. -/
def Obligations.VectorSpecialAndConvert : Prop :=
  Sys2Proof.Machine.VectorSpecialAndConvert ∧ VectorConvertErrorFree

/-- R42, R43, R143 to R145: reductions and scans. -/
def Obligations.VectorReductionsAndScans : Prop :=
  VectorReductions ∧ VectorScans

/-- R146 to R148, Table 8.4: instructions that move elements. Element e receives the source element that each names, or 0 where it
names none: VSLUP e − n (where run-ahead knows n; elements below n keep their values), VSLDN e + n, VPERM vb[e], VREV VL − 1 − e, VUNPACK the number of
active elements before e, VXCHG the element of the same place at another span position. VPACK moves each active element to the place
given by the number of active elements before it. But for VXCHG, a move between span positions traps with code 17 and writes
nothing. -/
def Obligations.VectorMovesBetweenElements : Prop := ∀ s : State,
  let moves (i : Instr) (p : Option Pfx) (m : BitVec 3) (d a : BitVec 5) (more : List VOpd) (ok crossing known : Bool) (lowest : Nat)
      (src : Nat → Option Nat) :=
    let w := typeWidth (s.vtype p)
    let vd := vreg d w
    let per := s.perPos vd
    let act e := s.active (s.maskSel p m) per e
    let crosses := ∃ e j, s.hart.vstart ≤ e ∧ lowest ≤ e ∧ e < s.hart.vl ∧ act e = true ∧ src e = some j ∧ j / per ≠ e / per
    VecOk s ok [vd] (vreg a w :: more) true →
      (¬(crossing = true ∧ crosses) →
        (s.ra = none → exec i s = .next ((rangeDone s fun t e =>
          if e < lowest then t
          else if act e then t.setElem vd e (match src e with | some j => s.elem (vreg a w) j | none => 0)
          else if s.zeroing p then t.setElem vd e 0 else t).retire (pfxLen p)))
        ∧ CompletesInRegisters i p s)
      ∧ (crossing = true → known = true → crosses → exec i s = .next (s.takeTrap { code := 17, pfx := p.isSome }))
  let num b := (State.g s b).toNat
  (∀ p d a b x m, moves (.vslup p d a b x m) p m d a [] (anyType (s.vtype p)) true (!s.gUnknown b) (num b) (fun e => some (e - num b)))
  ∧ (∀ p d a b x m, moves (.vsldn p d a b x m) p m d a [] (anyType (s.vtype p)) true true 0
      (fun e => if e + num b < s.hart.vl then some (e + num b) else none))
  ∧ (∀ o : VOp3,
      let b := vreg o.b (typeWidth (s.vtype o.pfx))
      moves (.vperm o) o.pfx o.msk o.d o.a [b] (anyType (s.vtype o.pfx) && s.vtype o.pfx != 14#4) true true 0
        (fun e => if s.elem b e < s.hart.vl then some (s.elem b e) else none))
  ∧ (∀ o : VOp2, moves (.vrev o) o.pfx o.msk o.d o.a [] (anyType (s.vtype o.pfx)) true true 0 (fun e => some (s.hart.vl - 1 - e)))
  ∧ (∀ o : VOp2, moves (.vunpack o) o.pfx o.msk o.d o.a [] (anyType (s.vtype o.pfx)) true true 0
      (fun e => some ((List.range e).countP fun i => s.active (s.maskSel o.pfx o.msk) (s.perPos (vreg o.a (typeWidth (s.vtype o.pfx)))) i)))
  ∧ (∀ p d a b x m,
      let per := s.perPos (vreg a (typeWidth (s.vtype p)))
      let step := num b % 8
      let at' q := if num b / 8 % 2 = 1 then Nat.xor q step % s.positions else (q + step) % s.positions
      moves (.vxchg p d a b x m) p m d a [] (anyType (s.vtype p)) false true 0
        (fun e => let j := at' (e / per) * per + e % per; if j < s.hart.vl then some j else none))
  ∧ ∀ o : VOp2,
      let w := typeWidth (s.vtype o.pfx)
      let d := vreg o.d w
      let per := s.perPos (vreg o.a w)
      let act e := s.active (s.maskSel o.pfx o.msk) per e
      let place e := (List.range e).countP fun i => act i
      VecOk s (anyType (s.vtype o.pfx)) [d] [vreg o.a w] true →
        ((∀ e, s.hart.vstart ≤ e → e < s.hart.vl → act e = true → place e / per = e / per) →
          (s.ra = none → exec (.vpack o) s = .next ((rangeDone s fun t e =>
            if act e then t.setElem d (place e) (s.elem (vreg o.a w) e) else t).retire (pfxLen o.pfx)))
          ∧ CompletesInRegisters (.vpack o) o.pfx s)
        ∧ ((∃ e, s.hart.vstart ≤ e ∧ e < s.hart.vl ∧ act e = true ∧ place e / per ≠ e / per) →
          exec (.vpack o) s = .next (s.takeTrap { code := 17, pfx := o.pfx.isSome }))

/-- R149: masks. The bitwise instructions write every bit from VSTART to VL − 1 and take no mask; MPOP counts, and MFIRST finds the
first of, the active elements whose bit is set, all ones when there is none; MFROMV and MTOV convert between elements and bits; MSBF
writes 1 to the active elements before the first active one whose bit is set. The place of a bit in a span is that of an element of
the width under which VL was set (log 14, the model's choice). -/
def Obligations.MaskInstructions : Prop := ∀ (p : Option Pfx) (s : State), s.hart.cut = none →
  let per := s.maskPer
  let set (r : BitVec 3) e := s.maskBit r per e
  let logic (i : Instr) (d : BitVec 3) (f : Nat → Bool) :=
    (s.ra = none → exec i s = .next ((rangeDone s fun t e => t.setMaskBit d per e (f e)).retire (pfxLen p)))
    ∧ CompletesInRegisters i p s
  let on m := activeBelow s p m per s.hart.vl
  let scalar (i : Instr) (d : BitVec 5) (v : Word) := ∃ t, exec i s = .next t ∧ (∀ k, t.g k = if k = d ∧ k ≠ 0#5 then v else s.g k)
    ∧ t.hart = { s.hart with g := t.hart.g, pc := s.hart.pc + pfxLen p, transfer := false, vstart := 0 } ∧ SameMem s t
  (∀ d a b : BitVec 3, logic (.mand p d a b) d (fun e => set a e && set b e) ∧ logic (.mor p d a b) d (fun e => set a e || set b e)
    ∧ logic (.mxor p d a b) d (fun e => set a e ^^ set b e) ∧ logic (.mandn p d a b) d (fun e => set a e && !set b e)
    ∧ logic (.mnot p d a) d (fun e => !set a e) ∧ logic (.mset p d) d (fun _ => true) ∧ logic (.mclr p d) d (fun _ => false))
  ∧ (∀ (d : BitVec 5) (a m : BitVec 3), scalar (.mpop p d a m) d (BitVec.ofNat 64 ((on m).countP (set a)))
    ∧ scalar (.mfirst p d a m) d (match (on m).find? (set a) with | some e => BitVec.ofNat 64 e | none => BitVec.allOnes 64))
  ∧ (∀ (d : BitVec 3) (a : BitVec 5) x m,
      let o := vreg a (typeWidth (s.vtype p))
      VecOk s (anyType (s.vtype p)) [] [o] false →
        (s.ra = none → exec (.mfromv p d a x m) s = .next ((elementsDone s p m (s.perPos o)
          (fun t e y => t.setMaskBit d (s.perPos o) e (y != 0)) (fun e => (if s.elem o e = 0 then 0 else 1, 0#5))).retire (pfxLen p)))
        ∧ CompletesInRegisters (.mfromv p d a x m) p s)
  ∧ (∀ (d : BitVec 5) (a m : BitVec 3),
      let o := vreg d (typeWidth (s.vtype p))
      VecOk s (isInt (s.vtype p)) [o] [] false →
        (s.ra = none → exec (.mtov p d a m) s = .next ((elementsDone s p m (s.perPos o) (·.setElem o)
          (fun e => (if s.maskBit a (s.perPos o) e then 1 else 0, 0#5))).retire (pfxLen p)))
        ∧ CompletesInRegisters (.mtov p d a m) p s)
  ∧ ∀ d a m : BitVec 3,
      (s.ra = none → exec (.msbf p d a m) s = .next ((elementsDone s p m per (fun t e y => t.setMaskBit d per e (y != 0))
        (fun e => (if ∀ i ≤ e, s.active (s.maskSel p m) per i = true → set a i = true → False then 1 else 0, 0#5))).retire (pfxLen p)))
      ∧ CompletesInRegisters (.msbf p d a m) p s

/-- R151 to R155, R158, R159: vector loads; a non-blocking load has its effect at issue in this model (log 7). -/
def Obligations.VectorLoadForms : Prop :=
  VectorLoads ∧ FaultFirstLoads

/-- R151 to R155, R158, R160: vector stores post each active element's bytes, the lowest byte at the lowest address, at g[a] + e × size
(VST), g[a] + e × g[b] (VSTS) or g[a] + the unsigned element e of vb × size (VSTX). Where the elements lie in one page whose home
serves them, the store completes, and once its requests are performed memory holds its elements, each over those of lower index; the
blocking form leaves memory as it is until then (logs 6 and 7). -/
def Obligations.VectorStores : Prop := ∀ (p : Option Pfx) (d a b : BitVec 5) (c : Bool) (m : BitVec 3) (eew : BitVec 2) (k : BitVec 3)
    (s : State),
  let n := 2 ^ eew.toNat
  let o := vreg d (8 * n)
  let sel := s.maskSel p m
  let per := s.perPos o
  let stores (i : Instr) (srcs : List VOpd) (addr : Nat → Word) := VecOk s true [] (o :: srcs) false → s.ra = none →
    Posts i p s sel per n .store onlyNrm k addr (fun e x => bytesFrom x.pa (leBytes n (s.elem o e)))
    ∧ ∀ x, s.counterFull k = false → Settled s → ElementsLie s (activeElems s sel per) per .store n addr x true →
        ∃ t, exec i s = .next t ∧ VectorDone s t p ∧ t.hart.v = s.hart.v ∧ (k = 0#3 → (activeElems s sel per).length ≤ 256 → SameMem s t)
          ∧ MemStored s t ((activeElems s sel per).map fun e => ((x e).pa, leBytes n (s.elem o e)))
  stores (.vst p d a c m eew k) [] (fun e => s.g a + BitVec.ofNat 64 (e * n))
  ∧ stores (.vsts p d a b c m eew k) [] (fun e => s.g a + BitVec.ofNat 64 e * s.g b)
  ∧ stores (.vstx p d a b c m eew k) [vreg b 32] (fun e => s.g a + BitVec.ofNat 64 (s.elem (vreg b 32) e * n))

/-- R161, R162: VAMO. -/
def Obligations.VectorAtomicForms : Prop :=
  VectorAtomics ∧ VectorFetchUpdatesMemory

/-- R137, R139, R50: VCLAIM first releases the claim held, then takes one: the lanes that R216 grants of those asked for, between 8 and
128 and a power of two; where R138 admits the span asked for on the dies of g[b], a span and no share; else a share no larger than the
one asked for. It writes the grant to g[d] as Table 8.1 lays it out, sets VLMAXB to the least of 64 times the lanes and VCAP, and
clears the vector state. VREL waits for the vector operations in flight, gives the claim back and clears the vector state; without a
claim it does nothing. -/
def Obligations.ClaimsGranted : Prop := ∀ (p : Option Pfx) (d a b : BitVec 5) (s : State),
  let u := s.releaseClaim
  let pool := (u.hall u.myHall).cluster u.myCluster
  let lanes := pool.grantFor (u.unclaimed u.myHall u.myCluster - 1) ((s.g a).toNat % 256)
  (∃ t c, exec (.vclaim p d a b) s = .next t ∧ t.hart.claim = some c ∧ c.ceiling = lanes ∧ c.grant = lanes ∧ 8 ≤ lanes ∧ lanes ≤ 128 ∧ (∃ j, lanes = 2 ^ j)
    ∧ (match u.spanFor (BitVec.ofNat 2 ((s.g a).toNat / 2 ^ 12)) (BitVec.ofNat 8 (s.g b).toNat) lanes with
      | some l => c.span = BitVec.ofNat 2 ((s.g a).toNat / 2 ^ 12) ∧ c.dies = BitVec.ofNat 8 (s.g b).toNat ∧ c.share = 0#2 ∧ c.places = l
      | none => c.span = 0#2 ∧ c.dies = 0#8 ∧ c.places = [] ∧ c.share = pool.grantShare (BitVec.ofNat 2 ((s.g a).toNat / 2 ^ 10)))
    ∧ (∀ k, t.g k = if k = d ∧ k ≠ 0#5 then
        BitVec.ofNat 64 (lanes + 2 ^ 10 * c.share.toNat + 2 ^ 12 * c.span.toNat + 2 ^ 16 * c.dies.toNat) else s.g k)
    ∧ t.hart.vlmaxb = Nat.min (64 * lanes) s.hart.vcap ∧ VectorCleared t.hart ∧ t.hart.pc = s.hart.pc + pfxLen p ∧ SameMem s t)
  ∧ (s.hart.claim = none → exec (.vrel p) s = .next (s.retire (pfxLen p)))
  ∧ (s.hart.claim ≠ none → ∃ t, exec (.vrel p) s = .next t ∧ t.hart.claim = none ∧ t.hart.vlmaxb = 0 ∧ VectorCleared t.hart
      ∧ t.hart.vops = [] ∧ (∀ k, t.g k = s.g k) ∧ t.hart.pc = s.hart.pc + pfxLen p ∧ SameMem s t
      ∧ ∀ q ∈ ((t.hall s.myHall).cluster s.myCluster).claims, q.hart ≠ s.myHart.toNat)

/-- R50, R140, R141: SETVL reads the grant anew: VLMAXB is 64 bytes a lane, at most VCAP, and VL the least of g[a] and the elements of
the type that fit at the span's positions; SETVM first writes g[a] to VMODE and takes the length from g[b]. Both write VL to g[d], set
VSTART to 0, and keep of each register the bytes below both visible lengths. A type field that names no type is illegal, and a hart
without a claim takes code 5. -/
def Obligations.LengthsSet : Prop := ∀ (p : Option Pfx) (d a b : BitVec 5) (s : State) (c : Claim),
  let ends (i : Instr) (t : BitVec 4) (n : Nat) (mode : Word) :=
    anyType t = true → s.ra = none → s.hart.claim = some c → ∃ u, exec i s = .next u
      ∧ u.hart.vlmaxb = Nat.min (s.grantNow c * 64) s.hart.vcap
      ∧ u.hart.vl = Nat.min n (2 ^ c.span.toNat * (u.hart.vlmaxb * 8 / typeWidth t)) ∧ u.hart.vlw = typeWidth t ∧ u.hart.vstart = 0
      ∧ u.hart.vmode = mode ∧ u.hart.pc = s.hart.pc + pfxLen p ∧ SameMem s u
      ∧ (∀ k, u.g k = if k = d ∧ k ≠ 0#5 then BitVec.ofNat 64 u.hart.vl else s.g k)
      ∧ (u.hart.vlmaxb = s.hart.vlmaxb → u.hart.v = s.hart.v ∧ u.hart.hwm = s.hart.hwm)
      ∧ (c.span = 0#2 → u.hart.vlmaxb ≤ 65536 → ∀ (r : Fin 32) (j : Nat), j < Nat.min s.hart.vlmaxb u.hart.vlmaxb →
          fieldNat u.hart.v[r] (8 * j) 8 = fieldNat s.hart.v[r] (8 * j) 8)
  ends (.setvl p d a) (s.vtype p) (s.g a).toNat s.hart.vmode
  ∧ ends (.setvm p d a b) (BitVec.ofNat 4 (s.g a).toNat) (s.g b).toNat (s.g a &&& 0x1FFF#64)
  ∧ (s.hart.claim = none → s.ra = none → anyType (s.vtype p) = true →
      exec (.setvl p d a) s = .next (s.takeTrap { code := 5, pfx := p.isSome }))
  ∧ (anyType (s.vtype p) = false → exec (.setvl p d a) s = .next (s.takeTrap { code := 3, eval := s.irWord, pfx := p.isSome }))

/-- R142: spills and fills. -/
def Obligations.SpillsAndFills : Prop :=
  SpillsPost ∧ FillsLoad

/-- R163 to R166, R260: appends, SEAL and INKTAIL. -/
def Obligations.InkAppends : Prop :=
  AppendsAtTail ∧ InkInstructions

/-- R38, R39, R167 to R169, R255, R256: the instructions on wells and what their requests do at a line. -/
def Obligations.Wells : Prop :=
  WellsPost ∧ WellLineSteps ∧ WellsRead

/-- R48, R111, R112: SRD writes a system register to g[d]. SWR, SSET and SCLR write it g[a], its old value OR g[a], and its old value AND NOT
g[a], and write the old value to g[d]; a later read gives what the register's own rule stored: the reserved bits of VMODE, VSTAT, FSTAT and
the trap registers read zero, VSTART keeps 17 bits, and VCAP is rounded to a power of two from 512 to 8192. A number without a register, or
a write of one that may only be read, takes code 3; a register that the mode may not read takes code 4. No byte of memory changes. -/
def Obligations.SystemRegisters : Prop := ∀ (d a n h : BitVec 5) (s : State),
  let r := n.toNat + 32 * h.toNat
  let old := s.sysRead r
  let stored (x : Word) : Word :=
    if r = 0x001 then x &&& 0x1FFFF#64 else if r = 0x002 then x &&& 0x1FFF#64 else if r = 0x003 then x &&& 0xFF#64
    else if r = 0x008 then x &&& 0x1FF#64 else if r = 0x100 ∨ r = 0x200 then x &&& ~~~3#64 else if r = 0x102 ∨ r = 0x202 then x &&& 0xFFFF#64
    else if r = 0x104 ∨ r = 0x204 then x &&& 0x1F#64 else x
  let update (i : Instr) (new : Word) :=
    (sysAllows s.hart.mode r = .rw → ∃ t, exec i s = .next t
      ∧ (r ≠ 0x005 → t.sysRead r = stored new)
      ∧ (r = 0x005 → 512 ≤ (t.sysRead r).toNat ∧ (t.sysRead r).toNat ≤ 8192 ∧ ∃ e, (t.sysRead r).toNat = 2 ^ e
          ∧ (512 ≤ new.toNat → new.toNat ≤ 8192 → 2 ^ e ≤ new.toNat ∧ new.toNat < 2 ^ (e + 1)))
      ∧ (∀ k, k ≠ r → sysAllows .p k ≠ .unassigned → t.sysRead k = s.sysRead k) ∧ (∀ k, t.g k = if k = d ∧ k ≠ 0#5 then old else s.g k)
      ∧ t.hart.pc = s.hart.pc + 4#64 ∧ t.hart.mode = s.hart.mode ∧ SameMem s t)
    ∧ (sysAllows s.hart.mode r = .unassigned ∨ sysAllows s.hart.mode r = .ro →
        exec i s = .next (s.takeTrap { code := 3, eval := s.irWord }))
    ∧ (sysAllows s.hart.mode r = .hidden → exec i s = .next (s.takeTrap { code := 4, eval := s.irWord }))
  (sysAllows s.hart.mode r = .ro ∨ sysAllows s.hart.mode r = .rw →
    ∃ t, exec (.srd d n h) s = .next t ∧ WroteG s t d old s.hart.fstat 4#64)
  ∧ (sysAllows s.hart.mode r = .unassigned → exec (.srd d n h) s = .next (s.takeTrap { code := 3, eval := s.irWord }))
  ∧ (sysAllows s.hart.mode r = .hidden → exec (.srd d n h) s = .next (s.takeTrap { code := 4, eval := s.irWord }))
  ∧ update (.swr d a n h) (s.g a) ∧ update (.sset d a n h) (old ||| s.g a) ∧ update (.sclr d a n h) (old &&& ~~~s.g a)

/-- R114 to R117: LINEWB writes a Modified host line of g[a] back, which leaves it there, and LINEINV removes it and the window lines that
cover it; neither changes a byte of memory where the hart has posted nothing. FENCEI empties the instruction cache and TLBSH the
translations of the page g[a], or all, of the hart's VF, or in mode P of VF g[d] (log 80); WFI in mode S or P waits unless a wake is
pending; HALT in mode P stops the hart after itself. In a lower mode TLBSH, WFI and HALT take code 4. -/
def Obligations.CacheTranslationAndWaiting : Prop := ∀ (d a k : BitVec 5) (s : State),
  let lower (i : Instr) := exec i s = .next (s.takeTrap { code := 4, eval := s.irWord })
  let u := s.settle fun _ => true
  let vf := if k.toNat < 2 then u.myVf else BitVec.ofNat 10 (s.g d).toNat
  let page := if k.toNat % 2 = 0 then some (s.g a) else none
  (∀ x, s.ra = none → s.hart.posted = [] → canonical (s.g a) = true → s.hartXlate s.myHall .store (s.g a) 1 = .ok x → x.cls = .nrm →
    (∃ t, exec (.linewb a) s = .next t ∧ SameMem s t ∧ t.hart.pc = s.hart.pc + 4#64 ∧ (∀ k, t.g k = s.g k)
      ∧ t.hostLines = s.hostLines.map fun l => if l.line = x.pa / 64 ∧ s.hostLines.any (fun l => l.line == x.pa / 64 && l.modified)
          then { l with modified := false } else l)
    ∧ ∃ t, exec (.lineinv a) s = .next t ∧ SameMem s t ∧ t.hart.pc = s.hart.pc + 4#64 ∧ (∀ k, t.g k = s.g k)
      ∧ (t.hostLines = s.hostLines.filter fun l => l.line != x.pa / 64)
      ∧ ∀ h : Fin 16, ∀ w ∈ (t.halls[h]).windows, ∀ l ∈ w.2.lines, l.pa ≠ x.pa / 64)
  ∧ (∃ t, exec .fencei s = .next t ∧ t = ({ u with icache := [] } : State).retire 4#64 ∧ t.hart.pc = s.hart.pc + 4#64 ∧ t.icache = [])
  ∧ (k.toNat < 4 → (if k.toNat < 2 then Mode.s else Mode.p).code ≤ s.hart.mode.code → ¬(k.toNat < 2 ∧ u.shadowed = true) →
      ∃ t, exec (.tlbsh d a k) s = .next t ∧ t = (u.invalidate vf page).retire 4#64 ∧ t.hart.pc = s.hart.pc + 4#64
        ∧ (∀ e ∈ t.tlb, e.space = some vf → ∃ va, page = some va ∧ inLeaf e.pte e.page va = false)
        ∧ ∀ e ∈ t.walks, e.space = some vf → ∃ va, page = some va ∧ e.part ≠ walkPart va e.lvl)
  ∧ (k.toNat < 4 → s.hart.mode.code < (if k.toNat < 2 then Mode.s else Mode.p).code → lower (.tlbsh d a k))
  ∧ (4 ≤ k.toNat → exec (.tlbsh d a k) s = .next (s.takeTrap { code := 3, eval := s.irWord }))
  ∧ (s.hart.mode ≠ .a → s.hart.wakes ≠ 0#64 ∨ s.hart.fired ≠ 0#64 → exec .wfi s = .next (s.retire 4#64))
  ∧ (s.hart.mode ≠ .a → s.hart.wakes = 0#64 → s.hart.fired = 0#64 → s.myUnit = none →
      exec .wfi s = .next (s.onHart fun h => { h with wait := some .wfi }))
  ∧ (s.hart.mode = .a → lower .wfi)
  ∧ (s.hart.mode = .p → ∃ t, exec .halt s = .next t ∧ t.hart = { s.hart with pc := s.hart.pc + 4#64, transfer := false, stopped := true }
      ∧ SameMem s t ∧ ((t.hall s.myHall).cluster s.myCluster).stopped.getLsbD s.myHart.toNat = true)
  ∧ (s.hart.mode ≠ .p → lower .halt)

/-- R198 to R200: what the barrier instructions and BARRIER_WAIT_END do at the barrier that a handle names. An arrival that makes ARR reach
TGT completes the generation: GEN + 1, ARR 0, nobody arrived. BARARR and BARSYN release, arrive once in a generation and give the
generation arrived in; BARWAIT and BARSYN wait until GEN differs and then give the generation that completed last, its TGT and whether a
member was lost; a BARSYN that had arrived before its hart was pre-empted does not arrive again (R321). -/
def Obligations.Barriers : Prop := ∀ (d a b : BitVec 5) (sc : BitVec 3) (s : State),
  let handle := s.g a
  let key := s.myKey
  let n := (s.g b).toNat % 2 ^ 16
  let gen := BitVec.ofNat 32 (s.g b).toNat
  let status (x : Barrier) : Word := BitVec.ofNat 64 (x.last.1.toNat + 2 ^ 32 * (x.last.2.1 % 2 ^ 16) + 2 ^ 48 * (if x.last.2.2 then 1 else 0))
  let passes (u t : State) (x : Barrier) := WaitOver u t d (u.barrierStatus x) ∧ (x.last.2.1 ≠ 0 → u.barrierStatus x = status x)
  (∀ r, Scoped s sc → s.barrierOf handle = .ok r → r.isOpen = true → n ≠ 0 → (s.barrier r).arr = 0 →
    exec (.barinit a b sc) s = .next (((s.demote sc).setBarrier r { s.barrier r with
      tgt := n, scope := s.scopeRun sc, lost := false, members := [], arrived := [], leaving := [] }).retire 4#64))
  ∧ (∀ r, s.barrierOf handle = .ok r → r.isOpen = true →
      (key ∉ (s.barrier r).members → exec (.barjoin a) s =
        .next ((s.setBarrier r { s.barrier r with members := (s.barrier r).members ++ [key] }).retire 4#64))
      ∧ (key ∈ (s.barrier r).members → exec (.barjoin a) s = .next (s.retire 4#64))
      ∧ (key ∈ (s.barrier r).members → key ∉ (s.barrier r).arrived → exec (.barleave a) s =
        .next ((s.setBarrier r ((s.barrier r).leave key)).retire 4#64))
      ∧ (key ∈ (s.barrier r).members → key ∈ (s.barrier r).arrived → ∃ t, exec (.barleave a) s = .next t
        ∧ Waits s t (.arrive handle (s.barrier r).gen)))
  ∧ (∀ r, s.barrierOf handle = .ok r →
      (key ∉ (s.barrier r).arrived → ∀ u, s.release (s.barrier r).scope = .ok u →
        let v := u.setBarrier r ((s.barrier r).arrive key)
        exec (.bararr d a) s = .next ((v.setG d ((s.barrier r).gen.setWidth 64)).retire 4#64)
        ∧ (v.barrierOf handle = .ok r → s.joinedHere = none → ((v.barrier r).gen = (s.barrier r).gen → ∃ t, exec (.barsyn d a) s = .next t
              ∧ Waits v t (.barrier handle (s.barrier r).gen d))
            ∧ ((v.barrier r).gen ≠ (s.barrier r).gen → ∃ t, exec (.barsyn d a) s = .next t ∧ passes v t (v.barrier r))))
      ∧ (key ∉ (s.barrier r).arrived → s.hart.posted = [] → s.hart.seq = [] → let x := s.barrier r
        (∃ t, exec (.bararr d a) s = .next t ∧ t.hart.pc = s.hart.pc + 4#64 ∧ OnlyG s t d (x.gen.setWidth 64) ∧ SameMem s t
          ∧ t.barrier r = x.arrive key)
        ∧ (s.joinedHere = none → 0 < x.tgt → x.tgt ≤ x.arr + 1 → ∃ t, exec (.barsyn d a) s = .next t ∧ t.hart.pc = s.hart.pc + 4#64
          ∧ t.hart.wait = none ∧ OnlyG s t d (BitVec.ofNat 64 ((x.gen + 1#32).toNat + 2 ^ 32 * (x.tgt % 2 ^ 16) + 2 ^ 48 * (if x.lost then 1 else 0)))
          ∧ SameMem s t ∧ t.barrier r = x.arrive key))
      ∧ (key ∈ (s.barrier r).arrived → ∃ t, exec (.bararr d a) s = .next t ∧ (s.joinedHere = none → exec (.barsyn d a) s = .next t)
          ∧ Waits s t (.arrive handle (s.barrier r).gen))
      ∧ (∀ g, s.joinedHere = some g →
          ((s.barrier r).gen ≠ g → ∃ t, exec (.barsyn d a) s = .next t ∧ passes { s with hart := { s.hart with rejoin := none } } t (s.barrier r))
          ∧ ((s.barrier r).gen = g → ∃ t, exec (.barsyn d a) s = .next t
            ∧ Waits { s with hart := { s.hart with rejoin := none } } t (.barrier handle g d)))
      ∧ ((s.barrier r).gen ≠ gen → ∃ t, exec (.barwait d a b) s = .next t ∧ passes s t (s.barrier r))
      ∧ ((s.barrier r).gen = gen → ∃ t, exec (.barwait d a b) s = .next t ∧ Waits s t (.arrive handle gen)))
  ∧ (∀ h g r, s.hart.wait = some (.barrier h g d) → s.barrierOf h = .ok r →
      ((s.barrier r).gen ≠ g → ∃ t, exec .barrierWaitEnd s = .next t ∧ passes s t (s.barrier r))
      ∧ ((s.barrier r).gen = g → exec .barrierWaitEnd s = .next s))
  ∧ ∀ (x : Barrier) (u : UnitKey), 0 < x.tgt →
      (x.tgt ≤ x.arr + 1 → (x.arrive u).gen = x.gen + 1 ∧ (x.arrive u).arr = 0 ∧ (x.arrive u).arrived = [])
      ∧ (x.arr + 1 < x.tgt → (x.arrive u).gen = x.gen ∧ (x.arrive u).arr = x.arr + 1 ∧ (x.arrive u).tgt = x.tgt
          ∧ u ∈ (x.arrive u).arrived ∧ u ∈ (x.arrive u).members)

/-- R47, R201, R205: completion counters and short waits. KRD reads a counter; KWAIT, KSTAT and KSET wait until COUNT is 0, of all seven for
KWAIT 0, and KWAIT_END ends that wait; KSTAT then clears ERR and STATUS and KSET sets them from bits 36:32 of g[a], and both give the
word read. PAUSE retires and holds the hart until PAUSE_EXPIRY; YIELD retires, and saves the group where a pre-emption was asked for.
WAITANY gives the conditions of g[a] that hold in bits 8:0, whether the time in g[b] has come in bit 9 and the number of the landing in
bits 21:16, and the fired set in the next register, or waits; WAITANY_END ends the wait; WFI_WAKE that of WFI. -/
def Obligations.CountersAndWaits : Prop := ∀ (d a b : BitVec 5) (k : BitVec 3) (s : State),
  let c := s.counter k
  let word := BitVec.ofNat 64 (c.count.toNat + 2 ^ 32 * (if c.err then 1 else 0) + 2 ^ 33 * c.status.toNat)
  let zero (k : BitVec 3) : Prop := if k = 0#3 then ∀ i : BitVec 3, i ≠ 0#3 → (s.counter i).count = 0#32 else (s.counter k).count = 0#32
  let ends (i : Instr) (d : BitVec 5) (v : Word) (c' : Counter) := ∃ t, exec i s = .next t ∧ WaitOver { s with hart := { s.hart with wait := none } } t d v
    ∧ ∀ j, t.counter j = if j = k then c' else s.counter j
  let cleared : Counter := { count := c.count, err := false, status := 0#4 }
  let set : Counter := { count := c.count, err := (s.g a).getLsbD 32, status := BitVec.ofNat 4 ((s.g a).toNat / 2 ^ 33) }
  let cond : BitVec 9 := BitVec.ofNat 9 ((s.g a).toNat % 512 &&& ((if s.hart.fired ≠ 0#64 then 1 else 0)
    + ((List.range 8).map fun i => if i ≠ 0 ∧ (s.counter (BitVec.ofNat 3 i)).count = 0#32 then 2 ^ i else 0).sum + (if s.hart.wakes ≠ 0#64 then 256 else 0)))
  let due : Prop := s.g b ≠ 0#64 ∧ (s.g b).toNat ≤ s.podt.toNat
  let reports (i : Instr) := ∃ t, exec i s = .next t
    ∧ (∀ q, t.g q = if q = pairHi d ∧ q ≠ 0#5 then s.hart.fired
        else if q = d ∧ q ≠ 0#5 then BitVec.ofNat 64 (cond.toNat + (if s.pastDeadline b then 512 else 0)
          + (if cond.getLsbD 8 then 2 ^ 16 * ((List.range 64).find? fun i => s.hart.wakes.getLsbD i).getD 0 else 0)) else s.g q)
    ∧ t.hart.fired = 0#64 ∧ t.hart.wait = none ∧ t.hart.pc = s.hart.pc + 4#64 ∧ (cond.getLsbD 8 = false → t.hart.wakes = s.hart.wakes) ∧ SameMem s t
  (∃ t, exec (.krd d k) s = .next t ∧ WroteG s t d word s.hart.fstat 4#64)
  ∧ (s.hart.wait = none →
      (zero k → ends (.kwait k) 0#5 0#64 c ∧ ends (.kstat d k) d word cleared ∧ ends (.kset d a k) d word set)
      ∧ (¬zero k → (∃ t, exec (.kwait k) s = .next t ∧ Waits s t (.kwait k)) ∧ (∃ t, exec (.kstat d k) s = .next t ∧ Waits s t (.kstat d k))
          ∧ ∃ t, exec (.kset d a k) s = .next t ∧ Waits s t (.kset d a k))
      ∧ (s.ra = none → exec .pause s = .next ((s.retire 4#64).onHart fun h => { h with wait := some .pause }))
      ∧ (cond ≠ 0#9 ∨ due → reports (.waitany d a b))
      ∧ (cond = 0#9 → ¬due → ∃ t, exec (.waitany d a b) s = .next t ∧ Waits s t (.waitany d a b)))
  ∧ (zero k → (s.hart.wait = some (.kwait k) → ends .kwaitEnd 0#5 0#64 c) ∧ (s.hart.wait = some (.kstat d k) → ends .kwaitEnd d word cleared)
      ∧ (s.hart.wait = some (.kset d a k) → ends .kwaitEnd d word set))
  ∧ (s.hart.wait = some (.waitany d a b) → reports .waitanyEnd)
  ∧ (s.hart.wait = some .pause → exec .pauseExpiry s = .next { s with hart := { s.hart with wait := none } })
  ∧ (s.hart.wait = some .wfi → ∃ t, exec .wfiWake s = .next t ∧ WaitOver s t 0#5 0#64)
  ∧ (s.myUnit = none → exec .yield s = .next (s.retire 4#64))
  ∧ ∀ u, s.myUnit = some u → exec .yield s = .next (if u.preempt then (s.retire 4#64).saveGroup u.key.vf u.key.serial u.group else s.retire 4#64)

/-- R202, R204, R276, R277: WATCH reads a 32-byte descriptor and binds a free landing of the hall that holds the word at g[a], whose handle is
64 × the hall and its number; with no free landing, or a descriptor outside Table 11.8, it gives all ones. UNWATCH frees an armed landing of
the VF, or leaves it closing while actions are pending; it gives 1 then, 0 for a landing that is closing, and all ones for a handle of none; in a hall of its tenant that does not answer it traps with code 13.
VWARM arms an entry for each active element and gives the number armed. WAIT_ENTRY_FIRE moves the armed entries of the word written to the
fired set. LANDING_TRIGGER queues the action of an armed landing whose comparison holds; LANDING_ACTION wakes the hart that owns it. -/
def Obligations.WatchedWords : Prop := ∀ (d a b : BitVec 5) (m : BitVec 3) (s : State),
  let handle := (s.g a).toNat
  let hall := BitVec.ofNat 4 (handle / 64)
  let n := handle % 64
  (∀ u v x bs, s.watchSite (s.g a) = (u, .ok (some x)) → u.loadAt (s.g b) 32 32 onlyNrm [32] = (v, .bytes bs) → v.ra = none →
    let w := leWords bs 4
    (landingOk w = false → exec (.watch d a b) s = .next ((v.setG d (BitVec.allOnes 64)).retire 4#64))
    ∧ (landingOk w = true → fieldNat (wordAt w 0) 4 2 ≠ 1 → v.scoped 0#3 = .ok v → v.refusal v.who v.myHall x.pa 8 false = none →
        (∀ f, (v.hall (homeHall x.pa)).freeLanding = some f →
          ∃ t l, exec (.watch d a b) s = .next t ∧ alFind f (t.hall (homeHall x.pa)).landings = some l ∧ l.st = .armed ∧ l.pa = x.pa
            ∧ l.vf = v.myVf ∧ l.desc = w ∧ l.owner = v.hart.unit ∧ l.pend = 0 ∧ l.trigs = 0#16
            ∧ (∀ k, t.g k = if k = d ∧ k ≠ 0#5 then BitVec.ofNat 64 (64 * (homeHall x.pa).toNat + f) else v.g k) ∧ SameMem v t)
        ∧ ((v.hall (homeHall x.pa)).freeLanding = none →
          exec (.watch d a b) s = .next ((v.setG d (BitVec.allOnes 64)).retire 4#64))))
  ∧ (∀ l, handle < 1024 → s.barrierHall hall = true → alFind n (s.hall hall).landings = some l → l.vf = s.myVf →
      (l.st = .armed → ∃ t, exec (.unwatch d a) s = .next t ∧ (∀ k, t.g k = if k = d ∧ k ≠ 0#5 then 1#64 else s.g k)
        ∧ (t.hall hall).landings = (if l.pend = 0 then alErase n (s.hall hall).landings
            else alSet n { l with st := .closing } (s.hall hall).landings) ∧ SameMem s t)
      ∧ (l.st ≠ .armed → exec (.unwatch d a) s = .next ((s.setG d 0#64).retire 4#64)))
  ∧ (handle < 1024 → s.owns (s.tenantOf s.myVf) hall = true → s.barrierHall hall = false →
      exec (.unwatch d a) s = .next (s.takeTrap { code := 13, eval := s.g a }))
  ∧ (1024 ≤ handle → exec (.unwatch d a) s = .next ((s.setG d (BitVec.allOnes 64)).retire 4#64))
  ∧ (VecOk s (decide (s.hart.vl ≤ 64) && decide (s.hart.vl ≤ s.hart.vlmaxb / 4)) [] [vreg b 32] false → s.ra = none →
      let v : VAccess :=
        { sel := s.maskSel none m, per := s.perPos (vreg b 32), zero := false, size := 8, ok := onlyNrm, kind := .load, win := false,
          addr := fun e => some (s.g a + BitVec.ofNat 64 (s.elem (vreg b 32) e * 8)) }
      let start := if s.hart.warm = some (s.hart.pc, s.hart.vstart) then s else s.onHart fun h => { h with armed := 0#64, fired := 0#64, armedPa := [] }
      let els := (upTo s.hart.vstart s.hart.vl).filter fun e => s.active v.sel v.per e
      let addr e := s.g a + BitVec.ofNat 64 (s.elem (vreg b 32) e * 8)
      (∀ t, armFrom v (upTo s.hart.vstart s.hart.vl) start = (t, none) →
        exec (.vwarm d a b m) s =
          .next ((((t.setG d (BitVec.ofNat 64 s.hart.vl)).setVstart 0).onHart fun h => { h with warm := none }).retire 4#64))
      ∧ ∀ x : Nat → Xl, s.hart.warm = none → els.length ≤ 16 → (∀ u ∈ s.units, u.onHart = true → s.hart.unit = some u.key) →
        (∀ e ∈ els, Lies s .load (addr e) 8 (x e) ∧ paTarget (x e).pa = 4 ∧ s.refusal s.who s.myHall (x e).pa 8 false = none
          ∧ s.elemHall v.per e = s.myHall) → (∀ e ∈ els, ∀ f ∈ els, pageOf (addr e) = pageOf (addr f)) →
        ∃ t, exec (.vwarm d a b m) s = .next t ∧ t.hart.pc = s.hart.pc + 4#64 ∧ t.hart.vstart = 0
          ∧ OnlyG s t d (BitVec.ofNat 64 s.hart.vl) ∧ SameMem s t ∧ t.hart.fired = 0#64
          ∧ ∀ e, e < 64 → (t.hart.armed.getLsbD e = true ↔ e ∈ els))
  ∧ (∀ (pa : Word) e, let hit (p : Nat × Nat) := decide (p.2 / 8 = pa.toNat / 8)
      ∃ t, exec (.waitEntryFire pa) s = .next t ∧ t.hart.armedPa = s.hart.armedPa.filter (fun p => !hit p)
        ∧ ((e, pa.toNat) ∈ s.hart.armedPa → e < 64 → t.hart.fired.getLsbD e = true ∧ t.hart.armed.getLsbD e = false)
        ∧ { t with hart := s.hart } = s)
  ∧ (∀ (h : BitVec 4) (i : BitVec 6) l, alFind i.toNat (s.hall h).landings = some l → l.st = .armed →
      let word := s.word l.pa
      let value := wordAt l.desc 1
      let holds : Prop := match fieldNat (wordAt l.desc 0) 0 3 with
        | 0 => True | 1 => word = value | 2 => word ≠ value | 3 => value.toInt ≤ word.toInt | 4 => value.toNat ≤ word.toNat | _ => False
      (holds → l.pend < 8 → ∃ t l', exec (.landingTrigger h i) s = .next t ∧ alFind i.toNat (t.hall h).landings = some l'
        ∧ l'.pend = l.pend + 1 ∧ l'.trigs = l.trigs + 1#16 ∧ (l'.st = .closing ↔ (wordAt l.desc 0).getLsbD 8 = true))
      ∧ (¬holds → exec (.landingTrigger h i) s = .next s))
  ∧ ∀ (h : BitVec 4) (i : BitVec 6) l key, alFind i.toNat (s.hall h).landings = some l → 1 < l.pend → fieldNat (wordAt l.desc 0) 4 2 = 0 →
      l.owner = some key → s.hart.unit = some key → ∃ t l', exec (.landingAction h i) s = .next t ∧ t.hart.wakes.getLsbD i.toNat = true
        ∧ alFind i.toNat (t.hall h).landings = some l' ∧ l'.pend = l.pend - 1 ∧ SameMem s t

/-- R206 to R209: PHASE, in a cohort with nothing of the hart in flight, releases, arrives once at the phase barrier and waits; PHASE_COMPLETE
advances the phase of the launch to the barrier's generation; one that had joined before its hart was pre-empted does not join again
(R321). LAUNCH releases and hands the 128-byte record at g[a] to the queue that g[b]
names, and gives how that ended, 2 for a number above 127. CANCEL gives whether the work existed; level 3 is not for mode A. EXIT, with nothing
in flight, releases, retires and ends the unit, with an error where bits 7:0 of g[a] are not zero. -/
def Obligations.PhasesAndLaunches : Prop := ∀ (d a b : BitVec 5) (n : BitVec 2) (sc : BitVec 3) (s : State),
  (∀ l u, s.myLaunch = some l → l.cohort = true → s.joinedHere = none → (s.completeVecs fun _ => true).ownCmds = false →
    (s.completeVecs fun _ => true).release 4#3 = .ok u →
    exec (.phase d) s = .next ((u.onLaunch l.vf l.serial fun l => { l with phaseBar := l.phaseBar.arrive u.myKey }).onHart fun h =>
      { h with wait := some (.phase d l.phaseBar.gen.toNat) }))
  ∧ (∀ l, s.myLaunch = some l → l.cohort = true → s.joinedHere = none → s.hart.vops = [] → s.ownCmds = false → s.hart.posted = [] →
      s.hart.seq = [] → ∃ t l', exec (.phase d) s = .next t ∧ t.hart.wait = some (.phase d l.phaseBar.gen.toNat) ∧ SameMem s t
        ∧ t.launch? l.vf l.serial = some l' ∧ l' = { l with phaseBar := l.phaseBar.arrive s.myKey })
  ∧ (∀ l g, s.myLaunch = some l → l.cohort = true → s.joinedHere = some g → l.phaseBar.gen.toNat ≠ g.toNat →
      ∃ t, exec (.phase d) s = .next t ∧ t.hart.pc = s.hart.pc + 4#64 ∧ OnlyG s t d (BitVec.ofNat 64 l.phaseBar.gen.toNat) ∧ SameMem s t)
  ∧ (s.myLaunch = none → exec (.phase d) s = .next (s.takeTrap { code := 20 }))
  ∧ (∀ v k l, s.launch? v k = some l → l.phaseBar.gen.toNat ≠ l.phase → l.graph = 0#16 → l.fld 0x30 0 64 = 0 → s.hart.wait = none →
      ∃ t l', exec (.phaseComplete v k) s = .next t ∧ t.launch? v k = some l' ∧ l' = { l with phase := l.phaseBar.gen.toNat })
  ∧ (∀ u v bs, Ordered s sc true u → u.loadAt (s.g a) 128 128 onlyNrm [64, 64] = (v, .bytes bs) → v.ra = none →
      ((s.g b).toNat < 128 → exec (.launch d a b sc) s =
        .next ((((v.demote sc).enqueue v.myVf (BitVec.ofNat 7 (s.g b).toNat) bs).1.setG d
          (BitVec.ofNat 64 ((v.demote sc).enqueue v.myVf (BitVec.ofNat 7 (s.g b).toNat) bs).2)).retire 4#64))
      ∧ (128 ≤ (s.g b).toNat → exec (.launch d a b sc) s = .next (((v.demote sc).setG d 2#64).retire 4#64)))
  ∧ (∀ x, Settled s → Scoped s sc → Lies s .load (s.g a) 128 x → Serves s x.pa 64 false → Serves s (x.pa + 64) 64 false →
      ∃ t r, exec (.launch d a b sc) s = .next t ∧ t.hart.pc = s.hart.pc + 4#64 ∧ OnlyG s t d (BitVec.ofNat 64 r) ∧ r < 4
        ∧ (r ≠ 0 → SameMem s t) ∧ (128 ≤ (s.g b).toNat → r = 2))
  ∧ (∀ (v : BitVec 10) (q : BitVec 7) x bs, s.queueOpen v ((s.vf v).queue q) = true → ((s.vf v).queue q).full = false →
      s.hallAdmits v ((s.vf v).queue q).home = true →
      s.translate (some v) ((s.vf v).queue q).home .s .store (((s.vf v).queue q).slotVa ((s.vf v).queue q).tail) = .ok x → x.cls = .nrm →
      ∀ u, s.writeHome (some v) ((s.vf v).queue q).home x.pa bs = .ok u →
        ∃ t, s.enqueue v q bs = (t, 0) ∧ ((t.vf v).queue q).tail = ((u.vf v).queue q).tail + 1 ∧ t.mem = u.mem)
  ∧ ((n ≠ 3#2 ∨ s.hart.mode ≠ .a) → ∃ t, exec (.cancel d a n) s = .next t ∧
      let r := s.cancel s.myVf n (s.g a)
      let u := (r.1.setG d (if r.2 then 1#64 else 0#64)).retire 4#64
      t = match u.hart.unit with | some k => u.stopCancelled k | none => u)
  ∧ (s.hart.mode = .a → exec (.cancel d a 3#2) s = .next (s.takeTrap { code := 4, eval := s.irWord }))
  ∧ (∀ v w, Scoped s sc → let u := s.completeVecs fun _ => true
      u.ownCmds = false → u.release (u.scopeRun sc) = .ok v → ((v.demote sc).retire 4#64).myUnit = some w →
      exec (.exit a sc) s = .next (((v.demote sc).retire 4#64).endUnit w false (decide ((s.g a).toNat % 256 ≠ 0))))
  ∧ ∀ w, Scoped s sc → s.hart.vops = [] → s.ownCmds = false → s.hart.posted = [] → s.hart.seq = [] → s.myUnit = some w →
      ∃ t, exec (.exit a sc) s = .next t ∧ t.hart.unit = none ∧ t.hart.pc = s.hart.pc + 4#64 ∧ (∀ k, t.g k = s.g k)
        ∧ ∀ q ∈ t.units, q.key ≠ w.key

/-- R41, R171, R174, R177, R178: ZRANK adds to every element of the tile, under R41 with one product, its row value times its column value; a
row at or above VL or inactive has the row value +0 and, in this model (log 20), the column values +0. MBLK adds the products of the rows
of the latches over the depth U(g[b]), at most 1024 bits of elements, in groups of 32 in ascending k. A group that has a NaN gives the
canonical NaN; one with infinities of both signs too, with NV; one with an infinity gives it. -/
def Obligations.MatrixProducts : Prop := ∀ (p : Option Pfx) (d : BitVec 2) (a b : BitVec 5) (x y : Bool) (m : BitVec 3) (s : State),
  let t := s.vtype p
  let w := typeWidth t
  let ok := t == 8#4 || t == 9#4 || t == 10#4 || t == 11#4 || t == 14#4
  let f := fmtOf t
  let times (u v : Nat) : FVal × Flags := mulVal (f.value u) (f.value v)
  let row i := decide (i < s.hart.vl) && s.active (s.maskSel p m) (s.perPos (vreg a w)) i
  let rowValue i := if row i then s.elem (vreg a w) i else 0
  let colValue i j := if row i && decide (j < s.hart.vl) then s.elem (vreg b w) j else 0
  let k := min (s.g b).toNat (1024 / w)
  let latch (n : BitVec 1) (r e : Nat) := fieldNat (pick (w := 1) s.hart.l n) (1024 * r + w * e) w
  let group (i j : Nat) (c : Nat × Flags) (g : Nat) : Nat × Flags :=
    let es := upTo (32 * g) (min (32 * g + 32) k)
    let r := groupSum c.1 (es.map fun e => times (latch 0#1 i e) (latch 1#1 j e))
      (es.any fun e => f.isSNaN (latch 0#1 i e) || f.isSNaN (latch 1#1 j e))
    (r.1, c.2 ||| r.2)
  (VecOk s ok [] [vreg a w, vreg b w] false → s.shareCode ≠ 0#2 → s.ra = none →
    TileUpdated (.zrank p d a b x y m) s d (s.tileRows * s.tileCols)
      (fun i j c => groupSum c [times (rowValue i) (colValue i j)] (f.isSNaN (rowValue i) || f.isSNaN (colValue i j))) (pfxLen p))
  ∧ (ok = true → s.shareCode ≠ 0#2 → s.ra = none → s.latchPending 0#1 = false → s.latchPending 1#1 = false →
    TileUpdated (.mblk p d b) s d (s.tileRows * s.tileCols * k)
      (fun i j c => (List.range ((k + 31) / 32)).foldl (group i j) (c, 0#5)) (pfxLen p))
  ∧ (ok = true → s.shareCode = 0#2 → exec (.mblk p d b) s = .next (s.takeTrap { code := 5, pfx := p.isSome }))
  ∧ ∀ (c : Nat) (ps : List (FVal × Flags)) (nv : Bool),
      let terms := Fmt.fp32.value c :: ps.map (·.1)
      (.nan ∈ terms → (groupSum c ps nv).1 = 0x7FC00000)
      ∧ (.nan ∉ terms → .inf true ∈ terms → .inf false ∈ terms →
          (groupSum c ps nv).1 = 0x7FC00000 ∧ (groupSum c ps nv).2.getLsbD 0 = true)
      ∧ (.nan ∉ terms → .inf true ∉ terms → .inf false ∈ terms → (groupSum c ps nv).1 = 0x7F800000)
      ∧ (.nan ∉ terms → .inf true ∈ terms → .inf false ∉ terms → (groupSum c ps nv).1 = 0xFF800000)

/-- R174, R180, R181: ZZERO writes +0 to every element of a tile; ZREAD puts the elements of tile row U(g[b]) into d, +0 for a row at or
above M; ZWRITE writes the active elements of va to that row, nothing where it is at or above M; ZDIM gives M + 256 × N + 65536 × the
share, and 0 without one. Without a share the others take the claim trap. -/
def Obligations.TileMoves : Prop := ∀ (p : Option Pfx) (z : BitVec 2) (d a b : BitVec 5) (x : Bool) (m : BitVec 3) (s : State),
  let rows := s.tileRows
  let cols := s.tileCols
  let n := (s.g b).toNat
  let o := vreg d 32
  let src := vreg a 32
  let written (q : TileBits) := (({ s with hart := { s.hart with z := put (w := 2) s.hart.z z q, vstart := 0 } } : State).retire (pfxLen p))
  (s.shareCode ≠ 0#2 → s.ra = none → exec (.zzero p z) s = .next (written 0#131072))
  ∧ (s.shareCode = 0#2 → exec (.zzero p z) s = .next (s.takeTrap { code := 5, pfx := p.isSome }))
  ∧ (VecOk s (decide (s.hart.vl ≤ cols)) [o] [] false → s.shareCode ≠ 0#2 → s.ra = none →
      exec (.zread p d z b m) s = .next ((elementsDone s p m (s.perPos o) (·.setElem o)
        (fun e => (if rows ≤ n then 0 else tileElem cols (s.tile z) n e, 0#5))).retire (pfxLen p)))
  ∧ (VecOk s (decide (s.hart.vl ≤ cols)) [] [src] false → s.shareCode ≠ 0#2 → s.ra = none →
      (rows ≤ n → exec (.zwrite p z a b x m) s = .next ((s.setVstart 0).retire (pfxLen p)))
      ∧ (n < rows → ∃ q, exec (.zwrite p z a b x m) s = .next (written q)
          ∧ ∀ i j, i < rows → j < cols → tileElem cols q i j =
              if i = n ∧ s.hart.vstart ≤ j ∧ j < s.hart.vl ∧ s.active (s.maskSel p m) (s.perPos src) j = true then s.elem src j
              else tileElem cols (s.tile z) i j))
  ∧ (s.hart.claim = none → s.operandsOk [o] [] false = true → exec (.zread p d z b m) s = .next (s.takeTrap { code := 5, pfx := p.isSome }))
  ∧ (s.shareCode = 0#2 → exec (.zread p d z b m) s = .next (s.takeTrap { code := 5, pfx := p.isSome })
      ∧ exec (.zwrite p z a b x m) s = .next (s.takeTrap { code := 5, pfx := p.isSome }))
  ∧ (s.ra = none → ∃ t, exec (.zdim p d) s = .next t ∧ WroteG (s.setVstart 0) t d
      (match s.shareCode with | 0#2 => 0#64 | 1#2 => 0x14040#64 | 2#2 => 0x22040#64 | _ => 0x32020#64) s.hart.fstat (pfxLen p))

/-- R51, R175: OLGATH fills the rows of a latch from VSTART to 63 in order: row r below VL and active receives the 128 bytes that its load
at g[a] + index r × g[a+1] finds, every other row zero; it keeps a descriptor of what it read. Where the rows lie in one page whose home serves them, it completes. A row whose load fails traps there with
VSTART r and EVAL its address, the rows below it being filled. From VSTART 64 on nothing is read; VL above 64 is illegal. -/
def Obligations.LatchGather : Prop := ∀ (p : Option Pfx) (d : BitVec 1) (a b : BitVec 5) (x : Bool) (m : BitVec 3) (s : State),
  let o := vreg b 32
  let act r := decide (r < s.hart.vl) && s.active (s.maskSel p m) (s.perPos o) r
  let addr r := s.g a + BitVec.ofNat 64 (s.elem o r) * s.g (a + 1#5)
  let load r (u : State) := u.loadFrom u.myHall true (addr r) 128 128 nrmInk [64, 64]
  let row (u : State) (r v : Nat) : State := u.onHart fun h =>
    { h with l := put (w := 1) h.l d (setField (pick (w := 1) h.l d) (1024 * r) (BitVec.ofNat 1024 v)) }
  let filled (q : Nat → State) (n : Nat) := q s.hart.vstart = s ∧ ∀ r, s.hart.vstart ≤ r → r < n →
    (act r = true → ∃ v bs, load r (q r) = (v, .bytes bs) ∧ q (r + 1) = row v r (leNat bs))
    ∧ (act r = false → q (r + 1) = row (q r) r 0)
  let kept (u : State) (n : Nat) (c : OlgathDesc) : State := u.onHart fun h => { h with ldesc := put (w := 1) h.ldesc d (some { c with reached := n }) }
  let describes (c : OlgathDesc) := c.base = s.g a ∧ c.pitch = s.g (a + 1#5) ∧ c.vl = s.hart.vl ∧ c.todo = 0#64
    ∧ ∀ r < 64, (r < s.hart.vl → (c.idx.getD r 0#32).toNat = s.elem o r) ∧ c.act.getLsbD r = act r
  (VecOk s (decide (s.hart.vl ≤ 64)) [] [o] false → s.shareCode ≠ 0#2 → s.ra = none →
    (64 ≤ s.hart.vstart → exec (.olgath p d a b x m) s = .next ((s.setVstart 0).retire (pfxLen p)))
    ∧ (s.hart.vstart < 64 → ∃ c, describes c ∧ ∀ q,
        (filled q 64 → exec (.olgath p d a b x m) s = .next (((kept (q 64) 64 c).setVstart 0).retire (pfxLen p)))
        ∧ ∀ r v t, s.hart.vstart ≤ r → r < 64 → filled q r → act r = true →
            (load r (q r) = (v, .trap t) ∨ ∃ e, load r (q r) = (v, .late e) ∧ t = e.trap (addr r)) →
            exec (.olgath p d a b x m) s = .next (((kept v r c).setVstart r).takeFault { t with pfx := p.isSome }))
    ∧ ∀ y : Nat → Xl, Settled s → let read r := s.hart.vstart ≤ r ∧ r < 64 ∧ act r = true
      (∀ r, read r → Lies s .load (addr r) 128 (y r) ∧ Serves s (y r).pa 64 false ∧ Serves s ((y r).pa + 64) 64 false
        ∧ s.windowLine s.myHall (addr r) = none ∧ s.windowLine s.myHall (addr r + 64#64) = none) →
      (∀ r r', read r → read r' → pageOf (addr r) = pageOf (addr r')) →
      ∃ t, exec (.olgath p d a b x m) s = .next t ∧ VectorDone s t p ∧ SameMem s t
        ∧ ∀ r < 64, fieldNat (pick (w := 1) t.hart.l d) (1024 * r) 1024 =
            if r < s.hart.vstart then fieldNat (pick (w := 1) s.hart.l d) (1024 * r) 1024
            else if act r = true then leNat (s.bytes (y r).pa 128) else 0)
  ∧ (64 < s.hart.vl → exec (.olgath p d a b x m) s = .next (s.takeFault { code := 3, eval := s.irWord, pfx := p.isSome }))

/-- R182, R183: ZDEP deposits each active row i below VL at g[d] + i × g[d+1]: element (i, j) times vc[i] times the scale in g[b], exact,
in slots of the size of the row's page. Its requests are posted when every row has passed its checks; a row that does not pass traps
there, those below it being posted. A base or pitch that is no multiple of 64 traps with code 7 and has no effect; a hart without a share
takes code 5 (R174); one that would post waits while it can post nothing. Where the rows lie in one page of wells, it completes. -/
def Obligations.TileDeposits : Prop := ∀ (q : Pfx) (d : BitVec 5) (z : BitVec 2) (b : BitVec 5) (m : BitVec 3) (s : State),
  let o := vreg q.c 32
  let base := s.g d
  let pitch := s.g (d + 1#5)
  let act i := s.active (s.maskSel (some q) m) (s.perPos o) i
  let addr i := base + BitVec.ofNat 64 i * pitch
  let addend i j := (mulVal (mulVal (Fmt.fp32.value (tileElem s.tileCols (s.tile z) i j)) (Fmt.fp32.value (s.elem o i))).1
    (Fmt.fp32.value ((s.g b).toNat % 2 ^ 32))).1
  let run := RowsDeposited s act addr addend
  let waits := s.postFull = true ∧ FirstIssues s (s.maskSel (some q) m) (s.perPos o) 64 .store wellClasses addr
  (s.shareCode = 0#2 → exec (.zdep q d z b m) s = .next (s.takeTrap { code := 5, pfx := true }))
  ∧ (VecOk s (decide (s.hart.vl ≤ s.tileRows)) [] [o] false → s.shareCode ≠ 0#2 → s.ra = none →
    (base.toNat % 64 = 0 ∧ pitch.toNat % 64 = 0 →
      (waits → exec (.zdep q d z b m) s = .next s)
      ∧ (¬waits → (∀ u l, run (upTo s.hart.vstart s.hart.vl) (s, []) (u, l) →
        exec (.zdep q d z b m) s = .next (((l.foldl State.post u).setVstart 0).retire 8#64))
      ∧ ∀ i u l v t, s.hart.vstart ≤ i → i < s.hart.vl → run (upTo s.hart.vstart i) (s, []) (u, l) → act i = true →
          u.reach u.myHall .store (addr i) 64 64 wellClasses = (v, .error t) →
          exec (.zdep q d z b m) s = .next (((l.foldl State.post v).setVstart i).takeFault { t with pfx := true }))
      ∧ ∀ (y : Nat → Nat → Xl) cls, Settled s → wellClasses cls = true →
        let n := slotBytes (some cls)
        let lines := s.tileCols / (64 / n)
        let els := activeElems s (s.maskSel (some q) m) (s.perPos o)
        let at' i j := addr i + BitVec.ofNat 64 (64 * j)
        (∀ i ∈ els, ∀ j < lines, canonical (at' i j) = true ∧ s.hartXlate s.myHall .store (at' i j) 64 = .ok (y i j) ∧ (y i j).cls = cls
          ∧ s.elemHall 0 j = s.myHall ∧ ∀ i' ∈ els, ∀ j' < lines, pageOf (at' i j) = pageOf (at' i' j')) →
        ∃ t, exec (.zdep q d z b m) s = .next t ∧ VectorDone s t (some q) ∧ t.hart.v = s.hart.v ∧ t.hart.z = s.hart.z
          ∧ (els.length * lines ≤ 256 → SameMem s t ∧ t.hart.posted = els.flatMap fun i => (List.range lines).map fun j =>
              requestTo s (at' i j) (y i j).pa 64 (.deposit (cls == .wlf) ((y i j).pa / 64)
                ((List.range (64 / n)).map fun e => (e, addend i (j * (64 / n) + e))))))
    ∧ (¬(base.toNat % 64 = 0 ∧ pitch.toNat % 64 = 0) → exec (.zdep q d z b m) s = .next (s.takeFault
        { code := 7, eval := if base.toNat % 64 = 0 then base + pitch else base, pfx := true })))

/-- R186 to R188, R190 to R194, R263, R264: COPY, COLL, FLIGHT and IXG, out of run-ahead, read their record at g[a], 64 bytes or 128 for a
flight, aligned to its size, and hand it over: a command of the hart's VF, hall, unit and mode, with the scope, the acquire and release
forms, and, for COLL and FLIGHT, the rank in bits 15:0 of g[b]. A COLL, or a flight that reduces, joins the collective of its key. A
record outside its limits, or a collective whose rank is there already on its die, ends with CAUSE 5 before it begins. A record that is
not read traps; a full counter or queue waits. Where the record lies in one page whose home serves it, the command is issued. -/
def Obligations.EngineCommandsIssue : Prop := ∀ (a b : BitVec 5) (sc : BitVec 3) (acq rel : Bool) (k : BitVec 3) (s : State),
  let issues (i : Instr) (op : BitVec 3) (n rank : Nat) := s.ra = none → Scoped s sc →
    (∀ u x, s.reach s.myHall .load (s.g a) n n onlyNrm = (u, .ok (some x)) →
      (s.counterFull k = true ∨ s.queueFull op = true → exec i s = .next u)
      ∧ (s.counterFull k = false → s.queueFull op = false →
        (∀ v bs, u.loadAt (s.g a) n n onlyNrm (List.replicate (n / 64) 64) = (v, .bytes bs) →
          let run := v.scopeRun sc
          let v := if acq then (v.demote sc).settleScope run else v.demote sc
          let c := Begun v op (leWords bs (n / 8)) rank run acq rel k
          ∃ c' w t, exec i s = .next t ∧ { w with colls := v.colls } = v ∧ c'.id = c.id ∧ c'.words = c.words
            ∧ Issued { w with cmds := v.cmds ++ [c'], nextId := v.nextId + 1, fresh := v.fresh + 2 } v.nextId k t
            ∧ (c.recordOk = false → w = v ∧ c'.live = false ∧ ∃ f, c'.fail = some f ∧ f.cause = 5#4)
            ∧ ((∃ d ∈ v.cmds, v.twin c d = true ∧ d.hall.toNat / 2 = c.hall.toNat / 2) → c'.live = false ∧ ∃ f, c'.fail = some f ∧ f.cause = 5#4)
            ∧ (c.recordOk = true → (∀ d ∈ v.cmds, v.twin c d = false) →
                (c.inRun = false → w = v ∧ c' = c)
                ∧ (c.inRun = true → (∀ r ∈ v.colls, r.flit = none) → { c' with run := c.run } = c ∧ ∃ r ∈ w.colls, r.id = c'.run ∧ c.rank ∈ r.joined)))
        ∧ ∀ v e, u.loadAt (s.g a) n n onlyNrm (List.replicate (n / 64) 64) = (v, .late e) → exec i s = .next (v.takeFault (e.trap (s.g a)))))
    ∧ (∀ u t, s.reach s.myHall .load (s.g a) n n onlyNrm = (u, .error t) → exec i s = .next (u.takeFault t))
    ∧ ∀ x, Settled s → s.counterFull k = false → s.queueFull op = false → Lies s .load (s.g a) n x →
        (∀ j < n / 64, Serves s (x.pa + 64 * j) 64 false) →
        ∃ c t, exec i s = .next t ∧ c ∈ t.cmds ∧ c.id = s.nextId ∧ c.op = op ∧ c.rank = rank ∧ c.k = k
          ∧ c.words = leWords (s.bytes x.pa n) (n / 8) ∧ (∀ r, t.g r = s.g r) ∧ SameMem s t
          ∧ (k ≠ 0#3 → t.hart.pc = s.hart.pc + 4#64 ∧ t.hart.wait = s.hart.wait)
          ∧ (k = 0#3 → t.hart.pc = s.hart.pc ∧ t.hart.wait = some (.engine s.nextId))
  let rank := (s.g b).toNat % 2 ^ 16
  issues (.copy a sc acq rel k) 0#3 64 0 ∧ issues (.coll a b sc acq rel k) 1#3 64 rank
  ∧ issues (.flight a b sc acq rel k) 2#3 128 rank ∧ issues (.ixg a sc acq rel k) 3#3 64 0

/-- R195, R196: ROWIN of a range of whole lines, 64 bytes to 16 MiB, performs what the hart has posted and opens the lowest free window n of
the hall where its bytes fit: g[d] receives 64 × the hall + n, and the command that fills it counts on k. Without room, or with another
length, g[d] is all ones and nothing else happens; a base that is no multiple of 64 traps with code 7. ROWOUT closes the window of its
own VF that a handle names and changes nothing else; ROWIN_FILL_DONE fills the lines that are not filled and ends the command, whose
lines are settled. -/
def Obligations.Windows : Prop := ∀ (d a b : BitVec 5) (sc k : BitVec 3) (s : State),
  let base := s.g a
  let len := (s.g b).toNat
  let handle := (s.g a).toNat
  let sound := len % 64 = 0 ∧ 64 ≤ len ∧ len ≤ 2 ^ 24
  let number (n : Nat) := BitVec.ofNat 64 (s.myHall.toNat * 64 + n)
  (s.ra = none →
    (base.toNat % 64 ≠ 0 → exec (.rowin d a b sc k) s = .next (s.takeTrap { code := 7, eval := base }))
    ∧ (base.toNat % 64 = 0 → Scoped s sc →
      (¬sound ∨ (s.hall s.myHall).freeWindow len = none → exec (.rowin d a b sc k) s = .next ((s.setG d (BitVec.allOnes 64)).retire 4#64))
      ∧ (sound → ∀ n, (s.hall s.myHall).freeWindow len = some n →
        (s.counterFull k = true → exec (.rowin d a b sc k) s = .next s)
        ∧ (s.counterFull k = false →
          let u := (s.demote sc).settleAll
          let c : Cmd := { Begun u 4#3 [base, s.g b] 0 (s.scopeRun sc) true false k with
            window := u.myHall.toNat * 64 + n, done := List.range (len / 64) }
          (∀ v l, LinesTranslated c base (List.range (len / 64)) u v l →
            let w := v.onHall u.myHall fun x => { x with windows := alSet n { base := base, len := len, vf := v.myVf, lines := l } x.windows }
            ∃ t, exec (.rowin d a b sc k) s = .next t
              ∧ Issued (({ w with cmds := w.cmds ++ [c], nextId := w.nextId + 1 } : State).setG d (number n)) c.id k t)
          ∧ ∀ x, Settled s → canonical base = true → (s.hart.mode = .p ∨ s.inAlias s.myVf base = false) →
              base.toNat / 65536 = (base.toNat + len - 1) / 65536 → s.translate s.who s.myHall s.hart.mode .load base = .ok x → x.cls = .nrm →
              s.neverCached x.pa = false →
              ∃ t w, exec (.rowin d a b sc k) s = .next t ∧ OnlyG s t d (number n) ∧ SameMem s t
                ∧ (k ≠ 0#3 → t.hart.pc = s.hart.pc + 4#64) ∧ alFind n (t.hall s.myHall).windows = some w ∧ w.base = base ∧ w.len = len
                ∧ w.vf = s.myVf
                ∧ w.lines = (List.range (len / 64)).map fun i => { va := base.toNat / 64 + i, pa := x.pa / 64 + i, line := .unfilled }))))
  ∧ (∀ (x : Hall) (m n : Nat), x.freeWindow m = some n → n < 64 ∧ alFind n x.windows = none
      ∧ (x.windows.map (·.2.len)).sum + m ≤ 2 ^ 24 ∧ ∀ i < n, alFind i x.windows ≠ none)
  ∧ (s.ra = none → handle < 1024 → ∃ t : State, exec (.rowout a) s = .next (t.retire 4#64) ∧ { t with halls := s.halls } = s
      ∧ (t.hall (BitVec.ofNat 4 (handle / 64))).windows
          = (s.hall (BitVec.ofNat 4 (handle / 64))).windows.filter fun p => !(p.1 == handle % 64 && p.2.vf == s.myVf)
      ∧ ∀ h, h ≠ BitVec.ofNat 4 (handle / 64) → t.hall h = s.hall h)
  ∧ (1024 ≤ handle → exec (.rowout a) s = .next (s.retire 4#64))
  ∧ ∀ i c, s.cmd? i = some c → c.op = 4#3 →
      exec (.rowinFillDone i) s = .next (s.fillWindow c) ∧ (c.open = [] → (s.fillWindow c).cmd? c.id = none)

/-- R88, R89, R154, R165: the error response of a request that failed enters the store-error queue of 256 entries where it has room; the trap that the queue owes is taken
between instructions, unless the set it needs is busy: code 14, deferred, with the address of the first failing element, whose bytes leave
the entry. A completion lowers its counter by one, which keeps the first status that is not zero. -/
def Obligations.StoreErrorsAndCompletions : Prop := ∀ (s : State) (i : Nat),
  (∀ p, s.hart.posted[i]? = some p → p.failed = true →
    (p.also = [] → p.mask ≠ 0#64 → p.report = [{ va := p.va, lsz := p.lsz, mask := p.mask }])
    ∧ (s.hart.seq.length + p.report.length ≤ 256 → exec (.storeErrorResponse i) s = .next
        { s with hart := { s.hart with posted := s.hart.posted.eraseIdx i, seq := s.hart.seq ++ p.report } })
    ∧ (256 < s.hart.seq.length + p.report.length → exec (.storeErrorResponse i) s = .next s))
  ∧ (∀ p, s.hart.posted[i]? = some p → p.failed = false → exec (.storeErrorResponse i) s = .next s)
  ∧ (∀ e r n, s.hart.stopped = false → s.hart.wait = none → s.ra = none → s.storeErrorHeld = false → s.hart.seq = e :: r → n < 64 →
      e.mask.getLsbD n = true → (∀ j < n, e.mask.getLsbD j = false) →
      let size := 2 ^ e.lsz.toNat
      let first := n / size * size
      ∃ rest : BitVec 64, (∀ j < 64, rest.getLsbD j = (e.mask.getLsbD j && decide (first + size ≤ j)))
        ∧ exec .storeErrorTrap s = .next
            (({ s with hart := { s.hart with seq := if rest = 0#64 then r else { e with mask := rest } :: r } } : State).takeTrap
              { code := 14, eval := BitVec.ofNat 64 (e.va.toNat / 64 * 64 + first), deferred := true }))
  ∧ (s.hart.seq = [] → exec .storeErrorTrap s = .next s)
  ∧ (s.ra.isSome = true → exec .storeErrorTrap s = .next s)
  ∧ (s.storeErrorHeld = true → exec .storeErrorTrap s = .next s)
  ∧ ∀ o, (s.hart.vops.find? fun o => o.id == i) = some o → o.k ≠ 0#3 → ∃ t, exec (.vectorMemoryCompletion i) s = .next t
      ∧ t.hart.vops = s.hart.vops.filter (fun x => x.id != o.id)
      ∧ (t.counter o.k).count = (s.counter o.k).count - 1
      ∧ (o.status = 0#4 → (t.counter o.k).err = (s.counter o.k).err ∧ (t.counter o.k).status = (s.counter o.k).status)
      ∧ (o.status ≠ 0#4 → (t.counter o.k).err = true
          ∧ (t.counter o.k).status = if (s.counter o.k).err then (s.counter o.k).status else o.status)
      ∧ (∀ j, j ≠ o.k → t.counter j = s.counter j) ∧ SameMem s t
      ∧ ∀ fr, o.seals = some fr → (s.inkPage (fr * 65536)).st = .sealing → (t.inkPage (fr * 65536)).st = .sealed

/-- R255, R257, R258: the oldest step that waits for a resident line is applied; an absent line begins to fill; a fill makes it resident, with
poison where it failed; an eviction needs an empty queue; a write-back that failed leaves poison, and a queue starts a new fill. Mapping a
page for wells clears its 64 KiB and the headers of its lines, which take WLF from the class, and changes no other byte. -/
def Obligations.WellLineEvents : Prop := ∀ (s : State) (line : Word) (ok wlf : Bool),
  let n := line.toNat / 64
  let w := s.wellLine n
  let base := line.toNat / 65536 * 65536
  (∀ i, w.res = .resident → OldestFor s n i → exec (.wellLineStep line) s = exec (.postedWritePerformed i) s)
  ∧ (∀ i, w.res = .absent → OldestFor s n i → ∃ t, exec (.wellLineStep line) s = .next t ∧ WellBecomes s t n { w with res := .filling })
  ∧ (NothingFor s n → exec (.wellLineStep line) s = .next s)
  ∧ (w.res = .filling → (∀ p ∈ s.hart.posted, p.pa / 64 ≠ n) →
      (∃ t, exec (.wellLineFill line false) s = .next t ∧ WellBecomes s t n { w with res := .resident })
      ∧ ∃ t, exec (.wellLineFill line true) s = .next t ∧ WellBecomes { s with halls := t.halls } t n { w with res := .resident, pois := true })
  ∧ (w.res = .resident → NothingFor s n → ∃ t, exec (.wellLineEvict line) s = .next t ∧ WellBecomes s t n { w with res := .writing })
  ∧ (w.res = .resident → (∃ i, OldestFor s n i) → exec (.wellLineEvict line) s = .next s)
  ∧ (w.res = .writing → ∃ t, exec (.wellLineWriteback line ok) s = .next t ∧ n ∉ t.dirty
      ∧ (NothingFor s n → WellBecomes { s with dirty := t.dirty } t n { w with res := .absent, pois := w.pois || !ok })
      ∧ ∀ i, OldestFor s n i → WellBecomes { s with dirty := t.dirty } t n { w with res := .filling, pois := w.pois || !ok })
  ∧ (s.Inv → s.inWells base = true → ∃ t, exec (.wellPageMap line wlf) s = .next t
      ∧ (∀ a, Memory.read t.mem a = if base ≤ a ∧ a < base + 65536 then 0#8 else Memory.read s.mem a)
      ∧ (∀ l, t.wellLine l = if base / 64 ≤ l ∧ l < base / 64 + 1024
          then { e := 0#8, ov := false, nan := false, pois := false, wlf := wlf, res := .absent } else s.wellLine l)
      ∧ { t with mem := s.mem, wells := s.wells, poison := s.poison } = s)
  ∧ (s.inWells base = false → exec (.wellPageMap line wlf) s = .next s)

/-- R163, R165, R259 to R262: the states of an ink page and of its replicas. A free frame of the ink region is mapped open with an empty
tail; a seal starts sealing, which ends when no accepted append is left; freeing a page drops its translations and its copies in flight
and reclaims its replicas, and ends when no read and no replica is left. A replica of a sealed page is copied, published, reclaimed and
released in turn. -/
def Obligations.InkPageEvents : Prop := ∀ (s : State) (page : Word) (vf : BitVec 10) (hall : BitVec 4) (n : Nat) (data : List Byte),
  let pa := page.toNat
  let fr := pa / 65536
  let p := s.inkPage pa
  let mine (r : Nat × Nat × ReplicaState) := r.1 = fr ∧ r.2.1 = hall.toNat
  (s.inInk pa = true → n ∈ [1, 2, 4, 8] → data.length % n = 0 →
    exec (.tailUnitAppend page n data) s = .next (s.append (some p.vf) (homeHall pa) pa n data).1)
  ∧ (s.refusal (some p.vf) (homeHall pa) pa 1 true = none → p.epois = false →
      (p.st = .openPage → ∃ t, exec (.sealRequest page) s = .next t ∧ InkBecomes s t pa { p with st := .sealing })
      ∧ (p.st ≠ .openPage → exec (.sealRequest page) s = .next s))
  ∧ (p.st = .sealing → p.pend = 0 → ∃ t, exec (.sealingComplete page) s = .next t ∧ InkBecomes s t pa { p with st := .sealed })
  ∧ (p.st ≠ .sealing → exec (.sealingComplete page) s = .next s)
  ∧ (s.inInk pa = true → p.st = .free → ∃ t, exec (.inkFrameMap page vf) s = .next t
      ∧ InkBecomes s t pa { st := .openPage, vf := vf, tail := 0, pend := 0, rmap := 0#16, epois := p.epois, reads := 0 })
  ∧ (p.st ≠ .free → exec (.inkFrameMap page vf) s = .next s)
  ∧ (p.st ≠ .free → ∃ t, exec (.inkPageFree page) s = .next t
      ∧ InkBecomes { s with tlb := t.tlb, replicas := t.replicas, pool := t.pool } t pa { p with st := .freeing }
      ∧ (∀ e ∈ t.tlb, e ∈ s.tlb ∧ ¬(e.pte.toNat / 65536 ≤ fr ∧ fr < e.pte.toNat / 65536 + pageSize e.pte / 65536))
      ∧ ∀ r, r ∈ t.replicas ↔ if r.1 = fr then r.2.2 = .reclaiming ∧ ∃ q ∈ s.replicas, q.1 = fr ∧ q.2.1 = r.2.1 ∧ q.2.2 ≠ .copying
          else r ∈ s.replicas)
  ∧ (p.st = .freeing → p.reads = 0 → p.rmap = 0#16 → ∃ t, exec (.inkFreeDrainDone page) s = .next t
      ∧ InkBecomes s t pa { st := .free, vf := 0#10, tail := 0, pend := 0, rmap := 0#16, epois := false, reads := 0 })
  ∧ (p.st = .freeing → p.reads ≠ 0 → exec (.inkFreeDrainDone page) s = .next s)
  ∧ (p.st = .sealed → s.owns (s.tenantOf p.vf) hall = true →
      (s.poolUsed hall).length < fieldNat (s.hall hall).inkcfg 48 8 * 16384 → (∀ r ∈ s.replicas, ¬mine r) →
      ∃ t k, exec (.replicaCreate page hall) s = .next t ∧ k < fieldNat (s.hall hall).inkcfg 48 8 * 16384 ∧ k ∉ s.poolUsed hall
        ∧ t = { s with replicas := (fr, hall.toNat, .copying) :: s.replicas, pool := ((fr, hall.toNat), k) :: s.pool })
  ∧ ((fr, hall.toNat, .copying) ∈ s.replicas →
      (p.epois = true ∨ s.poisoned (fr * 65536) 65536 = true → ∃ t, exec (.replicaCopyDone page hall) s = .next t
        ∧ (∀ r ∈ t.replicas, ¬mine r) ∧ { t with replicas := s.replicas, pool := s.pool } = s)
      ∧ (p.epois = false → s.poisoned (fr * 65536) 65536 = false → s.refusal none hall (fr * 65536) 65536 false = none → ∃ t,
        exec (.replicaCopyDone page hall) s = .next t
          ∧ InkBecomes { s with replicas := t.replicas, mem := t.mem } t pa { p with rmap := p.rmap ||| BitVec.ofNat 16 (2 ^ hall.toNat) }
          ∧ (fr, hall.toNat, .published) ∈ t.replicas
          ∧ (s.Inv → ∀ a, s.replicaPa fr hall = some a → ∀ i < 65536, Memory.read t.mem (a + i) = Memory.read s.mem (fr * 65536 + i))))
  ∧ (∃ t, exec (.replicaReclaim page hall) s = .next t ∧ { t with replicas := s.replicas } = s
      ∧ ((fr, hall.toNat, .published) ∈ s.replicas → (fr, hall.toNat, .reclaiming) ∈ t.replicas)
      ∧ ∀ r, ¬mine r → (r ∈ t.replicas ↔ r ∈ s.replicas))
  ∧ ((fr, hall.toNat, .reclaiming) ∈ s.replicas → ∃ t, exec (.replicaReclaimDone page hall) s = .next t
      ∧ InkBecomes { s with replicas := t.replicas, pool := t.pool } t pa { p with rmap := p.rmap &&& ~~~BitVec.ofNat 16 (2 ^ hall.toNat) }
      ∧ ∀ r, r ∈ t.replicas ↔ r ∈ s.replicas ∧ ¬mine r)

/-- R298 to R310: the dispatcher's events. A TAIL that goes forward and fits the ring is taken, any other is logged and ignored; a QCFG write
keeps the fields of Table 20.1, within their bounds and the tenant's halls, and LOG2SLOTS as it was while EN was 1. The record at HEAD is admitted: its launch is ready, where it
names no graph, and its word says running; one that cannot be read, or whose fields are outside their ranges, moves HEAD on and is
counted. A launch of which every unit has ended, or that places no more and has no unit left, leaves with its word at complete, complete-with-error or
cancelled. A step places a group of the offered launch; a queue whose head waits AGE is boosted, and receives its credit where it enters a
level; a unit of a cancelled launch is killed. -/
def Obligations.Dispatching : Prop := ∀ (s : State) (vf : BitVec 10) (q : BitVec 7) (tail : BitVec 32) (value : Word)
    (serial : BitVec 32) (unit : Nat) (hall : BitVec 4),
  let x := (s.vf vf).queue q
  let ahead := (tail - x.head).toNat
  let key : UnitKey := { vf := vf, serial := serial, idx := unit }
  (ahead ≤ x.slots → (x.tail - x.head).toNat ≤ ahead →
      ∃ t, exec (.qptrTailWrite vf q tail) s = .next t ∧ QueueBecomes s t vf q { x with tail := tail })
  ∧ (x.slots < ahead ∨ ahead < (x.tail - x.head).toNat →
      ∃ t, exec (.qptrTailWrite vf q tail) s = .next t ∧ (t.vf vf).queue q = x ∧ { t with halls := s.halls } = s)
  ∧ (∃ t cfg, exec (.qcfgWrite vf q value) s = .next t ∧ QueueBecomes s t vf q { x with cfg := cfg }
      ∧ cfg.getLsbD 63 = value.getLsbD 63 ∧ fieldNat cfg 48 8 = max 1 (fieldNat value 48 8)
      ∧ (∀ h : BitVec 4, cfg.getLsbD (32 + h.toNat) = (value.getLsbD (32 + h.toNat) && s.owns (s.tenantOf vf) h))
      ∧ fieldNat cfg 28 4 = fieldNat value 28 4
      ∧ fieldNat cfg 24 4 = (if x.cfg.getLsbD 63 then fieldNat x.cfg 24 4 else max 4 (fieldNat value 24 4))
      ∧ fieldNat cfg 8 12 = fieldNat value 8 12 ∧ fieldNat cfg 0 3 = fieldNat value 0 3 ∧ cfg &&& 0x7F00000000F000F8#64 = 0#64)
  ∧ (s.queueOpen vf x = true → x.head ≠ x.tail →
      (∀ e, s.translate (some vf) x.home .s .load (x.slotVa x.head) = .error e → ∃ t, exec (.launchAdmission vf q) s = .next t
        ∧ (t.vf vf).queue q = { x with head := x.head + 1 } ∧ (t.vf vf).rej = min 65535 ((s.vf vf).rej + 1) ∧ t.launches = s.launches
        ∧ SameMem s t)
      ∧ ∀ a bs, s.translate (some vf) x.home .s .load (x.slotVa x.head) = .ok a → a.cls = .nrm →
          s.readHome (some vf) x.home a.pa 128 false = .ok bs →
          let l : Launch := { vf := vf, serial := q ++ x.head.extractLsb' 0 25, words := leWords bs 16, st := .held, order := 0, nextGroup := 0,
                              done := 0, erru := 0, phase := 0, bar := Barrier.reset, phaseBar := Barrier.reset }
          let sound := l.fieldsOk && s.wordUsable vf x.home (wordAt l.words 6) && s.wordUsable vf x.home (wordAt l.words 7)
            && (!l.cohort || s.cohortFits l x.halls)
          l.graph = 0#16 →
            (sound = true → ∃ t l', exec (.launchAdmission vf q) s = .next t ∧ t.launches = s.launches ++ [l']
              ∧ l' = { l with st := .ready, order := s.nextId, bar := l'.bar, phaseBar := l'.phaseBar }
              ∧ (l.cohort = true → l'.bar.tgt = l.units ∧ l'.phaseBar.tgt = l.units ∧ l'.bar.arr = 0 ∧ l'.bar.members.length = l.units)
              ∧ (t.vf vf).queue q = { x with head := x.head + 1 } ∧ (t.vf vf).rej = (s.vf vf).rej
              ∧ ∃ u : State, { u with launches := s.launches, nextId := s.nextId, vfs := s.vfs } = s ∧ u.launches = t.launches
                  ∧ t = u.writeLaunchWord l' 1)
            ∧ (sound = false → ∃ t, exec (.launchAdmission vf q) s = .next t ∧ t.launches = s.launches
              ∧ (t.vf vf).queue q = { x with head := x.head + 1 } ∧ (t.vf vf).rej = min 65535 ((s.vf vf).rej + 1)))
  ∧ (∀ l, s.launch? vf serial = some l → (∀ m ∈ s.launches, m.vf = vf → m.serial ≠ serial → m.dropped = false) → l.graph = 0#16 →
      (if l.dropped then ∀ w ∈ s.units, w.key.vf = vf → w.key.serial ≠ serial else l.units ≤ l.done) →
      let st := if l.cancelled then 4 else if l.erru = 0 then 2 else 3
      let u := s.writeLaunchWord l st
      ∃ t, exec (.launchCompletion vf serial) s = .next t ∧ t.launches = u.launches.filter (fun x => !(x.vf == vf && x.serial == serial))
        ∧ t.mem = u.mem ∧ t.hart = u.hart ∧ (t.vf vf).errl = (if st = 2 then (u.vf vf).errl else min 65535 ((u.vf vf).errl + 1)))
  ∧ (∀ l, s.launch? vf serial = some l → (if l.dropped then ∃ w ∈ s.units, w.key.vf = vf ∧ w.key.serial = serial else l.done < l.units) →
      exec (.launchCompletion vf serial) s = .next s)
  ∧ (∀ p, x.age ≠ 0 → s.queueOpen vf x = true → s.headPrio vf q = some p → ∃ t, exec (.ageBoost vf q) s = .next t
      ∧ QueueBecomes s t vf q { x with
          wait := (x.wait / x.age + 1) * x.age, boost := x.boost + 1
          credit := if min x.prio p + x.boost < 7 then x.weight else x.credit })
  ∧ (x.age = 0 ∨ s.queueOpen vf x = false ∨ s.headPrio vf q = none → exec (.ageBoost vf q) s = .next s)
  ∧ (∀ l, s.launch? vf serial = some l → l.cancelled = true →
      exec (.unitKill vf serial unit) s = .next ((s.killUnit key).endOver vf s.launches.length)
      ∧ (∀ u ∈ (s.killUnit key).units, u.key ≠ key)
      ∧ ((∃ u ∈ s.units, u.key = key) → s.hart.unit = some key →
          (s.killUnit key).hart.unit = none ∧ (s.killUnit key).hart.claim = none ∧ (s.killUnit key).ra = none))
  ∧ (∀ l, s.launch? vf serial = some l → l.cancelled = false → exec (.unitKill vf serial unit) s = .next s)
  ∧ ((∀ m ∈ s.launches, m.st ≠ .pending) → s.offers hall = [] → exec (.dispatcherStep hall) s = .next s)
  ∧ ∀ o u, (∀ m ∈ s.launches, m.st ≠ .pending) → s.offers hall = [o] → o.launch.cohort = false → o.launch.st ≠ .pending →
      s.placeOffer hall o = some u → 0 < ((s.vf o.vf).queue o.q).credit →
      ∃ t, exec (.dispatcherStep hall) s = .next t ∧ t.units = u.units ∧ t.launches = u.launches ∧ t.hart = u.hart ∧ SameMem u t
        ∧ (t.vf o.vf).queue o.q = { (u.vf o.vf).queue o.q with credit := ((u.vf o.vf).queue o.q).credit - 1, boost := 0, wait := 0 }

/-- R59, R69, R94, R123, R221, R318, R322 to R324, R328: saved contexts, and instructions that are left part-way. -/
def Obligations.SavedContexts : Prop :=
  Sys2Proof.Machine.SavedContexts ∧ LeftPartWay

/-- R342 to R345, R397, R404, R405: the states of a hall, its lane caps, and HCTL. -/
def Obligations.HallsLanesAndHarts : Prop :=
  HallLifecycle ∧ LanesAndHarts

/-- R115, R337 to R339, R348, R349, R394: what requests to a hall's registers do. -/
def Obligations.HallControls : Prop :=
  GalleryWindows ∧ HallRequests

/-- R50, R311, R351, R352, R353: a VF reset, unless one is in progress, ends every unit of the VF and its launches, empties its queues, drains
or abandons what its hart has posted, and drops its translations, windows, landings and held accesses; it is complete once none of its commands is left, and a flit that was not acknowledged
ends its command and is counted. VFVCAP keeps a power of two from 512 to 8192; a guarantee above a port's width is a shortfall. -/
def Obligations.VfControls : Prop := ∀ (s : State) (v : BitVec 10) (value : Word) (h port guar : BitVec 4) (i : Nat),
  let x := s.vf v
  let cap := fieldNat value 0 14
  (x.rstBusy = false → ∃ t, exec (.vfReset v) s = .next t ∧ (t.vf v).rstBusy = true
      ∧ (t.vf v).abnd.toNat ≤ (s.hart.posted.filter fun p => p.who == some v).length ∧ (∀ p ∈ t.hart.posted, p.who ≠ some v)
      ∧ (∀ u ∈ t.units, u.key.vf ≠ v) ∧ (∀ l ∈ t.launches, l.vf ≠ v)
      ∧ (∀ q, ((t.vf v).queue q).head = ((t.vf v).queue q).tail) ∧ (∀ e ∈ t.tlb, e.space ≠ some v) ∧ (∀ e ∈ t.walks, e.space ≠ some v)
      ∧ ∀ k, (∀ p ∈ (t.hall k).windows, p.2.vf ≠ v) ∧ (∀ p ∈ (t.hall k).landings, p.2.vf ≠ v) ∧ ∀ p ∈ (t.hall k).held, p.vf ≠ v)
  ∧ (x.rstBusy = true → exec (.vfReset v) s = .next s)
  ∧ (x.rstBusy = true → (∀ c ∈ s.cmds, c.vf ≠ v) → ∃ t, exec (.vfResetComplete v) s = .next t
      ∧ t.vf v = { x with rstBusy := false, evt := x.evt ||| 8#64 } ∧ (∀ w, w ≠ v → t.vf w = s.vf w) ∧ { t with vfs := s.vfs } = s)
  ∧ ((∃ c ∈ s.cmds, c.vf = v) → exec (.vfResetComplete v) s = .next s)
  ∧ (∀ c, s.cmd? i = some c → c.vf = v → x.rstBusy = true → c.live = true → ∃ t u : State, exec (.vfResetFlitTimeout v i) s = .next t
      ∧ u = (s.onCmd i Cmd.abandon).completeCmd i ∧ (t.vf v).abnd = (u.vf v).abnd + 1 ∧ { t with vfs := u.vfs } = u
      ∧ ∃ f, (Cmd.abandon c).fail = some f ∧ f.cause = 8#4 ∧ (Cmd.abandon c).live = false)
  ∧ (∃ t n, exec (.vfvcapWrite v value) s = .next t ∧ t.vf v = { x with vcap := n } ∧ (∀ w, w ≠ v → t.vf w = s.vf w) ∧ { t with vfs := s.vfs } = s
      ∧ (cap < 1024 → n = 512) ∧ (8192 ≤ cap → n = 8192)
      ∧ (512 ≤ cap → cap < 8192 → n ≤ cap ∧ cap < 2 * n ∧ n ∈ [512, 1024, 2048, 4096, 8192]))
  ∧ (port.toNat < 9 → ∃ t, exec (.portcfgGuarWrite h port guar) s = .next t ∧ s.port h port.toNat = { t.port h port.toNat with guar := (s.port h port.toNat).guar }
      ∧ (t.port h port.toNat).guar = guar ∧ (∀ p, p ≠ port.toNat → t.port h p = s.port h p) ∧ SameMem s t
      ∧ (guar ≤ (s.port h port.toNat).width → t.vfs = s.vfs)
      ∧ ((s.port h port.toNat).width < guar → (s.hall h).tenant ≠ 0#16 → ∀ w, (s.vf w).tenant = (s.hall h).tenant →
          (t.vf w).evt.getLsbD 0 = true ∧ fieldNat (t.vf w).evt 8 8 = (h.toNat * 9 + port.toNat) % 256))

/-- R353, R378 to R382, R399: an external port trains to a state that its width, the peer's tenant and the keys at both ends give, and a width
below its guarantee is a shortfall; it accepts only the next flit, under
the slot that it expects and with a tag that verifies; NAK sends again from a number on, ACK drops what was received; eight NAKs in a row of one
flit have it retrain; retraining that fails, or a key that ran out, takes the circuit down; a switch sends a marker under the old slot; a packet goes out on one of the ports toward its
chip. A key record that verifies loads a slot that is not in use, any other is logged. -/
def Obligations.ExternalPorts : Prop := ∀ (s : State) (h port width : BitVec 4) (chip : BitVec 12) (peer : PeerPort) (type : BitVec 8) (tenant : BitVec 16)
    (seq : BitVec 48) (slot : Bool) (hops line : Nat) (bytes : List Byte),
  let p := s.port h port.toNat
  let n := port.toNat
  let active := if p.kact then 1 else 0
  let sent := (p.sendCount[active]?).getD 0
  let down : ExtPort := { p with down := true, replay := [], kpend := false }
  let first := BitVec.ofNat 64 (leNat (bytes.take 8))
  let named := fieldNat first 44 8
  let good := bytes.length = 128 ∧ first.extractLsb' 52 12 = s.chip ∧ named < 144
    ∧ Config.ed25519Verify s.image.operatorKey (leBytes 64 (Config.sha512 (bytes.take 64)).toNat)
        (BitVec.ofNat 512 (leNat ((bytes.drop 64).take 64))) = true
  (n < 9 →
    (width.toNat ≤ 8 → peer.port.toNat < 144 →
      ∃ t, exec (.extPortTrain h port width chip peer tenant) s = .next t ∧ PortBecomes { s with vfs := t.vfs } t h n
        { p with
          width := width, peerChip := chip, peerPort := peer.port, lat := peer.lat, down := false, naks := 0
          state := if width = 0#4 then 0#4 else if tenant ≠ (s.hall h).tenant then 4#4
            else if p.loaded.getLsbD active ∧ peer.keyed then 2#4 else 3#4 }
        ∧ (p.guar ≤ width → t.vfs = s.vfs)
        ∧ (width < p.guar → (s.hall h).tenant ≠ 0#16 → ∀ v, (s.vf v).tenant = (s.hall h).tenant → (t.vf v).evt.getLsbD 0 = true))
    ∧ (8 < width.toNat ∨ 144 ≤ peer.port.toNat → exec (.extPortTrain h port width chip peer tenant) s = .next s)
    ∧ (∃ t, exec (.extFlitReceive h port seq slot type false) s = .next t
        ∧ PortBecomes s t h n { p with tagfail := counted32 p.tagfail 1 })
    ∧ (seq.toNat = p.expect → slot = p.rslot → ∃ t, exec (.extFlitReceive h port seq slot type true) s = .next t
        ∧ PortBecomes s t h n { p with expect := p.expect + 1, rslot := if type = 1#8 then !p.rslot else p.rslot })
    ∧ (seq.toNat ≠ p.expect ∨ slot ≠ p.rslot → ∃ t, exec (.extFlitReceive h port seq slot type true) s = .next t ∧ PortBecomes s t h n p)
    ∧ (let again := p.replay.filter fun f => decide (seq.toNat ≤ f.1)
       ∃ t b, exec (.nakReceived h port seq) s = .next t
        ∧ PortBecomes s t h n { p with
            retry := counted32 p.retry again.length, kpend := b, replay := again
            naks := if p.replay.head?.map (·.1) = some seq.toNat then p.naks + 1 else 1 }
        ∧ (b = true ↔ p.kpend = true ∧ ∀ f ∈ p.replay, f.1 < seq.toNat → f.2 = false))
    ∧ (∃ t k b, exec (.ackReceived h port seq) s = .next t
        ∧ PortBecomes s t h n { p with replay := p.replay.filter (fun f => decide (seq.toNat < f.1)), naks := k, kpend := b }
        ∧ (b = true ↔ p.kpend = true ∧ ∀ f ∈ p.replay, f.1 ≤ seq.toNat → f.2 = false))
    ∧ (p.naks < 8 → ∃ t, exec (.portRetrain h port) s = .next t ∧ PortBecomes s t h n p)
    ∧ (8 ≤ p.naks → ∃ t, exec (.portRetrain h port) s = .next t
        ∧ PortBecomes s t h n { p with state := 1#4, naks := 0, retrains := if p.retrains = 255#8 then 255#8 else p.retrains + 1 })
    ∧ (p.state = 1#4 → ∃ t, exec (.retrainTimeout h port) s = .next t ∧ t.port h n = { down with state := 0#4 }
        ∧ SomeBecome s t (s.onCircuit h) Cmd.lose ∧ SameMem s t)
    ∧ (p.state ≠ 1#4 → exec (.retrainTimeout h port) s = .next s)
    ∧ (p.state = 5#4 → ∃ t, exec (.keyExhaustedTimeout h port) s = .next t ∧ t.port h n = down
        ∧ SomeBecome s t (s.onCircuit h) Cmd.lose ∧ SameMem s t)
    ∧ (p.state ≠ 5#4 → exec (.keyExhaustedTimeout h port) s = .next s)
    ∧ (p.kpend = true → ∃ t, exec (.epkctlSwitch h port) s = .next t ∧ PortBecomes s t h n p)
    ∧ (p.kpend = false → ∃ t x, exec (.epkctlSwitch h port) s = .next t ∧ PortBecomes s t h n x ∧ x.replay = p.replay ++ [(p.sendSeq, true)]
        ∧ x.sendSeq = p.sendSeq + 1 ∧ x.kact = !p.kact ∧ x.kpend = true ∧ (x.sendCount[active]?).getD 0 = sent + 1 ∧ x.keys = p.keys)
    ∧ (∃ t, exec (.keyLow h port) s = .next t ∧ PortBecomes s t h n { p with keylow := p.keylow || decide (2 ^ 46 ≤ sent) })
    ∧ (∃ t, exec (.keyExhausted h port) s = .next t ∧ PortBecomes s t h n { p with state := if 2 ^ 47 ≤ sent then 5#4 else p.state }))
  ∧ (16 ≤ hops ∨ chip = s.chip ∨ s.routePorts h chip = [] → exec (.fabricPacketForward h chip hops line) s = .next s)
  ∧ (hops < 16 → chip ≠ s.chip → s.routePorts h chip ≠ [] → ∃ t i, exec (.fabricPacketForward h chip hops line) s = .next t
      ∧ i ∈ s.routePorts h chip ∧ (8192 ≤ (s.port h i).replay.length → t.port h i = s.port h i)
      ∧ ((s.port h i).replay.length < 8192 → (t.port h i).replay = (s.port h i).replay ++ [((s.port h i).sendSeq, false)]
          ∧ (t.port h i).sendSeq = (s.port h i).sendSeq + 1)
      ∧ ∀ q, q ≠ i → t.port h q = s.port h q)
  ∧ (good →
      let k := BitVec.ofNat 4 (named / 9)
      let x := s.port k (named % 9)
      let sl := first.getLsbD 43
      let m := if sl then 1 else 0
      ((sl ≠ x.kact ∧ x.kpend = false) → ∃ t, exec (.keyRecord bytes) s = .next t ∧ PortBecomes s t k (named % 9) { x with
          keys := x.keys.setIfInBounds m (BitVec.ofNat 256 (leNat ((bytes.drop 8).take 32)))
          salts := x.salts.setIfInBounds m (first.extractLsb' 0 32), sendCount := x.sendCount.setIfInBounds m 0
          loaded := x.loaded ||| BitVec.ofNat 2 (2 ^ m) })
      ∧ (¬(sl ≠ x.kact ∧ x.kpend = false) → ∃ t, exec (.keyRecord bytes) s = .next t ∧ PortBecomes s t k (named % 9) x))
  ∧ (¬good → ∃ t, exec (.keyRecord bytes) s = .next t ∧ { t with halls := s.halls } = s
      ∧ ∀ k q, t.port k q = s.port k q)

/-- R274, R354 to R356, R359, R362, R376, R377, R383, R384: a dark wavelength is relayed over the lowest die that both can reach, or the pair is lost,
with the span positions across it; the collectives and flights that had a transfer on it are marked when it goes dark, and the pairs that were
relayed over it wait for another relay; relit, it serves again. A time flit records its offset and steps the clock forward only for a lag above
10 µs. A host port trains to a generation and a width that links have, to CXL only with cache and memory and else to PCIe only, which holds no
copy of a line, or goes down with everything in flight on it failed; a snoop downgrades or drops a line; a
CXL.mem write through a window lands at its home unless that is a well or an ink page; a request that is refused is logged. -/
def Obligations.FabricAndHosts : Prop := ∀ (s : State) (die w dst : BitVec 3) (offset : Int) (port mode : BitVec 2) (gen : BitVec 4)
    (width : BitVec 8) (cache mem inval : Bool) (pa addr data : Word),
  let f := s.fabric
  let bit' (v : Vector (BitVec 8) 8) (a b : BitVec 3) := (pick (w := 3) v a).getLsbD b.toNat
  let only (v u : Vector (BitVec 8) 8) (a b : BitVec 3) (x : Bool) := ∀ c d, bit' u c d = if c = a ∧ d = b then x else bit' v c d
  let hop r := r ≠ die ∧ r ≠ dst ∧ bit' f.dark die r = false ∧ bit' f.dark r dst = false
  let relay a b r := (r ≠ a ∧ r ≠ b ∧ bit' f.dark a r = false ∧ bit' f.dark r b = false)
    ∧ ∀ q < r, ¬(q ≠ a ∧ q ≠ b ∧ bit' f.dark a q = false ∧ bit' f.dark q b = false)
  let viaHop a b := ∃ r, relay a b r ∧ ((a = die ∧ r = die + w) ∨ (r = die ∧ b = die + w))
  let trains := 1 ≤ gen.toNat ∧ gen.toNat ≤ 6 ∧ width.toNat ∈ [1, 2, 4, 8, 16]
  let cxl := decide (mode = 2#2) && cache && mem
  let p := pick (w := 2) s.hostPorts port
  let portIs (t : State) (x : HostPort) := pick (w := 2) t.hostPorts port = x
    ∧ (∀ q, q ≠ port → pick (w := 2) t.hostPorts q = pick (w := 2) s.hostPorts q)
  let behind (a : Nat) := paTarget a == 6 && paDie a == port.setWidth 3 && paChip a == s.chip
  (∃ t, exec (.wavelengthDark die w) s = .next t ∧ only f.dark t.fabric.dark die (die + w) true
    ∧ { t with fabric := { t.fabric with dark := f.dark, relayed := f.relayed }, cmds := s.cmds, fresh := s.fresh } = s
    ∧ (∀ a b, (viaHop a b → bit' t.fabric.relayed a b = false) ∧ (¬viaHop a b → bit' t.fabric.relayed a b = bit' f.relayed a b))
    ∧ SomeBecome s t (fun c => c.live) (fun c => { c with lostAt := some (die, die + w) })
    ∧ (w = 0#3 ∨ bit' f.dark die (die + w) = true → t.cmds = s.cmds))
  ∧ (∃ t, exec (.wavelengthRelit die w) s = .next t ∧ only f.dark t.fabric.dark die (die + w) false
      ∧ only f.relayed t.fabric.relayed die (die + w) false ∧ only f.lost t.fabric.lost die (die + w) false ∧ { t with fabric := f } = s)
  ∧ (bit' f.dark die dst = false ∨ die = dst → exec (.relayEstablished die dst) s = .next s)
  ∧ (bit' f.dark die dst = true → die ≠ dst →
      ((∃ r, hop r) → ∃ t, exec (.relayEstablished die dst) s = .next t ∧ only f.relayed t.fabric.relayed die dst true
        ∧ only f.lost t.fabric.lost die dst false ∧ { t with fabric := { t.fabric with relayed := f.relayed, lost := f.lost } } = s)
      ∧ ((∀ r, ¬hop r) → ∃ t, exec (.relayEstablished die dst) s = .next t ∧ only f.relayed t.fabric.relayed die dst false
        ∧ only f.lost t.fabric.lost die dst true ∧ t.fabric.dark = f.dark
        ∧ SpanStruck s t (fun p => (s.myHall.toNat / 2 == die.toNat && p.hall.toNat / 2 == dst.toNat)
            || (s.myHall.toNat / 2 == dst.toNat && p.hall.toNat / 2 == die.toNat))
        ∧ { t with fabric := f, hart := s.hart } = s))
  ∧ (s.ptpcfg.extractLsb' 62 2 ≠ 1#2 → exec (.ptpTimeFlit offset) s = .next s)
  ∧ (s.ptpcfg.extractLsb' 62 2 = 1#2 → ∃ t, exec (.ptpTimeFlit offset) s = .next t ∧ t.ptpOffset = BitVec.ofInt 32 offset
      ∧ t.podt = (if 10000 < offset then s.podt + BitVec.ofInt 64 offset else s.podt)
      ∧ t.ptpGood = (if -100 < offset ∧ offset < 100 then s.ptpGood + 1 else 0) ∧ (t.ptpLock = true ↔ 16 ≤ t.ptpGood)
      ∧ { t with ptpOffset := s.ptpOffset, podt := s.podt, ptpGood := s.ptpGood, ptpLock := s.ptpLock } = s)
  ∧ (exec (.hostPortTrain port 0#2 gen width cache mem) s = exec (.hostPortDown port) s)
  ∧ (mode = 3#2 ∨ (mode ≠ 0#2 ∧ ¬trains) → exec (.hostPortTrain port mode gen width cache mem) s = .next s)
  ∧ (mode ≠ 0#2 → mode ≠ 3#2 → trains → ∃ t, exec (.hostPortTrain port mode gen width cache mem) s = .next t
      ∧ portIs t { p with mode := if cxl then 2#2 else 1#2, gen := gen, width := width, cache := cxl, mem := cxl }
      ∧ { t with hostPorts := s.hostPorts, hostLines := s.hostLines } = s
      ∧ (cxl = true → t.hostLines = s.hostLines)
      ∧ (cxl = false → ∀ l, l ∈ t.hostLines ↔ l ∈ s.hostLines ∧ behind (l.line * 64) = false))
  ∧ (∃ t, exec (.hostPortDown port) s = .next t ∧ portIs t { p with mode := 0#2, gen := 0#4, width := 0#8, cache := false, mem := false }
      ∧ t.hart = { s.hart with posted := s.hart.posted.map fun q => if behind q.pa then { q with failed := true } else q }
      ∧ (∀ l ∈ t.hostLines, l ∈ s.hostLines ∧ behind (l.line * 64) = false) ∧ SameMem s t)
  ∧ (∃ t, exec (.hostSnoop pa inval) s = .next t ∧ { t with hostLines := s.hostLines } = s
      ∧ (∀ l ∈ t.hostLines, l.line = pa.toNat / 64 → inval = false ∧ l.modified = false)
      ∧ ∀ l, l.line ≠ pa.toNat / 64 → (l ∈ t.hostLines ↔ l ∈ s.hostLines))
  ∧ (p.mem = false → s.memTarget p (addr.toNat / 8 * 8) = none)
  ∧ (s.memTarget p (addr.toNat / 8 * 8) = none →
      exec (.hostCxlMemRequest port addr none) s = .next s ∧ exec (.hostCxlMemRequest port addr (some data)) s = .next s)
  ∧ ∀ a v, s.memTarget p (addr.toNat / 8 * 8) = some (a, v) →
      paTarget a < 5 ∧ (∀ d, s.refusal (some v) (homeHall a) a 8 d.isSome = (none : Option (Option Nat)) ∨ ∃ c, s.refusal (some v) (homeHall a) a 8 d.isSome = some c
        ∧ exec (.hostCxlMemRequest port addr d) s = .next (s.logRefusal (some v) (homeHall a) a c))
      ∧ (s.refusal (some v) (homeHall a) a 8 false = none → exec (.hostCxlMemRequest port addr none) s = .next s)
      ∧ (s.refusal (some v) (homeHall a) a 8 true = none →
          (s.inWells a = true → exec (.hostCxlMemRequest port addr (some data)) s = .next s)
          ∧ (s.inWells a = false → s.inInk a = true →
              exec (.hostCxlMemRequest port addr (some data)) s = .next (s.logSealed (some v) (homeHall a) a)))
      ∧ ∀ u, s.inWells a = false → s.inInk a = false → s.writeHome (some v) (homeHall a) a (leBytes 8 data.toNat) = .ok u →
          exec (.hostCxlMemRequest port addr (some data)) s = .next u

/-- R187 to R191, R194, R264, R271: a command that is over completes: it leaves its engine, and its issuer's counter falls by one, with a
STATUS where it failed, or the hart that waits goes on, or takes the engine-fault trap with the address that failed. A COPY of one row, whose
ranges do not overlap, reads its bytes and writes them; a flight's transfer moves its bytes between its own address and its peer's, and one
that combines waits for its receiver's FLIGHT; a row of an IXG, whose batch has been read, goes from the table to its place, and an index
outside the table fails with CAUSE 4. -/
def Obligations.EngineWork : Prop := ∀ (s : State) (i n : Nat) (c : Cmd),
  s.cmd? i = some c → c.stuck = none → c.lostAt = none →
  let ready := c.live = true ∧ c.done.contains n = false ∧ s.cmdHeld c = false
  (c.live = false → c.op ≠ 4#3 → c.op ≠ 5#3 → c.op ≠ 6#3 → c.op ≠ 7#3 → (c.op = 2#3 → c.flightOp ≠ 2) →
    ∃ t s' : State, exec (.engineCommandCompletion i) s = .next t ∧ t.cmd? i = none ∧ { s' with fresh := s.fresh } = s
    ∧ let u := s'.writeFault c
      (u.hart.unit = c.owner → (c.fail = none ∨ c.k ≠ 0#3) → t.mem = u.mem)
      ∧ (c.counted = true → u.hart.unit = c.owner → c.k ≠ 0#3 → (t.counter c.k).count = (u.counter c.k).count - 1
          ∧ (∀ f, c.fail = some f → (u.counter c.k).err = false → (t.counter c.k).err = true
              ∧ (t.counter c.k).status = (match f.cause with | 2#4 => 5#4 | 3#4 => 6#4 | 6#4 => 3#4 | 7#4 => 4#4 | 8#4 => 2#4 | _ => 1#4)))
      ∧ (c.counted = true → u.hart.unit = c.owner → c.k = 0#3 → u.hart.wait = some (.engine c.id) → ∃ v : State,
          { v with cmds := u.cmds, accums := u.accums, colls := u.colls } = { u with hart := { u.hart with wait := none } }
          ∧ (c.fail = none → t = v.retire 4#64) ∧ ∀ f, c.fail = some f → t = v.takeTrap { code := 19, eval := f.va }))
  ∧ (c.op = 0#3 → c.copyRows = 1 → c.copyMode = 0 → s.copyOverlaps c = false → c.done = [] → ready → ∀ u bs v,
      ({ s with fresh := s.fresh + 1 } : State).engRead c (c.at 0) c.copyBytes = (u, .ok bs) → u.engWrite c (c.at 8) bs = (v, none) →
      exec (.engineCommandCompletion i) s = .next ((settledAt v i 0).complete { c with done := [0] }))
  ∧ (c.op = 2#3 → c.flightOp < 2 → n < c.points → ready → s.moves c = true → ∀ u b v bs w,
      s.rankBase c (c.peer c.rank n) = (u, .ok b) →
      let here := c.localAt n
      let there := b + c.remoteOff n
      u.farWaits c there = false →
      (if c.flightOp = 0 then u.engPeek c here c.xbytes = (v, .ok bs) ∧ v.engStore c (some c.hall) there bs = (w, none)
        else u.engRead c there c.xbytes = (v, .ok bs) ∧ v.engStore c none here bs = (w, none)) →
      exec (.flightTransfer i n) s = .next (settledAt w i n))
  ∧ (c.op = 2#3 → c.points ≤ n → exec (.flightTransfer i n) s = .next s)
  ∧ (c.op = 2#3 → c.flightOp = 2 → (∀ r ∈ s.colls, r.bad = []) → (∀ d ∈ s.runPeers c.run, d.rank ≠ c.peer c.rank n) →
      exec (.flightTransfer i n) s = .next s)
  ∧ (c.op = 3#3 → n < c.ixgCount → ready → ∀ root iv, c.root = some root → c.batchRead = true → c.batchOpen.contains n = true →
      c.indexOf n = some iv →
      let place := c.at 8 + BitVec.ofNat 64 (4 * n)
      (iv.toNat < c.fld 0x28 0 32 → ∀ v bs w, s.engRead c (root + BitVec.ofNat 64 iv.toNat * c.at 0x20) c.ixgBytes = (v, .ok bs) →
        v.engWrite c (c.at 0x10 + BitVec.ofNat 64 (n * c.ixgBytes)) bs = (w, none) →
        exec (.ixgRemoteRowRequest i n) s = .next (settledAt w i n))
      ∧ (c.fld 0x28 0 32 ≤ iv.toNat → ∃ t, exec (.ixgRemoteRowRequest i n) s = .next t ∧ { t with cmds := s.cmds } = s
          ∧ t.cmds = s.cmds.map fun d => if d.id = i then d.failAt n 4 place iv else d))

/-- R264 to R272, R274, R275, R407: the lead rank of a collective arms it: its chunks of 4 KiB are divided among its paths in proportion to their
weights, every chunk once and no path off its proportion by a chunk; with no weight every rank ends with CAUSE 6. The others arm with the same
split, or all end where a record or the contents of RANKTAB differ. An abort ends a rank. A rank's contribution is read once, and the
last of a sum writes to DBUF, once, the contributions of the ranks added one after another in FP32; nothing is written before. A
collective does not complete while a rank has not issued it. What a lost pair carried ends with CAUSE 6, at every rank of a collective. -/
def Obligations.Collectives : Prop := ∀ (s : State) (i e r : Nat) (c : Cmd) (cause : BitVec 4) (src dst die : BitVec 3),
  let ended (c' : Cmd) (cause : BitVec 4) := c'.live = false ∧ ∃ f, c'.fail = some f ∧ f.cause = cause
  let size := c.collSize
  let w := typeWidth c.collType
  (s.cmd? i = some c → (∀ d ∈ s.cmds, d.id = i → d = c) → c.op = 1#3 → c.stuck = none → c.lostAt = none → c.away = none →
    (s.moves c = true → s.cmdHeld c = false → c.armed = false → ∀ u bs, s.engPeek c (c.at 0x10) (8 * size) = (u, .ok bs) →
      let total := (c.collCount * w / 8 + (if c.collCount * w % 8 = 0 then 0 else 1) + 4095) / 4096
      let weights := (u.offeredPaths c).map (u.pathWeight c)
      (c.rank = c.lead → weights.sum ≠ 0 → ∃ t c', exec (.collArming i) s = .next t ∧ t.cmd? i = some c' ∧ c'.armed = true
        ∧ c'.tab = leWords bs size ∧ { c' with armed := false, split := c.split, tree := c.tree, tab := c.tab } = c
        ∧ c'.split.sum = total ∧ c'.split.length = weights.length
        ∧ (∀ j < weights.length, total * weights.getD j 0 / weights.sum ≤ c'.split.getD j 0
            ∧ c'.split.getD j 0 ≤ total * weights.getD j 0 / weights.sum + 1)
        ∧ SameMem s t ∧ t.hart = s.hart)
      ∧ (c.rank = c.lead → weights.sum = 0 → ∃ t c', exec (.collArming i) s = .next t ∧ t.cmd? i = some c' ∧ ended c' 6#4
          ∧ RunEnded s t c.run c.hall)
      ∧ ∀ d, s.armedLeads c = [d] → c.rank ≠ c.lead → c.agrees d = true → d.away = none →
          (leWords bs size = d.tab → ∃ t c', exec (.splitFlit i) s = .next t ∧ t.cmd? i = some c' ∧ SameMem s t
            ∧ c' = { c with armed := true, split := d.split, tree := d.tree, tab := d.tab })
          ∧ (leWords bs size ≠ d.tab → ∃ t, exec (.splitFlit i) s = .next t ∧ RunEnded s t c.run c.hall))
    ∧ (c.armed = true → exec (.collArming i) s = .next s)
    ∧ (s.armedLeads c = [] → exec (.splitFlit i) s = .next s)
    ∧ (∀ d l, s.moves c = true → s.cmdHeld c = false → s.armedLeads c = d :: l → (c.rank = c.lead ∨ l ≠ [] ∨ c.agrees d = false) →
        ∃ t, exec (.splitFlit i) s = .next t ∧ RunEnded s t c.run c.hall)
    ∧ (cause ∉ [0#4, 1#4, 2#4, 3#4, 5#4, 6#4, 9#4] → exec (.abortFlit i cause) s = .next s)
    ∧ (cause ∈ [0#4, 1#4, 2#4, 3#4, 5#4, 6#4, 9#4] → c.live = true → (∃ d ∈ s.runPeers c.run, d.away.isSome = true) →
        ∃ t c', exec (.abortFlit i cause) s = .next t ∧ t.cmd? i = some c' ∧ ended c' cause ∧ SameMem s t)
    ∧ (s.mayTake c e = false → exec (.rruContribution i r e) s = .next s)
    ∧ (c.live = true → (∀ x, s.coll? c.run = some x → x.joined.length < size) → exec (.engineCommandCompletion i) s = .next s)
    ∧ ∀ d x u v, let m := c.msgElem e
        s.mayTake c e = true → r ∈ c.givers m → (s.runPeers c.run).find? (fun d => d.rank == r) = some d → s.cmd? d.id = some d →
        d.stuck = none → d.away = none → d.armed = true → s.moves d = true → s.cmdHeld d = false → s.coll? c.run = some x →
        x.value m r = none → s.way d m r (d.ownerOf m) = .clear →
        s.engGetElem d (d.at 0) (typeWidth d.collType) (d.sourceElem m) = (u, .ok v) →
        let x' : Collective := { x with got := (m, r, BitVec.ofNat 64 v) :: x.got }
        let t := u.onColl c.run fun y => { y with got := (m, r, BitVec.ofNat 64 v) :: y.got }
        t.way c m (c.ownerOf m) c.rank = .clear → c.reduces = true → c.collArrival = false → t.destClass c ≠ some .wlx → t.destClass c ≠ some .wlf →
        c.collType = 10#4 ∨ c.collType = 11#4 ∨ c.collType = 12#4 →
        (x'.full c m = false → exec (.rruContribution i r e) s = .next t)
        ∧ (x'.full c m = true → c.sourceRead x' (c.at 8 + BitVec.ofNat 64 (e * w / 8)) (w / 8) = true →
            let sum := sumFrom ((c.givers m).map fun q => widen c.collType ((x'.value m q).getD 0#64).toNat)
            ∀ z, t.engStore c (t.countsElem c m) (c.at 8 + BitVec.ofNat 64 (e * w / 8)) (leBytes (w / 8) (narrow c.collType sum)) = (z, none) →
            exec (.rruContribution i r e) s = .next (settledAt z i e)))
  ∧ ((∀ d ∈ s.cmds, d.lostAt ≠ some (src, dst)) → exec (.pathLost src dst) s = .next s)
  ∧ (s.cmd? i = some c → c.lostAt = some (src, dst) → ∃ t c', exec (.pathLost src dst) s = .next t ∧ t.cmd? i = some c' ∧ c'.live = false
      ∧ SameMem s t ∧ (c.live = true → ended c' 6#4) ∧ (c.inRun = true → RunEnded s t c.run c.hall))
  ∧ (∃ t, exec (.pathWeightMeasure die) s = .next t ∧ { t with vfs := s.vfs, fresh := s.fresh } = s
      ∧ ∀ v (q : BitVec 3) (p : Fin 4), let x := (pick (w := 3) (s.vf v).cpath q)[p]
        let y := (pick (w := 3) (t.vf v).cpath q)[p]
        y &&& ~~~0x0000FFFF00000000#64 = x &&& ~~~0x0000FFFF00000000#64 ∧ (q ≠ die ∨ x.getLsbD 31 = false → y = x))
  ∧ ∀ (seed : Nat) l, leastOf seed l = none ∨ ∃ m ∈ l, leastOf seed l = some m ∧ l.min?.any (· ≤ m) = true

/-- R298, R350, R351, R398, R400, R406: a write of 8 aligned bytes to the aperture by mode 2, P, or 3, the PF, or, for a block of its own VF,
mode 1, does what its register does where that register allows the mode, and changes nothing where it does not; one of mode A, one that is not
aligned, one to the census or outside the aperture of this chip changes nothing. -/
def Obligations.RegisterWrites : Prop := ∀ (s : State) (pa value : Word) (mode : BitVec 2) (vf v : BitVec 10) (q : BitVec 7) (h : BitVec 4),
  let a := pa.toNat
  let o := paOffset a
  let writes (m : BitVec 2) (i : Instr) := exec (.registerWrite pa value m vf) s = exec i s
  let here := paTarget a = 5 ∧ paChip a = s.chip ∧ a % 8 = 0
  let mine := mode = 1#2 ∧ vf = v
  let ignored := exec (.registerWrite pa value mode vf) s = .next s
  let vfAt x := here ∧ o = 0x800000 + 0x2000 * v.toNat + x
  let hallAt x := here ∧ h.toNat / 2 = (paDie a).toNat ∧ o = 0x1000000 * (1 + h.toNat % 2) + x
  exec (.censusWrite pa value) s = .next s
  ∧ exec (.registerWrite pa value 0#2 vf) s = .next s
  ∧ (¬here → exec (.registerWrite pa value mode vf) s = .next s)
  ∧ (here → 0x80000000 ≤ o → exec (.registerWrite pa value mode vf) s = .next s)
  ∧ (vfAt 0x38 → (mine ∨ mode = 2#2 → writes mode (.vfvcapWrite v value)) ∧ (¬(mine ∨ mode = 2#2) → ignored))
  ∧ (vfAt (0x1000 + 24 * q.toNat) → (mine → writes mode (.qcfgWrite v q value)) ∧ (¬mine → ignored))
  ∧ (let x := (s.vf v).queue q
     let ahead := (value.extractLsb' 0 32 - x.head).toNat
     mine → vfAt (0x1000 + 24 * q.toNat + 16) → ahead ≤ x.slots → (x.tail - x.head).toNat ≤ ahead →
      writes mode (.qptrTailWrite v q (value.extractLsb' 0 32)))
  ∧ (mode = 1#2 → vf = v → vfAt 0x18 → ∃ t, exec (.registerWrite pa value mode vf) s = .next t
      ∧ t.vf v = { s.vf v with evt := (s.vf v).evt &&& ~~~(value &&& 15#64) } ∧ { t with vfs := s.vfs } = s)
  ∧ (mode ≠ 1#2 ∨ vf ≠ v → vfAt 0x18 → exec (.registerWrite pa value mode vf) s = .next s)
  ∧ (mode = 2#2 ∨ mode = 3#2 → vfAt 0x10 → value.getLsbD 63 = true → writes mode (.vfReset v))
  ∧ (mode = 1#2 → vfAt 0x10 → exec (.registerWrite pa value mode vf) s = .next s)
  ∧ (vfAt 0x148 → (mine → value.getLsbD 63 = true → writes mode (.attestationGo v)) ∧ (¬mine → ignored))
  ∧ (hallAt 0 → writes 2#2 (.hownWrite h (value.extractLsb' 32 16)))
  ∧ (hallAt 8 → (fieldNat value 62 2 = 1 → writes 2#2 (.hallWarmReset h)) ∧ (fieldNat value 62 2 = 2 → writes 2#2 (.hallForcedReset h))
      ∧ (fieldNat value 62 2 = 3 → writes 2#2 (.hallRelease h)) ∧ exec (.registerWrite pa value 3#2 vf) s = .next s)
  ∧ (hallAt 0x10 → value.getLsbD 31 = true → writes 2#2 (.violationLogClear h))
  ∧ (hallAt 0x1310 → value.getLsbD 31 = true → writes 2#2 (.errorLogClear h))
  ∧ (mode = 2#2 ∨ mode = 3#2 → hallAt 0x1238 → value.getLsbD 63 = true →
      writes mode (.shootctlGo h (value.extractLsb' 10 2) (value.extractLsb' 0 10)))
  ∧ (mode = 2#2 ∨ mode = 3#2 → hallAt 0x1220 → (fieldNat value 0 2 = 0 → writes mode (.fqrespRetry h (value.extractLsb' 32 32)))
      ∧ (fieldNat value 0 2 = 1 → writes mode (.fqrespForward h (value.extractLsb' 32 32)))
      ∧ (fieldNat value 0 2 = 2 → writes mode (.fqrespComplete h (value.extractLsb' 32 32))))

/-- R122, R145, R179, R385, R387 to R394: silent errors and the marks they leave, scrubbing, and memory errors. -/
def Obligations.ReliabilityEvents : Prop :=
  Sys2Proof.Machine.ReliabilityEvents ∧ SilentErrors

/-- R395, R397, R398, R403: power-on leaves nothing of the module but its image: with one that is not accepted every hall stays in reset; with one
that is, each hall whose regions fit takes its tenant and its regions from it, their reserved bits 0, is measured and released, and says so in PKGSTAT. A report that
is asked for while none is in progress is under way; it ends with its words and their signature written, or with ERR. -/
def Obligations.PowerAndAttestation : Prop := ∀ (s : State) (v : BitVec 10) (h : BitVec 4),
  let f := s.vf v
  let i := pick (w := 4) s.image.halls h
  let set (b e : Bool) (t : State) := t.vf v = { f with attBusy := b, attErr := e } ∧ (∀ w, w ≠ v → t.vf w = s.vf w) ∧ { t with vfs := s.vfs } = s
  (∃ t, exec .powerOn s = .next t ∧ t.hart = State.reset.hart ∧ t.pset = State.reset.pset ∧ t.ra = none ∧ t.image = s.image ∧ t.cmds = [] ∧ t.units = []
    ∧ t.launches = [] ∧ t.vfs = [] ∧ t.tlb = [] ∧ t.walks = [] ∧ t.podt = 0#64 ∧ t.chip = s.image.chip
    ∧ t.myHall = s.myHall ∧ t.myCluster = s.myCluster ∧ t.myHart = s.myHart ∧ fieldNat t.hid 12 3 = s.myHall.toNat / 2
    ∧ (s.Inv → ∀ a, Memory.read t.mem a = if paTarget a = 6 then Memory.read s.mem a else 0#8)
    ∧ (s.image.accepted = false → t.hall h = Hall.reset ∧ t.pkgstat = 0#16)
    ∧ (s.image.accepted = true → i.fits = true → t.pkgstat.getLsbD h.toNat = true ∧ (t.hall h).tenant = i.tenant ∧ (t.hall h).wellcfg = i.wellcfg &&& 0x3F3F#64
        ∧ (t.hall h).inkcfg = i.inkcfg &&& 0xFF01FF003F01FF#64 ∧ (t.hall h).cscfg = i.cscfg &&& 0x3F3F#64 ∧ (t.hall h).plim = i.plim ∧ (t.hall h).st ≠ .reset
        ∧ (i.tenant = 0#16 → (t.hall h).st = .fenced) ∧ (t.hall h).hmcnt = 2#32)
    ∧ (s.image.accepted = true → i.fits = false → t.pkgstat.getLsbD h.toNat = false ∧ (t.hall h).st = .reset ∧ (t.hall h).tenant = 0#16))
  ∧ (f.attBusy = false → ∃ t, exec (.attestationGo v) s = .next t ∧ set true false t)
  ∧ (f.attBusy = true → exec (.attestationGo v) s = .next s)
  ∧ (f.attBusy = false → exec (.attestationReportDone v) s = .next s)
  ∧ (f.attBusy = true → f.attaddr.toNat % 64 ≠ 0 → ∃ t, exec (.attestationReportDone v) s = .next t ∧ set false true t)
  ∧ (f.attBusy = true → (∀ k, s.owns f.tenant k = false) → ∃ t, exec (.attestationReportDone v) s = .next t ∧ set false true t)
  ∧ (f.attBusy = true → f.attaddr.toNat % 64 = 0 → ∀ u, s.owns f.tenant h = true → (s.hall h).st = .running → (∀ k < h, s.owns f.tenant k = false) →
      let body := wordsBytes (s.attestWords v (h.toNat / 2))
      s.writeVfLines v h f.attaddr (lines64 (body ++ leBytes 64 (Config.identitySign (h.toNat / 2) body).toNat) 19) = some u →
      ∃ t, exec (.attestationReportDone v) s = .next t ∧ (t.vf v).attBusy = false ∧ { t with vfs := u.vfs } = u)
end

