-- ==== Sys2Proof/Laws/Encoding.lean ====
section
/-! SUPPORT. Encoding.lean: how a field is read back from the words of Table 4.1, one lemma for each place where two
fields meet. -/

namespace Sys2Proof.Laws

set_option maxRecDepth 10000
set_option Elab.async false


theorem high_1_3 (x : BitVec 1) (y : BitVec 3) (k n : Nat) (h : 3 ≤ k) :
    BitVec.extractLsb' (n := 4) k n (x ++ y) = x.extractLsb' (k - 3) n :=
  BitVec.extractLsb'_append_eq_of_le h

theorem low_1_3 (x : BitVec 1) (y : BitVec 3) (k n : Nat) (h : k + n ≤ 3) :
    BitVec.extractLsb' (n := 4) k n (x ++ y) = y.extractLsb' k n :=
  BitVec.extractLsb'_append_eq_of_add_le h

theorem highBit_1_3 (x : BitVec 1) (y : BitVec 3) (k : Nat) (h : 3 ≤ k) :
    BitVec.getLsbD (w := 4) (x ++ y) k = x.getLsbD (k - 3) :=
  (BitVec.getLsbD_append ..).trans (by simp [Nat.not_lt.mpr h])

theorem lowBit_1_3 (x : BitVec 1) (y : BitVec 3) (k : Nat) (h : k < 3) :
    BitVec.getLsbD (w := 4) (x ++ y) k = y.getLsbD k :=
  (BitVec.getLsbD_append ..).trans (by simp [h])

theorem high_1_4 (x : BitVec 1) (y : BitVec 4) (k n : Nat) (h : 4 ≤ k) :
    BitVec.extractLsb' (n := 5) k n (x ++ y) = x.extractLsb' (k - 4) n :=
  BitVec.extractLsb'_append_eq_of_le h

theorem low_1_4 (x : BitVec 1) (y : BitVec 4) (k n : Nat) (h : k + n ≤ 4) :
    BitVec.extractLsb' (n := 5) k n (x ++ y) = y.extractLsb' k n :=
  BitVec.extractLsb'_append_eq_of_add_le h

theorem highBit_1_4 (x : BitVec 1) (y : BitVec 4) (k : Nat) (h : 4 ≤ k) :
    BitVec.getLsbD (w := 5) (x ++ y) k = x.getLsbD (k - 4) :=
  (BitVec.getLsbD_append ..).trans (by simp [Nat.not_lt.mpr h])

theorem lowBit_1_4 (x : BitVec 1) (y : BitVec 4) (k : Nat) (h : k < 4) :
    BitVec.getLsbD (w := 5) (x ++ y) k = y.getLsbD k :=
  (BitVec.getLsbD_append ..).trans (by simp [h])

theorem high_2_2 (x : BitVec 2) (y : BitVec 2) (k n : Nat) (h : 2 ≤ k) :
    BitVec.extractLsb' (n := 4) k n (x ++ y) = x.extractLsb' (k - 2) n :=
  BitVec.extractLsb'_append_eq_of_le h

theorem low_2_2 (x : BitVec 2) (y : BitVec 2) (k n : Nat) (h : k + n ≤ 2) :
    BitVec.extractLsb' (n := 4) k n (x ++ y) = y.extractLsb' k n :=
  BitVec.extractLsb'_append_eq_of_add_le h

theorem highBit_2_2 (x : BitVec 2) (y : BitVec 2) (k : Nat) (h : 2 ≤ k) :
    BitVec.getLsbD (w := 4) (x ++ y) k = x.getLsbD (k - 2) :=
  (BitVec.getLsbD_append ..).trans (by simp [Nat.not_lt.mpr h])

theorem lowBit_2_2 (x : BitVec 2) (y : BitVec 2) (k : Nat) (h : k < 2) :
    BitVec.getLsbD (w := 4) (x ++ y) k = y.getLsbD k :=
  (BitVec.getLsbD_append ..).trans (by simp [h])

theorem high_2_3 (x : BitVec 2) (y : BitVec 3) (k n : Nat) (h : 3 ≤ k) :
    BitVec.extractLsb' (n := 5) k n (x ++ y) = x.extractLsb' (k - 3) n :=
  BitVec.extractLsb'_append_eq_of_le h

theorem low_2_3 (x : BitVec 2) (y : BitVec 3) (k n : Nat) (h : k + n ≤ 3) :
    BitVec.extractLsb' (n := 5) k n (x ++ y) = y.extractLsb' k n :=
  BitVec.extractLsb'_append_eq_of_add_le h

theorem highBit_2_3 (x : BitVec 2) (y : BitVec 3) (k : Nat) (h : 3 ≤ k) :
    BitVec.getLsbD (w := 5) (x ++ y) k = x.getLsbD (k - 3) :=
  (BitVec.getLsbD_append ..).trans (by simp [Nat.not_lt.mpr h])

theorem lowBit_2_3 (x : BitVec 2) (y : BitVec 3) (k : Nat) (h : k < 3) :
    BitVec.getLsbD (w := 5) (x ++ y) k = y.getLsbD k :=
  (BitVec.getLsbD_append ..).trans (by simp [h])

theorem high_3_1 (x : BitVec 3) (y : BitVec 1) (k n : Nat) (h : 1 ≤ k) :
    BitVec.extractLsb' (n := 4) k n (x ++ y) = x.extractLsb' (k - 1) n :=
  BitVec.extractLsb'_append_eq_of_le h

theorem low_3_1 (x : BitVec 3) (y : BitVec 1) (k n : Nat) (h : k + n ≤ 1) :
    BitVec.extractLsb' (n := 4) k n (x ++ y) = y.extractLsb' k n :=
  BitVec.extractLsb'_append_eq_of_add_le h

theorem highBit_3_1 (x : BitVec 3) (y : BitVec 1) (k : Nat) (h : 1 ≤ k) :
    BitVec.getLsbD (w := 4) (x ++ y) k = x.getLsbD (k - 1) :=
  (BitVec.getLsbD_append ..).trans (by simp [Nat.not_lt.mpr h])

theorem lowBit_3_1 (x : BitVec 3) (y : BitVec 1) (k : Nat) (h : k < 1) :
    BitVec.getLsbD (w := 4) (x ++ y) k = y.getLsbD k :=
  (BitVec.getLsbD_append ..).trans (by simp [h])

theorem high_3_2 (x : BitVec 3) (y : BitVec 2) (k n : Nat) (h : 2 ≤ k) :
    BitVec.extractLsb' (n := 5) k n (x ++ y) = x.extractLsb' (k - 2) n :=
  BitVec.extractLsb'_append_eq_of_le h

theorem low_3_2 (x : BitVec 3) (y : BitVec 2) (k n : Nat) (h : k + n ≤ 2) :
    BitVec.extractLsb' (n := 5) k n (x ++ y) = y.extractLsb' k n :=
  BitVec.extractLsb'_append_eq_of_add_le h

theorem highBit_3_2 (x : BitVec 3) (y : BitVec 2) (k : Nat) (h : 2 ≤ k) :
    BitVec.getLsbD (w := 5) (x ++ y) k = x.getLsbD (k - 2) :=
  (BitVec.getLsbD_append ..).trans (by simp [Nat.not_lt.mpr h])

theorem lowBit_3_2 (x : BitVec 3) (y : BitVec 2) (k : Nat) (h : k < 2) :
    BitVec.getLsbD (w := 5) (x ++ y) k = y.getLsbD k :=
  (BitVec.getLsbD_append ..).trans (by simp [h])

theorem high_4_1 (x : BitVec 4) (y : BitVec 1) (k n : Nat) (h : 1 ≤ k) :
    BitVec.extractLsb' (n := 5) k n (x ++ y) = x.extractLsb' (k - 1) n :=
  BitVec.extractLsb'_append_eq_of_le h

theorem low_4_1 (x : BitVec 4) (y : BitVec 1) (k n : Nat) (h : k + n ≤ 1) :
    BitVec.extractLsb' (n := 5) k n (x ++ y) = y.extractLsb' k n :=
  BitVec.extractLsb'_append_eq_of_add_le h

theorem highBit_4_1 (x : BitVec 4) (y : BitVec 1) (k : Nat) (h : 1 ≤ k) :
    BitVec.getLsbD (w := 5) (x ++ y) k = x.getLsbD (k - 1) :=
  (BitVec.getLsbD_append ..).trans (by simp [Nat.not_lt.mpr h])

theorem lowBit_4_1 (x : BitVec 4) (y : BitVec 1) (k : Nat) (h : k < 1) :
    BitVec.getLsbD (w := 5) (x ++ y) k = y.getLsbD k :=
  (BitVec.getLsbD_append ..).trans (by simp [h])

theorem high_5_1 (x : BitVec 5) (y : BitVec 1) (k n : Nat) (h : 1 ≤ k) :
    BitVec.extractLsb' (n := 6) k n (x ++ y) = x.extractLsb' (k - 1) n :=
  BitVec.extractLsb'_append_eq_of_le h

theorem low_5_1 (x : BitVec 5) (y : BitVec 1) (k n : Nat) (h : k + n ≤ 1) :
    BitVec.extractLsb' (n := 6) k n (x ++ y) = y.extractLsb' k n :=
  BitVec.extractLsb'_append_eq_of_add_le h

theorem highBit_5_1 (x : BitVec 5) (y : BitVec 1) (k : Nat) (h : 1 ≤ k) :
    BitVec.getLsbD (w := 6) (x ++ y) k = x.getLsbD (k - 1) :=
  (BitVec.getLsbD_append ..).trans (by simp [Nat.not_lt.mpr h])

theorem lowBit_5_1 (x : BitVec 5) (y : BitVec 1) (k : Nat) (h : k < 1) :
    BitVec.getLsbD (w := 6) (x ++ y) k = y.getLsbD k :=
  (BitVec.getLsbD_append ..).trans (by simp [h])

theorem high_5_3 (x : BitVec 5) (y : BitVec 3) (k n : Nat) (h : 3 ≤ k) :
    BitVec.extractLsb' (n := 8) k n (x ++ y) = x.extractLsb' (k - 3) n :=
  BitVec.extractLsb'_append_eq_of_le h

theorem low_5_3 (x : BitVec 5) (y : BitVec 3) (k n : Nat) (h : k + n ≤ 3) :
    BitVec.extractLsb' (n := 8) k n (x ++ y) = y.extractLsb' k n :=
  BitVec.extractLsb'_append_eq_of_add_le h

theorem highBit_5_3 (x : BitVec 5) (y : BitVec 3) (k : Nat) (h : 3 ≤ k) :
    BitVec.getLsbD (w := 8) (x ++ y) k = x.getLsbD (k - 3) :=
  (BitVec.getLsbD_append ..).trans (by simp [Nat.not_lt.mpr h])

theorem lowBit_5_3 (x : BitVec 5) (y : BitVec 3) (k : Nat) (h : k < 3) :
    BitVec.getLsbD (w := 8) (x ++ y) k = y.getLsbD k :=
  (BitVec.getLsbD_append ..).trans (by simp [h])

theorem high_5_6 (x : BitVec 5) (y : BitVec 6) (k n : Nat) (h : 6 ≤ k) :
    BitVec.extractLsb' (n := 11) k n (x ++ y) = x.extractLsb' (k - 6) n :=
  BitVec.extractLsb'_append_eq_of_le h

theorem low_5_6 (x : BitVec 5) (y : BitVec 6) (k n : Nat) (h : k + n ≤ 6) :
    BitVec.extractLsb' (n := 11) k n (x ++ y) = y.extractLsb' k n :=
  BitVec.extractLsb'_append_eq_of_add_le h

theorem highBit_5_6 (x : BitVec 5) (y : BitVec 6) (k : Nat) (h : 6 ≤ k) :
    BitVec.getLsbD (w := 11) (x ++ y) k = x.getLsbD (k - 6) :=
  (BitVec.getLsbD_append ..).trans (by simp [Nat.not_lt.mpr h])

theorem lowBit_5_6 (x : BitVec 5) (y : BitVec 6) (k : Nat) (h : k < 6) :
    BitVec.getLsbD (w := 11) (x ++ y) k = y.getLsbD k :=
  (BitVec.getLsbD_append ..).trans (by simp [h])

theorem high_6_5 (x : BitVec 6) (y : BitVec 5) (k n : Nat) (h : 5 ≤ k) :
    BitVec.extractLsb' (n := 11) k n (x ++ y) = x.extractLsb' (k - 5) n :=
  BitVec.extractLsb'_append_eq_of_le h

theorem low_6_5 (x : BitVec 6) (y : BitVec 5) (k n : Nat) (h : k + n ≤ 5) :
    BitVec.extractLsb' (n := 11) k n (x ++ y) = y.extractLsb' k n :=
  BitVec.extractLsb'_append_eq_of_add_le h

theorem highBit_6_5 (x : BitVec 6) (y : BitVec 5) (k : Nat) (h : 5 ≤ k) :
    BitVec.getLsbD (w := 11) (x ++ y) k = x.getLsbD (k - 5) :=
  (BitVec.getLsbD_append ..).trans (by simp [Nat.not_lt.mpr h])

theorem lowBit_6_5 (x : BitVec 6) (y : BitVec 5) (k : Nat) (h : k < 5) :
    BitVec.getLsbD (w := 11) (x ++ y) k = y.getLsbD k :=
  (BitVec.getLsbD_append ..).trans (by simp [h])

theorem high_6_26 (x : BitVec 6) (y : BitVec 26) (k n : Nat) (h : 26 ≤ k) :
    BitVec.extractLsb' (n := 32) k n (x ++ y) = x.extractLsb' (k - 26) n :=
  BitVec.extractLsb'_append_eq_of_le h

theorem low_6_26 (x : BitVec 6) (y : BitVec 26) (k n : Nat) (h : k + n ≤ 26) :
    BitVec.extractLsb' (n := 32) k n (x ++ y) = y.extractLsb' k n :=
  BitVec.extractLsb'_append_eq_of_add_le h

theorem high_8_3 (x : BitVec 8) (y : BitVec 3) (k n : Nat) (h : 3 ≤ k) :
    BitVec.extractLsb' (n := 11) k n (x ++ y) = x.extractLsb' (k - 3) n :=
  BitVec.extractLsb'_append_eq_of_le h

theorem low_8_3 (x : BitVec 8) (y : BitVec 3) (k n : Nat) (h : k + n ≤ 3) :
    BitVec.extractLsb' (n := 11) k n (x ++ y) = y.extractLsb' k n :=
  BitVec.extractLsb'_append_eq_of_add_le h

theorem highBit_8_3 (x : BitVec 8) (y : BitVec 3) (k : Nat) (h : 3 ≤ k) :
    BitVec.getLsbD (w := 11) (x ++ y) k = x.getLsbD (k - 3) :=
  (BitVec.getLsbD_append ..).trans (by simp [Nat.not_lt.mpr h])

theorem lowBit_8_3 (x : BitVec 8) (y : BitVec 3) (k : Nat) (h : k < 3) :
    BitVec.getLsbD (w := 11) (x ++ y) k = y.getLsbD k :=
  (BitVec.getLsbD_append ..).trans (by simp [h])

theorem high_10_6 (x : BitVec 10) (y : BitVec 6) (k n : Nat) (h : 6 ≤ k) :
    BitVec.extractLsb' (n := 16) k n (x ++ y) = x.extractLsb' (k - 6) n :=
  BitVec.extractLsb'_append_eq_of_le h

theorem low_10_6 (x : BitVec 10) (y : BitVec 6) (k n : Nat) (h : k + n ≤ 6) :
    BitVec.extractLsb' (n := 16) k n (x ++ y) = y.extractLsb' k n :=
  BitVec.extractLsb'_append_eq_of_add_le h

theorem highBit_10_6 (x : BitVec 10) (y : BitVec 6) (k : Nat) (h : 6 ≤ k) :
    BitVec.getLsbD (w := 16) (x ++ y) k = x.getLsbD (k - 6) :=
  (BitVec.getLsbD_append ..).trans (by simp [Nat.not_lt.mpr h])

theorem lowBit_10_6 (x : BitVec 10) (y : BitVec 6) (k : Nat) (h : k < 6) :
    BitVec.getLsbD (w := 16) (x ++ y) k = y.getLsbD k :=
  (BitVec.getLsbD_append ..).trans (by simp [h])

theorem high_11_5 (x : BitVec 11) (y : BitVec 5) (k n : Nat) (h : 5 ≤ k) :
    BitVec.extractLsb' (n := 16) k n (x ++ y) = x.extractLsb' (k - 5) n :=
  BitVec.extractLsb'_append_eq_of_le h

theorem low_11_5 (x : BitVec 11) (y : BitVec 5) (k n : Nat) (h : k + n ≤ 5) :
    BitVec.extractLsb' (n := 16) k n (x ++ y) = y.extractLsb' k n :=
  BitVec.extractLsb'_append_eq_of_add_le h

theorem high_16_5 (x : BitVec 16) (y : BitVec 5) (k n : Nat) (h : 5 ≤ k) :
    BitVec.extractLsb' (n := 21) k n (x ++ y) = x.extractLsb' (k - 5) n :=
  BitVec.extractLsb'_append_eq_of_le h

theorem low_16_5 (x : BitVec 16) (y : BitVec 5) (k n : Nat) (h : k + n ≤ 5) :
    BitVec.extractLsb' (n := 21) k n (x ++ y) = y.extractLsb' k n :=
  BitVec.extractLsb'_append_eq_of_add_le h

theorem high_16_16 (x : BitVec 16) (y : BitVec 16) (k n : Nat) (h : 16 ≤ k) :
    BitVec.extractLsb' (n := 32) k n (x ++ y) = x.extractLsb' (k - 16) n :=
  BitVec.extractLsb'_append_eq_of_le h

theorem low_16_16 (x : BitVec 16) (y : BitVec 16) (k n : Nat) (h : k + n ≤ 16) :
    BitVec.extractLsb' (n := 32) k n (x ++ y) = y.extractLsb' k n :=
  BitVec.extractLsb'_append_eq_of_add_le h

theorem high_21_1 (x : BitVec 21) (y : BitVec 1) (k n : Nat) (h : 1 ≤ k) :
    BitVec.extractLsb' (n := 22) k n (x ++ y) = x.extractLsb' (k - 1) n :=
  BitVec.extractLsb'_append_eq_of_le h

theorem lowBit_21_1 (x : BitVec 21) (y : BitVec 1) (k : Nat) (h : k < 1) :
    BitVec.getLsbD (w := 22) (x ++ y) k = y.getLsbD k :=
  (BitVec.getLsbD_append ..).trans (by simp [h])

theorem high_21_11 (x : BitVec 21) (y : BitVec 11) (k n : Nat) (h : 11 ≤ k) :
    BitVec.extractLsb' (n := 32) k n (x ++ y) = x.extractLsb' (k - 11) n :=
  BitVec.extractLsb'_append_eq_of_le h

theorem low_21_11 (x : BitVec 21) (y : BitVec 11) (k n : Nat) (h : k + n ≤ 11) :
    BitVec.extractLsb' (n := 32) k n (x ++ y) = y.extractLsb' k n :=
  BitVec.extractLsb'_append_eq_of_add_le h

theorem lowBit_21_11 (x : BitVec 21) (y : BitVec 11) (k : Nat) (h : k < 11) :
    BitVec.getLsbD (w := 32) (x ++ y) k = y.getLsbD k :=
  (BitVec.getLsbD_append ..).trans (by simp [h])

theorem high_22_1 (x : BitVec 22) (y : BitVec 1) (k n : Nat) (h : 1 ≤ k) :
    BitVec.extractLsb' (n := 23) k n (x ++ y) = x.extractLsb' (k - 1) n :=
  BitVec.extractLsb'_append_eq_of_le h

theorem highBit_22_1 (x : BitVec 22) (y : BitVec 1) (k : Nat) (h : 1 ≤ k) :
    BitVec.getLsbD (w := 23) (x ++ y) k = x.getLsbD (k - 1) :=
  (BitVec.getLsbD_append ..).trans (by simp [Nat.not_lt.mpr h])

theorem lowBit_22_1 (x : BitVec 22) (y : BitVec 1) (k : Nat) (h : k < 1) :
    BitVec.getLsbD (w := 23) (x ++ y) k = y.getLsbD k :=
  (BitVec.getLsbD_append ..).trans (by simp [h])

theorem high_22_3 (x : BitVec 22) (y : BitVec 3) (k n : Nat) (h : 3 ≤ k) :
    BitVec.extractLsb' (n := 25) k n (x ++ y) = x.extractLsb' (k - 3) n :=
  BitVec.extractLsb'_append_eq_of_le h

theorem low_22_3 (x : BitVec 22) (y : BitVec 3) (k n : Nat) (h : k + n ≤ 3) :
    BitVec.extractLsb' (n := 25) k n (x ++ y) = y.extractLsb' k n :=
  BitVec.extractLsb'_append_eq_of_add_le h

theorem highBit_22_3 (x : BitVec 22) (y : BitVec 3) (k : Nat) (h : 3 ≤ k) :
    BitVec.getLsbD (w := 25) (x ++ y) k = x.getLsbD (k - 3) :=
  (BitVec.getLsbD_append ..).trans (by simp [Nat.not_lt.mpr h])

theorem high_23_3 (x : BitVec 23) (y : BitVec 3) (k n : Nat) (h : 3 ≤ k) :
    BitVec.extractLsb' (n := 26) k n (x ++ y) = x.extractLsb' (k - 3) n :=
  BitVec.extractLsb'_append_eq_of_le h

theorem low_23_3 (x : BitVec 23) (y : BitVec 3) (k n : Nat) (h : k + n ≤ 3) :
    BitVec.extractLsb' (n := 26) k n (x ++ y) = y.extractLsb' k n :=
  BitVec.extractLsb'_append_eq_of_add_le h

theorem highBit_23_3 (x : BitVec 23) (y : BitVec 3) (k : Nat) (h : 3 ≤ k) :
    BitVec.getLsbD (w := 26) (x ++ y) k = x.getLsbD (k - 3) :=
  (BitVec.getLsbD_append ..).trans (by simp [Nat.not_lt.mpr h])

theorem high_25_4 (x : BitVec 25) (y : BitVec 4) (k n : Nat) (h : 4 ≤ k) :
    BitVec.extractLsb' (n := 29) k n (x ++ y) = x.extractLsb' (k - 4) n :=
  BitVec.extractLsb'_append_eq_of_le h

theorem low_25_4 (x : BitVec 25) (y : BitVec 4) (k n : Nat) (h : k + n ≤ 4) :
    BitVec.extractLsb' (n := 29) k n (x ++ y) = y.extractLsb' k n :=
  BitVec.extractLsb'_append_eq_of_add_le h

theorem highBit_25_4 (x : BitVec 25) (y : BitVec 4) (k : Nat) (h : 4 ≤ k) :
    BitVec.getLsbD (w := 29) (x ++ y) k = x.getLsbD (k - 4) :=
  (BitVec.getLsbD_append ..).trans (by simp [Nat.not_lt.mpr h])

theorem high_26_6 (x : BitVec 26) (y : BitVec 6) (k n : Nat) (h : 6 ≤ k) :
    BitVec.extractLsb' (n := 32) k n (x ++ y) = x.extractLsb' (k - 6) n :=
  BitVec.extractLsb'_append_eq_of_le h

theorem low_26_6 (x : BitVec 26) (y : BitVec 6) (k n : Nat) (h : k + n ≤ 6) :
    BitVec.extractLsb' (n := 32) k n (x ++ y) = y.extractLsb' k n :=
  BitVec.extractLsb'_append_eq_of_add_le h

theorem highBit_26_6 (x : BitVec 26) (y : BitVec 6) (k : Nat) (h : 6 ≤ k) :
    BitVec.getLsbD (w := 32) (x ++ y) k = x.getLsbD (k - 6) :=
  (BitVec.getLsbD_append ..).trans (by simp [Nat.not_lt.mpr h])

theorem high_29_3 (x : BitVec 29) (y : BitVec 3) (k n : Nat) (h : 3 ≤ k) :
    BitVec.extractLsb' (n := 32) k n (x ++ y) = x.extractLsb' (k - 3) n :=
  BitVec.extractLsb'_append_eq_of_le h

theorem low_29_3 (x : BitVec 29) (y : BitVec 3) (k n : Nat) (h : k + n ≤ 3) :
    BitVec.extractLsb' (n := 32) k n (x ++ y) = y.extractLsb' k n :=
  BitVec.extractLsb'_append_eq_of_add_le h

theorem highBit_29_3 (x : BitVec 29) (y : BitVec 3) (k : Nat) (h : 3 ≤ k) :
    BitVec.getLsbD (w := 32) (x ++ y) k = x.getLsbD (k - 3) :=
  (BitVec.getLsbD_append ..).trans (by simp [Nat.not_lt.mpr h])

theorem widened_1 (x : BitVec 1) : (x.setWidth 5).extractLsb' 0 1 = x := by revert x; decide

theorem widened_2 (x : BitVec 2) : (x.setWidth 5).extractLsb' 0 2 = x := by revert x; decide

theorem widened_3 (x : BitVec 3) : (x.setWidth 5).extractLsb' 0 3 = x := by revert x; decide

theorem widened_4 (x : BitVec 4) : (x.setWidth 5).extractLsb' 0 4 = x := by revert x; decide

theorem sr_m (m d a b f) : (sr m d a b f).extractLsb' 26 6 = m := by
  simp [sr, high_21_11, high_16_5, high_11_5, high_6_5]

theorem sr_d (m d a b f) : (sr m d a b f).extractLsb' 21 5 = d := by
  simp [sr, high_21_11, high_16_5, high_11_5, low_6_5]

theorem sr_a (m d a b f) : (sr m d a b f).extractLsb' 16 5 = a := by
  simp [sr, high_21_11, high_16_5, low_11_5]

theorem sr_b (m d a b f) : (sr m d a b f).extractLsb' 11 5 = b := by
  simp [sr, high_21_11, low_16_5]

theorem si_m (m d a i) : (si m d a i).extractLsb' 26 6 = m := by
  simp [si, high_16_16, high_11_5, high_6_5]

theorem si_d (m d a i) : (si m d a i).extractLsb' 21 5 = d := by
  simp [si, high_16_16, high_11_5, low_6_5]

theorem si_a (m d a i) : (si m d a i).extractLsb' 16 5 = a := by
  simp [si, high_16_16, low_11_5]

theorem si_i (m d a i) : (si m d a i).extractLsb' 0 16 = i := by
  simp [si, low_16_16]

theorem sj_m (m o) : (sj m o).extractLsb' 26 6 = m := by
  simp [sj, high_6_26]

theorem sj_o (m o) : (sj m o).extractLsb' 0 26 = o := by
  simp [sj, low_6_26]

theorem vr_m (m d a b x y k f) : (vr m d a b x y k f).extractLsb' 26 6 = m := by
  simp [vr, high_26_6, high_23_3, high_22_1, high_21_1, high_16_5, high_11_5, high_6_5]

theorem vr_d (m d a b x y k f) : (vr m d a b x y k f).extractLsb' 21 5 = d := by
  simp [vr, high_26_6, high_23_3, high_22_1, high_21_1, high_16_5, high_11_5, low_6_5]

theorem vr_a (m d a b x y k f) : (vr m d a b x y k f).extractLsb' 16 5 = a := by
  simp [vr, high_26_6, high_23_3, high_22_1, high_21_1, high_16_5, low_11_5]

theorem vr_b (m d a b x y k f) : (vr m d a b x y k f).extractLsb' 11 5 = b := by
  simp [vr, high_26_6, high_23_3, high_22_1, high_21_1, low_16_5]

theorem vr_k (m d a b x y k f) : (vr m d a b x y k f).extractLsb' 6 3 = k := by
  simp [vr, high_26_6, low_23_3]

theorem vr_f (m d a b x y k f) : (vr m d a b x y k f).extractLsb' 0 6 = f := by
  simp [vr, low_26_6]

theorem vm_m (m d a b x k f n) : (vm m d a b x k f n).extractLsb' 26 6 = m := by
  simp [vm, high_29_3, high_25_4, high_22_3, high_21_1, high_16_5, high_11_5, high_6_5]

theorem vm_d (m d a b x k f n) : (vm m d a b x k f n).extractLsb' 21 5 = d := by
  simp [vm, high_29_3, high_25_4, high_22_3, high_21_1, high_16_5, high_11_5, low_6_5]

theorem vm_a (m d a b x k f n) : (vm m d a b x k f n).extractLsb' 16 5 = a := by
  simp [vm, high_29_3, high_25_4, high_22_3, high_21_1, high_16_5, low_11_5]

theorem vm_b (m d a b x k f n) : (vm m d a b x k f n).extractLsb' 11 5 = b := by
  simp [vm, high_29_3, high_25_4, high_22_3, high_21_1, low_16_5]

theorem vm_k (m d a b x k f n) : (vm m d a b x k f n).extractLsb' 7 3 = k := by
  simp [vm, high_29_3, high_25_4, low_22_3]

theorem vm_f (m d a b x k f n) : (vm m d a b x k f n).extractLsb' 3 4 = f := by
  simp [vm, high_29_3, low_25_4]

theorem vm_n (m d a b x k f n) : (vm m d a b x k f n).extractLsb' 0 3 = n := by
  simp [vm, low_29_3]

theorem sr_low (m d a b f) (k n : Nat) (h : k + n ≤ 11) : (sr m d a b f).extractLsb' k n = f.extractLsb' k n := by
  unfold sr; exact low_21_11 _ _ _ _ h

theorem sr_bit (m d a b f) (k : Nat) (h : k < 11) : (sr m d a b f).getLsbD k = f.getLsbD k := by
  unfold sr; exact lowBit_21_11 _ _ _ h

theorem si_low (m d a i) (k n : Nat) (h : k + n ≤ 16) : (si m d a i).extractLsb' k n = i.extractLsb' k n := by
  unfold si; exact low_16_16 _ _ _ _ h

theorem vr_d_low (m d a b x y k f) (j : Nat) (h : j ≤ 5) : (vr m d a b x y k f).extractLsb' 21 j = d.extractLsb' 0 j := by
  unfold vr
  refine (high_26_6 _ _ _ _ (by decide)).trans ?_
  refine (high_23_3 _ _ _ _ (by decide)).trans ?_
  refine (high_22_1 _ _ _ _ (by decide)).trans ?_
  refine (high_21_1 _ _ _ _ (by decide)).trans ?_
  refine (high_16_5 _ _ _ _ (by decide)).trans ?_
  refine (high_11_5 _ _ _ _ (by decide)).trans ?_
  exact low_6_5 _ _ _ _ (by simpa using h)

theorem vr_a_low (m d a b x y k f) (j : Nat) (h : j ≤ 5) : (vr m d a b x y k f).extractLsb' 16 j = a.extractLsb' 0 j := by
  unfold vr
  refine (high_26_6 _ _ _ _ (by decide)).trans ?_
  refine (high_23_3 _ _ _ _ (by decide)).trans ?_
  refine (high_22_1 _ _ _ _ (by decide)).trans ?_
  refine (high_21_1 _ _ _ _ (by decide)).trans ?_
  refine (high_16_5 _ _ _ _ (by decide)).trans ?_
  exact low_11_5 _ _ _ _ (by simpa using h)

theorem vr_b_low (m d a b x y k f) (j : Nat) (h : j ≤ 5) : (vr m d a b x y k f).extractLsb' 11 j = b.extractLsb' 0 j := by
  unfold vr
  refine (high_26_6 _ _ _ _ (by decide)).trans ?_
  refine (high_23_3 _ _ _ _ (by decide)).trans ?_
  refine (high_22_1 _ _ _ _ (by decide)).trans ?_
  refine (high_21_1 _ _ _ _ (by decide)).trans ?_
  exact low_16_5 _ _ _ _ (by simpa using h)

theorem vm_d_low (m d a b x k f n) (j : Nat) (h : j ≤ 5) : (vm m d a b x k f n).extractLsb' 21 j = d.extractLsb' 0 j := by
  unfold vm
  refine (high_29_3 _ _ _ _ (by decide)).trans ?_
  refine (high_25_4 _ _ _ _ (by decide)).trans ?_
  refine (high_22_3 _ _ _ _ (by decide)).trans ?_
  refine (high_21_1 _ _ _ _ (by decide)).trans ?_
  refine (high_16_5 _ _ _ _ (by decide)).trans ?_
  refine (high_11_5 _ _ _ _ (by decide)).trans ?_
  exact low_6_5 _ _ _ _ (by simpa using h)

theorem vm_a_low (m d a b x k f n) (j : Nat) (h : j ≤ 5) : (vm m d a b x k f n).extractLsb' 16 j = a.extractLsb' 0 j := by
  unfold vm
  refine (high_29_3 _ _ _ _ (by decide)).trans ?_
  refine (high_25_4 _ _ _ _ (by decide)).trans ?_
  refine (high_22_3 _ _ _ _ (by decide)).trans ?_
  refine (high_21_1 _ _ _ _ (by decide)).trans ?_
  refine (high_16_5 _ _ _ _ (by decide)).trans ?_
  exact low_11_5 _ _ _ _ (by simpa using h)

theorem sr_b_low (m d a b f) (j : Nat) (h : j ≤ 5) : (sr m d a b f).extractLsb' 11 j = b.extractLsb' 0 j := by
  unfold sr
  refine (high_21_11 _ _ _ _ (by decide)).trans ?_
  exact low_16_5 _ _ _ _ (by simpa using h)

theorem vm_f_2 (m d a b x k f n) : (vm m d a b x k f n).extractLsb' 5 2 = f.extractLsb' 2 2 := by
  unfold vm
  exact (high_29_3 _ _ _ _ (by decide)).trans (low_25_4 _ _ _ _ (by decide))

theorem vm_f_0 (m d a b x k f n) : (vm m d a b x k f n).extractLsb' 3 2 = f.extractLsb' 0 2 := by
  unfold vm
  exact (high_29_3 _ _ _ _ (by decide)).trans (low_25_4 _ _ _ _ (by decide))

theorem vr_x (m d a b x y k f) : (vr m d a b x y k f).getLsbD 10 = x := by
  simp [-BitVec.getLsbD_eq_getElem, vr, highBit_26_6, highBit_23_3, highBit_22_1, lowBit_21_1, BitVec.getLsbD_ofBool]

theorem vr_y (m d a b x y k f) : (vr m d a b x y k f).getLsbD 9 = y := by
  simp [-BitVec.getLsbD_eq_getElem, vr, highBit_26_6, highBit_23_3, lowBit_22_1, BitVec.getLsbD_ofBool]

theorem vm_x (m d a b x k f n) : (vm m d a b x k f n).getLsbD 10 = x := by
  simp [-BitVec.getLsbD_eq_getElem, vm, highBit_29_3, highBit_25_4, highBit_22_3, lowBit_21_1, BitVec.getLsbD_ofBool]

/-- Table 4.4: the fields of a prefix word read back. -/
theorem pfx_decode_encode (p : Pfx) : Pfx.decode p.encode = p := by
  unfold Pfx.decode Pfx.encode
  obtain ⟨c, cv, t, r, m, mv, z, pv, sat⟩ := p
  simp only [Pfx.mk.injEq]
  refine ⟨?_, ?_, ?_, ?_, ?_, ?_, ?_, ?_, ?_⟩
  · refine (BitVec.extractLsb'_append_eq_of_le (by decide)).trans ?_
    refine (BitVec.extractLsb'_append_eq_of_le (by decide)).trans ?_
    refine (BitVec.extractLsb'_append_eq_of_le (by decide)).trans ?_
    refine (BitVec.extractLsb'_append_eq_of_le (by decide)).trans ?_
    refine (BitVec.extractLsb'_append_eq_of_le (by decide)).trans ?_
    refine (BitVec.extractLsb'_append_eq_of_le (by decide)).trans ?_
    refine (BitVec.extractLsb'_append_eq_of_le (by decide)).trans ?_
    refine (BitVec.extractLsb'_append_eq_of_le (by decide)).trans ?_
    refine (BitVec.extractLsb'_append_eq_of_le (by decide)).trans ?_
    exact (BitVec.extractLsb'_append_eq_of_add_le (by decide)).trans BitVec.extractLsb'_eq_self
  · refine (BitVec.getLsbD_append ..).trans ((if_neg (by decide)).trans ?_)
    refine (BitVec.getLsbD_append ..).trans ((if_neg (by decide)).trans ?_)
    refine (BitVec.getLsbD_append ..).trans ((if_neg (by decide)).trans ?_)
    refine (BitVec.getLsbD_append ..).trans ((if_neg (by decide)).trans ?_)
    refine (BitVec.getLsbD_append ..).trans ((if_neg (by decide)).trans ?_)
    refine (BitVec.getLsbD_append ..).trans ((if_neg (by decide)).trans ?_)
    refine (BitVec.getLsbD_append ..).trans ((if_neg (by decide)).trans ?_)
    refine (BitVec.getLsbD_append ..).trans ((if_neg (by decide)).trans ?_)
    exact (BitVec.getLsbD_append ..).trans ((if_pos (by decide)).trans (by simp))
  · refine (BitVec.extractLsb'_append_eq_of_le (by decide)).trans ?_
    refine (BitVec.extractLsb'_append_eq_of_le (by decide)).trans ?_
    refine (BitVec.extractLsb'_append_eq_of_le (by decide)).trans ?_
    refine (BitVec.extractLsb'_append_eq_of_le (by decide)).trans ?_
    refine (BitVec.extractLsb'_append_eq_of_le (by decide)).trans ?_
    refine (BitVec.extractLsb'_append_eq_of_le (by decide)).trans ?_
    refine (BitVec.extractLsb'_append_eq_of_le (by decide)).trans ?_
    exact (BitVec.extractLsb'_append_eq_of_add_le (by decide)).trans BitVec.extractLsb'_eq_self
  · refine (BitVec.extractLsb'_append_eq_of_le (by decide)).trans ?_
    refine (BitVec.extractLsb'_append_eq_of_le (by decide)).trans ?_
    refine (BitVec.extractLsb'_append_eq_of_le (by decide)).trans ?_
    refine (BitVec.extractLsb'_append_eq_of_le (by decide)).trans ?_
    refine (BitVec.extractLsb'_append_eq_of_le (by decide)).trans ?_
    refine (BitVec.extractLsb'_append_eq_of_le (by decide)).trans ?_
    exact (BitVec.extractLsb'_append_eq_of_add_le (by decide)).trans BitVec.extractLsb'_eq_self
  · refine (BitVec.extractLsb'_append_eq_of_le (by decide)).trans ?_
    refine (BitVec.extractLsb'_append_eq_of_le (by decide)).trans ?_
    refine (BitVec.extractLsb'_append_eq_of_le (by decide)).trans ?_
    refine (BitVec.extractLsb'_append_eq_of_le (by decide)).trans ?_
    refine (BitVec.extractLsb'_append_eq_of_le (by decide)).trans ?_
    exact (BitVec.extractLsb'_append_eq_of_add_le (by decide)).trans BitVec.extractLsb'_eq_self
  · refine (BitVec.getLsbD_append ..).trans ((if_neg (by decide)).trans ?_)
    refine (BitVec.getLsbD_append ..).trans ((if_neg (by decide)).trans ?_)
    refine (BitVec.getLsbD_append ..).trans ((if_neg (by decide)).trans ?_)
    refine (BitVec.getLsbD_append ..).trans ((if_neg (by decide)).trans ?_)
    exact (BitVec.getLsbD_append ..).trans ((if_pos (by decide)).trans (by simp))
  · refine (BitVec.getLsbD_append ..).trans ((if_neg (by decide)).trans ?_)
    refine (BitVec.getLsbD_append ..).trans ((if_neg (by decide)).trans ?_)
    refine (BitVec.getLsbD_append ..).trans ((if_neg (by decide)).trans ?_)
    exact (BitVec.getLsbD_append ..).trans ((if_pos (by decide)).trans (by simp))
  · refine (BitVec.getLsbD_append ..).trans ((if_neg (by decide)).trans ?_)
    refine (BitVec.getLsbD_append ..).trans ((if_neg (by decide)).trans ?_)
    exact (BitVec.getLsbD_append ..).trans ((if_pos (by decide)).trans (by simp))
  · refine (BitVec.getLsbD_append ..).trans ((if_neg (by decide)).trans ?_)
    exact (BitVec.getLsbD_append ..).trans ((if_pos (by decide)).trans (by simp))

theorem pfx_isPfx_encode (p : Pfx) : isPfx p.encode = true := by
  unfold isPfx Pfx.encode
  refine beq_iff_eq.mpr ?_
  refine (BitVec.extractLsb'_append_eq_of_le (by decide)).trans ?_
  refine (BitVec.extractLsb'_append_eq_of_le (by decide)).trans ?_
  refine (BitVec.extractLsb'_append_eq_of_le (by decide)).trans ?_
  refine (BitVec.extractLsb'_append_eq_of_le (by decide)).trans ?_
  refine (BitVec.extractLsb'_append_eq_of_le (by decide)).trans ?_
  refine (BitVec.extractLsb'_append_eq_of_le (by decide)).trans ?_
  refine (BitVec.extractLsb'_append_eq_of_le (by decide)).trans ?_
  refine (BitVec.extractLsb'_append_eq_of_le (by decide)).trans ?_
  refine (BitVec.extractLsb'_append_eq_of_le (by decide)).trans ?_
  refine (BitVec.extractLsb'_append_eq_of_le (by decide)).trans ?_
  exact BitVec.extractLsb'_eq_self

end Sys2Proof.Laws
end

