-- ==== Sys2Proof/Laws/Keeps1.lean ====
section
/-! SUPPORT. Keeps1.lean: every operation keeps State.Inv, part 1 of 6, in the order of the model's files. A lemma is
named after its operation, with _inv; _error and _ok where the operation may end in a trap. -/

namespace Sys2Proof.Machine

set_option maxRecDepth 40000
set_option linter.all false
set_option Elab.async false

theorem Memory.wfFrom_mono {m : List Host.Cell} {lo hi : Nat} (h : lo ≤ hi) (w : Memory.wfFrom hi m = true) : Memory.wfFrom lo m = true := by
  cases m with
  | nil => rfl
  | cons c r => obtain ⟨x, b⟩ := c; simp only [Memory.wfFrom, Bool.and_eq_true, decide_eq_true_eq] at *; exact ⟨⟨by omega, w.1.2⟩, w.2⟩
theorem Memory.wfFrom_write (m : List Host.Cell) (lo a : Nat) (b : Byte) (hl : lo ≤ a) (w : Memory.wfFrom lo m = true) :
    Memory.wfFrom lo (Memory.write m a b) = true := by
  induction m generalizing lo with
  | nil => unfold Memory.write; split <;> simp_all [Memory.wfFrom]
  | cons c r ih =>
    obtain ⟨x, y⟩ := c
    simp only [Memory.wfFrom, Bool.and_eq_true, decide_eq_true_eq] at w
    unfold Memory.write
    split
    · split
      · simp_all [Memory.wfFrom]
      · simp_all [Memory.wfFrom]
    · split
      · split
        · exact Memory.wfFrom_mono (by omega) w.2
        · simp_all [Memory.wfFrom]
      · simp only [Memory.wfFrom, Bool.and_eq_true, decide_eq_true_eq]
        exact ⟨w.1, ih _ (by omega) w.2⟩
theorem Memory.wf_write (m : List Host.Cell) (a : Nat) (b : Byte) (w : Memory.wf m = true) : Memory.wf (Memory.write m a b) = true :=
  Memory.wfFrom_write m 0 a b (Nat.zero_le a) w
theorem Memory.wf_writeBytes (l : List Byte) : ∀ (m : List Host.Cell) (a : Nat) (_ : Memory.wf m = true), Memory.wf (Memory.writeBytes m a l) = true := by
  induction l with
  | nil => intro m a w; exact w
  | cons b r ih => intro m a w; exact ih _ _ (Memory.wf_write m a b w)
theorem foldl_inv {α : Type} (l : List α) (f : State → α → State) (hf : ∀ s a, s.Inv → (f s a).Inv) : ∀ s : State, s.Inv → (l.foldl f s).Inv := by
  induction l with
  | nil => intro s h; exact h
  | cons b r ih => intro s h; exact ih _ (hf _ _ h)
theorem State.putBytes_inv : ∀ x0 x1 x2, State.Inv x0 → State.Inv (@State.putBytes x0 x1 x2) :=
  fun s a l h => ⟨Memory.wf_writeBytes l _ a h.1, h.2⟩
theorem foldlP_inv {α β : Type} (l : List α) (f : State × β → α → State × β) (hf : ∀ p a, p.1.Inv → (f p a).1.Inv) : ∀ p : State × β, p.1.Inv → (l.foldl f p).1.Inv := by
  induction l with
  | nil => intro s h; exact h
  | cons b r ih => intro s h; exact ih _ (hf _ _ h)
theorem place_getLsbD_high (v lo w i : Nat) (h : lo + w ≤ i) : (place v lo w).getLsbD i = false := by
  simp only [place, BitVec.getLsbD_ofNat, Nat.testBit_shiftLeft, Nat.testBit_mod_two_pow]
  by_cases h1 : i ≥ lo
  · have : ¬ (i - lo < w) := by omega
    simp [this]
  · omega
theorem TrapSet.enter_legal (t : TrapSet) (m pc c d e p a) (h : t.Legal) : (t.enter m pc c d e p a).Legal := by
  refine ⟨h.1, ?_, ?_⟩
  · apply BitVec.eq_of_getLsbD_eq
    intro i hi
    simp [TrapSet.enter, BitVec.getLsbD_extractLsb']
    intro _; rw [place_getLsbD_high _ _ _ _ (by omega), place_getLsbD_high _ _ _ _ (by omega)]; simp
  · apply BitVec.eq_of_getLsbD_eq
    intro i hi
    simp [TrapSet.enter, BitVec.getLsbD_extractLsb']
    intro _
    refine ⟨⟨⟨?_, ?_⟩, ?_⟩, ?_⟩ <;> apply place_getLsbD_high <;> omega
theorem Memory.wfFrom_filter (p : Host.Cell → Bool) : ∀ (m : List Host.Cell) (lo : Nat), Memory.wfFrom lo m = true → Memory.wfFrom lo (m.filter p) = true := by
  intro m; induction m with
  | nil => intro lo h; exact h
  | cons c r ih =>
    intro lo h
    obtain ⟨x, b⟩ := c
    simp only [Memory.wfFrom, Bool.and_eq_true, decide_eq_true_eq] at h
    simp only [List.filter_cons]; split
    · simp only [Memory.wfFrom, Bool.and_eq_true, decide_eq_true_eq]; exact ⟨h.1, ih _ h.2⟩
    · exact Memory.wfFrom_mono (by omega) (ih _ h.2)
theorem ite_inv {c : Prop} [Decidable c] {a b : Option State} {t : State} (ha : a = some t → t.Inv) (hb : b = some t → t.Inv) :
    (if c then a else b) = some t → t.Inv := by split <;> assumption
theorem State.putWord_inv : ∀ x0 x1 x2, State.Inv x0 → State.Inv (@State.putWord x0 x1 x2) := by
  intro x0 x1 x2 h0; unfold State.putWord; grind [State.putBytes_inv, foldl_inv, State.Inv]
theorem State.moveBytes_inv : ∀ x0 x1 x2 x3, State.Inv x0 → State.Inv (@State.moveBytes x0 x1 x2 x3) := by
  intro x0 x1 x2 x3 h0; exact State.putBytes_inv x0 _ _ h0
theorem State.addPoison_inv : ∀ x0 x1 x2, State.Inv x0 → State.Inv (@State.addPoison x0 x1 x2) := by
  intro x0 x1 x2 h0; exact h0
theorem State.onHall_inv : ∀ x0 x1 x2, State.Inv x0 → State.Inv (@State.onHall x0 x1 x2) := by
  intro x0 x1 x2 h0; exact h0
theorem State.onVf_inv : ∀ x0 x1 x2, State.Inv x0 → State.Inv (@State.onVf x0 x1 x2) := by
  intro x0 x1 x2 h0; exact h0
theorem State.onCluster_inv : ∀ x0 x1 x2 x3, State.Inv x0 → State.Inv (@State.onCluster x0 x1 x2 x3) := by
  intro x0 x1 x2 x3 h0; exact h0
theorem State.onQueue_inv : ∀ x0 x1 x2 x3, State.Inv x0 → State.Inv (@State.onQueue x0 x1 x2 x3) := by
  intro x0 x1 x2 x3 h0; exact h0
theorem State.onHart_inv : ∀ x0 x1, State.Inv x0 → State.Inv (@State.onHart x0 x1) := by
  intro x0 x1 h0; exact h0
theorem State.freeWord_inv : ∀ x0, State.Inv x0 → State.Inv ((@State.freeWord x0)).2 := by
  intro x0 h0; exact h0
theorem State.logViolation_inv : ∀ x0 x1 x2, State.Inv x0 → State.Inv (@State.logViolation x0 x1 x2) := by
  intro x0 x1 x2 h0; exact h0
theorem State.logError_inv : ∀ x0 x1 x2, State.Inv x0 → State.Inv (@State.logError x0 x1 x2) := by
  intro x0 x1 x2 h0; exact h0
theorem State.addTraffic_inv : ∀ x0 x1 x2 x3, State.Inv x0 → State.Inv (@State.addTraffic x0 x1 x2 x3) := by
  intro x0 x1 x2 x3 h0; unfold State.addTraffic; grind [State.onHall_inv, foldl_inv, State.Inv]
theorem State.countsOf_inv : ∀ x0 x1 x2, State.Inv x0 → State.Inv x1 → State.Inv (@State.countsOf x0 x1 x2) := by
  intro x0 x1 x2 h0 h1; exact h0
theorem State.countAccess_inv : ∀ x0 x1 x2 x3 x4, State.Inv x0 → State.Inv (@State.countAccess x0 x1 x2 x3 x4) := by
  intro x0 x1 x2 x3 x4 h0; unfold State.countAccess; grind [State.addTraffic_inv, foldl_inv, State.Inv]
theorem State.logRefusal_inv : ∀ x0 x1 x2 x3 x4, State.Inv x0 → State.Inv (@State.logRefusal x0 x1 x2 x3 x4) := by
  intro x0 x1 x2 x3 x4 h0; unfold State.logRefusal; grind [State.logViolation_inv, foldl_inv, State.Inv]
theorem State.fireWaits_inv : ∀ x0 x1 x2, State.Inv x0 → State.Inv (@State.fireWaits x0 x1 x2) := by
  intro x0 x1 x2 h0; exact h0
theorem State.evalLanding_inv : ∀ x0 x1 x2 x3, State.Inv x0 → State.Inv (@State.evalLanding x0 x1 x2 x3) := by
  intro x0 x1 x2 x3 h0; unfold State.evalLanding; grind [State.onHall_inv, foldl_inv, State.Inv]
theorem State.fireLandings_inv : ∀ x0 x1 x2, State.Inv x0 → State.Inv (@State.fireLandings x0 x1 x2) := by
  intro x0 x1 x2 h0; unfold State.fireLandings; grind [State.evalLanding_inv, foldl_inv, State.Inv]
theorem State.dropWindowLines_inv : ∀ x0 x1 x2 x3, State.Inv x0 → State.Inv (@State.dropWindowLines x0 x1 x2 x3) := by
  intro x0 x1 x2 x3 h0; exact h0
theorem State.dropOwnLines_inv : ∀ x0 x1 x2 x3, State.Inv x0 → State.Inv (@State.dropOwnLines x0 x1 x2 x3) := by
  intro x0 x1 x2 x3 h0; unfold State.dropOwnLines; grind [State.dropWindowLines_inv, foldl_inv, State.Inv]
theorem State.afterWrite_inv : ∀ x0 x1 x2, State.Inv x0 → State.Inv (@State.afterWrite x0 x1 x2) := by
  intro x0 x1 x2 h0; unfold State.afterWrite; grind [State.fireLandings_inv, State.fireWaits_inv, foldl_inv, State.Inv]
theorem State.evictLine_inv : ∀ x0 x1, State.Inv x0 → State.Inv (@State.evictLine x0 x1) := by
  intro x0 x1 h0; unfold State.evictLine; grind [foldl_inv, State.Inv]
theorem State.touchOne_inv : ∀ x0 x1, State.Inv x0 → State.Inv (@State.touchOne x0 x1) := by
  intro x0 x1 h0; unfold State.touchOne; grind [State.evictLine_inv, foldl_inv, State.Inv]
theorem State.onInk_inv : ∀ x0 x1 x2, State.Inv x0 → State.Inv (@State.onInk x0 x1 x2) := by
  intro x0 x1 x2 h0; unfold State.onInk; grind [State.touchOne_inv, foldl_inv, State.Inv]
theorem State.touchLine_inv : ∀ x0 x1 x2, State.Inv x0 → State.Inv (@State.touchLine x0 x1 x2) := by
  intro x0 x1 x2 h0; unfold State.touchLine; grind [State.touchOne_inv, foldl_inv, State.Inv]
theorem State.performBytes_inv : ∀ x0 x1 x2, State.Inv x0 → State.Inv (@State.performBytes x0 x1 x2) := by
  intro x0 x1 x2 h0; unfold State.performBytes; grind [State.afterWrite_inv, State.touchLine_inv, State.putBytes_inv, foldl_inv, State.Inv]
theorem State.logSealed_inv : ∀ x0 x1 x2 x3, State.Inv x0 → State.Inv (@State.logSealed x0 x1 x2 x3) := by
  intro x0 x1 x2 x3 h0; unfold State.logSealed; grind [State.logViolation_inv, foldl_inv, State.Inv]
theorem State.writeHome_inv : ∀ x0 x1 x2 x3 x4, State.Inv x0 → ((∀ t0, (@State.writeHome x0 x1 x2 x3 x4) = Except.error t0 → State.Inv t0) ∧ (∀ t0, (@State.writeHome x0 x1 x2 x3 x4) = Except.ok t0 → State.Inv t0)) := by
  intro x0 x1 x2 x3 x4 h0; unfold State.writeHome; grind [State.logRefusal_inv, State.logSealed_inv, State.performBytes_inv, foldl_inv, State.Inv]
theorem State.writeHome_inv_error : ∀ x0 x1 x2 x3 x4, State.Inv x0 → (∀ t0, (@State.writeHome x0 x1 x2 x3 x4) = Except.error t0 → State.Inv t0) := fun x0 x1 x2 x3 x4 h0 => (State.writeHome_inv x0 x1 x2 x3 x4 h0).1
theorem State.writeHome_inv_ok : ∀ x0 x1 x2 x3 x4, State.Inv x0 → (∀ t0, (@State.writeHome x0 x1 x2 x3 x4) = Except.ok t0 → State.Inv t0) := fun x0 x1 x2 x3 x4 h0 => (State.writeHome_inv x0 x1 x2 x3 x4 h0).2
theorem State.dropHostLine_inv : ∀ x0 x1, State.Inv x0 → State.Inv (@State.dropHostLine x0 x1) := by
  intro x0 x1 h0; unfold State.dropHostLine; grind [State.addTraffic_inv, foldl_inv, State.Inv]
theorem State.hostRoom_inv : ∀ x0 x1, State.Inv x0 → State.Inv (@State.hostRoom x0 x1) := by
  intro x0 x1 h0; unfold State.hostRoom; grind [State.dropHostLine_inv, foldl_inv, State.Inv]
theorem State.countHost_inv : ∀ x0 x1 x2 x3 x4, State.Inv x0 → State.Inv (@State.countHost x0 x1 x2 x3 x4) := by
  intro x0 x1 x2 x3 x4 h0; unfold State.countHost; grind [State.addTraffic_inv, State.hostRoom_inv, foldl_inv, State.Inv]
theorem State.countDevice_inv : ∀ x0 x1 x2 x3 x4, State.Inv x0 → State.Inv (@State.countDevice x0 x1 x2 x3 x4) := by
  intro x0 x1 x2 x3 x4 h0; unfold State.countDevice; grind [State.addTraffic_inv, State.countAccess_inv, foldl_inv, State.Inv]
theorem State.count_inv : ∀ x0 x1 x2 x3 x4, State.Inv x0 → State.Inv (@State.count x0 x1 x2 x3 x4) := by
  intro x0 x1 x2 x3 x4 h0; unfold State.count; grind [State.countHost_inv, State.countAccess_inv, foldl_inv, State.Inv]
theorem State.countUpdate_inv : ∀ x0 x1 x2 x3 x4, State.Inv x0 → State.Inv (@State.countUpdate x0 x1 x2 x3 x4) := by
  intro x0 x1 x2 x3 x4 h0; unfold State.countUpdate; grind [State.addTraffic_inv, State.dropHostLine_inv, State.count_inv, foldl_inv, State.Inv]
theorem State.fillWalks_inv : ∀ x0 x1 x2 x3 x4, State.Inv x0 → State.Inv (@State.fillWalks x0 x1 x2 x3 x4) := by
  intro x0 x1 x2 x3 x4 h0; exact h0
theorem State.logWalk_inv : ∀ x0 x1 x2 x3, State.Inv x0 → State.Inv (@State.logWalk x0 x1 x2 x3) := by
  intro x0 x1 x2 x3 h0; unfold State.logWalk; grind [State.logRefusal_inv, foldl_inv, State.Inv]
theorem State.fillTlbBy_inv : ∀ x0 x1 x2 x3 x4, State.Inv x0 → State.Inv (@State.fillTlbBy x0 x1 x2 x3 x4) := by
  intro x0 x1 x2 x3 x4 h0; unfold State.fillTlbBy; grind [State.logWalk_inv, State.fillWalks_inv, foldl_inv, State.Inv]
theorem State.fillTlb_inv : ∀ x0 x1 x2 x3, State.Inv x0 → State.Inv (@State.fillTlb x0 x1 x2 x3) := by
  intro x0 x1 x2 x3 h0; unfold State.fillTlb; grind [State.fillTlbBy_inv, foldl_inv, State.Inv]
theorem State.dropTlb_inv : ∀ x0 x1 x2, State.Inv x0 → State.Inv (@State.dropTlb x0 x1 x2) := by
  intro x0 x1 x2 h0; exact h0
theorem State.dropClaims_inv : ∀ x0 x1 x2 x3, State.Inv x0 → State.Inv (@State.dropClaims x0 x1 x2 x3) := by
  intro x0 x1 x2 x3 h0; exact h0
theorem State.onBarriers_inv : ∀ x0 x1, State.Inv x0 → State.Inv (@State.onBarriers x0 x1) := by
  intro x0 x1 h0; exact h0
theorem State.dispatchWrite_inv : ∀ x0 x1 x2 x3 x4, State.Inv x0 → State.Inv (@State.dispatchWrite x0 x1 x2 x3 x4) := by
  intro x0 x1 x2 x3 x4 h0; unfold State.dispatchWrite; grind [State.writeHome_inv_error, State.writeHome_inv_ok, foldl_inv, State.Inv]
theorem State.writeLaunchWord_inv : ∀ x0 x1 x2, State.Inv x0 → State.Inv (@State.writeLaunchWord x0 x1 x2) := by
  intro x0 x1 x2 h0; unfold State.writeLaunchWord; grind [State.dispatchWrite_inv, foldl_inv, State.Inv]
theorem State.onLaunch_inv : ∀ x0 x1 x2 x3, State.Inv x0 → State.Inv (@State.onLaunch x0 x1 x2 x3) := by
  intro x0 x1 x2 x3 h0; exact h0
theorem State.countEnd_inv : ∀ x0 x1 x2, State.Inv x0 → State.Inv (@State.countEnd x0 x1 x2) := by
  intro x0 x1 x2 h0; unfold State.countEnd; grind [State.onLaunch_inv, State.writeLaunchWord_inv, foldl_inv, State.Inv]
theorem State.endGroup_inv : ∀ x0 x1, State.Inv x0 → State.Inv (@State.endGroup x0 x1) := by
  intro x0 x1 h0; unfold State.endGroup; grind [State.onCluster_inv, foldl_inv, State.Inv]
theorem State.endUnit_inv : ∀ x0 x1 x2 x3, State.Inv x0 → State.Inv (@State.endUnit x0 x1 x2 x3) := by
  intro x0 x1 x2 x3 h0; unfold State.endUnit; grind [State.onBarriers_inv, State.dropClaims_inv, State.onHart_inv, State.countEnd_inv, State.endGroup_inv, foldl_inv, State.Inv]
theorem State.killUnit_inv : ∀ x0 x1, State.Inv x0 → State.Inv (@State.killUnit x0 x1) := by
  intro x0 x1 h0; unfold State.killUnit; grind [State.endUnit_inv, foldl_inv, State.Inv]
theorem State.killUnits_inv : ∀ x0 x1, State.Inv x0 → State.Inv (@State.killUnits x0 x1) := by
  intro x0 x1 h0; unfold State.killUnits; grind [State.killUnit_inv, foldl_inv, State.Inv]
theorem State.setG_inv : ∀ x0 x1 x2, State.Inv x0 → State.Inv (@State.setG x0 x1 x2) := by
  intro x0 x1 x2 h0; unfold State.setG; grind [foldl_inv, State.Inv]
theorem State.setCounter_inv : ∀ x0 x1 x2, State.Inv x0 → State.Inv (@State.setCounter x0 x1 x2) := by
  intro x0 x1 x2 h0; exact h0
theorem State.countUp_inv : ∀ x0 x1, State.Inv x0 → State.Inv (@State.countUp x0 x1) := by
  intro x0 x1 h0; unfold State.countUp; grind [State.setCounter_inv, foldl_inv, State.Inv]
theorem State.countDown_inv : ∀ x0 x1 x2, State.Inv x0 → State.Inv (@State.countDown x0 x1 x2) := by
  intro x0 x1 x2 h0; unfold State.countDown; grind [State.setCounter_inv, foldl_inv, State.Inv]
theorem State.countInstr_inv : ∀ x0, State.Inv x0 → State.Inv (@State.countInstr x0) := by
  intro x0 h0; unfold State.countInstr; grind [State.onCluster_inv, foldl_inv, State.Inv]
theorem State.setPc_inv : ∀ x0 x1, State.Inv x0 → State.Inv (@State.setPc x0 x1) := by
  intro x0 x1 h0; exact h0
theorem State.setTransfer_inv : ∀ x0 x1, State.Inv x0 → State.Inv (@State.setTransfer x0 x1) := by
  intro x0 x1 h0; exact h0
theorem State.retire_inv : ∀ x0 x1, State.Inv x0 → State.Inv (@State.retire x0 x1) := by
  intro x0 x1 h0; unfold State.retire; grind [State.countInstr_inv, State.setTransfer_inv, State.setPc_inv, foldl_inv, State.Inv]
theorem State.jump_inv : ∀ x0 x1, State.Inv x0 → State.Inv (@State.jump x0 x1) := by
  intro x0 x1 h0; unfold State.jump; grind [State.countInstr_inv, State.setTransfer_inv, State.setPc_inv, foldl_inv, State.Inv]
theorem State.enterS_inv : ∀ x0 x1, State.Inv x0 → State.Inv (@State.enterS x0 x1) := by
  intro x0 x1 h0; exact h0
theorem State.enterP_inv : ∀ x0 x1 x2 x3 x4 x5, State.Inv x0 → State.Inv (@State.enterP x0 x1 x2 x3 x4 x5) :=
  fun s c d e p a h => ⟨h.1, TrapSet.enter_legal _ _ _ _ _ _ _ _ h.2⟩
theorem State.undeliverable_inv : ∀ x0 x1, State.Inv x0 → State.Inv (@State.undeliverable x0 x1) := by
  intro x0 x1 h0; unfold State.undeliverable; grind [State.killUnit_inv, State.onCluster_inv, State.logError_inv, foldl_inv, State.Inv]
theorem State.takeP_inv : ∀ x0 x1 x2 x3 x4 x5 x6, State.Inv x0 → State.Inv (@State.takeP x0 x1 x2 x3 x4 x5 x6) := by
  intro s c d e p a f h; unfold State.takeP; split
  · exact State.undeliverable_inv _ _ h
  · exact State.enterP_inv _ _ _ _ _ _ h
theorem State.takeTrap_inv : ∀ x0 x1, State.Inv x0 → State.Inv (@State.takeTrap x0 x1) := by
  intro s t h; unfold State.takeTrap; split
  · exact State.takeP_inv _ _ _ _ _ _ _ h
  · split
    · exact State.takeP_inv _ _ _ _ _ _ _ h
    · exact h
theorem finish_inv : ∀ x0 x1, ((∀ t90a t90b, x1 = Except.error (t90a, t90b) → State.Inv t90b) ∧ (∀ t90, x1 = Except.ok t90 → State.Inv t90)) → (∀ t0, (@finish x0 x1) = Host.Outcome.next t0 → State.Inv t0) := by
  intro x0 x1 h0; unfold finish; grind [State.retire_inv, State.takeTrap_inv, foldl_inv, State.Inv]
theorem finish4_inv : ∀ x0, ((∀ t90a t90b, x0 = Except.error (t90a, t90b) → State.Inv t90b) ∧ (∀ t90, x0 = Except.ok t90 → State.Inv t90)) → (∀ t0, (@finish4 x0) = Host.Outcome.next t0 → State.Inv t0) := finish_inv none
theorem finishAt_inv : ∀ x0, ((∀ t90a t90b, x0 = Except.error (t90a, t90b) → State.Inv t90b) ∧ (∀ t90, x0 = Except.ok t90 → State.Inv t90)) → (∀ t0, (@finishAt x0) = Host.Outcome.next t0 → State.Inv t0) := by
  intro r h t e
  unfold finishAt at e
  split at e
  · injection e with e; subst e; exact h.2 _ rfl
  · injection e with e; subst e; exact State.takeTrap_inv _ _ (h.1 _ _ rfl)
theorem require_inv : ∀ x0 x1 x2, State.Inv x2 → ((∀ t0a t0b, (@require x0 x1 x2) = Except.error (t0a, t0b) → State.Inv t0b) ∧ (∀ t0, (@require x0 x1 x2) = Except.ok t0 → State.Inv t0)) := by
  intro x0 x1 x2 h0; unfold Sys2Proof.Machine.require; grind [foldl_inv, State.Inv]
theorem require_inv_error : ∀ x0 x1 x2, State.Inv x2 → (∀ t0a t0b, (@require x0 x1 x2) = Except.error (t0a, t0b) → State.Inv t0b) := fun x0 x1 x2 h0 => (require_inv x0 x1 x2 h0).1
theorem require_inv_ok : ∀ x0 x1 x2, State.Inv x2 → (∀ t0, (@require x0 x1 x2) = Except.ok t0 → State.Inv t0) := fun x0 x1 x2 h0 => (require_inv x0 x1 x2 h0).2
theorem State.onCmd_inv : ∀ x0 x1 x2, State.Inv x0 → State.Inv (@State.onCmd x0 x1 x2) := by
  intro x0 x1 x2 h0; exact h0
theorem State.onColl_inv : ∀ x0 x1 x2, State.Inv x0 → State.Inv (@State.onColl x0 x1 x2) := by
  intro x0 x1 x2 h0; exact h0
theorem State.abortRun_inv : ∀ x0 x1 x2 x3, State.Inv x0 → State.Inv (@State.abortRun x0 x1 x2 x3) := by
  intro x0 x1 x2 x3 h0; exact h0
theorem State.joinRun_inv : ∀ x0 x1, State.Inv x0 → State.Inv ((@State.joinRun x0 x1)).1 := by
  intro x0 x1 h0; unfold State.joinRun; grind [State.onColl_inv, foldl_inv, State.Inv]
theorem State.leaveRun_inv : ∀ x0 x1, State.Inv x0 → State.Inv (@State.leaveRun x0 x1) := by
  intro x0 x1 h0; unfold State.leaveRun; grind [State.onColl_inv, foldl_inv, State.Inv]
theorem happened_inv : ∀ x0, State.Inv x0 → (∀ t0, (@happened x0) = Host.Outcome.next t0 → State.Inv t0) := by
  intro x0 h0; unfold happened; grind [foldl_inv, State.Inv]
theorem State.extend_inv : ∀ x0 x1 x2, State.Inv x0 → State.Inv (@State.extend x0 x1 x2) := by
  intro x0 x1 x2 h0; exact h0
theorem State.measureHall_inv : ∀ x0 x1, State.Inv x0 → State.Inv (@State.measureHall x0 x1) := by
  intro x0 x1 h0; exact h0
theorem State.releaseHall_inv : ∀ x0 x1, State.Inv x0 → State.Inv (@State.releaseHall x0 x1) := by
  intro x0 x1 h0; exact h0
theorem State.writeHown_inv : ∀ x0 x1 x2, State.Inv x0 → State.Inv (@State.writeHown x0 x1 x2) := by
  intro x0 x1 x2 h0; unfold State.writeHown; grind [State.extend_inv, State.onHall_inv, foldl_inv, State.Inv]
theorem execHallRelease_inv : ∀ x0 x1, State.Inv x1 → (∀ t0, (@execHallRelease x0 x1) = Host.Outcome.next t0 → State.Inv t0) := by
  intro x0 x1 h0; unfold execHallRelease; grind [happened_inv, State.releaseHall_inv, foldl_inv, State.Inv]
theorem execHownWrite_inv : ∀ x0 x1 x2, State.Inv x2 → (∀ t0, (@execHownWrite x0 x1 x2) = Host.Outcome.next t0 → State.Inv t0) := by
  intro x0 x1 x2 h0; unfold execHownWrite; grind [happened_inv, State.writeHown_inv, foldl_inv, State.Inv]
theorem State.raiseEvt_inv : ∀ x0 x1 x2, State.Inv x0 → State.Inv (@State.raiseEvt x0 x1 x2) := by
  intro x0 x1 x2 h0; exact h0
theorem State.shortfall_inv : ∀ x0 x1 x2, State.Inv x0 → State.Inv (@State.shortfall x0 x1 x2) := by
  intro x0 x1 x2 h0; exact h0
theorem State.loseSpanIn_inv : ∀ x0 x1, State.Inv x0 → State.Inv (@State.loseSpanIn x0 x1) := by
  intro x0 x1 h0; unfold State.loseSpanIn; grind [State.onHart_inv, foldl_inv, State.Inv]
theorem State.fence_inv : ∀ x0 x1 x2, State.Inv x0 → State.Inv (@State.fence x0 x1 x2) := by
  intro x0 x1 x2 h0; unfold State.fence; grind [State.onHall_inv, State.loseSpanIn_inv, foldl_inv, State.Inv]
theorem execHallFence_inv : ∀ x0 x1 x2, State.Inv x2 → (∀ t0, (@execHallFence x0 x1 x2) = Host.Outcome.next t0 → State.Inv t0) := by
  intro x0 x1 x2 h0; unfold execHallFence; grind [happened_inv, State.fence_inv, foldl_inv, State.Inv]
theorem execHallHangTimeout_inv : ∀ x0 x1, State.Inv x1 → (∀ t0, (@execHallHangTimeout x0 x1) = Host.Outcome.next t0 → State.Inv t0) := by
  intro x0 x1 h0; unfold execHallHangTimeout; grind [happened_inv, State.fence_inv, foldl_inv, State.Inv]
theorem State.dropGranted_inv : ∀ x0 x1 x2, State.Inv x0 → State.Inv (@State.dropGranted x0 x1 x2) := by
  intro x0 x1 x2 h0; exact h0
theorem State.onGallery_inv : ∀ x0 x1 x2 x3, State.Inv x0 → State.Inv (@State.onGallery x0 x1 x2 x3) := by
  intro x0 x1 x2 x3 h0; exact h0
theorem State.writeGwctl_inv : ∀ x0 x1 x2 x3, State.Inv x0 → State.Inv (@State.writeGwctl x0 x1 x2 x3) := by
  intro x0 x1 x2 x3 h0; unfold State.writeGwctl; grind [State.onGallery_inv, State.extend_inv, State.raiseEvt_inv, State.dropGranted_inv, foldl_inv, State.Inv]
theorem State.writeGwbase_inv : ∀ x0 x1 x2 x3, State.Inv x0 → State.Inv (@State.writeGwbase x0 x1 x2 x3) := by
  intro x0 x1 x2 x3 h0; unfold State.writeGwbase; grind [State.extend_inv, State.onGallery_inv, foldl_inv, State.Inv]
theorem execGwctlWrite_inv : ∀ x0 x1 x2 x3, State.Inv x3 → (∀ t0, (@execGwctlWrite x0 x1 x2 x3) = Host.Outcome.next t0 → State.Inv t0) := by
  intro x0 x1 x2 x3 h0; unfold execGwctlWrite; grind [happened_inv, State.writeGwctl_inv, foldl_inv, State.Inv]
theorem execGalleryRevokeDrainDone_inv : ∀ x0 x1 x2, State.Inv x2 → (∀ t0, (@execGalleryRevokeDrainDone x0 x1 x2) = Host.Outcome.next t0 → State.Inv t0) := by
  intro x0 x1 x2 h0; unfold execGalleryRevokeDrainDone; grind [happened_inv, State.onGallery_inv, foldl_inv, State.Inv]
theorem execViolationLogClear_inv : ∀ x0 x1, State.Inv x1 → (∀ t0, (@execViolationLogClear x0 x1) = Host.Outcome.next t0 → State.Inv t0) := by
  intro x0 x1 h0; unfold execViolationLogClear; grind [happened_inv, State.onHall_inv, foldl_inv, State.Inv]
theorem execVfvcapWrite_inv : ∀ x0 x1 x2, State.Inv x2 → (∀ t0, (@execVfvcapWrite x0 x1 x2) = Host.Outcome.next t0 → State.Inv t0) := by
  intro x0 x1 x2 h0; unfold execVfvcapWrite; grind [happened_inv, State.onVf_inv, foldl_inv, State.Inv]
theorem execVfResetComplete_inv : ∀ x0 x1, State.Inv x1 → (∀ t0, (@execVfResetComplete x0 x1) = Host.Outcome.next t0 → State.Inv t0) := by
  intro x0 x1 h0; unfold execVfResetComplete; grind [happened_inv, State.onVf_inv, foldl_inv, State.Inv]
theorem State.onPort_inv : ∀ x0 x1 x2 x3, State.Inv x0 → State.Inv (@State.onPort x0 x1 x2 x3) := by
  intro x0 x1 x2 x3 h0; exact h0
theorem State.writeGuar_inv : ∀ x0 x1 x2 x3, State.Inv x0 → State.Inv (@State.writeGuar x0 x1 x2 x3) := by
  intro x0 x1 x2 x3 h0; unfold State.writeGuar; grind [State.onPort_inv, State.shortfall_inv, foldl_inv, State.Inv]
theorem execPortcfgGuarWrite_inv : ∀ x0 x1 x2 x3, State.Inv x3 → (∀ t0, (@execPortcfgGuarWrite x0 x1 x2 x3) = Host.Outcome.next t0 → State.Inv t0) := by
  intro x0 x1 x2 x3 h0; unfold execPortcfgGuarWrite; grind [happened_inv, State.writeGuar_inv, foldl_inv, State.Inv]
theorem execTrfctlClear_inv : ∀ x0 x1, State.Inv x1 → (∀ t0, (@execTrfctlClear x0 x1) = Host.Outcome.next t0 → State.Inv t0) := by
  intro x0 x1 h0; unfold execTrfctlClear; grind [happened_inv, State.onHall_inv, foldl_inv, State.Inv]
theorem execTrfctlFreeze_inv : ∀ x0 x1 x2, State.Inv x2 → (∀ t0, (@execTrfctlFreeze x0 x1 x2) = Host.Outcome.next t0 → State.Inv t0) := by
  intro x0 x1 x2 h0; unfold execTrfctlFreeze; grind [happened_inv, State.onHall_inv, foldl_inv, State.Inv]
theorem State.fqWrite_inv : ∀ x0 x1 x2, State.Inv x0 → State.Inv (@State.fqWrite x0 x1 x2) := by
  intro x0 x1 x2 h0; unfold State.fqWrite; grind [State.writeHome_inv_error, State.writeHome_inv_ok, State.onHall_inv, foldl_inv, State.Inv]
theorem State.fqPost_inv : ∀ x0 x1 x2, State.Inv x0 → State.Inv (@State.fqPost x0 x1 x2) := by
  intro x0 x1 x2 h0; unfold State.fqPost; grind [State.onHall_inv, State.fqWrite_inv, foldl_inv, State.Inv]
theorem State.fqDrain_inv : ∀ x0 x1 x2, State.Inv x0 → State.Inv (@State.fqDrain x0 x1 x2) := by
  intro s h l; induction l generalizing s with
  | nil => intro w; exact w
  | cons e r ih => intro w; unfold State.fqDrain; split
                   · exact w
                   · exact ih _ (State.fqWrite_inv _ _ _ w)
theorem State.writeFqHead_inv : ∀ x0 x1 x2, State.Inv x0 → State.Inv (@State.writeFqHead x0 x1 x2) := by
  intro x0 x1 x2 h0; unfold State.writeFqHead; grind [State.onHall_inv, State.fqDrain_inv, foldl_inv, State.Inv]
theorem State.holdHart_inv : ∀ x0 x1 x2, State.Inv x0 → State.Inv (@State.holdHart x0 x1 x2) := by
  intro x0 x1 x2 h0; unfold State.holdHart; grind [State.fqPost_inv, State.onHall_inv, State.onHart_inv, foldl_inv, State.Inv]
theorem State.unhold_inv : ∀ x0 x1 x2, State.Inv x0 → State.Inv (@State.unhold x0 x1 x2) := by
  intro x0 x1 x2 h0; exact h0
theorem State.invalidate_inv : ∀ x0 x1 x2, State.Inv x0 → State.Inv (@State.invalidate x0 x1 x2) := by
  intro x0 x1 x2 h0; exact h0
theorem State.forward_inv : ∀ x0 x1, State.Inv x0 → State.Inv (@State.forward x0 x1) := by
  intro x0 x1 h0; unfold State.forward; grind [State.retire_inv, State.onHart_inv, State.putBytes_inv, State.takeTrap_inv, foldl_inv, State.Inv]
theorem State.startShoot_inv : ∀ x0 x1 x2 x3, State.Inv x0 → State.Inv (@State.startShoot x0 x1 x2 x3) := by
  intro x0 x1 x2 x3 h0; unfold State.startShoot; grind [State.onHall_inv, foldl_inv, State.Inv]
theorem execShootctlGo_inv : ∀ x0 x1 x2 x3, State.Inv x3 → (∀ t0, (@execShootctlGo x0 x1 x2 x3) = Host.Outcome.next t0 → State.Inv t0) := by
  intro x0 x1 x2 x3 h0; unfold execShootctlGo; grind [happened_inv, State.startShoot_inv, foldl_inv, State.Inv]
theorem State.relay_inv : ∀ x0 x1 x2, State.Inv x0 → State.Inv (@State.relay x0 x1 x2) := by
  intro x0 x1 x2 h0; unfold State.relay; grind [State.loseSpanIn_inv, foldl_inv, State.Inv]
theorem execRelayEstablished_inv : ∀ x0 x1 x2, State.Inv x2 → (∀ t0, (@execRelayEstablished x0 x1 x2) = Host.Outcome.next t0 → State.Inv t0) := by
  intro x0 x1 x2 h0; unfold execRelayEstablished; grind [happened_inv, State.relay_inv, foldl_inv, State.Inv]
theorem execWavelengthRelit_inv : ∀ x0 x1 x2, State.Inv x2 → (∀ t0, (@execWavelengthRelit x0 x1 x2) = Host.Outcome.next t0 → State.Inv t0) := by
  intro x0 x1 x2 h0; unfold execWavelengthRelit; apply happened_inv; exact h0
theorem execExtPortTrain_inv : ∀ x0 x1 x2 x3 x4 x5 x6, State.Inv x6 → (∀ t0, (@execExtPortTrain x0 x1 x2 x3 x4 x5 x6) = Host.Outcome.next t0 → State.Inv t0) := by
  intro x0 x1 x2 x3 x4 x5 x6 h0; unfold execExtPortTrain; grind [State.onPort_inv, happened_inv, State.shortfall_inv, foldl_inv, State.Inv]
theorem execExtFlitReceive_inv : ∀ x0 x1 x2 x3 x4 x5 x6, State.Inv x6 → (∀ t0, (@execExtFlitReceive x0 x1 x2 x3 x4 x5 x6) = Host.Outcome.next t0 → State.Inv t0) := by
  intro x0 x1 x2 x3 x4 x5 x6 h0; unfold execExtFlitReceive; grind [happened_inv, State.onPort_inv, foldl_inv, State.Inv]
theorem execNakReceived_inv : ∀ x0 x1 x2 x3, State.Inv x3 → (∀ t0, (@execNakReceived x0 x1 x2 x3) = Host.Outcome.next t0 → State.Inv t0) := by
  intro x0 x1 x2 x3 h0; unfold execNakReceived; grind [happened_inv, State.onPort_inv, foldl_inv, State.Inv]
theorem execAckReceived_inv : ∀ x0 x1 x2 x3, State.Inv x3 → (∀ t0, (@execAckReceived x0 x1 x2 x3) = Host.Outcome.next t0 → State.Inv t0) := by
  intro x0 x1 x2 x3 h0; unfold execAckReceived; grind [happened_inv, State.onPort_inv, foldl_inv, State.Inv]
theorem execPortRetrain_inv : ∀ x0 x1 x2, State.Inv x2 → (∀ t0, (@execPortRetrain x0 x1 x2) = Host.Outcome.next t0 → State.Inv t0) := by
  intro x0 x1 x2 h0; unfold execPortRetrain; grind [happened_inv, State.onPort_inv, foldl_inv, State.Inv]
theorem State.loseCircuit_inv : ∀ x0 x1, State.Inv x0 → State.Inv (@State.loseCircuit x0 x1) := by
  intro x0 x1 h0; exact h0
theorem execRetrainTimeout_inv : ∀ x0 x1 x2, State.Inv x2 → (∀ t0, (@execRetrainTimeout x0 x1 x2) = Host.Outcome.next t0 → State.Inv t0) := by
  intro x0 x1 x2 h0; unfold execRetrainTimeout; grind [happened_inv, State.loseCircuit_inv, State.onPort_inv, foldl_inv, State.Inv]
theorem execEpkctlSwitch_inv : ∀ x0 x1 x2, State.Inv x2 → (∀ t0, (@execEpkctlSwitch x0 x1 x2) = Host.Outcome.next t0 → State.Inv t0) := by
  intro x0 x1 x2 h0; unfold execEpkctlSwitch; grind [happened_inv, State.onPort_inv, foldl_inv, State.Inv]
theorem execKeyLow_inv : ∀ x0 x1 x2, State.Inv x2 → (∀ t0, (@execKeyLow x0 x1 x2) = Host.Outcome.next t0 → State.Inv t0) := by
  intro x0 x1 x2 h0; unfold execKeyLow; grind [happened_inv, State.onPort_inv, foldl_inv, State.Inv]
theorem execKeyExhausted_inv : ∀ x0 x1 x2, State.Inv x2 → (∀ t0, (@execKeyExhausted x0 x1 x2) = Host.Outcome.next t0 → State.Inv t0) := by
  intro x0 x1 x2 h0; unfold execKeyExhausted; grind [happened_inv, State.onPort_inv, foldl_inv, State.Inv]
theorem execKeyExhaustedTimeout_inv : ∀ x0 x1 x2, State.Inv x2 → (∀ t0, (@execKeyExhaustedTimeout x0 x1 x2) = Host.Outcome.next t0 → State.Inv t0) := by
  intro x0 x1 x2 h0; unfold execKeyExhaustedTimeout; grind [happened_inv, State.loseCircuit_inv, State.onPort_inv, foldl_inv, State.Inv]
theorem execFabricPacketForward_inv : ∀ x0 x1 x2 x3 x4, State.Inv x4 → (∀ t0, (@execFabricPacketForward x0 x1 x2 x3 x4) = Host.Outcome.next t0 → State.Inv t0) := by
  intro x0 x1 x2 x3 x4 h0; unfold execFabricPacketForward; grind [happened_inv, State.onPort_inv, foldl_inv, State.Inv]
theorem execPtpTimeFlit_inv : ∀ x0 x1, State.Inv x1 → (∀ t0, (@execPtpTimeFlit x0 x1) = Host.Outcome.next t0 → State.Inv t0) := by
  intro x0 x1 h0; unfold execPtpTimeFlit; apply happened_inv; grind [happened_inv, foldl_inv, State.Inv]
theorem State.onHostPort_inv : ∀ x0 x1 x2, State.Inv x0 → State.Inv (@State.onHostPort x0 x1 x2) := by
  intro x0 x1 x2 h0; exact h0
theorem State.uncachePort_inv : ∀ x0 x1, State.Inv x0 → State.Inv (@State.uncachePort x0 x1) := by
  intro x0 x1 h0; exact h0
theorem State.hostPortDown_inv : ∀ x0 x1, State.Inv x0 → State.Inv (@State.hostPortDown x0 x1) := by
  intro x0 x1 h0; exact h0
theorem execHostPortTrain_inv : ∀ x0 x1 x2 x3 x4 x5 x6, State.Inv x6 → (∀ t0, (@execHostPortTrain x0 x1 x2 x3 x4 x5 x6) = Host.Outcome.next t0 → State.Inv t0) := by
  intro x0 x1 x2 x3 x4 x5 x6 h0; unfold execHostPortTrain; grind [happened_inv, State.onHostPort_inv, State.hostPortDown_inv, State.uncachePort_inv, foldl_inv, State.Inv]
theorem execHostPortDown_inv : ∀ x0 x1, State.Inv x1 → (∀ t0, (@execHostPortDown x0 x1) = Host.Outcome.next t0 → State.Inv t0) := by
  intro x0 x1 h0; unfold execHostPortDown; apply happened_inv; exact h0
theorem execHostSnoop_inv : ∀ x0 x1 x2, State.Inv x2 → (∀ t0, (@execHostSnoop x0 x1 x2) = Host.Outcome.next t0 → State.Inv t0) := by
  intro x0 x1 x2 h0; unfold execHostSnoop; apply happened_inv; exact h0
theorem execHostCxlMemRequest_inv : ∀ x0 x1 x2 x3, State.Inv x3 → (∀ t0, (@execHostCxlMemRequest x0 x1 x2 x3) = Host.Outcome.next t0 → State.Inv t0) := by
  intro x0 x1 x2 x3 h0; unfold execHostCxlMemRequest; apply happened_inv; grind [happened_inv, State.logRefusal_inv, State.logSealed_inv, State.writeHome_inv_error, State.writeHome_inv_ok, foldl_inv, State.Inv]
theorem State.onWell_inv : ∀ x0 x1 x2, State.Inv x0 → State.Inv (@State.onWell x0 x1 x2) := by
  intro x0 x1 x2 h0; exact h0
theorem State.setWellElem_inv : ∀ x0 x1 x2 x3 x4, State.Inv x0 → State.Inv (@State.setWellElem x0 x1 x2 x3 x4) := by
  intro x0 x1 x2 x3 x4 h0; unfold State.setWellElem; grind [State.performBytes_inv, foldl_inv, State.Inv]
theorem State.depositOne_inv : ∀ x0 x1 x2 x3, State.Inv x0 → State.Inv (@State.depositOne x0 x1 x2 x3) := by
  intro x0 x1 x2 x3 h0; unfold State.depositOne; grind [State.setWellElem_inv, State.onWell_inv, foldl_inv, State.Inv]
theorem State.makeResident_inv : ∀ x0 x1, State.Inv x0 → State.Inv (@State.makeResident x0 x1) := by
  intro x0 x1 h0; exact h0
theorem State.wellDeposit_inv : ∀ x0 x1 x2 x3, State.Inv x0 → State.Inv ((@State.wellDeposit x0 x1 x2 x3)).1 := by
  intro x0 x1 x2 x3 h0; unfold State.wellDeposit; grind [State.makeResident_inv, State.depositOne_inv, foldl_inv, State.Inv]
theorem State.wellInit_inv : ∀ x0 x1 x2 x3, State.Inv x0 → State.Inv (@State.wellInit x0 x1 x2 x3) := by
  intro x0 x1 x2 x3 h0; unfold State.wellInit; grind [State.onWell_inv, State.performBytes_inv, foldl_inv, State.Inv]
theorem State.wellRead_inv : ∀ x0 x1 x2 x3, State.Inv x0 → State.Inv ((@State.wellRead x0 x1 x2 x3)).1 := by
  intro x0 x1 x2 x3 h0; exact h0
theorem State.wellReset_inv : ∀ x0 x1 x2 x3, State.Inv x0 → State.Inv (@State.wellReset x0 x1 x2 x3) := by
  intro x0 x1 x2 x3 h0; unfold State.wellReset; grind [State.setWellElem_inv, State.onWell_inv, foldl_inv, State.Inv]
theorem State.logUpdate_inv : ∀ x0 x1 x2 x3 x4, State.Inv x0 → State.Inv (@State.logUpdate x0 x1 x2 x3 x4) := by
  intro x0 x1 x2 x3 x4 h0; unfold State.logUpdate; grind [State.logRefusal_inv, State.logSealed_inv, foldl_inv, State.Inv]
theorem State.updateHome_inv : ∀ x0 x1 x2 x3 x4 x5 x6, State.Inv x0 → ((∀ t0a t0b, (@State.updateHome x0 x1 x2 x3 x4 x5 x6) = Except.error (t0a, t0b) → State.Inv t0b) ∧ (∀ t0a t0b, (@State.updateHome x0 x1 x2 x3 x4 x5 x6) = Except.ok (t0a, t0b) → State.Inv t0b)) := by
  intro x0 x1 x2 x3 x4 x5 x6 h0; unfold State.updateHome; grind [State.logUpdate_inv, State.performBytes_inv, foldl_inv, State.Inv]
theorem State.updateHome_inv_error : ∀ x0 x1 x2 x3 x4 x5 x6, State.Inv x0 → (∀ t0a t0b, (@State.updateHome x0 x1 x2 x3 x4 x5 x6) = Except.error (t0a, t0b) → State.Inv t0b) := fun x0 x1 x2 x3 x4 x5 x6 h0 => (State.updateHome_inv x0 x1 x2 x3 x4 x5 x6 h0).1
theorem State.updateHome_inv_ok : ∀ x0 x1 x2 x3 x4 x5 x6, State.Inv x0 → (∀ t0a t0b, (@State.updateHome x0 x1 x2 x3 x4 x5 x6) = Except.ok (t0a, t0b) → State.Inv t0b) := fun x0 x1 x2 x3 x4 x5 x6 h0 => (State.updateHome_inv x0 x1 x2 x3 x4 x5 x6 h0).2
theorem State.writeRuns_inv : ∀ x0 x1 x2 x3, State.Inv x0 → ((∀ t0, (@State.writeRuns x0 x1 x2 x3) = Except.error t0 → State.Inv t0) ∧ (∀ t0, (@State.writeRuns x0 x1 x2 x3) = Except.ok t0 → State.Inv t0)) := by
  intro s w f l; induction l generalizing s with
  | nil => intro h; simp only [State.writeRuns]; grind
  | cons e r ih => intro h; obtain ⟨a, bs⟩ := e; simp only [State.writeRuns]; grind [State.writeHome_inv_error, State.writeHome_inv_ok, State.count_inv]
theorem State.writeRuns_inv_error : ∀ x0 x1 x2 x3, State.Inv x0 → (∀ t0, (@State.writeRuns x0 x1 x2 x3) = Except.error t0 → State.Inv t0) := fun x0 x1 x2 x3 h0 => (State.writeRuns_inv x0 x1 x2 x3 h0).1
theorem State.writeRuns_inv_ok : ∀ x0 x1 x2 x3, State.Inv x0 → (∀ t0, (@State.writeRuns x0 x1 x2 x3) = Except.ok t0 → State.Inv t0) := fun x0 x1 x2 x3 h0 => (State.writeRuns_inv x0 x1 x2 x3 h0).2
theorem State.writeAmos_inv : ∀ x0 x1 x2 x3 x4 x5, State.Inv x0 → State.Inv ((@State.writeAmos x0 x1 x2 x3 x4 x5)).1 := by
  intro s w f o t l; induction l generalizing s with
  | nil => intro h; exact h
  | cons e r ih => intro h; obtain ⟨a, bs⟩ := e; simp only [State.writeAmos]; split <;> grind [State.updateHome_inv_error, State.updateHome_inv_ok, State.countUpdate_inv]
theorem State.performPosted_inv : ∀ x0 x1, State.Inv x0 → State.Inv ((@State.performPosted x0 x1)).1 := by
  intro x0 x1 h0; unfold State.performPosted; grind [State.writeRuns_inv_error, State.writeRuns_inv_ok, State.dropOwnLines_inv, State.writeAmos_inv, State.logRefusal_inv, State.wellDeposit_inv, State.count_inv, State.wellInit_inv, foldl_inv, State.Inv]
theorem State.settleList_inv : ∀ x0 x1 x2, State.Inv x0 → State.Inv ((@State.settleList x0 x1 x2)).1 := by
  intro s f l; induction l generalizing s with
  | nil => intro h; exact h
  | cons e r ih => intro h; simp only [State.settleList]; split
                   · split <;> grind [State.performPosted_inv]
                   · exact ih _ h
theorem State.settle_inv : ∀ x0 x1, State.Inv x0 → State.Inv (@State.settle x0 x1) := by
  intro x0 x1 h0; unfold State.settle; grind [State.settleList_inv, State.onHart_inv, foldl_inv, State.Inv]
theorem State.settleAt_inv : ∀ x0 x1 x2, State.Inv x0 → State.Inv (@State.settleAt x0 x1 x2) := by
  intro x0 x1 x2 h0; unfold State.settleAt; grind [State.settle_inv, foldl_inv, State.Inv]
theorem State.collectErrors_inv : ∀ x0, State.Inv x0 → State.Inv (@State.collectErrors x0) := by
  intro x0 h0; exact h0
theorem State.settleAll_inv : ∀ x0, State.Inv x0 → State.Inv (@State.settleAll x0) := by
  intro x0 h0; unfold State.settleAll; grind [State.collectErrors_inv, State.settle_inv, foldl_inv, State.Inv]
theorem State.post_inv : ∀ x0 x1, State.Inv x0 → State.Inv (@State.post x0 x1) := by
  intro x0 x1 h0; unfold State.post; grind [State.settleAll_inv, State.onHart_inv, State.dropOwnLines_inv, foldl_inv, State.Inv]
theorem State.owedTrap_inv : ∀ x0, State.Inv x0 → (∀ t0a t0b, (@State.owedTrap x0) = some (t0a, t0b) → State.Inv t0b) := by
  intro x0 h0; unfold State.owedTrap; grind [State.onHart_inv, foldl_inv, State.Inv]
theorem State.settleScope_inv : ∀ x0 x1, State.Inv x0 → State.Inv (@State.settleScope x0 x1) := by
  intro x0 x1 h0; unfold State.settleScope; grind [State.settleAll_inv, State.collectErrors_inv, State.settle_inv, foldl_inv, State.Inv]
theorem State.release_inv : ∀ x0 x1, State.Inv x0 → ((∀ t0a t0b, (@State.release x0 x1) = Except.error (t0a, t0b) → State.Inv t0b) ∧ (∀ t0, (@State.release x0 x1) = Except.ok t0 → State.Inv t0)) := by
  intro x0 x1 h0; unfold State.release; grind [State.settleScope_inv, State.owedTrap_inv, foldl_inv, State.Inv]
theorem State.release_inv_error : ∀ x0 x1, State.Inv x0 → (∀ t0a t0b, (@State.release x0 x1) = Except.error (t0a, t0b) → State.Inv t0b) := fun x0 x1 h0 => (State.release_inv x0 x1 h0).1
theorem State.release_inv_ok : ∀ x0 x1, State.Inv x0 → (∀ t0, (@State.release x0 x1) = Except.ok t0 → State.Inv t0) := fun x0 x1 h0 => (State.release_inv x0 x1 h0).2
theorem execPostedWritePerformed_inv : ∀ x0 x1, State.Inv x1 → (∀ t0, (@execPostedWritePerformed x0 x1) = Host.Outcome.next t0 → State.Inv t0) := by
  intro x0 x1 h0; unfold execPostedWritePerformed; grind [happened_inv, State.settleList_inv, State.onHart_inv, foldl_inv, State.Inv]
theorem execStoreErrorResponse_inv : ∀ x0 x1, State.Inv x1 → (∀ t0, (@execStoreErrorResponse x0 x1) = Host.Outcome.next t0 → State.Inv t0) := by
  intro x0 x1 h0; unfold execStoreErrorResponse; grind [happened_inv, State.onHart_inv, foldl_inv, State.Inv]
theorem execStoreErrorTrap_inv : ∀ x0, State.Inv x0 → (∀ t0, (@execStoreErrorTrap x0) = Host.Outcome.next t0 → State.Inv t0) := by
  intro s h; unfold execStoreErrorTrap; apply happened_inv; grind [State.takeTrap_inv, State.owedTrap_inv]
theorem State.completeVec_inv : ∀ x0 x1, State.Inv x0 → State.Inv (@State.completeVec x0 x1) := by
  intro x0 x1 h0; unfold State.completeVec; grind [State.onInk_inv, State.countDown_inv, State.onHart_inv, foldl_inv, State.Inv]
theorem execVectorMemoryCompletion_inv : ∀ x0 x1, State.Inv x1 → (∀ t0, (@execVectorMemoryCompletion x0 x1) = Host.Outcome.next t0 → State.Inv t0) := by
  intro x0 x1 h0; unfold execVectorMemoryCompletion; grind [happened_inv, State.completeVec_inv, foldl_inv, State.Inv]
theorem State.completeVecs_inv : ∀ x0 x1, State.Inv x0 → State.Inv (@State.completeVecs x0 x1) := by
  intro x0 x1 h0; unfold State.completeVecs; grind [State.completeVec_inv, foldl_inv, State.Inv]
theorem execWellLineStep_inv : ∀ x0 x1, State.Inv x1 → (∀ t0, (@execWellLineStep x0 x1) = Host.Outcome.next t0 → State.Inv t0) := by
  intro x0 x1 h0; unfold execWellLineStep; grind [happened_inv, execPostedWritePerformed_inv, State.onWell_inv, foldl_inv, State.Inv]
theorem execWellLineFill_inv : ∀ x0 x1 x2, State.Inv x2 → (∀ t0, (@execWellLineFill x0 x1 x2) = Host.Outcome.next t0 → State.Inv t0) := by
  intro x0 x1 x2 h0; unfold execWellLineFill; grind [happened_inv, State.onWell_inv, State.settleAt_inv, State.logError_inv, foldl_inv, State.Inv]
theorem execWellLineEvict_inv : ∀ x0 x1, State.Inv x1 → (∀ t0, (@execWellLineEvict x0 x1) = Host.Outcome.next t0 → State.Inv t0) := by
  intro x0 x1 h0; unfold execWellLineEvict; grind [happened_inv, State.onWell_inv, foldl_inv, State.Inv]
theorem execWellLineWriteback_inv : ∀ x0 x1 x2, State.Inv x2 → (∀ t0, (@execWellLineWriteback x0 x1 x2) = Host.Outcome.next t0 → State.Inv t0) := by
  intro x0 x1 x2 h0; unfold execWellLineWriteback; grind [happened_inv, State.onWell_inv, foldl_inv, State.Inv]
theorem execWellPageMap_inv : ∀ x0 x1 x2, State.Inv x2 → (∀ t0, (@execWellPageMap x0 x1 x2) = Host.Outcome.next t0 → State.Inv t0) := by
  intro p w s h; unfold execWellPageMap; apply happened_inv; dsimp only; split
  · exact h
  · exact ⟨Memory.wfFrom_filter _ _ _ h.1, h.2⟩
theorem State.append_inv : ∀ x0 x1 x2 x3 x4 x5, State.Inv x0 → State.Inv ((@State.append x0 x1 x2 x3 x4 x5)).1 := by
  intro x0 x1 x2 x3 x4 x5 h0; unfold State.append; grind [State.logRefusal_inv, State.logSealed_inv, State.performBytes_inv, State.onInk_inv, State.count_inv, foldl_inv, State.Inv]
theorem execTailUnitAppend_inv : ∀ x0 x1 x2 x3, State.Inv x3 → (∀ t0, (@execTailUnitAppend x0 x1 x2 x3) = Host.Outcome.next t0 → State.Inv t0) := by
  intro x0 x1 x2 x3 h0; unfold execTailUnitAppend; grind [happened_inv, State.append_inv, foldl_inv, State.Inv]
theorem State.seal_inv : ∀ x0 x1 x2 x3, State.Inv x0 → ((∀ t0, (@State.seal x0 x1 x2 x3) = Except.error t0 → State.Inv t0) ∧ (∀ t0, (@State.seal x0 x1 x2 x3) = Except.ok t0 → State.Inv t0)) := by
  intro x0 x1 x2 x3 h0; unfold State.seal; grind [State.logRefusal_inv, State.onInk_inv, foldl_inv, State.Inv]
theorem State.seal_inv_error : ∀ x0 x1 x2 x3, State.Inv x0 → (∀ t0, (@State.seal x0 x1 x2 x3) = Except.error t0 → State.Inv t0) := fun x0 x1 x2 x3 h0 => (State.seal_inv x0 x1 x2 x3 h0).1
theorem State.seal_inv_ok : ∀ x0 x1 x2 x3, State.Inv x0 → (∀ t0, (@State.seal x0 x1 x2 x3) = Except.ok t0 → State.Inv t0) := fun x0 x1 x2 x3 h0 => (State.seal_inv x0 x1 x2 x3 h0).2
theorem execSealRequest_inv : ∀ x0 x1, State.Inv x1 → (∀ t0, (@execSealRequest x0 x1) = Host.Outcome.next t0 → State.Inv t0) := by
  intro x0 x1 h0; unfold execSealRequest; apply happened_inv; grind [happened_inv, State.seal_inv_error, State.seal_inv_ok, foldl_inv, State.Inv]
theorem State.sealDone_inv : ∀ x0 x1, State.Inv x0 → State.Inv (@State.sealDone x0 x1) := by
  intro x0 x1 h0; unfold State.sealDone; grind [State.onInk_inv, foldl_inv, State.Inv]
theorem execSealingComplete_inv : ∀ x0 x1, State.Inv x1 → (∀ t0, (@execSealingComplete x0 x1) = Host.Outcome.next t0 → State.Inv t0) := by
  intro x0 x1 h0; unfold execSealingComplete; grind [happened_inv, State.sealDone_inv, foldl_inv, State.Inv]
theorem execInkFrameMap_inv : ∀ x0 x1 x2, State.Inv x2 → (∀ t0, (@execInkFrameMap x0 x1 x2) = Host.Outcome.next t0 → State.Inv t0) := by
  intro x0 x1 x2 h0; unfold execInkFrameMap; grind [happened_inv, State.onInk_inv, foldl_inv, State.Inv]
theorem execInkPageFree_inv : ∀ x0 x1, State.Inv x1 → (∀ t0, (@execInkPageFree x0 x1) = Host.Outcome.next t0 → State.Inv t0) := by
  intro x0 x1 h0; unfold execInkPageFree; grind [happened_inv, State.onInk_inv, foldl_inv, State.Inv]
theorem execInkFreeDrainDone_inv : ∀ x0 x1, State.Inv x1 → (∀ t0, (@execInkFreeDrainDone x0 x1) = Host.Outcome.next t0 → State.Inv t0) := by
  intro x0 x1 h0; unfold execInkFreeDrainDone; apply happened_inv; grind [happened_inv, foldl_inv, State.Inv]
theorem State.dropReplica_inv : ∀ x0 x1 x2, State.Inv x0 → State.Inv (@State.dropReplica x0 x1 x2) := by
  intro x0 x1 x2 h0; exact h0
theorem execReplicaCreate_inv : ∀ x0 x1 x2, State.Inv x2 → (∀ t0, (@execReplicaCreate x0 x1 x2) = Host.Outcome.next t0 → State.Inv t0) := by
  intro x0 x1 x2 h0; unfold execReplicaCreate; apply happened_inv; grind [happened_inv, foldl_inv, State.Inv]
theorem execReplicaCopyDone_inv : ∀ x0 x1 x2, State.Inv x2 → (∀ t0, (@execReplicaCopyDone x0 x1 x2) = Host.Outcome.next t0 → State.Inv t0) := by
  intro x0 x1 x2 h0; unfold execReplicaCopyDone; grind [happened_inv, State.dropReplica_inv, State.putBytes_inv, State.onInk_inv, foldl_inv, State.Inv]
theorem State.reclaimReplica_inv : ∀ x0 x1 x2, State.Inv x0 → State.Inv (@State.reclaimReplica x0 x1 x2) := by
  intro x0 x1 x2 h0; exact h0
theorem execReplicaReclaim_inv : ∀ x0 x1 x2, State.Inv x2 → (∀ t0, (@execReplicaReclaim x0 x1 x2) = Host.Outcome.next t0 → State.Inv t0) := by
  intro x0 x1 x2 h0; unfold execReplicaReclaim; grind [happened_inv, State.reclaimReplica_inv, foldl_inv, State.Inv]
theorem execReplicaReclaimDone_inv : ∀ x0 x1 x2, State.Inv x2 → (∀ t0, (@execReplicaReclaimDone x0 x1 x2) = Host.Outcome.next t0 → State.Inv t0) := by
  intro x0 x1 x2 h0; unfold execReplicaReclaimDone; grind [happened_inv, State.onInk_inv, State.dropReplica_inv, foldl_inv, State.Inv]
theorem execShootdownDone_inv : ∀ x0 x1, State.Inv x1 → (∀ t0, (@execShootdownDone x0 x1) = Host.Outcome.next t0 → State.Inv t0) := by
  intro x0 x1 h0; unfold execShootdownDone; grind [happened_inv, State.onHall_inv, State.invalidate_inv, State.settle_inv, foldl_inv, State.Inv]
theorem State.drainPosted_inv : ∀ x0 x1, State.Inv x0 → State.Inv ((@State.drainPosted x0 x1)).1 := by
  intro x0 x1 h0; unfold State.drainPosted; grind [State.settle_inv, State.onHart_inv, foldl_inv, State.Inv]
theorem State.emptyL2_inv : ∀ x0 x1 x2, State.Inv x0 → State.Inv (@State.emptyL2 x0 x1 x2) := by
  intro x0 x1 x2 h0; unfold State.emptyL2; grind [State.addPoison_inv, State.addTraffic_inv, foldl_inv, State.Inv]
theorem State.clearHall_inv : ∀ x0 x1, State.Inv x0 → State.Inv (@State.clearHall x0 x1) := by
  intro s h w
  have := Memory.wfFrom_filter (fun c => !(paTarget c.1 == 4 && paChip c.1 == s.chip && homeHall c.1 == h)) _ _ w.1
  unfold State.clearHall; dsimp only; split <;> exact ⟨this, w.2⟩
theorem State.abandonIn_inv : ∀ x0 x1 x2, State.Inv x0 → State.Inv (@State.abandonIn x0 x1 x2) := by
  intro x0 x1 x2 h0; exact h0
theorem State.resetHall_inv : ∀ x0 x1 x2 x3, State.Inv x0 → State.Inv (@State.resetHall x0 x1 x2 x3) := by
  intro x0 x1 x2 x3 h0; unfold State.resetHall; grind [State.loseSpanIn_inv, State.killUnits_inv, State.onHart_inv, State.drainPosted_inv, State.abandonIn_inv, State.clearHall_inv, State.emptyL2_inv, State.onHall_inv, State.raiseEvt_inv, State.measureHall_inv, foldl_inv, State.Inv]
theorem execHallWarmReset_inv : ∀ x0 x1, State.Inv x1 → (∀ t0, (@execHallWarmReset x0 x1) = Host.Outcome.next t0 → State.Inv t0) := by
  intro x0 x1 h0; unfold execHallWarmReset; grind [happened_inv, State.resetHall_inv, foldl_inv, State.Inv]

end Sys2Proof.Machine
end

