-- ==== Sys2Proof/Laws/Keeps2.lean ====
section
/-! SUPPORT. Keeps2.lean: every operation keeps State.Inv, part 2 of 6, in the order of the model's files. A lemma is
named after its operation, with _inv; _error and _ok where the operation may end in a trap. -/

namespace Sys2Proof.Machine

set_option maxRecDepth 40000
set_option linter.all false
set_option Elab.async false

theorem execHallForcedReset_inv : ∀ x0 x1, State.Inv x1 → (∀ t0, (@execHallForcedReset x0 x1) = Host.Outcome.next t0 → State.Inv t0) := by
  intro x0 x1 h0; unfold execHallForcedReset; grind [happened_inv, State.resetHall_inv, foldl_inv, State.Inv]
theorem State.markLane_inv : ∀ x0 x1 x2 x3 x4, State.Inv x0 → State.Inv (@State.markLane x0 x1 x2 x3 x4) := by
  intro x0 x1 x2 x3 x4 h0; unfold State.markLane; grind [State.logError_inv, State.onCluster_inv, foldl_inv, State.Inv]
theorem State.markLanes_inv : ∀ x0 x1 x2 x3 x4, State.Inv x0 → State.Inv (@State.markLanes x0 x1 x2 x3 x4) := by
  intro x0 x1 x2 x3 x4 h0; unfold State.markLanes; grind [State.markLane_inv, foldl_inv, State.Inv]
theorem execLrsetWrite_inv : ∀ x0 x1 x2 x3 x4, State.Inv x4 → (∀ t0, (@execLrsetWrite x0 x1 x2 x3 x4) = Host.Outcome.next t0 → State.Inv t0) := by
  intro x0 x1 x2 x3 x4 h0; unfold execLrsetWrite; grind [happened_inv, State.markLanes_inv, foldl_inv, State.Inv]
theorem State.markQuarter_inv : ∀ x0 x1 x2 x3, State.Inv x0 → State.Inv (@State.markQuarter x0 x1 x2 x3) := by
  intro x0 x1 x2 x3 h0; unfold State.markQuarter; grind [State.logError_inv, State.onCluster_inv, foldl_inv, State.Inv]
theorem State.markQuarters_inv : ∀ x0 x1 x2 x3, State.Inv x0 → State.Inv (@State.markQuarters x0 x1 x2 x3) := by
  intro x0 x1 x2 x3 h0; unfold State.markQuarters; grind [State.markQuarter_inv, foldl_inv, State.Inv]
theorem execMpsetWrite_inv : ∀ x0 x1 x2 x3, State.Inv x3 → (∀ t0, (@execMpsetWrite x0 x1 x2 x3) = Host.Outcome.next t0 → State.Inv t0) := by
  intro x0 x1 x2 x3 h0; unfold execMpsetWrite; grind [happened_inv, State.markQuarters_inv, foldl_inv, State.Inv]
theorem State.chargeLane_inv : ∀ x0 x1 x2 x3 x4 x5, State.Inv x0 → State.Inv (@State.chargeLane x0 x1 x2 x3 x4 x5) := by
  intro x0 x1 x2 x3 x4 x5 h0; unfold State.chargeLane; grind [State.logError_inv, State.onCluster_inv, State.markLane_inv, foldl_inv, State.Inv]
theorem State.logChecksum_inv : ∀ x0 x1 x2 x3 x4, State.Inv x0 → State.Inv (@State.logChecksum x0 x1 x2 x3 x4) := by
  intro x0 x1 x2 x3 x4 h0; exact h0
theorem State.correctedRegister_inv : ∀ x0 x1 x2, State.Inv x0 → State.Inv (@State.correctedRegister x0 x1 x2) := by
  intro x0 x1 x2 h0; exact h0
theorem State.correctedError_inv : ∀ x0 x1 x2 x3 x4, State.Inv x0 → State.Inv (@State.correctedError x0 x1 x2 x3 x4) := by
  intro x0 x1 x2 x3 x4 h0; unfold State.correctedError; grind [State.onHall_inv, State.logError_inv, foldl_inv, State.Inv]
theorem State.correctedRead_inv : ∀ x0 x1 x2 x3, State.Inv x0 → State.Inv (@State.correctedRead x0 x1 x2 x3) := by
  intro x0 x1 x2 x3 h0; unfold State.correctedRead; grind [State.correctedError_inv, State.Inv]
theorem State.spoil_inv : ∀ x0 x1 x2, State.Inv x0 → State.Inv (@State.spoil x0 x1 x2) := by
  intro x0 x1 x2 h0; unfold State.spoil; grind [State.onWell_inv, State.onInk_inv, State.addPoison_inv, foldl_inv, State.Inv]
theorem State.scrubbed_inv : ∀ x0 x1 x2 x3, State.Inv x0 → State.Inv (@State.scrubbed x0 x1 x2 x3) := by
  intro x0 x1 x2 x3 h0; exact h0
theorem execScrubLine_inv : ∀ x0 x1 x2 x3 x4 x5, State.Inv x5 → (∀ t0, (@execScrubLine x0 x1 x2 x3 x4 x5) = Host.Outcome.next t0 → State.Inv t0) := by
  intro x0 x1 x2 x3 x4 x5 h0; unfold execScrubLine; grind [happened_inv, State.correctedError_inv, State.logError_inv, State.spoil_inv, State.scrubbed_inv, foldl_inv, State.Inv]
theorem execScrubPauseEnd_inv : ∀ x0 x1, State.Inv x1 → (∀ t0, (@execScrubPauseEnd x0 x1) = Host.Outcome.next t0 → State.Inv t0) := by
  intro x0 x1 h0; unfold execScrubPauseEnd; grind [happened_inv, State.onHall_inv, foldl_inv, State.Inv]
theorem execMemoryUncorrectableError_inv : ∀ x0 x1 x2 x3, State.Inv x3 → (∀ t0, (@execMemoryUncorrectableError x0 x1 x2 x3) = Host.Outcome.next t0 → State.Inv t0) := by
  intro x0 x1 x2 x3 h0; unfold execMemoryUncorrectableError; grind [happened_inv, State.logError_inv, State.spoil_inv, foldl_inv, State.Inv]
theorem execErrorLogClear_inv : ∀ x0 x1, State.Inv x1 → (∀ t0, (@execErrorLogClear x0 x1) = Host.Outcome.next t0 → State.Inv t0) := by
  intro x0 x1 h0; unfold execErrorLogClear; grind [happened_inv, State.onHall_inv, foldl_inv, State.Inv]
theorem State.bringUpHall_inv : ∀ x0 x1, State.Inv x0 → State.Inv (@State.bringUpHall x0 x1) := by
  intro x0 x1 h0; simp only [State.bringUpHall, bind, Except.bind, pure, Except.pure]; (repeat' split) <;> grind [State.onHall_inv, State.releaseHall_inv, State.measureHall_inv, foldl_inv, State.Inv]
theorem powerOnTail_inv (u : State) (hu : u.Inv) : State.Inv (if !u.image.accepted then u
  else
    let s := (List.range 16).foldl (fun s n =>
      s.onHall (BitVec.ofNat 4 n) fun x => { x with tenant := (pick (w := 4) s.image.halls (BitVec.ofNat 4 n)).loadedTenant }) u
    (List.range 16).foldl State.bringUpHall s) := by
  dsimp only
  split
  · exact hu
  · apply foldl_inv _ _ (fun s a h => State.bringUpHall_inv _ _ h)
    apply foldl_inv; intro s n h; exact State.onHall_inv s _ _ h
    exact hu
--SPLIT
theorem State.powerOn_inv : ∀ x0, State.Inv x0 → State.Inv (State.powerOn x0) := by
  intro s h
  exact powerOnTail_inv _ ⟨Memory.wfFrom_filter _ _ _ h.1, (by unfold TrapSet.Legal; decide : TrapSet.reset.Legal)⟩
theorem execPowerOn_inv : ∀ x0, State.Inv x0 → (∀ t0, (@execPowerOn x0) = Host.Outcome.next t0 → State.Inv t0) := by
  intro x0 h0; unfold execPowerOn; grind [happened_inv, State.powerOn_inv, foldl_inv, State.Inv]
theorem State.writeCap_inv : ∀ x0 x1 x2 x3, State.Inv x0 → State.Inv (@State.writeCap x0 x1 x2 x3) := by
  intro x0 x1 x2 x3 h0; exact h0
theorem execLanePoolCapWrite_inv : ∀ x0 x1 x2 x3, State.Inv x3 → (∀ t0, (@execLanePoolCapWrite x0 x1 x2 x3) = Host.Outcome.next t0 → State.Inv t0) := by
  intro x0 x1 x2 x3 h0; unfold execLanePoolCapWrite; grind [happened_inv, State.writeCap_inv, foldl_inv, State.Inv]
theorem execPowerCapAdjust_inv : ∀ x0 x1 x2 x3, State.Inv x3 → (∀ t0, (@execPowerCapAdjust x0 x1 x2 x3) = Host.Outcome.next t0 → State.Inv t0) := by
  intro x0 x1 x2 x3 h0; unfold execPowerCapAdjust; grind [State.onHall_inv, happened_inv, State.resetHall_inv, State.writeCap_inv, foldl_inv, State.Inv]
theorem execThermalTrip_inv : ∀ x0 x1, State.Inv x1 → (∀ t0, (@execThermalTrip x0 x1) = Host.Outcome.next t0 → State.Inv t0) := by
  intro x0 x1 h0; unfold execThermalTrip; grind [happened_inv, State.resetHall_inv, State.onHall_inv, foldl_inv, State.Inv]
theorem State.rollback_inv : ∀ x0, State.Inv x0 → State.Inv (@State.rollback x0) := by
  intro x0 h0; unfold State.rollback; grind [foldl_inv, State.Inv]
theorem State.stopHart_inv : ∀ x0 x1 x2 x3, State.Inv x0 → State.Inv (@State.stopHart x0 x1 x2 x3) := by
  intro x0 x1 x2 x3 h0; unfold State.stopHart; grind [State.onCluster_inv, State.onHart_inv, State.rollback_inv, foldl_inv, State.Inv]
theorem State.restart_inv : ∀ x0, State.Inv x0 → State.Inv (State.restart x0) := by
  intro s h; unfold State.restart; split
  · exact h
  · exact ⟨h.1, TrapSet.enter_legal _ _ _ _ _ _ _ _ h.2⟩
theorem State.runHart_inv : ∀ x0 x1 x2 x3, State.Inv x0 → State.Inv (@State.runHart x0 x1 x2 x3) := by
  intro x0 x1 x2 x3 h0; unfold State.runHart; grind [State.onCluster_inv, State.restart_inv, foldl_inv, State.Inv]
theorem execHctlStop_inv : ∀ x0 x1 x2 x3, State.Inv x3 → (∀ t0, (@execHctlStop x0 x1 x2 x3) = Host.Outcome.next t0 → State.Inv t0) := by
  intro x0 x1 x2 x3 h0; unfold execHctlStop; grind [happened_inv, State.stopHart_inv, foldl_inv, State.Inv]
theorem execHctlRun_inv : ∀ x0 x1 x2 x3, State.Inv x3 → (∀ t0, (@execHctlRun x0 x1 x2 x3) = Host.Outcome.next t0 → State.Inv t0) := by
  intro x0 x1 x2 x3 h0; unfold execHctlRun; grind [happened_inv, State.runHart_inv, foldl_inv, State.Inv]
theorem execHctlRecov_inv : ∀ x0 x1 x2 x3, State.Inv x3 → (∀ t0, (@execHctlRecov x0 x1 x2 x3) = Host.Outcome.next t0 → State.Inv t0) := by
  intro x0 x1 x2 x3 h0; unfold execHctlRecov; grind [happened_inv, State.onCluster_inv, foldl_inv, State.Inv]
theorem State.startAttest_inv : ∀ x0 x1, State.Inv x0 → State.Inv (@State.startAttest x0 x1) := by
  intro x0 x1 h0; unfold State.startAttest; grind [State.onVf_inv, foldl_inv, State.Inv]
theorem execAttestationGo_inv : ∀ x0 x1, State.Inv x1 → (∀ t0, (@execAttestationGo x0 x1) = Host.Outcome.next t0 → State.Inv t0) := by
  intro x0 x1 h0; unfold execAttestationGo; grind [happened_inv, State.startAttest_inv, foldl_inv, State.Inv]
theorem State.writeVfLines_inv : ∀ x0 x1 x2 x3 x4, State.Inv x0 → (∀ t0, (@State.writeVfLines x0 x1 x2 x3 x4) = some t0 → State.Inv t0) := by
  intro s v h va l; induction l generalizing s va with
  | nil => intro h; simp only [State.writeVfLines]; grind
  | cons e r ih => intro h; simp only [State.writeVfLines]; grind [State.writeHome_inv_error, State.writeHome_inv_ok]
theorem State.attest_inv : ∀ x0 x1, State.Inv x0 → State.Inv (@State.attest x0 x1) := by
  intro x0 x1 h0; unfold State.attest; grind [State.writeVfLines_inv, State.onVf_inv, foldl_inv, State.Inv]
theorem execAttestationReportDone_inv : ∀ x0 x1, State.Inv x1 → (∀ t0, (@execAttestationReportDone x0 x1) = Host.Outcome.next t0 → State.Inv t0) := by
  intro x0 x1 h0; unfold execAttestationReportDone; grind [happened_inv, State.attest_inv, foldl_inv, State.Inv]
theorem execKeyRecord_inv : ∀ x0 x1, State.Inv x1 → (∀ t0, (@execKeyRecord x0 x1) = Host.Outcome.next t0 → State.Inv t0) := by
  intro x0 x1 h0; unfold execKeyRecord; grind [happened_inv, State.onPort_inv, State.logError_inv, foldl_inv, State.Inv]
theorem State.writePieces_inv : ∀ x0 x1 x2, State.Inv x0 → State.Inv (@State.writePieces x0 x1 x2) := by
  intro x0 x1 x2 h0; unfold State.writePieces; grind [State.putBytes_inv, foldl_inv, State.Inv]
theorem State.completeInSlot_inv : ∀ x0 x1 x2 x3, State.Inv x0 → State.Inv (@State.completeInSlot x0 x1 x2 x3) := by
  intro x0 x1 x2 x3 h0; unfold State.completeInSlot; grind [State.putWord_inv, foldl_inv, State.Inv]
theorem State.writeImage_inv : ∀ x0 x1 x2, State.Inv x0 → State.Inv (@State.writeImage x0 x1 x2) := by
  intro x0 x1 x2 h0; unfold State.writeImage; grind [State.putBytes_inv, State.moveBytes_inv, foldl_inv, State.Inv]
theorem State.readImage_inv : ∀ x0 x1 x2 x3, State.Inv x0 → State.Inv (@State.readImage x0 x1 x2 x3) := by
  intro x0 x1 x2 x3 h0; unfold State.readImage; grind [State.moveBytes_inv, State.onCluster_inv, foldl_inv, State.Inv]
theorem State.takeHart_inv : ∀ x0 x1, State.Inv x0 → State.Inv (@State.takeHart x0 x1) := by
  intro x0 x1 h0; unfold State.takeHart; grind [State.settleAll_inv, foldl_inv, State.Inv]
theorem State.placeGroup_inv : ∀ x0 x1 x2 x3 x4 x5 x6, State.Inv x0 → State.Inv (@State.placeGroup x0 x1 x2 x3 x4 x5 x6) := by
  intro x0 x1 x2 x3 x4 x5 x6 h0; unfold State.placeGroup; grind [State.onCluster_inv, State.takeHart_inv, foldl_inv, State.Inv]
theorem State.addClaims_inv : ∀ x0 x1, State.Inv x0 → State.Inv (@State.addClaims x0 x1) := by
  intro x0 x1 h0; unfold State.addClaims; grind [State.onCluster_inv, foldl_inv, State.Inv]
theorem State.noteGrant_inv : ∀ x0 x1 x2, State.Inv x0 → State.Inv (@State.noteGrant x0 x1 x2) := by
  intro x0 x1 x2 h0; unfold State.noteGrant; grind [State.onCluster_inv, State.onHart_inv, foldl_inv, State.Inv]
theorem State.saveHart_inv : ∀ x0 x1, State.Inv x0 → State.Inv (@State.saveHart x0 x1) := by
  intro x0 x1 h0; unfold State.saveHart; grind [State.settleAll_inv, State.completeVecs_inv, State.rollback_inv, State.unhold_inv, State.writePieces_inv, foldl_inv, State.Inv]
theorem State.saveGroup_inv : ∀ x0 x1 x2 x3, State.Inv x0 → State.Inv (@State.saveGroup x0 x1 x2 x3) := by
  intro x0 x1 x2 x3 h0; simp only [State.saveGroup, bind, Except.bind, pure, Except.pure]; (repeat' split) <;> grind [State.saveHart_inv, State.writeImage_inv, State.dropClaims_inv, State.onCluster_inv, State.onHart_inv, foldl_inv, State.Inv]
theorem execContextSave_inv : ∀ x0 x1 x2 x3, State.Inv x3 → (∀ t0, (@execContextSave x0 x1 x2 x3) = Host.Outcome.next t0 → State.Inv t0) := by
  intro x0 x1 x2 x3 h0; unfold execContextSave; grind [happened_inv, State.saveGroup_inv, foldl_inv, State.Inv]
theorem execPreemptionTimeout_inv : ∀ x0 x1 x2 x3, State.Inv x3 → (∀ t0, (@execPreemptionTimeout x0 x1 x2 x3) = Host.Outcome.next t0 → State.Inv t0) := by
  intro x0 x1 x2 x3 h0; unfold execPreemptionTimeout; grind [happened_inv, State.saveGroup_inv, foldl_inv, State.Inv]
theorem State.reclaim_inv : ∀ x0 x1 x2, State.Inv x0 → State.Inv ((@State.reclaim x0 x1 x2)).1 := by
  intro x0 x1 x2 h0; unfold State.reclaim; grind [State.addClaims_inv, foldl_inv, State.Inv]
theorem State.resumeHart_inv : ∀ x0 x1, State.Inv x0 → State.Inv (@State.resumeHart x0 x1) := by
  intro s u h; unfold State.resumeHart; dsimp only
  have h1 := State.reclaim_inv s u.key.vf (s.slotWord (s.slotPa u.slotHall u.slot) 336) h
  split <;> first | exact State.takeHart_inv _ _ h1 | exact State.onHart_inv _ _ (State.takeHart_inv _ _ h1) | skip
theorem State.loseUnit_inv : ∀ x0 x1, State.Inv x0 → State.Inv (@State.loseUnit x0 x1) := by
  intro x0 x1 h0; unfold State.loseUnit; exact State.logError_inv _ _ _ (State.killUnit_inv _ _ h0)
theorem State.resumeGroup_inv : ∀ x0 x1 x2 x3 x4 x5, State.Inv x0 → State.Inv (@State.resumeGroup x0 x1 x2 x3 x4 x5) := by
  intro x0 x1 x2 x3 x4 x5 h0; unfold State.resumeGroup; grind [State.readImage_inv, State.resumeHart_inv, State.loseUnit_inv, foldl_inv, State.Inv]
theorem State.writeQcfg_inv : ∀ x0 x1 x2 x3, State.Inv x0 → State.Inv (@State.writeQcfg x0 x1 x2 x3) := by
  intro x0 x1 x2 x3 h0; exact h0
theorem execQcfgWrite_inv : ∀ x0 x1 x2 x3, State.Inv x3 → (∀ t0, (@execQcfgWrite x0 x1 x2 x3) = Host.Outcome.next t0 → State.Inv t0) := by
  intro x0 x1 x2 x3 h0; unfold execQcfgWrite; grind [happened_inv, State.writeQcfg_inv, foldl_inv, State.Inv]
theorem State.writeQbase_inv : ∀ x0 x1 x2 x3, State.Inv x0 → State.Inv (@State.writeQbase x0 x1 x2 x3) := by
  intro x0 x1 x2 x3 h0; exact h0
theorem State.writeTail_inv : ∀ x0 x1 x2 x3 x4 x5, State.Inv x0 → State.Inv (@State.writeTail x0 x1 x2 x3 x4 x5) := by
  intro x0 x1 x2 x3 x4 x5 h0; unfold State.writeTail; grind [State.logViolation_inv, State.onQueue_inv, foldl_inv, State.Inv]
theorem execQptrTailWrite_inv : ∀ x0 x1 x2 x3, State.Inv x3 → (∀ t0, (@execQptrTailWrite x0 x1 x2 x3) = Host.Outcome.next t0 → State.Inv t0) := by
  intro x0 x1 x2 x3 h0; unfold execQptrTailWrite; grind [happened_inv, State.writeTail_inv, foldl_inv, State.Inv]
theorem State.enqueue_inv : ∀ x0 x1 x2 x3, State.Inv x0 → State.Inv ((@State.enqueue x0 x1 x2 x3)).1 := by
  intro x0 x1 x2 x3 h0; unfold State.enqueue; grind [State.writeHome_inv_error, State.writeHome_inv_ok, State.onQueue_inv, foldl_inv, State.Inv]
theorem State.onGraph_inv : ∀ x0 x1 x2 x3, State.Inv x0 → State.Inv (@State.onGraph x0 x1 x2 x3) := by
  intro x0 x1 x2 x3 h0; exact h0
theorem State.cancelLaunch_inv : ∀ x0 x1 x2 x3, State.Inv x0 → State.Inv (@State.cancelLaunch x0 x1 x2 x3) := by
  intro x0 x1 x2 x3 h0; unfold State.cancelLaunch; grind [State.onLaunch_inv, State.killUnits_inv, foldl_inv, State.Inv]
theorem State.cancelNode_inv : ∀ x0 x1 x2 x3, State.Inv x0 → State.Inv (@State.cancelNode x0 x1 x2 x3) := by
  intro x0 x1 x2 x3 h0; unfold State.cancelNode; grind [State.onGraph_inv, State.cancelLaunch_inv, foldl_inv, State.Inv]
theorem State.cancelNodes_inv : ∀ x0 x1 x2 x3, State.Inv x0 → State.Inv (@State.cancelNodes x0 x1 x2 x3) := by
  intro x0 x1 x2 x3 h0; unfold State.cancelNodes; grind [State.cancelNode_inv, foldl_inv, State.Inv]
theorem State.writeGraphWord_inv : ∀ x0 x1 x2, State.Inv x0 → State.Inv (@State.writeGraphWord x0 x1 x2) := by
  intro x0 x1 x2 h0; unfold State.writeGraphWord; grind [State.dispatchWrite_inv, foldl_inv, State.Inv]
theorem State.endNode_inv : ∀ x0 x1 x2 x3, State.Inv x0 → State.Inv (@State.endNode x0 x1 x2 x3) := by
  intro x0 x1 x2 x3 h0; unfold State.endNode; grind [State.onGraph_inv, State.cancelNodes_inv, State.writeGraphWord_inv, foldl_inv, State.Inv]
theorem State.refreshGraph_inv : ∀ x0 x1 x2, State.Inv x0 → State.Inv (@State.refreshGraph x0 x1 x2) := by
  intro x0 x1 x2 h0; unfold State.refreshGraph; grind [State.cancelNode_inv, State.onLaunch_inv, foldl_inv, State.Inv]
theorem State.endLaunch_inv : ∀ x0 x1, State.Inv x0 → State.Inv (@State.endLaunch x0 x1) := by
  intro x0 x1 h0; unfold State.endLaunch; grind [State.writeLaunchWord_inv, State.onVf_inv, State.refreshGraph_inv, State.endNode_inv, foldl_inv, State.Inv]
theorem State.endOver_inv : ∀ x0 x1 x2, State.Inv x0 → State.Inv (@State.endOver x0 x1 x2) := by
  intro x0 x1 x2; induction x2 generalizing x0 x1 with
  | zero => intro h; exact h
  | succ e ih => intro h; simp only [State.endOver]; split
                 · exact h
                 · exact ih _ _ (State.endLaunch_inv _ _ h)
theorem execLaunchCompletion_inv : ∀ x0 x1 x2, State.Inv x2 → (∀ t0, (@execLaunchCompletion x0 x1 x2) = Host.Outcome.next t0 → State.Inv t0) := by
  intro x0 x1 x2 h0; unfold execLaunchCompletion; grind [happened_inv, State.endOver_inv, State.endLaunch_inv, foldl_inv, State.Inv]
theorem State.cancel_inv : ∀ x0 x1 x2 x3, State.Inv x0 → State.Inv ((@State.cancel x0 x1 x2 x3)).1 := by
  intro x0 x1 x2 x3 h0; unfold State.cancel; (repeat' split) <;> grind [State.cancelLaunch_inv, State.cancelNodes_inv, State.endOver_inv, State.onGraph_inv, State.onVf_inv, foldl_inv, State.Inv]
theorem State.stopCancelled_inv : ∀ x0 x1, State.Inv x0 → State.Inv (@State.stopCancelled x0 x1) := by
  intro x0 x1 h0; unfold State.stopCancelled; grind [State.endOver_inv, State.killUnit_inv, foldl_inv, State.Inv]
theorem execUnitKill_inv : ∀ x0 x1 x2 x3, State.Inv x3 → (∀ t0, (@execUnitKill x0 x1 x2 x3) = Host.Outcome.next t0 → State.Inv t0) := by
  intro x0 x1 x2 x3 h0; unfold execUnitKill; grind [happened_inv, State.stopCancelled_inv, foldl_inv, State.Inv]
theorem State.takeHead_inv : ∀ x0 x1 x2, State.Inv x0 → State.Inv (@State.takeHead x0 x1 x2) := by
  intro x0 x1 x2 h0; exact h0
theorem State.countRej_inv : ∀ x0 x1, State.Inv x0 → State.Inv (@State.countRej x0 x1) := by
  intro x0 x1 h0; exact h0
theorem State.openGraph_inv : ∀ x0 x1 x2, State.Inv x0 → State.Inv (@State.openGraph x0 x1 x2) := by
  intro x0 x1 x2 h0; unfold State.openGraph; grind [foldl_inv, State.Inv]
theorem State.reject_inv : ∀ x0 x1 x2, State.Inv x0 → State.Inv (@State.reject x0 x1 x2) := by
  intro x0 x1 x2 h0; unfold State.reject; grind [State.countRej_inv, State.takeHead_inv, State.dispatchWrite_inv, State.onGraph_inv, State.openGraph_inv, State.refreshGraph_inv, State.endNode_inv, foldl_inv, State.Inv]
theorem State.accept_inv : ∀ x0 x1 x2, State.Inv x0 → State.Inv (@State.accept x0 x1 x2) := by
  intro x0 x1 x2 h0; unfold State.accept; grind [State.openGraph_inv, State.takeHead_inv, State.writeLaunchWord_inv, State.onGraph_inv, State.endOver_inv, State.cancelNodes_inv, State.refreshGraph_inv, State.writeGraphWord_inv, foldl_inv, State.Inv]
theorem State.admitHead_inv : ∀ x0 x1 x2, State.Inv x0 → State.Inv (@State.admitHead x0 x1 x2) := by
  intro x0 x1 x2 h0; unfold State.admitHead; grind [State.logViolation_inv, State.countRej_inv, State.takeHead_inv, State.reject_inv, State.accept_inv, foldl_inv, State.Inv]
theorem execLaunchAdmission_inv : ∀ x0 x1 x2, State.Inv x2 → (∀ t0, (@execLaunchAdmission x0 x1 x2) = Host.Outcome.next t0 → State.Inv t0) := by
  intro x0 x1 x2 h0; unfold execLaunchAdmission; grind [happened_inv, State.admitHead_inv, foldl_inv, State.Inv]
theorem State.placeNext_inv : ∀ x0 x1 x2 x3 x4, State.Inv x0 → (∀ t0, (@State.placeNext x0 x1 x2 x3 x4) = some t0 → State.Inv t0) := by
  intro s l j eff b h t e; unfold State.placeNext at e
  obtain ⟨p, _, hp⟩ := List.exists_of_findSome?_eq_some e
  rw [Option.map_eq_some_iff] at hp
  obtain ⟨x, _, rfl⟩ := hp
  exact State.placeGroup_inv _ _ _ _ _ _ _ h
theorem State.placeAll_inv : ∀ x0 x1 x2 x3 x4 x5, State.Inv x0 → (∀ t0, (@State.placeAll x0 x1 x2 x3 x4 x5) = some t0 → State.Inv t0) := by
  intro s l e b j n; induction n generalizing s j with
  | zero => intro h t q; simp only [State.placeAll, Option.some.injEq] at q; exact q ▸ h
  | succ n ih => intro h t q; simp only [State.placeAll, Option.bind_eq_some_iff] at q
                 obtain ⟨u, hu, q⟩ := q
                 exact ih _ _ (State.placeNext_inv _ _ _ _ _ h _ hu) _ q
theorem State.without_inv : ∀ x0 x1, State.Inv x0 → State.Inv (@State.without x0 x1) := by
  intro x0 x1 h0; unfold State.without; grind [State.dropClaims_inv, foldl_inv, State.Inv]
theorem State.askStop_inv : ∀ x0 x1, State.Inv x0 → State.Inv (@State.askStop x0 x1) := by
  intro x0 x1 h0; exact h0
theorem State.chooseQueue_inv : ∀ x0 x1 x2 x3 x4, State.Inv x0 → State.Inv ((@State.chooseQueue x0 x1 x2 x3 x4)).1 := by
  intro x0 x1 x2 x3 x4 h0; unfold State.chooseQueue; grind [State.onQueue_inv, foldl_inv, State.Inv]
theorem execAgeBoost_inv : ∀ x0 x1 x2, State.Inv x2 → (∀ t0, (@execAgeBoost x0 x1 x2) = Host.Outcome.next t0 → State.Inv t0) := by
  intro x0 x1 x2 h0; unfold execAgeBoost; grind [happened_inv, State.onQueue_inv, foldl_inv, State.Inv]
theorem State.endAll_inv : ∀ x0 x1, State.Inv x0 → State.Inv (@State.endAll x0 x1) := by
  intro x0 x1 h0; unfold State.endAll; grind [State.killUnits_inv, State.endOver_inv, foldl_inv, State.Inv]
theorem State.startVfReset_inv : ∀ x0 x1, State.Inv x0 → State.Inv (@State.startVfReset x0 x1) := by
  intro x0 x1 h0; unfold State.startVfReset; grind [State.drainPosted_inv, State.endAll_inv, State.dropTlb_inv, State.onVf_inv, foldl_inv, State.Inv]
theorem execVfReset_inv : ∀ x0 x1, State.Inv x1 → (∀ t0, (@execVfReset x0 x1) = Host.Outcome.next t0 → State.Inv t0) := by
  intro x0 x1 h0; unfold execVfReset; grind [happened_inv, State.startVfReset_inv, foldl_inv, State.Inv]
theorem State.writePackage_inv : ∀ x0 x1 x2 x3, State.Inv x0 → (∀ t0, (@State.writePackage x0 x1 x2 x3) = some t0 → State.Inv t0) := by
  intro x0 x1 x2 x3 h0; unfold State.writePackage; grind [State.onHostPort_inv, foldl_inv, State.Inv]
theorem State.writeVfcfg_inv : ∀ x0 x1 x2, State.Inv x0 → State.Inv (@State.writeVfcfg x0 x1 x2) := by
  intro x0 x1 x2 h0; unfold State.writeVfcfg; grind [State.onVf_inv, State.extend_inv, foldl_inv, State.Inv]
theorem State.eachHart_inv : ∀ x0 x1 x2, State.Inv x0 → (∀ x2y0 x2y1, State.Inv x2y0 → State.Inv (x2 x2y0 x2y1)) → State.Inv (@State.eachHart x0 x1 x2) := by
  intro x0 x1 x2 h0 h1; unfold State.eachHart; grind [foldl_inv, State.Inv]
theorem State.writeCluster_inv : ∀ x0 x1 x2 x3 x4, State.Inv x0 → (∀ t0, (@State.writeCluster x0 x1 x2 x3 x4) = some t0 → State.Inv t0) := by
  intro x0 x1 x2 x3 x4 h0; unfold State.writeCluster; grind [State.writeCap_inv, State.markLanes_inv, State.markQuarters_inv, State.onCluster_inv, State.eachHart_inv, State.stopHart_inv, State.runHart_inv, foldl_inv, State.Inv]
theorem State.writeHallctl_inv : ∀ x0 x1 x2, State.Inv x0 → State.Inv (@State.writeHallctl x0 x1 x2) := by
  intro x0 x1 x2 h0; unfold State.writeHallctl; grind [State.resetHall_inv, State.releaseHall_inv, foldl_inv, State.Inv]
theorem execCensusWrite_inv : ∀ x0 x1 x2, State.Inv x2 → (∀ t0, (@execCensusWrite x0 x1 x2) = Host.Outcome.next t0 → State.Inv t0) := by
  intro x0 x1 x2 h0; unfold execCensusWrite; grind [happened_inv, foldl_inv, State.Inv]
theorem State.orVstat_inv : ∀ x0 x1, State.Inv x0 → State.Inv (@State.orVstat x0 x1) := by
  intro x0 x1 h0; exact h0
theorem State.noteVstat_inv : ∀ x0 x1, State.Inv x0 → State.Inv (@State.noteVstat x0 x1) := by
  intro x0 x1 h0; exact h0
theorem State.orFstat_inv : ∀ x0 x1, State.Inv x0 → State.Inv (@State.orFstat x0 x1) := by
  intro x0 x1 h0; exact h0
theorem State.noteElem_inv : ∀ x0 x1 x2 x3, State.Inv x0 → State.Inv (@State.noteElem x0 x1 x2 x3) := by
  intro x0 x1 x2 x3 h0; exact h0
theorem State.setElem_inv : ∀ x0 x1 x2 x3, State.Inv x0 → State.Inv (@State.setElem x0 x1 x2 x3) := by
  intro x0 x1 x2 x3 h0; exact h0
theorem State.noteMask_inv : ∀ x0 x1 x2 x3 x4, State.Inv x0 → State.Inv (@State.noteMask x0 x1 x2 x3 x4) := by
  intro x0 x1 x2 x3 x4 h0; exact h0
theorem State.setMaskBit_inv : ∀ x0 x1 x2 x3 x4, State.Inv x0 → State.Inv (@State.setMaskBit x0 x1 x2 x3 x4) := by
  intro x0 x1 x2 x3 x4 h0; exact h0
theorem State.noteG_inv : ∀ x0 x1 x2, State.Inv x0 → State.Inv (@State.noteG x0 x1 x2) := by
  intro x0 x1 x2 h0; exact h0
theorem State.vecCheck_inv : ∀ x0 x1 x2 x3 x4, State.Inv x0 → ((∀ t0a t0b, (@State.vecCheck x0 x1 x2 x3 x4) = Except.error (t0a, t0b) → State.Inv t0b) ∧ (∀ t0, (@State.vecCheck x0 x1 x2 x3 x4) = Except.ok t0 → State.Inv t0)) := by
  intro x0 x1 x2 x3 x4 h0; unfold State.vecCheck; grind [foldl_inv, State.Inv]
theorem State.vecCheck_inv_error : ∀ x0 x1 x2 x3 x4, State.Inv x0 → (∀ t0a t0b, (@State.vecCheck x0 x1 x2 x3 x4) = Except.error (t0a, t0b) → State.Inv t0b) := fun x0 x1 x2 x3 x4 h0 => (State.vecCheck_inv x0 x1 x2 x3 x4 h0).1
theorem State.vecCheck_inv_ok : ∀ x0 x1 x2 x3 x4, State.Inv x0 → (∀ t0, (@State.vecCheck x0 x1 x2 x3 x4) = Except.ok t0 → State.Inv t0) := fun x0 x1 x2 x3 x4 h0 => (State.vecCheck_inv x0 x1 x2 x3 x4 h0).2
theorem State.putDst_inv : ∀ x0 x1 x2 x3, State.Inv x0 → State.Inv (@State.putDst x0 x1 x2 x3) := by
  intro x0 x1 x2 x3 h0; unfold State.putDst; grind [State.setElem_inv, State.setMaskBit_inv, foldl_inv, State.Inv]
theorem State.loseDst_inv : ∀ x0 x1 x2, State.Inv x0 → State.Inv (@State.loseDst x0 x1 x2) := by
  intro x0 x1 x2 h0; unfold State.loseDst; grind [State.noteElem_inv, State.noteMask_inv, foldl_inv, State.Inv]
theorem State.setVstart_inv : ∀ x0 x1, State.Inv x0 → State.Inv (@State.setVstart x0 x1) := by
  intro x0 x1 h0; exact h0
theorem State.elementStep_inv : ∀ x0 x1 x2 x3 x4 x5 x6 x7 x8, State.Inv x0 → State.Inv x7 → State.Inv (@State.elementStep x0 x1 x2 x3 x4 x5 x6 x7 x8) := by
  intro x0 x1 x2 x3 x4 x5 x6 x7 x8 h0 h1; unfold State.elementStep; grind [State.loseDst_inv, State.orVstat_inv, State.putDst_inv, foldl_inv, State.Inv]
theorem State.elementwise_inv : ∀ x0 x1 x2 x3 x4 x5 x6, State.Inv x0 → State.Inv (@State.elementwise x0 x1 x2 x3 x4 x5 x6) := by
  intro x0 x1 x2 x3 x4 x5 x6 h0; unfold State.elementwise; grind [State.setVstart_inv, State.elementStep_inv, foldl_inv, State.Inv]
theorem elementOp_inv : ∀ x0 x1 x2 x3 x4 x5 x6 x7 x8, State.Inv x8 → (∀ t0, (@elementOp x0 x1 x2 x3 x4 x5 x6 x7 x8) = Host.Outcome.next t0 → State.Inv t0) := by
  intro x0 x1 x2 x3 x4 x5 x6 x7 x8 h0; unfold elementOp; apply finish_inv; (try simp only [bind, Except.bind, pure, Except.pure, State.vecCheck, require]); grind [finish_inv, State.vecCheck_inv_error, State.vecCheck_inv_ok, State.elementwise_inv, foldl_inv, State.Inv]
theorem binaryOp_inv : ∀ x0 x1 x2 x3, State.Inv x3 → (∀ t0, (@binaryOp x0 x1 x2 x3) = Host.Outcome.next t0 → State.Inv t0) := by
  intro x0 x1 x2 x3 h0; unfold binaryOp; grind [elementOp_inv, foldl_inv, State.Inv]
theorem unaryOp_inv : ∀ x0 x1 x2 x3, State.Inv x3 → (∀ t0, (@unaryOp x0 x1 x2 x3) = Host.Outcome.next t0 → State.Inv t0) := by
  intro x0 x1 x2 x3 h0; unfold unaryOp; grind [elementOp_inv, foldl_inv, State.Inv]
theorem compareOp_inv : ∀ x0 x1 x2 x3, State.Inv x3 → (∀ t0, (@compareOp x0 x1 x2 x3) = Host.Outcome.next t0 → State.Inv t0) := by
  intro x0 x1 x2 x3 h0; unfold compareOp; apply finish_inv; (try simp only [bind, Except.bind, pure, Except.pure, State.vecCheck, require]); grind [finish_inv, State.vecCheck_inv_error, State.vecCheck_inv_ok, State.elementwise_inv, foldl_inv, State.Inv]
theorem State.deliverBatch_inv : ∀ x0 x1 x2, State.Inv x0 → State.Inv (@State.deliverBatch x0 x1 x2) := by
  intro x0 x1 x2 h0; unfold State.deliverBatch; grind [State.holdHart_inv, State.forward_inv, foldl_inv, State.Inv]
theorem State.stopAhead_inv : ∀ x0 x1, State.Inv x0 → State.Inv (@State.stopAhead x0 x1) := by
  intro x0 x1 h0; unfold State.stopAhead; grind [State.rollback_inv, State.deliverBatch_inv, foldl_inv, State.Inv]
theorem execFaultRunAheadStop_inv : ∀ x0 x1, State.Inv x1 → (∀ t0, (@execFaultRunAheadStop x0 x1) = Host.Outcome.next t0 → State.Inv t0) := by
  intro x0 x1 h0; unfold execFaultRunAheadStop; grind [happened_inv, State.stopAhead_inv, foldl_inv, State.Inv]
theorem State.takeFault_inv : ∀ x0 x1, State.Inv x0 → State.Inv (@State.takeFault x0 x1) := by
  intro x0 x1 h0; unfold State.takeFault; grind [State.takeTrap_inv, State.deliverBatch_inv, State.holdHart_inv, foldl_inv, State.Inv]
theorem finishMem_inv : ∀ x0 x1, ((∀ t90a t90b, x1 = Except.error (t90a, t90b) → State.Inv t90b) ∧ (∀ t90, x1 = Except.ok t90 → State.Inv t90)) → (∀ t0, (@finishMem x0 x1) = Host.Outcome.next t0 → State.Inv t0) := by
  intro x0 x1 h0; unfold finishMem; grind [State.retire_inv, State.takeFault_inv, foldl_inv, State.Inv]
theorem State.keepXlate_inv : ∀ x0 x1 x2, State.Inv x0 → State.Inv (@State.keepXlate x0 x1 x2) := by
  intro x0 x1 x2 h0; unfold State.keepXlate; grind [State.fillTlb_inv, foldl_inv, State.Inv]
theorem State.reach_inv : ∀ x0 x1 x2 x3 x4 x5 x6, State.Inv x0 → State.Inv ((@State.reach x0 x1 x2 x3 x4 x5 x6)).1 := by
  intro x0 x1 x2 x3 x4 x5 x6 h0; unfold State.reach; grind [State.keepXlate_inv, foldl_inv, State.Inv]
theorem State.fillLine_inv : ∀ x0 x1 x2 x3 x4, State.Inv x0 → State.Inv ((@State.fillLine x0 x1 x2 x3 x4)).1 := by
  intro x0 x1 x2 x3 x4 h0; unfold State.fillLine; grind [State.logRefusal_inv, State.count_inv, State.onHall_inv, foldl_inv, State.Inv]
theorem State.readAtHome_inv : ∀ x0 x1 x2 x3 x4, State.Inv x0 → State.Inv ((@State.readAtHome x0 x1 x2 x3 x4)).1 := by
  intro x0 x1 x2 x3 x4 h0; unfold State.readAtHome; grind [State.logRefusal_inv, State.count_inv, foldl_inv, State.Inv]
theorem State.readSource_inv : ∀ x0 x1 x2 x3 x4, State.Inv x0 → State.Inv ((@State.readSource x0 x1 x2 x3 x4)).1 := by
  intro x0 x1 x2 x3 x4 h0; unfold State.readSource; grind [State.readAtHome_inv, State.reclaimReplica_inv, State.addTraffic_inv, foldl_inv, State.Inv]
theorem State.uncount_inv : ∀ x0 x1 x2, State.Inv x0 → State.Inv x1 → State.Inv (@State.uncount x0 x1 x2) := by
  intro x0 x1 x2 h0 h1; unfold State.uncount; grind [State.countsOf_inv, foldl_inv, State.Inv]
theorem State.devLoad_inv : ∀ x0 x1 x2, State.Inv x0 → State.Inv ((@State.devLoad x0 x1 x2)).1 := by
  intro x0 x1 x2 h0; unfold State.devLoad; grind [State.countDevice_inv, State.logRefusal_inv, foldl_inv, State.Inv]
theorem State.noteStored_inv : ∀ x0 x1 x2, State.Inv x0 → State.Inv (@State.noteStored x0 x1 x2) := by
  intro x0 x1 x2 h0; exact h0
theorem State.reachWrite_inv : ∀ x0 x1 x2 x3 x4 x5 x6, State.Inv x0 → State.Inv ((@State.reachWrite x0 x1 x2 x3 x4 x5 x6)).1 := by
  intro x0 x1 x2 x3 x4 x5 x6 h0; unfold State.reachWrite; grind [State.reach_inv, State.noteStored_inv, foldl_inv, State.Inv]
theorem State.scoped_inv : ∀ x0 x1, State.Inv x0 → ((∀ t0a t0b, (@State.scoped x0 x1) = Except.error (t0a, t0b) → State.Inv t0b) ∧ (∀ t0, (@State.scoped x0 x1) = Except.ok t0 → State.Inv t0)) := by
  intro x0 x1 h0; unfold State.scoped; grind [foldl_inv, State.Inv]
theorem State.scoped_inv_error : ∀ x0 x1, State.Inv x0 → (∀ t0a t0b, (@State.scoped x0 x1) = Except.error (t0a, t0b) → State.Inv t0b) := fun x0 x1 h0 => (State.scoped_inv x0 x1 h0).1
theorem State.scoped_inv_ok : ∀ x0 x1, State.Inv x0 → (∀ t0, (@State.scoped x0 x1) = Except.ok t0 → State.Inv t0) := fun x0 x1 h0 => (State.scoped_inv x0 x1 h0).2
theorem State.demote_inv : ∀ x0 x1, State.Inv x0 → State.Inv (@State.demote x0 x1) := by
  intro x0 x1 h0; unfold State.demote; grind [State.noteVstat_inv, foldl_inv, State.Inv]
theorem postStalls_inv : ∀ x0 x1, State.Inv x0 → (∀ x1y0, (∀ t50, (x1 x1y0) = Host.Outcome.next t50 → State.Inv t50)) → (∀ t0, (@postStalls x0 x1) = Host.Outcome.next t0 → State.Inv t0) := by
  intro x0 x1 h0 h1; unfold postStalls; grind [foldl_inv, State.Inv]
theorem State.releaseIf_inv : ∀ x0 x1 x2, State.Inv x0 → ((∀ t0a t0b, (@State.releaseIf x0 x1 x2) = Except.error (t0a, t0b) → State.Inv t0b) ∧ (∀ t0, (@State.releaseIf x0 x1 x2) = Except.ok t0 → State.Inv t0)) := by
  intro x0 x1 x2 h0; unfold State.releaseIf; grind [State.release_inv_error, State.release_inv_ok, foldl_inv, State.Inv]
theorem State.releaseIf_inv_error : ∀ x0 x1 x2, State.Inv x0 → (∀ t0a t0b, (@State.releaseIf x0 x1 x2) = Except.error (t0a, t0b) → State.Inv t0b) := fun x0 x1 x2 h0 => (State.releaseIf_inv x0 x1 x2 h0).1
theorem State.releaseIf_inv_ok : ∀ x0 x1 x2, State.Inv x0 → (∀ t0, (@State.releaseIf x0 x1 x2) = Except.ok t0 → State.Inv t0) := fun x0 x1 x2 h0 => (State.releaseIf_inv x0 x1 x2 h0).2
theorem State.useAnswer_inv : ∀ x0, State.Inv x0 → State.Inv (@State.useAnswer x0) := by
  intro x0 h0; exact h0
theorem State.atomicAt_inv : ∀ x0 x1 x2 x3 x4 x5, State.Inv x0 → ((∀ t0a t0b, (@State.atomicAt x0 x1 x2 x3 x4 x5) = Except.error (t0a, t0b) → State.Inv t0b) ∧ (∀ t0a t0b, (@State.atomicAt x0 x1 x2 x3 x4 x5) = Except.ok (t0a, t0b) → State.Inv t0b)) := by
  intro x0 x1 x2 x3 x4 x5 h0; unfold State.atomicAt; grind [State.reachWrite_inv, State.settleAt_inv, State.updateHome_inv_error, State.updateHome_inv_ok, State.dropWindowLines_inv, State.countUpdate_inv, foldl_inv, State.Inv]
theorem State.atomicAt_inv_error : ∀ x0 x1 x2 x3 x4 x5, State.Inv x0 → (∀ t0a t0b, (@State.atomicAt x0 x1 x2 x3 x4 x5) = Except.error (t0a, t0b) → State.Inv t0b) := fun x0 x1 x2 x3 x4 x5 h0 => (State.atomicAt_inv x0 x1 x2 x3 x4 x5 h0).1
theorem State.atomicAt_inv_ok : ∀ x0 x1 x2 x3 x4 x5, State.Inv x0 → (∀ t0a t0b, (@State.atomicAt x0 x1 x2 x3 x4 x5) = Except.ok (t0a, t0b) → State.Inv t0b) := fun x0 x1 x2 x3 x4 x5 h0 => (State.atomicAt_inv x0 x1 x2 x3 x4 x5 h0).2
theorem State.setPair_inv : ∀ x0 x1 x2, State.Inv x0 → State.Inv (@State.setPair x0 x1 x2) := by
  intro x0 x1 x2 h0; unfold State.setPair; grind [State.setG_inv, foldl_inv, State.Inv]
theorem State.noteStatus_inv : ∀ x0 x1 x2, State.Inv x0 → State.Inv (@State.noteStatus x0 x1 x2) := by
  intro x0 x1 x2 h0; unfold State.noteStatus; grind [State.setCounter_inv, foldl_inv, State.Inv]
theorem State.issueVec_inv : ∀ x0 x1 x2 x3, State.Inv x0 → State.Inv (@State.issueVec x0 x1 x2 x3) := by
  intro x0 x1 x2 x3 h0; unfold State.issueVec; grind [State.onHart_inv, State.countUp_inv, foldl_inv, State.Inv]
theorem Run.s_inv : ∀ x0, State.Inv (x0).s → State.Inv (@Run.s x0) := by
  intro x0 h0; exact h0
theorem State.lateElem_inv : ∀ x0 x1 x2 x3, State.Inv x0 → State.Inv (@State.lateElem x0 x1 x2 x3) := by
  intro x0 x1 x2 x3 h0; unfold State.lateElem; grind [State.setElem_inv, foldl_inv, State.Inv]
theorem runElems_inv : ∀ x0 x1 x2, (∀ x0y0 x0y1, State.Inv (x0y0).s → State.Inv ((x0 x0y0 x0y1)).s) → State.Inv (x2).s → State.Inv ((@runElems x0 x1 x2)).s := by
  intro x0 x1 x2; fun_induction runElems x0 x1 x2 <;> grind [foldl_inv, State.Inv]
theorem Run.done_inv : ∀ x0 x1 x2, State.Inv (x0).s → ((∀ t0a t0b, (@Run.done x0 x1 x2) = Except.error (t0a, t0b) → State.Inv t0b) ∧ (∀ t0, (@Run.done x0 x1 x2) = Except.ok t0 → State.Inv t0)) := by
  intro x0 x1 x2 h0; unfold Run.done; grind [State.setVstart_inv, State.noteStatus_inv, Run.s_inv, State.issueVec_inv, foldl_inv, State.Inv]
theorem Run.done_inv_error : ∀ x0 x1 x2, State.Inv (x0).s → (∀ t0a t0b, (@Run.done x0 x1 x2) = Except.error (t0a, t0b) → State.Inv t0b) := fun x0 x1 x2 h0 => (Run.done_inv x0 x1 x2 h0).1
theorem Run.done_inv_ok : ∀ x0 x1 x2, State.Inv (x0).s → (∀ t0, (@Run.done x0 x1 x2) = Except.ok t0 → State.Inv t0) := fun x0 x1 x2 h0 => (Run.done_inv x0 x1 x2 h0).2
theorem issueOp_inv : ∀ x0 x1 x2 x3 x4 x5 x6, ((∀ t90a t90b, x3 = Except.error (t90a, t90b) → State.Inv t90b) ∧ (∀ t90a t90b, x3 = Except.ok (t90a, t90b) → State.Inv t90a)) → (∀ x5y0 x5y1, State.Inv x5y0 → ((∀ t50a t50b, (x5 x5y0 x5y1) = Except.error (t50a, t50b) → State.Inv t50b) ∧ (∀ t50, (x5 x5y0 x5y1) = Except.ok t50 → State.Inv t50))) → State.Inv x6 → (∀ t0, (@issueOp x0 x1 x2 x3 x4 x5 x6) = Host.Outcome.next t0 → State.Inv t0) := by
  intro x0 x1 x2 x3 x4 x5 x6 h0 h1 h2; unfold issueOp; grind [finishMem_inv, foldl_inv, State.Inv]
theorem State.loseVl_inv : ∀ x0, State.Inv x0 → State.Inv (@State.loseVl x0) := by
  intro x0 h0; exact h0
theorem State.holdCut_inv : ∀ x0 x1 x2 x3 x4 x5, State.Inv x0 → State.Inv (@State.holdCut x0 x1 x2 x3 x4 x5) := by
  intro x0 x1 x2 x3 x4 x5 h0; unfold State.holdCut; grind [State.holdHart_inv, State.setVstart_inv, foldl_inv, State.Inv]
theorem PRun.s_inv : ∀ x0, State.Inv (x0).s → State.Inv (@PRun.s x0) := by
  intro x0 h0; exact h0
theorem postElem_inv : ∀ x0 x1 x2 x3, State.Inv (x2).s → State.Inv ((@postElem x0 x1 x2 x3)).s := by
  intro x0 x1 x2 x3 h0; unfold postElem; grind [PRun.s_inv, State.reachWrite_inv, foldl_inv, State.Inv]
theorem postElems_inv : ∀ x0 x1 x2 x3, State.Inv (x3).s → State.Inv ((@postElems x0 x1 x2 x3)).s := by
  intro v mk l; induction l with
  | nil => intro r h; exact h
  | cons e l ih =>
    intro r h; simp only [postElems]; split
    · exact h
    · exact ih _ (postElem_inv _ _ _ _ h)
theorem State.performNow_inv : ∀ x0 x1, State.Inv x0 → State.Inv ((@State.performNow x0 x1)).1 := by
  intro x0 x1 h0; unfold State.performNow; grind [State.performPosted_inv, State.dropOwnLines_inv, State.settleAt_inv, foldl_inv, State.Inv]
theorem State.issueReqs_inv : ∀ x0 x1 x2, State.Inv x0 → State.Inv ((@State.issueReqs x0 x1 x2)).1 := by
  intro s k l h; unfold State.issueReqs; split
  · exact foldl_inv _ _ (fun s a h => State.post_inv _ _ h) _ h
  · refine foldlP_inv l _ (fun p a h => ?_) (s, 0#4) h
    have := State.performNow_inv p.1 a h
    dsimp only
    generalize p.1.performNow a = q at this ⊢
    obtain ⟨u, v⟩ := q
    exact this
theorem fetchOne_inv : ∀ x0 x1 x2 x3 x4 x5, State.Inv (x4).1 → State.Inv ((@fetchOne x0 x1 x2 x3 x4 x5)).1 := by
  intro x0 x1 x2 x3 x4 x5 h0; unfold fetchOne; grind [State.updateHome_inv_error, State.updateHome_inv_ok, State.setElem_inv, State.dropOwnLines_inv, State.countUpdate_inv, State.lateElem_inv, foldl_inv, State.Inv]
theorem State.dropClaim_inv : ∀ x0, State.Inv x0 → State.Inv (@State.dropClaim x0) := by
  intro x0 h0; exact h0
theorem State.releaseClaim_inv : ∀ x0, State.Inv x0 → State.Inv (@State.releaseClaim x0) := by
  intro x0 h0; unfold State.releaseClaim; grind [State.dropClaim_inv, State.completeVecs_inv, foldl_inv, State.Inv]
theorem State.takeClaim_inv : ∀ x0 x1, State.Inv x0 → State.Inv (@State.takeClaim x0 x1) := by
  intro x0 x1 h0; unfold State.takeClaim; grind [State.onHart_inv, State.addClaims_inv, foldl_inv, State.Inv]
theorem execVclaim_inv : ∀ x0 x1 x2 x3 x4, State.Inv x4 → (∀ t0, (@execVclaim x0 x1 x2 x3 x4) = Host.Outcome.next t0 → State.Inv t0) := by
  intro x0 x1 x2 x3 x4 h0; unfold execVclaim; grind [State.releaseClaim_inv, finish_inv, State.setG_inv, State.takeClaim_inv, foldl_inv, State.Inv]
theorem execVrel_inv : ∀ x0 x1, State.Inv x1 → (∀ t0, (@execVrel x0 x1) = Host.Outcome.next t0 → State.Inv t0) := by
  intro x0 x1 h0; unfold execVrel; grind [finish_inv, State.releaseClaim_inv, foldl_inv, State.Inv]
theorem State.relayout_inv : ∀ x0 x1, State.Inv x0 → State.Inv (@State.relayout x0 x1) := by
  intro x0 x1 h0; exact h0
theorem State.setLength_inv : ∀ x0 x1 x2 x3, State.Inv x0 → State.Inv (@State.setLength x0 x1 x2 x3) := by
  intro x0 x1 x2 x3 h0; unfold State.setLength; grind [State.relayout_inv, State.noteGrant_inv, State.onHart_inv, foldl_inv, State.Inv]
theorem State.lengthTo_inv : ∀ x0 x1 x2 x3 x4, State.Inv x0 → ((∀ t0a t0b, (@State.lengthTo x0 x1 x2 x3 x4) = Except.error (t0a, t0b) → State.Inv t0b) ∧ (∀ t0, (@State.lengthTo x0 x1 x2 x3 x4) = Except.ok t0 → State.Inv t0)) := by
  intro x0 x1 x2 x3 x4 h0; unfold State.lengthTo; grind [State.setVstart_inv, State.noteG_inv, State.loseVl_inv, State.setLength_inv, State.setG_inv, foldl_inv, State.Inv]
theorem State.lengthTo_inv_error : ∀ x0 x1 x2 x3 x4, State.Inv x0 → (∀ t0a t0b, (@State.lengthTo x0 x1 x2 x3 x4) = Except.error (t0a, t0b) → State.Inv t0b) := fun x0 x1 x2 x3 x4 h0 => (State.lengthTo_inv x0 x1 x2 x3 x4 h0).1
theorem State.lengthTo_inv_ok : ∀ x0 x1 x2 x3 x4, State.Inv x0 → (∀ t0, (@State.lengthTo x0 x1 x2 x3 x4) = Except.ok t0 → State.Inv t0) := fun x0 x1 x2 x3 x4 h0 => (State.lengthTo_inv x0 x1 x2 x3 x4 h0).2
theorem execSetvl_inv : ∀ x0 x1 x2 x3, State.Inv x3 → (∀ t0, (@execSetvl x0 x1 x2 x3) = Host.Outcome.next t0 → State.Inv t0) := by
  intro x0 x1 x2 x3 h0; unfold execSetvl; apply finish_inv; (try simp only [bind, Except.bind, pure, Except.pure, State.vecCheck, require]); grind [finish_inv, require_inv_error, require_inv_ok, State.lengthTo_inv_error, State.lengthTo_inv_ok, foldl_inv, State.Inv]
theorem State.setVmode_inv : ∀ x0 x1 x2, State.Inv x0 → State.Inv (@State.setVmode x0 x1 x2) := by
  intro x0 x1 x2 h0; exact h0
theorem execSetvm_inv : ∀ x0 x1 x2 x3 x4, State.Inv x4 → (∀ t0, (@execSetvm x0 x1 x2 x3 x4) = Host.Outcome.next t0 → State.Inv t0) := by
  intro x0 x1 x2 x3 x4 h0; unfold execSetvm; apply finish_inv; (try simp only [bind, Except.bind, pure, Except.pure, State.vecCheck, require]); grind [finish_inv, require_inv_error, require_inv_ok, State.setVstart_inv, State.noteG_inv, State.loseVl_inv, State.setVmode_inv, State.lengthTo_inv_error, State.lengthTo_inv_ok, foldl_inv, State.Inv]
theorem State.aligned64_inv : ∀ x0 x1, State.Inv x0 → ((∀ t0a t0b, (@State.aligned64 x0 x1) = Except.error (t0a, t0b) → State.Inv t0b) ∧ (∀ t0, (@State.aligned64 x0 x1) = Except.ok t0 → State.Inv t0)) := by
  intro x0 x1 h0; unfold State.aligned64; grind [require_inv_error, require_inv_ok, foldl_inv, State.Inv]
theorem State.aligned64_inv_error : ∀ x0 x1, State.Inv x0 → (∀ t0a t0b, (@State.aligned64 x0 x1) = Except.error (t0a, t0b) → State.Inv t0b) := fun x0 x1 h0 => (State.aligned64_inv x0 x1 h0).1
theorem State.aligned64_inv_ok : ∀ x0 x1, State.Inv x0 → (∀ t0, (@State.aligned64 x0 x1) = Except.ok t0 → State.Inv t0) := fun x0 x1 h0 => (State.aligned64_inv x0 x1 h0).2
theorem State.needClaim_inv : ∀ x0, State.Inv x0 → ((∀ t0a t0b, (@State.needClaim x0) = Except.error (t0a, t0b) → State.Inv t0b) ∧ (∀ t0, (@State.needClaim x0) = Except.ok t0 → State.Inv t0)) := by
  intro x0 h0; unfold State.needClaim; grind [require_inv_error, require_inv_ok, foldl_inv, State.Inv]
theorem State.needClaim_inv_error : ∀ x0, State.Inv x0 → (∀ t0a t0b, (@State.needClaim x0) = Except.error (t0a, t0b) → State.Inv t0b) := fun x0 h0 => (State.needClaim_inv x0 h0).1
theorem State.needClaim_inv_ok : ∀ x0, State.Inv x0 → (∀ t0, (@State.needClaim x0) = Except.ok t0 → State.Inv t0) := fun x0 h0 => (State.needClaim_inv x0 h0).2
theorem State.fullMark_inv : ∀ x0 x1, State.Inv x0 → State.Inv (@State.fullMark x0 x1) := by
  intro x0 x1 h0; exact h0
theorem State.needShare_inv : ∀ x0, State.Inv x0 → ((∀ t0a t0b, (@State.needShare x0) = Except.error (t0a, t0b) → State.Inv t0b) ∧ (∀ t0, (@State.needShare x0) = Except.ok t0 → State.Inv t0)) := by
  intro x0 h0; unfold State.needShare; grind [require_inv_error, require_inv_ok, foldl_inv, State.Inv]
theorem State.needShare_inv_error : ∀ x0, State.Inv x0 → (∀ t0a t0b, (@State.needShare x0) = Except.error (t0a, t0b) → State.Inv t0b) := fun x0 h0 => (State.needShare_inv x0 h0).1
theorem State.needShare_inv_ok : ∀ x0, State.Inv x0 → (∀ t0, (@State.needShare x0) = Except.ok t0 → State.Inv t0) := fun x0 h0 => (State.needShare_inv x0 h0).2
theorem State.setTile_inv : ∀ x0 x1 x2, State.Inv x0 → State.Inv (@State.setTile x0 x1 x2) := by
  intro x0 x1 x2 h0; exact h0
theorem State.noteTile_inv : ∀ x0 x1 x2, State.Inv x0 → State.Inv (@State.noteTile x0 x1 x2) := by
  intro x0 x1 x2 h0; exact h0
theorem postRows_inv : ∀ x0 x1 x2, (∀ x0y0 x0y1, State.Inv x0y1 → State.Inv ((x0 x0y0 x0y1)).s) → State.Inv (x2).s → State.Inv ((@postRows x0 x1 x2)).s := by
  intro x0 x1 x2; fun_induction postRows x0 x1 x2 <;> grind [foldl_inv, State.Inv]
theorem State.setLatchRow_inv : ∀ x0 x1 x2 x3, State.Inv x0 → State.Inv (@State.setLatchRow x0 x1 x2 x3) := by
  intro x0 x1 x2 x3 h0; exact h0
theorem State.noteLatch_inv : ∀ x0 x1 x2, State.Inv x0 → State.Inv (@State.noteLatch x0 x1 x2) := by
  intro x0 x1 x2 h0; exact h0
theorem State.setDesc_inv : ∀ x0 x1 x2 x3, State.Inv x0 → State.Inv (@State.setDesc x0 x1 x2 x3) := by
  intro x0 x1 x2 x3 h0; exact h0
theorem State.takeRebuild_inv : ∀ x0 x1, State.Inv x0 → State.Inv (@State.takeRebuild x0 x1) := by
  intro x0 x1 h0; unfold State.takeRebuild; grind [State.holdHart_inv, State.takeTrap_inv, foldl_inv, State.Inv]
theorem State.countMacs_inv : ∀ x0 x1, State.Inv x0 → State.Inv (@State.countMacs x0 x1) := by
  intro x0 x1 h0; unfold State.countMacs; grind [State.onCluster_inv, foldl_inv, State.Inv]
theorem execZrank_inv : ∀ x0 x1 x2 x3 x4 x5 x6 x7, State.Inv x7 → (∀ t0, (@execZrank x0 x1 x2 x3 x4 x5 x6 x7) = Host.Outcome.next t0 → State.Inv t0) := by
  intro x0 x1 x2 x3 x4 x5 x6 x7 h0; unfold execZrank; apply finish_inv; (try simp only [bind, Except.bind, pure, Except.pure, State.vecCheck, require]); grind [finish_inv, State.vecCheck_inv_error, State.vecCheck_inv_ok, State.needShare_inv_error, State.needShare_inv_ok, State.setVstart_inv, State.noteTile_inv, State.countMacs_inv, State.orVstat_inv, State.setTile_inv, foldl_inv, State.Inv]
theorem execZzero_inv : ∀ x0 x1 x2, State.Inv x2 → (∀ t0, (@execZzero x0 x1 x2) = Host.Outcome.next t0 → State.Inv t0) := by
  intro x0 x1 x2 h0; unfold execZzero; apply finish_inv; (try simp only [bind, Except.bind, pure, Except.pure, State.vecCheck, require]); grind [finish_inv, State.needShare_inv_error, State.needShare_inv_ok, State.setVstart_inv, State.noteTile_inv, State.setTile_inv, foldl_inv, State.Inv]
theorem execZread_inv : ∀ x0 x1 x2 x3 x4 x5, State.Inv x5 → (∀ t0, (@execZread x0 x1 x2 x3 x4 x5) = Host.Outcome.next t0 → State.Inv t0) := by
  intro x0 x1 x2 x3 x4 x5 h0; unfold execZread; apply finish_inv; (try simp only [bind, Except.bind, pure, Except.pure, State.vecCheck, require]); grind [finish_inv, State.needShare_inv_error, State.needShare_inv_ok, State.vecCheck_inv_error, State.vecCheck_inv_ok, State.elementwise_inv, foldl_inv, State.Inv]
theorem zwriteElem_inv : ∀ x0 x1 x2 x3 x4 x5 x6 x7, State.Inv x5 → State.Inv x6 → State.Inv (@zwriteElem x0 x1 x2 x3 x4 x5 x6 x7) := by
  intro x0 x1 x2 x3 x4 x5 x6 x7 h0 h1; unfold zwriteElem; grind [State.noteTile_inv, State.setTile_inv, foldl_inv, State.Inv]
theorem execZwrite_inv : ∀ x0 x1 x2 x3 x4 x5 x6, State.Inv x6 → (∀ t0, (@execZwrite x0 x1 x2 x3 x4 x5 x6) = Host.Outcome.next t0 → State.Inv t0) := by
  intro x0 x1 x2 x3 x4 x5 x6 h0; unfold execZwrite; apply finish_inv; (try simp only [bind, Except.bind, pure, Except.pure, State.vecCheck, require]); grind [finish_inv, State.needShare_inv_error, State.needShare_inv_ok, State.vecCheck_inv_error, State.vecCheck_inv_ok, State.setVstart_inv, State.noteTile_inv, zwriteElem_inv, foldl_inv, State.Inv]

end Sys2Proof.Machine
end

