-- ==== Sys2Proof/Laws/Keeps3.lean ====
section
/-! SUPPORT. Keeps3.lean: every operation keeps State.Inv, part 3 of 6, in the order of the model's files. A lemma is
named after its operation, with _inv; _error and _ok where the operation may end in a trap. -/

namespace Sys2Proof.Machine

set_option maxRecDepth 40000
set_option linter.all false
set_option Elab.async false

theorem execZdim_inv : ∀ x0 x1 x2, State.Inv x2 → (∀ t0, (@execZdim x0 x1 x2) = Host.Outcome.next t0 → State.Inv t0) := by
  intro x0 x1 x2 h0; unfold execZdim; grind [finish_inv, State.setVstart_inv, State.noteG_inv, State.setG_inv, foldl_inv, State.Inv]
theorem State.depositRow_inv : ∀ x0 x1 x2 x3, State.Inv x0 → State.Inv ((@State.depositRow x0 x1 x2 x3)).s := by
  intro x0 x1 x2 x3 h0; unfold State.depositRow; grind [State.reach_inv, postElems_inv, foldl_inv, State.Inv]
theorem State.engXlate_inv : ∀ x0 x1 x2 x3, State.Inv x0 → State.Inv ((@State.engXlate x0 x1 x2 x3)).1 := by
  intro x0 x1 x2 x3 h0; unfold State.engXlate; grind [State.fillTlbBy_inv, foldl_inv, State.Inv]
theorem engReadPieces_inv : ∀ x0 x1 x2, State.Inv x2 → State.Inv ((@engReadPieces x0 x1 x2)).1 := by
  intro c l; induction l with
  | nil => intro s h; exact h
  | cons e r ih =>
    intro s h; obtain ⟨va, n⟩ := e; simp only [engReadPieces]
    have h1 := State.engXlate_inv s c .load va h
    generalize s.engXlate c .load va = q at h1 ⊢
    obtain ⟨u, x⟩ := q
    cases x with
    | error e => exact h1
    | ok x =>
      dsimp only; split
      · exact h1
      · have h2 := State.readSource_inv u c.who c.hall x n h1
        generalize u.readSource c.who c.hall x n = q at h2 ⊢
        obtain ⟨w, y⟩ := q
        cases y with
        | error e => exact h2
        | ok l =>
          have h3 := ih w h2
          dsimp only
          generalize engReadPieces c r w = q at h3 ⊢
          obtain ⟨z, m⟩ := q
          cases m <;> exact h3
theorem State.engRead_inv : ∀ x0 x1 x2 x3, State.Inv x0 → State.Inv ((@State.engRead x0 x1 x2 x3)).1 := by
  intro x0 x1 x2 x3 h0; unfold State.engRead; grind [engReadPieces_inv, foldl_inv, State.Inv]
theorem State.engPeek_inv : ∀ x0 x1 x2 x3, State.Inv x0 → State.Inv ((@State.engPeek x0 x1 x2 x3)).1 := by
  intro x0 x1 x2 x3 h0; unfold State.engPeek; grind [State.engRead_inv, State.countsOf_inv, foldl_inv, State.Inv]
theorem engTargets_inv : ∀ x0 x1 x2, State.Inv x2 → State.Inv ((@engTargets x0 x1 x2)).1 := by
  intro c l; induction l with
  | nil => intro s h; exact h
  | cons e r ih =>
    intro s h; obtain ⟨va, n⟩ := e; simp only [engTargets]
    have h1 := State.engXlate_inv s c .store va h
    generalize s.engXlate c .store va = q at h1 ⊢
    obtain ⟨u, x⟩ := q
    cases x with
    | error e => exact h1
    | ok x =>
      dsimp only; split
      · exact h1
      · exact ih u h1
theorem State.countBy_inv : ∀ x0 x1 x2 x3, State.Inv x0 → State.Inv (@State.countBy x0 x1 x2 x3) := by
  intro x0 x1 x2 x3 h0; unfold State.countBy; grind [State.count_inv, foldl_inv, State.Inv]
theorem State.holdCmd_inv : ∀ x0 x1 x2 x3 x4 x5, State.Inv x0 → State.Inv (@State.holdCmd x0 x1 x2 x3 x4 x5) := by
  intro x0 x1 x2 x3 x4 x5 h0; unfold State.holdCmd; grind [State.fqPost_inv, State.onHall_inv, State.onCmd_inv, foldl_inv, State.Inv]
theorem State.settlePos_inv : ∀ x0 x1 x2 x3 x4, State.Inv x0 → State.Inv (@State.settlePos x0 x1 x2 x3 x4) := by
  intro x0 x1 x2 x3 x4 h0; unfold State.settlePos; grind [State.onCmd_inv, State.holdCmd_inv, foldl_inv, State.Inv]
theorem State.failSource_inv : ∀ x0 x1 x2 x3, State.Inv x0 → State.Inv (@State.failSource x0 x1 x2 x3) := by
  intro x0 x1 x2 x3 h0; unfold State.failSource; grind [State.onCmd_inv, State.abortRun_inv, foldl_inv, State.Inv]
theorem State.meetSource_inv : ∀ x0 x1 x2, State.Inv x0 → State.Inv (@State.meetSource x0 x1 x2) := by
  intro x0 x1 x2 h0; unfold State.meetSource; grind [State.holdCmd_inv, State.failSource_inv, foldl_inv, State.Inv]
theorem State.resolveStuck_inv : ∀ x0 x1, State.Inv x0 → State.Inv (@State.resolveStuck x0 x1) := by
  intro x0 x1 h0; unfold State.resolveStuck; grind [State.onCmd_inv, State.failSource_inv, foldl_inv, State.Inv]
theorem State.eachPos_inv : ∀ x0 x1 x2 x3, State.Inv x0 → (∀ x2y0 x2y1 x2y2, State.Inv x2y0 → State.Inv (x2 x2y0 x2y1 x2y2)) → State.Inv (@State.eachPos x0 x1 x2 x3) := by
  intro x0 x1 x2 x3 h0 h1; unfold State.eachPos; grind [State.resolveStuck_inv, foldl_inv, State.Inv]
theorem State.copyIndex_inv : ∀ x0 x1 x2, State.Inv x0 → State.Inv ((@State.copyIndex x0 x1 x2)).1 := by
  intro x0 x1 x2 h0; unfold State.copyIndex; grind [State.engRead_inv, foldl_inv, State.Inv]
theorem State.fixRoot_inv : ∀ x0 x1, State.Inv x0 → State.Inv (@State.fixRoot x0 x1) := by
  intro x0 x1 h0; unfold State.fixRoot; grind [State.resolveStuck_inv, State.onCmd_inv, State.engXlate_inv, State.readSource_inv, State.meetSource_inv, foldl_inv, State.Inv]
theorem readIndex_inv : ∀ x0 x1 x2, State.Inv x0 → State.Inv (@readIndex x0 x1 x2) := by
  intro x0 x1 x2 h0; unfold readIndex; grind [State.engRead_inv, State.settlePos_inv, State.onCmd_inv, foldl_inv, State.Inv]
theorem State.readBatch_inv : ∀ x0 x1, State.Inv x0 → State.Inv (@State.readBatch x0 x1) := by
  intro x0 x1 h0; unfold State.readBatch; grind [State.eachPos_inv, readIndex_inv, foldl_inv, State.Inv]
theorem State.deliver_inv : ∀ x0 x1, State.Inv x0 → State.Inv (@State.deliver x0 x1) := by
  intro x0 x1 h0; unfold State.deliver; grind [State.countDown_inv, State.onHart_inv, State.retire_inv, State.takeTrap_inv, State.completeInSlot_inv, foldl_inv, State.Inv]
theorem State.addCmd_inv : ∀ x0 x1, State.Inv x0 → State.Inv (@State.addCmd x0 x1) := by
  intro x0 x1 h0; unfold State.addCmd; grind [State.joinRun_inv, foldl_inv, State.Inv]
theorem State.issued_inv : ∀ x0 x1 x2, State.Inv x0 → State.Inv (@State.issued x0 x1 x2) := by
  intro x0 x1 x2 h0; unfold State.issued; grind [State.onHart_inv, State.retire_inv, State.countUp_inv, foldl_inv, State.Inv]
theorem windowLine_inv : ∀ x0 x1 x2, State.Inv x0 → State.Inv ((@windowLine x0 x1 x2)).1 := by
  intro x0 x1 x2 h0; unfold windowLine; grind [State.engXlate_inv, foldl_inv, State.Inv]
theorem fillHeld_inv : ∀ x0 x1 x2, State.Inv x0 → State.Inv (@fillHeld x0 x1 x2) := by
  intro x0 x1 x2 h0; unfold fillHeld; grind [windowLine_inv, State.onHall_inv, State.settlePos_inv, State.fillLine_inv, foldl_inv, State.Inv]
theorem execRowout_inv : ∀ x0 x1, State.Inv x1 → (∀ t0, (@execRowout x0 x1) = Host.Outcome.next t0 → State.Inv t0) := by
  intro x0 x1 h0; unfold execRowout; grind [finish_inv, State.onHall_inv, foldl_inv, State.Inv]
theorem depositSites_inv : ∀ x0 x1 x2 x3, State.Inv x3 → State.Inv ((@depositSites x0 x1 x2 x3)).1 := by
  intro c k l; induction l with
  | nil => intro s h; exact h
  | cons e r ih =>
    intro s h; obtain ⟨va, a⟩ := e; simp only [depositSites]
    have h1 := State.engXlate_inv s c .store va h
    generalize s.engXlate c .store va = q at h1 ⊢
    obtain ⟨u, x⟩ := q
    cases x with
    | error e => exact h1
    | ok x =>
      dsimp only; split
      · exact h1
      · have h2 := ih u h1
        generalize depositSites c k r u = q at h2 ⊢
        obtain ⟨v, y⟩ := q
        cases y <;> exact h2
theorem State.rankBase_inv : ∀ x0 x1 x2, State.Inv x0 → State.Inv ((@State.rankBase x0 x1 x2)).1 := by
  intro x0 x1 x2 h0; unfold State.rankBase; grind [State.engPeek_inv, foldl_inv, State.Inv]
theorem State.setFlightAcc_inv : ∀ x0 x1 x2, State.Inv x0 → State.Inv (@State.setFlightAcc x0 x1 x2) := by
  intro x0 x1 x2 h0; exact h0
theorem State.dropElem_inv : ∀ x0 x1 x2, State.Inv x0 → State.Inv (@State.dropElem x0 x1 x2) := by
  intro x0 x1 x2 h0; exact h0
theorem State.engLanding_inv : ∀ x0 x1 x2 x3, State.Inv x0 → State.Inv ((@State.engLanding x0 x1 x2 x3)).1 := by
  intro x0 x1 x2 x3 h0; unfold State.engLanding; grind [engTargets_inv, State.logRefusal_inv, foldl_inv, State.Inv]
theorem State.failGive_inv : ∀ x0 x1 x2 x3 x4, State.Inv x0 → State.Inv (@State.failGive x0 x1 x2 x3 x4) := by
  intro x0 x1 x2 x3 x4 h0; unfold State.failGive; grind [State.settlePos_inv, State.dropElem_inv, foldl_inv, State.Inv]
theorem State.sentElems_inv : ∀ x0 x1 x2, State.Inv x0 → State.Inv ((@State.sentElems x0 x1 x2)).1 := by
  intro x0 x1 x2 h0; unfold State.sentElems; grind [State.engPeek_inv, foldl_inv, State.Inv]
theorem State.digestClash_inv : ∀ x0 x1 x2 x3, State.Inv x0 → State.Inv (@State.digestClash x0 x1 x2 x3) := by
  intro x0 x1 x2 x3 h0; exact h0
theorem State.readTab_inv : ∀ x0 x1, State.Inv x0 → State.Inv ((@State.readTab x0 x1)).1 := by
  intro x0 x1 h0; unfold State.readTab; grind [State.engPeek_inv, foldl_inv, State.Inv]
theorem State.arm_inv : ∀ x0 x1, State.Inv x0 → State.Inv (@State.arm x0 x1) := by
  intro x0 x1 h0; unfold State.arm; grind [State.resolveStuck_inv, State.readTab_inv, State.meetSource_inv, State.abortRun_inv, State.onColl_inv, State.onCmd_inv, foldl_inv, State.Inv]
theorem execCollArming_inv : ∀ x0 x1, State.Inv x1 → (∀ t0, (@execCollArming x0 x1) = Host.Outcome.next t0 → State.Inv t0) := by
  intro x0 x1 h0; unfold execCollArming; grind [happened_inv, State.arm_inv, foldl_inv, State.Inv]
theorem State.receiveSplit_inv : ∀ x0 x1, State.Inv x0 → State.Inv (@State.receiveSplit x0 x1) := by
  intro x0 x1 h0; unfold State.receiveSplit; grind [State.resolveStuck_inv, State.abortRun_inv, State.readTab_inv, State.meetSource_inv, State.onCmd_inv, foldl_inv, State.Inv]
theorem execSplitFlit_inv : ∀ x0 x1, State.Inv x1 → (∀ t0, (@execSplitFlit x0 x1) = Host.Outcome.next t0 → State.Inv t0) := by
  intro x0 x1 h0; unfold execSplitFlit; grind [happened_inv, State.receiveSplit_inv, foldl_inv, State.Inv]
theorem execAbortFlit_inv : ∀ x0 x1 x2, State.Inv x2 → (∀ t0, (@execAbortFlit x0 x1 x2) = Host.Outcome.next t0 → State.Inv t0) := by
  intro x0 x1 x2 h0; unfold execAbortFlit; grind [happened_inv, State.onCmd_inv, foldl_inv, State.Inv]
theorem State.engGetElem_inv : ∀ x0 x1 x2 x3 x4, State.Inv x0 → State.Inv ((@State.engGetElem x0 x1 x2 x3 x4)).1 := by
  intro x0 x1 x2 x3 x4 h0; unfold State.engGetElem; grind [State.engRead_inv, State.engPeek_inv, foldl_inv, State.Inv]
theorem State.sourceError_inv : ∀ x0 x1 x2 x3, State.Inv x0 → State.Inv (@State.sourceError x0 x1 x2 x3) := by
  intro x0 x1 x2 x3 h0; unfold State.sourceError; grind [State.meetSource_inv, State.failSource_inv, foldl_inv, State.Inv]
theorem State.collRead_inv : ∀ x0 x1 x2 x3, State.Inv x0 → State.Inv (@State.collRead x0 x1 x2 x3) := by
  intro x0 x1 x2 x3 h0; unfold State.collRead; grind [State.resolveStuck_inv, State.abortRun_inv, State.onColl_inv, State.engGetElem_inv, State.sourceError_inv, foldl_inv, State.Inv]
theorem State.keepAcc_inv : ∀ x0 x1 x2 x3, State.Inv x0 → State.Inv (@State.keepAcc x0 x1 x2 x3) := by
  intro x0 x1 x2 x3 h0; exact h0
theorem State.oldHalf_inv : ∀ x0 x1 x2, State.Inv x0 → State.Inv ((@State.oldHalf x0 x1 x2)).1 := by
  intro x0 x1 x2 h0; unfold State.oldHalf; grind [State.engPeek_inv, foldl_inv, State.Inv]
theorem State.settleElems_inv : ∀ x0 x1 x2 x3 x4, State.Inv x0 → State.Inv (@State.settleElems x0 x1 x2 x3 x4) := by
  intro x0 x1 x2 x3 x4 h0; unfold State.settleElems; grind [State.settlePos_inv, foldl_inv, State.Inv]
theorem busyClear_legal (t : TrapSet) (h : t.Legal) : TrapSet.Legal { t with estat := setBit t.estat 2 false } := by
  refine ⟨h.1, h.2.1, ?_⟩
  have := h.2.2
  show (setBit t.estat 2 false).extractLsb' 5 59 = 0#59
  apply BitVec.eq_of_getLsbD_eq
  intro i hi
  have q : (t.estat.extractLsb' 5 59).getLsbD i = false := by rw [this]; simp
  simp [BitVec.getLsbD_extractLsb', hi] at q
  simp [setBit, setField, BitVec.getLsbD_extractLsb', q]
def EP {α : Type} (P : α → Prop) (r : Except (Trap × State) α) : Prop := (∀ a b, r = .error (a, b) → State.Inv b) ∧ (∀ t, r = .ok t → P t)
theorem EP.bind {α β : Type} {P : α → Prop} {Q : β → Prop} {x : Except (Trap × State) α} {f : α → Except (Trap × State) β}
    (h : EP P x) (k : ∀ u, P u → EP Q (f u)) : EP Q (x >>= f) := by
  cases x with
  | error e => obtain ⟨a, b⟩ := e; refine ⟨?_, ?_⟩
               · intro c d q; cases q; exact h.1 _ _ rfl
               · intro t q; cases q
  | ok u => exact k u (h.2 u rfl)
theorem EP.ok {α : Type} {P : α → Prop} {x : α} (h : P x) : EP P (.ok x) := ⟨fun _ _ q => (by cases q), fun _ q => (by cases q; exact h)⟩
theorem EP.error {α : Type} {P : α → Prop} {t : Trap} {s : State} (h : s.Inv) : EP P (α := α) (.error (t, s)) := ⟨fun _ _ q => (by cases q; exact h), fun _ q => (by cases q)⟩
theorem EP.finish (p) (r : Res) (h : EP State.Inv r) : ∀ t, finish p r = .next t → t.Inv := finish_inv p r ⟨h.1, h.2⟩
theorem EP.finishAt (r : Res) (h : EP State.Inv r) : ∀ t, finishAt r = .next t → t.Inv := finishAt_inv r ⟨h.1, h.2⟩
theorem EP.finishMem (p) (r : Res) (h : EP State.Inv r) : ∀ t, finishMem p r = .next t → t.Inv := finishMem_inv p r ⟨h.1, h.2⟩
theorem EP.scoped (s : State) (x) (h : s.Inv) : EP State.Inv (s.scoped x) := ⟨State.scoped_inv_error s x h, State.scoped_inv_ok s x h⟩
theorem EP.releaseIf (s : State) (x y) (h : s.Inv) : EP State.Inv (s.releaseIf x y) := ⟨State.releaseIf_inv_error s x y h, State.releaseIf_inv_ok s x y h⟩
theorem EP.require (c : Bool) (t : Trap) (s : State) (h : s.Inv) : EP State.Inv (require c t s) := by
  unfold Sys2Proof.Machine.require; split
  · exact EP.ok h
  · exact EP.error h
theorem EP.vecCheck (s : State) (a b c d) (h : s.Inv) : EP State.Inv (s.vecCheck a b c d) := by
  unfold State.vecCheck; split
  · exact EP.error h
  · split
    · exact EP.error h
    · exact EP.ok h
theorem EP.atomicAt (s : State) (a b c d f) (h : s.Inv) : EP (fun p : Option Nat × State => p.2.Inv) (s.atomicAt a b c d f) :=
  ⟨State.atomicAt_inv_error s a b c d f h, fun t q => State.atomicAt_inv_ok s a b c d f h t.1 t.2 q⟩
theorem State.eret_inv : ∀ x0, State.Inv x0 → ((∀ t0a t0b, (@State.eret x0) = Except.error (t0a, t0b) → State.Inv t0b) ∧ (∀ t0, (@State.eret x0) = Except.ok t0 → State.Inv t0)) := by
  intro s h; unfold State.eret; dsimp only
  show EP State.Inv _
  split
  · exact EP.error h
  · split
    · exact EP.error h
    · refine EP.ok (State.countInstr_inv _ ?_)
      by_cases hm : s.hart.mode = .p
      · simp only [hm, if_true, State.eretSet]; exact ⟨h.1, busyClear_legal _ h.2⟩
      · simp only [hm, if_false]; exact h
theorem State.answer_inv : ∀ x0 x1 x2 x3, State.Inv x0 → State.Inv (@State.answer x0 x1 x2 x3) := by
  intro s h tok a hs
  unfold State.answer
  have hu := State.unhold_inv s h tok hs
  cases s.heldAt h tok with
  | none => exact hs
  | some x =>
    dsimp only
    generalize s.unhold h tok = u at hu ⊢
    cases x.cmd with
    | some i => exact hu
    | none =>
      dsimp only
      by_cases hw : u.hart.wait = some (.held tok)
      · rw [if_pos hw]
        cases x.tlbsh with
        | some k => exact State.retire_inv _ _ (State.invalidate_inv _ _ _ hu)
        | none =>
          cases a with
          | complete d =>
            dsimp only
            cases x.scalar
            · exact State.forward_inv _ _ hu
            · exact hu
          | forward => exact State.forward_inv _ _ hu
          | none => cases x.cut <;> exact hu
          | again f => cases x.cut <;> exact hu
      · rw [if_neg hw]; exact hu
theorem State.resumeFirst_inv : ∀ x0 x1 x2 x3 x4, State.Inv x0 → (∀ t0, (@State.resumeFirst x0 x1 x2 x3 x4) = some t0 → State.Inv t0) := by
  intro s v n g l h t e
  unfold State.resumeFirst at e
  rw [Option.map_eq_some_iff] at e
  obtain ⟨u, -, rfl⟩ := e
  exact State.resumeGroup_inv _ _ _ _ _ _ h
theorem State.resumeAll_inv : ∀ x0 x1 x2 x3 x4, State.Inv x0 → (∀ t0, (@State.resumeAll x0 x1 x2 x3 x4) = some t0 → State.Inv t0) := by
  intro s v n l gs
  induction gs generalizing s with
  | nil => intro h t e; cases e; exact h
  | cons g r ih =>
    intro h t e
    simp only [State.resumeAll, Option.bind_eq_some_iff] at e
    obtain ⟨u, hu, e⟩ := e
    exact ih u (State.resumeFirst_inv _ _ _ _ _ h _ hu) t e
theorem State.placeOffer_inv : ∀ x0 x1 x2, State.Inv x0 → (∀ t0, (@State.placeOffer x0 x1 x2) = some t0 → State.Inv t0) := by
  intro s h o w t e; unfold State.placeOffer at e; dsimp only at e
  split at e
  · split at e
    · exact State.resumeAll_inv _ _ _ _ _ w _ e
    · exact State.resumeFirst_inv _ _ _ _ _ w _ e
  · split at e
    · revert e; apply ite_inv
      · intro e; cases e
      · intro e; rw [Option.map_eq_some_iff] at e; obtain ⟨u, hu, rfl⟩ := e
        exact State.onLaunch_inv _ _ _ _ (State.placeAll_inv _ _ _ _ _ _ w _ hu)
    · rw [Option.map_eq_some_iff] at e; obtain ⟨u, hu, rfl⟩ := e
      exact State.onLaunch_inv _ _ _ _ (State.placeNext_inv _ _ _ _ _ w _ hu)
theorem State.readLine_inv : ∀ x0 x1 x2 x3 x4 x5, State.Inv x0 → State.Inv ((@State.readLine x0 x1 x2 x3 x4 x5)).1 := by
  intro s frm win va x n h; unfold State.readLine; dsimp only
  have h1 := State.settleAt_inv s x.pa n h
  generalize s.settleAt x.pa n = u at h1 ⊢
  cases hw : (if win = true then u.windowLine frm va else none) with
  | none => exact State.uncount_inv _ _ _ (State.readSource_inv _ _ _ _ _ h1) h1
  | some p =>
    obtain ⟨i, e⟩ := p
    dsimp only
    have h2 := State.fillLine_inv u u.myVf frm i e h1
    cases he : e.line <;> dsimp only
    · generalize u.fillLine u.myVf frm i e = q at h2 ⊢
      obtain ⟨v, l⟩ := q
      cases l <;> first | exact h2 | exact State.uncount_inv _ _ _ (State.addTraffic_inv _ _ _ _ h2) h2
    · exact State.uncount_inv _ _ _ (State.addTraffic_inv _ _ _ _ h1) h1
    · exact h1
    · exact h1
theorem State.readLines_inv : ∀ x0 x1 x2 x3 x4 x5, State.Inv x0 → State.Inv ((@State.readLines x0 x1 x2 x3 x4 x5)).1 := by
  intro s frm win va x l; induction l generalizing s va x with
  | nil => intro h; exact h
  | cons n r ih =>
    intro h; simp only [State.readLines]
    have h1 := State.readLine_inv s frm win va x n h
    generalize s.readLine frm win va x n = q at h1 ⊢
    obtain ⟨u, l⟩ := q
    cases l
    · exact h1
    · dsimp only
      have h2 := ih u (va + BitVec.ofNat 64 n) { pa := x.pa + n, cls := x.cls } h1
      generalize u.readLines frm win (va + BitVec.ofNat 64 n) { pa := x.pa + n, cls := x.cls } r = q at h2 ⊢
      obtain ⟨v, m⟩ := q
      cases m <;> exact h2
theorem State.dispatch_inv : ∀ x0 x1, State.Inv x0 → State.Inv (@State.dispatch x0 x1) := by
  intro s h w; unfold State.dispatch; dsimp only
  have h1 := foldl_inv ((s.launches.filter fun l => l.st == .pending && s.homeOf l.vf l.serial == h
      && !(s.cohortFits l ((s.vf l.vf).queue l.queue).halls)))
    (fun (s : State) (l : Launch) => ((s.cancelLaunch l.vf l.serial false).countRej l.vf).endOver l.vf s.launches.length)
    (fun s l h => State.endOver_inv _ _ _ (State.countRej_inv _ _ (State.cancelLaunch_inv _ _ _ _ h))) s w
  generalize List.foldl (fun (s : State) (l : Launch) => ((s.cancelLaunch l.vf l.serial false).countRej l.vf).endOver l.vf s.launches.length) s _ = u at h1 ⊢
  have fin : ∀ (z : State) (p : Option Offer) (lvl : Nat), z.Inv → State.Inv (match p with
    | none => z
    | some o =>
      match z.placeOffer h o with
      | none => z
      | some s' =>
        (s'.onQueue o.vf o.q fun y => { y with credit := y.credit - 1, boost := 0, wait := 0 }).onHall h
          fun x => { x with lastServed := alSet (lvl - 1) o.key x.lastServed }) := by
    intro z p lvl hz
    cases p with
    | none => exact hz
    | some o =>
      dsimp only
      cases hq : z.placeOffer h o with
      | none => exact hz
      | some v => exact State.onHall_inv _ _ _ (State.onQueue_inv _ _ _ _ (State.placeOffer_inv _ _ _ hz _ hq))
  have ask : ∀ (c : Prop) [Decidable c] (a : Option Offer), State.Inv (if c then (match a with | some o => (match u.victim h o with | some v => u.askStop v | none => u) | none => u) else u) := by
    intro c _ a; split
    · split
      · split
        · exact State.askStop_inv _ _ h1
        · exact h1
      · exact h1
    · exact h1
  have onl : ∀ (l : List Offer) (z : State) (f : Offer → Bool) , z.Inv → State.Inv (l.foldl (fun s o => if f o = true then s.onLaunch o.vf o.launch.serial fun l => { l with st := .pending } else s) z) := by
    intro l z f hz; apply foldl_inv _ _ _ _ hz; intro s o hs; split
    · exact State.onLaunch_inv _ _ _ _ hs
    · exact hs
  split
  · exact onl _ _ _ (ask _ _)
  · have key : ∀ q : State × Option Offer, q.1.Inv → ∀ lvl : Nat, State.Inv (match q with
      | (z, p) => match p with
        | none => z
        | some o =>
          match z.placeOffer h o with
          | none => z
          | some s' =>
            (s'.onQueue o.vf o.q fun y => { y with credit := y.credit - 1, boost := 0, wait := 0 }).onHall h
              fun x => { x with lastServed := alSet (lvl - 1) o.key x.lastServed }) := fun q hq lvl => fin q.1 q.2 lvl hq
    refine key _ ?_ _
    cases List.find? (fun o : Offer => o.launch.st == LaunchState.pending && o.back.isNone) _ with
    | none => 
      refine State.chooseQueue_inv _ _ _ _ _ ?_
      refine onl _ _ _ ?_
      exact ask _ _
    | some o =>
      refine onl _ _ _ ?_
      exact ask _ _
theorem State.writeVf_inv : ∀ x0 x1 x2 x3 x4 x5 x6, State.Inv x0 → (∀ t0, (@State.writeVf x0 x1 x2 x3 x4 x5 x6) = some t0 → State.Inv t0) := by
  intro s q frm v pa o x h t e
  have on : ∀ (b : Bool) (u t : State), u.Inv → (if b = true then some u else none) = some t → t.Inv := by
    intro b u t hu e; cases b <;> simp at e; exact e ▸ hu
  unfold State.writeVf at e; dsimp only at e
  revert e
  refine ite_inv ?_ (ite_inv ?_ (ite_inv ?_ (ite_inv ?_ (ite_inv ?_ (ite_inv ?_ (ite_inv ?_ (ite_inv ?_ (ite_inv ?_ (ite_inv ?_
    (ite_inv ?_ (ite_inv ?_ (ite_inv ?_ ?_))))))))))))
  · exact on _ _ _ (State.writeVfcfg_inv _ _ _ h)
  · exact on _ _ _ (State.onVf_inv _ _ _ h)
  · exact on _ _ _ (by split; exact State.startVfReset_inv _ _ h; exact h)
  · exact on _ _ _ (State.onVf_inv _ _ _ h)
  · exact on _ _ _ (State.onVf_inv _ _ _ h)
  · exact on _ _ _ (State.onVf_inv _ _ _ h)
  · exact on _ _ _ (State.onVf_inv _ _ _ h)
  · exact on _ _ _ (State.onVf_inv _ _ _ h)
  · exact on _ _ _ (State.onVf_inv _ _ _ h)
  · exact on _ _ _ (State.onVf_inv _ _ _ h)
  · exact on _ _ _ (State.onVf_inv _ _ _ h)
  · exact on _ _ _ (by split; exact State.startAttest_inv _ _ h; exact h)
  · intro e
    split at e
    · exact on _ _ _ (State.writeQcfg_inv _ _ _ _ h) e
    · exact on _ _ _ (State.writeQbase_inv _ _ _ _ h) e
    · exact on _ _ _ (State.writeTail_inv _ _ _ _ _ _ h) e
  · intro e; cases e
theorem execFqrespRetry_inv : ∀ x0 x1 x2, State.Inv x2 → (∀ t0, (@execFqrespRetry x0 x1 x2) = Host.Outcome.next t0 → State.Inv t0) := by
  intro x0 x1 x2 h0; unfold execFqrespRetry; grind [happened_inv, State.answer_inv, foldl_inv, State.Inv]
theorem execFqrespForward_inv : ∀ x0 x1 x2, State.Inv x2 → (∀ t0, (@execFqrespForward x0 x1 x2) = Host.Outcome.next t0 → State.Inv t0) := by
  intro x0 x1 x2 h0; unfold execFqrespForward; grind [happened_inv, State.answer_inv, foldl_inv, State.Inv]
theorem execFqrespComplete_inv : ∀ x0 x1 x2, State.Inv x2 → (∀ t0, (@execFqrespComplete x0 x1 x2) = Host.Outcome.next t0 → State.Inv t0) := by
  intro x0 x1 x2 h0; unfold execFqrespComplete; grind [happened_inv, State.answer_inv, foldl_inv, State.Inv]
theorem execDispatcherStep_inv : ∀ x0 x1, State.Inv x1 → (∀ t0, (@execDispatcherStep x0 x1) = Host.Outcome.next t0 → State.Inv t0) := by
  intro x0 x1 h0; unfold execDispatcherStep; grind [happened_inv, State.dispatch_inv, foldl_inv, State.Inv]
theorem State.writeFqresp_inv : ∀ x0 x1 x2, State.Inv x0 → State.Inv (@State.writeFqresp x0 x1 x2) := by
  intro x0 x1 x2 h0; unfold State.writeFqresp; grind [State.answer_inv, foldl_inv, State.Inv]
theorem State.writeFq_inv : ∀ x0 x1 x2 x3, State.Inv x0 → (∀ t0, (@State.writeFq x0 x1 x2 x3) = some t0 → State.Inv t0) := by
  intro x0 x1 x2 x3 h0; unfold State.writeFq; grind [State.onHall_inv, State.fqDrain_inv, State.writeFqHead_inv, State.writeFqresp_inv, State.startShoot_inv, foldl_inv, State.Inv]
set_option maxHeartbeats 400000 in
theorem State.writeHall_inv : ∀ x0 x1 x2 x3 x4, State.Inv x0 → (∀ t0, (@State.writeHall x0 x1 x2 x3 x4) = some t0 → State.Inv t0) := by
  intro s q v o x h t e; unfold State.writeHall at e; dsimp only at e
  revert e
  repeat' refine ite_inv ?_ ?_
  all_goals intro e
  all_goals first
    | (simp at e; done)
    | (cases e; exact h)
    | (exact State.writeFq_inv _ _ _ _ h _ e)
    | (exact State.writeCluster_inv _ _ _ _ _ h _ e)
    | (cases e; exact State.writeHown_inv _ _ _ h)
    | (cases e; exact State.writeHallctl_inv _ _ _ h)
    | (cases e; exact State.onHall_inv _ _ _ h)
    | (cases e; split <;> first | exact h | exact State.onHall_inv _ _ _ h | exact State.writeGwbase_inv _ _ _ _ h | exact State.writeGwctl_inv _ _ _ _ h)
    | (cases e; exact State.writeGwbase_inv _ _ _ _ h)
    | (cases e; exact State.writeGwctl_inv _ _ _ _ h)
    | (cases e; exact State.writeGuar_inv _ _ _ _ h)
    | (rw [Option.map_eq_some_iff] at e; obtain ⟨y, _, rfl⟩ := e; exact State.onPort_inv _ _ _ _ h)
    | skip
theorem State.regWrite_inv : ∀ x0 x1 x2 x3 x4, State.Inv x0 → (∀ t0, (@State.regWrite x0 x1 x2 x3 x4) = some t0 → State.Inv t0) := by
  intro x0 x1 x2 x3 x4 h0; unfold State.regWrite; grind [State.writePackage_inv, State.writeVf_inv, State.writeHall_inv, foldl_inv, State.Inv]
theorem State.devStore_inv : ∀ x0 x1 x2, State.Inv x0 → ((∀ t0, (@State.devStore x0 x1 x2) = Except.error t0 → State.Inv t0) ∧ (∀ t0, (@State.devStore x0 x1 x2) = Except.ok t0 → State.Inv t0)) := by
  intro x0 x1 x2 h0; unfold State.devStore; grind [State.regWrite_inv, State.countDevice_inv, State.logRefusal_inv, State.performBytes_inv, foldl_inv, State.Inv]
theorem State.devStore_inv_error : ∀ x0 x1 x2, State.Inv x0 → (∀ t0, (@State.devStore x0 x1 x2) = Except.error t0 → State.Inv t0) := fun x0 x1 x2 h0 => (State.devStore_inv x0 x1 x2 h0).1
theorem State.devStore_inv_ok : ∀ x0 x1 x2, State.Inv x0 → (∀ t0, (@State.devStore x0 x1 x2) = Except.ok t0 → State.Inv t0) := fun x0 x1 x2 h0 => (State.devStore_inv x0 x1 x2 h0).2
theorem State.loadFrom_inv : ∀ x0 x1 x2 x3 x4 x5 x6 x7, State.Inv x0 → State.Inv ((@State.loadFrom x0 x1 x2 x3 x4 x5 x6 x7)).1 := by
  intro x0 x1 x2 x3 x4 x5 x6 x7 h0; unfold State.loadFrom; grind [State.reach_inv, State.devLoad_inv, State.readLines_inv, foldl_inv, State.Inv]
theorem State.loadAt_inv : ∀ x0 x1 x2 x3 x4 x5, State.Inv x0 → State.Inv ((@State.loadAt x0 x1 x2 x3 x4 x5)).1 := by
  intro x0 x1 x2 x3 x4 x5 h0; unfold State.loadAt; grind [State.loadFrom_inv, foldl_inv, State.Inv]
theorem State.storeBytes_inv : ∀ x0 x1 x2 x3, State.Inv x0 → State.Inv (@State.storeBytes x0 x1 x2 x3) := by
  intro x0 x1 x2 x3 h0; unfold State.storeBytes; grind [State.devStore_inv_error, State.devStore_inv_ok, State.post_inv, foldl_inv, State.Inv]
theorem State.storeAt_inv : ∀ x0 x1 x2 x3, State.Inv x0 → ((∀ t0a t0b, (@State.storeAt x0 x1 x2 x3) = Except.error (t0a, t0b) → State.Inv t0b) ∧ (∀ t0, (@State.storeAt x0 x1 x2 x3) = Except.ok t0 → State.Inv t0)) := by
  intro x0 x1 x2 x3 h0; unfold State.storeAt; grind [State.reachWrite_inv, State.storeBytes_inv, foldl_inv, State.Inv]
theorem State.storeAt_inv_error : ∀ x0 x1 x2 x3, State.Inv x0 → (∀ t0a t0b, (@State.storeAt x0 x1 x2 x3) = Except.error (t0a, t0b) → State.Inv t0b) := fun x0 x1 x2 x3 h0 => (State.storeAt_inv x0 x1 x2 x3 h0).1
theorem State.storeAt_inv_ok : ∀ x0 x1 x2 x3, State.Inv x0 → (∀ t0, (@State.storeAt x0 x1 x2 x3) = Except.ok t0 → State.Inv t0) := fun x0 x1 x2 x3 h0 => (State.storeAt_inv x0 x1 x2 x3 h0).2
theorem loadEffect_inv : ∀ x0 x1 x2 x3 x4, State.Inv x4 → ((∀ t0a t0b, (@loadEffect x0 x1 x2 x3 x4) = Except.error (t0a, t0b) → State.Inv t0b) ∧ (∀ t0, (@loadEffect x0 x1 x2 x3 x4) = Except.ok t0 → State.Inv t0)) := by
  intro x0 x1 x2 x3 x4 h0; unfold loadEffect; grind [State.setG_inv, State.onHart_inv, State.loadFrom_inv, State.noteG_inv, foldl_inv, State.Inv]
theorem loadEffect_inv_error : ∀ x0 x1 x2 x3 x4, State.Inv x4 → (∀ t0a t0b, (@loadEffect x0 x1 x2 x3 x4) = Except.error (t0a, t0b) → State.Inv t0b) := fun x0 x1 x2 x3 x4 h0 => (loadEffect_inv x0 x1 x2 x3 x4 h0).1
theorem loadEffect_inv_ok : ∀ x0 x1 x2 x3 x4, State.Inv x4 → (∀ t0, (@loadEffect x0 x1 x2 x3 x4) = Except.ok t0 → State.Inv t0) := fun x0 x1 x2 x3 x4 h0 => (loadEffect_inv x0 x1 x2 x3 x4 h0).2
theorem storeEffect_inv : ∀ x0 x1 x2 x3, State.Inv x3 → ((∀ t0a t0b, (@storeEffect x0 x1 x2 x3) = Except.error (t0a, t0b) → State.Inv t0b) ∧ (∀ t0, (@storeEffect x0 x1 x2 x3) = Except.ok t0 → State.Inv t0)) := by
  intro x0 x1 x2 x3 h0; unfold storeEffect; grind [State.onHart_inv, State.storeAt_inv_error, State.storeAt_inv_ok, foldl_inv, State.Inv]
theorem storeEffect_inv_error : ∀ x0 x1 x2 x3, State.Inv x3 → (∀ t0a t0b, (@storeEffect x0 x1 x2 x3) = Except.error (t0a, t0b) → State.Inv t0b) := fun x0 x1 x2 x3 h0 => (storeEffect_inv x0 x1 x2 x3 h0).1
theorem storeEffect_inv_ok : ∀ x0 x1 x2 x3, State.Inv x3 → (∀ t0, (@storeEffect x0 x1 x2 x3) = Except.ok t0 → State.Inv t0) := fun x0 x1 x2 x3 h0 => (storeEffect_inv x0 x1 x2 x3 h0).2
theorem scalarLoad_inv : ∀ x0 x1 x2 x3 x4 x5, State.Inv x5 → (∀ t0, (@scalarLoad x0 x1 x2 x3 x4 x5) = Host.Outcome.next t0 → State.Inv t0) := by
  intro x0 x1 x2 x3 x4 x5 h0; unfold scalarLoad; grind [finishMem_inv, loadEffect_inv_error, loadEffect_inv_ok, foldl_inv, State.Inv]
theorem scalarStore_inv : ∀ x0 x1 x2 x3 x4, State.Inv x4 → (∀ t0, (@scalarStore x0 x1 x2 x3 x4) = Host.Outcome.next t0 → State.Inv t0) := by
  intro x0 x1 x2 x3 x4 h0; unfold scalarStore; grind [postStalls_inv, finishMem_inv, storeEffect_inv_error, storeEffect_inv_ok, foldl_inv, State.Inv]
theorem execLdb_inv : ∀ x0 x1 x2 x3, State.Inv x3 → (∀ t0, (@execLdb x0 x1 x2 x3) = Host.Outcome.next t0 → State.Inv t0) := by
  intro x0 x1 x2 x3 h0; unfold execLdb; grind [scalarLoad_inv, foldl_inv, State.Inv]
theorem execLdbn_inv : ∀ x0 x1 x2 x3, State.Inv x3 → (∀ t0, (@execLdbn x0 x1 x2 x3) = Host.Outcome.next t0 → State.Inv t0) := by
  intro x0 x1 x2 x3 h0; unfold execLdbn; grind [scalarLoad_inv, foldl_inv, State.Inv]
theorem execLdh_inv : ∀ x0 x1 x2 x3, State.Inv x3 → (∀ t0, (@execLdh x0 x1 x2 x3) = Host.Outcome.next t0 → State.Inv t0) := by
  intro x0 x1 x2 x3 h0; unfold execLdh; grind [scalarLoad_inv, foldl_inv, State.Inv]
theorem execLdhn_inv : ∀ x0 x1 x2 x3, State.Inv x3 → (∀ t0, (@execLdhn x0 x1 x2 x3) = Host.Outcome.next t0 → State.Inv t0) := by
  intro x0 x1 x2 x3 h0; unfold execLdhn; grind [scalarLoad_inv, foldl_inv, State.Inv]
theorem execLdw_inv : ∀ x0 x1 x2 x3, State.Inv x3 → (∀ t0, (@execLdw x0 x1 x2 x3) = Host.Outcome.next t0 → State.Inv t0) := by
  intro x0 x1 x2 x3 h0; unfold execLdw; grind [scalarLoad_inv, foldl_inv, State.Inv]
theorem execLdwn_inv : ∀ x0 x1 x2 x3, State.Inv x3 → (∀ t0, (@execLdwn x0 x1 x2 x3) = Host.Outcome.next t0 → State.Inv t0) := by
  intro x0 x1 x2 x3 h0; unfold execLdwn; grind [scalarLoad_inv, foldl_inv, State.Inv]
theorem execLdd_inv : ∀ x0 x1 x2 x3, State.Inv x3 → (∀ t0, (@execLdd x0 x1 x2 x3) = Host.Outcome.next t0 → State.Inv t0) := by
  intro x0 x1 x2 x3 h0; unfold execLdd; grind [scalarLoad_inv, foldl_inv, State.Inv]
theorem execStb_inv : ∀ x0 x1 x2 x3, State.Inv x3 → (∀ t0, (@execStb x0 x1 x2 x3) = Host.Outcome.next t0 → State.Inv t0) := by
  intro x0 x1 x2 x3 h0; unfold execStb; grind [scalarStore_inv, foldl_inv, State.Inv]
theorem execSth_inv : ∀ x0 x1 x2 x3, State.Inv x3 → (∀ t0, (@execSth x0 x1 x2 x3) = Host.Outcome.next t0 → State.Inv t0) := by
  intro x0 x1 x2 x3 h0; unfold execSth; grind [scalarStore_inv, foldl_inv, State.Inv]
theorem execStw_inv : ∀ x0 x1 x2 x3, State.Inv x3 → (∀ t0, (@execStw x0 x1 x2 x3) = Host.Outcome.next t0 → State.Inv t0) := by
  intro x0 x1 x2 x3 h0; unfold execStw; grind [scalarStore_inv, foldl_inv, State.Inv]
theorem execStd_inv : ∀ x0 x1 x2 x3, State.Inv x3 → (∀ t0, (@execStd x0 x1 x2 x3) = Host.Outcome.next t0 → State.Inv t0) := by
  intro x0 x1 x2 x3 h0; unfold execStd; grind [scalarStore_inv, foldl_inv, State.Inv]
theorem execLda_inv : ∀ x0 x1 x2 x3 x4, State.Inv x4 → (∀ t0, (@execLda x0 x1 x2 x3 x4) = Host.Outcome.next t0 → State.Inv t0) := by
  intro x0 x1 x2 x3 x4 h0; unfold execLda; apply finishMem_inv; (try simp only [bind, Except.bind, pure, Except.pure, State.vecCheck, require]); grind [finishMem_inv, State.scoped_inv_error, State.scoped_inv_ok, State.setG_inv, State.demote_inv, State.useAnswer_inv, State.loadAt_inv, State.noteG_inv, foldl_inv, State.Inv]
theorem loadElem_inv : ∀ x0 x1 x2 x3 x4, State.Inv (x3).s → State.Inv ((@loadElem x0 x1 x2 x3 x4)).s := by
  intro x0 x1 x2 x3 x4 h0; unfold loadElem; grind [Run.s_inv, State.noteElem_inv, State.setElem_inv, State.loadFrom_inv, State.lateElem_inv, foldl_inv, State.Inv]
theorem State.vload_inv : ∀ x0 x1 x2 x3, State.Inv x0 → ((∀ t0a t0b, (@State.vload x0 x1 x2 x3) = Except.error (t0a, t0b) → State.Inv t0b) ∧ (∀ t0, (@State.vload x0 x1 x2 x3) = Except.ok t0 → State.Inv t0)) := by
  intro x0 x1 x2 x3 h0; unfold State.vload; grind [Run.done_inv_error, Run.done_inv_ok, runElems_inv, loadElem_inv, foldl_inv, State.Inv]
theorem State.vload_inv_error : ∀ x0 x1 x2 x3, State.Inv x0 → (∀ t0a t0b, (@State.vload x0 x1 x2 x3) = Except.error (t0a, t0b) → State.Inv t0b) := fun x0 x1 x2 x3 h0 => (State.vload_inv x0 x1 x2 x3 h0).1
theorem State.vload_inv_ok : ∀ x0 x1 x2 x3, State.Inv x0 → (∀ t0, (@State.vload x0 x1 x2 x3) = Except.ok t0 → State.Inv t0) := fun x0 x1 x2 x3 h0 => (State.vload_inv x0 x1 x2 x3 h0).2
theorem EP.done (r : Run) (k) (b) (h : r.s.Inv) : EP State.Inv (r.done k b) := ⟨Run.done_inv_error r k b h, Run.done_inv_ok r k b h⟩
theorem EP.vload (s : State) (a b c) (h : s.Inv) : EP State.Inv (s.vload a b c) := ⟨State.vload_inv_error s a b c h, State.vload_inv_ok s a b c h⟩
theorem EP.needClaim (s : State) (h : s.Inv) : EP State.Inv s.needClaim := EP.require _ _ _ h
theorem EP.needShare (s : State) (h : s.Inv) : EP State.Inv s.needShare := EP.require _ _ _ h
theorem EP.needMode (s : State) (m) (h : s.Inv) : EP State.Inv (s.needMode m) := EP.require _ _ _ h
theorem EP.aligned64 (s : State) (a) (h : s.Inv) : EP State.Inv (s.aligned64 a) := EP.require _ _ _ h
theorem State.vloadFirst_inv : ∀ x0 x1 x2 x3, State.Inv x0 → (∀ t0, (@State.vloadFirst x0 x1 x2 x3) = Host.Outcome.next t0 → State.Inv t0) := by
  intro x0 x1 x2 x3 h0; unfold State.vloadFirst; grind [runElems_inv, loadElem_inv, State.useAnswer_inv, finishMem_inv, State.setVstart_inv, State.loseVl_inv, Run.s_inv, State.holdCut_inv, State.onHart_inv, foldl_inv, State.Inv]
theorem State.vpost_inv : ∀ x0 x1 x2 x3, State.Inv x0 → ((∀ t0a t0b, (@State.vpost x0 x1 x2 x3) = Except.error (t0a, t0b) → State.Inv t0b) ∧ (∀ t0, (@State.vpost x0 x1 x2 x3) = Except.ok t0 → State.Inv t0)) := by
  intro s v mk k h
  show EP State.Inv _
  unfold State.vpost; dsimp only
  exact EP.done _ _ _ (State.issueReqs_inv _ _ _ (postElems_inv _ _ _ _ h))
theorem State.vpost_inv_error : ∀ x0 x1 x2 x3, State.Inv x0 → (∀ t0a t0b, (@State.vpost x0 x1 x2 x3) = Except.error (t0a, t0b) → State.Inv t0b) := fun x0 x1 x2 x3 h0 => (State.vpost_inv x0 x1 x2 x3 h0).1
theorem State.vpost_inv_ok : ∀ x0 x1 x2 x3, State.Inv x0 → (∀ t0, (@State.vpost x0 x1 x2 x3) = Except.ok t0 → State.Inv t0) := fun x0 x1 x2 x3 h0 => (State.vpost_inv x0 x1 x2 x3 h0).2
theorem loadRow_inv : ∀ x0 x1 x2, State.Inv x2 → State.Inv ((@loadRow x0 x1 x2)).1 := by
  intro v l; induction l with
  | nil => intro s h; exact h
  | cons e r ih =>
    intro s h; simp only [loadRow]; split
    · exact h
    · rename_i va _
      have h1 := State.loadAt_inv s va v.size v.size v.ok [v.size] h
      generalize s.loadAt va v.size v.size v.ok [v.size] = q at h1 ⊢
      obtain ⟨u, g⟩ := q
      have h2 := ih u h1
      generalize hq : loadRow v r u = q at h2
      obtain ⟨w, y⟩ := q
      cases g <;> simp only [hq]
      · rcases y with _ | (_ | _) <;> exact h2
      · rcases y with _ | (_ | _) <;> exact h2
      · exact h1
      · exact h1
theorem fillRows_inv : ∀ x0 x1 x2 x3 x4 x5, State.Inv (x4).s → State.Inv ((@fillRows x0 x1 x2 x3 x4 x5)).s := by
  intro x0 x1 x2 x3 x4 x5 h0; unfold fillRows; grind [loadRow_inv, Run.s_inv, State.noteTile_inv, State.setTile_inv, foldl_inv, State.Inv]
theorem execZfill_inv : ∀ x0 x1 x2 x3, State.Inv x3 → (∀ t0, (@execZfill x0 x1 x2 x3) = Host.Outcome.next t0 → State.Inv t0) := by
  intro p d a s h; unfold execZfill; apply EP.finishMem
  refine EP.bind (EP.needShare _ h) fun u hu => EP.bind (EP.aligned64 _ _ hu) fun v hv => ?_
  dsimp only
  refine EP.done _ _ _ ?_
  apply runElems_inv
  · intro r e hr; exact fillRows_inv _ _ _ _ _ _ hr
  · exact State.noteTile_inv _ _ _ hv
theorem State.gatherRow_inv : ∀ x0 x1 x2, State.Inv x0 → State.Inv ((@State.gatherRow x0 x1 x2)).1 := by
  intro x0 x1 x2 h0; unfold State.gatherRow; grind [State.loadFrom_inv, foldl_inv, State.Inv]
theorem olgathRow_inv : ∀ x0 x1 x2 x3 x4, State.Inv (x3).s → State.Inv ((@olgathRow x0 x1 x2 x3 x4)).s := by
  intro x0 x1 x2 x3 x4 h0; unfold olgathRow; grind [State.noteLatch_inv, Run.s_inv, State.setLatchRow_inv, State.gatherRow_inv, foldl_inv, State.Inv]
theorem execOlgath_inv : ∀ x0 x1 x2 x3 x4 x5 x6, State.Inv x6 → (∀ t0, (@execOlgath x0 x1 x2 x3 x4 x5 x6) = Host.Outcome.next t0 → State.Inv t0) := by
  intro x0 x1 x2 x3 x4 x5 x6 h0; unfold execOlgath; apply finishMem_inv; (try simp only [bind, Except.bind, pure, Except.pure, State.vecCheck, require]); grind [finishMem_inv, State.vecCheck_inv_error, State.vecCheck_inv_ok, State.needShare_inv_error, State.needShare_inv_ok, State.setVstart_inv, State.noteLatch_inv, runElems_inv, olgathRow_inv, State.setDesc_inv, Run.s_inv, foldl_inv, State.Inv]
theorem rebuildRow_inv : ∀ x0 x1 x2, State.Inv (x1).1 → State.Inv ((@rebuildRow x0 x1 x2)).1 := by
  intro x0 x1 x2 h0; unfold rebuildRow; grind [State.onHart_inv, State.setLatchRow_inv, State.gatherRow_inv, foldl_inv, State.Inv]
theorem State.rebuildLatches_inv : ∀ x0, State.Inv x0 → State.Inv ((@State.rebuildLatches x0)).1 := by
  intro s h; unfold State.rebuildLatches
  exact foldlP_inv _ _ (fun p a h => rebuildRow_inv _ _ _ h) _ (foldlP_inv _ _ (fun p a h => rebuildRow_inv _ _ _ h) _ h)
theorem execMblk_inv : ∀ x0 x1 x2 x3, State.Inv x3 → (∀ t0, (@execMblk x0 x1 x2 x3) = Host.Outcome.next t0 → State.Inv t0) := by
  intro p d b s h; unfold execMblk; dsimp only
  have h0 : EP State.Inv ((do
    let s ← require (matType (s.vtype p)) s.illegal s
    s.needShare : Res)) := EP.bind (EP.require _ _ _ h) fun u hu => EP.needShare _ hu
  generalize ((do
    let s ← require (matType (s.vtype p)) s.illegal s
    s.needShare : Res)) = r at h0 ⊢
  intro t e
  cases r with
  | error q => obtain ⟨x, u⟩ := q; injection e with e; subst e; exact State.takeTrap_inv _ _ (h0.1 _ _ rfl)
  | ok u =>
    have hu := State.rebuildLatches_inv u (h0.2 _ rfl)
    dsimp only at e
    generalize u.rebuildLatches = q at hu e
    obtain ⟨v, x⟩ := q
    cases x with
    | some x => injection e with e; subst e; exact State.takeRebuild_inv _ _ hu
    | none =>
      dsimp only at e; split at e
      · injection e with e; subst e; exact State.retire_inv _ _ (State.setVstart_inv _ _ (State.noteTile_inv _ _ _ hu))
      · injection e with e; subst e; exact State.retire_inv _ _ (State.setVstart_inv _ _ (State.countMacs_inv _ _ (State.orVstat_inv _ _ (State.setTile_inv _ _ _ hu))))
theorem issueCmd_inv : ∀ x0 x1 x2 x3 x4 x5 x6 x7 x8, State.Inv x8 → (∀ t0, (@issueCmd x0 x1 x2 x3 x4 x5 x6 x7 x8) = Host.Outcome.next t0 → State.Inv t0) := by
  intro x0 x1 x2 x3 x4 x5 x6 x7 x8 h0; unfold issueCmd; grind [State.scoped_inv_error, State.scoped_inv_ok, State.takeTrap_inv, State.retire_inv, State.reach_inv, State.takeFault_inv, State.loadAt_inv, State.demote_inv, State.settleScope_inv, State.issued_inv, State.addCmd_inv, foldl_inv, State.Inv]
theorem execCopy_inv : ∀ x0 x1 x2 x3 x4 x5, State.Inv x5 → (∀ t0, (@execCopy x0 x1 x2 x3 x4 x5) = Host.Outcome.next t0 → State.Inv t0) := by
  intro x0 x1 x2 x3 x4 x5 h0; unfold execCopy; grind [issueCmd_inv, foldl_inv, State.Inv]
theorem execColl_inv : ∀ x0 x1 x2 x3 x4 x5 x6, State.Inv x6 → (∀ t0, (@execColl x0 x1 x2 x3 x4 x5 x6) = Host.Outcome.next t0 → State.Inv t0) := by
  intro x0 x1 x2 x3 x4 x5 x6 h0; unfold execColl; grind [issueCmd_inv, foldl_inv, State.Inv]
theorem execFlight_inv : ∀ x0 x1 x2 x3 x4 x5 x6, State.Inv x6 → (∀ t0, (@execFlight x0 x1 x2 x3 x4 x5 x6) = Host.Outcome.next t0 → State.Inv t0) := by
  intro x0 x1 x2 x3 x4 x5 x6 h0; unfold execFlight; grind [issueCmd_inv, foldl_inv, State.Inv]
theorem execIxg_inv : ∀ x0 x1 x2 x3 x4 x5, State.Inv x5 → (∀ t0, (@execIxg x0 x1 x2 x3 x4 x5) = Host.Outcome.next t0 → State.Inv t0) := by
  intro x0 x1 x2 x3 x4 x5 h0; unfold execIxg; grind [issueCmd_inv, foldl_inv, State.Inv]
theorem State.endLost_inv : ∀ x0 x1, State.Inv x0 → State.Inv (@State.endLost x0 x1) := by
  intro x0 x1 h0; unfold State.endLost; grind [State.abortRun_inv, State.onCmd_inv, foldl_inv, State.Inv]
theorem State.armAll_inv : ∀ x0 x1, State.Inv x0 → State.Inv (@State.armAll x0 x1) := by
  intro x0 x1 h0; unfold State.armAll; grind [State.arm_inv, State.receiveSplit_inv, foldl_inv, State.Inv]
theorem execPathWeightMeasure_inv : ∀ x0 x1, State.Inv x1 → (∀ t0, (@execPathWeightMeasure x0 x1) = Host.Outcome.next t0 → State.Inv t0) := by
  intro x0 x1 h0; unfold execPathWeightMeasure; apply happened_inv; exact h0
theorem State.markLost_inv : ∀ x0 x1 x2, State.Inv x0 → State.Inv (@State.markLost x0 x1 x2) := by
  intro x0 x1 x2 h0; exact h0
theorem execWavelengthDark_inv : ∀ x0 x1 x2, State.Inv x2 → (∀ t0, (@execWavelengthDark x0 x1 x2) = Host.Outcome.next t0 → State.Inv t0) := by
  intro x0 x1 x2 h0; unfold execWavelengthDark; apply happened_inv; grind [State.markLost_inv, happened_inv, foldl_inv, State.Inv]
theorem execPathLost_inv : ∀ x0 x1 x2, State.Inv x2 → (∀ t0, (@execPathLost x0 x1 x2) = Host.Outcome.next t0 → State.Inv t0) := by
  intro x0 x1 x2 h0; unfold execPathLost; grind [happened_inv, State.endLost_inv, foldl_inv, State.Inv]
theorem TrapSet.write_legal (t : TrapSet) (n : Nat) (x : Word) (h : t.Legal) : (t.write n x).Legal := by
  obtain ⟨a, b, c⟩ := h
  unfold TrapSet.write; repeat' split
  all_goals first
   | exact ⟨a, b, c⟩
   | (refine ⟨?_, ?_, ?_⟩ <;> first | exact a | exact b | exact c | skip)
  all_goals (apply BitVec.eq_of_getLsbD_eq; intro i hi; simp [BitVec.getLsbD_extractLsb', BitVec.getLsbD_ofNat]; try grind)
  intro _; simp [setField, hi]
  intro _; obtain rfl | rfl : i = 0 ∨ i = 1 := by omega
  all_goals decide
--SPLIT
theorem iteInv {c : Prop} [Decidable c] {a b : State} (ha : a.Inv) (hb : b.Inv) : (if c then a else b).Inv := by split <;> assumption
--SPLIT
theorem State.sysWrite_inv : ∀ x0 x1 x2, State.Inv x0 → State.Inv (@State.sysWrite x0 x1 x2) := by
  intro s n x h; unfold State.sysWrite
  have hp : State.Inv ({ s with pset := s.pset.write (n - 0x200) x } : State) := by
    generalize n - 0x200 = k; exact ⟨h.1, TrapSet.write_legal s.pset k x h.2⟩
  exact iteInv (State.onHart_inv _ _ h) <| iteInv (State.onHart_inv _ _ h) <| iteInv (State.onHart_inv _ _ h) <|
    iteInv (State.onHart_inv _ _ h) <| iteInv (State.onHart_inv _ _ h) <| iteInv (State.onHart_inv _ _ h) <|
    iteInv (State.onHart_inv _ _ h) <| iteInv (State.onHart_inv _ _ h) <| iteInv (State.onHart_inv _ _ h) <|
    iteInv hp h
theorem State.sysCheck_inv : ∀ x0 x1 x2, State.Inv x0 → ((∀ t0a t0b, (@State.sysCheck x0 x1 x2) = Except.error (t0a, t0b) → State.Inv t0b) ∧ (∀ t0, (@State.sysCheck x0 x1 x2) = Except.ok t0 → State.Inv t0)) := by
  intro x0 x1 x2 h0; unfold State.sysCheck; grind [foldl_inv, State.Inv]
theorem State.sysCheck_inv_error : ∀ x0 x1 x2, State.Inv x0 → (∀ t0a t0b, (@State.sysCheck x0 x1 x2) = Except.error (t0a, t0b) → State.Inv t0b) := fun x0 x1 x2 h0 => (State.sysCheck_inv x0 x1 x2 h0).1
theorem State.sysCheck_inv_ok : ∀ x0 x1 x2, State.Inv x0 → (∀ t0, (@State.sysCheck x0 x1 x2) = Except.ok t0 → State.Inv t0) := fun x0 x1 x2 h0 => (State.sysCheck_inv x0 x1 x2 h0).2
theorem execSrd_inv : ∀ x0 x1 x2 x3, State.Inv x3 → (∀ t0, (@execSrd x0 x1 x2 x3) = Host.Outcome.next t0 → State.Inv t0) := by
  intro x0 x1 x2 x3 h0; unfold execSrd; apply finish_inv; (try simp only [bind, Except.bind, pure, Except.pure, State.vecCheck, require]); grind [finish_inv, State.sysCheck_inv_error, State.sysCheck_inv_ok, State.setG_inv, foldl_inv, State.Inv]
theorem sysUpdate_inv : ∀ x0 x1 x2 x3 x4 x5, State.Inv x5 → (∀ t0, (@sysUpdate x0 x1 x2 x3 x4 x5) = Host.Outcome.next t0 → State.Inv t0) := by
  intro x0 x1 x2 x3 x4 x5 h0; unfold sysUpdate; apply finish_inv; (try simp only [bind, Except.bind, pure, Except.pure, State.vecCheck, require]); grind [finish_inv, State.sysCheck_inv_error, State.sysCheck_inv_ok, State.setG_inv, State.sysWrite_inv, foldl_inv, State.Inv]
theorem execSwr_inv : ∀ x0 x1 x2 x3 x4, State.Inv x4 → (∀ t0, (@execSwr x0 x1 x2 x3 x4) = Host.Outcome.next t0 → State.Inv t0) := by
  intro x0 x1 x2 x3 x4 h0; unfold execSwr; grind [sysUpdate_inv, foldl_inv, State.Inv]
theorem execSset_inv : ∀ x0 x1 x2 x3 x4, State.Inv x4 → (∀ t0, (@execSset x0 x1 x2 x3 x4) = Host.Outcome.next t0 → State.Inv t0) := by
  intro x0 x1 x2 x3 x4 h0; unfold execSset; grind [sysUpdate_inv, foldl_inv, State.Inv]
theorem execSclr_inv : ∀ x0 x1 x2 x3 x4, State.Inv x4 → (∀ t0, (@execSclr x0 x1 x2 x3 x4) = Host.Outcome.next t0 → State.Inv t0) := by
  intro x0 x1 x2 x3 x4 h0; unfold execSclr; grind [sysUpdate_inv, foldl_inv, State.Inv]
theorem trapAfter_inv : ∀ x0 x1 x2 x3, State.Inv x3 → (∀ t0, (@trapAfter x0 x1 x2 x3) = Host.Outcome.next t0 → State.Inv t0) := by
  intro x0 x1 x2 x3 h0; unfold trapAfter; grind [State.takeTrap_inv, State.retire_inv, foldl_inv, State.Inv]
theorem execTrap_inv : ∀ x0 x1 x2, State.Inv x2 → (∀ t0, (@execTrap x0 x1 x2) = Host.Outcome.next t0 → State.Inv t0) := by
  intro x0 x1 x2 h0; unfold execTrap; grind [trapAfter_inv, foldl_inv, State.Inv]
theorem execSvc_inv : ∀ x0 x1 x2, State.Inv x2 → (∀ t0, (@execSvc x0 x1 x2) = Host.Outcome.next t0 → State.Inv t0) := by
  intro x0 x1 x2 h0; unfold execSvc; grind [trapAfter_inv, foldl_inv, State.Inv]

end Sys2Proof.Machine
end

