-- ==== Sys2Proof/Laws/Keeps4.lean ====
section
/-! SUPPORT. Keeps4.lean: every operation keeps State.Inv, part 4 of 6, in the order of the model's files. A lemma is
named after its operation, with _inv; _error and _ok where the operation may end in a trap. -/

namespace Sys2Proof.Machine

set_option maxRecDepth 40000
set_option linter.all false
set_option Elab.async false

theorem State.needMode_inv : ∀ x0 x1, State.Inv x0 → ((∀ t0a t0b, (@State.needMode x0 x1) = Except.error (t0a, t0b) → State.Inv t0b) ∧ (∀ t0, (@State.needMode x0 x1) = Except.ok t0 → State.Inv t0)) := by
  intro x0 x1 h0; unfold State.needMode; grind [require_inv_error, require_inv_ok, foldl_inv, State.Inv]
theorem State.needMode_inv_error : ∀ x0 x1, State.Inv x0 → (∀ t0a t0b, (@State.needMode x0 x1) = Except.error (t0a, t0b) → State.Inv t0b) := fun x0 x1 h0 => (State.needMode_inv x0 x1 h0).1
theorem State.needMode_inv_ok : ∀ x0 x1, State.Inv x0 → (∀ t0, (@State.needMode x0 x1) = Except.ok t0 → State.Inv t0) := fun x0 x1 h0 => (State.needMode_inv x0 x1 h0).2
theorem execEret_inv : ∀ x0, State.Inv x0 → (∀ t0, (@execEret x0) = Host.Outcome.next t0 → State.Inv t0) := by
  intro s h; unfold execEret; apply EP.finishAt
  exact EP.bind (EP.needMode _ _ h) fun u hu => State.eret_inv u hu
theorem lineCheck_inv : ∀ x0 x1, State.Inv x1 → ((∀ t0a t0b, (@lineCheck x0 x1) = Except.error (t0a, t0b) → State.Inv t0b) ∧ (∀ t0a t0b, (@lineCheck x0 x1) = Except.ok (t0a, t0b) → State.Inv t0b)) := by
  intro x0 x1 h0; unfold lineCheck; grind [State.reach_inv, foldl_inv, State.Inv]
theorem lineCheck_inv_error : ∀ x0 x1, State.Inv x1 → (∀ t0a t0b, (@lineCheck x0 x1) = Except.error (t0a, t0b) → State.Inv t0b) := fun x0 x1 h0 => (lineCheck_inv x0 x1 h0).1
theorem lineCheck_inv_ok : ∀ x0 x1, State.Inv x1 → (∀ t0a t0b, (@lineCheck x0 x1) = Except.ok (t0a, t0b) → State.Inv t0b) := fun x0 x1 h0 => (lineCheck_inv x0 x1 h0).2
theorem execLinewb_inv : ∀ x0 x1, State.Inv x1 → (∀ t0, (@execLinewb x0 x1) = Host.Outcome.next t0 → State.Inv t0) := by
  intro x0 x1 h0; unfold execLinewb; apply finishMem_inv; (try simp only [bind, Except.bind, pure, Except.pure, State.vecCheck, require]); grind [finishMem_inv, lineCheck_inv_error, lineCheck_inv_ok, State.settleAt_inv, State.addTraffic_inv, foldl_inv, State.Inv]
theorem execLineinv_inv : ∀ x0 x1, State.Inv x1 → (∀ t0, (@execLineinv x0 x1) = Host.Outcome.next t0 → State.Inv t0) := by
  intro x0 x1 h0; unfold execLineinv; apply finishMem_inv; (try simp only [bind, Except.bind, pure, Except.pure, State.vecCheck, require]); grind [finishMem_inv, lineCheck_inv_error, lineCheck_inv_ok, State.dropHostLine_inv, State.settleAt_inv, State.dropWindowLines_inv, foldl_inv, State.Inv]
theorem execTlbsh_inv : ∀ x0 x1 x2 x3, State.Inv x3 → (∀ t0, (@execTlbsh x0 x1 x2 x3) = Host.Outcome.next t0 → State.Inv t0) := by
  intro d a k s h; unfold execTlbsh; apply EP.finishAt
  refine EP.bind (EP.require _ _ _ h) fun u hu => EP.bind (EP.needMode _ _ hu) fun v hv => ?_
  dsimp only
  have h1 := State.settle_inv v (fun _ => true) hv
  split
  · exact EP.ok (State.holdHart_inv _ _ _ h1)
  · exact EP.ok (State.retire_inv _ _ (State.invalidate_inv _ _ _ h1))
theorem execFencei_inv : ∀ x0, State.Inv x0 → (∀ t0, (@execFencei x0) = Host.Outcome.next t0 → State.Inv t0) := by
  intro x0 h0; unfold execFencei; grind [finish_inv, State.settle_inv, foldl_inv, State.Inv]
theorem execWfi_inv : ∀ x0, State.Inv x0 → (∀ t0, (@execWfi x0) = Host.Outcome.next t0 → State.Inv t0) := by
  intro x0 h0; simp only [execWfi, bind, Except.bind, pure, Except.pure]; grind [finishAt_inv, State.needMode_inv_error, State.needMode_inv_ok, State.retire_inv, State.onHart_inv, foldl_inv, State.Inv]
theorem execWfiWake_inv : ∀ x0, State.Inv x0 → (∀ t0, (@execWfiWake x0) = Host.Outcome.next t0 → State.Inv t0) := by
  intro x0 h0; unfold execWfiWake; grind [happened_inv, State.retire_inv, State.onHart_inv, foldl_inv, State.Inv]
theorem execHalt_inv : ∀ x0, State.Inv x0 → (∀ t0, (@execHalt x0) = Host.Outcome.next t0 → State.Inv t0) := by
  intro x0 h0; simp only [execHalt, bind, Except.bind, pure, Except.pure]; grind [finishAt_inv, State.needMode_inv_error, State.needMode_inv_ok, State.onHart_inv, State.retire_inv, State.onCluster_inv, foldl_inv, State.Inv]
theorem State.setBarrier_inv : ∀ x0 x1 x2, State.Inv x0 → State.Inv (@State.setBarrier x0 x1 x2) := by
  intro x0 x1 x2 h0; unfold State.setBarrier; grind [State.onCluster_inv, State.onHall_inv, State.onLaunch_inv, foldl_inv, State.Inv]
theorem State.openBarrier_inv : ∀ x0 x1, State.Inv x0 → (∀ t0a t0b, (@State.openBarrier x0 x1) = Except.error (t0a, t0b) → State.Inv t0b) := by
  intro x0 x1 h0; unfold State.openBarrier; grind [foldl_inv, State.Inv]
theorem State.anyBarrier_inv : ∀ x0 x1, State.Inv x0 → (∀ t0a t0b, (@State.anyBarrier x0 x1) = Except.error (t0a, t0b) → State.Inv t0b) := by
  intro x0 x1 h0; unfold State.anyBarrier; grind [foldl_inv, State.Inv]
theorem State.waitFor_inv : ∀ x0 x1, State.Inv x0 → State.Inv (@State.waitFor x0 x1) := by
  intro x0 x1 h0; exact h0
theorem execBarjoin_inv : ∀ x0 x1, State.Inv x1 → (∀ t0, (@execBarjoin x0 x1) = Host.Outcome.next t0 → State.Inv t0) := by
  intro x0 x1 h0; unfold execBarjoin; apply finish_inv; (try simp only [bind, Except.bind, pure, Except.pure, State.vecCheck, require]); grind [finish4_inv, State.openBarrier_inv, State.setBarrier_inv, foldl_inv, State.Inv]
theorem execBarleave_inv : ∀ x0 x1, State.Inv x1 → (∀ t0, (@execBarleave x0 x1) = Host.Outcome.next t0 → State.Inv t0) := by
  intro x0 x1 h0; unfold execBarleave; grind [State.openBarrier_inv, State.takeTrap_inv, State.waitFor_inv, State.retire_inv, State.setBarrier_inv, foldl_inv, State.Inv]
theorem State.arriveAt_inv : ∀ x0 x1, State.Inv x0 → ((∀ t0a t0b, (@State.arriveAt x0 x1) = Except.error (t0a, t0b) → State.Inv t0b) ∧ (∀ t0a t0b, (@State.arriveAt x0 x1) = Except.ok (t0a, t0b) → State.Inv t0b)) := by
  intro x0 x1 h0; simp only [State.arriveAt, bind, Except.bind, pure, Except.pure]; grind [State.anyBarrier_inv, State.waitFor_inv, State.release_inv_error, State.release_inv_ok, State.setBarrier_inv, foldl_inv, State.Inv]
theorem State.arriveAt_inv_error : ∀ x0 x1, State.Inv x0 → (∀ t0a t0b, (@State.arriveAt x0 x1) = Except.error (t0a, t0b) → State.Inv t0b) := fun x0 x1 h0 => (State.arriveAt_inv x0 x1 h0).1
theorem State.arriveAt_inv_ok : ∀ x0 x1, State.Inv x0 → (∀ t0a t0b, (@State.arriveAt x0 x1) = Except.ok (t0a, t0b) → State.Inv t0b) := fun x0 x1 h0 => (State.arriveAt_inv x0 x1 h0).2
theorem execBararr_inv : ∀ x0 x1 x2, State.Inv x2 → (∀ t0, (@execBararr x0 x1 x2) = Host.Outcome.next t0 → State.Inv t0) := by
  intro x0 x1 x2 h0; unfold execBararr; grind [State.arriveAt_inv_error, State.arriveAt_inv_ok, State.takeTrap_inv, State.retire_inv, State.setG_inv, foldl_inv, State.Inv]
theorem State.passBarrier_inv : ∀ x0 x1 x2, State.Inv x0 → State.Inv (@State.passBarrier x0 x1 x2) := by
  intro x0 x1 x2 h0; unfold State.passBarrier; grind [State.retire_inv, State.setG_inv, State.onHart_inv, foldl_inv, State.Inv]
theorem execBarwait_inv : ∀ x0 x1 x2 x3, State.Inv x3 → (∀ t0, (@execBarwait x0 x1 x2 x3) = Host.Outcome.next t0 → State.Inv t0) := by
  intro x0 x1 x2 x3 h0; unfold execBarwait; grind [State.anyBarrier_inv, State.takeTrap_inv, State.passBarrier_inv, State.waitFor_inv, foldl_inv, State.Inv]
theorem State.awaitGen_inv : ∀ x0 x1 x2 x3, State.Inv x0 → State.Inv (@State.awaitGen x0 x1 x2 x3) := by
  intro x0 x1 x2 x3 h0; unfold State.awaitGen; grind [State.passBarrier_inv, State.waitFor_inv, State.takeTrap_inv, foldl_inv, State.Inv]
theorem execBarsyn_inv : ∀ x0 x1 x2, State.Inv x2 → (∀ t0, (@execBarsyn x0 x1 x2) = Host.Outcome.next t0 → State.Inv t0) := by
  intro x0 x1 x2 h0; unfold execBarsyn; grind [State.awaitGen_inv, State.onHart_inv, State.arriveAt_inv_error, State.arriveAt_inv_ok, State.takeTrap_inv, foldl_inv, State.Inv]
theorem State.endBarrierWait_inv : ∀ x0, State.Inv x0 → State.Inv (@State.endBarrierWait x0) := by
  intro x0 h0; unfold State.endBarrierWait; grind [State.takeTrap_inv, State.passBarrier_inv, State.onHart_inv, foldl_inv, State.Inv]
theorem State.otherArrives_inv : ∀ x0 x1 x2, State.Inv x0 → State.Inv (@State.otherArrives x0 x1 x2) := by
  intro x0 x1 x2 h0; unfold State.otherArrives; grind [State.setBarrier_inv, foldl_inv, State.Inv]
theorem State.otherPhases_inv : ∀ x0 x1, State.Inv x0 → State.Inv (@State.otherPhases x0 x1) := by
  intro x0 x1 h0; unfold State.otherPhases; grind [State.onLaunch_inv, foldl_inv, State.Inv]
theorem State.otherStores_inv : ∀ x0 x1 x2 x3 x4, State.Inv x0 → State.Inv (@State.otherStores x0 x1 x2 x3 x4) := by
  intro x0 x1 x2 x3 x4 h0; unfold State.otherStores; grind [State.writeHome_inv_error, State.writeHome_inv_ok, State.count_inv, State.dropWindowLines_inv, foldl_inv, State.Inv]
theorem State.otherIssues_inv : ∀ x0 x1 x2 x3 x4 x5 x6, State.Inv x0 → State.Inv (@State.otherIssues x0 x1 x2 x3 x4 x5 x6) := by
  intro x0 x1 x2 x3 x4 x5 x6 h0; unfold State.otherIssues; grind [State.addCmd_inv, foldl_inv, State.Inv]
theorem execBarrierWaitEnd_inv : ∀ x0, State.Inv x0 → (∀ t0, (@execBarrierWaitEnd x0) = Host.Outcome.next t0 → State.Inv t0) := by
  intro x0 h0; unfold execBarrierWaitEnd; grind [happened_inv, State.endBarrierWait_inv, foldl_inv, State.Inv]
theorem State.kstat_inv : ∀ x0 x1 x2, State.Inv x0 → State.Inv (@State.kstat x0 x1 x2) := by
  intro x0 x1 x2 h0; unfold State.kstat; grind [State.setG_inv, State.setCounter_inv, foldl_inv, State.Inv]
theorem State.kset_inv : ∀ x0 x1 x2 x3, State.Inv x0 → State.Inv (@State.kset x0 x1 x2 x3) := by
  intro x0 x1 x2 x3 h0; unfold State.kset; grind [State.setG_inv, State.setCounter_inv, foldl_inv, State.Inv]
theorem execKwait_inv : ∀ x0 x1, State.Inv x1 → (∀ t0, (@execKwait x0 x1) = Host.Outcome.next t0 → State.Inv t0) := by
  intro x0 x1 h0; unfold execKwait; grind [State.retire_inv, State.waitFor_inv, foldl_inv, State.Inv]
theorem execKrd_inv : ∀ x0 x1 x2, State.Inv x2 → (∀ t0, (@execKrd x0 x1 x2) = Host.Outcome.next t0 → State.Inv t0) := by
  intro x0 x1 x2 h0; unfold execKrd; grind [State.retire_inv, State.setG_inv, foldl_inv, State.Inv]
theorem execKset_inv : ∀ x0 x1 x2 x3, State.Inv x3 → (∀ t0, (@execKset x0 x1 x2 x3) = Host.Outcome.next t0 → State.Inv t0) := by
  intro x0 x1 x2 x3 h0; unfold execKset; grind [State.retire_inv, State.kset_inv, State.waitFor_inv, foldl_inv, State.Inv]
theorem execKstat_inv : ∀ x0 x1 x2, State.Inv x2 → (∀ t0, (@execKstat x0 x1 x2) = Host.Outcome.next t0 → State.Inv t0) := by
  intro x0 x1 x2 h0; unfold execKstat; grind [State.retire_inv, State.kstat_inv, State.waitFor_inv, foldl_inv, State.Inv]
theorem State.endCounterWait_inv : ∀ x0, State.Inv x0 → State.Inv (@State.endCounterWait x0) := by
  intro x0 h0; unfold State.endCounterWait; grind [State.retire_inv, State.onHart_inv, State.kstat_inv, State.kset_inv, foldl_inv, State.Inv]
theorem execKwaitEnd_inv : ∀ x0, State.Inv x0 → (∀ t0, (@execKwaitEnd x0) = Host.Outcome.next t0 → State.Inv t0) := by
  intro x0 h0; unfold execKwaitEnd; grind [happened_inv, State.endCounterWait_inv, foldl_inv, State.Inv]
theorem execPause_inv : ∀ x0, State.Inv x0 → (∀ t0, (@execPause x0) = Host.Outcome.next t0 → State.Inv t0) := by
  intro x0 h0; unfold execPause; grind [State.retire_inv, State.waitFor_inv, foldl_inv, State.Inv]
theorem execPauseExpiry_inv : ∀ x0, State.Inv x0 → (∀ t0, (@execPauseExpiry x0) = Host.Outcome.next t0 → State.Inv t0) := by
  intro x0 h0; unfold execPauseExpiry; grind [happened_inv, State.onHart_inv, foldl_inv, State.Inv]
theorem execYield_inv : ∀ x0, State.Inv x0 → (∀ t0, (@execYield x0) = Host.Outcome.next t0 → State.Inv t0) := by
  intro x0 h0; unfold execYield; grind [State.retire_inv, State.saveGroup_inv, foldl_inv, State.Inv]
theorem State.watchSite_inv : ∀ x0 x1, State.Inv x0 → State.Inv ((@State.watchSite x0 x1)).1 := by
  intro x0 x1 h0; unfold State.watchSite; grind [State.reach_inv, foldl_inv, State.Inv]
theorem State.bindLanding_inv : ∀ x0 x1 x2 x3 x4, State.Inv x0 → ((∀ t0a t0b, (@State.bindLanding x0 x1 x2 x3 x4) = Except.error (t0a, t0b) → State.Inv t0b) ∧ (∀ t0, (@State.bindLanding x0 x1 x2 x3 x4) = Except.ok t0 → State.Inv t0)) := by
  intro x0 x1 x2 x3 x4 h0; simp only [State.bindLanding, bind, Except.bind, pure, Except.pure]; grind [State.setG_inv, State.scoped_inv_error, State.scoped_inv_ok, State.logRefusal_inv, State.onHall_inv, State.demote_inv, foldl_inv, State.Inv]
theorem State.bindLanding_inv_error : ∀ x0 x1 x2 x3 x4, State.Inv x0 → (∀ t0a t0b, (@State.bindLanding x0 x1 x2 x3 x4) = Except.error (t0a, t0b) → State.Inv t0b) := fun x0 x1 x2 x3 x4 h0 => (State.bindLanding_inv x0 x1 x2 x3 x4 h0).1
theorem State.bindLanding_inv_ok : ∀ x0 x1 x2 x3 x4, State.Inv x0 → (∀ t0, (@State.bindLanding x0 x1 x2 x3 x4) = Except.ok t0 → State.Inv t0) := fun x0 x1 x2 x3 x4 h0 => (State.bindLanding_inv x0 x1 x2 x3 x4 h0).2
theorem execWatch_inv : ∀ x0 x1 x2 x3, State.Inv x3 → (∀ t0, (@execWatch x0 x1 x2 x3) = Host.Outcome.next t0 → State.Inv t0) := by
  intro x0 x1 x2 x3 h0; unfold execWatch; grind [finishMem_inv, State.watchSite_inv, State.loadAt_inv, State.noteG_inv, State.bindLanding_inv_error, State.bindLanding_inv_ok, foldl_inv, State.Inv]
theorem State.freeLanding_inv : ∀ x0 x1 x2 x3, State.Inv x0 → State.Inv (@State.freeLanding x0 x1 x2 x3) := by
  intro x0 x1 x2 x3 h0; exact h0
theorem execUnwatch_inv : ∀ x0 x1 x2, State.Inv x2 → (∀ t0, (@execUnwatch x0 x1 x2) = Host.Outcome.next t0 → State.Inv t0) := by
  intro x0 x1 x2 h0; unfold execUnwatch; grind [State.takeTrap_inv, State.setG_inv, State.freeLanding_inv, State.retire_inv, foldl_inv, State.Inv]
theorem execLandingTrigger_inv : ∀ x0 x1 x2, State.Inv x2 → (∀ t0, (@execLandingTrigger x0 x1 x2) = Host.Outcome.next t0 → State.Inv t0) := by
  intro x0 x1 x2 h0; unfold execLandingTrigger; grind [happened_inv, State.evalLanding_inv, foldl_inv, State.Inv]
theorem State.wake_inv : ∀ x0 x1 x2, State.Inv x0 → State.Inv (@State.wake x0 x1 x2) := by
  intro x0 x1 x2 h0; unfold State.wake; grind [State.onHart_inv, State.putWord_inv, foldl_inv, State.Inv]
theorem State.landingRecord_inv : ∀ x0 x1 x2, State.Inv x0 → State.Inv ((@State.landingRecord x0 x1 x2)).1 := by
  intro x0 x1 x2 h0; unfold State.landingRecord; grind [State.engXlate_inv, State.readSource_inv, foldl_inv, State.Inv]
theorem State.landingIssue_inv : ∀ x0 x1 x2 x3, State.Inv x0 → State.Inv ((@State.landingIssue x0 x1 x2 x3)).1 := by
  intro x0 x1 x2 x3 h0; unfold State.landingIssue; grind [State.wake_inv, State.landingRecord_inv, State.addCmd_inv, State.enqueue_inv, foldl_inv, State.Inv]
theorem State.landingAct_inv : ∀ x0 x1 x2, State.Inv x0 → State.Inv (@State.landingAct x0 x1 x2) := by
  intro x0 x1 x2 h0; unfold State.landingAct; grind [State.landingIssue_inv, State.onHall_inv, foldl_inv, State.Inv]
theorem execLandingAction_inv : ∀ x0 x1 x2, State.Inv x2 → (∀ t0, (@execLandingAction x0 x1 x2) = Host.Outcome.next t0 → State.Inv t0) := by
  intro x0 x1 x2 h0; unfold execLandingAction; grind [happened_inv, State.landingAct_inv, foldl_inv, State.Inv]
theorem execWaitEntryFire_inv : ∀ x0 x1, State.Inv x1 → (∀ t0, (@execWaitEntryFire x0 x1) = Host.Outcome.next t0 → State.Inv t0) := by
  intro x0 x1 h0; unfold execWaitEntryFire; grind [happened_inv, State.fireWaits_inv, foldl_inv, State.Inv]
theorem State.askBank_inv : ∀ x0 x1, State.Inv x0 → State.Inv ((@State.askBank x0 x1)).1 := by
  intro x0 x1 h0; unfold State.askBank; grind [foldl_inv, State.Inv]
theorem State.armEntry_inv : ∀ x0 x1 x2, State.Inv x0 → State.Inv (@State.armEntry x0 x1 x2) := by
  intro x0 x1 x2 h0; exact h0
theorem State.disarm_inv : ∀ x0, State.Inv x0 → State.Inv (@State.disarm x0) := by
  intro x0 h0; exact h0
theorem State.warmTo_inv : ∀ x0 x1, State.Inv x0 → State.Inv (@State.warmTo x0 x1) := by
  intro x0 x1 h0; exact h0
theorem State.waitanyResult_inv : ∀ x0 x1 x2 x3, State.Inv x0 → State.Inv (@State.waitanyResult x0 x1 x2 x3) := by
  intro x0 x1 x2 x3 h0; unfold State.waitanyResult; grind [State.onHart_inv, State.retire_inv, State.setG_inv, foldl_inv, State.Inv]
theorem execWaitany_inv : ∀ x0 x1 x2 x3, State.Inv x3 → (∀ t0, (@execWaitany x0 x1 x2 x3) = Host.Outcome.next t0 → State.Inv t0) := by
  intro x0 x1 x2 x3 h0; unfold execWaitany; grind [State.waitanyResult_inv, State.waitFor_inv, foldl_inv, State.Inv]
theorem execWaitanyEnd_inv : ∀ x0, State.Inv x0 → (∀ t0, (@execWaitanyEnd x0) = Host.Outcome.next t0 → State.Inv t0) := by
  intro x0 h0; unfold execWaitanyEnd; grind [happened_inv, State.waitanyResult_inv, foldl_inv, State.Inv]
theorem State.endPhase_inv : ∀ x0 x1 x2, State.Inv x0 → State.Inv (@State.endPhase x0 x1 x2) := by
  intro x0 x1 x2 h0; unfold State.endPhase; grind [State.retire_inv, State.setG_inv, State.onHart_inv, foldl_inv, State.Inv]
theorem State.awaitPhase_inv : ∀ x0 x1 x2 x3, State.Inv x0 → State.Inv (@State.awaitPhase x0 x1 x2 x3) := by
  intro x0 x1 x2 x3 h0; unfold State.awaitPhase; grind [State.endPhase_inv, State.waitFor_inv, foldl_inv, State.Inv]
theorem execPhase_inv : ∀ x0 x1, State.Inv x1 → (∀ t0, (@execPhase x0 x1) = Host.Outcome.next t0 → State.Inv t0) := by
  intro x0 x1 h0; unfold execPhase; grind [State.takeTrap_inv, State.awaitPhase_inv, State.onHart_inv, State.completeVecs_inv, State.waitFor_inv, State.release_inv_error, State.release_inv_ok, State.onLaunch_inv, foldl_inv, State.Inv]
theorem State.notePhase_inv : ∀ x0 x1 x2, State.Inv x0 → State.Inv (@State.notePhase x0 x1 x2) := by
  intro x0 x1 x2 h0; unfold State.notePhase; grind [State.onLaunch_inv, State.writeLaunchWord_inv, State.refreshGraph_inv, State.onGraph_inv, foldl_inv, State.Inv]
theorem State.completePhase_inv : ∀ x0 x1 x2, State.Inv x0 → State.Inv (@State.completePhase x0 x1 x2) := by
  intro x0 x1 x2 h0; unfold State.completePhase; grind [State.notePhase_inv, State.endPhase_inv, foldl_inv, State.Inv]
theorem execPhaseComplete_inv : ∀ x0 x1 x2, State.Inv x2 → (∀ t0, (@execPhaseComplete x0 x1 x2) = Host.Outcome.next t0 → State.Inv t0) := by
  intro x0 x1 x2 h0; unfold execPhaseComplete; grind [happened_inv, State.completePhase_inv, foldl_inv, State.Inv]
theorem execCancel_inv : ∀ x0 x1 x2 x3, State.Inv x3 → (∀ t0, (@execCancel x0 x1 x2 x3) = Host.Outcome.next t0 → State.Inv t0) := by
  intro x0 x1 x2 x3 h0; unfold execCancel; grind [State.takeTrap_inv, State.cancel_inv, State.retire_inv, State.setG_inv, State.stopCancelled_inv, foldl_inv, State.Inv]
theorem execExit_inv : ∀ x0 x1 x2, State.Inv x2 → (∀ t0, (@execExit x0 x1 x2) = Host.Outcome.next t0 → State.Inv t0) := by
  intro x0 x1 x2 h0; unfold execExit; grind [State.scoped_inv_error, State.scoped_inv_ok, State.takeTrap_inv, State.completeVecs_inv, State.waitFor_inv, State.release_inv_error, State.release_inv_ok, State.retire_inv, State.demote_inv, State.endUnit_inv, State.onHart_inv, State.dropClaim_inv, foldl_inv, State.Inv]
theorem State.takeIllegal_inv : ∀ x0 x1 x2, State.Inv x0 → State.Inv (@State.takeIllegal x0 x1 x2) := by
  intro x0 x1 x2 h0; unfold State.takeIllegal; grind [State.onHart_inv, State.takeTrap_inv, foldl_inv, State.Inv]
theorem execIllegalInstruction_inv : ∀ x0 x1 x2, State.Inv x2 → (∀ t0, (@execIllegalInstruction x0 x1 x2) = Host.Outcome.next t0 → State.Inv t0) := by
  intro x0 x1 x2 h0; unfold execIllegalInstruction; grind [happened_inv, State.takeIllegal_inv, foldl_inv, State.Inv]
theorem State.fetchFault_inv : ∀ x0 x1 x2 x3 x4, State.Inv x0 → State.Inv (@State.fetchFault x0 x1 x2 x3 x4) := by
  intro x0 x1 x2 x3 x4 h0; unfold State.fetchFault; grind [State.holdHart_inv, State.takeTrap_inv, foldl_inv, State.Inv]
theorem execInstructionFetchFault_inv : ∀ x0 x1 x2, State.Inv x2 → (∀ t0, (@execInstructionFetchFault x0 x1 x2) = Host.Outcome.next t0 → State.Inv t0) := by
  intro x0 x1 x2 h0; unfold execInstructionFetchFault; grind [happened_inv, State.fetchFault_inv, foldl_inv, State.Inv]
theorem execSpanPositionLost_inv : ∀ x0 x1, State.Inv x1 → (∀ t0, (@execSpanPositionLost x0 x1) = Host.Outcome.next t0 → State.Inv t0) := by
  intro x0 x1 h0; unfold execSpanPositionLost; grind [happened_inv, State.loseSpanIn_inv, foldl_inv, State.Inv]
theorem State.takeSpanLoss_inv : ∀ x0, State.Inv x0 → State.Inv (@State.takeSpanLoss x0) := by
  intro x0 h0; unfold State.takeSpanLoss; grind [State.onHart_inv, State.dropClaim_inv, State.noteVstat_inv, State.takeTrap_inv, foldl_inv, State.Inv]
theorem State.logRegister_inv : ∀ x0, State.Inv x0 → State.Inv (@State.logRegister x0) := by
  intro x0 h0; exact State.logError_inv _ _ _ h0
theorem execRegisterUncorrectableError_inv : ∀ x0 x1, State.Inv x1 → (∀ t0, (@execRegisterUncorrectableError x0 x1) = Host.Outcome.next t0 → State.Inv t0) := by
  intro x0 x1 h0; unfold execRegisterUncorrectableError; grind [happened_inv, State.onHart_inv, State.rollback_inv, State.killUnit_inv, State.logRegister_inv, foldl_inv, State.Inv]
theorem State.loseDests_inv : ∀ x0 x1, State.Inv x0 → State.Inv (@State.loseDests x0 x1) := by
  intro x0 x1 h0; unfold State.loseDests; grind [State.noteG_inv, State.noteTile_inv, State.noteLatch_inv, State.loseVl_inv, foldl_inv, State.Inv]
theorem State.passOver_inv : ∀ x0 x1 x2, State.Inv x0 → State.Inv (@State.passOver x0 x1 x2) := by
  intro x0 x1 x2 h0; unfold State.passOver; grind [State.loseDests_inv, State.retire_inv, State.setVstart_inv, foldl_inv, State.Inv]
theorem State.learn_inv : ∀ x0 x1, State.Inv x0 → State.Inv (@State.learn x0 x1) := by
  intro x0 x1 h0; unfold State.learn; grind [State.noteG_inv, foldl_inv, State.Inv]
theorem State.countAhead_inv : ∀ x0 x1 x2, State.Inv x0 → State.Inv (@State.countAhead x0 x1 x2) := by
  intro x0 x1 x2 h0; unfold State.countAhead; grind [State.loseDests_inv, foldl_inv, State.Inv]
theorem State.trapAhead_inv : ∀ x0 x1, State.Inv x0 → State.Inv x1 → State.Inv (@State.trapAhead x0 x1) := by
  intro x0 x1 h0 h1; unfold State.trapAhead; grind [State.stopAhead_inv, foldl_inv, State.Inv]
theorem State.afterAhead_inv : ∀ x0 x1 x2 x3, State.Inv x0 → State.Inv x1 → State.Inv (@State.afterAhead x0 x1 x2 x3) := by
  intro x0 x1 x2 x3 h0 h1; unfold State.afterAhead; grind [State.trapAhead_inv, State.stopAhead_inv, State.countAhead_inv, foldl_inv, State.Inv]
theorem State.vapnd_inv : ∀ x0 x1 x2 x3 x4 x5 x6, State.Inv x0 → ((∀ t0a t0b, (@State.vapnd x0 x1 x2 x3 x4 x5 x6) = Except.error (t0a, t0b) → State.Inv t0b) ∧ (∀ t0, (@State.vapnd x0 x1 x2 x3 x4 x5 x6) = Except.ok t0 → State.Inv t0)) := by
  intro x0 x1 x2 x3 x4 x5 x6 h0; unfold State.vapnd; grind [State.append_inv, State.setVstart_inv, State.issueVec_inv, State.setG_inv, foldl_inv, State.Inv]
theorem State.vapnd_inv_error : ∀ x0 x1 x2 x3 x4 x5 x6, State.Inv x0 → (∀ t0a t0b, (@State.vapnd x0 x1 x2 x3 x4 x5 x6) = Except.error (t0a, t0b) → State.Inv t0b) := fun x0 x1 x2 x3 x4 x5 x6 h0 => (State.vapnd_inv x0 x1 x2 x3 x4 x5 x6 h0).1
theorem State.vapnd_inv_ok : ∀ x0 x1 x2 x3 x4 x5 x6, State.Inv x0 → (∀ t0, (@State.vapnd x0 x1 x2 x3 x4 x5 x6) = Except.ok t0 → State.Inv t0) := fun x0 x1 x2 x3 x4 x5 x6 h0 => (State.vapnd_inv x0 x1 x2 x3 x4 x5 x6 h0).2
theorem State.aheadAppend_inv : ∀ x0 x1 x2, State.Inv x0 → State.Inv (@State.aheadAppend x0 x1 x2) := by
  intro x0 x1 x2 h0; unfold State.aheadAppend; grind [State.noteG_inv, State.noteStored_inv, foldl_inv, State.Inv]
theorem State.sealFailed_inv : ∀ x0 x1 x2 x3, State.Inv x0 → State.Inv (@State.sealFailed x0 x1 x2 x3) := by
  intro x0 x1 x2 x3 h0; unfold State.sealFailed; grind [State.collectErrors_inv, State.post_inv, State.issueVec_inv, foldl_inv, State.Inv]
theorem State.sealAt_inv : ∀ x0 x1 x2 x3, State.Inv x0 → State.Inv (@State.sealAt x0 x1 x2 x3) := by
  intro x0 x1 x2 x3 h0; unfold State.sealAt; grind [State.seal_inv_error, State.seal_inv_ok, State.sealFailed_inv, State.sealDone_inv, State.onHart_inv, State.countUp_inv, foldl_inv, State.Inv]
theorem State.inkTail_inv : ∀ x0 x1, State.Inv x0 → State.Inv ((@State.inkTail x0 x1)).1 := by
  intro x0 x1 h0; unfold State.inkTail; grind [State.logRefusal_inv, foldl_inv, State.Inv]
theorem execInktail_inv : ∀ x0 x1 x2 x3, State.Inv x3 → (∀ t0, (@execInktail x0 x1 x2 x3) = Host.Outcome.next t0 → State.Inv t0) := by
  intro x0 x1 x2 x3 h0; unfold execInktail; grind [finishMem_inv, State.setVstart_inv, State.noteG_inv, State.reach_inv, State.inkTail_inv, State.setG_inv, foldl_inv, State.Inv]
theorem State.wellBase_inv : ∀ x0 x1 x2 x3, State.Inv x0 → ((∀ t0a t0b, (@State.wellBase x0 x1 x2 x3) = Except.error (t0a, t0b) → State.Inv t0b) ∧ (∀ t0a t0b, (@State.wellBase x0 x1 x2 x3) = Except.ok (t0a, t0b) → State.Inv t0a)) := by
  intro x0 x1 x2 x3 h0; unfold State.wellBase; grind [State.reach_inv, State.setVstart_inv, foldl_inv, State.Inv]
theorem State.wellBase_inv_error : ∀ x0 x1 x2 x3, State.Inv x0 → (∀ t0a t0b, (@State.wellBase x0 x1 x2 x3) = Except.error (t0a, t0b) → State.Inv t0b) := fun x0 x1 x2 x3 h0 => (State.wellBase_inv x0 x1 x2 x3 h0).1
theorem State.wellBase_inv_ok : ∀ x0 x1 x2 x3, State.Inv x0 → (∀ t0a t0b, (@State.wellBase x0 x1 x2 x3) = Except.ok (t0a, t0b) → State.Inv t0a) := fun x0 x1 x2 x3 h0 => (State.wellBase_inv x0 x1 x2 x3 h0).2
theorem State.logWell_inv : ∀ x0 x1 x2 x3, State.Inv x0 → State.Inv (@State.logWell x0 x1 x2 x3) := by
  intro x0 x1 x2 x3 h0; unfold State.logWell; grind [State.logRefusal_inv, foldl_inv, State.Inv]
theorem wellStep_inv : ∀ x0 x1 x2 x3 x4 x5, State.Inv (x4).1 → State.Inv ((@wellStep x0 x1 x2 x3 x4 x5)).1 := by
  intro x0 x1 x2 x3 x4 x5 h0; unfold wellStep; grind [State.lateElem_inv, State.logWell_inv, State.wellRead_inv, State.setElem_inv, State.wellReset_inv, State.count_inv, foldl_inv, State.Inv]
theorem scalar_inv : ∀ x0 x1 x2, State.Inv x2 → (∀ t0, (@scalar x0 x1 x2) = Host.Outcome.next t0 → State.Inv t0) := by
  intro x0 x1 x2 h0; unfold scalar; grind [State.retire_inv, State.setG_inv, foldl_inv, State.Inv]
theorem execAdd_inv : ∀ x0 x1 x2 x3, State.Inv x3 → (∀ t0, (@execAdd x0 x1 x2 x3) = Host.Outcome.next t0 → State.Inv t0) := by
  intro x0 x1 x2 x3 h0; unfold execAdd; grind [scalar_inv, foldl_inv, State.Inv]
theorem execSub_inv : ∀ x0 x1 x2 x3, State.Inv x3 → (∀ t0, (@execSub x0 x1 x2 x3) = Host.Outcome.next t0 → State.Inv t0) := by
  intro x0 x1 x2 x3 h0; unfold execSub; grind [scalar_inv, foldl_inv, State.Inv]
theorem execAnd_inv : ∀ x0 x1 x2 x3, State.Inv x3 → (∀ t0, (@execAnd x0 x1 x2 x3) = Host.Outcome.next t0 → State.Inv t0) := by
  intro x0 x1 x2 x3 h0; unfold execAnd; grind [scalar_inv, foldl_inv, State.Inv]
theorem execOr_inv : ∀ x0 x1 x2 x3, State.Inv x3 → (∀ t0, (@execOr x0 x1 x2 x3) = Host.Outcome.next t0 → State.Inv t0) := by
  intro x0 x1 x2 x3 h0; unfold execOr; grind [scalar_inv, foldl_inv, State.Inv]
theorem execXor_inv : ∀ x0 x1 x2 x3, State.Inv x3 → (∀ t0, (@execXor x0 x1 x2 x3) = Host.Outcome.next t0 → State.Inv t0) := by
  intro x0 x1 x2 x3 h0; unfold execXor; grind [scalar_inv, foldl_inv, State.Inv]
theorem execAndn_inv : ∀ x0 x1 x2 x3, State.Inv x3 → (∀ t0, (@execAndn x0 x1 x2 x3) = Host.Outcome.next t0 → State.Inv t0) := by
  intro x0 x1 x2 x3 h0; unfold execAndn; grind [scalar_inv, foldl_inv, State.Inv]
theorem execOrn_inv : ∀ x0 x1 x2 x3, State.Inv x3 → (∀ t0, (@execOrn x0 x1 x2 x3) = Host.Outcome.next t0 → State.Inv t0) := by
  intro x0 x1 x2 x3 h0; unfold execOrn; grind [scalar_inv, foldl_inv, State.Inv]
theorem execSll_inv : ∀ x0 x1 x2 x3, State.Inv x3 → (∀ t0, (@execSll x0 x1 x2 x3) = Host.Outcome.next t0 → State.Inv t0) := by
  intro x0 x1 x2 x3 h0; unfold execSll; grind [scalar_inv, foldl_inv, State.Inv]
theorem execSrl_inv : ∀ x0 x1 x2 x3, State.Inv x3 → (∀ t0, (@execSrl x0 x1 x2 x3) = Host.Outcome.next t0 → State.Inv t0) := by
  intro x0 x1 x2 x3 h0; unfold execSrl; grind [scalar_inv, foldl_inv, State.Inv]
theorem execSra_inv : ∀ x0 x1 x2 x3, State.Inv x3 → (∀ t0, (@execSra x0 x1 x2 x3) = Host.Outcome.next t0 → State.Inv t0) := by
  intro x0 x1 x2 x3 h0; unfold execSra; grind [scalar_inv, foldl_inv, State.Inv]
theorem execRol_inv : ∀ x0 x1 x2 x3, State.Inv x3 → (∀ t0, (@execRol x0 x1 x2 x3) = Host.Outcome.next t0 → State.Inv t0) := by
  intro x0 x1 x2 x3 h0; unfold execRol; grind [scalar_inv, foldl_inv, State.Inv]
theorem execRor_inv : ∀ x0 x1 x2 x3, State.Inv x3 → (∀ t0, (@execRor x0 x1 x2 x3) = Host.Outcome.next t0 → State.Inv t0) := by
  intro x0 x1 x2 x3 h0; unfold execRor; grind [scalar_inv, foldl_inv, State.Inv]
theorem execSlt_inv : ∀ x0 x1 x2 x3, State.Inv x3 → (∀ t0, (@execSlt x0 x1 x2 x3) = Host.Outcome.next t0 → State.Inv t0) := by
  intro x0 x1 x2 x3 h0; unfold execSlt; grind [scalar_inv, foldl_inv, State.Inv]
theorem execSltn_inv : ∀ x0 x1 x2 x3, State.Inv x3 → (∀ t0, (@execSltn x0 x1 x2 x3) = Host.Outcome.next t0 → State.Inv t0) := by
  intro x0 x1 x2 x3 h0; unfold execSltn; grind [scalar_inv, foldl_inv, State.Inv]
theorem execMin_inv : ∀ x0 x1 x2 x3, State.Inv x3 → (∀ t0, (@execMin x0 x1 x2 x3) = Host.Outcome.next t0 → State.Inv t0) := by
  intro x0 x1 x2 x3 h0; unfold execMin; grind [scalar_inv, foldl_inv, State.Inv]
theorem execMax_inv : ∀ x0 x1 x2 x3, State.Inv x3 → (∀ t0, (@execMax x0 x1 x2 x3) = Host.Outcome.next t0 → State.Inv t0) := by
  intro x0 x1 x2 x3 h0; unfold execMax; grind [scalar_inv, foldl_inv, State.Inv]
theorem execMinn_inv : ∀ x0 x1 x2 x3, State.Inv x3 → (∀ t0, (@execMinn x0 x1 x2 x3) = Host.Outcome.next t0 → State.Inv t0) := by
  intro x0 x1 x2 x3 h0; unfold execMinn; grind [scalar_inv, foldl_inv, State.Inv]
theorem execMaxn_inv : ∀ x0 x1 x2 x3, State.Inv x3 → (∀ t0, (@execMaxn x0 x1 x2 x3) = Host.Outcome.next t0 → State.Inv t0) := by
  intro x0 x1 x2 x3 h0; unfold execMaxn; grind [scalar_inv, foldl_inv, State.Inv]
theorem execMul_inv : ∀ x0 x1 x2 x3, State.Inv x3 → (∀ t0, (@execMul x0 x1 x2 x3) = Host.Outcome.next t0 → State.Inv t0) := by
  intro x0 x1 x2 x3 h0; unfold execMul; grind [scalar_inv, foldl_inv, State.Inv]
theorem execMulh_inv : ∀ x0 x1 x2 x3, State.Inv x3 → (∀ t0, (@execMulh x0 x1 x2 x3) = Host.Outcome.next t0 → State.Inv t0) := by
  intro x0 x1 x2 x3 h0; unfold execMulh; grind [scalar_inv, foldl_inv, State.Inv]
theorem execMulhn_inv : ∀ x0 x1 x2 x3, State.Inv x3 → (∀ t0, (@execMulhn x0 x1 x2 x3) = Host.Outcome.next t0 → State.Inv t0) := by
  intro x0 x1 x2 x3 h0; unfold execMulhn; grind [scalar_inv, foldl_inv, State.Inv]
theorem execDiv_inv : ∀ x0 x1 x2 x3, State.Inv x3 → (∀ t0, (@execDiv x0 x1 x2 x3) = Host.Outcome.next t0 → State.Inv t0) := by
  intro x0 x1 x2 x3 h0; unfold execDiv; grind [scalar_inv, foldl_inv, State.Inv]
theorem execDivn_inv : ∀ x0 x1 x2 x3, State.Inv x3 → (∀ t0, (@execDivn x0 x1 x2 x3) = Host.Outcome.next t0 → State.Inv t0) := by
  intro x0 x1 x2 x3 h0; unfold execDivn; grind [scalar_inv, foldl_inv, State.Inv]
theorem execRem_inv : ∀ x0 x1 x2 x3, State.Inv x3 → (∀ t0, (@execRem x0 x1 x2 x3) = Host.Outcome.next t0 → State.Inv t0) := by
  intro x0 x1 x2 x3 h0; unfold execRem; grind [scalar_inv, foldl_inv, State.Inv]
theorem execRemn_inv : ∀ x0 x1 x2 x3, State.Inv x3 → (∀ t0, (@execRemn x0 x1 x2 x3) = Host.Outcome.next t0 → State.Inv t0) := by
  intro x0 x1 x2 x3 h0; unfold execRemn; grind [scalar_inv, foldl_inv, State.Inv]
theorem execClz_inv : ∀ x0 x1 x2, State.Inv x2 → (∀ t0, (@execClz x0 x1 x2) = Host.Outcome.next t0 → State.Inv t0) := by
  intro x0 x1 x2 h0; unfold execClz; grind [scalar_inv, foldl_inv, State.Inv]
theorem execCtz_inv : ∀ x0 x1 x2, State.Inv x2 → (∀ t0, (@execCtz x0 x1 x2) = Host.Outcome.next t0 → State.Inv t0) := by
  intro x0 x1 x2 h0; unfold execCtz; grind [scalar_inv, foldl_inv, State.Inv]
theorem execPopc_inv : ∀ x0 x1 x2, State.Inv x2 → (∀ t0, (@execPopc x0 x1 x2) = Host.Outcome.next t0 → State.Inv t0) := by
  intro x0 x1 x2 h0; unfold execPopc; grind [scalar_inv, foldl_inv, State.Inv]
theorem execBswp_inv : ∀ x0 x1 x2, State.Inv x2 → (∀ t0, (@execBswp x0 x1 x2) = Host.Outcome.next t0 → State.Inv t0) := by
  intro x0 x1 x2 h0; unfold execBswp; grind [scalar_inv, foldl_inv, State.Inv]
theorem execSext_inv : ∀ x0 x1 x2 x3, State.Inv x3 → (∀ t0, (@execSext x0 x1 x2 x3) = Host.Outcome.next t0 → State.Inv t0) := by
  intro x0 x1 x2 x3 h0; unfold execSext; grind [scalar_inv, foldl_inv, State.Inv]
theorem execZext_inv : ∀ x0 x1 x2 x3, State.Inv x3 → (∀ t0, (@execZext x0 x1 x2 x3) = Host.Outcome.next t0 → State.Inv t0) := by
  intro x0 x1 x2 x3 h0; unfold execZext; grind [scalar_inv, foldl_inv, State.Inv]
theorem execSelnz_inv : ∀ x0 x1 x2 x3, State.Inv x3 → (∀ t0, (@execSelnz x0 x1 x2 x3) = Host.Outcome.next t0 → State.Inv t0) := by
  intro x0 x1 x2 x3 h0; unfold execSelnz; grind [scalar_inv, foldl_inv, State.Inv]
theorem execAddi_inv : ∀ x0 x1 x2 x3, State.Inv x3 → (∀ t0, (@execAddi x0 x1 x2 x3) = Host.Outcome.next t0 → State.Inv t0) := by
  intro x0 x1 x2 x3 h0; unfold execAddi; grind [scalar_inv, foldl_inv, State.Inv]
theorem execAndi_inv : ∀ x0 x1 x2 x3, State.Inv x3 → (∀ t0, (@execAndi x0 x1 x2 x3) = Host.Outcome.next t0 → State.Inv t0) := by
  intro x0 x1 x2 x3 h0; unfold execAndi; grind [scalar_inv, foldl_inv, State.Inv]
theorem execOri_inv : ∀ x0 x1 x2 x3, State.Inv x3 → (∀ t0, (@execOri x0 x1 x2 x3) = Host.Outcome.next t0 → State.Inv t0) := by
  intro x0 x1 x2 x3 h0; unfold execOri; grind [scalar_inv, foldl_inv, State.Inv]
theorem execXori_inv : ∀ x0 x1 x2 x3, State.Inv x3 → (∀ t0, (@execXori x0 x1 x2 x3) = Host.Outcome.next t0 → State.Inv t0) := by
  intro x0 x1 x2 x3 h0; unfold execXori; grind [scalar_inv, foldl_inv, State.Inv]
theorem execSlli_inv : ∀ x0 x1 x2 x3, State.Inv x3 → (∀ t0, (@execSlli x0 x1 x2 x3) = Host.Outcome.next t0 → State.Inv t0) := by
  intro x0 x1 x2 x3 h0; unfold execSlli; grind [scalar_inv, foldl_inv, State.Inv]
theorem execSrli_inv : ∀ x0 x1 x2 x3, State.Inv x3 → (∀ t0, (@execSrli x0 x1 x2 x3) = Host.Outcome.next t0 → State.Inv t0) := by
  intro x0 x1 x2 x3 h0; unfold execSrli; grind [scalar_inv, foldl_inv, State.Inv]
theorem execSrai_inv : ∀ x0 x1 x2 x3, State.Inv x3 → (∀ t0, (@execSrai x0 x1 x2 x3) = Host.Outcome.next t0 → State.Inv t0) := by
  intro x0 x1 x2 x3 h0; unfold execSrai; grind [scalar_inv, foldl_inv, State.Inv]
theorem execRori_inv : ∀ x0 x1 x2 x3, State.Inv x3 → (∀ t0, (@execRori x0 x1 x2 x3) = Host.Outcome.next t0 → State.Inv t0) := by
  intro x0 x1 x2 x3 h0; unfold execRori; grind [scalar_inv, foldl_inv, State.Inv]
theorem execSlti_inv : ∀ x0 x1 x2 x3, State.Inv x3 → (∀ t0, (@execSlti x0 x1 x2 x3) = Host.Outcome.next t0 → State.Inv t0) := by
  intro x0 x1 x2 x3 h0; unfold execSlti; grind [scalar_inv, foldl_inv, State.Inv]
theorem execSltni_inv : ∀ x0 x1 x2 x3, State.Inv x3 → (∀ t0, (@execSltni x0 x1 x2 x3) = Host.Outcome.next t0 → State.Inv t0) := by
  intro x0 x1 x2 x3 h0; unfold execSltni; grind [scalar_inv, foldl_inv, State.Inv]
theorem execLdhi_inv : ∀ x0 x1 x2, State.Inv x2 → (∀ t0, (@execLdhi x0 x1 x2) = Host.Outcome.next t0 → State.Inv t0) := by
  intro x0 x1 x2 h0; unfold execLdhi; grind [scalar_inv, foldl_inv, State.Inv]
theorem execAddpc_inv : ∀ x0 x1 x2, State.Inv x2 → (∀ t0, (@execAddpc x0 x1 x2) = Host.Outcome.next t0 → State.Inv t0) := by
  intro x0 x1 x2 h0; unfold execAddpc; grind [scalar_inv, foldl_inv, State.Inv]
theorem branch_inv : ∀ x0 x1 x2, State.Inv x2 → (∀ t0, (@branch x0 x1 x2) = Host.Outcome.next t0 → State.Inv t0) := by
  intro x0 x1 x2 h0; unfold branch; grind [State.jump_inv, State.retire_inv, foldl_inv, State.Inv]
theorem execBeq_inv : ∀ x0 x1 x2 x3, State.Inv x3 → (∀ t0, (@execBeq x0 x1 x2 x3) = Host.Outcome.next t0 → State.Inv t0) := by
  intro x0 x1 x2 x3 h0; unfold execBeq; grind [branch_inv, foldl_inv, State.Inv]
theorem execBne_inv : ∀ x0 x1 x2 x3, State.Inv x3 → (∀ t0, (@execBne x0 x1 x2 x3) = Host.Outcome.next t0 → State.Inv t0) := by
  intro x0 x1 x2 x3 h0; unfold execBne; grind [branch_inv, foldl_inv, State.Inv]
theorem execBlt_inv : ∀ x0 x1 x2 x3, State.Inv x3 → (∀ t0, (@execBlt x0 x1 x2 x3) = Host.Outcome.next t0 → State.Inv t0) := by
  intro x0 x1 x2 x3 h0; unfold execBlt; grind [branch_inv, foldl_inv, State.Inv]
theorem execBge_inv : ∀ x0 x1 x2 x3, State.Inv x3 → (∀ t0, (@execBge x0 x1 x2 x3) = Host.Outcome.next t0 → State.Inv t0) := by
  intro x0 x1 x2 x3 h0; unfold execBge; grind [branch_inv, foldl_inv, State.Inv]
theorem execBltn_inv : ∀ x0 x1 x2 x3, State.Inv x3 → (∀ t0, (@execBltn x0 x1 x2 x3) = Host.Outcome.next t0 → State.Inv t0) := by
  intro x0 x1 x2 x3 h0; unfold execBltn; grind [branch_inv, foldl_inv, State.Inv]
theorem execBgen_inv : ∀ x0 x1 x2 x3, State.Inv x3 → (∀ t0, (@execBgen x0 x1 x2 x3) = Host.Outcome.next t0 → State.Inv t0) := by
  intro x0 x1 x2 x3 h0; unfold execBgen; grind [branch_inv, foldl_inv, State.Inv]
theorem execJal_inv : ∀ x0 x1, State.Inv x1 → (∀ t0, (@execJal x0 x1) = Host.Outcome.next t0 → State.Inv t0) := by
  intro x0 x1 h0; unfold execJal; grind [State.jump_inv, State.setG_inv, foldl_inv, State.Inv]
theorem execJalr_inv : ∀ x0 x1 x2 x3, State.Inv x3 → (∀ t0, (@execJalr x0 x1 x2 x3) = Host.Outcome.next t0 → State.Inv t0) := by
  intro x0 x1 x2 x3 h0; unfold execJalr; grind [State.jump_inv, State.setG_inv, foldl_inv, State.Inv]
theorem vfBinary_inv : ∀ x0 x1 x2, State.Inv x2 → (∀ t0, (@vfBinary x0 x1 x2) = Host.Outcome.next t0 → State.Inv t0) := by
  intro x0 x1 x2 h0; unfold vfBinary; grind [binaryOp_inv, foldl_inv, State.Inv]
theorem execVfadd_inv : ∀ x0 x1, State.Inv x1 → (∀ t0, (@execVfadd x0 x1) = Host.Outcome.next t0 → State.Inv t0) := by
  intro x0 x1 h0; unfold execVfadd; grind [vfBinary_inv, foldl_inv, State.Inv]
theorem execVfsub_inv : ∀ x0 x1, State.Inv x1 → (∀ t0, (@execVfsub x0 x1) = Host.Outcome.next t0 → State.Inv t0) := by
  intro x0 x1 h0; unfold execVfsub; grind [vfBinary_inv, foldl_inv, State.Inv]
theorem execVfmul_inv : ∀ x0 x1, State.Inv x1 → (∀ t0, (@execVfmul x0 x1) = Host.Outcome.next t0 → State.Inv t0) := by
  intro x0 x1 h0; unfold execVfmul; grind [vfBinary_inv, foldl_inv, State.Inv]
theorem execVfdiv_inv : ∀ x0 x1, State.Inv x1 → (∀ t0, (@execVfdiv x0 x1) = Host.Outcome.next t0 → State.Inv t0) := by
  intro x0 x1 h0; unfold execVfdiv; grind [vfBinary_inv, foldl_inv, State.Inv]
theorem execVfsqrt_inv : ∀ x0 x1, State.Inv x1 → (∀ t0, (@execVfsqrt x0 x1) = Host.Outcome.next t0 → State.Inv t0) := by
  intro x0 x1 h0; unfold execVfsqrt; grind [unaryOp_inv, foldl_inv, State.Inv]
theorem vfMultiplyAdd_inv : ∀ x0 x1 x2 x3, State.Inv x3 → (∀ t0, (@vfMultiplyAdd x0 x1 x2 x3) = Host.Outcome.next t0 → State.Inv t0) := by
  intro x0 x1 x2 x3 h0; unfold vfMultiplyAdd; grind [elementOp_inv, foldl_inv, State.Inv]
theorem execVfma_inv : ∀ x0 x1, State.Inv x1 → (∀ t0, (@execVfma x0 x1) = Host.Outcome.next t0 → State.Inv t0) := by
  intro x0 x1 h0; unfold execVfma; grind [vfMultiplyAdd_inv, foldl_inv, State.Inv]
theorem execVfms_inv : ∀ x0 x1, State.Inv x1 → (∀ t0, (@execVfms x0 x1) = Host.Outcome.next t0 → State.Inv t0) := by
  intro x0 x1 h0; unfold execVfms; grind [vfMultiplyAdd_inv, foldl_inv, State.Inv]
theorem execVfnma_inv : ∀ x0 x1, State.Inv x1 → (∀ t0, (@execVfnma x0 x1) = Host.Outcome.next t0 → State.Inv t0) := by
  intro x0 x1 h0; unfold execVfnma; grind [vfMultiplyAdd_inv, foldl_inv, State.Inv]
theorem execVfscl_inv : ∀ x0 x1, State.Inv x1 → (∀ t0, (@execVfscl x0 x1) = Host.Outcome.next t0 → State.Inv t0) := by
  intro x0 x1 h0; unfold execVfscl; grind [binaryOp_inv, foldl_inv, State.Inv]
theorem execVfmin_inv : ∀ x0 x1, State.Inv x1 → (∀ t0, (@execVfmin x0 x1) = Host.Outcome.next t0 → State.Inv t0) := by
  intro x0 x1 h0; unfold execVfmin; grind [binaryOp_inv, foldl_inv, State.Inv]
theorem execVfmax_inv : ∀ x0 x1, State.Inv x1 → (∀ t0, (@execVfmax x0 x1) = Host.Outcome.next t0 → State.Inv t0) := by
  intro x0 x1 h0; unfold execVfmax; grind [binaryOp_inv, foldl_inv, State.Inv]
theorem execVfabs_inv : ∀ x0 x1, State.Inv x1 → (∀ t0, (@execVfabs x0 x1) = Host.Outcome.next t0 → State.Inv t0) := by
  intro x0 x1 h0; unfold execVfabs; grind [unaryOp_inv, foldl_inv, State.Inv]
theorem execVfneg_inv : ∀ x0 x1, State.Inv x1 → (∀ t0, (@execVfneg x0 x1) = Host.Outcome.next t0 → State.Inv t0) := by
  intro x0 x1 h0; unfold execVfneg; grind [unaryOp_inv, foldl_inv, State.Inv]
theorem execVfcmpeq_inv : ∀ x0 x1, State.Inv x1 → (∀ t0, (@execVfcmpeq x0 x1) = Host.Outcome.next t0 → State.Inv t0) := by
  intro x0 x1 h0; unfold execVfcmpeq; grind [compareOp_inv, foldl_inv, State.Inv]
theorem execVfcmplt_inv : ∀ x0 x1, State.Inv x1 → (∀ t0, (@execVfcmplt x0 x1) = Host.Outcome.next t0 → State.Inv t0) := by
  intro x0 x1 h0; unfold execVfcmplt; grind [compareOp_inv, foldl_inv, State.Inv]
theorem execVfcmple_inv : ∀ x0 x1, State.Inv x1 → (∀ t0, (@execVfcmple x0 x1) = Host.Outcome.next t0 → State.Inv t0) := by
  intro x0 x1 h0; unfold execVfcmple; grind [compareOp_inv, foldl_inv, State.Inv]
theorem execVfclass_inv : ∀ x0 x1, State.Inv x1 → (∀ t0, (@execVfclass x0 x1) = Host.Outcome.next t0 → State.Inv t0) := by
  intro x0 x1 h0; unfold execVfclass; grind [unaryOp_inv, foldl_inv, State.Inv]
theorem vfSpecial_inv : ∀ x0 x1 x2, State.Inv x2 → (∀ t0, (@vfSpecial x0 x1 x2) = Host.Outcome.next t0 → State.Inv t0) := by
  intro x0 x1 x2 h0; unfold vfSpecial; grind [unaryOp_inv, foldl_inv, State.Inv]
theorem execVfrcp_inv : ∀ x0 x1, State.Inv x1 → (∀ t0, (@execVfrcp x0 x1) = Host.Outcome.next t0 → State.Inv t0) := by
  intro x0 x1 h0; unfold execVfrcp; grind [vfSpecial_inv, foldl_inv, State.Inv]
theorem execVfrsq_inv : ∀ x0 x1, State.Inv x1 → (∀ t0, (@execVfrsq x0 x1) = Host.Outcome.next t0 → State.Inv t0) := by
  intro x0 x1 h0; unfold execVfrsq; grind [vfSpecial_inv, foldl_inv, State.Inv]
theorem execVfex2_inv : ∀ x0 x1, State.Inv x1 → (∀ t0, (@execVfex2 x0 x1) = Host.Outcome.next t0 → State.Inv t0) := by
  intro x0 x1 h0; unfold execVfex2; grind [vfSpecial_inv, foldl_inv, State.Inv]
theorem execVflg2_inv : ∀ x0 x1, State.Inv x1 → (∀ t0, (@execVflg2 x0 x1) = Host.Outcome.next t0 → State.Inv t0) := by
  intro x0 x1 h0; unfold execVflg2; grind [vfSpecial_inv, foldl_inv, State.Inv]
theorem execVftnh_inv : ∀ x0 x1, State.Inv x1 → (∀ t0, (@execVftnh x0 x1) = Host.Outcome.next t0 → State.Inv t0) := by
  intro x0 x1 h0; unfold execVftnh; grind [vfSpecial_inv, foldl_inv, State.Inv]
theorem execVfsig_inv : ∀ x0 x1, State.Inv x1 → (∀ t0, (@execVfsig x0 x1) = Host.Outcome.next t0 → State.Inv t0) := by
  intro x0 x1 h0; unfold execVfsig; grind [vfSpecial_inv, foldl_inv, State.Inv]
theorem execVfexp_inv : ∀ x0 x1, State.Inv x1 → (∀ t0, (@execVfexp x0 x1) = Host.Outcome.next t0 → State.Inv t0) := by
  intro x0 x1 h0; unfold execVfexp; grind [vfSpecial_inv, foldl_inv, State.Inv]
theorem conversionOp_inv : ∀ x0 x1 x2 x3 x4 x5 x6, State.Inv x6 → (∀ t0, (@conversionOp x0 x1 x2 x3 x4 x5 x6) = Host.Outcome.next t0 → State.Inv t0) := by
  intro x0 x1 x2 x3 x4 x5 x6 h0; unfold conversionOp; grind [elementOp_inv, foldl_inv, State.Inv]
theorem execVcvt_inv : ∀ x0 x1 x2 x3 x4 x5 x6, State.Inv x6 → (∀ t0, (@execVcvt x0 x1 x2 x3 x4 x5 x6) = Host.Outcome.next t0 → State.Inv t0) := by
  intro x0 x1 x2 x3 x4 x5 x6 h0; unfold execVcvt; grind [conversionOp_inv, foldl_inv, State.Inv]
theorem execVftoi_inv : ∀ x0 x1 x2 x3 x4 x5 x6, State.Inv x6 → (∀ t0, (@execVftoi x0 x1 x2 x3 x4 x5 x6) = Host.Outcome.next t0 → State.Inv t0) := by
  intro x0 x1 x2 x3 x4 x5 x6 h0; unfold execVftoi; grind [conversionOp_inv, foldl_inv, State.Inv]
theorem execVitof_inv : ∀ x0 x1 x2 x3 x4 x5 x6, State.Inv x6 → (∀ t0, (@execVitof x0 x1 x2 x3 x4 x5 x6) = Host.Outcome.next t0 → State.Inv t0) := by
  intro x0 x1 x2 x3 x4 x5 x6 h0; unfold execVitof; grind [conversionOp_inv, foldl_inv, State.Inv]
theorem State.errorFreeStep_inv : ∀ x0 x1 x2 x3 x4 x5 x6 x7 x8 x9 x10, State.Inv x0 → State.Inv x9 → State.Inv (@State.errorFreeStep x0 x1 x2 x3 x4 x5 x6 x7 x8 x9 x10) := by
  intro x0 x1 x2 x3 x4 x5 x6 x7 x8 x9 x10 h0 h1; unfold State.errorFreeStep; grind [State.noteElem_inv, State.orVstat_inv, State.setElem_inv, foldl_inv, State.Inv]
theorem execVcvtef_inv : ∀ x0 x1 x2 x3 x4 x5 x6, State.Inv x6 → (∀ t0, (@execVcvtef x0 x1 x2 x3 x4 x5 x6) = Host.Outcome.next t0 → State.Inv t0) := by
  intro x0 x1 x2 x3 x4 x5 x6 h0; unfold execVcvtef; apply finish_inv; (try simp only [bind, Except.bind, pure, Except.pure, State.vecCheck, require]); grind [finish_inv, State.vecCheck_inv_error, State.vecCheck_inv_ok, State.setVstart_inv, State.errorFreeStep_inv, foldl_inv, State.Inv]
theorem scalarFp_inv : ∀ x0 x1 x2, State.Inv x2 → (∀ t0, (@scalarFp x0 x1 x2) = Host.Outcome.next t0 → State.Inv t0) := by
  intro x0 x1 x2 h0; unfold scalarFp; grind [State.retire_inv, State.orFstat_inv, State.setG_inv, foldl_inv, State.Inv]
theorem execFadd_inv : ∀ x0 x1 x2 x3 x4 x5, State.Inv x5 → (∀ t0, (@execFadd x0 x1 x2 x3 x4 x5) = Host.Outcome.next t0 → State.Inv t0) := by
  intro x0 x1 x2 x3 x4 x5 h0; unfold execFadd; grind [scalarFp_inv, foldl_inv, State.Inv]
theorem execFsub_inv : ∀ x0 x1 x2 x3 x4 x5, State.Inv x5 → (∀ t0, (@execFsub x0 x1 x2 x3 x4 x5) = Host.Outcome.next t0 → State.Inv t0) := by
  intro x0 x1 x2 x3 x4 x5 h0; unfold execFsub; grind [scalarFp_inv, foldl_inv, State.Inv]
theorem execFmul_inv : ∀ x0 x1 x2 x3 x4 x5, State.Inv x5 → (∀ t0, (@execFmul x0 x1 x2 x3 x4 x5) = Host.Outcome.next t0 → State.Inv t0) := by
  intro x0 x1 x2 x3 x4 x5 h0; unfold execFmul; grind [scalarFp_inv, foldl_inv, State.Inv]
theorem execFdiv_inv : ∀ x0 x1 x2 x3 x4 x5, State.Inv x5 → (∀ t0, (@execFdiv x0 x1 x2 x3 x4 x5) = Host.Outcome.next t0 → State.Inv t0) := by
  intro x0 x1 x2 x3 x4 x5 h0; unfold execFdiv; grind [scalarFp_inv, foldl_inv, State.Inv]
theorem execFsqrt_inv : ∀ x0 x1 x2 x3 x4, State.Inv x4 → (∀ t0, (@execFsqrt x0 x1 x2 x3 x4) = Host.Outcome.next t0 → State.Inv t0) := by
  intro x0 x1 x2 x3 x4 h0; unfold execFsqrt; grind [scalarFp_inv, foldl_inv, State.Inv]
theorem execFma_inv : ∀ x0 x1 x2 x3 x4 x5, State.Inv x5 → (∀ t0, (@execFma x0 x1 x2 x3 x4 x5) = Host.Outcome.next t0 → State.Inv t0) := by
  intro x0 x1 x2 x3 x4 x5 h0; unfold execFma; grind [scalarFp_inv, foldl_inv, State.Inv]
theorem execFmin_inv : ∀ x0 x1 x2 x3 x4, State.Inv x4 → (∀ t0, (@execFmin x0 x1 x2 x3 x4) = Host.Outcome.next t0 → State.Inv t0) := by
  intro x0 x1 x2 x3 x4 h0; unfold execFmin; grind [scalarFp_inv, foldl_inv, State.Inv]
theorem execFmax_inv : ∀ x0 x1 x2 x3 x4, State.Inv x4 → (∀ t0, (@execFmax x0 x1 x2 x3 x4) = Host.Outcome.next t0 → State.Inv t0) := by
  intro x0 x1 x2 x3 x4 h0; unfold execFmax; grind [scalarFp_inv, foldl_inv, State.Inv]
theorem scalarCompare_inv : ∀ x0 x1 x2 x3 x4 x5, State.Inv x5 → (∀ t0, (@scalarCompare x0 x1 x2 x3 x4 x5) = Host.Outcome.next t0 → State.Inv t0) := by
  intro x0 x1 x2 x3 x4 x5 h0; unfold scalarCompare; grind [scalarFp_inv, foldl_inv, State.Inv]

end Sys2Proof.Machine
end

