-- ==== Sys2Proof/Laws/Keeps5.lean ====
section
/-! SUPPORT. Keeps5.lean: every operation keeps State.Inv, part 5 of 6, in the order of the model's files. A lemma is
named after its operation, with _inv; _error and _ok where the operation may end in a trap. -/

namespace Sys2Proof.Machine

set_option maxRecDepth 40000
set_option linter.all false
set_option Elab.async false

theorem execFeq_inv : ∀ x0 x1 x2 x3 x4, State.Inv x4 → (∀ t0, (@execFeq x0 x1 x2 x3 x4) = Host.Outcome.next t0 → State.Inv t0) := by
  intro x0 x1 x2 x3 x4 h0; unfold execFeq; grind [scalarCompare_inv, foldl_inv, State.Inv]
theorem execFlt_inv : ∀ x0 x1 x2 x3 x4, State.Inv x4 → (∀ t0, (@execFlt x0 x1 x2 x3 x4) = Host.Outcome.next t0 → State.Inv t0) := by
  intro x0 x1 x2 x3 x4 h0; unfold execFlt; grind [scalarCompare_inv, foldl_inv, State.Inv]
theorem execFle_inv : ∀ x0 x1 x2 x3 x4, State.Inv x4 → (∀ t0, (@execFle x0 x1 x2 x3 x4) = Host.Outcome.next t0 → State.Inv t0) := by
  intro x0 x1 x2 x3 x4 h0; unfold execFle; grind [scalarCompare_inv, foldl_inv, State.Inv]
theorem execFclass_inv : ∀ x0 x1 x2 x3, State.Inv x3 → (∀ t0, (@execFclass x0 x1 x2 x3) = Host.Outcome.next t0 → State.Inv t0) := by
  intro x0 x1 x2 x3 h0; unfold execFclass; grind [scalarFp_inv, foldl_inv, State.Inv]
theorem execFsgn_inv : ∀ x0 x1 x2 x3 x4, State.Inv x4 → (∀ t0, (@execFsgn x0 x1 x2 x3 x4) = Host.Outcome.next t0 → State.Inv t0) := by
  intro x0 x1 x2 x3 x4 h0; unfold execFsgn; grind [scalarFp_inv, foldl_inv, State.Inv]
theorem execFsgnn_inv : ∀ x0 x1 x2 x3 x4, State.Inv x4 → (∀ t0, (@execFsgnn x0 x1 x2 x3 x4) = Host.Outcome.next t0 → State.Inv t0) := by
  intro x0 x1 x2 x3 x4 h0; unfold execFsgnn; grind [scalarFp_inv, foldl_inv, State.Inv]
theorem execFsgnx_inv : ∀ x0 x1 x2 x3 x4, State.Inv x4 → (∀ t0, (@execFsgnx x0 x1 x2 x3 x4) = Host.Outcome.next t0 → State.Inv t0) := by
  intro x0 x1 x2 x3 x4 h0; unfold execFsgnx; grind [scalarFp_inv, foldl_inv, State.Inv]
theorem execFcvtff_inv : ∀ x0 x1 x2 x3 x4, State.Inv x4 → (∀ t0, (@execFcvtff x0 x1 x2 x3 x4) = Host.Outcome.next t0 → State.Inv t0) := by
  intro x0 x1 x2 x3 x4 h0; unfold execFcvtff; grind [scalarFp_inv, foldl_inv, State.Inv]
theorem floatToScalar_inv : ∀ x0 x1 x2 x3 x4 x5 x6, State.Inv x6 → (∀ t0, (@floatToScalar x0 x1 x2 x3 x4 x5 x6) = Host.Outcome.next t0 → State.Inv t0) := by
  intro x0 x1 x2 x3 x4 x5 x6 h0; unfold floatToScalar; grind [scalarFp_inv, foldl_inv, State.Inv]
theorem execFcvti_inv : ∀ x0 x1 x2 x3 x4, State.Inv x4 → (∀ t0, (@execFcvti x0 x1 x2 x3 x4) = Host.Outcome.next t0 → State.Inv t0) := by
  intro x0 x1 x2 x3 x4 h0; unfold execFcvti; grind [floatToScalar_inv, foldl_inv, State.Inv]
theorem execFcvtn_inv : ∀ x0 x1 x2 x3 x4, State.Inv x4 → (∀ t0, (@execFcvtn x0 x1 x2 x3 x4) = Host.Outcome.next t0 → State.Inv t0) := by
  intro x0 x1 x2 x3 x4 h0; unfold execFcvtn; grind [floatToScalar_inv, foldl_inv, State.Inv]
theorem execFcvtw_inv : ∀ x0 x1 x2 x3 x4, State.Inv x4 → (∀ t0, (@execFcvtw x0 x1 x2 x3 x4) = Host.Outcome.next t0 → State.Inv t0) := by
  intro x0 x1 x2 x3 x4 h0; unfold execFcvtw; grind [floatToScalar_inv, foldl_inv, State.Inv]
theorem execFcvtwn_inv : ∀ x0 x1 x2 x3 x4, State.Inv x4 → (∀ t0, (@execFcvtwn x0 x1 x2 x3 x4) = Host.Outcome.next t0 → State.Inv t0) := by
  intro x0 x1 x2 x3 x4 h0; unfold execFcvtwn; grind [floatToScalar_inv, foldl_inv, State.Inv]
theorem execFcvtif_inv : ∀ x0 x1 x2 x3 x4, State.Inv x4 → (∀ t0, (@execFcvtif x0 x1 x2 x3 x4) = Host.Outcome.next t0 → State.Inv t0) := by
  intro x0 x1 x2 x3 x4 h0; unfold execFcvtif; grind [scalarFp_inv, foldl_inv, State.Inv]
theorem execFcvtnf_inv : ∀ x0 x1 x2 x3 x4, State.Inv x4 → (∀ t0, (@execFcvtnf x0 x1 x2 x3 x4) = Host.Outcome.next t0 → State.Inv t0) := by
  intro x0 x1 x2 x3 x4 h0; unfold execFcvtnf; grind [scalarFp_inv, foldl_inv, State.Inv]
theorem satOp_inv : ∀ x0 x1 x2, State.Inv x2 → (∀ t0, (@satOp x0 x1 x2) = Host.Outcome.next t0 → State.Inv t0) := by
  intro x0 x1 x2 h0; unfold satOp; grind [binaryOp_inv, foldl_inv, State.Inv]
theorem plainOp_inv : ∀ x0 x1 x2, State.Inv x2 → (∀ t0, (@plainOp x0 x1 x2) = Host.Outcome.next t0 → State.Inv t0) := by
  intro x0 x1 x2 h0; unfold plainOp; grind [binaryOp_inv, foldl_inv, State.Inv]
theorem execVadd_inv : ∀ x0 x1, State.Inv x1 → (∀ t0, (@execVadd x0 x1) = Host.Outcome.next t0 → State.Inv t0) := by
  intro x0 x1 h0; unfold execVadd; grind [satOp_inv, foldl_inv, State.Inv]
theorem execVsub_inv : ∀ x0 x1, State.Inv x1 → (∀ t0, (@execVsub x0 x1) = Host.Outcome.next t0 → State.Inv t0) := by
  intro x0 x1 h0; unfold execVsub; grind [satOp_inv, foldl_inv, State.Inv]
theorem execVrsub_inv : ∀ x0 x1, State.Inv x1 → (∀ t0, (@execVrsub x0 x1) = Host.Outcome.next t0 → State.Inv t0) := by
  intro x0 x1 h0; unfold execVrsub; grind [satOp_inv, foldl_inv, State.Inv]
theorem execVmul_inv : ∀ x0 x1, State.Inv x1 → (∀ t0, (@execVmul x0 x1) = Host.Outcome.next t0 → State.Inv t0) := by
  intro x0 x1 h0; unfold execVmul; grind [satOp_inv, foldl_inv, State.Inv]
theorem execVmulh_inv : ∀ x0 x1, State.Inv x1 → (∀ t0, (@execVmulh x0 x1) = Host.Outcome.next t0 → State.Inv t0) := by
  intro x0 x1 h0; unfold execVmulh; grind [plainOp_inv, foldl_inv, State.Inv]
theorem execVmulhn_inv : ∀ x0 x1, State.Inv x1 → (∀ t0, (@execVmulhn x0 x1) = Host.Outcome.next t0 → State.Inv t0) := by
  intro x0 x1 h0; unfold execVmulhn; grind [plainOp_inv, foldl_inv, State.Inv]
theorem execVdiv_inv : ∀ x0 x1, State.Inv x1 → (∀ t0, (@execVdiv x0 x1) = Host.Outcome.next t0 → State.Inv t0) := by
  intro x0 x1 h0; unfold execVdiv; grind [plainOp_inv, foldl_inv, State.Inv]
theorem execVdivn_inv : ∀ x0 x1, State.Inv x1 → (∀ t0, (@execVdivn x0 x1) = Host.Outcome.next t0 → State.Inv t0) := by
  intro x0 x1 h0; unfold execVdivn; grind [plainOp_inv, foldl_inv, State.Inv]
theorem execVrem_inv : ∀ x0 x1, State.Inv x1 → (∀ t0, (@execVrem x0 x1) = Host.Outcome.next t0 → State.Inv t0) := by
  intro x0 x1 h0; unfold execVrem; grind [plainOp_inv, foldl_inv, State.Inv]
theorem execVremn_inv : ∀ x0 x1, State.Inv x1 → (∀ t0, (@execVremn x0 x1) = Host.Outcome.next t0 → State.Inv t0) := by
  intro x0 x1 h0; unfold execVremn; grind [plainOp_inv, foldl_inv, State.Inv]
theorem execVmin_inv : ∀ x0 x1, State.Inv x1 → (∀ t0, (@execVmin x0 x1) = Host.Outcome.next t0 → State.Inv t0) := by
  intro x0 x1 h0; unfold execVmin; grind [plainOp_inv, foldl_inv, State.Inv]
theorem execVmax_inv : ∀ x0 x1, State.Inv x1 → (∀ t0, (@execVmax x0 x1) = Host.Outcome.next t0 → State.Inv t0) := by
  intro x0 x1 h0; unfold execVmax; grind [plainOp_inv, foldl_inv, State.Inv]
theorem execVminn_inv : ∀ x0 x1, State.Inv x1 → (∀ t0, (@execVminn x0 x1) = Host.Outcome.next t0 → State.Inv t0) := by
  intro x0 x1 h0; unfold execVminn; grind [plainOp_inv, foldl_inv, State.Inv]
theorem execVmaxn_inv : ∀ x0 x1, State.Inv x1 → (∀ t0, (@execVmaxn x0 x1) = Host.Outcome.next t0 → State.Inv t0) := by
  intro x0 x1 h0; unfold execVmaxn; grind [plainOp_inv, foldl_inv, State.Inv]
theorem execVand_inv : ∀ x0 x1, State.Inv x1 → (∀ t0, (@execVand x0 x1) = Host.Outcome.next t0 → State.Inv t0) := by
  intro x0 x1 h0; unfold execVand; grind [plainOp_inv, foldl_inv, State.Inv]
theorem execVor_inv : ∀ x0 x1, State.Inv x1 → (∀ t0, (@execVor x0 x1) = Host.Outcome.next t0 → State.Inv t0) := by
  intro x0 x1 h0; unfold execVor; grind [plainOp_inv, foldl_inv, State.Inv]
theorem execVxor_inv : ∀ x0 x1, State.Inv x1 → (∀ t0, (@execVxor x0 x1) = Host.Outcome.next t0 → State.Inv t0) := by
  intro x0 x1 h0; unfold execVxor; grind [plainOp_inv, foldl_inv, State.Inv]
theorem execVsll_inv : ∀ x0 x1, State.Inv x1 → (∀ t0, (@execVsll x0 x1) = Host.Outcome.next t0 → State.Inv t0) := by
  intro x0 x1 h0; unfold execVsll; grind [plainOp_inv, foldl_inv, State.Inv]
theorem execVsrl_inv : ∀ x0 x1, State.Inv x1 → (∀ t0, (@execVsrl x0 x1) = Host.Outcome.next t0 → State.Inv t0) := by
  intro x0 x1 h0; unfold execVsrl; grind [plainOp_inv, foldl_inv, State.Inv]
theorem execVsra_inv : ∀ x0 x1, State.Inv x1 → (∀ t0, (@execVsra x0 x1) = Host.Outcome.next t0 → State.Inv t0) := by
  intro x0 x1 h0; unfold execVsra; grind [plainOp_inv, foldl_inv, State.Inv]
theorem intCompare_inv : ∀ x0 x1 x2 x3, State.Inv x3 → (∀ t0, (@intCompare x0 x1 x2 x3) = Host.Outcome.next t0 → State.Inv t0) := by
  intro x0 x1 x2 x3 h0; unfold intCompare; grind [compareOp_inv, foldl_inv, State.Inv]
theorem execVcmpeq_inv : ∀ x0 x1, State.Inv x1 → (∀ t0, (@execVcmpeq x0 x1) = Host.Outcome.next t0 → State.Inv t0) := by
  intro x0 x1 h0; unfold execVcmpeq; grind [intCompare_inv, foldl_inv, State.Inv]
theorem execVcmpne_inv : ∀ x0 x1, State.Inv x1 → (∀ t0, (@execVcmpne x0 x1) = Host.Outcome.next t0 → State.Inv t0) := by
  intro x0 x1 h0; unfold execVcmpne; grind [intCompare_inv, foldl_inv, State.Inv]
theorem execVcmplt_inv : ∀ x0 x1, State.Inv x1 → (∀ t0, (@execVcmplt x0 x1) = Host.Outcome.next t0 → State.Inv t0) := by
  intro x0 x1 h0; unfold execVcmplt; grind [intCompare_inv, foldl_inv, State.Inv]
theorem execVcmple_inv : ∀ x0 x1, State.Inv x1 → (∀ t0, (@execVcmple x0 x1) = Host.Outcome.next t0 → State.Inv t0) := by
  intro x0 x1 h0; unfold execVcmple; grind [intCompare_inv, foldl_inv, State.Inv]
theorem execVcmpltn_inv : ∀ x0 x1, State.Inv x1 → (∀ t0, (@execVcmpltn x0 x1) = Host.Outcome.next t0 → State.Inv t0) := by
  intro x0 x1 h0; unfold execVcmpltn; grind [intCompare_inv, foldl_inv, State.Inv]
theorem execVcmplen_inv : ∀ x0 x1, State.Inv x1 → (∀ t0, (@execVcmplen x0 x1) = Host.Outcome.next t0 → State.Inv t0) := by
  intro x0 x1 h0; unfold execVcmplen; grind [intCompare_inv, foldl_inv, State.Inv]
theorem execVmerge_inv : ∀ x0 x1, State.Inv x1 → (∀ t0, (@execVmerge x0 x1) = Host.Outcome.next t0 → State.Inv t0) := by
  intro x0 x1 h0; unfold execVmerge; apply finish_inv; (try simp only [bind, Except.bind, pure, Except.pure, State.vecCheck, require]); grind [finish_inv, State.vecCheck_inv_error, State.vecCheck_inv_ok, State.elementwise_inv, foldl_inv, State.Inv]
theorem execVmv_inv : ∀ x0 x1, State.Inv x1 → (∀ t0, (@execVmv x0 x1) = Host.Outcome.next t0 → State.Inv t0) := by
  intro x0 x1 h0; unfold execVmv; grind [unaryOp_inv, foldl_inv, State.Inv]
theorem execVbcast_inv : ∀ x0 x1 x2 x3 x4, State.Inv x4 → (∀ t0, (@execVbcast x0 x1 x2 x3 x4) = Host.Outcome.next t0 → State.Inv t0) := by
  intro x0 x1 x2 x3 x4 h0; unfold execVbcast; grind [elementOp_inv, foldl_inv, State.Inv]
theorem execVid_inv : ∀ x0 x1 x2 x3, State.Inv x3 → (∀ t0, (@execVid x0 x1 x2 x3) = Host.Outcome.next t0 → State.Inv t0) := by
  intro x0 x1 x2 x3 h0; unfold execVid; grind [elementOp_inv, foldl_inv, State.Inv]
theorem execVext_inv : ∀ x0 x1 x2 x3 x4 x5, State.Inv x5 → (∀ t0, (@execVext x0 x1 x2 x3 x4 x5) = Host.Outcome.next t0 → State.Inv t0) := by
  intro x0 x1 x2 x3 x4 x5 h0; unfold execVext; apply finish_inv; (try simp only [bind, Except.bind, pure, Except.pure, State.vecCheck, require]); grind [finish_inv, State.vecCheck_inv_error, State.vecCheck_inv_ok, State.setVstart_inv, State.noteG_inv, State.setG_inv, foldl_inv, State.Inv]
theorem execVins_inv : ∀ x0 x1 x2 x3 x4, State.Inv x4 → (∀ t0, (@execVins x0 x1 x2 x3 x4) = Host.Outcome.next t0 → State.Inv t0) := by
  intro x0 x1 x2 x3 x4 h0; unfold execVins; apply finish_inv; (try simp only [bind, Except.bind, pure, Except.pure, State.vecCheck, require]); grind [finish_inv, State.vecCheck_inv_error, State.vecCheck_inv_ok, State.noteElem_inv, State.setElem_inv, State.setVstart_inv, foldl_inv, State.Inv]
theorem wideningOp_inv : ∀ x0 x1 x2, State.Inv x2 → (∀ t0, (@wideningOp x0 x1 x2) = Host.Outcome.next t0 → State.Inv t0) := by
  intro x0 x1 x2 h0; unfold wideningOp; grind [elementOp_inv, foldl_inv, State.Inv]
theorem execVwmul_inv : ∀ x0 x1, State.Inv x1 → (∀ t0, (@execVwmul x0 x1) = Host.Outcome.next t0 → State.Inv t0) := by
  intro x0 x1 h0; unfold execVwmul; grind [wideningOp_inv, foldl_inv, State.Inv]
theorem execVwadd_inv : ∀ x0 x1, State.Inv x1 → (∀ t0, (@execVwadd x0 x1) = Host.Outcome.next t0 → State.Inv t0) := by
  intro x0 x1 h0; unfold execVwadd; grind [wideningOp_inv, foldl_inv, State.Inv]
theorem maskLogic_inv : ∀ x0 x1 x2 x3 x4, State.Inv x4 → (∀ t0, (@maskLogic x0 x1 x2 x3 x4) = Host.Outcome.next t0 → State.Inv t0) := by
  intro x0 x1 x2 x3 x4 h0; unfold maskLogic; grind [finish_inv, State.elementwise_inv, foldl_inv, State.Inv]
theorem execMand_inv : ∀ x0 x1 x2 x3 x4, State.Inv x4 → (∀ t0, (@execMand x0 x1 x2 x3 x4) = Host.Outcome.next t0 → State.Inv t0) := by
  intro x0 x1 x2 x3 x4 h0; unfold execMand; grind [maskLogic_inv, foldl_inv, State.Inv]
theorem execMor_inv : ∀ x0 x1 x2 x3 x4, State.Inv x4 → (∀ t0, (@execMor x0 x1 x2 x3 x4) = Host.Outcome.next t0 → State.Inv t0) := by
  intro x0 x1 x2 x3 x4 h0; unfold execMor; grind [maskLogic_inv, foldl_inv, State.Inv]
theorem execMxor_inv : ∀ x0 x1 x2 x3 x4, State.Inv x4 → (∀ t0, (@execMxor x0 x1 x2 x3 x4) = Host.Outcome.next t0 → State.Inv t0) := by
  intro x0 x1 x2 x3 x4 h0; unfold execMxor; grind [maskLogic_inv, foldl_inv, State.Inv]
theorem execMandn_inv : ∀ x0 x1 x2 x3 x4, State.Inv x4 → (∀ t0, (@execMandn x0 x1 x2 x3 x4) = Host.Outcome.next t0 → State.Inv t0) := by
  intro x0 x1 x2 x3 x4 h0; unfold execMandn; grind [maskLogic_inv, foldl_inv, State.Inv]
theorem execMnot_inv : ∀ x0 x1 x2 x3, State.Inv x3 → (∀ t0, (@execMnot x0 x1 x2 x3) = Host.Outcome.next t0 → State.Inv t0) := by
  intro x0 x1 x2 x3 h0; unfold execMnot; grind [maskLogic_inv, foldl_inv, State.Inv]
theorem execMset_inv : ∀ x0 x1 x2, State.Inv x2 → (∀ t0, (@execMset x0 x1 x2) = Host.Outcome.next t0 → State.Inv t0) := by
  intro x0 x1 x2 h0; unfold execMset; grind [maskLogic_inv, foldl_inv, State.Inv]
theorem execMclr_inv : ∀ x0 x1 x2, State.Inv x2 → (∀ t0, (@execMclr x0 x1 x2) = Host.Outcome.next t0 → State.Inv t0) := by
  intro x0 x1 x2 h0; unfold execMclr; grind [maskLogic_inv, foldl_inv, State.Inv]
theorem maskScalar_inv : ∀ x0 x1 x2 x3 x4 x5, State.Inv x5 → (∀ t0, (@maskScalar x0 x1 x2 x3 x4 x5) = Host.Outcome.next t0 → State.Inv t0) := by
  intro x0 x1 x2 x3 x4 x5 h0; unfold maskScalar; grind [finish_inv, State.setVstart_inv, State.noteG_inv, State.setG_inv, foldl_inv, State.Inv]
theorem execMpop_inv : ∀ x0 x1 x2 x3 x4, State.Inv x4 → (∀ t0, (@execMpop x0 x1 x2 x3 x4) = Host.Outcome.next t0 → State.Inv t0) := by
  intro x0 x1 x2 x3 x4 h0; unfold execMpop; grind [maskScalar_inv, foldl_inv, State.Inv]
theorem execMfirst_inv : ∀ x0 x1 x2 x3 x4, State.Inv x4 → (∀ t0, (@execMfirst x0 x1 x2 x3 x4) = Host.Outcome.next t0 → State.Inv t0) := by
  intro x0 x1 x2 x3 x4 h0; unfold execMfirst; grind [maskScalar_inv, foldl_inv, State.Inv]
theorem execMfromv_inv : ∀ x0 x1 x2 x3 x4 x5, State.Inv x5 → (∀ t0, (@execMfromv x0 x1 x2 x3 x4 x5) = Host.Outcome.next t0 → State.Inv t0) := by
  intro x0 x1 x2 x3 x4 x5 h0; unfold execMfromv; apply finish_inv; (try simp only [bind, Except.bind, pure, Except.pure, State.vecCheck, require]); grind [finish_inv, State.vecCheck_inv_error, State.vecCheck_inv_ok, State.elementwise_inv, foldl_inv, State.Inv]
theorem execMtov_inv : ∀ x0 x1 x2 x3 x4, State.Inv x4 → (∀ t0, (@execMtov x0 x1 x2 x3 x4) = Host.Outcome.next t0 → State.Inv t0) := by
  intro x0 x1 x2 x3 x4 h0; unfold execMtov; grind [elementOp_inv, foldl_inv, State.Inv]
theorem execMsbf_inv : ∀ x0 x1 x2 x3 x4, State.Inv x4 → (∀ t0, (@execMsbf x0 x1 x2 x3 x4) = Host.Outcome.next t0 → State.Inv t0) := by
  intro x0 x1 x2 x3 x4 h0; unfold execMsbf; grind [finish_inv, State.elementwise_inv, foldl_inv, State.Inv]
theorem reductionOp_inv : ∀ x0 x1 x2 x3, State.Inv x3 → (∀ t0, (@reductionOp x0 x1 x2 x3) = Host.Outcome.next t0 → State.Inv t0) := by
  intro x0 x1 x2 x3 h0; unfold reductionOp; apply finish_inv; (try simp only [bind, Except.bind, pure, Except.pure, State.vecCheck, require]); grind [finish_inv, State.vecCheck_inv_error, State.vecCheck_inv_ok, State.setVstart_inv, State.noteElem_inv, State.noteVstat_inv, State.setElem_inv, State.orVstat_inv, foldl_inv, State.Inv]
theorem intReduction_inv : ∀ x0 x1 x2, State.Inv x2 → (∀ t0, (@intReduction x0 x1 x2) = Host.Outcome.next t0 → State.Inv t0) := by
  intro x0 x1 x2 h0; unfold intReduction; grind [reductionOp_inv, foldl_inv, State.Inv]
theorem execVredsum_inv : ∀ x0 x1, State.Inv x1 → (∀ t0, (@execVredsum x0 x1) = Host.Outcome.next t0 → State.Inv t0) := by
  intro x0 x1 h0; unfold execVredsum; grind [intReduction_inv, foldl_inv, State.Inv]
theorem execVredmin_inv : ∀ x0 x1, State.Inv x1 → (∀ t0, (@execVredmin x0 x1) = Host.Outcome.next t0 → State.Inv t0) := by
  intro x0 x1 h0; unfold execVredmin; grind [intReduction_inv, foldl_inv, State.Inv]
theorem execVredmax_inv : ∀ x0 x1, State.Inv x1 → (∀ t0, (@execVredmax x0 x1) = Host.Outcome.next t0 → State.Inv t0) := by
  intro x0 x1 h0; unfold execVredmax; grind [intReduction_inv, foldl_inv, State.Inv]
theorem execVredminn_inv : ∀ x0 x1, State.Inv x1 → (∀ t0, (@execVredminn x0 x1) = Host.Outcome.next t0 → State.Inv t0) := by
  intro x0 x1 h0; unfold execVredminn; grind [intReduction_inv, foldl_inv, State.Inv]
theorem execVredmaxn_inv : ∀ x0 x1, State.Inv x1 → (∀ t0, (@execVredmaxn x0 x1) = Host.Outcome.next t0 → State.Inv t0) := by
  intro x0 x1 h0; unfold execVredmaxn; grind [intReduction_inv, foldl_inv, State.Inv]
theorem execVredand_inv : ∀ x0 x1, State.Inv x1 → (∀ t0, (@execVredand x0 x1) = Host.Outcome.next t0 → State.Inv t0) := by
  intro x0 x1 h0; unfold execVredand; grind [intReduction_inv, foldl_inv, State.Inv]
theorem execVredor_inv : ∀ x0 x1, State.Inv x1 → (∀ t0, (@execVredor x0 x1) = Host.Outcome.next t0 → State.Inv t0) := by
  intro x0 x1 h0; unfold execVredor; grind [intReduction_inv, foldl_inv, State.Inv]
theorem execVredxor_inv : ∀ x0 x1, State.Inv x1 → (∀ t0, (@execVredxor x0 x1) = Host.Outcome.next t0 → State.Inv t0) := by
  intro x0 x1 h0; unfold execVredxor; grind [intReduction_inv, foldl_inv, State.Inv]
theorem treeReduction_inv : ∀ x0 x1 x2, State.Inv x2 → (∀ t0, (@treeReduction x0 x1 x2) = Host.Outcome.next t0 → State.Inv t0) := by
  intro x0 x1 x2 h0; unfold treeReduction; grind [reductionOp_inv, foldl_inv, State.Inv]
theorem execVfredsum_inv : ∀ x0 x1, State.Inv x1 → (∀ t0, (@execVfredsum x0 x1) = Host.Outcome.next t0 → State.Inv t0) := by
  intro x0 x1 h0; unfold execVfredsum; grind [treeReduction_inv, foldl_inv, State.Inv]
theorem execVfredmin_inv : ∀ x0 x1, State.Inv x1 → (∀ t0, (@execVfredmin x0 x1) = Host.Outcome.next t0 → State.Inv t0) := by
  intro x0 x1 h0; unfold execVfredmin; grind [treeReduction_inv, foldl_inv, State.Inv]
theorem execVfredmax_inv : ∀ x0 x1, State.Inv x1 → (∀ t0, (@execVfredmax x0 x1) = Host.Outcome.next t0 → State.Inv t0) := by
  intro x0 x1 h0; unfold execVfredmax; grind [treeReduction_inv, foldl_inv, State.Inv]
theorem scanStep_inv : ∀ x0 x1 x2 x3 x4 x5 x6 x7 x8, State.Inv x0 → State.Inv (x7).t → State.Inv ((@State.scanStep x0 x1 x2 x3 x4 x5 x6 x7 x8)).t := by
  intro s sel z d a i c r e hs hr; unfold State.scanStep; dsimp only
  split
  · exact State.noteElem_inv _ _ _ _ hr
  · split
    · dsimp only
      repeat' split
      all_goals first | exact State.noteElem_inv _ _ _ _ hr | exact State.orVstat_inv _ _ (State.setElem_inv _ _ _ _ hr)
    · dsimp only; split
      · exact State.setElem_inv _ _ _ _ hr
      · exact hr
--SPLIT
theorem scanOp_inv : ∀ x0 x1 x2 x3 x4, State.Inv x4 → (∀ t0, (@scanOp x0 x1 x2 x3 x4) = Host.Outcome.next t0 → State.Inv t0) := by
  intro o ok incl cb s h; unfold scanOp; dsimp only; apply EP.finish
  refine EP.bind (EP.vecCheck _ _ _ _ _ h) fun u hu => ?_
  split
  · exact EP.ok (State.setVstart_inv _ _ hu)
  · split
    · exact EP.ok (State.setVstart_inv _ _ (State.noteVstat_inv _ _ hu))
    · refine EP.ok (State.setVstart_inv _ _ ?_)
      have fold : ∀ (l : List Nat) (f : Running → Nat → Running), (∀ r e, r.t.Inv → (f r e).t.Inv) → ∀ r : Running, r.t.Inv → (l.foldl f r).t.Inv := by
        intro l f hf; induction l with
        | nil => intro r h; exact h
        | cons e l ih => intro r h; exact ih _ (hf _ _ h)
      exact fold _ _ (fun r e hr => scanStep_inv u _ _ _ _ _ _ r e hu hr) _ hu
theorem execVscan_inv : ∀ x0 x1, State.Inv x1 → (∀ t0, (@execVscan x0 x1) = Host.Outcome.next t0 → State.Inv t0) := by
  intro x0 x1 h0; unfold execVscan; grind [scanOp_inv, foldl_inv, State.Inv]
theorem execVscanx_inv : ∀ x0 x1, State.Inv x1 → (∀ t0, (@execVscanx x0 x1) = Host.Outcome.next t0 → State.Inv t0) := by
  intro x0 x1 h0; unfold execVscanx; grind [scanOp_inv, foldl_inv, State.Inv]
theorem execVfscan_inv : ∀ x0 x1, State.Inv x1 → (∀ t0, (@execVfscan x0 x1) = Host.Outcome.next t0 → State.Inv t0) := by
  intro x0 x1 h0; unfold execVfscan; grind [scanOp_inv, foldl_inv, State.Inv]
theorem moveOp_inv : ∀ x0 x1 x2 x3 x4 x5 x6 x7 x8 x9 x10, State.Inv x10 → (∀ t0, (@moveOp x0 x1 x2 x3 x4 x5 x6 x7 x8 x9 x10) = Host.Outcome.next t0 → State.Inv t0) := by
  intro x0 x1 x2 x3 x4 x5 x6 x7 x8 x9 x10 h0; unfold moveOp; apply finish_inv; (try simp only [bind, Except.bind, pure, Except.pure, State.vecCheck, require]); grind [finish_inv, State.vecCheck_inv_error, State.vecCheck_inv_ok, require_inv_error, require_inv_ok, State.setVstart_inv, State.elementStep_inv, foldl_inv, State.Inv]
theorem State.loseMove_inv : ∀ x0 x1 x2 x3, State.Inv x0 → (∀ t0, (@State.loseMove x0 x1 x2 x3) = Host.Outcome.next t0 → State.Inv t0) := by
  intro x0 x1 x2 x3 h0; unfold State.loseMove; apply finish_inv; (try simp only [bind, Except.bind, pure, Except.pure, State.vecCheck, require]); grind [finish_inv, State.vecCheck_inv_error, State.vecCheck_inv_ok, State.setVstart_inv, State.noteElem_inv, foldl_inv, State.Inv]
theorem execVslup_inv : ∀ x0 x1 x2 x3 x4 x5 x6, State.Inv x6 → (∀ t0, (@execVslup x0 x1 x2 x3 x4 x5 x6) = Host.Outcome.next t0 → State.Inv t0) := by
  intro x0 x1 x2 x3 x4 x5 x6 h0; unfold execVslup; grind [State.loseMove_inv, moveOp_inv, foldl_inv, State.Inv]
theorem execVsldn_inv : ∀ x0 x1 x2 x3 x4 x5 x6, State.Inv x6 → (∀ t0, (@execVsldn x0 x1 x2 x3 x4 x5 x6) = Host.Outcome.next t0 → State.Inv t0) := by
  intro x0 x1 x2 x3 x4 x5 x6 h0; unfold execVsldn; grind [moveOp_inv, foldl_inv, State.Inv]
theorem execVperm_inv : ∀ x0 x1, State.Inv x1 → (∀ t0, (@execVperm x0 x1) = Host.Outcome.next t0 → State.Inv t0) := by
  intro x0 x1 h0; unfold execVperm; grind [moveOp_inv, foldl_inv, State.Inv]
theorem execVunpack_inv : ∀ x0 x1, State.Inv x1 → (∀ t0, (@execVunpack x0 x1) = Host.Outcome.next t0 → State.Inv t0) := by
  intro x0 x1 h0; unfold execVunpack; grind [moveOp_inv, foldl_inv, State.Inv]
theorem execVrev_inv : ∀ x0 x1, State.Inv x1 → (∀ t0, (@execVrev x0 x1) = Host.Outcome.next t0 → State.Inv t0) := by
  intro x0 x1 h0; unfold execVrev; grind [moveOp_inv, foldl_inv, State.Inv]
theorem execVxchg_inv : ∀ x0 x1 x2 x3 x4 x5 x6, State.Inv x6 → (∀ t0, (@execVxchg x0 x1 x2 x3 x4 x5 x6) = Host.Outcome.next t0 → State.Inv t0) := by
  intro x0 x1 x2 x3 x4 x5 x6 h0; unfold execVxchg; grind [moveOp_inv, foldl_inv, State.Inv]
theorem State.packStep_inv : ∀ x0 x1 x2 x3 x4 x5, State.Inv x0 → State.Inv (x4).1 → State.Inv ((@State.packStep x0 x1 x2 x3 x4 x5)).1 := by
  intro x0 x1 x2 x3 x4 x5 h0 h1; unfold State.packStep; grind [State.noteElem_inv, State.setElem_inv, foldl_inv, State.Inv]
theorem execVpack_inv : ∀ x0 x1, State.Inv x1 → (∀ t0, (@execVpack x0 x1) = Host.Outcome.next t0 → State.Inv t0) := by
  intro o s h; unfold execVpack; dsimp only; apply EP.finish
  refine EP.bind (EP.vecCheck _ _ _ _ _ h) fun u hu => EP.bind (EP.require _ _ _ hu) fun v hv => EP.ok (State.setVstart_inv _ _ ?_)
  exact foldlP_inv _ _ (fun p a hp => State.packStep_inv v _ _ _ p a hv hp) (v, _, false) hv
theorem State.countRows_inv : ∀ x0 x1 x2, State.Inv x0 → State.Inv x1 → State.Inv (@State.countRows x0 x1 x2) := by
  intro x0 x1 x2 h0 h1; unfold State.countRows; grind [State.onCluster_inv, foldl_inv, State.Inv]
theorem State.standAt_inv : ∀ x0 x1 x2, State.Inv x0 → State.Inv x1 → State.Inv (@State.standAt x0 x1 x2) := by
  intro x0 x1 x2 h0 h1; unfold State.standAt; grind [State.onCluster_inv, State.onHart_inv, foldl_inv, State.Inv]
theorem State.fetchHome_inv : ∀ x0 x1, State.Inv x0 → State.Inv ((@State.fetchHome x0 x1)).1 := by
  intro x0 x1 h0; unfold State.fetchHome; grind [State.logRefusal_inv, foldl_inv, State.Inv]
theorem State.fetchAt_inv : ∀ x0 x1, State.Inv x0 → State.Inv ((@State.fetchAt x0 x1)).1 := by
  intro x0 x1 h0; unfold State.fetchAt; grind [State.fillTlb_inv, State.fetchHome_inv, foldl_inv, State.Inv]
theorem State.fetch_inv : ∀ x0, State.Inv x0 → State.Inv ((@State.fetch x0)).1 := by
  intro x0 h0; unfold State.fetch; grind [State.fetchAt_inv, foldl_inv, State.Inv]
theorem State.setIr_inv : ∀ x0 x1 x2, State.Inv x0 → State.Inv (@State.setIr x0 x1 x2) := by
  intro x0 x1 x2 h0; exact h0
theorem State.orSpanLoss_inv : ∀ x0 x1 x2 x3, State.Inv x0 → (∀ t90, x3 = Host.Outcome.next t90 → State.Inv t90) → (∀ t0, (@State.orSpanLoss x0 x1 x2 x3) = Host.Outcome.next t0 → State.Inv t0) := by
  intro x0 x1 x2 x3 h0 h1; unfold State.orSpanLoss; grind [State.takeSpanLoss_inv, foldl_inv, State.Inv]
theorem State.rebuildTurn_inv : ∀ x0, State.Inv x0 → State.Inv (@State.rebuildTurn x0) := by
  intro x0 h0; unfold State.rebuildTurn; grind [State.rebuildLatches_inv, State.takeRebuild_inv, foldl_inv, State.Inv]
theorem State.startPlaced_inv : ∀ x0, State.Inv x0 → State.Inv (@State.startPlaced x0) := by
  intro x0 h0; unfold State.startPlaced; grind [foldl_inv, State.Inv]
theorem State.syncUnit_inv : ∀ x0, State.Inv x0 → State.Inv (@State.syncUnit x0) := by
  intro x0 h0; unfold State.syncUnit; grind [foldl_inv, State.Inv]
theorem State.tick_inv : ∀ x0, State.Inv x0 → State.Inv (@State.tick x0) := by
  intro x0 h0; unfold State.tick; grind [State.syncUnit_inv, State.onCluster_inv, foldl_inv, State.Inv]
theorem State.loadUnit_inv : ∀ x0, State.Inv x0 → State.Inv (@State.loadUnit x0) := by
  intro x0 h0; unfold State.loadUnit; grind [State.putWord_inv, foldl_inv, State.Inv]
theorem State.putCode_inv : ∀ x0 x1 x2, State.Inv x0 → State.Inv (@State.putCode x0 x1 x2) := by
  intro x0 x1 x2 h0; unfold State.putCode; grind [State.putBytes_inv, foldl_inv, State.Inv]
theorem State.clearWay_inv : ∀ x0, State.Inv x0 → State.Inv (@State.clearWay x0) := by
  intro x0 h0; exact h0
theorem State.placeWords_inv : ∀ x0 x1 x2, State.Inv x0 → State.Inv (@State.placeWords x0 x1 x2) := by
  intro x0 x1 x2 h0; unfold State.placeWords; grind [State.clearWay_inv, State.loadUnit_inv, State.putCode_inv, foldl_inv, State.Inv]
theorem andTick_inv : ∀ x0, (∀ t90, x0 = Host.Outcome.next t90 → State.Inv t90) → (∀ t0, (@andTick x0) = Host.Outcome.next t0 → State.Inv t0) := by
  intro x0 h0; unfold andTick; grind [State.tick_inv, foldl_inv, State.Inv]
theorem State.withFetchWord_inv : ∀ x0 x1 x2, State.Inv x0 → State.Inv (@State.withFetchWord x0 x1 x2) := by
  intro x0 x1 x2 h0; unfold State.withFetchWord; grind [State.placeWords_inv, foldl_inv, State.Inv]
theorem State.resumption_inv : ∀ x0 x1 x2 x3 x4 x5, State.Inv x0 → State.Inv (@State.resumption x0 x1 x2 x3 x4 x5) := by
  intro s v n g h c hs; unfold State.resumption; dsimp only
  split
  · exact hs
  · split
    · exact hs
    · split
      · have h1 := State.resumeGroup_inv s v n g h c hs
        generalize hq : State.resumeAll _ _ _ _ _ = q
        cases q with
        | none => exact hs
        | some u => exact State.resumeAll_inv _ _ _ _ _ h1 _ hq
      · exact State.resumeGroup_inv s v n g h c hs
theorem execRegisterWrite_inv : ∀ x0 x1 x2 x3 x4, State.Inv x4 → (∀ t0, (@execRegisterWrite x0 x1 x2 x3 x4) = Host.Outcome.next t0 → State.Inv t0) := by
  intro a b c d s h; unfold execRegisterWrite; apply happened_inv
  split
  · generalize hq : State.regWrite _ _ _ _ _ = o
    cases o
    · exact h
    · exact State.regWrite_inv _ _ _ _ _ h _ hq
  · exact h
theorem amo_inv : ∀ x0 x1 x2 x3 x4 x5 x6 x7 x8 x9, State.Inv x9 → (∀ t0, (@amo x0 x1 x2 x3 x4 x5 x6 x7 x8 x9) = Host.Outcome.next t0 → State.Inv t0) := by
  intro x0 x1 x2 x3 x4 x5 x6 x7 x8 s h; unfold amo; dsimp only; apply EP.finishMem
  refine EP.bind (EP.scoped _ _ h) fun u hu => EP.bind (EP.releaseIf _ _ _ hu) fun v hv => EP.bind (EP.atomicAt _ _ _ _ _ _ hv) fun q hq => ?_
  obtain ⟨m, w⟩ := q
  cases m
  · exact EP.ok (State.noteG_inv _ _ _ hq)
  · exact EP.ok (State.noteG_inv _ _ _ (State.setG_inv _ _ _ (State.demote_inv _ _ hq)))
theorem execCas_inv : ∀ x0 x1 x2 x3 x4 x5 x6 x7, State.Inv x7 → (∀ t0, (@execCas x0 x1 x2 x3 x4 x5 x6 x7) = Host.Outcome.next t0 → State.Inv t0) := by
  intro x0 x1 x2 x3 x4 x5 x6 s h; unfold execCas; dsimp only; apply EP.finishMem
  refine EP.bind (EP.scoped _ _ h) fun u hu => EP.bind (EP.releaseIf _ _ _ hu) fun v hv => EP.bind (EP.atomicAt _ _ _ _ _ _ hv) fun q hq => ?_
  obtain ⟨m, w⟩ := q
  cases m
  · exact EP.ok (State.noteG_inv _ _ _ hq)
  · exact EP.ok (State.noteG_inv _ _ _ (State.setG_inv _ _ _ (State.demote_inv _ _ hq)))
theorem execCas2_inv : ∀ x0 x1 x2 x3 x4 x5 x6, State.Inv x6 → (∀ t0, (@execCas2 x0 x1 x2 x3 x4 x5 x6) = Host.Outcome.next t0 → State.Inv t0) := by
  intro x0 x1 x2 x3 x4 x5 s h; unfold execCas2; dsimp only; apply EP.finishMem
  refine EP.bind (EP.scoped _ _ h) fun u hu => EP.bind (EP.releaseIf _ _ _ hu) fun v hv => EP.bind (EP.atomicAt _ _ _ _ _ _ hv) fun q hq => ?_
  obtain ⟨m, w⟩ := q
  cases m
  · exact EP.ok (State.noteG_inv _ _ _ (State.noteG_inv _ _ _ hq))
  · exact EP.ok (State.noteG_inv _ _ _ (State.noteG_inv _ _ _ (State.setG_inv _ _ _ (State.setG_inv _ _ _ (State.demote_inv _ _ hq)))))
theorem EP.storeAt (s : State) (a b c) (h : s.Inv) : EP State.Inv (s.storeAt a b c) := ⟨State.storeAt_inv_error _ _ _ _ h, State.storeAt_inv_ok _ _ _ _ h⟩
theorem execStrel_inv : ∀ x0 x1 x2 x3 x4, State.Inv x4 → (∀ t0, (@execStrel x0 x1 x2 x3 x4) = Host.Outcome.next t0 → State.Inv t0) := by
  intro x0 x1 x2 x3 s h; unfold execStrel; dsimp only
  refine postStalls_inv s _ h fun _ => ?_
  apply EP.finishMem
  refine EP.bind (EP.scoped _ _ h) fun u hu => EP.bind (EP.releaseIf _ _ _ hu) fun v hv => ?_
  split
  · exact EP.ok (State.demote_inv _ _ (State.useAnswer_inv _ hv))
  · have hq := EP.storeAt v (s.g x1) (leBytes (atomBytes x3) (s.g x0).toNat) storeClasses hv
    generalize v.storeAt _ _ _ = q at hq ⊢
    cases q with
    | ok w => exact EP.ok (State.demote_inv _ _ (hq.2 _ rfl))
    | error e => obtain ⟨t, w⟩ := e; exact EP.error (hq.1 _ _ rfl)
theorem execFence_inv : ∀ x0 x1 x2 x3, State.Inv x3 → (∀ t0, (@execFence x0 x1 x2 x3) = Host.Outcome.next t0 → State.Inv t0) := by
  intro x0 x1 x2 s h; unfold execFence; apply EP.finishMem
  exact EP.bind (EP.scoped _ _ h) fun u hu => EP.bind (EP.releaseIf _ _ _ hu) fun v hv => EP.ok (State.demote_inv _ _ hv)
theorem execVdrain_inv : ∀ x0 x1 x2 x3 x4, State.Inv x4 → (∀ t0, (@execVdrain x0 x1 x2 x3 x4) = Host.Outcome.next t0 → State.Inv t0) := by
  intro x0 x1 x2 x3 s h; unfold execVdrain; apply EP.finishMem
  refine EP.bind (EP.scoped _ _ h) fun u hu => EP.bind (EP.releaseIf _ _ _ ?_) fun v hv => EP.ok (State.demote_inv _ _ hv)
  split
  · exact hu
  · exact State.completeVecs_inv _ _ hu
theorem EP.issueOp (p : Option Pfx) (k b prep f run) (s : State) (h : s.Inv)
    (hp : EP (fun q : State × VAccess => q.1.Inv) prep) (hr : ∀ t v, t.Inv → EP State.Inv (run t v)) :
    ∀ t, Machine.issueOp p k b prep f run s = .next t → t.Inv := by
  unfold Machine.issueOp
  cases prep with
  | error e => obtain ⟨a, c⟩ := e; exact EP.finishMem _ _ (EP.error (hp.1 _ _ rfl))
  | ok q => obtain ⟨u, v⟩ := q; dsimp only; split
            · intro t e; cases e; exact h
            · exact EP.finishMem _ _ (hr u v (hp.2 _ rfl))
theorem vectorLoad_inv : ∀ x0 x1 x2 x3 x4 x5 x6 x7, State.Inv x7 → (∀ t0, (@vectorLoad x0 x1 x2 x3 x4 x5 x6 x7) = Host.Outcome.next t0 → State.Inv t0) := by
  intro x0 x1 x2 x3 x4 x5 x6 s h; unfold vectorLoad; dsimp only
  exact EP.issueOp _ _ _ _ _ _ _ h (EP.bind (EP.vecCheck _ _ _ _ _ h) fun u hu => EP.ok hu) fun t v ht => EP.vload _ _ _ _ ht
theorem execVldff_inv : ∀ x0 x1 x2 x3 x4 x5, State.Inv x5 → (∀ t0, (@execVldff x0 x1 x2 x3 x4 x5) = Host.Outcome.next t0 → State.Inv t0) := by
  intro x0 x1 x2 x3 x4 s h; unfold execVldff; dsimp only
  have hq := EP.vecCheck s (s.positions == 1) [vreg x1 (8 * 2 ^ x4.toNat)] [] false h
  generalize s.vecCheck (s.positions == 1) [vreg x1 (8 * 2 ^ x4.toNat)] [] false = q at hq ⊢
  cases q with
  | error e => obtain ⟨t, w⟩ := e; exact EP.finishMem _ _ (EP.error (hq.1 _ _ rfl))
  | ok u => exact State.vloadFirst_inv _ _ _ _ (hq.2 _ rfl)
theorem EP.vpost (s : State) (a b c) (h : s.Inv) : EP State.Inv (s.vpost a b c) := ⟨State.vpost_inv_error s a b c h, State.vpost_inv_ok s a b c h⟩
theorem vectorStore_inv : ∀ x0 x1 x2 x3 x4 x5 x6 x7, State.Inv x7 → (∀ t0, (@vectorStore x0 x1 x2 x3 x4 x5 x6 x7) = Host.Outcome.next t0 → State.Inv t0) := by
  intro x0 x1 x2 x3 x4 x5 x6 s h; unfold vectorStore; dsimp only
  exact EP.issueOp _ _ _ _ _ _ _ h (EP.bind (EP.vecCheck _ _ _ _ _ h) fun u hu => EP.ok hu) fun t v ht => EP.vpost _ _ _ _ ht
theorem fetchElems_inv : ∀ x0 x1 x2 x3 x4 x5, State.Inv x4 → State.Inv ((@fetchElems x0 x1 x2 x3 x4 x5)).1 := by
  intro v o x l; induction l with
  | nil => intro s k h; exact h
  | cons e r ih =>
    intro s k h; simp only [fetchElems]; split
    · exact ih _ _ (State.noteElem_inv _ _ _ _ h)
    · split
      · exact ih _ _ (State.setElem_inv _ _ _ _ h)
      · exact ih _ _ h
    · split
      · exact ih _ _ (State.noteElem_inv _ _ _ _ h)
      · rename_i va _
        have h1 := State.reachWrite_inv s (s.elemHall v.per e) v.kind va v.size v.size v.ok h
        generalize s.reachWrite (s.elemHall v.per e) v.kind va v.size v.size v.ok = q at h1 ⊢
        obtain ⟨u, y⟩ := q
        cases y with
        | error t => exact h1
        | ok y => cases y with
          | none => exact ih _ _ (State.noteElem_inv _ _ _ _ h1)
          | some y => exact ih _ _ (State.settleAt_inv _ _ _ h1)
theorem State.fetchAll_inv : ∀ x0 x1 x2 x3 x4 x5, State.Inv x0 → State.Inv ((@State.fetchAll x0 x1 x2 x3 x4 x5)).1 := by
  intro s v o op t l h
  exact foldlP_inv _ _ (fun p a h => fetchOne_inv _ _ _ _ _ _ h) _ h
theorem EP.vfetch (s : State) (v o op t x k) (h : s.Inv) : EP State.Inv (s.vfetch v o op t x k) := by
  unfold State.vfetch
  have h1 := fetchElems_inv v o x s.range s [] h
  generalize fetchElems v o x s.range s [] = q at h1 ⊢
  obtain ⟨u, l, tr⟩ := q
  dsimp only
  split
  · exact EP.done _ _ _ (State.fetchAll_inv u v o op t l h1)
  · rename_i b _
    have h2 := fetchElems_inv v o x (s.range.filter (· < b.e)) s [] h
    generalize fetchElems v o x (s.range.filter (· < b.e)) s [] = q at h2 ⊢
    obtain ⟨w, l', tr'⟩ := q
    exact EP.done _ _ _ (State.fetchAll_inv _ v o op t l' (State.logUpdate_inv _ _ _ _ _ h2))
theorem vamo_inv : ∀ x0 x1 x2 x3, State.Inv x3 → (∀ t0, (@vamo x0 x1 x2 x3) = Host.Outcome.next t0 → State.Inv t0) := by
  intro op ok o s h; unfold vamo; dsimp only
  refine EP.issueOp _ _ _ _ _ _ _ h (EP.bind (EP.vecCheck _ _ _ _ _ h) fun u hu => EP.ok hu) fun t v ht => ?_
  split
  · exact EP.vfetch _ _ _ _ _ _ _ ht
  · exact EP.vpost _ _ _ _ ht
theorem execVspill_inv : ∀ x0 x1 x2 x3, State.Inv x3 → (∀ t0, (@execVspill x0 x1 x2 x3) = Host.Outcome.next t0 → State.Inv t0) := by
  intro p d a s h; unfold execVspill
  refine EP.issueOp _ _ _ _ _ _ _ h (EP.bind (EP.needClaim _ h) fun u hu => EP.bind (EP.aligned64 _ _ hu) fun v hv => EP.ok hv) fun t v ht => ?_
  exact EP.done _ _ _ (State.issueReqs_inv _ _ _ (postElems_inv _ _ _ _ ht))
theorem execVfill_inv : ∀ x0 x1 x2 x3, State.Inv x3 → (∀ t0, (@execVfill x0 x1 x2 x3) = Host.Outcome.next t0 → State.Inv t0) := by
  intro p d a s h; unfold execVfill; apply EP.finishMem
  refine EP.bind (EP.needClaim _ h) fun u hu => EP.bind (EP.aligned64 _ _ hu) fun v hv => ?_
  dsimp only
  refine EP.bind (EP.done _ _ _ ?_) fun w hw => EP.ok ?_
  · apply runElems_inv
    · intro r e hr; exact loadElem_inv _ _ _ _ _ hr
    · exact hv
  · split
    · exact hw
    · exact State.onHart_inv w _ hw
theorem execZspill_inv : ∀ x0 x1 x2 x3, State.Inv x3 → (∀ t0, (@execZspill x0 x1 x2 x3) = Host.Outcome.next t0 → State.Inv t0) := by
  intro p d a s h; unfold execZspill
  refine EP.issueOp _ _ _ _ _ _ _ h (EP.bind (EP.needShare _ h) fun u hu => EP.bind (EP.aligned64 _ _ hu) fun v hv => EP.ok hv) fun t v ht => ?_
  exact EP.done _ _ _ (State.issueReqs_inv _ _ _ (postRows_inv _ _ _ (fun i t ht => postElems_inv _ _ _ _ ht) ht))
theorem execZdep_inv : ∀ x0 x1 x2 x3 x4 x5, State.Inv x5 → (∀ t0, (@execZdep x0 x1 x2 x3 x4 x5) = Host.Outcome.next t0 → State.Inv t0) := by
  intro q d a b m s h; unfold execZdep; dsimp only
  refine EP.issueOp _ _ _ _ _ _ _ h (EP.bind (EP.needShare _ h) fun u hu => EP.bind (EP.vecCheck _ _ _ _ _ hu) fun v hv =>
    EP.bind (EP.require _ _ _ hv) fun w hw => EP.ok hw) fun t v ht => ?_
  refine EP.done _ _ _ (State.issueReqs_inv _ _ _ (postRows_inv _ _ _ (fun i t ht => ?_) ht))
  split
  · exact ht
  · exact State.depositRow_inv _ _ _ _ ht
theorem engPut_inv : ∀ x0 x1 x2 x3, State.Inv x3 → State.Inv ((@engPut x0 x1 x2 x3)).1 := by
  intro c n l; induction l with
  | nil => intro s h; exact h
  | cons e r ih =>
    intro s h; obtain ⟨pa, va, bs⟩ := e; simp only [engPut]
    split
    · rename_i e; exact State.writeHome_inv_error _ _ _ _ _ h _ e
    · rename_i e; exact ih _ (State.countBy_inv _ _ _ _ (State.writeHome_inv_ok _ _ _ _ _ h _ e))
theorem State.engStore_inv : ∀ x0 x1 x2 x3 x4, State.Inv x0 → State.Inv ((@State.engStore x0 x1 x2 x3 x4)).1 := by
  intro s c n va bs h; unfold State.engStore; dsimp only
  have h1 := engTargets_inv c (piecesOf va bs.length) s h
  generalize engTargets c (piecesOf va bs.length) s = q at h1 ⊢
  obtain ⟨u, l, e⟩ := q
  cases e with
  | none => exact engPut_inv _ _ _ _ h1
  | some e => dsimp only; split
              · exact engPut_inv _ _ _ { u with fresh := u.fresh + 1 } h1
              · exact h1
theorem State.engWrite_inv : ∀ x0 x1 x2 x3, State.Inv x0 → State.Inv ((@State.engWrite x0 x1 x2 x3)).1 :=
  fun s c va bs h => State.engStore_inv s c _ va bs h
theorem looseRows_inv : ∀ x0 x1 x2 x3, State.Inv x2 → State.Inv ((@looseRows x0 x1 x2 x3)).1 := by
  intro i l; induction l with
  | nil => intro s k h; exact h
  | cons e r ih =>
    intro s k h; simp only [looseRows]
    split
    · exact h
    · rename_i c _
      split
      · exact h
      · have h1 := State.copyIndex_inv s c e h
        generalize s.copyIndex c e = q at h1 ⊢
        obtain ⟨u, y⟩ := q
        cases y with
        | error x => exact ih _ _ (State.settlePos_inv _ _ _ _ _ h1)
        | ok x =>
          dsimp only
          have h2 := State.engRead_inv u c (c.copySrc x) c.copyBytes h1
          generalize u.engRead c (c.copySrc x) c.copyBytes = q at h2 ⊢
          obtain ⟨w, y⟩ := q
          cases y with
          | error x => exact ih _ _ (State.settlePos_inv _ _ _ _ _ h2)
          | ok bs =>
            dsimp only
            have h3 := engTargets_inv c (piecesOf (c.copyDst e) c.copyBytes) w h2
            generalize engTargets c (piecesOf (c.copyDst e) c.copyBytes) w = q at h3 ⊢
            obtain ⟨w', l', y⟩ := q
            cases y with
            | none => exact ih _ _ h3
            | some y =>
              dsimp only
              have h4 := State.engWrite_inv w' c (c.copyDst e) bs h3
              generalize w'.engWrite c (c.copyDst e) bs = q at h4 ⊢
              exact ih _ _ (State.settlePos_inv _ _ _ _ _ h4)
theorem windowLines_inv : ∀ x0 x1 x2, State.Inv x2 → State.Inv ((@windowLines x0 x1 x2)).1 := by
  intro c l; induction l generalizing c with
  | nil => intro s h; exact h
  | cons i r ih =>
    intro s h; simp only [windowLines]
    have h1 := windowLine_inv s c i h
    generalize windowLine s c i = q at h1 ⊢
    obtain ⟨u, x, e⟩ := q
    cases x with
    | some x => exact ih _ _ h1
    | none => cases e with
      | none => exact ih _ _ h1
      | some e => exact ih _ _ h1
theorem aheadRange_inv : ∀ x0 x1 x2, State.Inv x2 → State.Inv (@aheadRange x0 x1 x2) := by
  intro b l; induction l with
  | nil => intro s h; exact h
  | cons e r ih => intro s h; exact ih _ (State.reach_inv _ _ _ _ _ _ _ h)
theorem depositLines_inv : ∀ x0 x1 x2 x3 x4 x5 x6, State.Inv x6 → State.Inv ((@depositLines x0 x1 x2 x3 x4 x5 x6)).1 := by
  intro c n w va l ls; induction ls with
  | nil => intro s h; exact h
  | cons e r ih =>
    intro s h; simp only [depositLines]
    split
    · exact State.logRefusal_inv _ _ _ _ _ h
    · have h1 := State.wellDeposit_inv s w e ((l.filter fun p => p.1 == e).map (·.2)) h
      generalize s.wellDeposit w e ((l.filter fun p => p.1 == e).map (·.2)) = q at h1 ⊢
      obtain ⟨u, y⟩ := q
      cases y
      · exact ih _ (State.countBy_inv _ _ _ _ h1)
      · exact h1
theorem execBarinit_inv : ∀ x0 x1 x2 x3, State.Inv x3 → (∀ t0, (@execBarinit x0 x1 x2 x3) = Host.Outcome.next t0 → State.Inv t0) := by
  intro a b sc s h; unfold execBarinit; apply finish4_inv
  show EP State.Inv _
  refine EP.bind (EP.scoped _ _ h) fun u hu => ?_
  have : EP (fun _ : BarRef => True) (u.openBarrier (s.g a)) := ⟨State.openBarrier_inv _ _ hu, fun _ _ => trivial⟩
  refine EP.bind this fun r _ => ?_
  dsimp only; split
  · exact EP.error hu
  · exact EP.ok (State.setBarrier_inv _ _ _ (State.demote_inv _ _ hu))
theorem armFrom_inv : ∀ x0 x1 x2, State.Inv x2 → State.Inv ((@armFrom x0 x1 x2)).1 := by
  intro v l; induction l with
  | nil => intro s h; exact h
  | cons e r ih =>
    intro s h; simp only [armFrom]
    split
    · rename_i va _ _
      have h1 := State.reach_inv s (s.elemHall v.per e) v.kind va v.size v.size v.ok h
      generalize s.reach (s.elemHall v.per e) v.kind va v.size v.size v.ok = q at h1 ⊢
      obtain ⟨u, y⟩ := q
      rcases y with _ | (_ | x)
      · exact h1
      · exact ih _ h1
      · dsimp only; split
        · exact ih _ h1
        · split
          · exact h1
          · split
            · exact State.logRefusal_inv _ _ _ _ _ h1
            · have h2 := State.askBank_inv u x.pa h1
              generalize u.askBank x.pa = q at h2 ⊢
              obtain ⟨w, y⟩ := q
              cases y
              · exact ih _ (State.armEntry_inv _ _ _ h2)
              · exact h2
              · exact h2
    · exact ih _ h
theorem execLaunch_inv : ∀ x0 x1 x2 x3 x4, State.Inv x4 → (∀ t0, (@execLaunch x0 x1 x2 x3 x4) = Host.Outcome.next t0 → State.Inv t0) := by
  intro d a b sc s h; unfold execLaunch; dsimp only; apply EP.finishMem
  refine EP.bind (EP.scoped _ _ h) fun u hu => EP.bind (EP.releaseIf _ _ _ hu) fun v hv => ?_
  have h1 := State.loadAt_inv v (s.g a) 128 128 onlyNrm [64, 64] hv
  generalize v.loadAt (s.g a) 128 128 onlyNrm [64, 64] = q at h1 ⊢
  obtain ⟨w, y⟩ := q
  cases y <;> dsimp only
  · split
    · exact EP.ok (State.noteG_inv _ _ _ h1)
    · split
      · exact EP.ok (State.setG_inv _ _ _ (State.demote_inv _ _ h1))
      · exact EP.ok (State.setG_inv _ _ _ (State.enqueue_inv _ _ _ _ (State.demote_inv _ _ h1)))
  all_goals first | exact EP.ok (State.noteG_inv _ _ _ h1) | exact EP.error h1
theorem execVapnd_inv : ∀ x0 x1 x2 x3 x4 x5 x6 x7, State.Inv x7 → (∀ t0, (@execVapnd x0 x1 x2 x3 x4 x5 x6 x7) = Host.Outcome.next t0 → State.Inv t0) := by
  intro p d a b c m k s h; unfold execVapnd; dsimp only
  refine EP.issueOp _ _ _ _ _ _ _ h (EP.bind (EP.vecCheck _ _ _ _ _ h) fun u hu => EP.ok hu) fun t v ht => ?_
  split
  · exact EP.ok (State.setVstart_inv _ _ (State.noteG_inv _ _ _ ht))
  · have h1 := State.reach_inv t t.myHall .rmw (s.g a) 1 1 onlyInk ht
    generalize t.reach t.myHall .rmw (s.g a) 1 1 onlyInk = q at h1 ⊢
    obtain ⟨u, y⟩ := q
    cases y with
    | error e => exact EP.error h1
    | ok x =>
      dsimp only
      split
      · exact ⟨State.vapnd_inv_error _ _ _ _ _ _ _ h1, State.vapnd_inv_ok _ _ _ _ _ _ _ h1⟩
      · exact EP.ok (State.setVstart_inv _ _ (State.aheadAppend_inv _ _ _ h1))
theorem execSealPage_inv : ∀ x0 x1 x2 x3 x4, State.Inv x4 → (∀ t0, (@execSealPage x0 x1 x2 x3 x4) = Host.Outcome.next t0 → State.Inv t0) := by
  intro p sc a k s h; unfold execSealPage; dsimp only
  refine EP.issueOp _ _ _ _ _ _ _ h (EP.bind (EP.scoped _ _ h) fun u hu => EP.ok hu) fun t v ht => ?_
  split
  · exact EP.ok (State.setVstart_inv _ _ ht)
  · have h1 := State.reach_inv t t.myHall .store (s.g a) 1 1 onlyInk ht
    generalize t.reach t.myHall .store (s.g a) 1 1 onlyInk = q at h1 ⊢
    obtain ⟨u, y⟩ := q
    cases y with
    | error e => exact EP.error h1
    | ok x =>
      dsimp only
      split
      · have h2 : EP State.Inv (u.release (u.scopeRun sc)) := State.release_inv _ _ h1
        generalize u.release (u.scopeRun sc) = q at h2 ⊢
        cases q with
        | error e => obtain ⟨t, w⟩ := e; exact EP.error (h2.1 _ _ rfl)
        | ok w => exact EP.ok (State.setVstart_inv _ _ (State.sealAt_inv _ _ _ _ (State.demote_inv _ _ (h2.2 _ rfl))))
      · exact EP.ok (State.setVstart_inv _ _ h1)
theorem execWinit_inv : ∀ x0 x1 x2 x3 x4 x5 x6, State.Inv x6 → (∀ t0, (@execWinit x0 x1 x2 x3 x4 x5 x6) = Host.Outcome.next t0 → State.Inv t0) := by
  intro x0 x1 x2 x3 x4 x5 s h; unfold execWinit; dsimp only
  exact EP.issueOp _ _ _ _ _ _ _ h (EP.bind (EP.vecCheck _ _ _ _ _ h) fun u hu => EP.ok hu) fun t v ht => EP.vpost _ _ _ _ ht
theorem EP.wellBase (s : State) (k a f) (h : s.Inv) : EP (fun p : State × Option Class => p.1.Inv) (s.wellBase k a f) := by
  unfold State.wellBase; split
  · exact EP.ok h
  · split
    · exact EP.ok h
    · have h1 := State.reach_inv s s.myHall k (s.g a) 1 1 wellClasses h
      generalize s.reach s.myHall k (s.g a) 1 1 wellClasses = q at h1 ⊢
      obtain ⟨u, y⟩ := q
      cases y
      · exact EP.error (State.setVstart_inv _ _ h1)
      · exact EP.ok h1
theorem wellDepositOp_inv : ∀ x0 x1 x2 x3 x4 x5 x6 x7 x8, State.Inv x8 → (∀ t0, (@wellDepositOp x0 x1 x2 x3 x4 x5 x6 x7 x8) = Host.Outcome.next t0 → State.Inv t0) := by
  intro x0 x1 x2 x3 x4 x5 x6 x7 s h; unfold wellDepositOp; dsimp only
  exact EP.issueOp _ _ _ _ _ _ _ h (EP.bind (EP.vecCheck _ _ _ _ _ h) fun u hu => EP.bind (EP.wellBase _ _ _ _ hu) fun q hq => EP.ok hq) fun t v ht => EP.vpost _ _ _ _ ht
theorem wellElems_inv : ∀ x0 x1 x2 x3 x4, State.Inv x3 → State.Inv ((@wellElems x0 x1 x2 x3 x4)).1 := by
  intro v o l; induction l with
  | nil => intro s k h; exact h
  | cons e r ih =>
    intro s k h; simp only [wellElems]
    split
    · exact ih _ _ (State.noteElem_inv _ _ _ _ h)
    · split
      · exact ih _ _ (State.setElem_inv _ _ _ _ h)
      · exact ih _ _ h
    · split
      · exact ih _ _ (State.noteElem_inv _ _ _ _ h)
      · rename_i va _
        have h1 := State.reach_inv s (s.elemHall v.per e) v.kind va v.size v.size v.ok h
        generalize s.reach (s.elemHall v.per e) v.kind va v.size v.size v.ok = q at h1 ⊢
        obtain ⟨u, y⟩ := q
        rcases y with _ | (_ | x)
        · exact h1
        · exact ih _ _ (State.noteElem_inv _ _ _ _ h1)
        · dsimp only; split
          · exact ih _ _ (State.noteElem_inv _ _ _ _ h1)
          · exact ih _ _ (State.settleAt_inv _ _ _ h1)

end Sys2Proof.Machine
end

