-- ==== Sys2Proof/Laws/Keeps6.lean ====
section
/-! SUPPORT. Keeps6.lean: every operation keeps State.Inv, part 6 of 6, in the order of the model's files. A lemma is
named after its operation, with _inv; _error and _ok where the operation may end in a trap. -/

namespace Sys2Proof.Machine

set_option maxRecDepth 40000
set_option linter.all false
set_option Elab.async false

theorem execResumption_inv : ∀ x0 x1 x2 x3 x4 x5, State.Inv x5 → (∀ t0, (@execResumption x0 x1 x2 x3 x4 x5) = Host.Outcome.next t0 → State.Inv t0) := by
  intro x0 x1 x2 x3 x4 x5 h0; unfold execResumption; grind [happened_inv, State.resumption_inv, foldl_inv, State.Inv]
theorem execAmoadd_inv : ∀ x0 x1 x2 x3 x4 x5 x6 x7, State.Inv x7 → (∀ t0, (@execAmoadd x0 x1 x2 x3 x4 x5 x6 x7) = Host.Outcome.next t0 → State.Inv t0) := by
  intro x0 x1 x2 x3 x4 x5 x6 x7 h0; unfold execAmoadd; grind [amo_inv, foldl_inv, State.Inv]
theorem execAmoand_inv : ∀ x0 x1 x2 x3 x4 x5 x6 x7, State.Inv x7 → (∀ t0, (@execAmoand x0 x1 x2 x3 x4 x5 x6 x7) = Host.Outcome.next t0 → State.Inv t0) := by
  intro x0 x1 x2 x3 x4 x5 x6 x7 h0; unfold execAmoand; grind [amo_inv, foldl_inv, State.Inv]
theorem execAmoor_inv : ∀ x0 x1 x2 x3 x4 x5 x6 x7, State.Inv x7 → (∀ t0, (@execAmoor x0 x1 x2 x3 x4 x5 x6 x7) = Host.Outcome.next t0 → State.Inv t0) := by
  intro x0 x1 x2 x3 x4 x5 x6 x7 h0; unfold execAmoor; grind [amo_inv, foldl_inv, State.Inv]
theorem execAmoxor_inv : ∀ x0 x1 x2 x3 x4 x5 x6 x7, State.Inv x7 → (∀ t0, (@execAmoxor x0 x1 x2 x3 x4 x5 x6 x7) = Host.Outcome.next t0 → State.Inv t0) := by
  intro x0 x1 x2 x3 x4 x5 x6 x7 h0; unfold execAmoxor; grind [amo_inv, foldl_inv, State.Inv]
theorem execAmomin_inv : ∀ x0 x1 x2 x3 x4 x5 x6 x7, State.Inv x7 → (∀ t0, (@execAmomin x0 x1 x2 x3 x4 x5 x6 x7) = Host.Outcome.next t0 → State.Inv t0) := by
  intro x0 x1 x2 x3 x4 x5 x6 x7 h0; unfold execAmomin; grind [amo_inv, foldl_inv, State.Inv]
theorem execAmomax_inv : ∀ x0 x1 x2 x3 x4 x5 x6 x7, State.Inv x7 → (∀ t0, (@execAmomax x0 x1 x2 x3 x4 x5 x6 x7) = Host.Outcome.next t0 → State.Inv t0) := by
  intro x0 x1 x2 x3 x4 x5 x6 x7 h0; unfold execAmomax; grind [amo_inv, foldl_inv, State.Inv]
theorem execAmominn_inv : ∀ x0 x1 x2 x3 x4 x5 x6 x7, State.Inv x7 → (∀ t0, (@execAmominn x0 x1 x2 x3 x4 x5 x6 x7) = Host.Outcome.next t0 → State.Inv t0) := by
  intro x0 x1 x2 x3 x4 x5 x6 x7 h0; unfold execAmominn; grind [amo_inv, foldl_inv, State.Inv]
theorem execAmomaxn_inv : ∀ x0 x1 x2 x3 x4 x5 x6 x7, State.Inv x7 → (∀ t0, (@execAmomaxn x0 x1 x2 x3 x4 x5 x6 x7) = Host.Outcome.next t0 → State.Inv t0) := by
  intro x0 x1 x2 x3 x4 x5 x6 x7 h0; unfold execAmomaxn; grind [amo_inv, foldl_inv, State.Inv]
theorem execAmoswp_inv : ∀ x0 x1 x2 x3 x4 x5 x6 x7, State.Inv x7 → (∀ t0, (@execAmoswp x0 x1 x2 x3 x4 x5 x6 x7) = Host.Outcome.next t0 → State.Inv t0) := by
  intro x0 x1 x2 x3 x4 x5 x6 x7 h0; unfold execAmoswp; grind [amo_inv, foldl_inv, State.Inv]
theorem execAmofadd_inv : ∀ x0 x1 x2 x3 x4 x5 x6 x7, State.Inv x7 → (∀ t0, (@execAmofadd x0 x1 x2 x3 x4 x5 x6 x7) = Host.Outcome.next t0 → State.Inv t0) := by
  intro x0 x1 x2 x3 x4 x5 x6 x7 h0; unfold execAmofadd; grind [amo_inv, foldl_inv, State.Inv]
theorem execVld_inv : ∀ x0 x1 x2 x3 x4 x5 x6, State.Inv x6 → (∀ t0, (@execVld x0 x1 x2 x3 x4 x5 x6) = Host.Outcome.next t0 → State.Inv t0) := by
  intro x0 x1 x2 x3 x4 x5 x6 h0; unfold execVld; grind [vectorLoad_inv, foldl_inv, State.Inv]
theorem execVlds_inv : ∀ x0 x1 x2 x3 x4 x5 x6 x7, State.Inv x7 → (∀ t0, (@execVlds x0 x1 x2 x3 x4 x5 x6 x7) = Host.Outcome.next t0 → State.Inv t0) := by
  intro x0 x1 x2 x3 x4 x5 x6 x7 h0; unfold execVlds; grind [vectorLoad_inv, foldl_inv, State.Inv]
theorem execVldx_inv : ∀ x0 x1 x2 x3 x4 x5 x6 x7 x8, State.Inv x8 → (∀ t0, (@execVldx x0 x1 x2 x3 x4 x5 x6 x7 x8) = Host.Outcome.next t0 → State.Inv t0) := by
  intro x0 x1 x2 x3 x4 x5 x6 x7 x8 h0; unfold execVldx; grind [vectorLoad_inv, foldl_inv, State.Inv]
theorem execVst_inv : ∀ x0 x1 x2 x3 x4 x5 x6 x7, State.Inv x7 → (∀ t0, (@execVst x0 x1 x2 x3 x4 x5 x6 x7) = Host.Outcome.next t0 → State.Inv t0) := by
  intro x0 x1 x2 x3 x4 x5 x6 x7 h0; unfold execVst; grind [vectorStore_inv, foldl_inv, State.Inv]
theorem execVsts_inv : ∀ x0 x1 x2 x3 x4 x5 x6 x7 x8, State.Inv x8 → (∀ t0, (@execVsts x0 x1 x2 x3 x4 x5 x6 x7 x8) = Host.Outcome.next t0 → State.Inv t0) := by
  intro x0 x1 x2 x3 x4 x5 x6 x7 x8 h0; unfold execVsts; grind [vectorStore_inv, foldl_inv, State.Inv]
theorem execVstx_inv : ∀ x0 x1 x2 x3 x4 x5 x6 x7 x8, State.Inv x8 → (∀ t0, (@execVstx x0 x1 x2 x3 x4 x5 x6 x7 x8) = Host.Outcome.next t0 → State.Inv t0) := by
  intro x0 x1 x2 x3 x4 x5 x6 x7 x8 h0; unfold execVstx; grind [vectorStore_inv, foldl_inv, State.Inv]
theorem execVamoadd_inv : ∀ x0 x1, State.Inv x1 → (∀ t0, (@execVamoadd x0 x1) = Host.Outcome.next t0 → State.Inv t0) := by
  intro x0 x1 h0; unfold execVamoadd; grind [vamo_inv, foldl_inv, State.Inv]
theorem execVamoand_inv : ∀ x0 x1, State.Inv x1 → (∀ t0, (@execVamoand x0 x1) = Host.Outcome.next t0 → State.Inv t0) := by
  intro x0 x1 h0; unfold execVamoand; grind [vamo_inv, foldl_inv, State.Inv]
theorem execVamoor_inv : ∀ x0 x1, State.Inv x1 → (∀ t0, (@execVamoor x0 x1) = Host.Outcome.next t0 → State.Inv t0) := by
  intro x0 x1 h0; unfold execVamoor; grind [vamo_inv, foldl_inv, State.Inv]
theorem execVamoxor_inv : ∀ x0 x1, State.Inv x1 → (∀ t0, (@execVamoxor x0 x1) = Host.Outcome.next t0 → State.Inv t0) := by
  intro x0 x1 h0; unfold execVamoxor; grind [vamo_inv, foldl_inv, State.Inv]
theorem execVamomin_inv : ∀ x0 x1, State.Inv x1 → (∀ t0, (@execVamomin x0 x1) = Host.Outcome.next t0 → State.Inv t0) := by
  intro x0 x1 h0; unfold execVamomin; grind [vamo_inv, foldl_inv, State.Inv]
theorem execVamomax_inv : ∀ x0 x1, State.Inv x1 → (∀ t0, (@execVamomax x0 x1) = Host.Outcome.next t0 → State.Inv t0) := by
  intro x0 x1 h0; unfold execVamomax; grind [vamo_inv, foldl_inv, State.Inv]
theorem execVamominn_inv : ∀ x0 x1, State.Inv x1 → (∀ t0, (@execVamominn x0 x1) = Host.Outcome.next t0 → State.Inv t0) := by
  intro x0 x1 h0; unfold execVamominn; grind [vamo_inv, foldl_inv, State.Inv]
theorem execVamomaxn_inv : ∀ x0 x1, State.Inv x1 → (∀ t0, (@execVamomaxn x0 x1) = Host.Outcome.next t0 → State.Inv t0) := by
  intro x0 x1 h0; unfold execVamomaxn; grind [vamo_inv, foldl_inv, State.Inv]
theorem execVamofadd_inv : ∀ x0 x1, State.Inv x1 → (∀ t0, (@execVamofadd x0 x1) = Host.Outcome.next t0 → State.Inv t0) := by
  intro x0 x1 h0; unfold execVamofadd; grind [vamo_inv, foldl_inv, State.Inv]
theorem execVamofmin_inv : ∀ x0 x1, State.Inv x1 → (∀ t0, (@execVamofmin x0 x1) = Host.Outcome.next t0 → State.Inv t0) := by
  intro x0 x1 h0; unfold execVamofmin; grind [vamo_inv, foldl_inv, State.Inv]
theorem execVamofmax_inv : ∀ x0 x1, State.Inv x1 → (∀ t0, (@execVamofmax x0 x1) = Host.Outcome.next t0 → State.Inv t0) := by
  intro x0 x1 h0; unfold execVamofmax; grind [vamo_inv, foldl_inv, State.Inv]
theorem execVamoswp_inv : ∀ x0 x1, State.Inv x1 → (∀ t0, (@execVamoswp x0 x1) = Host.Outcome.next t0 → State.Inv t0) := by
  intro x0 x1 h0; unfold execVamoswp; grind [vamo_inv, foldl_inv, State.Inv]
theorem copyRow_inv : ∀ x0 x1 x2, State.Inv x0 → State.Inv (@copyRow x0 x1 x2) := by
  intro x0 x1 x2 h0; unfold copyRow; grind [State.copyIndex_inv, State.settlePos_inv, State.engRead_inv, State.engWrite_inv, foldl_inv, State.Inv]
theorem copyByte_inv : ∀ x0 x1 x2 x3, State.Inv x3 → State.Inv (@copyByte x0 x1 x2 x3) := by
  intro x0 x1 x2 x3 h0; unfold copyByte; grind [State.engPeek_inv, State.engWrite_inv, foldl_inv, State.Inv]
theorem State.copyLoose_inv : ∀ x0 x1 x2, State.Inv x0 → State.Inv (@State.copyLoose x0 x1 x2) := by
  intro x0 x1 x2 h0; unfold State.copyLoose; grind [looseRows_inv, State.resolveStuck_inv, copyByte_inv, State.settlePos_inv, foldl_inv, State.Inv]
theorem ixgRow_inv : ∀ x0 x1 x2, State.Inv x0 → State.Inv (@ixgRow x0 x1 x2) := by
  intro x0 x1 x2 h0; unfold ixgRow; grind [State.settlePos_inv, State.engRead_inv, State.engWrite_inv, foldl_inv, State.Inv]
theorem execIxgRemoteRowRequest_inv : ∀ x0 x1 x2, State.Inv x2 → (∀ t0, (@execIxgRemoteRowRequest x0 x1 x2) = Host.Outcome.next t0 → State.Inv t0) := by
  intro x0 x1 x2 h0; unfold execIxgRemoteRowRequest; grind [happened_inv, State.eachPos_inv, State.readBatch_inv, State.fixRoot_inv, ixgRow_inv, foldl_inv, State.Inv]
theorem State.runBatch_inv : ∀ x0 x1, State.Inv x0 → State.Inv (@State.runBatch x0 x1) := by
  intro x0 x1 h0; unfold State.runBatch; grind [State.readBatch_inv, State.eachPos_inv, ixgRow_inv, foldl_inv, State.Inv]
theorem State.writeFault_inv : ∀ x0 x1, State.Inv x0 → State.Inv (@State.writeFault x0 x1) := by
  intro x0 x1 h0; unfold State.writeFault; grind [State.engWrite_inv, foldl_inv, State.Inv]
theorem State.complete_inv : ∀ x0 x1, State.Inv x0 → State.Inv (@State.complete x0 x1) := by
  intro x0 x1 h0; unfold State.complete; grind [State.writeFault_inv, State.deliver_inv, State.leaveRun_inv, foldl_inv, State.Inv]
theorem State.openWindow_inv : ∀ x0 x1 x2 x3 x4 x5 x6, State.Inv x0 → State.Inv (@State.openWindow x0 x1 x2 x3 x4 x5 x6) := by
  intro x0 x1 x2 x3 x4 x5 x6 h0; unfold State.openWindow; grind [State.settleAll_inv, windowLines_inv, State.onHall_inv, State.issued_inv, State.setG_inv, foldl_inv, State.Inv]
theorem execRowin_inv : ∀ x0 x1 x2 x3 x4 x5, State.Inv x5 → (∀ t0, (@execRowin x0 x1 x2 x3 x4 x5) = Host.Outcome.next t0 → State.Inv t0) := by
  intro x0 x1 x2 x3 x4 x5 h0; unfold execRowin; grind [State.takeTrap_inv, State.scoped_inv_error, State.scoped_inv_ok, aheadRange_inv, State.retire_inv, State.noteG_inv, State.setG_inv, State.openWindow_inv, State.demote_inv, foldl_inv, State.Inv]
theorem State.fillWindow_inv : ∀ x0 x1, State.Inv x0 → State.Inv (@State.fillWindow x0 x1) := by
  intro x0 x1 h0; unfold State.fillWindow; grind [State.fillLine_inv, State.eachPos_inv, fillHeld_inv, State.complete_inv, foldl_inv, State.Inv]
theorem execRowinFillDone_inv : ∀ x0 x1, State.Inv x1 → (∀ t0, (@execRowinFillDone x0 x1) = Host.Outcome.next t0 → State.Inv t0) := by
  intro x0 x1 h0; unfold execRowinFillDone; grind [happened_inv, State.fillWindow_inv, foldl_inv, State.Inv]
theorem State.engDeposit_inv : ∀ x0 x1 x2 x3 x4, State.Inv x0 → State.Inv ((@State.engDeposit x0 x1 x2 x3 x4)).1 := by
  intro x0 x1 x2 x3 x4 h0; unfold State.engDeposit; grind [State.engXlate_inv, depositSites_inv, depositLines_inv, foldl_inv, State.Inv]
theorem flightMove_inv : ∀ x0 x1 x2, State.Inv x0 → State.Inv (@flightMove x0 x1 x2) := by
  intro x0 x1 x2 h0; unfold flightMove; grind [State.rankBase_inv, State.settlePos_inv, State.engRead_inv, State.engPeek_inv, State.engStore_inv, State.engDeposit_inv, foldl_inv, State.Inv]
theorem applyPiece_inv : ∀ x0 x1 x2 x3 x4 x5 x6, State.Inv x4 → State.Inv ((@applyPiece x0 x1 x2 x3 x4 x5 x6)).1 := by
  intro x0 x1 x2 x3 x4 x5 x6 h0; unfold applyPiece; grind [State.engPeek_inv, State.setFlightAcc_inv, State.engStore_inv, foldl_inv, State.Inv]
theorem applyPieces_inv : ∀ x0 x1 x2 x3 x4 x5, State.Inv x5 → State.Inv ((@applyPieces x0 x1 x2 x3 x4 x5)).1 := by
  intro c p b k l; induction l with
  | nil => intro s h; exact h
  | cons e r ih =>
    intro s h; obtain ⟨a, x⟩ := e; simp only [applyPieces]
    have h1 := applyPiece_inv c p b k s a x h
    generalize applyPiece c p b k s a x = q at h1 ⊢
    obtain ⟨u, y⟩ := q
    cases y
    · exact ih _ h1
    · exact h1
theorem State.giveTo_inv : ∀ x0 x1 x2 x3 x4, State.Inv x0 → State.Inv (@State.giveTo x0 x1 x2 x3 x4) := by
  intro x0 x1 x2 x3 x4 h0; simp only [State.giveTo, bind, Except.bind, pure, Except.pure]; (repeat' split) <;> grind [State.rankBase_inv, State.failGive_inv, State.engLanding_inv, State.sentElems_inv, applyPieces_inv, State.count_inv, State.settlePos_inv, foldl_inv, State.Inv]
theorem contribute_inv : ∀ x0 x1 x2, State.Inv x0 → State.Inv (@contribute x0 x1 x2) := by
  intro x0 x1 x2 h0; unfold contribute; grind [State.onCmd_inv, State.digestClash_inv, State.giveTo_inv, foldl_inv, State.Inv]
theorem State.flightGive_inv : ∀ x0 x1 x2 x3, State.Inv x0 → State.Inv (@State.flightGive x0 x1 x2 x3) := by
  intro x0 x1 x2 x3 h0; unfold State.flightGive; grind [State.eachPos_inv, contribute_inv, foldl_inv, State.Inv]
theorem State.transfer_inv : ∀ x0 x1 x2, State.Inv x0 → State.Inv (@State.transfer x0 x1 x2) := by
  intro x0 x1 x2 h0; unfold State.transfer; grind [State.eachPos_inv, contribute_inv, flightMove_inv, foldl_inv, State.Inv]
theorem execFlightTransfer_inv : ∀ x0 x1 x2, State.Inv x2 → (∀ t0, (@execFlightTransfer x0 x1 x2) = Host.Outcome.next t0 → State.Inv t0) := by
  intro x0 x1 x2 h0; unfold execFlightTransfer; grind [happened_inv, State.transfer_inv, foldl_inv, State.Inv]
theorem State.runTransfers_inv : ∀ x0 x1, State.Inv x0 → State.Inv (@State.runTransfers x0 x1) := by
  intro x0 x1 h0; unfold State.runTransfers; grind [State.transfer_inv, foldl_inv, State.Inv]
theorem State.runFlight_inv : ∀ x0 x1, State.Inv x0 → State.Inv (@State.runFlight x0 x1) := by
  intro x0 x1 h0; unfold State.runFlight; grind [State.runTransfers_inv, State.complete_inv, foldl_inv, State.Inv]
theorem State.collWrite_inv : ∀ x0 x1 x2 x3, State.Inv x0 → State.Inv (@State.collWrite x0 x1 x2 x3) := by
  intro x0 x1 x2 x3 h0; unfold State.collWrite; (repeat' split) <;> grind [State.settleElems_inv, State.oldHalf_inv, State.engStore_inv, foldl_inv, State.Inv]
theorem State.collDeposit_inv : ∀ x0 x1 x2 x3 x4 x5, State.Inv x0 → State.Inv (@State.collDeposit x0 x1 x2 x3 x4 x5) := by
  intro x0 x1 x2 x3 x4 x5 h0; unfold State.collDeposit; grind [State.engDeposit_inv, State.settlePos_inv, State.keepAcc_inv, foldl_inv, State.Inv]
theorem State.collDeliver_inv : ∀ x0 x1 x2 x3, State.Inv x0 → State.Inv (@State.collDeliver x0 x1 x2 x3) := by
  intro x0 x1 x2 x3 h0; unfold State.collDeliver; grind [State.abortRun_inv, State.collDeposit_inv, State.collWrite_inv, foldl_inv, State.Inv]
theorem State.collGive_inv : ∀ x0 x1 x2 x3, State.Inv x0 → State.Inv (@State.collGive x0 x1 x2 x3) := by
  intro x0 x1 x2 x3 h0; unfold State.collGive; grind [State.resolveStuck_inv, State.collRead_inv, State.collDeliver_inv, foldl_inv, State.Inv]
theorem execRruContribution_inv : ∀ x0 x1 x2 x3, State.Inv x3 → (∀ t0, (@execRruContribution x0 x1 x2 x3) = Host.Outcome.next t0 → State.Inv t0) := by
  intro x0 x1 x2 x3 h0; unfold execRruContribution; grind [happened_inv, State.collGive_inv, State.flightGive_inv, foldl_inv, State.Inv]
theorem State.giveAll_inv : ∀ x0 x1, State.Inv x0 → State.Inv (@State.giveAll x0 x1) := by
  intro x0 x1 h0; unfold State.giveAll; grind [State.collGive_inv, foldl_inv, State.Inv]
theorem execVwarm_inv : ∀ x0 x1 x2 x3 x4, State.Inv x4 → (∀ t0, (@execVwarm x0 x1 x2 x3 x4) = Host.Outcome.next t0 → State.Inv t0) := by
  intro x0 x1 x2 x3 x4 h0; unfold execVwarm; grind [State.vecCheck_inv_error, State.vecCheck_inv_ok, State.takeTrap_inv, State.retire_inv, State.onHart_inv, State.setVstart_inv, State.noteG_inv, State.setG_inv, armFrom_inv, State.disarm_inv, State.warmTo_inv, State.takeFault_inv, foldl_inv, State.Inv]
theorem execWdep_inv : ∀ x0 x1 x2 x3 x4 x5 x6, State.Inv x6 → (∀ t0, (@execWdep x0 x1 x2 x3 x4 x5 x6) = Host.Outcome.next t0 → State.Inv t0) := by
  intro x0 x1 x2 x3 x4 x5 x6 h0; unfold execWdep; grind [wellDepositOp_inv, foldl_inv, State.Inv]
theorem execWdepx_inv : ∀ x0 x1 x2 x3 x4 x5 x6 x7, State.Inv x7 → (∀ t0, (@execWdepx x0 x1 x2 x3 x4 x5 x6 x7) = Host.Outcome.next t0 → State.Inv t0) := by
  intro x0 x1 x2 x3 x4 x5 x6 x7 h0; unfold execWdepx; grind [wellDepositOp_inv, foldl_inv, State.Inv]
theorem State.vfetch_inv : ∀ x0 x1 x2 x3 x4 x5 x6, State.Inv x0 → ((∀ t0a t0b, (@State.vfetch x0 x1 x2 x3 x4 x5 x6) = Except.error (t0a, t0b) → State.Inv t0b) ∧ (∀ t0, (@State.vfetch x0 x1 x2 x3 x4 x5 x6) = Except.ok t0 → State.Inv t0)) :=
  fun s v o op t x k h => EP.vfetch s v o op t x k h
theorem State.runBatches_inv : ∀ x0 x1 x2, State.Inv x2 → State.Inv (@State.runBatches x0 x1 x2) := by
  intro i n; induction n with
  | zero => intro s h; exact h
  | succ n ih => intro s h; exact ih _ (State.runBatch_inv _ _ h)
theorem EP.wellReadOp (s : State) (v o w d k) (h : s.Inv) : EP State.Inv (s.wellReadOp v o w d k) := by
  unfold State.wellReadOp
  have h1 := wellElems_inv v o s.range s [] h
  generalize wellElems v o s.range s [] = q at h1 ⊢
  obtain ⟨u, l, tr⟩ := q
  dsimp only
  split
  · exact EP.done _ _ _ (foldlP_inv _ _ (fun p a h => wellStep_inv _ _ _ _ _ _ h) (u, 0#4) h1)
  · rename_i b _
    have h2 := wellElems_inv v o (s.range.filter (· < b.e)) s [] h
    generalize wellElems v o (s.range.filter (· < b.e)) s [] = q at h2 ⊢
    obtain ⟨w', l', tr'⟩ := q
    exact EP.done _ _ _ (foldlP_inv _ _ (fun p a h => wellStep_inv _ _ _ _ _ _ h) _ (State.logWell_inv _ _ _ _ h2))
theorem wellReader_inv : ∀ x0 x1 x2 x3 x4 x5 x6, State.Inv x6 → (∀ t0, (@wellReader x0 x1 x2 x3 x4 x5 x6) = Host.Outcome.next t0 → State.Inv t0) := by
  intro d p e a m k s h; unfold wellReader; dsimp only
  exact EP.issueOp _ _ _ _ _ _ _ h (EP.bind (EP.vecCheck _ _ _ _ _ h) fun u hu => EP.bind (EP.wellBase _ _ _ _ hu) fun q hq => EP.ok hq)
    fun t v ht => EP.wellReadOp _ _ _ _ _ _ ht
theorem execWread_inv : ∀ x0 x1 x2 x3 x4 x5, State.Inv x5 → (∀ t0, (@execWread x0 x1 x2 x3 x4 x5) = Host.Outcome.next t0 → State.Inv t0) :=
  fun _ _ _ _ _ _ h => wellReader_inv _ _ _ _ _ _ _ h
theorem execWdrain_inv : ∀ x0 x1 x2 x3 x4 x5, State.Inv x5 → (∀ t0, (@execWdrain x0 x1 x2 x3 x4 x5) = Host.Outcome.next t0 → State.Inv t0) :=
  fun _ _ _ _ _ _ h => wellReader_inv _ _ _ _ _ _ _ h
theorem State.runRows_inv : ∀ x0 x1, State.Inv x0 → State.Inv (@State.runRows x0 x1) := by
  intro x0 x1 h0; unfold State.runRows; grind [State.copyLoose_inv, State.eachPos_inv, copyRow_inv, State.runBatches_inv, State.fixRoot_inv, State.complete_inv, foldl_inv, State.Inv]
theorem State.completeCmd_inv : ∀ x0 x1, State.Inv x0 → State.Inv (@State.completeCmd x0 x1) := by
  intro x0 x1 h0; unfold State.completeCmd; grind [State.endLost_inv, State.resolveStuck_inv, State.runRows_inv, State.complete_inv, State.runFlight_inv, State.fillWindow_inv, foldl_inv, State.Inv]
theorem execEngineCommandCompletion_inv : ∀ x0 x1, State.Inv x1 → (∀ t0, (@execEngineCommandCompletion x0 x1) = Host.Outcome.next t0 → State.Inv t0) := by
  intro x0 x1 h0; unfold execEngineCommandCompletion; grind [happened_inv, State.completeCmd_inv, foldl_inv, State.Inv]
theorem State.advanceCmd_inv : ∀ x0 x1, State.Inv x0 → State.Inv (@State.advanceCmd x0 x1) := by
  intro x0 x1 h0; unfold State.advanceCmd; grind [State.completeCmd_inv, State.giveAll_inv, State.armAll_inv, foldl_inv, State.Inv]
theorem execVfResetFlitTimeout_inv : ∀ x0 x1 x2, State.Inv x2 → (∀ t0, (@execVfResetFlitTimeout x0 x1 x2) = Host.Outcome.next t0 → State.Inv t0) := by
  intro x0 x1 x2 h0; unfold execVfResetFlitTimeout; grind [happened_inv, State.onVf_inv, State.completeCmd_inv, State.onCmd_inv, foldl_inv, State.Inv]
theorem exec_inv : ∀ x0 x1, State.Inv x1 → (∀ t0, (@exec x0 x1) = Host.Outcome.next t0 → State.Inv t0) := by
  intro i s hI; cases i with
  | add d a b => exact execAdd_inv d a b s hI
  | sub d a b => exact execSub_inv d a b s hI
  | and d a b => exact execAnd_inv d a b s hI
  | or d a b => exact execOr_inv d a b s hI
  | xor d a b => exact execXor_inv d a b s hI
  | andn d a b => exact execAndn_inv d a b s hI
  | orn d a b => exact execOrn_inv d a b s hI
  | sll d a b => exact execSll_inv d a b s hI
  | srl d a b => exact execSrl_inv d a b s hI
  | sra d a b => exact execSra_inv d a b s hI
  | rol d a b => exact execRol_inv d a b s hI
  | ror d a b => exact execRor_inv d a b s hI
  | slt d a b => exact execSlt_inv d a b s hI
  | sltn d a b => exact execSltn_inv d a b s hI
  | min d a b => exact execMin_inv d a b s hI
  | max d a b => exact execMax_inv d a b s hI
  | minn d a b => exact execMinn_inv d a b s hI
  | maxn d a b => exact execMaxn_inv d a b s hI
  | mul d a b => exact execMul_inv d a b s hI
  | mulh d a b => exact execMulh_inv d a b s hI
  | mulhn d a b => exact execMulhn_inv d a b s hI
  | div d a b => exact execDiv_inv d a b s hI
  | divn d a b => exact execDivn_inv d a b s hI
  | rem d a b => exact execRem_inv d a b s hI
  | remn d a b => exact execRemn_inv d a b s hI
  | clz d a => exact execClz_inv d a s hI
  | ctz d a => exact execCtz_inv d a s hI
  | popc d a => exact execPopc_inv d a s hI
  | bswp d a => exact execBswp_inv d a s hI
  | sext d a b => exact execSext_inv d a b s hI
  | zext d a b => exact execZext_inv d a b s hI
  | selnz d a b => exact execSelnz_inv d a b s hI
  | addi d a imm => exact execAddi_inv d a imm s hI
  | andi d a imm => exact execAndi_inv d a imm s hI
  | ori d a imm => exact execOri_inv d a imm s hI
  | xori d a imm => exact execXori_inv d a imm s hI
  | slli d a n => exact execSlli_inv d a n s hI
  | srli d a n => exact execSrli_inv d a n s hI
  | srai d a n => exact execSrai_inv d a n s hI
  | rori d a n => exact execRori_inv d a n s hI
  | slti d a imm => exact execSlti_inv d a imm s hI
  | sltni d a imm => exact execSltni_inv d a imm s hI
  | ldhi d imm => exact execLdhi_inv d imm s hI
  | addpc d imm => exact execAddpc_inv d imm s hI
  | ldb d a imm => exact execLdb_inv d a imm s hI
  | ldbn d a imm => exact execLdbn_inv d a imm s hI
  | ldh d a imm => exact execLdh_inv d a imm s hI
  | ldhn d a imm => exact execLdhn_inv d a imm s hI
  | ldw d a imm => exact execLdw_inv d a imm s hI
  | ldwn d a imm => exact execLdwn_inv d a imm s hI
  | ldd d a imm => exact execLdd_inv d a imm s hI
  | stb d a imm => exact execStb_inv d a imm s hI
  | sth d a imm => exact execSth_inv d a imm s hI
  | stw d a imm => exact execStw_inv d a imm s hI
  | std d a imm => exact execStd_inv d a imm s hI
  | beq a b o => exact execBeq_inv a b o s hI
  | bne a b o => exact execBne_inv a b o s hI
  | blt a b o => exact execBlt_inv a b o s hI
  | bge a b o => exact execBge_inv a b o s hI
  | bltn a b o => exact execBltn_inv a b o s hI
  | bgen a b o => exact execBgen_inv a b o s hI
  | jal o => exact execJal_inv o s hI
  | jalr d a imm => exact execJalr_inv d a imm s hI
  | fadd d a b r p => exact execFadd_inv d a b r p s hI
  | fsub d a b r p => exact execFsub_inv d a b r p s hI
  | fmul d a b r p => exact execFmul_inv d a b r p s hI
  | fdiv d a b r p => exact execFdiv_inv d a b r p s hI
  | fsqrt d a r p => exact execFsqrt_inv d a r p s hI
  | fma d a b r p => exact execFma_inv d a b r p s hI
  | fmin d a b p => exact execFmin_inv d a b p s hI
  | fmax d a b p => exact execFmax_inv d a b p s hI
  | feq d a b p => exact execFeq_inv d a b p s hI
  | flt d a b p => exact execFlt_inv d a b p s hI
  | fle d a b p => exact execFle_inv d a b p s hI
  | fclass d a p => exact execFclass_inv d a p s hI
  | fcvtff d a r p => exact execFcvtff_inv d a r p s hI
  | fcvti d a r p => exact execFcvti_inv d a r p s hI
  | fcvtn d a r p => exact execFcvtn_inv d a r p s hI
  | fcvtw d a r p => exact execFcvtw_inv d a r p s hI
  | fcvtwn d a r p => exact execFcvtwn_inv d a r p s hI
  | fcvtif d a r p => exact execFcvtif_inv d a r p s hI
  | fcvtnf d a r p => exact execFcvtnf_inv d a r p s hI
  | fsgn d a b p => exact execFsgn_inv d a b p s hI
  | fsgnn d a b p => exact execFsgnn_inv d a b p s hI
  | fsgnx d a b p => exact execFsgnx_inv d a b p s hI
  | amoadd d a b sc q l w => exact execAmoadd_inv d a b sc q l w s hI
  | amoand d a b sc q l w => exact execAmoand_inv d a b sc q l w s hI
  | amoor d a b sc q l w => exact execAmoor_inv d a b sc q l w s hI
  | amoxor d a b sc q l w => exact execAmoxor_inv d a b sc q l w s hI
  | amomin d a b sc q l w => exact execAmomin_inv d a b sc q l w s hI
  | amomax d a b sc q l w => exact execAmomax_inv d a b sc q l w s hI
  | amominn d a b sc q l w => exact execAmominn_inv d a b sc q l w s hI
  | amomaxn d a b sc q l w => exact execAmomaxn_inv d a b sc q l w s hI
  | amoswp d a b sc q l w => exact execAmoswp_inv d a b sc q l w s hI
  | amofadd d a b sc q l w => exact execAmofadd_inv d a b sc q l w s hI
  | cas d a b sc q l w => exact execCas_inv d a b sc q l w s hI
  | cas2 d a b sc q l => exact execCas2_inv d a b sc q l s hI
  | lda d a sc w => exact execLda_inv d a sc w s hI
  | strel d a sc w => exact execStrel_inv d a sc w s hI
  | fence sc q l => exact execFence_inv sc q l s hI
  | vdrain k sc q l => exact execVdrain_inv k sc q l s hI
  | barinit a b sc => exact execBarinit_inv a b sc s hI
  | barjoin a => exact execBarjoin_inv a s hI
  | barleave a => exact execBarleave_inv a s hI
  | bararr d a => exact execBararr_inv d a s hI
  | barwait d a b => exact execBarwait_inv d a b s hI
  | barsyn d a => exact execBarsyn_inv d a s hI
  | kwait k => exact execKwait_inv k s hI
  | krd d k => exact execKrd_inv d k s hI
  | kset d a k => exact execKset_inv d a k s hI
  | kstat d k => exact execKstat_inv d k s hI
  | pause => exact execPause_inv s hI
  | yield => exact execYield_inv s hI
  | watch d a b => exact execWatch_inv d a b s hI
  | unwatch d a => exact execUnwatch_inv d a s hI
  | vwarm d a b m => exact execVwarm_inv d a b m s hI
  | waitany d a b => exact execWaitany_inv d a b s hI
  | phase d => exact execPhase_inv d s hI
  | launch d a b sc => exact execLaunch_inv d a b sc s hI
  | cancel d a n => exact execCancel_inv d a n s hI
  | exit a sc => exact execExit_inv a sc s hI
  | trap n h => exact execTrap_inv n h s hI
  | eret => exact execEret_inv s hI
  | srd d n h => exact execSrd_inv d n h s hI
  | swr d a n h => exact execSwr_inv d a n h s hI
  | sset d a n h => exact execSset_inv d a n h s hI
  | sclr d a n h => exact execSclr_inv d a n h s hI
  | svc n h => exact execSvc_inv n h s hI
  | linewb a => exact execLinewb_inv a s hI
  | lineinv a => exact execLineinv_inv a s hI
  | tlbsh d a k => exact execTlbsh_inv d a k s hI
  | fencei => exact execFencei_inv s hI
  | wfi => exact execWfi_inv s hI
  | halt => exact execHalt_inv s hI
  | vclaim p d a b => exact execVclaim_inv p d a b s hI
  | vrel p => exact execVrel_inv p s hI
  | setvl p d a => exact execSetvl_inv p d a s hI
  | setvm p d a b => exact execSetvm_inv p d a b s hI
  | vspill p d a => exact execVspill_inv p d a s hI
  | vfill p d a => exact execVfill_inv p d a s hI
  | zspill p d a => exact execZspill_inv p d a s hI
  | zfill p d a => exact execZfill_inv p d a s hI
  | vadd o => exact execVadd_inv o s hI
  | vsub o => exact execVsub_inv o s hI
  | vrsub o => exact execVrsub_inv o s hI
  | vmul o => exact execVmul_inv o s hI
  | vmulh o => exact execVmulh_inv o s hI
  | vmulhn o => exact execVmulhn_inv o s hI
  | vdiv o => exact execVdiv_inv o s hI
  | vdivn o => exact execVdivn_inv o s hI
  | vrem o => exact execVrem_inv o s hI
  | vremn o => exact execVremn_inv o s hI
  | vmin o => exact execVmin_inv o s hI
  | vmax o => exact execVmax_inv o s hI
  | vminn o => exact execVminn_inv o s hI
  | vmaxn o => exact execVmaxn_inv o s hI
  | vand o => exact execVand_inv o s hI
  | vor o => exact execVor_inv o s hI
  | vxor o => exact execVxor_inv o s hI
  | vsll o => exact execVsll_inv o s hI
  | vsrl o => exact execVsrl_inv o s hI
  | vsra o => exact execVsra_inv o s hI
  | vcmpeq o => exact execVcmpeq_inv o s hI
  | vcmpne o => exact execVcmpne_inv o s hI
  | vcmplt o => exact execVcmplt_inv o s hI
  | vcmple o => exact execVcmple_inv o s hI
  | vcmpltn o => exact execVcmpltn_inv o s hI
  | vcmplen o => exact execVcmplen_inv o s hI
  | vmerge o => exact execVmerge_inv o s hI
  | vmv o => exact execVmv_inv o s hI
  | vbcast p d a m => exact execVbcast_inv p d a m s hI
  | vid p d m => exact execVid_inv p d m s hI
  | vext p d a b x => exact execVext_inv p d a b x s hI
  | vins p d a b => exact execVins_inv p d a b s hI
  | vwmul o => exact execVwmul_inv o s hI
  | vwadd o => exact execVwadd_inv o s hI
  | vfadd o => exact execVfadd_inv o s hI
  | vfsub o => exact execVfsub_inv o s hI
  | vfmul o => exact execVfmul_inv o s hI
  | vfdiv o => exact execVfdiv_inv o s hI
  | vfsqrt o => exact execVfsqrt_inv o s hI
  | vfma o => exact execVfma_inv o s hI
  | vfms o => exact execVfms_inv o s hI
  | vfnma o => exact execVfnma_inv o s hI
  | vfmin o => exact execVfmin_inv o s hI
  | vfmax o => exact execVfmax_inv o s hI
  | vfabs o => exact execVfabs_inv o s hI
  | vfneg o => exact execVfneg_inv o s hI
  | vfcmpeq o => exact execVfcmpeq_inv o s hI
  | vfcmplt o => exact execVfcmplt_inv o s hI
  | vfcmple o => exact execVfcmple_inv o s hI
  | vfclass o => exact execVfclass_inv o s hI
  | vfrcp o => exact execVfrcp_inv o s hI
  | vfrsq o => exact execVfrsq_inv o s hI
  | vfex2 o => exact execVfex2_inv o s hI
  | vflg2 o => exact execVflg2_inv o s hI
  | vftnh o => exact execVftnh_inv o s hI
  | vfsig o => exact execVfsig_inv o s hI
  | vfexp o => exact execVfexp_inv o s hI
  | vfscl o => exact execVfscl_inv o s hI
  | vcvt p d a t x m => exact execVcvt_inv p d a t x m s hI
  | vcvtef p d a t x m => exact execVcvtef_inv p d a t x m s hI
  | vftoi p d a t x m => exact execVftoi_inv p d a t x m s hI
  | vitof p d a t x m => exact execVitof_inv p d a t x m s hI
  | vredsum o => exact execVredsum_inv o s hI
  | vredmin o => exact execVredmin_inv o s hI
  | vredmax o => exact execVredmax_inv o s hI
  | vredminn o => exact execVredminn_inv o s hI
  | vredmaxn o => exact execVredmaxn_inv o s hI
  | vredand o => exact execVredand_inv o s hI
  | vredor o => exact execVredor_inv o s hI
  | vredxor o => exact execVredxor_inv o s hI
  | vfredsum o => exact execVfredsum_inv o s hI
  | vfredmin o => exact execVfredmin_inv o s hI
  | vfredmax o => exact execVfredmax_inv o s hI
  | vscan o => exact execVscan_inv o s hI
  | vscanx o => exact execVscanx_inv o s hI
  | vfscan o => exact execVfscan_inv o s hI
  | vslup p d a b x m => exact execVslup_inv p d a b x m s hI
  | vsldn p d a b x m => exact execVsldn_inv p d a b x m s hI
  | vperm o => exact execVperm_inv o s hI
  | vpack o => exact execVpack_inv o s hI
  | vunpack o => exact execVunpack_inv o s hI
  | vxchg p d a b x m => exact execVxchg_inv p d a b x m s hI
  | vrev o => exact execVrev_inv o s hI
  | mand p d a b => exact execMand_inv p d a b s hI
  | mor p d a b => exact execMor_inv p d a b s hI
  | mxor p d a b => exact execMxor_inv p d a b s hI
  | mandn p d a b => exact execMandn_inv p d a b s hI
  | mnot p d a => exact execMnot_inv p d a s hI
  | mset p d => exact execMset_inv p d s hI
  | mclr p d => exact execMclr_inv p d s hI
  | mpop p d a m => exact execMpop_inv p d a m s hI
  | mfirst p d a m => exact execMfirst_inv p d a m s hI
  | mfromv p d a x m => exact execMfromv_inv p d a x m s hI
  | mtov p d a m => exact execMtov_inv p d a m s hI
  | msbf p d a m => exact execMsbf_inv p d a m s hI
  | vld p d a m e k => exact execVld_inv p d a m e k s hI
  | vlds p d a b m e k => exact execVlds_inv p d a b m e k s hI
  | vldx p d a b c m e k => exact execVldx_inv p d a b c m e k s hI
  | vldff p d a m e => exact execVldff_inv p d a m e s hI
  | vst p d a c m e k => exact execVst_inv p d a c m e k s hI
  | vsts p d a b c m e k => exact execVsts_inv p d a b c m e k s hI
  | vstx p d a b c m e k => exact execVstx_inv p d a b c m e k s hI
  | vamoadd o => exact execVamoadd_inv o s hI
  | vamoand o => exact execVamoand_inv o s hI
  | vamoor o => exact execVamoor_inv o s hI
  | vamoxor o => exact execVamoxor_inv o s hI
  | vamomin o => exact execVamomin_inv o s hI
  | vamomax o => exact execVamomax_inv o s hI
  | vamominn o => exact execVamominn_inv o s hI
  | vamomaxn o => exact execVamomaxn_inv o s hI
  | vamofadd o => exact execVamofadd_inv o s hI
  | vamofmin o => exact execVamofmin_inv o s hI
  | vamofmax o => exact execVamofmax_inv o s hI
  | vamoswp o => exact execVamoswp_inv o s hI
  | vapnd p d a b c m k => exact execVapnd_inv p d a b c m k s hI
  | sealPage p sc a k => exact execSealPage_inv p sc a k s hI
  | inktail p d a => exact execInktail_inv p d a s hI
  | winit p d a c m k => exact execWinit_inv p d a c m k s hI
  | wdep p d a c m k => exact execWdep_inv p d a c m k s hI
  | wdepx p d a b c m k => exact execWdepx_inv p d a b c m k s hI
  | wread p d a m k => exact execWread_inv p d a m k s hI
  | wdrain p d a m k => exact execWdrain_inv p d a m k s hI
  | olgath p d a b y m => exact execOlgath_inv p d a b y m s hI
  | zrank p d a b x y m => exact execZrank_inv p d a b x y m s hI
  | mblk p d b => exact execMblk_inv p d b s hI
  | zzero p d => exact execZzero_inv p d s hI
  | zread p d a b m => exact execZread_inv p d a b m s hI
  | zwrite p d a b x m => exact execZwrite_inv p d a b x m s hI
  | zdep p d a b m => exact execZdep_inv p d a b m s hI
  | zdim p d => exact execZdim_inv p d s hI
  | copy a sc q l k => exact execCopy_inv a sc q l k s hI
  | coll a b sc q l k => exact execColl_inv a b sc q l k s hI
  | flight a b sc q l k => exact execFlight_inv a b sc q l k s hI
  | ixg a sc q l k => exact execIxg_inv a sc q l k s hI
  | rowin d a b sc k => exact execRowin_inv d a b sc k s hI
  | rowout a => exact execRowout_inv a s hI
  | storeErrorResponse imm => exact execStoreErrorResponse_inv imm s hI
  | storeErrorTrap => exact execStoreErrorTrap_inv s hI
  | vectorMemoryCompletion imm => exact execVectorMemoryCompletion_inv imm s hI
  | tailUnitAppend page esize data => exact execTailUnitAppend_inv page esize data s hI
  | sealRequest page => exact execSealRequest_inv page s hI
  | sealingComplete page => exact execSealingComplete_inv page s hI
  | wellLineStep line => exact execWellLineStep_inv line s hI
  | wellLineFill line bad => exact execWellLineFill_inv line bad s hI
  | wellLineEvict line => exact execWellLineEvict_inv line s hI
  | wellLineWriteback line ok => exact execWellLineWriteback_inv line ok s hI
  | inkPageFree page => exact execInkPageFree_inv page s hI
  | inkFreeDrainDone page => exact execInkFreeDrainDone_inv page s hI
  | replicaCreate page hall => exact execReplicaCreate_inv page hall s hI
  | replicaCopyDone page hall => exact execReplicaCopyDone_inv page hall s hI
  | replicaReclaim page hall => exact execReplicaReclaim_inv page hall s hI
  | replicaReclaimDone page hall => exact execReplicaReclaimDone_inv page hall s hI
  | engineCommandCompletion imm => exact execEngineCommandCompletion_inv imm s hI
  | rowinFillDone imm => exact execRowinFillDone_inv imm s hI
  | waitEntryFire pa => exact execWaitEntryFire_inv pa s hI
  | landingTrigger hall n => exact execLandingTrigger_inv hall n s hI
  | landingAction hall n => exact execLandingAction_inv hall n s hI
  | barrierWaitEnd => exact execBarrierWaitEnd_inv s hI
  | kwaitEnd => exact execKwaitEnd_inv s hI
  | waitanyEnd => exact execWaitanyEnd_inv s hI
  | wfiWake => exact execWfiWake_inv s hI
  | phaseComplete vf serial => exact execPhaseComplete_inv vf serial s hI
  | pauseExpiry => exact execPauseExpiry_inv s hI
  | unitKill vf serial unit => exact execUnitKill_inv vf serial unit s hI
  | dispatcherStep hall => exact execDispatcherStep_inv hall s hI
  | preemptionTimeout vf serial group => exact execPreemptionTimeout_inv vf serial group s hI
  | launchAdmission vf q => exact execLaunchAdmission_inv vf q s hI
  | launchCompletion vf serial => exact execLaunchCompletion_inv vf serial s hI
  | ageBoost vf q => exact execAgeBoost_inv vf q s hI
  | qptrTailWrite vf q tail => exact execQptrTailWrite_inv vf q tail s hI
  | qcfgWrite vf q value => exact execQcfgWrite_inv vf q value s hI
  | contextSave vf serial group => exact execContextSave_inv vf serial group s hI
  | resumption vf serial group hall cluster => exact execResumption_inv vf serial group hall cluster s hI
  | faultRunAheadStop stop => exact execFaultRunAheadStop_inv stop s hI
  | spanPositionLost pos => exact execSpanPositionLost_inv pos s hI
  | lanePoolCapWrite hall cluster cap => exact execLanePoolCapWrite_inv hall cluster cap s hI
  | trfctlClear hall => exact execTrfctlClear_inv hall s hI
  | trfctlFreeze hall on => exact execTrfctlFreeze_inv hall on s hI
  | fqrespRetry hall token => exact execFqrespRetry_inv hall token s hI
  | fqrespForward hall token => exact execFqrespForward_inv hall token s hI
  | fqrespComplete hall token => exact execFqrespComplete_inv hall token s hI
  | shootctlGo hall kind vf => exact execShootctlGo_inv hall kind vf s hI
  | shootdownDone hall => exact execShootdownDone_inv hall s hI
  | hownWrite hall tenant => exact execHownWrite_inv hall tenant s hI
  | hallWarmReset hall => exact execHallWarmReset_inv hall s hI
  | hallForcedReset hall => exact execHallForcedReset_inv hall s hI
  | hallRelease hall => exact execHallRelease_inv hall s hI
  | hallFence hall cause => exact execHallFence_inv hall cause s hI
  | hallHangTimeout hall => exact execHallHangTimeout_inv hall s hI
  | gwctlWrite hall imm value => exact execGwctlWrite_inv hall imm value s hI
  | galleryRevokeDrainDone hall imm => exact execGalleryRevokeDrainDone_inv hall imm s hI
  | violationLogClear hall => exact execViolationLogClear_inv hall s hI
  | vfReset vf => exact execVfReset_inv vf s hI
  | vfResetFlitTimeout vf imm => exact execVfResetFlitTimeout_inv vf imm s hI
  | vfResetComplete vf => exact execVfResetComplete_inv vf s hI
  | vfvcapWrite vf value => exact execVfvcapWrite_inv vf value s hI
  | portcfgGuarWrite hall port guar => exact execPortcfgGuarWrite_inv hall port guar s hI
  | hostPortTrain port mode gen width cache mem => exact execHostPortTrain_inv port mode gen width cache mem s hI
  | hostPortDown port => exact execHostPortDown_inv port s hI
  | hostSnoop pa invalidate => exact execHostSnoop_inv pa invalidate s hI
  | hostCxlMemRequest port addr wdata => exact execHostCxlMemRequest_inv port addr wdata s hI
  | collArming imm => exact execCollArming_inv imm s hI
  | splitFlit imm => exact execSplitFlit_inv imm s hI
  | abortFlit imm cause => exact execAbortFlit_inv imm cause s hI
  | rruContribution imm rank elem => exact execRruContribution_inv imm rank elem s hI
  | flightTransfer imm ordinal => exact execFlightTransfer_inv imm ordinal s hI
  | pathWeightMeasure die => exact execPathWeightMeasure_inv die s hI
  | wavelengthDark die w => exact execWavelengthDark_inv die w s hI
  | relayEstablished src dst => exact execRelayEstablished_inv src dst s hI
  | pathLost src dst => exact execPathLost_inv src dst s hI
  | wavelengthRelit die w => exact execWavelengthRelit_inv die w s hI
  | ixgRemoteRowRequest imm row => exact execIxgRemoteRowRequest_inv imm row s hI
  | extPortTrain hall port width chip peer tenant => exact execExtPortTrain_inv hall port width chip peer tenant s hI
  | extFlitReceive hall port seq slot type tagOk => exact execExtFlitReceive_inv hall port seq slot type tagOk s hI
  | nakReceived hall port seq => exact execNakReceived_inv hall port seq s hI
  | ackReceived hall port seq => exact execAckReceived_inv hall port seq s hI
  | portRetrain hall port => exact execPortRetrain_inv hall port s hI
  | retrainTimeout hall port => exact execRetrainTimeout_inv hall port s hI
  | epkctlSwitch hall port => exact execEpkctlSwitch_inv hall port s hI
  | keyLow hall port => exact execKeyLow_inv hall port s hI
  | keyExhausted hall port => exact execKeyExhausted_inv hall port s hI
  | keyExhaustedTimeout hall port => exact execKeyExhaustedTimeout_inv hall port s hI
  | fabricPacketForward hall chip hops line => exact execFabricPacketForward_inv hall chip hops line s hI
  | ptpTimeFlit offset => exact execPtpTimeFlit_inv offset s hI
  | lrsetWrite hall cluster high lanes => exact execLrsetWrite_inv hall cluster high lanes s hI
  | mpsetWrite hall cluster quarters => exact execMpsetWrite_inv hall cluster quarters s hI
  | scrubLine hall tier2 line corrected uncorrectable => exact execScrubLine_inv hall tier2 line corrected uncorrectable s hI
  | scrubPauseEnd hall => exact execScrubPauseEnd_inv hall s hI
  | memoryUncorrectableError pa src synd => exact execMemoryUncorrectableError_inv pa src synd s hI
  | registerUncorrectableError latch => exact execRegisterUncorrectableError_inv latch s hI
  | errorLogClear hall => exact execErrorLogClear_inv hall s hI
  | attestationGo vf => exact execAttestationGo_inv vf s hI
  | attestationReportDone vf => exact execAttestationReportDone_inv vf s hI
  | keyRecord bytes => exact execKeyRecord_inv bytes s hI
  | powerOn => exact execPowerOn_inv s hI
  | powerCapAdjust hall pwr tj => exact execPowerCapAdjust_inv hall pwr tj s hI
  | thermalTrip hall => exact execThermalTrip_inv hall s hI
  | hctlStop hall cluster hart => exact execHctlStop_inv hall cluster hart s hI
  | hctlRun hall cluster hart => exact execHctlRun_inv hall cluster hart s hI
  | hctlRecov hall cluster on => exact execHctlRecov_inv hall cluster on s hI
  | censusWrite pa value => exact execCensusWrite_inv pa value s hI
  | registerWrite pa value mode vf => exact execRegisterWrite_inv pa value mode vf s hI
  | illegalInstruction word pfxWord => exact execIllegalInstruction_inv word pfxWord s hI
  | instructionFetchFault code va => exact execInstructionFetchFault_inv code va s hI
  | postedWritePerformed imm => exact execPostedWritePerformed_inv imm s hI
  | wellPageMap page wlf => exact execWellPageMap_inv page wlf s hI
  | inkFrameMap frame vf => exact execInkFrameMap_inv frame vf s hI
theorem State.runTo_inv : ∀ x0 x1 x2 x3 x4 x5, State.Inv x0 → (∀ x5y0, State.Inv x5y0 → State.Inv (x5 x5y0)) → (∀ t0, (@State.runTo x0 x1 x2 x3 x4 x5) = Host.Outcome.next t0 → State.Inv t0) := by
  intro x0 x1 x2 x3 x4 x5 h0 h1; unfold State.runTo; grind [exec_inv, State.onHart_inv, State.countRows_inv, State.standAt_inv, foldl_inv, State.Inv]
theorem State.runDiscarded_inv : ∀ x0 x1 x2 x3 x4, State.Inv x0 → (∀ x4y0, State.Inv x4y0 → State.Inv (x4 x4y0)) → (∀ t0, (@State.runDiscarded x0 x1 x2 x3 x4) = Host.Outcome.next t0 → State.Inv t0) := by
  intro x0 x1 x2 x3 x4 h0 h1; unfold State.runDiscarded; grind [exec_inv, State.countRows_inv, foldl_inv, State.Inv]
theorem State.runVoted_inv : ∀ x0 x1 x2 x3 x4, State.Inv x0 → (∀ t0, (@State.runVoted x0 x1 x2 x3 x4) = some t0 → (∀ t1, t0 = Host.Outcome.next t1 → State.Inv t1)) := by
  intro x0 x1 x2 x3 x4 h0; unfold State.runVoted; grind [State.runTo_inv, State.takeTrap_inv, State.runDiscarded_inv, State.setVstart_inv, foldl_inv, State.Inv]
theorem State.runArray_inv : ∀ x0 x1 x2 x3 x4, State.Inv x0 → (∀ t0, (@State.runArray x0 x1 x2 x3 x4) = some t0 → (∀ t1, t0 = Host.Outcome.next t1 → State.Inv t1)) := by
  intro x0 x1 x2 x3 x4 h0; unfold State.runArray; grind [State.runDiscarded_inv, State.logChecksum_inv, State.takeTrap_inv, State.setVstart_inv, State.markQuarter_inv, foldl_inv, State.Inv]
theorem State.runStopped_inv : ∀ x0 x1 x2 x3 x4, State.Inv x0 → (∀ t0, (@State.runStopped x0 x1 x2 x3 x4) = some t0 → (∀ t1, t0 = Host.Outcome.next t1 → State.Inv t1)) := by
  intro x0 x1 x2 x3 x4 h0; unfold State.runStopped; grind [State.runTo_inv, State.runVoted_inv, State.runArray_inv, foldl_inv, State.Inv]
theorem State.perform_inv : ∀ x0 x1 x2 x3 x4, State.Inv x0 → (∀ t0, (@State.perform x0 x1 x2 x3 x4) = Host.Outcome.next t0 → State.Inv t0) := by
  intro x0 x1 x2 x3 x4 h0; unfold State.perform; grind [State.runStopped_inv, exec_inv, State.countRows_inv, State.onHart_inv, foldl_inv, State.Inv]
theorem State.runWords_inv : ∀ x0 x1 x2 x3, State.Inv x0 → (∀ t0, (@State.runWords x0 x1 x2 x3) = Host.Outcome.next t0 → State.Inv t0) := by
  intro x0 x1 x2 x3 h0; unfold State.runWords; grind [State.setIr_inv, State.takeTrap_inv, State.orSpanLoss_inv, State.perform_inv, foldl_inv, State.Inv]
theorem State.runNext_inv : ∀ x0 x1, State.Inv x0 → (∀ t0, (@State.runNext x0 x1) = Host.Outcome.next t0 → State.Inv t0) := by
  intro x0 x1 h0; unfold State.runNext; grind [State.fetch_inv, State.fetchFault_inv, State.runWords_inv, foldl_inv, State.Inv]
theorem State.aheadWords_inv : ∀ x0 x1 x2 x3, State.Inv x0 → (∀ t0, (@State.aheadWords x0 x1 x2 x3) = Host.Outcome.next t0 → State.Inv t0) := by
  intro x0 x1 x2 x3 h0; unfold State.aheadWords; grind [State.setIr_inv, State.stopAhead_inv, State.afterAhead_inv, State.passOver_inv, exec_inv, State.learn_inv, foldl_inv, State.Inv]
theorem State.goAhead_inv : ∀ x0 x1, State.Inv x0 → (∀ t0, (@State.goAhead x0 x1) = Host.Outcome.next t0 → State.Inv t0) := by
  intro x0 x1 h0; unfold State.goAhead; grind [State.stopAhead_inv, State.fetch_inv, State.aheadWords_inv, foldl_inv, State.Inv]
theorem State.progress_inv : ∀ x0, State.Inv x0 → State.Inv (@State.progress x0) := by
  intro x0 h0; unfold State.progress; grind [State.completeVec_inv, State.advanceCmd_inv, foldl_inv, State.Inv]
theorem State.waitTurn_inv : ∀ x0 x1, State.Inv x0 → State.Inv (@State.waitTurn x0 x1) := by
  intro x0 x1 h0; unfold State.waitTurn; grind [State.endCounterWait_inv, State.progress_inv, State.endBarrierWait_inv, State.waitanyResult_inv, State.completePhase_inv, State.retire_inv, State.onHart_inv, State.advanceCmd_inv, foldl_inv, State.Inv]
theorem State.turn_inv : ∀ x0 x1, State.Inv x0 → (∀ t0, (@State.turn x0 x1) = Host.Outcome.next t0 → State.Inv t0) := by
  intro x0 x1 h0; unfold State.turn; grind [State.stopCancelled_inv, State.goAhead_inv, State.rebuildTurn_inv, State.waitTurn_inv, State.owedTrap_inv, State.takeTrap_inv, State.runNext_inv, foldl_inv, State.Inv]
theorem State.happen_inv : ∀ x0 x1, State.Inv x0 → (∀ t0, (@State.happen x0 x1) = Host.Outcome.next t0 → State.Inv t0) := by
  intro x0 x1 h0; unfold State.happen; grind [State.turn_inv, exec_inv, State.dropHostLine_inv, State.evictLine_inv, State.otherStores_inv, State.otherArrives_inv, State.otherPhases_inv, State.otherIssues_inv, State.chargeLane_inv, State.logChecksum_inv, State.correctedRegister_inv, State.correctedRead_inv, foldl_inv, State.Inv]
theorem step_inv : ∀ x0, State.Inv x0 → (∀ t0, (@step x0) = Host.Outcome.next t0 → State.Inv t0) := by
  intro x0 h0; unfold step; grind [andTick_inv, State.turn_inv, State.startPlaced_inv, State.happen_inv, foldl_inv, State.Inv]

end Sys2Proof.Machine
end

