-- ==== Sys2Proof/Laws/State.lean ====
section
/-! SUPPORT. Laws/State.lean: what each named update of the state leaves alone, and what it writes. -/

namespace Sys2Proof.Machine

set_option Elab.async false

@[simp] theorem State.onHart_pset (s : State) (f : Hart → Hart) : (s.onHart f).pset = s.pset := rfl
@[simp] theorem State.onHart_hid (s : State) (f : Hart → Hart) : (s.onHart f).hid = s.hid := rfl
@[simp] theorem State.onHart_podt (s : State) (f : Hart → Hart) : (s.onHart f).podt = s.podt := rfl
@[simp] theorem State.onHart_ra (s : State) (f : Hart → Hart) : (s.onHart f).ra = s.ra := rfl
@[simp] theorem State.onHart_mem (s : State) (f : Hart → Hart) : (s.onHart f).mem = s.mem := rfl
@[simp] theorem State.onHart_poison (s : State) (f : Hart → Hart) : (s.onHart f).poison = s.poison := rfl
@[simp] theorem State.onHart_dirty (s : State) (f : Hart → Hart) : (s.onHart f).dirty = s.dirty := rfl
@[simp] theorem State.onHart_wells (s : State) (f : Hart → Hart) : (s.onHart f).wells = s.wells := rfl
@[simp] theorem State.onHart_ink (s : State) (f : Hart → Hart) : (s.onHart f).ink = s.ink := rfl
@[simp] theorem State.onHart_replicas (s : State) (f : Hart → Hart) : (s.onHart f).replicas = s.replicas := rfl
@[simp] theorem State.onHart_pool (s : State) (f : Hart → Hart) : (s.onHart f).pool = s.pool := rfl
@[simp] theorem State.onHart_tlb (s : State) (f : Hart → Hart) : (s.onHart f).tlb = s.tlb := rfl
@[simp] theorem State.onHart_walks (s : State) (f : Hart → Hart) : (s.onHart f).walks = s.walks := rfl
@[simp] theorem State.onHart_era (s : State) (f : Hart → Hart) : (s.onHart f).era = s.era := rfl
@[simp] theorem State.onHart_icache (s : State) (f : Hart → Hart) : (s.onHart f).icache = s.icache := rfl
@[simp] theorem State.onHart_halls (s : State) (f : Hart → Hart) : (s.onHart f).halls = s.halls := rfl
@[simp] theorem State.onHart_vfs (s : State) (f : Hart → Hart) : (s.onHart f).vfs = s.vfs := rfl
@[simp] theorem State.onHart_launches (s : State) (f : Hart → Hart) : (s.onHart f).launches = s.launches := rfl
@[simp] theorem State.onHart_graphs (s : State) (f : Hart → Hart) : (s.onHart f).graphs = s.graphs := rfl
@[simp] theorem State.onHart_units (s : State) (f : Hart → Hart) : (s.onHart f).units = s.units := rfl
@[simp] theorem State.onHart_cmds (s : State) (f : Hart → Hart) : (s.onHart f).cmds = s.cmds := rfl
@[simp] theorem State.onHart_accums (s : State) (f : Hart → Hart) : (s.onHart f).accums = s.accums := rfl
@[simp] theorem State.onHart_colls (s : State) (f : Hart → Hart) : (s.onHart f).colls = s.colls := rfl
@[simp] theorem State.onHart_hostPorts (s : State) (f : Hart → Hart) : (s.onHart f).hostPorts = s.hostPorts := rfl
@[simp] theorem State.onHart_hostLines (s : State) (f : Hart → Hart) : (s.onHart f).hostLines = s.hostLines := rfl
@[simp] theorem State.onHart_fabric (s : State) (f : Hart → Hart) : (s.onHart f).fabric = s.fabric := rfl
@[simp] theorem State.onHart_pkgstat (s : State) (f : Hart → Hart) : (s.onHart f).pkgstat = s.pkgstat := rfl
@[simp] theorem State.onHart_ptpcfg (s : State) (f : Hart → Hart) : (s.onHart f).ptpcfg = s.ptpcfg := rfl
@[simp] theorem State.onHart_ptpLock (s : State) (f : Hart → Hart) : (s.onHart f).ptpLock = s.ptpLock := rfl
@[simp] theorem State.onHart_ptpOffset (s : State) (f : Hart → Hart) : (s.onHart f).ptpOffset = s.ptpOffset := rfl
@[simp] theorem State.onHart_ptpGood (s : State) (f : Hart → Hart) : (s.onHart f).ptpGood = s.ptpGood := rfl
@[simp] theorem State.onHart_image (s : State) (f : Hart → Hart) : (s.onHart f).image = s.image := rfl
@[simp] theorem State.onHart_schedule (s : State) (f : Hart → Hart) : (s.onHart f).schedule = s.schedule := rfl
@[simp] theorem State.onHart_fresh (s : State) (f : Hart → Hart) : (s.onHart f).fresh = s.fresh := rfl
@[simp] theorem State.onHart_nextId (s : State) (f : Hart → Hart) : (s.onHart f).nextId = s.nextId := rfl

@[simp] theorem State.onHart_hart (s : State) (f : Hart → Hart) : (s.onHart f).hart = f s.hart := rfl

@[simp] theorem State.setPc_pset (s : State) (x : Word) : (s.setPc x).pset = s.pset := rfl
@[simp] theorem State.setPc_hid (s : State) (x : Word) : (s.setPc x).hid = s.hid := rfl
@[simp] theorem State.setPc_podt (s : State) (x : Word) : (s.setPc x).podt = s.podt := rfl
@[simp] theorem State.setPc_ra (s : State) (x : Word) : (s.setPc x).ra = s.ra := rfl
@[simp] theorem State.setPc_mem (s : State) (x : Word) : (s.setPc x).mem = s.mem := rfl
@[simp] theorem State.setPc_poison (s : State) (x : Word) : (s.setPc x).poison = s.poison := rfl
@[simp] theorem State.setPc_dirty (s : State) (x : Word) : (s.setPc x).dirty = s.dirty := rfl
@[simp] theorem State.setPc_wells (s : State) (x : Word) : (s.setPc x).wells = s.wells := rfl
@[simp] theorem State.setPc_ink (s : State) (x : Word) : (s.setPc x).ink = s.ink := rfl
@[simp] theorem State.setPc_replicas (s : State) (x : Word) : (s.setPc x).replicas = s.replicas := rfl
@[simp] theorem State.setPc_pool (s : State) (x : Word) : (s.setPc x).pool = s.pool := rfl
@[simp] theorem State.setPc_tlb (s : State) (x : Word) : (s.setPc x).tlb = s.tlb := rfl
@[simp] theorem State.setPc_walks (s : State) (x : Word) : (s.setPc x).walks = s.walks := rfl
@[simp] theorem State.setPc_era (s : State) (x : Word) : (s.setPc x).era = s.era := rfl
@[simp] theorem State.setPc_icache (s : State) (x : Word) : (s.setPc x).icache = s.icache := rfl
@[simp] theorem State.setPc_halls (s : State) (x : Word) : (s.setPc x).halls = s.halls := rfl
@[simp] theorem State.setPc_vfs (s : State) (x : Word) : (s.setPc x).vfs = s.vfs := rfl
@[simp] theorem State.setPc_launches (s : State) (x : Word) : (s.setPc x).launches = s.launches := rfl
@[simp] theorem State.setPc_graphs (s : State) (x : Word) : (s.setPc x).graphs = s.graphs := rfl
@[simp] theorem State.setPc_units (s : State) (x : Word) : (s.setPc x).units = s.units := rfl
@[simp] theorem State.setPc_cmds (s : State) (x : Word) : (s.setPc x).cmds = s.cmds := rfl
@[simp] theorem State.setPc_accums (s : State) (x : Word) : (s.setPc x).accums = s.accums := rfl
@[simp] theorem State.setPc_colls (s : State) (x : Word) : (s.setPc x).colls = s.colls := rfl
@[simp] theorem State.setPc_hostPorts (s : State) (x : Word) : (s.setPc x).hostPorts = s.hostPorts := rfl
@[simp] theorem State.setPc_hostLines (s : State) (x : Word) : (s.setPc x).hostLines = s.hostLines := rfl
@[simp] theorem State.setPc_fabric (s : State) (x : Word) : (s.setPc x).fabric = s.fabric := rfl
@[simp] theorem State.setPc_pkgstat (s : State) (x : Word) : (s.setPc x).pkgstat = s.pkgstat := rfl
@[simp] theorem State.setPc_ptpcfg (s : State) (x : Word) : (s.setPc x).ptpcfg = s.ptpcfg := rfl
@[simp] theorem State.setPc_ptpLock (s : State) (x : Word) : (s.setPc x).ptpLock = s.ptpLock := rfl
@[simp] theorem State.setPc_ptpOffset (s : State) (x : Word) : (s.setPc x).ptpOffset = s.ptpOffset := rfl
@[simp] theorem State.setPc_ptpGood (s : State) (x : Word) : (s.setPc x).ptpGood = s.ptpGood := rfl
@[simp] theorem State.setPc_image (s : State) (x : Word) : (s.setPc x).image = s.image := rfl
@[simp] theorem State.setPc_schedule (s : State) (x : Word) : (s.setPc x).schedule = s.schedule := rfl
@[simp] theorem State.setPc_fresh (s : State) (x : Word) : (s.setPc x).fresh = s.fresh := rfl
@[simp] theorem State.setPc_nextId (s : State) (x : Word) : (s.setPc x).nextId = s.nextId := rfl
@[simp] theorem State.setPc_hart_g (s : State) (x : Word) : (s.setPc x).hart.g = s.hart.g := rfl
@[simp] theorem State.setPc_hart_v (s : State) (x : Word) : (s.setPc x).hart.v = s.hart.v := rfl
@[simp] theorem State.setPc_hart_hwm (s : State) (x : Word) : (s.setPc x).hart.hwm = s.hart.hwm := rfl
@[simp] theorem State.setPc_hart_m (s : State) (x : Word) : (s.setPc x).hart.m = s.hart.m := rfl
@[simp] theorem State.setPc_hart_z (s : State) (x : Word) : (s.setPc x).hart.z = s.hart.z := rfl
@[simp] theorem State.setPc_hart_l (s : State) (x : Word) : (s.setPc x).hart.l = s.hart.l := rfl
@[simp] theorem State.setPc_hart_ldesc (s : State) (x : Word) : (s.setPc x).hart.ldesc = s.hart.ldesc := rfl
@[simp] theorem State.setPc_hart_k (s : State) (x : Word) : (s.setPc x).hart.k = s.hart.k := rfl
@[simp] theorem State.setPc_hart_mode (s : State) (x : Word) : (s.setPc x).hart.mode = s.hart.mode := rfl
@[simp] theorem State.setPc_hart_vl (s : State) (x : Word) : (s.setPc x).hart.vl = s.hart.vl := rfl
@[simp] theorem State.setPc_hart_vlw (s : State) (x : Word) : (s.setPc x).hart.vlw = s.hart.vlw := rfl
@[simp] theorem State.setPc_hart_vstart (s : State) (x : Word) : (s.setPc x).hart.vstart = s.hart.vstart := rfl
@[simp] theorem State.setPc_hart_vmode (s : State) (x : Word) : (s.setPc x).hart.vmode = s.hart.vmode := rfl
@[simp] theorem State.setPc_hart_vstat (s : State) (x : Word) : (s.setPc x).hart.vstat = s.hart.vstat := rfl
@[simp] theorem State.setPc_hart_fstat (s : State) (x : Word) : (s.setPc x).hart.fstat = s.hart.fstat := rfl
@[simp] theorem State.setPc_hart_vlmaxb (s : State) (x : Word) : (s.setPc x).hart.vlmaxb = s.hart.vlmaxb := rfl
@[simp] theorem State.setPc_hart_vcap (s : State) (x : Word) : (s.setPc x).hart.vcap = s.hart.vcap := rfl
@[simp] theorem State.setPc_hart_uid (s : State) (x : Word) : (s.setPc x).hart.uid = s.hart.uid := rfl
@[simp] theorem State.setPc_hart_lid (s : State) (x : Word) : (s.setPc x).hart.lid = s.hart.lid := rfl
@[simp] theorem State.setPc_hart_spbase (s : State) (x : Word) : (s.setPc x).hart.spbase = s.hart.spbase := rfl
@[simp] theorem State.setPc_hart_srseed (s : State) (x : Word) : (s.setPc x).hart.srseed = s.hart.srseed := rfl
@[simp] theorem State.setPc_hart_srbase (s : State) (x : Word) : (s.setPc x).hart.srbase = s.hart.srbase := rfl
@[simp] theorem State.setPc_hart_sset (s : State) (x : Word) : (s.setPc x).hart.sset = s.hart.sset := rfl
@[simp] theorem State.setPc_hart_claim (s : State) (x : Word) : (s.setPc x).hart.claim = s.hart.claim := rfl
@[simp] theorem State.setPc_hart_seq (s : State) (x : Word) : (s.setPc x).hart.seq = s.hart.seq := rfl
@[simp] theorem State.setPc_hart_posted (s : State) (x : Word) : (s.setPc x).hart.posted = s.hart.posted := rfl
@[simp] theorem State.setPc_hart_vops (s : State) (x : Word) : (s.setPc x).hart.vops = s.hart.vops := rfl
@[simp] theorem State.setPc_hart_armed (s : State) (x : Word) : (s.setPc x).hart.armed = s.hart.armed := rfl
@[simp] theorem State.setPc_hart_fired (s : State) (x : Word) : (s.setPc x).hart.fired = s.hart.fired := rfl
@[simp] theorem State.setPc_hart_armedPa (s : State) (x : Word) : (s.setPc x).hart.armedPa = s.hart.armedPa := rfl
@[simp] theorem State.setPc_hart_wakes (s : State) (x : Word) : (s.setPc x).hart.wakes = s.hart.wakes := rfl
@[simp] theorem State.setPc_hart_wait (s : State) (x : Word) : (s.setPc x).hart.wait = s.hart.wait := rfl
@[simp] theorem State.setPc_hart_unit (s : State) (x : Word) : (s.setPc x).hart.unit = s.hart.unit := rfl
@[simp] theorem State.setPc_hart_fq (s : State) (x : Word) : (s.setPc x).hart.fq = s.hart.fq := rfl
@[simp] theorem State.setPc_hart_stopped (s : State) (x : Word) : (s.setPc x).hart.stopped = s.hart.stopped := rfl
@[simp] theorem State.setPc_hart_undelivered (s : State) (x : Word) : (s.setPc x).hart.undelivered = s.hart.undelivered := rfl
@[simp] theorem State.setPc_hart_transfer (s : State) (x : Word) : (s.setPc x).hart.transfer = s.hart.transfer := rfl
@[simp] theorem State.setPc_hart_spanLost (s : State) (x : Word) : (s.setPc x).hart.spanLost = s.hart.spanLost := rfl
@[simp] theorem State.setPc_hart_rejoin (s : State) (x : Word) : (s.setPc x).hart.rejoin = s.hart.rejoin := rfl
@[simp] theorem State.setPc_hart_warm (s : State) (x : Word) : (s.setPc x).hart.warm = s.hart.warm := rfl
@[simp] theorem State.setPc_hart_cut (s : State) (x : Word) : (s.setPc x).hart.cut = s.hart.cut := rfl
@[simp] theorem State.setPc_hart_ir (s : State) (x : Word) : (s.setPc x).hart.ir = s.hart.ir := rfl

@[simp] theorem State.setPc_hart_pc (s : State) (x : Word) : (s.setPc x).hart.pc = x := rfl

@[simp] theorem State.setTransfer_pset (s : State) (b : Bool) : (s.setTransfer b).pset = s.pset := rfl
@[simp] theorem State.setTransfer_hid (s : State) (b : Bool) : (s.setTransfer b).hid = s.hid := rfl
@[simp] theorem State.setTransfer_podt (s : State) (b : Bool) : (s.setTransfer b).podt = s.podt := rfl
@[simp] theorem State.setTransfer_ra (s : State) (b : Bool) : (s.setTransfer b).ra = s.ra := rfl
@[simp] theorem State.setTransfer_mem (s : State) (b : Bool) : (s.setTransfer b).mem = s.mem := rfl
@[simp] theorem State.setTransfer_poison (s : State) (b : Bool) : (s.setTransfer b).poison = s.poison := rfl
@[simp] theorem State.setTransfer_dirty (s : State) (b : Bool) : (s.setTransfer b).dirty = s.dirty := rfl
@[simp] theorem State.setTransfer_wells (s : State) (b : Bool) : (s.setTransfer b).wells = s.wells := rfl
@[simp] theorem State.setTransfer_ink (s : State) (b : Bool) : (s.setTransfer b).ink = s.ink := rfl
@[simp] theorem State.setTransfer_replicas (s : State) (b : Bool) : (s.setTransfer b).replicas = s.replicas := rfl
@[simp] theorem State.setTransfer_pool (s : State) (b : Bool) : (s.setTransfer b).pool = s.pool := rfl
@[simp] theorem State.setTransfer_tlb (s : State) (b : Bool) : (s.setTransfer b).tlb = s.tlb := rfl
@[simp] theorem State.setTransfer_walks (s : State) (b : Bool) : (s.setTransfer b).walks = s.walks := rfl
@[simp] theorem State.setTransfer_era (s : State) (b : Bool) : (s.setTransfer b).era = s.era := rfl
@[simp] theorem State.setTransfer_icache (s : State) (b : Bool) : (s.setTransfer b).icache = s.icache := rfl
@[simp] theorem State.setTransfer_halls (s : State) (b : Bool) : (s.setTransfer b).halls = s.halls := rfl
@[simp] theorem State.setTransfer_vfs (s : State) (b : Bool) : (s.setTransfer b).vfs = s.vfs := rfl
@[simp] theorem State.setTransfer_launches (s : State) (b : Bool) : (s.setTransfer b).launches = s.launches := rfl
@[simp] theorem State.setTransfer_graphs (s : State) (b : Bool) : (s.setTransfer b).graphs = s.graphs := rfl
@[simp] theorem State.setTransfer_units (s : State) (b : Bool) : (s.setTransfer b).units = s.units := rfl
@[simp] theorem State.setTransfer_cmds (s : State) (b : Bool) : (s.setTransfer b).cmds = s.cmds := rfl
@[simp] theorem State.setTransfer_accums (s : State) (b : Bool) : (s.setTransfer b).accums = s.accums := rfl
@[simp] theorem State.setTransfer_colls (s : State) (b : Bool) : (s.setTransfer b).colls = s.colls := rfl
@[simp] theorem State.setTransfer_hostPorts (s : State) (b : Bool) : (s.setTransfer b).hostPorts = s.hostPorts := rfl
@[simp] theorem State.setTransfer_hostLines (s : State) (b : Bool) : (s.setTransfer b).hostLines = s.hostLines := rfl
@[simp] theorem State.setTransfer_fabric (s : State) (b : Bool) : (s.setTransfer b).fabric = s.fabric := rfl
@[simp] theorem State.setTransfer_pkgstat (s : State) (b : Bool) : (s.setTransfer b).pkgstat = s.pkgstat := rfl
@[simp] theorem State.setTransfer_ptpcfg (s : State) (b : Bool) : (s.setTransfer b).ptpcfg = s.ptpcfg := rfl
@[simp] theorem State.setTransfer_ptpLock (s : State) (b : Bool) : (s.setTransfer b).ptpLock = s.ptpLock := rfl
@[simp] theorem State.setTransfer_ptpOffset (s : State) (b : Bool) : (s.setTransfer b).ptpOffset = s.ptpOffset := rfl
@[simp] theorem State.setTransfer_ptpGood (s : State) (b : Bool) : (s.setTransfer b).ptpGood = s.ptpGood := rfl
@[simp] theorem State.setTransfer_image (s : State) (b : Bool) : (s.setTransfer b).image = s.image := rfl
@[simp] theorem State.setTransfer_schedule (s : State) (b : Bool) : (s.setTransfer b).schedule = s.schedule := rfl
@[simp] theorem State.setTransfer_fresh (s : State) (b : Bool) : (s.setTransfer b).fresh = s.fresh := rfl
@[simp] theorem State.setTransfer_nextId (s : State) (b : Bool) : (s.setTransfer b).nextId = s.nextId := rfl
@[simp] theorem State.setTransfer_hart_g (s : State) (b : Bool) : (s.setTransfer b).hart.g = s.hart.g := rfl
@[simp] theorem State.setTransfer_hart_v (s : State) (b : Bool) : (s.setTransfer b).hart.v = s.hart.v := rfl
@[simp] theorem State.setTransfer_hart_hwm (s : State) (b : Bool) : (s.setTransfer b).hart.hwm = s.hart.hwm := rfl
@[simp] theorem State.setTransfer_hart_m (s : State) (b : Bool) : (s.setTransfer b).hart.m = s.hart.m := rfl
@[simp] theorem State.setTransfer_hart_z (s : State) (b : Bool) : (s.setTransfer b).hart.z = s.hart.z := rfl
@[simp] theorem State.setTransfer_hart_l (s : State) (b : Bool) : (s.setTransfer b).hart.l = s.hart.l := rfl
@[simp] theorem State.setTransfer_hart_ldesc (s : State) (b : Bool) : (s.setTransfer b).hart.ldesc = s.hart.ldesc := rfl
@[simp] theorem State.setTransfer_hart_k (s : State) (b : Bool) : (s.setTransfer b).hart.k = s.hart.k := rfl
@[simp] theorem State.setTransfer_hart_pc (s : State) (b : Bool) : (s.setTransfer b).hart.pc = s.hart.pc := rfl
@[simp] theorem State.setTransfer_hart_mode (s : State) (b : Bool) : (s.setTransfer b).hart.mode = s.hart.mode := rfl
@[simp] theorem State.setTransfer_hart_vl (s : State) (b : Bool) : (s.setTransfer b).hart.vl = s.hart.vl := rfl
@[simp] theorem State.setTransfer_hart_vlw (s : State) (b : Bool) : (s.setTransfer b).hart.vlw = s.hart.vlw := rfl
@[simp] theorem State.setTransfer_hart_vstart (s : State) (b : Bool) : (s.setTransfer b).hart.vstart = s.hart.vstart := rfl
@[simp] theorem State.setTransfer_hart_vmode (s : State) (b : Bool) : (s.setTransfer b).hart.vmode = s.hart.vmode := rfl
@[simp] theorem State.setTransfer_hart_vstat (s : State) (b : Bool) : (s.setTransfer b).hart.vstat = s.hart.vstat := rfl
@[simp] theorem State.setTransfer_hart_fstat (s : State) (b : Bool) : (s.setTransfer b).hart.fstat = s.hart.fstat := rfl
@[simp] theorem State.setTransfer_hart_vlmaxb (s : State) (b : Bool) : (s.setTransfer b).hart.vlmaxb = s.hart.vlmaxb := rfl
@[simp] theorem State.setTransfer_hart_vcap (s : State) (b : Bool) : (s.setTransfer b).hart.vcap = s.hart.vcap := rfl
@[simp] theorem State.setTransfer_hart_uid (s : State) (b : Bool) : (s.setTransfer b).hart.uid = s.hart.uid := rfl
@[simp] theorem State.setTransfer_hart_lid (s : State) (b : Bool) : (s.setTransfer b).hart.lid = s.hart.lid := rfl
@[simp] theorem State.setTransfer_hart_spbase (s : State) (b : Bool) : (s.setTransfer b).hart.spbase = s.hart.spbase := rfl
@[simp] theorem State.setTransfer_hart_srseed (s : State) (b : Bool) : (s.setTransfer b).hart.srseed = s.hart.srseed := rfl
@[simp] theorem State.setTransfer_hart_srbase (s : State) (b : Bool) : (s.setTransfer b).hart.srbase = s.hart.srbase := rfl
@[simp] theorem State.setTransfer_hart_sset (s : State) (b : Bool) : (s.setTransfer b).hart.sset = s.hart.sset := rfl
@[simp] theorem State.setTransfer_hart_claim (s : State) (b : Bool) : (s.setTransfer b).hart.claim = s.hart.claim := rfl
@[simp] theorem State.setTransfer_hart_seq (s : State) (b : Bool) : (s.setTransfer b).hart.seq = s.hart.seq := rfl
@[simp] theorem State.setTransfer_hart_posted (s : State) (b : Bool) : (s.setTransfer b).hart.posted = s.hart.posted := rfl
@[simp] theorem State.setTransfer_hart_vops (s : State) (b : Bool) : (s.setTransfer b).hart.vops = s.hart.vops := rfl
@[simp] theorem State.setTransfer_hart_armed (s : State) (b : Bool) : (s.setTransfer b).hart.armed = s.hart.armed := rfl
@[simp] theorem State.setTransfer_hart_fired (s : State) (b : Bool) : (s.setTransfer b).hart.fired = s.hart.fired := rfl
@[simp] theorem State.setTransfer_hart_armedPa (s : State) (b : Bool) : (s.setTransfer b).hart.armedPa = s.hart.armedPa := rfl
@[simp] theorem State.setTransfer_hart_wakes (s : State) (b : Bool) : (s.setTransfer b).hart.wakes = s.hart.wakes := rfl
@[simp] theorem State.setTransfer_hart_wait (s : State) (b : Bool) : (s.setTransfer b).hart.wait = s.hart.wait := rfl
@[simp] theorem State.setTransfer_hart_unit (s : State) (b : Bool) : (s.setTransfer b).hart.unit = s.hart.unit := rfl
@[simp] theorem State.setTransfer_hart_fq (s : State) (b : Bool) : (s.setTransfer b).hart.fq = s.hart.fq := rfl
@[simp] theorem State.setTransfer_hart_stopped (s : State) (b : Bool) : (s.setTransfer b).hart.stopped = s.hart.stopped := rfl
@[simp] theorem State.setTransfer_hart_undelivered (s : State) (b : Bool) : (s.setTransfer b).hart.undelivered = s.hart.undelivered := rfl
@[simp] theorem State.setTransfer_hart_spanLost (s : State) (b : Bool) : (s.setTransfer b).hart.spanLost = s.hart.spanLost := rfl
@[simp] theorem State.setTransfer_hart_rejoin (s : State) (b : Bool) : (s.setTransfer b).hart.rejoin = s.hart.rejoin := rfl
@[simp] theorem State.setTransfer_hart_warm (s : State) (b : Bool) : (s.setTransfer b).hart.warm = s.hart.warm := rfl
@[simp] theorem State.setTransfer_hart_cut (s : State) (b : Bool) : (s.setTransfer b).hart.cut = s.hart.cut := rfl
@[simp] theorem State.setTransfer_hart_ir (s : State) (b : Bool) : (s.setTransfer b).hart.ir = s.hart.ir := rfl

@[simp] theorem State.setTransfer_hart_transfer (s : State) (b : Bool) : (s.setTransfer b).hart.transfer = b := rfl

@[simp] theorem State.setCounter_pset (s : State) (k : BitVec 3) (c : Counter) : (s.setCounter k c).pset = s.pset := rfl
@[simp] theorem State.setCounter_hid (s : State) (k : BitVec 3) (c : Counter) : (s.setCounter k c).hid = s.hid := rfl
@[simp] theorem State.setCounter_podt (s : State) (k : BitVec 3) (c : Counter) : (s.setCounter k c).podt = s.podt := rfl
@[simp] theorem State.setCounter_ra (s : State) (k : BitVec 3) (c : Counter) : (s.setCounter k c).ra = s.ra := rfl
@[simp] theorem State.setCounter_mem (s : State) (k : BitVec 3) (c : Counter) : (s.setCounter k c).mem = s.mem := rfl
@[simp] theorem State.setCounter_poison (s : State) (k : BitVec 3) (c : Counter) : (s.setCounter k c).poison = s.poison := rfl
@[simp] theorem State.setCounter_dirty (s : State) (k : BitVec 3) (c : Counter) : (s.setCounter k c).dirty = s.dirty := rfl
@[simp] theorem State.setCounter_wells (s : State) (k : BitVec 3) (c : Counter) : (s.setCounter k c).wells = s.wells := rfl
@[simp] theorem State.setCounter_ink (s : State) (k : BitVec 3) (c : Counter) : (s.setCounter k c).ink = s.ink := rfl
@[simp] theorem State.setCounter_replicas (s : State) (k : BitVec 3) (c : Counter) : (s.setCounter k c).replicas = s.replicas := rfl
@[simp] theorem State.setCounter_pool (s : State) (k : BitVec 3) (c : Counter) : (s.setCounter k c).pool = s.pool := rfl
@[simp] theorem State.setCounter_tlb (s : State) (k : BitVec 3) (c : Counter) : (s.setCounter k c).tlb = s.tlb := rfl
@[simp] theorem State.setCounter_walks (s : State) (k : BitVec 3) (c : Counter) : (s.setCounter k c).walks = s.walks := rfl
@[simp] theorem State.setCounter_era (s : State) (k : BitVec 3) (c : Counter) : (s.setCounter k c).era = s.era := rfl
@[simp] theorem State.setCounter_icache (s : State) (k : BitVec 3) (c : Counter) : (s.setCounter k c).icache = s.icache := rfl
@[simp] theorem State.setCounter_halls (s : State) (k : BitVec 3) (c : Counter) : (s.setCounter k c).halls = s.halls := rfl
@[simp] theorem State.setCounter_vfs (s : State) (k : BitVec 3) (c : Counter) : (s.setCounter k c).vfs = s.vfs := rfl
@[simp] theorem State.setCounter_launches (s : State) (k : BitVec 3) (c : Counter) : (s.setCounter k c).launches = s.launches := rfl
@[simp] theorem State.setCounter_graphs (s : State) (k : BitVec 3) (c : Counter) : (s.setCounter k c).graphs = s.graphs := rfl
@[simp] theorem State.setCounter_units (s : State) (k : BitVec 3) (c : Counter) : (s.setCounter k c).units = s.units := rfl
@[simp] theorem State.setCounter_cmds (s : State) (k : BitVec 3) (c : Counter) : (s.setCounter k c).cmds = s.cmds := rfl
@[simp] theorem State.setCounter_accums (s : State) (k : BitVec 3) (c : Counter) : (s.setCounter k c).accums = s.accums := rfl
@[simp] theorem State.setCounter_colls (s : State) (k : BitVec 3) (c : Counter) : (s.setCounter k c).colls = s.colls := rfl
@[simp] theorem State.setCounter_hostPorts (s : State) (k : BitVec 3) (c : Counter) : (s.setCounter k c).hostPorts = s.hostPorts := rfl
@[simp] theorem State.setCounter_hostLines (s : State) (k : BitVec 3) (c : Counter) : (s.setCounter k c).hostLines = s.hostLines := rfl
@[simp] theorem State.setCounter_fabric (s : State) (k : BitVec 3) (c : Counter) : (s.setCounter k c).fabric = s.fabric := rfl
@[simp] theorem State.setCounter_pkgstat (s : State) (k : BitVec 3) (c : Counter) : (s.setCounter k c).pkgstat = s.pkgstat := rfl
@[simp] theorem State.setCounter_ptpcfg (s : State) (k : BitVec 3) (c : Counter) : (s.setCounter k c).ptpcfg = s.ptpcfg := rfl
@[simp] theorem State.setCounter_ptpLock (s : State) (k : BitVec 3) (c : Counter) : (s.setCounter k c).ptpLock = s.ptpLock := rfl
@[simp] theorem State.setCounter_ptpOffset (s : State) (k : BitVec 3) (c : Counter) : (s.setCounter k c).ptpOffset = s.ptpOffset := rfl
@[simp] theorem State.setCounter_ptpGood (s : State) (k : BitVec 3) (c : Counter) : (s.setCounter k c).ptpGood = s.ptpGood := rfl
@[simp] theorem State.setCounter_image (s : State) (k : BitVec 3) (c : Counter) : (s.setCounter k c).image = s.image := rfl
@[simp] theorem State.setCounter_schedule (s : State) (k : BitVec 3) (c : Counter) : (s.setCounter k c).schedule = s.schedule := rfl
@[simp] theorem State.setCounter_fresh (s : State) (k : BitVec 3) (c : Counter) : (s.setCounter k c).fresh = s.fresh := rfl
@[simp] theorem State.setCounter_nextId (s : State) (k : BitVec 3) (c : Counter) : (s.setCounter k c).nextId = s.nextId := rfl
@[simp] theorem State.setCounter_hart_g (s : State) (k : BitVec 3) (c : Counter) : (s.setCounter k c).hart.g = s.hart.g := rfl
@[simp] theorem State.setCounter_hart_v (s : State) (k : BitVec 3) (c : Counter) : (s.setCounter k c).hart.v = s.hart.v := rfl
@[simp] theorem State.setCounter_hart_hwm (s : State) (k : BitVec 3) (c : Counter) : (s.setCounter k c).hart.hwm = s.hart.hwm := rfl
@[simp] theorem State.setCounter_hart_m (s : State) (k : BitVec 3) (c : Counter) : (s.setCounter k c).hart.m = s.hart.m := rfl
@[simp] theorem State.setCounter_hart_z (s : State) (k : BitVec 3) (c : Counter) : (s.setCounter k c).hart.z = s.hart.z := rfl
@[simp] theorem State.setCounter_hart_l (s : State) (k : BitVec 3) (c : Counter) : (s.setCounter k c).hart.l = s.hart.l := rfl
@[simp] theorem State.setCounter_hart_ldesc (s : State) (k : BitVec 3) (c : Counter) : (s.setCounter k c).hart.ldesc = s.hart.ldesc := rfl
@[simp] theorem State.setCounter_hart_pc (s : State) (k : BitVec 3) (c : Counter) : (s.setCounter k c).hart.pc = s.hart.pc := rfl
@[simp] theorem State.setCounter_hart_mode (s : State) (k : BitVec 3) (c : Counter) : (s.setCounter k c).hart.mode = s.hart.mode := rfl
@[simp] theorem State.setCounter_hart_vl (s : State) (k : BitVec 3) (c : Counter) : (s.setCounter k c).hart.vl = s.hart.vl := rfl
@[simp] theorem State.setCounter_hart_vlw (s : State) (k : BitVec 3) (c : Counter) : (s.setCounter k c).hart.vlw = s.hart.vlw := rfl
@[simp] theorem State.setCounter_hart_vstart (s : State) (k : BitVec 3) (c : Counter) : (s.setCounter k c).hart.vstart = s.hart.vstart := rfl
@[simp] theorem State.setCounter_hart_vmode (s : State) (k : BitVec 3) (c : Counter) : (s.setCounter k c).hart.vmode = s.hart.vmode := rfl
@[simp] theorem State.setCounter_hart_vstat (s : State) (k : BitVec 3) (c : Counter) : (s.setCounter k c).hart.vstat = s.hart.vstat := rfl
@[simp] theorem State.setCounter_hart_fstat (s : State) (k : BitVec 3) (c : Counter) : (s.setCounter k c).hart.fstat = s.hart.fstat := rfl
@[simp] theorem State.setCounter_hart_vlmaxb (s : State) (k : BitVec 3) (c : Counter) : (s.setCounter k c).hart.vlmaxb = s.hart.vlmaxb := rfl
@[simp] theorem State.setCounter_hart_vcap (s : State) (k : BitVec 3) (c : Counter) : (s.setCounter k c).hart.vcap = s.hart.vcap := rfl
@[simp] theorem State.setCounter_hart_uid (s : State) (k : BitVec 3) (c : Counter) : (s.setCounter k c).hart.uid = s.hart.uid := rfl
@[simp] theorem State.setCounter_hart_lid (s : State) (k : BitVec 3) (c : Counter) : (s.setCounter k c).hart.lid = s.hart.lid := rfl
@[simp] theorem State.setCounter_hart_spbase (s : State) (k : BitVec 3) (c : Counter) : (s.setCounter k c).hart.spbase = s.hart.spbase := rfl
@[simp] theorem State.setCounter_hart_srseed (s : State) (k : BitVec 3) (c : Counter) : (s.setCounter k c).hart.srseed = s.hart.srseed := rfl
@[simp] theorem State.setCounter_hart_srbase (s : State) (k : BitVec 3) (c : Counter) : (s.setCounter k c).hart.srbase = s.hart.srbase := rfl
@[simp] theorem State.setCounter_hart_sset (s : State) (k : BitVec 3) (c : Counter) : (s.setCounter k c).hart.sset = s.hart.sset := rfl
@[simp] theorem State.setCounter_hart_claim (s : State) (k : BitVec 3) (c : Counter) : (s.setCounter k c).hart.claim = s.hart.claim := rfl
@[simp] theorem State.setCounter_hart_seq (s : State) (k : BitVec 3) (c : Counter) : (s.setCounter k c).hart.seq = s.hart.seq := rfl
@[simp] theorem State.setCounter_hart_posted (s : State) (k : BitVec 3) (c : Counter) : (s.setCounter k c).hart.posted = s.hart.posted := rfl
@[simp] theorem State.setCounter_hart_vops (s : State) (k : BitVec 3) (c : Counter) : (s.setCounter k c).hart.vops = s.hart.vops := rfl
@[simp] theorem State.setCounter_hart_armed (s : State) (k : BitVec 3) (c : Counter) : (s.setCounter k c).hart.armed = s.hart.armed := rfl
@[simp] theorem State.setCounter_hart_fired (s : State) (k : BitVec 3) (c : Counter) : (s.setCounter k c).hart.fired = s.hart.fired := rfl
@[simp] theorem State.setCounter_hart_armedPa (s : State) (k : BitVec 3) (c : Counter) : (s.setCounter k c).hart.armedPa = s.hart.armedPa := rfl
@[simp] theorem State.setCounter_hart_wakes (s : State) (k : BitVec 3) (c : Counter) : (s.setCounter k c).hart.wakes = s.hart.wakes := rfl
@[simp] theorem State.setCounter_hart_wait (s : State) (k : BitVec 3) (c : Counter) : (s.setCounter k c).hart.wait = s.hart.wait := rfl
@[simp] theorem State.setCounter_hart_unit (s : State) (k : BitVec 3) (c : Counter) : (s.setCounter k c).hart.unit = s.hart.unit := rfl
@[simp] theorem State.setCounter_hart_fq (s : State) (k : BitVec 3) (c : Counter) : (s.setCounter k c).hart.fq = s.hart.fq := rfl
@[simp] theorem State.setCounter_hart_stopped (s : State) (k : BitVec 3) (c : Counter) : (s.setCounter k c).hart.stopped = s.hart.stopped := rfl
@[simp] theorem State.setCounter_hart_undelivered (s : State) (k : BitVec 3) (c : Counter) : (s.setCounter k c).hart.undelivered = s.hart.undelivered := rfl
@[simp] theorem State.setCounter_hart_transfer (s : State) (k : BitVec 3) (c : Counter) : (s.setCounter k c).hart.transfer = s.hart.transfer := rfl
@[simp] theorem State.setCounter_hart_spanLost (s : State) (k : BitVec 3) (c : Counter) : (s.setCounter k c).hart.spanLost = s.hart.spanLost := rfl
@[simp] theorem State.setCounter_hart_rejoin (s : State) (k : BitVec 3) (c : Counter) : (s.setCounter k c).hart.rejoin = s.hart.rejoin := rfl
@[simp] theorem State.setCounter_hart_warm (s : State) (k : BitVec 3) (c : Counter) : (s.setCounter k c).hart.warm = s.hart.warm := rfl
@[simp] theorem State.setCounter_hart_cut (s : State) (k : BitVec 3) (c : Counter) : (s.setCounter k c).hart.cut = s.hart.cut := rfl
@[simp] theorem State.setCounter_hart_ir (s : State) (k : BitVec 3) (c : Counter) : (s.setCounter k c).hart.ir = s.hart.ir := rfl

@[simp] theorem State.onHall_pset (s : State) (h : BitVec 4) (f : Hall → Hall) : (s.onHall h f).pset = s.pset := rfl
@[simp] theorem State.onHall_hid (s : State) (h : BitVec 4) (f : Hall → Hall) : (s.onHall h f).hid = s.hid := rfl
@[simp] theorem State.onHall_podt (s : State) (h : BitVec 4) (f : Hall → Hall) : (s.onHall h f).podt = s.podt := rfl
@[simp] theorem State.onHall_ra (s : State) (h : BitVec 4) (f : Hall → Hall) : (s.onHall h f).ra = s.ra := rfl
@[simp] theorem State.onHall_mem (s : State) (h : BitVec 4) (f : Hall → Hall) : (s.onHall h f).mem = s.mem := rfl
@[simp] theorem State.onHall_poison (s : State) (h : BitVec 4) (f : Hall → Hall) : (s.onHall h f).poison = s.poison := rfl
@[simp] theorem State.onHall_dirty (s : State) (h : BitVec 4) (f : Hall → Hall) : (s.onHall h f).dirty = s.dirty := rfl
@[simp] theorem State.onHall_wells (s : State) (h : BitVec 4) (f : Hall → Hall) : (s.onHall h f).wells = s.wells := rfl
@[simp] theorem State.onHall_ink (s : State) (h : BitVec 4) (f : Hall → Hall) : (s.onHall h f).ink = s.ink := rfl
@[simp] theorem State.onHall_replicas (s : State) (h : BitVec 4) (f : Hall → Hall) : (s.onHall h f).replicas = s.replicas := rfl
@[simp] theorem State.onHall_pool (s : State) (h : BitVec 4) (f : Hall → Hall) : (s.onHall h f).pool = s.pool := rfl
@[simp] theorem State.onHall_tlb (s : State) (h : BitVec 4) (f : Hall → Hall) : (s.onHall h f).tlb = s.tlb := rfl
@[simp] theorem State.onHall_walks (s : State) (h : BitVec 4) (f : Hall → Hall) : (s.onHall h f).walks = s.walks := rfl
@[simp] theorem State.onHall_era (s : State) (h : BitVec 4) (f : Hall → Hall) : (s.onHall h f).era = s.era := rfl
@[simp] theorem State.onHall_icache (s : State) (h : BitVec 4) (f : Hall → Hall) : (s.onHall h f).icache = s.icache := rfl
@[simp] theorem State.onHall_vfs (s : State) (h : BitVec 4) (f : Hall → Hall) : (s.onHall h f).vfs = s.vfs := rfl
@[simp] theorem State.onHall_launches (s : State) (h : BitVec 4) (f : Hall → Hall) : (s.onHall h f).launches = s.launches := rfl
@[simp] theorem State.onHall_graphs (s : State) (h : BitVec 4) (f : Hall → Hall) : (s.onHall h f).graphs = s.graphs := rfl
@[simp] theorem State.onHall_units (s : State) (h : BitVec 4) (f : Hall → Hall) : (s.onHall h f).units = s.units := rfl
@[simp] theorem State.onHall_cmds (s : State) (h : BitVec 4) (f : Hall → Hall) : (s.onHall h f).cmds = s.cmds := rfl
@[simp] theorem State.onHall_accums (s : State) (h : BitVec 4) (f : Hall → Hall) : (s.onHall h f).accums = s.accums := rfl
@[simp] theorem State.onHall_colls (s : State) (h : BitVec 4) (f : Hall → Hall) : (s.onHall h f).colls = s.colls := rfl
@[simp] theorem State.onHall_hostPorts (s : State) (h : BitVec 4) (f : Hall → Hall) : (s.onHall h f).hostPorts = s.hostPorts := rfl
@[simp] theorem State.onHall_hostLines (s : State) (h : BitVec 4) (f : Hall → Hall) : (s.onHall h f).hostLines = s.hostLines := rfl
@[simp] theorem State.onHall_fabric (s : State) (h : BitVec 4) (f : Hall → Hall) : (s.onHall h f).fabric = s.fabric := rfl
@[simp] theorem State.onHall_pkgstat (s : State) (h : BitVec 4) (f : Hall → Hall) : (s.onHall h f).pkgstat = s.pkgstat := rfl
@[simp] theorem State.onHall_ptpcfg (s : State) (h : BitVec 4) (f : Hall → Hall) : (s.onHall h f).ptpcfg = s.ptpcfg := rfl
@[simp] theorem State.onHall_ptpLock (s : State) (h : BitVec 4) (f : Hall → Hall) : (s.onHall h f).ptpLock = s.ptpLock := rfl
@[simp] theorem State.onHall_ptpOffset (s : State) (h : BitVec 4) (f : Hall → Hall) : (s.onHall h f).ptpOffset = s.ptpOffset := rfl
@[simp] theorem State.onHall_ptpGood (s : State) (h : BitVec 4) (f : Hall → Hall) : (s.onHall h f).ptpGood = s.ptpGood := rfl
@[simp] theorem State.onHall_image (s : State) (h : BitVec 4) (f : Hall → Hall) : (s.onHall h f).image = s.image := rfl
@[simp] theorem State.onHall_schedule (s : State) (h : BitVec 4) (f : Hall → Hall) : (s.onHall h f).schedule = s.schedule := rfl
@[simp] theorem State.onHall_fresh (s : State) (h : BitVec 4) (f : Hall → Hall) : (s.onHall h f).fresh = s.fresh := rfl
@[simp] theorem State.onHall_nextId (s : State) (h : BitVec 4) (f : Hall → Hall) : (s.onHall h f).nextId = s.nextId := rfl

@[simp] theorem State.onHall_hart (s : State) (h : BitVec 4) (f : Hall → Hall) : (s.onHall h f).hart = s.hart := rfl

@[simp] theorem State.onCluster_pset (s : State) (h : BitVec 4) (c : BitVec 5) (f : Cluster → Cluster) : (s.onCluster h c f).pset = s.pset := rfl
@[simp] theorem State.onCluster_hid (s : State) (h : BitVec 4) (c : BitVec 5) (f : Cluster → Cluster) : (s.onCluster h c f).hid = s.hid := rfl
@[simp] theorem State.onCluster_podt (s : State) (h : BitVec 4) (c : BitVec 5) (f : Cluster → Cluster) : (s.onCluster h c f).podt = s.podt := rfl
@[simp] theorem State.onCluster_ra (s : State) (h : BitVec 4) (c : BitVec 5) (f : Cluster → Cluster) : (s.onCluster h c f).ra = s.ra := rfl
@[simp] theorem State.onCluster_mem (s : State) (h : BitVec 4) (c : BitVec 5) (f : Cluster → Cluster) : (s.onCluster h c f).mem = s.mem := rfl
@[simp] theorem State.onCluster_poison (s : State) (h : BitVec 4) (c : BitVec 5) (f : Cluster → Cluster) : (s.onCluster h c f).poison = s.poison := rfl
@[simp] theorem State.onCluster_dirty (s : State) (h : BitVec 4) (c : BitVec 5) (f : Cluster → Cluster) : (s.onCluster h c f).dirty = s.dirty := rfl
@[simp] theorem State.onCluster_wells (s : State) (h : BitVec 4) (c : BitVec 5) (f : Cluster → Cluster) : (s.onCluster h c f).wells = s.wells := rfl
@[simp] theorem State.onCluster_ink (s : State) (h : BitVec 4) (c : BitVec 5) (f : Cluster → Cluster) : (s.onCluster h c f).ink = s.ink := rfl
@[simp] theorem State.onCluster_replicas (s : State) (h : BitVec 4) (c : BitVec 5) (f : Cluster → Cluster) : (s.onCluster h c f).replicas = s.replicas := rfl
@[simp] theorem State.onCluster_pool (s : State) (h : BitVec 4) (c : BitVec 5) (f : Cluster → Cluster) : (s.onCluster h c f).pool = s.pool := rfl
@[simp] theorem State.onCluster_tlb (s : State) (h : BitVec 4) (c : BitVec 5) (f : Cluster → Cluster) : (s.onCluster h c f).tlb = s.tlb := rfl
@[simp] theorem State.onCluster_walks (s : State) (h : BitVec 4) (c : BitVec 5) (f : Cluster → Cluster) : (s.onCluster h c f).walks = s.walks := rfl
@[simp] theorem State.onCluster_era (s : State) (h : BitVec 4) (c : BitVec 5) (f : Cluster → Cluster) : (s.onCluster h c f).era = s.era := rfl
@[simp] theorem State.onCluster_icache (s : State) (h : BitVec 4) (c : BitVec 5) (f : Cluster → Cluster) : (s.onCluster h c f).icache = s.icache := rfl
@[simp] theorem State.onCluster_vfs (s : State) (h : BitVec 4) (c : BitVec 5) (f : Cluster → Cluster) : (s.onCluster h c f).vfs = s.vfs := rfl
@[simp] theorem State.onCluster_launches (s : State) (h : BitVec 4) (c : BitVec 5) (f : Cluster → Cluster) : (s.onCluster h c f).launches = s.launches := rfl
@[simp] theorem State.onCluster_graphs (s : State) (h : BitVec 4) (c : BitVec 5) (f : Cluster → Cluster) : (s.onCluster h c f).graphs = s.graphs := rfl
@[simp] theorem State.onCluster_units (s : State) (h : BitVec 4) (c : BitVec 5) (f : Cluster → Cluster) : (s.onCluster h c f).units = s.units := rfl
@[simp] theorem State.onCluster_cmds (s : State) (h : BitVec 4) (c : BitVec 5) (f : Cluster → Cluster) : (s.onCluster h c f).cmds = s.cmds := rfl
@[simp] theorem State.onCluster_accums (s : State) (h : BitVec 4) (c : BitVec 5) (f : Cluster → Cluster) : (s.onCluster h c f).accums = s.accums := rfl
@[simp] theorem State.onCluster_colls (s : State) (h : BitVec 4) (c : BitVec 5) (f : Cluster → Cluster) : (s.onCluster h c f).colls = s.colls := rfl
@[simp] theorem State.onCluster_hostPorts (s : State) (h : BitVec 4) (c : BitVec 5) (f : Cluster → Cluster) : (s.onCluster h c f).hostPorts = s.hostPorts := rfl
@[simp] theorem State.onCluster_hostLines (s : State) (h : BitVec 4) (c : BitVec 5) (f : Cluster → Cluster) : (s.onCluster h c f).hostLines = s.hostLines := rfl
@[simp] theorem State.onCluster_fabric (s : State) (h : BitVec 4) (c : BitVec 5) (f : Cluster → Cluster) : (s.onCluster h c f).fabric = s.fabric := rfl
@[simp] theorem State.onCluster_pkgstat (s : State) (h : BitVec 4) (c : BitVec 5) (f : Cluster → Cluster) : (s.onCluster h c f).pkgstat = s.pkgstat := rfl
@[simp] theorem State.onCluster_ptpcfg (s : State) (h : BitVec 4) (c : BitVec 5) (f : Cluster → Cluster) : (s.onCluster h c f).ptpcfg = s.ptpcfg := rfl
@[simp] theorem State.onCluster_ptpLock (s : State) (h : BitVec 4) (c : BitVec 5) (f : Cluster → Cluster) : (s.onCluster h c f).ptpLock = s.ptpLock := rfl
@[simp] theorem State.onCluster_ptpOffset (s : State) (h : BitVec 4) (c : BitVec 5) (f : Cluster → Cluster) : (s.onCluster h c f).ptpOffset = s.ptpOffset := rfl
@[simp] theorem State.onCluster_ptpGood (s : State) (h : BitVec 4) (c : BitVec 5) (f : Cluster → Cluster) : (s.onCluster h c f).ptpGood = s.ptpGood := rfl
@[simp] theorem State.onCluster_image (s : State) (h : BitVec 4) (c : BitVec 5) (f : Cluster → Cluster) : (s.onCluster h c f).image = s.image := rfl
@[simp] theorem State.onCluster_schedule (s : State) (h : BitVec 4) (c : BitVec 5) (f : Cluster → Cluster) : (s.onCluster h c f).schedule = s.schedule := rfl
@[simp] theorem State.onCluster_fresh (s : State) (h : BitVec 4) (c : BitVec 5) (f : Cluster → Cluster) : (s.onCluster h c f).fresh = s.fresh := rfl
@[simp] theorem State.onCluster_nextId (s : State) (h : BitVec 4) (c : BitVec 5) (f : Cluster → Cluster) : (s.onCluster h c f).nextId = s.nextId := rfl

@[simp] theorem State.onCluster_hart (s : State) (h : BitVec 4) (c : BitVec 5) (f : Cluster → Cluster) : (s.onCluster h c f).hart = s.hart := rfl

@[simp] theorem State.onVf_pset (s : State) (v : BitVec 10) (f : VF → VF) : (s.onVf v f).pset = s.pset := rfl
@[simp] theorem State.onVf_hid (s : State) (v : BitVec 10) (f : VF → VF) : (s.onVf v f).hid = s.hid := rfl
@[simp] theorem State.onVf_podt (s : State) (v : BitVec 10) (f : VF → VF) : (s.onVf v f).podt = s.podt := rfl
@[simp] theorem State.onVf_ra (s : State) (v : BitVec 10) (f : VF → VF) : (s.onVf v f).ra = s.ra := rfl
@[simp] theorem State.onVf_mem (s : State) (v : BitVec 10) (f : VF → VF) : (s.onVf v f).mem = s.mem := rfl
@[simp] theorem State.onVf_poison (s : State) (v : BitVec 10) (f : VF → VF) : (s.onVf v f).poison = s.poison := rfl
@[simp] theorem State.onVf_dirty (s : State) (v : BitVec 10) (f : VF → VF) : (s.onVf v f).dirty = s.dirty := rfl
@[simp] theorem State.onVf_wells (s : State) (v : BitVec 10) (f : VF → VF) : (s.onVf v f).wells = s.wells := rfl
@[simp] theorem State.onVf_ink (s : State) (v : BitVec 10) (f : VF → VF) : (s.onVf v f).ink = s.ink := rfl
@[simp] theorem State.onVf_replicas (s : State) (v : BitVec 10) (f : VF → VF) : (s.onVf v f).replicas = s.replicas := rfl
@[simp] theorem State.onVf_pool (s : State) (v : BitVec 10) (f : VF → VF) : (s.onVf v f).pool = s.pool := rfl
@[simp] theorem State.onVf_tlb (s : State) (v : BitVec 10) (f : VF → VF) : (s.onVf v f).tlb = s.tlb := rfl
@[simp] theorem State.onVf_walks (s : State) (v : BitVec 10) (f : VF → VF) : (s.onVf v f).walks = s.walks := rfl
@[simp] theorem State.onVf_era (s : State) (v : BitVec 10) (f : VF → VF) : (s.onVf v f).era = s.era := rfl
@[simp] theorem State.onVf_icache (s : State) (v : BitVec 10) (f : VF → VF) : (s.onVf v f).icache = s.icache := rfl
@[simp] theorem State.onVf_halls (s : State) (v : BitVec 10) (f : VF → VF) : (s.onVf v f).halls = s.halls := rfl
@[simp] theorem State.onVf_launches (s : State) (v : BitVec 10) (f : VF → VF) : (s.onVf v f).launches = s.launches := rfl
@[simp] theorem State.onVf_graphs (s : State) (v : BitVec 10) (f : VF → VF) : (s.onVf v f).graphs = s.graphs := rfl
@[simp] theorem State.onVf_units (s : State) (v : BitVec 10) (f : VF → VF) : (s.onVf v f).units = s.units := rfl
@[simp] theorem State.onVf_cmds (s : State) (v : BitVec 10) (f : VF → VF) : (s.onVf v f).cmds = s.cmds := rfl
@[simp] theorem State.onVf_accums (s : State) (v : BitVec 10) (f : VF → VF) : (s.onVf v f).accums = s.accums := rfl
@[simp] theorem State.onVf_colls (s : State) (v : BitVec 10) (f : VF → VF) : (s.onVf v f).colls = s.colls := rfl
@[simp] theorem State.onVf_hostPorts (s : State) (v : BitVec 10) (f : VF → VF) : (s.onVf v f).hostPorts = s.hostPorts := rfl
@[simp] theorem State.onVf_hostLines (s : State) (v : BitVec 10) (f : VF → VF) : (s.onVf v f).hostLines = s.hostLines := rfl
@[simp] theorem State.onVf_fabric (s : State) (v : BitVec 10) (f : VF → VF) : (s.onVf v f).fabric = s.fabric := rfl
@[simp] theorem State.onVf_pkgstat (s : State) (v : BitVec 10) (f : VF → VF) : (s.onVf v f).pkgstat = s.pkgstat := rfl
@[simp] theorem State.onVf_ptpcfg (s : State) (v : BitVec 10) (f : VF → VF) : (s.onVf v f).ptpcfg = s.ptpcfg := rfl
@[simp] theorem State.onVf_ptpLock (s : State) (v : BitVec 10) (f : VF → VF) : (s.onVf v f).ptpLock = s.ptpLock := rfl
@[simp] theorem State.onVf_ptpOffset (s : State) (v : BitVec 10) (f : VF → VF) : (s.onVf v f).ptpOffset = s.ptpOffset := rfl
@[simp] theorem State.onVf_ptpGood (s : State) (v : BitVec 10) (f : VF → VF) : (s.onVf v f).ptpGood = s.ptpGood := rfl
@[simp] theorem State.onVf_image (s : State) (v : BitVec 10) (f : VF → VF) : (s.onVf v f).image = s.image := rfl
@[simp] theorem State.onVf_schedule (s : State) (v : BitVec 10) (f : VF → VF) : (s.onVf v f).schedule = s.schedule := rfl
@[simp] theorem State.onVf_fresh (s : State) (v : BitVec 10) (f : VF → VF) : (s.onVf v f).fresh = s.fresh := rfl
@[simp] theorem State.onVf_nextId (s : State) (v : BitVec 10) (f : VF → VF) : (s.onVf v f).nextId = s.nextId := rfl

@[simp] theorem State.onVf_hart (s : State) (v : BitVec 10) (f : VF → VF) : (s.onVf v f).hart = s.hart := rfl

@[simp] theorem State.setG_pset (s : State) (i : BitVec 5) (x : Word) : (s.setG i x).pset = s.pset := by unfold State.setG; split <;> rfl
@[simp] theorem State.setG_hid (s : State) (i : BitVec 5) (x : Word) : (s.setG i x).hid = s.hid := by unfold State.setG; split <;> rfl
@[simp] theorem State.setG_podt (s : State) (i : BitVec 5) (x : Word) : (s.setG i x).podt = s.podt := by unfold State.setG; split <;> rfl
@[simp] theorem State.setG_ra (s : State) (i : BitVec 5) (x : Word) : (s.setG i x).ra = s.ra := by unfold State.setG; split <;> rfl
@[simp] theorem State.setG_mem (s : State) (i : BitVec 5) (x : Word) : (s.setG i x).mem = s.mem := by unfold State.setG; split <;> rfl
@[simp] theorem State.setG_poison (s : State) (i : BitVec 5) (x : Word) : (s.setG i x).poison = s.poison := by unfold State.setG; split <;> rfl
@[simp] theorem State.setG_dirty (s : State) (i : BitVec 5) (x : Word) : (s.setG i x).dirty = s.dirty := by unfold State.setG; split <;> rfl
@[simp] theorem State.setG_wells (s : State) (i : BitVec 5) (x : Word) : (s.setG i x).wells = s.wells := by unfold State.setG; split <;> rfl
@[simp] theorem State.setG_ink (s : State) (i : BitVec 5) (x : Word) : (s.setG i x).ink = s.ink := by unfold State.setG; split <;> rfl
@[simp] theorem State.setG_replicas (s : State) (i : BitVec 5) (x : Word) : (s.setG i x).replicas = s.replicas := by unfold State.setG; split <;> rfl
@[simp] theorem State.setG_pool (s : State) (i : BitVec 5) (x : Word) : (s.setG i x).pool = s.pool := by unfold State.setG; split <;> rfl
@[simp] theorem State.setG_tlb (s : State) (i : BitVec 5) (x : Word) : (s.setG i x).tlb = s.tlb := by unfold State.setG; split <;> rfl
@[simp] theorem State.setG_walks (s : State) (i : BitVec 5) (x : Word) : (s.setG i x).walks = s.walks := by unfold State.setG; split <;> rfl
@[simp] theorem State.setG_era (s : State) (i : BitVec 5) (x : Word) : (s.setG i x).era = s.era := by unfold State.setG; split <;> rfl
@[simp] theorem State.setG_icache (s : State) (i : BitVec 5) (x : Word) : (s.setG i x).icache = s.icache := by unfold State.setG; split <;> rfl
@[simp] theorem State.setG_halls (s : State) (i : BitVec 5) (x : Word) : (s.setG i x).halls = s.halls := by unfold State.setG; split <;> rfl
@[simp] theorem State.setG_vfs (s : State) (i : BitVec 5) (x : Word) : (s.setG i x).vfs = s.vfs := by unfold State.setG; split <;> rfl
@[simp] theorem State.setG_launches (s : State) (i : BitVec 5) (x : Word) : (s.setG i x).launches = s.launches := by unfold State.setG; split <;> rfl
@[simp] theorem State.setG_graphs (s : State) (i : BitVec 5) (x : Word) : (s.setG i x).graphs = s.graphs := by unfold State.setG; split <;> rfl
@[simp] theorem State.setG_units (s : State) (i : BitVec 5) (x : Word) : (s.setG i x).units = s.units := by unfold State.setG; split <;> rfl
@[simp] theorem State.setG_cmds (s : State) (i : BitVec 5) (x : Word) : (s.setG i x).cmds = s.cmds := by unfold State.setG; split <;> rfl
@[simp] theorem State.setG_accums (s : State) (i : BitVec 5) (x : Word) : (s.setG i x).accums = s.accums := by unfold State.setG; split <;> rfl
@[simp] theorem State.setG_colls (s : State) (i : BitVec 5) (x : Word) : (s.setG i x).colls = s.colls := by unfold State.setG; split <;> rfl
@[simp] theorem State.setG_hostPorts (s : State) (i : BitVec 5) (x : Word) : (s.setG i x).hostPorts = s.hostPorts := by unfold State.setG; split <;> rfl
@[simp] theorem State.setG_hostLines (s : State) (i : BitVec 5) (x : Word) : (s.setG i x).hostLines = s.hostLines := by unfold State.setG; split <;> rfl
@[simp] theorem State.setG_fabric (s : State) (i : BitVec 5) (x : Word) : (s.setG i x).fabric = s.fabric := by unfold State.setG; split <;> rfl
@[simp] theorem State.setG_pkgstat (s : State) (i : BitVec 5) (x : Word) : (s.setG i x).pkgstat = s.pkgstat := by unfold State.setG; split <;> rfl
@[simp] theorem State.setG_ptpcfg (s : State) (i : BitVec 5) (x : Word) : (s.setG i x).ptpcfg = s.ptpcfg := by unfold State.setG; split <;> rfl
@[simp] theorem State.setG_ptpLock (s : State) (i : BitVec 5) (x : Word) : (s.setG i x).ptpLock = s.ptpLock := by unfold State.setG; split <;> rfl
@[simp] theorem State.setG_ptpOffset (s : State) (i : BitVec 5) (x : Word) : (s.setG i x).ptpOffset = s.ptpOffset := by unfold State.setG; split <;> rfl
@[simp] theorem State.setG_ptpGood (s : State) (i : BitVec 5) (x : Word) : (s.setG i x).ptpGood = s.ptpGood := by unfold State.setG; split <;> rfl
@[simp] theorem State.setG_image (s : State) (i : BitVec 5) (x : Word) : (s.setG i x).image = s.image := by unfold State.setG; split <;> rfl
@[simp] theorem State.setG_schedule (s : State) (i : BitVec 5) (x : Word) : (s.setG i x).schedule = s.schedule := by unfold State.setG; split <;> rfl
@[simp] theorem State.setG_fresh (s : State) (i : BitVec 5) (x : Word) : (s.setG i x).fresh = s.fresh := by unfold State.setG; split <;> rfl
@[simp] theorem State.setG_nextId (s : State) (i : BitVec 5) (x : Word) : (s.setG i x).nextId = s.nextId := by unfold State.setG; split <;> rfl
@[simp] theorem State.setG_hart_v (s : State) (i : BitVec 5) (x : Word) : (s.setG i x).hart.v = s.hart.v := by unfold State.setG; split <;> rfl
@[simp] theorem State.setG_hart_hwm (s : State) (i : BitVec 5) (x : Word) : (s.setG i x).hart.hwm = s.hart.hwm := by unfold State.setG; split <;> rfl
@[simp] theorem State.setG_hart_m (s : State) (i : BitVec 5) (x : Word) : (s.setG i x).hart.m = s.hart.m := by unfold State.setG; split <;> rfl
@[simp] theorem State.setG_hart_z (s : State) (i : BitVec 5) (x : Word) : (s.setG i x).hart.z = s.hart.z := by unfold State.setG; split <;> rfl
@[simp] theorem State.setG_hart_l (s : State) (i : BitVec 5) (x : Word) : (s.setG i x).hart.l = s.hart.l := by unfold State.setG; split <;> rfl
@[simp] theorem State.setG_hart_ldesc (s : State) (i : BitVec 5) (x : Word) : (s.setG i x).hart.ldesc = s.hart.ldesc := by unfold State.setG; split <;> rfl
@[simp] theorem State.setG_hart_k (s : State) (i : BitVec 5) (x : Word) : (s.setG i x).hart.k = s.hart.k := by unfold State.setG; split <;> rfl
@[simp] theorem State.setG_hart_pc (s : State) (i : BitVec 5) (x : Word) : (s.setG i x).hart.pc = s.hart.pc := by unfold State.setG; split <;> rfl
@[simp] theorem State.setG_hart_mode (s : State) (i : BitVec 5) (x : Word) : (s.setG i x).hart.mode = s.hart.mode := by unfold State.setG; split <;> rfl
@[simp] theorem State.setG_hart_vl (s : State) (i : BitVec 5) (x : Word) : (s.setG i x).hart.vl = s.hart.vl := by unfold State.setG; split <;> rfl
@[simp] theorem State.setG_hart_vlw (s : State) (i : BitVec 5) (x : Word) : (s.setG i x).hart.vlw = s.hart.vlw := by unfold State.setG; split <;> rfl
@[simp] theorem State.setG_hart_vstart (s : State) (i : BitVec 5) (x : Word) : (s.setG i x).hart.vstart = s.hart.vstart := by unfold State.setG; split <;> rfl
@[simp] theorem State.setG_hart_vmode (s : State) (i : BitVec 5) (x : Word) : (s.setG i x).hart.vmode = s.hart.vmode := by unfold State.setG; split <;> rfl
@[simp] theorem State.setG_hart_vstat (s : State) (i : BitVec 5) (x : Word) : (s.setG i x).hart.vstat = s.hart.vstat := by unfold State.setG; split <;> rfl
@[simp] theorem State.setG_hart_fstat (s : State) (i : BitVec 5) (x : Word) : (s.setG i x).hart.fstat = s.hart.fstat := by unfold State.setG; split <;> rfl
@[simp] theorem State.setG_hart_vlmaxb (s : State) (i : BitVec 5) (x : Word) : (s.setG i x).hart.vlmaxb = s.hart.vlmaxb := by unfold State.setG; split <;> rfl
@[simp] theorem State.setG_hart_vcap (s : State) (i : BitVec 5) (x : Word) : (s.setG i x).hart.vcap = s.hart.vcap := by unfold State.setG; split <;> rfl
@[simp] theorem State.setG_hart_uid (s : State) (i : BitVec 5) (x : Word) : (s.setG i x).hart.uid = s.hart.uid := by unfold State.setG; split <;> rfl
@[simp] theorem State.setG_hart_lid (s : State) (i : BitVec 5) (x : Word) : (s.setG i x).hart.lid = s.hart.lid := by unfold State.setG; split <;> rfl
@[simp] theorem State.setG_hart_spbase (s : State) (i : BitVec 5) (x : Word) : (s.setG i x).hart.spbase = s.hart.spbase := by unfold State.setG; split <;> rfl
@[simp] theorem State.setG_hart_srseed (s : State) (i : BitVec 5) (x : Word) : (s.setG i x).hart.srseed = s.hart.srseed := by unfold State.setG; split <;> rfl
@[simp] theorem State.setG_hart_srbase (s : State) (i : BitVec 5) (x : Word) : (s.setG i x).hart.srbase = s.hart.srbase := by unfold State.setG; split <;> rfl
@[simp] theorem State.setG_hart_sset (s : State) (i : BitVec 5) (x : Word) : (s.setG i x).hart.sset = s.hart.sset := by unfold State.setG; split <;> rfl
@[simp] theorem State.setG_hart_claim (s : State) (i : BitVec 5) (x : Word) : (s.setG i x).hart.claim = s.hart.claim := by unfold State.setG; split <;> rfl
@[simp] theorem State.setG_hart_seq (s : State) (i : BitVec 5) (x : Word) : (s.setG i x).hart.seq = s.hart.seq := by unfold State.setG; split <;> rfl
@[simp] theorem State.setG_hart_posted (s : State) (i : BitVec 5) (x : Word) : (s.setG i x).hart.posted = s.hart.posted := by unfold State.setG; split <;> rfl
@[simp] theorem State.setG_hart_vops (s : State) (i : BitVec 5) (x : Word) : (s.setG i x).hart.vops = s.hart.vops := by unfold State.setG; split <;> rfl
@[simp] theorem State.setG_hart_armed (s : State) (i : BitVec 5) (x : Word) : (s.setG i x).hart.armed = s.hart.armed := by unfold State.setG; split <;> rfl
@[simp] theorem State.setG_hart_fired (s : State) (i : BitVec 5) (x : Word) : (s.setG i x).hart.fired = s.hart.fired := by unfold State.setG; split <;> rfl
@[simp] theorem State.setG_hart_armedPa (s : State) (i : BitVec 5) (x : Word) : (s.setG i x).hart.armedPa = s.hart.armedPa := by unfold State.setG; split <;> rfl
@[simp] theorem State.setG_hart_wakes (s : State) (i : BitVec 5) (x : Word) : (s.setG i x).hart.wakes = s.hart.wakes := by unfold State.setG; split <;> rfl
@[simp] theorem State.setG_hart_wait (s : State) (i : BitVec 5) (x : Word) : (s.setG i x).hart.wait = s.hart.wait := by unfold State.setG; split <;> rfl
@[simp] theorem State.setG_hart_unit (s : State) (i : BitVec 5) (x : Word) : (s.setG i x).hart.unit = s.hart.unit := by unfold State.setG; split <;> rfl
@[simp] theorem State.setG_hart_fq (s : State) (i : BitVec 5) (x : Word) : (s.setG i x).hart.fq = s.hart.fq := by unfold State.setG; split <;> rfl
@[simp] theorem State.setG_hart_stopped (s : State) (i : BitVec 5) (x : Word) : (s.setG i x).hart.stopped = s.hart.stopped := by unfold State.setG; split <;> rfl
@[simp] theorem State.setG_hart_undelivered (s : State) (i : BitVec 5) (x : Word) : (s.setG i x).hart.undelivered = s.hart.undelivered := by unfold State.setG; split <;> rfl
@[simp] theorem State.setG_hart_transfer (s : State) (i : BitVec 5) (x : Word) : (s.setG i x).hart.transfer = s.hart.transfer := by unfold State.setG; split <;> rfl
@[simp] theorem State.setG_hart_spanLost (s : State) (i : BitVec 5) (x : Word) : (s.setG i x).hart.spanLost = s.hart.spanLost := by unfold State.setG; split <;> rfl
@[simp] theorem State.setG_hart_rejoin (s : State) (i : BitVec 5) (x : Word) : (s.setG i x).hart.rejoin = s.hart.rejoin := by unfold State.setG; split <;> rfl
@[simp] theorem State.setG_hart_warm (s : State) (i : BitVec 5) (x : Word) : (s.setG i x).hart.warm = s.hart.warm := by unfold State.setG; split <;> rfl
@[simp] theorem State.setG_hart_cut (s : State) (i : BitVec 5) (x : Word) : (s.setG i x).hart.cut = s.hart.cut := by unfold State.setG; split <;> rfl
@[simp] theorem State.setG_hart_ir (s : State) (i : BitVec 5) (x : Word) : (s.setG i x).hart.ir = s.hart.ir := by unfold State.setG; split <;> rfl

@[simp] theorem State.countInstr_pset (s : State)  : (s.countInstr).pset = s.pset := by unfold State.countInstr; split <;> rfl
@[simp] theorem State.countInstr_hid (s : State)  : (s.countInstr).hid = s.hid := by unfold State.countInstr; split <;> rfl
@[simp] theorem State.countInstr_podt (s : State)  : (s.countInstr).podt = s.podt := by unfold State.countInstr; split <;> rfl
@[simp] theorem State.countInstr_ra (s : State)  : (s.countInstr).ra = s.ra := by unfold State.countInstr; split <;> rfl
@[simp] theorem State.countInstr_mem (s : State)  : (s.countInstr).mem = s.mem := by unfold State.countInstr; split <;> rfl
@[simp] theorem State.countInstr_poison (s : State)  : (s.countInstr).poison = s.poison := by unfold State.countInstr; split <;> rfl
@[simp] theorem State.countInstr_dirty (s : State)  : (s.countInstr).dirty = s.dirty := by unfold State.countInstr; split <;> rfl
@[simp] theorem State.countInstr_wells (s : State)  : (s.countInstr).wells = s.wells := by unfold State.countInstr; split <;> rfl
@[simp] theorem State.countInstr_ink (s : State)  : (s.countInstr).ink = s.ink := by unfold State.countInstr; split <;> rfl
@[simp] theorem State.countInstr_replicas (s : State)  : (s.countInstr).replicas = s.replicas := by unfold State.countInstr; split <;> rfl
@[simp] theorem State.countInstr_pool (s : State)  : (s.countInstr).pool = s.pool := by unfold State.countInstr; split <;> rfl
@[simp] theorem State.countInstr_tlb (s : State)  : (s.countInstr).tlb = s.tlb := by unfold State.countInstr; split <;> rfl
@[simp] theorem State.countInstr_walks (s : State)  : (s.countInstr).walks = s.walks := by unfold State.countInstr; split <;> rfl
@[simp] theorem State.countInstr_era (s : State)  : (s.countInstr).era = s.era := by unfold State.countInstr; split <;> rfl
@[simp] theorem State.countInstr_icache (s : State)  : (s.countInstr).icache = s.icache := by unfold State.countInstr; split <;> rfl
@[simp] theorem State.countInstr_vfs (s : State)  : (s.countInstr).vfs = s.vfs := by unfold State.countInstr; split <;> rfl
@[simp] theorem State.countInstr_launches (s : State)  : (s.countInstr).launches = s.launches := by unfold State.countInstr; split <;> rfl
@[simp] theorem State.countInstr_graphs (s : State)  : (s.countInstr).graphs = s.graphs := by unfold State.countInstr; split <;> rfl
@[simp] theorem State.countInstr_units (s : State)  : (s.countInstr).units = s.units := by unfold State.countInstr; split <;> rfl
@[simp] theorem State.countInstr_cmds (s : State)  : (s.countInstr).cmds = s.cmds := by unfold State.countInstr; split <;> rfl
@[simp] theorem State.countInstr_accums (s : State)  : (s.countInstr).accums = s.accums := by unfold State.countInstr; split <;> rfl
@[simp] theorem State.countInstr_colls (s : State)  : (s.countInstr).colls = s.colls := by unfold State.countInstr; split <;> rfl
@[simp] theorem State.countInstr_hostPorts (s : State)  : (s.countInstr).hostPorts = s.hostPorts := by unfold State.countInstr; split <;> rfl
@[simp] theorem State.countInstr_hostLines (s : State)  : (s.countInstr).hostLines = s.hostLines := by unfold State.countInstr; split <;> rfl
@[simp] theorem State.countInstr_fabric (s : State)  : (s.countInstr).fabric = s.fabric := by unfold State.countInstr; split <;> rfl
@[simp] theorem State.countInstr_pkgstat (s : State)  : (s.countInstr).pkgstat = s.pkgstat := by unfold State.countInstr; split <;> rfl
@[simp] theorem State.countInstr_ptpcfg (s : State)  : (s.countInstr).ptpcfg = s.ptpcfg := by unfold State.countInstr; split <;> rfl
@[simp] theorem State.countInstr_ptpLock (s : State)  : (s.countInstr).ptpLock = s.ptpLock := by unfold State.countInstr; split <;> rfl
@[simp] theorem State.countInstr_ptpOffset (s : State)  : (s.countInstr).ptpOffset = s.ptpOffset := by unfold State.countInstr; split <;> rfl
@[simp] theorem State.countInstr_ptpGood (s : State)  : (s.countInstr).ptpGood = s.ptpGood := by unfold State.countInstr; split <;> rfl
@[simp] theorem State.countInstr_image (s : State)  : (s.countInstr).image = s.image := by unfold State.countInstr; split <;> rfl
@[simp] theorem State.countInstr_schedule (s : State)  : (s.countInstr).schedule = s.schedule := by unfold State.countInstr; split <;> rfl
@[simp] theorem State.countInstr_fresh (s : State)  : (s.countInstr).fresh = s.fresh := by unfold State.countInstr; split <;> rfl
@[simp] theorem State.countInstr_nextId (s : State)  : (s.countInstr).nextId = s.nextId := by unfold State.countInstr; split <;> rfl
@[simp] theorem State.countInstr_hart_g (s : State)  : (s.countInstr).hart.g = s.hart.g := by unfold State.countInstr; split <;> rfl
@[simp] theorem State.countInstr_hart_v (s : State)  : (s.countInstr).hart.v = s.hart.v := by unfold State.countInstr; split <;> rfl
@[simp] theorem State.countInstr_hart_hwm (s : State)  : (s.countInstr).hart.hwm = s.hart.hwm := by unfold State.countInstr; split <;> rfl
@[simp] theorem State.countInstr_hart_m (s : State)  : (s.countInstr).hart.m = s.hart.m := by unfold State.countInstr; split <;> rfl
@[simp] theorem State.countInstr_hart_z (s : State)  : (s.countInstr).hart.z = s.hart.z := by unfold State.countInstr; split <;> rfl
@[simp] theorem State.countInstr_hart_l (s : State)  : (s.countInstr).hart.l = s.hart.l := by unfold State.countInstr; split <;> rfl
@[simp] theorem State.countInstr_hart_ldesc (s : State)  : (s.countInstr).hart.ldesc = s.hart.ldesc := by unfold State.countInstr; split <;> rfl
@[simp] theorem State.countInstr_hart_k (s : State)  : (s.countInstr).hart.k = s.hart.k := by unfold State.countInstr; split <;> rfl
@[simp] theorem State.countInstr_hart_pc (s : State)  : (s.countInstr).hart.pc = s.hart.pc := by unfold State.countInstr; split <;> rfl
@[simp] theorem State.countInstr_hart_mode (s : State)  : (s.countInstr).hart.mode = s.hart.mode := by unfold State.countInstr; split <;> rfl
@[simp] theorem State.countInstr_hart_vl (s : State)  : (s.countInstr).hart.vl = s.hart.vl := by unfold State.countInstr; split <;> rfl
@[simp] theorem State.countInstr_hart_vlw (s : State)  : (s.countInstr).hart.vlw = s.hart.vlw := by unfold State.countInstr; split <;> rfl
@[simp] theorem State.countInstr_hart_vstart (s : State)  : (s.countInstr).hart.vstart = s.hart.vstart := by unfold State.countInstr; split <;> rfl
@[simp] theorem State.countInstr_hart_vmode (s : State)  : (s.countInstr).hart.vmode = s.hart.vmode := by unfold State.countInstr; split <;> rfl
@[simp] theorem State.countInstr_hart_vstat (s : State)  : (s.countInstr).hart.vstat = s.hart.vstat := by unfold State.countInstr; split <;> rfl
@[simp] theorem State.countInstr_hart_fstat (s : State)  : (s.countInstr).hart.fstat = s.hart.fstat := by unfold State.countInstr; split <;> rfl
@[simp] theorem State.countInstr_hart_vlmaxb (s : State)  : (s.countInstr).hart.vlmaxb = s.hart.vlmaxb := by unfold State.countInstr; split <;> rfl
@[simp] theorem State.countInstr_hart_vcap (s : State)  : (s.countInstr).hart.vcap = s.hart.vcap := by unfold State.countInstr; split <;> rfl
@[simp] theorem State.countInstr_hart_uid (s : State)  : (s.countInstr).hart.uid = s.hart.uid := by unfold State.countInstr; split <;> rfl
@[simp] theorem State.countInstr_hart_lid (s : State)  : (s.countInstr).hart.lid = s.hart.lid := by unfold State.countInstr; split <;> rfl
@[simp] theorem State.countInstr_hart_spbase (s : State)  : (s.countInstr).hart.spbase = s.hart.spbase := by unfold State.countInstr; split <;> rfl
@[simp] theorem State.countInstr_hart_srseed (s : State)  : (s.countInstr).hart.srseed = s.hart.srseed := by unfold State.countInstr; split <;> rfl
@[simp] theorem State.countInstr_hart_srbase (s : State)  : (s.countInstr).hart.srbase = s.hart.srbase := by unfold State.countInstr; split <;> rfl
@[simp] theorem State.countInstr_hart_sset (s : State)  : (s.countInstr).hart.sset = s.hart.sset := by unfold State.countInstr; split <;> rfl
@[simp] theorem State.countInstr_hart_claim (s : State)  : (s.countInstr).hart.claim = s.hart.claim := by unfold State.countInstr; split <;> rfl
@[simp] theorem State.countInstr_hart_seq (s : State)  : (s.countInstr).hart.seq = s.hart.seq := by unfold State.countInstr; split <;> rfl
@[simp] theorem State.countInstr_hart_posted (s : State)  : (s.countInstr).hart.posted = s.hart.posted := by unfold State.countInstr; split <;> rfl
@[simp] theorem State.countInstr_hart_vops (s : State)  : (s.countInstr).hart.vops = s.hart.vops := by unfold State.countInstr; split <;> rfl
@[simp] theorem State.countInstr_hart_armed (s : State)  : (s.countInstr).hart.armed = s.hart.armed := by unfold State.countInstr; split <;> rfl
@[simp] theorem State.countInstr_hart_fired (s : State)  : (s.countInstr).hart.fired = s.hart.fired := by unfold State.countInstr; split <;> rfl
@[simp] theorem State.countInstr_hart_armedPa (s : State)  : (s.countInstr).hart.armedPa = s.hart.armedPa := by unfold State.countInstr; split <;> rfl
@[simp] theorem State.countInstr_hart_wakes (s : State)  : (s.countInstr).hart.wakes = s.hart.wakes := by unfold State.countInstr; split <;> rfl
@[simp] theorem State.countInstr_hart_wait (s : State)  : (s.countInstr).hart.wait = s.hart.wait := by unfold State.countInstr; split <;> rfl
@[simp] theorem State.countInstr_hart_unit (s : State)  : (s.countInstr).hart.unit = s.hart.unit := by unfold State.countInstr; split <;> rfl
@[simp] theorem State.countInstr_hart_fq (s : State)  : (s.countInstr).hart.fq = s.hart.fq := by unfold State.countInstr; split <;> rfl
@[simp] theorem State.countInstr_hart_stopped (s : State)  : (s.countInstr).hart.stopped = s.hart.stopped := by unfold State.countInstr; split <;> rfl
@[simp] theorem State.countInstr_hart_undelivered (s : State)  : (s.countInstr).hart.undelivered = s.hart.undelivered := by unfold State.countInstr; split <;> rfl
@[simp] theorem State.countInstr_hart_transfer (s : State)  : (s.countInstr).hart.transfer = s.hart.transfer := by unfold State.countInstr; split <;> rfl
@[simp] theorem State.countInstr_hart_spanLost (s : State)  : (s.countInstr).hart.spanLost = s.hart.spanLost := by unfold State.countInstr; split <;> rfl
@[simp] theorem State.countInstr_hart_rejoin (s : State)  : (s.countInstr).hart.rejoin = s.hart.rejoin := by unfold State.countInstr; split <;> rfl
@[simp] theorem State.countInstr_hart_warm (s : State)  : (s.countInstr).hart.warm = s.hart.warm := by unfold State.countInstr; split <;> rfl
@[simp] theorem State.countInstr_hart_cut (s : State)  : (s.countInstr).hart.cut = s.hart.cut := by unfold State.countInstr; split <;> rfl
@[simp] theorem State.countInstr_hart_ir (s : State)  : (s.countInstr).hart.ir = s.hart.ir := by unfold State.countInstr; split <;> rfl

@[simp] theorem State.countInstr_hart (s : State) : s.countInstr.hart = s.hart := by unfold State.countInstr; split <;> rfl

@[simp] theorem State.retire_pset (s : State) (n : Word) : (s.retire n).pset = s.pset := by simp [State.retire]
@[simp] theorem State.retire_hid (s : State) (n : Word) : (s.retire n).hid = s.hid := by simp [State.retire]
@[simp] theorem State.retire_podt (s : State) (n : Word) : (s.retire n).podt = s.podt := by simp [State.retire]
@[simp] theorem State.retire_ra (s : State) (n : Word) : (s.retire n).ra = s.ra := by simp [State.retire]
@[simp] theorem State.retire_mem (s : State) (n : Word) : (s.retire n).mem = s.mem := by simp [State.retire]
@[simp] theorem State.retire_poison (s : State) (n : Word) : (s.retire n).poison = s.poison := by simp [State.retire]
@[simp] theorem State.retire_dirty (s : State) (n : Word) : (s.retire n).dirty = s.dirty := by simp [State.retire]
@[simp] theorem State.retire_wells (s : State) (n : Word) : (s.retire n).wells = s.wells := by simp [State.retire]
@[simp] theorem State.retire_ink (s : State) (n : Word) : (s.retire n).ink = s.ink := by simp [State.retire]
@[simp] theorem State.retire_replicas (s : State) (n : Word) : (s.retire n).replicas = s.replicas := by simp [State.retire]
@[simp] theorem State.retire_pool (s : State) (n : Word) : (s.retire n).pool = s.pool := by simp [State.retire]
@[simp] theorem State.retire_tlb (s : State) (n : Word) : (s.retire n).tlb = s.tlb := by simp [State.retire]
@[simp] theorem State.retire_walks (s : State) (n : Word) : (s.retire n).walks = s.walks := by simp [State.retire]
@[simp] theorem State.retire_era (s : State) (n : Word) : (s.retire n).era = s.era := by simp [State.retire]
@[simp] theorem State.retire_icache (s : State) (n : Word) : (s.retire n).icache = s.icache := by simp [State.retire]
@[simp] theorem State.retire_vfs (s : State) (n : Word) : (s.retire n).vfs = s.vfs := by simp [State.retire]
@[simp] theorem State.retire_launches (s : State) (n : Word) : (s.retire n).launches = s.launches := by simp [State.retire]
@[simp] theorem State.retire_graphs (s : State) (n : Word) : (s.retire n).graphs = s.graphs := by simp [State.retire]
@[simp] theorem State.retire_units (s : State) (n : Word) : (s.retire n).units = s.units := by simp [State.retire]
@[simp] theorem State.retire_cmds (s : State) (n : Word) : (s.retire n).cmds = s.cmds := by simp [State.retire]
@[simp] theorem State.retire_accums (s : State) (n : Word) : (s.retire n).accums = s.accums := by simp [State.retire]
@[simp] theorem State.retire_colls (s : State) (n : Word) : (s.retire n).colls = s.colls := by simp [State.retire]
@[simp] theorem State.retire_hostPorts (s : State) (n : Word) : (s.retire n).hostPorts = s.hostPorts := by simp [State.retire]
@[simp] theorem State.retire_hostLines (s : State) (n : Word) : (s.retire n).hostLines = s.hostLines := by simp [State.retire]
@[simp] theorem State.retire_fabric (s : State) (n : Word) : (s.retire n).fabric = s.fabric := by simp [State.retire]
@[simp] theorem State.retire_pkgstat (s : State) (n : Word) : (s.retire n).pkgstat = s.pkgstat := by simp [State.retire]
@[simp] theorem State.retire_ptpcfg (s : State) (n : Word) : (s.retire n).ptpcfg = s.ptpcfg := by simp [State.retire]
@[simp] theorem State.retire_ptpLock (s : State) (n : Word) : (s.retire n).ptpLock = s.ptpLock := by simp [State.retire]
@[simp] theorem State.retire_ptpOffset (s : State) (n : Word) : (s.retire n).ptpOffset = s.ptpOffset := by simp [State.retire]
@[simp] theorem State.retire_ptpGood (s : State) (n : Word) : (s.retire n).ptpGood = s.ptpGood := by simp [State.retire]
@[simp] theorem State.retire_image (s : State) (n : Word) : (s.retire n).image = s.image := by simp [State.retire]
@[simp] theorem State.retire_schedule (s : State) (n : Word) : (s.retire n).schedule = s.schedule := by simp [State.retire]
@[simp] theorem State.retire_fresh (s : State) (n : Word) : (s.retire n).fresh = s.fresh := by simp [State.retire]
@[simp] theorem State.retire_nextId (s : State) (n : Word) : (s.retire n).nextId = s.nextId := by simp [State.retire]
@[simp] theorem State.retire_hart_g (s : State) (n : Word) : (s.retire n).hart.g = s.hart.g := by simp [State.retire]
@[simp] theorem State.retire_hart_v (s : State) (n : Word) : (s.retire n).hart.v = s.hart.v := by simp [State.retire]
@[simp] theorem State.retire_hart_hwm (s : State) (n : Word) : (s.retire n).hart.hwm = s.hart.hwm := by simp [State.retire]
@[simp] theorem State.retire_hart_m (s : State) (n : Word) : (s.retire n).hart.m = s.hart.m := by simp [State.retire]
@[simp] theorem State.retire_hart_z (s : State) (n : Word) : (s.retire n).hart.z = s.hart.z := by simp [State.retire]
@[simp] theorem State.retire_hart_l (s : State) (n : Word) : (s.retire n).hart.l = s.hart.l := by simp [State.retire]
@[simp] theorem State.retire_hart_ldesc (s : State) (n : Word) : (s.retire n).hart.ldesc = s.hart.ldesc := by simp [State.retire]
@[simp] theorem State.retire_hart_k (s : State) (n : Word) : (s.retire n).hart.k = s.hart.k := by simp [State.retire]
@[simp] theorem State.retire_hart_mode (s : State) (n : Word) : (s.retire n).hart.mode = s.hart.mode := by simp [State.retire]
@[simp] theorem State.retire_hart_vl (s : State) (n : Word) : (s.retire n).hart.vl = s.hart.vl := by simp [State.retire]
@[simp] theorem State.retire_hart_vlw (s : State) (n : Word) : (s.retire n).hart.vlw = s.hart.vlw := by simp [State.retire]
@[simp] theorem State.retire_hart_vstart (s : State) (n : Word) : (s.retire n).hart.vstart = s.hart.vstart := by simp [State.retire]
@[simp] theorem State.retire_hart_vmode (s : State) (n : Word) : (s.retire n).hart.vmode = s.hart.vmode := by simp [State.retire]
@[simp] theorem State.retire_hart_vstat (s : State) (n : Word) : (s.retire n).hart.vstat = s.hart.vstat := by simp [State.retire]
@[simp] theorem State.retire_hart_fstat (s : State) (n : Word) : (s.retire n).hart.fstat = s.hart.fstat := by simp [State.retire]
@[simp] theorem State.retire_hart_vlmaxb (s : State) (n : Word) : (s.retire n).hart.vlmaxb = s.hart.vlmaxb := by simp [State.retire]
@[simp] theorem State.retire_hart_vcap (s : State) (n : Word) : (s.retire n).hart.vcap = s.hart.vcap := by simp [State.retire]
@[simp] theorem State.retire_hart_uid (s : State) (n : Word) : (s.retire n).hart.uid = s.hart.uid := by simp [State.retire]
@[simp] theorem State.retire_hart_lid (s : State) (n : Word) : (s.retire n).hart.lid = s.hart.lid := by simp [State.retire]
@[simp] theorem State.retire_hart_spbase (s : State) (n : Word) : (s.retire n).hart.spbase = s.hart.spbase := by simp [State.retire]
@[simp] theorem State.retire_hart_srseed (s : State) (n : Word) : (s.retire n).hart.srseed = s.hart.srseed := by simp [State.retire]
@[simp] theorem State.retire_hart_srbase (s : State) (n : Word) : (s.retire n).hart.srbase = s.hart.srbase := by simp [State.retire]
@[simp] theorem State.retire_hart_sset (s : State) (n : Word) : (s.retire n).hart.sset = s.hart.sset := by simp [State.retire]
@[simp] theorem State.retire_hart_claim (s : State) (n : Word) : (s.retire n).hart.claim = s.hart.claim := by simp [State.retire]
@[simp] theorem State.retire_hart_seq (s : State) (n : Word) : (s.retire n).hart.seq = s.hart.seq := by simp [State.retire]
@[simp] theorem State.retire_hart_posted (s : State) (n : Word) : (s.retire n).hart.posted = s.hart.posted := by simp [State.retire]
@[simp] theorem State.retire_hart_vops (s : State) (n : Word) : (s.retire n).hart.vops = s.hart.vops := by simp [State.retire]
@[simp] theorem State.retire_hart_armed (s : State) (n : Word) : (s.retire n).hart.armed = s.hart.armed := by simp [State.retire]
@[simp] theorem State.retire_hart_fired (s : State) (n : Word) : (s.retire n).hart.fired = s.hart.fired := by simp [State.retire]
@[simp] theorem State.retire_hart_armedPa (s : State) (n : Word) : (s.retire n).hart.armedPa = s.hart.armedPa := by simp [State.retire]
@[simp] theorem State.retire_hart_wakes (s : State) (n : Word) : (s.retire n).hart.wakes = s.hart.wakes := by simp [State.retire]
@[simp] theorem State.retire_hart_wait (s : State) (n : Word) : (s.retire n).hart.wait = s.hart.wait := by simp [State.retire]
@[simp] theorem State.retire_hart_unit (s : State) (n : Word) : (s.retire n).hart.unit = s.hart.unit := by simp [State.retire]
@[simp] theorem State.retire_hart_fq (s : State) (n : Word) : (s.retire n).hart.fq = s.hart.fq := by simp [State.retire]
@[simp] theorem State.retire_hart_stopped (s : State) (n : Word) : (s.retire n).hart.stopped = s.hart.stopped := by simp [State.retire]
@[simp] theorem State.retire_hart_undelivered (s : State) (n : Word) : (s.retire n).hart.undelivered = s.hart.undelivered := by simp [State.retire]
@[simp] theorem State.retire_hart_spanLost (s : State) (n : Word) : (s.retire n).hart.spanLost = s.hart.spanLost := by simp [State.retire]
@[simp] theorem State.retire_hart_rejoin (s : State) (n : Word) : (s.retire n).hart.rejoin = s.hart.rejoin := by simp [State.retire]
@[simp] theorem State.retire_hart_warm (s : State) (n : Word) : (s.retire n).hart.warm = s.hart.warm := by simp [State.retire]
@[simp] theorem State.retire_hart_cut (s : State) (n : Word) : (s.retire n).hart.cut = s.hart.cut := by simp [State.retire]
@[simp] theorem State.retire_hart_ir (s : State) (n : Word) : (s.retire n).hart.ir = s.hart.ir := by simp [State.retire]

@[simp] theorem State.retire_hart_pc (s : State) (n : Word) : (s.retire n).hart.pc = s.hart.pc + n := by simp [State.retire]
@[simp] theorem State.retire_hart_transfer (s : State) (n : Word) : (s.retire n).hart.transfer = false := by simp [State.retire]

@[simp] theorem State.jump_pset (s : State) (t : Word) : (s.jump t).pset = s.pset := by simp [State.jump]
@[simp] theorem State.jump_hid (s : State) (t : Word) : (s.jump t).hid = s.hid := by simp [State.jump]
@[simp] theorem State.jump_podt (s : State) (t : Word) : (s.jump t).podt = s.podt := by simp [State.jump]
@[simp] theorem State.jump_ra (s : State) (t : Word) : (s.jump t).ra = s.ra := by simp [State.jump]
@[simp] theorem State.jump_mem (s : State) (t : Word) : (s.jump t).mem = s.mem := by simp [State.jump]
@[simp] theorem State.jump_poison (s : State) (t : Word) : (s.jump t).poison = s.poison := by simp [State.jump]
@[simp] theorem State.jump_dirty (s : State) (t : Word) : (s.jump t).dirty = s.dirty := by simp [State.jump]
@[simp] theorem State.jump_wells (s : State) (t : Word) : (s.jump t).wells = s.wells := by simp [State.jump]
@[simp] theorem State.jump_ink (s : State) (t : Word) : (s.jump t).ink = s.ink := by simp [State.jump]
@[simp] theorem State.jump_replicas (s : State) (t : Word) : (s.jump t).replicas = s.replicas := by simp [State.jump]
@[simp] theorem State.jump_pool (s : State) (t : Word) : (s.jump t).pool = s.pool := by simp [State.jump]
@[simp] theorem State.jump_tlb (s : State) (t : Word) : (s.jump t).tlb = s.tlb := by simp [State.jump]
@[simp] theorem State.jump_walks (s : State) (t : Word) : (s.jump t).walks = s.walks := by simp [State.jump]
@[simp] theorem State.jump_era (s : State) (t : Word) : (s.jump t).era = s.era := by simp [State.jump]
@[simp] theorem State.jump_icache (s : State) (t : Word) : (s.jump t).icache = s.icache := by simp [State.jump]
@[simp] theorem State.jump_vfs (s : State) (t : Word) : (s.jump t).vfs = s.vfs := by simp [State.jump]
@[simp] theorem State.jump_launches (s : State) (t : Word) : (s.jump t).launches = s.launches := by simp [State.jump]
@[simp] theorem State.jump_graphs (s : State) (t : Word) : (s.jump t).graphs = s.graphs := by simp [State.jump]
@[simp] theorem State.jump_units (s : State) (t : Word) : (s.jump t).units = s.units := by simp [State.jump]
@[simp] theorem State.jump_cmds (s : State) (t : Word) : (s.jump t).cmds = s.cmds := by simp [State.jump]
@[simp] theorem State.jump_accums (s : State) (t : Word) : (s.jump t).accums = s.accums := by simp [State.jump]
@[simp] theorem State.jump_colls (s : State) (t : Word) : (s.jump t).colls = s.colls := by simp [State.jump]
@[simp] theorem State.jump_hostPorts (s : State) (t : Word) : (s.jump t).hostPorts = s.hostPorts := by simp [State.jump]
@[simp] theorem State.jump_hostLines (s : State) (t : Word) : (s.jump t).hostLines = s.hostLines := by simp [State.jump]
@[simp] theorem State.jump_fabric (s : State) (t : Word) : (s.jump t).fabric = s.fabric := by simp [State.jump]
@[simp] theorem State.jump_pkgstat (s : State) (t : Word) : (s.jump t).pkgstat = s.pkgstat := by simp [State.jump]
@[simp] theorem State.jump_ptpcfg (s : State) (t : Word) : (s.jump t).ptpcfg = s.ptpcfg := by simp [State.jump]
@[simp] theorem State.jump_ptpLock (s : State) (t : Word) : (s.jump t).ptpLock = s.ptpLock := by simp [State.jump]
@[simp] theorem State.jump_ptpOffset (s : State) (t : Word) : (s.jump t).ptpOffset = s.ptpOffset := by simp [State.jump]
@[simp] theorem State.jump_ptpGood (s : State) (t : Word) : (s.jump t).ptpGood = s.ptpGood := by simp [State.jump]
@[simp] theorem State.jump_image (s : State) (t : Word) : (s.jump t).image = s.image := by simp [State.jump]
@[simp] theorem State.jump_schedule (s : State) (t : Word) : (s.jump t).schedule = s.schedule := by simp [State.jump]
@[simp] theorem State.jump_fresh (s : State) (t : Word) : (s.jump t).fresh = s.fresh := by simp [State.jump]
@[simp] theorem State.jump_nextId (s : State) (t : Word) : (s.jump t).nextId = s.nextId := by simp [State.jump]
@[simp] theorem State.jump_hart_g (s : State) (t : Word) : (s.jump t).hart.g = s.hart.g := by simp [State.jump]
@[simp] theorem State.jump_hart_v (s : State) (t : Word) : (s.jump t).hart.v = s.hart.v := by simp [State.jump]
@[simp] theorem State.jump_hart_hwm (s : State) (t : Word) : (s.jump t).hart.hwm = s.hart.hwm := by simp [State.jump]
@[simp] theorem State.jump_hart_m (s : State) (t : Word) : (s.jump t).hart.m = s.hart.m := by simp [State.jump]
@[simp] theorem State.jump_hart_z (s : State) (t : Word) : (s.jump t).hart.z = s.hart.z := by simp [State.jump]
@[simp] theorem State.jump_hart_l (s : State) (t : Word) : (s.jump t).hart.l = s.hart.l := by simp [State.jump]
@[simp] theorem State.jump_hart_ldesc (s : State) (t : Word) : (s.jump t).hart.ldesc = s.hart.ldesc := by simp [State.jump]
@[simp] theorem State.jump_hart_k (s : State) (t : Word) : (s.jump t).hart.k = s.hart.k := by simp [State.jump]
@[simp] theorem State.jump_hart_mode (s : State) (t : Word) : (s.jump t).hart.mode = s.hart.mode := by simp [State.jump]
@[simp] theorem State.jump_hart_vl (s : State) (t : Word) : (s.jump t).hart.vl = s.hart.vl := by simp [State.jump]
@[simp] theorem State.jump_hart_vlw (s : State) (t : Word) : (s.jump t).hart.vlw = s.hart.vlw := by simp [State.jump]
@[simp] theorem State.jump_hart_vstart (s : State) (t : Word) : (s.jump t).hart.vstart = s.hart.vstart := by simp [State.jump]
@[simp] theorem State.jump_hart_vmode (s : State) (t : Word) : (s.jump t).hart.vmode = s.hart.vmode := by simp [State.jump]
@[simp] theorem State.jump_hart_vstat (s : State) (t : Word) : (s.jump t).hart.vstat = s.hart.vstat := by simp [State.jump]
@[simp] theorem State.jump_hart_fstat (s : State) (t : Word) : (s.jump t).hart.fstat = s.hart.fstat := by simp [State.jump]
@[simp] theorem State.jump_hart_vlmaxb (s : State) (t : Word) : (s.jump t).hart.vlmaxb = s.hart.vlmaxb := by simp [State.jump]
@[simp] theorem State.jump_hart_vcap (s : State) (t : Word) : (s.jump t).hart.vcap = s.hart.vcap := by simp [State.jump]
@[simp] theorem State.jump_hart_uid (s : State) (t : Word) : (s.jump t).hart.uid = s.hart.uid := by simp [State.jump]
@[simp] theorem State.jump_hart_lid (s : State) (t : Word) : (s.jump t).hart.lid = s.hart.lid := by simp [State.jump]
@[simp] theorem State.jump_hart_spbase (s : State) (t : Word) : (s.jump t).hart.spbase = s.hart.spbase := by simp [State.jump]
@[simp] theorem State.jump_hart_srseed (s : State) (t : Word) : (s.jump t).hart.srseed = s.hart.srseed := by simp [State.jump]
@[simp] theorem State.jump_hart_srbase (s : State) (t : Word) : (s.jump t).hart.srbase = s.hart.srbase := by simp [State.jump]
@[simp] theorem State.jump_hart_sset (s : State) (t : Word) : (s.jump t).hart.sset = s.hart.sset := by simp [State.jump]
@[simp] theorem State.jump_hart_claim (s : State) (t : Word) : (s.jump t).hart.claim = s.hart.claim := by simp [State.jump]
@[simp] theorem State.jump_hart_seq (s : State) (t : Word) : (s.jump t).hart.seq = s.hart.seq := by simp [State.jump]
@[simp] theorem State.jump_hart_posted (s : State) (t : Word) : (s.jump t).hart.posted = s.hart.posted := by simp [State.jump]
@[simp] theorem State.jump_hart_vops (s : State) (t : Word) : (s.jump t).hart.vops = s.hart.vops := by simp [State.jump]
@[simp] theorem State.jump_hart_armed (s : State) (t : Word) : (s.jump t).hart.armed = s.hart.armed := by simp [State.jump]
@[simp] theorem State.jump_hart_fired (s : State) (t : Word) : (s.jump t).hart.fired = s.hart.fired := by simp [State.jump]
@[simp] theorem State.jump_hart_armedPa (s : State) (t : Word) : (s.jump t).hart.armedPa = s.hart.armedPa := by simp [State.jump]
@[simp] theorem State.jump_hart_wakes (s : State) (t : Word) : (s.jump t).hart.wakes = s.hart.wakes := by simp [State.jump]
@[simp] theorem State.jump_hart_wait (s : State) (t : Word) : (s.jump t).hart.wait = s.hart.wait := by simp [State.jump]
@[simp] theorem State.jump_hart_unit (s : State) (t : Word) : (s.jump t).hart.unit = s.hart.unit := by simp [State.jump]
@[simp] theorem State.jump_hart_fq (s : State) (t : Word) : (s.jump t).hart.fq = s.hart.fq := by simp [State.jump]
@[simp] theorem State.jump_hart_stopped (s : State) (t : Word) : (s.jump t).hart.stopped = s.hart.stopped := by simp [State.jump]
@[simp] theorem State.jump_hart_undelivered (s : State) (t : Word) : (s.jump t).hart.undelivered = s.hart.undelivered := by simp [State.jump]
@[simp] theorem State.jump_hart_spanLost (s : State) (t : Word) : (s.jump t).hart.spanLost = s.hart.spanLost := by simp [State.jump]
@[simp] theorem State.jump_hart_rejoin (s : State) (t : Word) : (s.jump t).hart.rejoin = s.hart.rejoin := by simp [State.jump]
@[simp] theorem State.jump_hart_warm (s : State) (t : Word) : (s.jump t).hart.warm = s.hart.warm := by simp [State.jump]
@[simp] theorem State.jump_hart_cut (s : State) (t : Word) : (s.jump t).hart.cut = s.hart.cut := by simp [State.jump]
@[simp] theorem State.jump_hart_ir (s : State) (t : Word) : (s.jump t).hart.ir = s.hart.ir := by simp [State.jump]

@[simp] theorem State.jump_hart_pc (s : State) (t : Word) : (s.jump t).hart.pc = t := by simp [State.jump]
@[simp] theorem State.jump_hart_transfer (s : State) (t : Word) : (s.jump t).hart.transfer = true := by simp [State.jump]

@[simp] theorem State.enterS_pset (s : State) (t : Trap) : (s.enterS t).pset = s.pset := rfl
@[simp] theorem State.enterS_hid (s : State) (t : Trap) : (s.enterS t).hid = s.hid := rfl
@[simp] theorem State.enterS_podt (s : State) (t : Trap) : (s.enterS t).podt = s.podt := rfl
@[simp] theorem State.enterS_ra (s : State) (t : Trap) : (s.enterS t).ra = s.ra := rfl
@[simp] theorem State.enterS_mem (s : State) (t : Trap) : (s.enterS t).mem = s.mem := rfl
@[simp] theorem State.enterS_poison (s : State) (t : Trap) : (s.enterS t).poison = s.poison := rfl
@[simp] theorem State.enterS_dirty (s : State) (t : Trap) : (s.enterS t).dirty = s.dirty := rfl
@[simp] theorem State.enterS_wells (s : State) (t : Trap) : (s.enterS t).wells = s.wells := rfl
@[simp] theorem State.enterS_ink (s : State) (t : Trap) : (s.enterS t).ink = s.ink := rfl
@[simp] theorem State.enterS_replicas (s : State) (t : Trap) : (s.enterS t).replicas = s.replicas := rfl
@[simp] theorem State.enterS_pool (s : State) (t : Trap) : (s.enterS t).pool = s.pool := rfl
@[simp] theorem State.enterS_tlb (s : State) (t : Trap) : (s.enterS t).tlb = s.tlb := rfl
@[simp] theorem State.enterS_walks (s : State) (t : Trap) : (s.enterS t).walks = s.walks := rfl
@[simp] theorem State.enterS_era (s : State) (t : Trap) : (s.enterS t).era = s.era := rfl
@[simp] theorem State.enterS_icache (s : State) (t : Trap) : (s.enterS t).icache = s.icache := rfl
@[simp] theorem State.enterS_halls (s : State) (t : Trap) : (s.enterS t).halls = s.halls := rfl
@[simp] theorem State.enterS_vfs (s : State) (t : Trap) : (s.enterS t).vfs = s.vfs := rfl
@[simp] theorem State.enterS_launches (s : State) (t : Trap) : (s.enterS t).launches = s.launches := rfl
@[simp] theorem State.enterS_graphs (s : State) (t : Trap) : (s.enterS t).graphs = s.graphs := rfl
@[simp] theorem State.enterS_units (s : State) (t : Trap) : (s.enterS t).units = s.units := rfl
@[simp] theorem State.enterS_cmds (s : State) (t : Trap) : (s.enterS t).cmds = s.cmds := rfl
@[simp] theorem State.enterS_accums (s : State) (t : Trap) : (s.enterS t).accums = s.accums := rfl
@[simp] theorem State.enterS_colls (s : State) (t : Trap) : (s.enterS t).colls = s.colls := rfl
@[simp] theorem State.enterS_hostPorts (s : State) (t : Trap) : (s.enterS t).hostPorts = s.hostPorts := rfl
@[simp] theorem State.enterS_hostLines (s : State) (t : Trap) : (s.enterS t).hostLines = s.hostLines := rfl
@[simp] theorem State.enterS_fabric (s : State) (t : Trap) : (s.enterS t).fabric = s.fabric := rfl
@[simp] theorem State.enterS_pkgstat (s : State) (t : Trap) : (s.enterS t).pkgstat = s.pkgstat := rfl
@[simp] theorem State.enterS_ptpcfg (s : State) (t : Trap) : (s.enterS t).ptpcfg = s.ptpcfg := rfl
@[simp] theorem State.enterS_ptpLock (s : State) (t : Trap) : (s.enterS t).ptpLock = s.ptpLock := rfl
@[simp] theorem State.enterS_ptpOffset (s : State) (t : Trap) : (s.enterS t).ptpOffset = s.ptpOffset := rfl
@[simp] theorem State.enterS_ptpGood (s : State) (t : Trap) : (s.enterS t).ptpGood = s.ptpGood := rfl
@[simp] theorem State.enterS_image (s : State) (t : Trap) : (s.enterS t).image = s.image := rfl
@[simp] theorem State.enterS_schedule (s : State) (t : Trap) : (s.enterS t).schedule = s.schedule := rfl
@[simp] theorem State.enterS_fresh (s : State) (t : Trap) : (s.enterS t).fresh = s.fresh := rfl
@[simp] theorem State.enterS_nextId (s : State) (t : Trap) : (s.enterS t).nextId = s.nextId := rfl
@[simp] theorem State.enterS_hart_g (s : State) (t : Trap) : (s.enterS t).hart.g = s.hart.g := rfl
@[simp] theorem State.enterS_hart_v (s : State) (t : Trap) : (s.enterS t).hart.v = s.hart.v := rfl
@[simp] theorem State.enterS_hart_hwm (s : State) (t : Trap) : (s.enterS t).hart.hwm = s.hart.hwm := rfl
@[simp] theorem State.enterS_hart_m (s : State) (t : Trap) : (s.enterS t).hart.m = s.hart.m := rfl
@[simp] theorem State.enterS_hart_z (s : State) (t : Trap) : (s.enterS t).hart.z = s.hart.z := rfl
@[simp] theorem State.enterS_hart_l (s : State) (t : Trap) : (s.enterS t).hart.l = s.hart.l := rfl
@[simp] theorem State.enterS_hart_ldesc (s : State) (t : Trap) : (s.enterS t).hart.ldesc = s.hart.ldesc := rfl
@[simp] theorem State.enterS_hart_k (s : State) (t : Trap) : (s.enterS t).hart.k = s.hart.k := rfl
@[simp] theorem State.enterS_hart_vl (s : State) (t : Trap) : (s.enterS t).hart.vl = s.hart.vl := rfl
@[simp] theorem State.enterS_hart_vlw (s : State) (t : Trap) : (s.enterS t).hart.vlw = s.hart.vlw := rfl
@[simp] theorem State.enterS_hart_vstart (s : State) (t : Trap) : (s.enterS t).hart.vstart = s.hart.vstart := rfl
@[simp] theorem State.enterS_hart_vmode (s : State) (t : Trap) : (s.enterS t).hart.vmode = s.hart.vmode := rfl
@[simp] theorem State.enterS_hart_vstat (s : State) (t : Trap) : (s.enterS t).hart.vstat = s.hart.vstat := rfl
@[simp] theorem State.enterS_hart_fstat (s : State) (t : Trap) : (s.enterS t).hart.fstat = s.hart.fstat := rfl
@[simp] theorem State.enterS_hart_vlmaxb (s : State) (t : Trap) : (s.enterS t).hart.vlmaxb = s.hart.vlmaxb := rfl
@[simp] theorem State.enterS_hart_vcap (s : State) (t : Trap) : (s.enterS t).hart.vcap = s.hart.vcap := rfl
@[simp] theorem State.enterS_hart_uid (s : State) (t : Trap) : (s.enterS t).hart.uid = s.hart.uid := rfl
@[simp] theorem State.enterS_hart_lid (s : State) (t : Trap) : (s.enterS t).hart.lid = s.hart.lid := rfl
@[simp] theorem State.enterS_hart_spbase (s : State) (t : Trap) : (s.enterS t).hart.spbase = s.hart.spbase := rfl
@[simp] theorem State.enterS_hart_srseed (s : State) (t : Trap) : (s.enterS t).hart.srseed = s.hart.srseed := rfl
@[simp] theorem State.enterS_hart_srbase (s : State) (t : Trap) : (s.enterS t).hart.srbase = s.hart.srbase := rfl
@[simp] theorem State.enterS_hart_claim (s : State) (t : Trap) : (s.enterS t).hart.claim = s.hart.claim := rfl
@[simp] theorem State.enterS_hart_seq (s : State) (t : Trap) : (s.enterS t).hart.seq = s.hart.seq := rfl
@[simp] theorem State.enterS_hart_posted (s : State) (t : Trap) : (s.enterS t).hart.posted = s.hart.posted := rfl
@[simp] theorem State.enterS_hart_vops (s : State) (t : Trap) : (s.enterS t).hart.vops = s.hart.vops := rfl
@[simp] theorem State.enterS_hart_armed (s : State) (t : Trap) : (s.enterS t).hart.armed = s.hart.armed := rfl
@[simp] theorem State.enterS_hart_fired (s : State) (t : Trap) : (s.enterS t).hart.fired = s.hart.fired := rfl
@[simp] theorem State.enterS_hart_armedPa (s : State) (t : Trap) : (s.enterS t).hart.armedPa = s.hart.armedPa := rfl
@[simp] theorem State.enterS_hart_wakes (s : State) (t : Trap) : (s.enterS t).hart.wakes = s.hart.wakes := rfl
@[simp] theorem State.enterS_hart_unit (s : State) (t : Trap) : (s.enterS t).hart.unit = s.hart.unit := rfl
@[simp] theorem State.enterS_hart_fq (s : State) (t : Trap) : (s.enterS t).hart.fq = s.hart.fq := rfl
@[simp] theorem State.enterS_hart_stopped (s : State) (t : Trap) : (s.enterS t).hart.stopped = s.hart.stopped := rfl
@[simp] theorem State.enterS_hart_undelivered (s : State) (t : Trap) : (s.enterS t).hart.undelivered = s.hart.undelivered := rfl
@[simp] theorem State.enterS_hart_spanLost (s : State) (t : Trap) : (s.enterS t).hart.spanLost = s.hart.spanLost := rfl
@[simp] theorem State.enterS_hart_rejoin (s : State) (t : Trap) : (s.enterS t).hart.rejoin = s.hart.rejoin := rfl
@[simp] theorem State.enterS_hart_warm (s : State) (t : Trap) : (s.enterS t).hart.warm = s.hart.warm := rfl
@[simp] theorem State.enterS_hart_cut (s : State) (t : Trap) : (s.enterS t).hart.cut = s.hart.cut := rfl
@[simp] theorem State.enterS_hart_ir (s : State) (t : Trap) : (s.enterS t).hart.ir = s.hart.ir := rfl

@[simp] theorem State.enterP_hid (s : State) (c d : Nat) (e : Word) (p a : Bool) : (s.enterP c d e p a).hid = s.hid := rfl
@[simp] theorem State.enterP_podt (s : State) (c d : Nat) (e : Word) (p a : Bool) : (s.enterP c d e p a).podt = s.podt := rfl
@[simp] theorem State.enterP_ra (s : State) (c d : Nat) (e : Word) (p a : Bool) : (s.enterP c d e p a).ra = s.ra := rfl
@[simp] theorem State.enterP_mem (s : State) (c d : Nat) (e : Word) (p a : Bool) : (s.enterP c d e p a).mem = s.mem := rfl
@[simp] theorem State.enterP_poison (s : State) (c d : Nat) (e : Word) (p a : Bool) : (s.enterP c d e p a).poison = s.poison := rfl
@[simp] theorem State.enterP_dirty (s : State) (c d : Nat) (e : Word) (p a : Bool) : (s.enterP c d e p a).dirty = s.dirty := rfl
@[simp] theorem State.enterP_wells (s : State) (c d : Nat) (e : Word) (p a : Bool) : (s.enterP c d e p a).wells = s.wells := rfl
@[simp] theorem State.enterP_ink (s : State) (c d : Nat) (e : Word) (p a : Bool) : (s.enterP c d e p a).ink = s.ink := rfl
@[simp] theorem State.enterP_replicas (s : State) (c d : Nat) (e : Word) (p a : Bool) : (s.enterP c d e p a).replicas = s.replicas := rfl
@[simp] theorem State.enterP_pool (s : State) (c d : Nat) (e : Word) (p a : Bool) : (s.enterP c d e p a).pool = s.pool := rfl
@[simp] theorem State.enterP_tlb (s : State) (c d : Nat) (e : Word) (p a : Bool) : (s.enterP c d e p a).tlb = s.tlb := rfl
@[simp] theorem State.enterP_walks (s : State) (c d : Nat) (e : Word) (p a : Bool) : (s.enterP c d e p a).walks = s.walks := rfl
@[simp] theorem State.enterP_era (s : State) (c d : Nat) (e : Word) (p a : Bool) : (s.enterP c d e p a).era = s.era := rfl
@[simp] theorem State.enterP_icache (s : State) (c d : Nat) (e : Word) (p a : Bool) : (s.enterP c d e p a).icache = s.icache := rfl
@[simp] theorem State.enterP_halls (s : State) (c d : Nat) (e : Word) (p a : Bool) : (s.enterP c d e p a).halls = s.halls := rfl
@[simp] theorem State.enterP_vfs (s : State) (c d : Nat) (e : Word) (p a : Bool) : (s.enterP c d e p a).vfs = s.vfs := rfl
@[simp] theorem State.enterP_launches (s : State) (c d : Nat) (e : Word) (p a : Bool) : (s.enterP c d e p a).launches = s.launches := rfl
@[simp] theorem State.enterP_graphs (s : State) (c d : Nat) (e : Word) (p a : Bool) : (s.enterP c d e p a).graphs = s.graphs := rfl
@[simp] theorem State.enterP_units (s : State) (c d : Nat) (e : Word) (p a : Bool) : (s.enterP c d e p a).units = s.units := rfl
@[simp] theorem State.enterP_cmds (s : State) (c d : Nat) (e : Word) (p a : Bool) : (s.enterP c d e p a).cmds = s.cmds := rfl
@[simp] theorem State.enterP_accums (s : State) (c d : Nat) (e : Word) (p a : Bool) : (s.enterP c d e p a).accums = s.accums := rfl
@[simp] theorem State.enterP_colls (s : State) (c d : Nat) (e : Word) (p a : Bool) : (s.enterP c d e p a).colls = s.colls := rfl
@[simp] theorem State.enterP_hostPorts (s : State) (c d : Nat) (e : Word) (p a : Bool) : (s.enterP c d e p a).hostPorts = s.hostPorts := rfl
@[simp] theorem State.enterP_hostLines (s : State) (c d : Nat) (e : Word) (p a : Bool) : (s.enterP c d e p a).hostLines = s.hostLines := rfl
@[simp] theorem State.enterP_fabric (s : State) (c d : Nat) (e : Word) (p a : Bool) : (s.enterP c d e p a).fabric = s.fabric := rfl
@[simp] theorem State.enterP_pkgstat (s : State) (c d : Nat) (e : Word) (p a : Bool) : (s.enterP c d e p a).pkgstat = s.pkgstat := rfl
@[simp] theorem State.enterP_ptpcfg (s : State) (c d : Nat) (e : Word) (p a : Bool) : (s.enterP c d e p a).ptpcfg = s.ptpcfg := rfl
@[simp] theorem State.enterP_ptpLock (s : State) (c d : Nat) (e : Word) (p a : Bool) : (s.enterP c d e p a).ptpLock = s.ptpLock := rfl
@[simp] theorem State.enterP_ptpOffset (s : State) (c d : Nat) (e : Word) (p a : Bool) : (s.enterP c d e p a).ptpOffset = s.ptpOffset := rfl
@[simp] theorem State.enterP_ptpGood (s : State) (c d : Nat) (e : Word) (p a : Bool) : (s.enterP c d e p a).ptpGood = s.ptpGood := rfl
@[simp] theorem State.enterP_image (s : State) (c d : Nat) (e : Word) (p a : Bool) : (s.enterP c d e p a).image = s.image := rfl
@[simp] theorem State.enterP_schedule (s : State) (c d : Nat) (e : Word) (p a : Bool) : (s.enterP c d e p a).schedule = s.schedule := rfl
@[simp] theorem State.enterP_fresh (s : State) (c d : Nat) (e : Word) (p a : Bool) : (s.enterP c d e p a).fresh = s.fresh := rfl
@[simp] theorem State.enterP_nextId (s : State) (c d : Nat) (e : Word) (p a : Bool) : (s.enterP c d e p a).nextId = s.nextId := rfl
@[simp] theorem State.enterP_hart_g (s : State) (c d : Nat) (e : Word) (p a : Bool) : (s.enterP c d e p a).hart.g = s.hart.g := rfl
@[simp] theorem State.enterP_hart_v (s : State) (c d : Nat) (e : Word) (p a : Bool) : (s.enterP c d e p a).hart.v = s.hart.v := rfl
@[simp] theorem State.enterP_hart_hwm (s : State) (c d : Nat) (e : Word) (p a : Bool) : (s.enterP c d e p a).hart.hwm = s.hart.hwm := rfl
@[simp] theorem State.enterP_hart_m (s : State) (c d : Nat) (e : Word) (p a : Bool) : (s.enterP c d e p a).hart.m = s.hart.m := rfl
@[simp] theorem State.enterP_hart_z (s : State) (c d : Nat) (e : Word) (p a : Bool) : (s.enterP c d e p a).hart.z = s.hart.z := rfl
@[simp] theorem State.enterP_hart_l (s : State) (c d : Nat) (e : Word) (p a : Bool) : (s.enterP c d e p a).hart.l = s.hart.l := rfl
@[simp] theorem State.enterP_hart_ldesc (s : State) (c d : Nat) (e : Word) (p a : Bool) : (s.enterP c d e p a).hart.ldesc = s.hart.ldesc := rfl
@[simp] theorem State.enterP_hart_k (s : State) (c d : Nat) (e : Word) (p a : Bool) : (s.enterP c d e p a).hart.k = s.hart.k := rfl
@[simp] theorem State.enterP_hart_vl (s : State) (c d : Nat) (e : Word) (p a : Bool) : (s.enterP c d e p a).hart.vl = s.hart.vl := rfl
@[simp] theorem State.enterP_hart_vlw (s : State) (c d : Nat) (e : Word) (p a : Bool) : (s.enterP c d e p a).hart.vlw = s.hart.vlw := rfl
@[simp] theorem State.enterP_hart_vstart (s : State) (c d : Nat) (e : Word) (p a : Bool) : (s.enterP c d e p a).hart.vstart = s.hart.vstart := rfl
@[simp] theorem State.enterP_hart_vmode (s : State) (c d : Nat) (e : Word) (p a : Bool) : (s.enterP c d e p a).hart.vmode = s.hart.vmode := rfl
@[simp] theorem State.enterP_hart_vstat (s : State) (c d : Nat) (e : Word) (p a : Bool) : (s.enterP c d e p a).hart.vstat = s.hart.vstat := rfl
@[simp] theorem State.enterP_hart_fstat (s : State) (c d : Nat) (e : Word) (p a : Bool) : (s.enterP c d e p a).hart.fstat = s.hart.fstat := rfl
@[simp] theorem State.enterP_hart_vlmaxb (s : State) (c d : Nat) (e : Word) (p a : Bool) : (s.enterP c d e p a).hart.vlmaxb = s.hart.vlmaxb := rfl
@[simp] theorem State.enterP_hart_vcap (s : State) (c d : Nat) (e : Word) (p a : Bool) : (s.enterP c d e p a).hart.vcap = s.hart.vcap := rfl
@[simp] theorem State.enterP_hart_uid (s : State) (c d : Nat) (e : Word) (p a : Bool) : (s.enterP c d e p a).hart.uid = s.hart.uid := rfl
@[simp] theorem State.enterP_hart_lid (s : State) (c d : Nat) (e : Word) (p a : Bool) : (s.enterP c d e p a).hart.lid = s.hart.lid := rfl
@[simp] theorem State.enterP_hart_spbase (s : State) (c d : Nat) (e : Word) (p a : Bool) : (s.enterP c d e p a).hart.spbase = s.hart.spbase := rfl
@[simp] theorem State.enterP_hart_srseed (s : State) (c d : Nat) (e : Word) (p a : Bool) : (s.enterP c d e p a).hart.srseed = s.hart.srseed := rfl
@[simp] theorem State.enterP_hart_srbase (s : State) (c d : Nat) (e : Word) (p a : Bool) : (s.enterP c d e p a).hart.srbase = s.hart.srbase := rfl
@[simp] theorem State.enterP_hart_sset (s : State) (c d : Nat) (e : Word) (p a : Bool) : (s.enterP c d e p a).hart.sset = s.hart.sset := rfl
@[simp] theorem State.enterP_hart_claim (s : State) (c d : Nat) (e : Word) (p a : Bool) : (s.enterP c d e p a).hart.claim = s.hart.claim := rfl
@[simp] theorem State.enterP_hart_seq (s : State) (c d : Nat) (e : Word) (p a : Bool) : (s.enterP c d e p a).hart.seq = s.hart.seq := rfl
@[simp] theorem State.enterP_hart_posted (s : State) (c d : Nat) (e : Word) (p a : Bool) : (s.enterP c d e p a).hart.posted = s.hart.posted := rfl
@[simp] theorem State.enterP_hart_vops (s : State) (c d : Nat) (e : Word) (p a : Bool) : (s.enterP c d e p a).hart.vops = s.hart.vops := rfl
@[simp] theorem State.enterP_hart_armed (s : State) (c d : Nat) (e : Word) (p a : Bool) : (s.enterP c d e p a).hart.armed = s.hart.armed := rfl
@[simp] theorem State.enterP_hart_fired (s : State) (c d : Nat) (e : Word) (p a : Bool) : (s.enterP c d e p a).hart.fired = s.hart.fired := rfl
@[simp] theorem State.enterP_hart_armedPa (s : State) (c d : Nat) (e : Word) (p a : Bool) : (s.enterP c d e p a).hart.armedPa = s.hart.armedPa := rfl
@[simp] theorem State.enterP_hart_wakes (s : State) (c d : Nat) (e : Word) (p a : Bool) : (s.enterP c d e p a).hart.wakes = s.hart.wakes := rfl
@[simp] theorem State.enterP_hart_unit (s : State) (c d : Nat) (e : Word) (p a : Bool) : (s.enterP c d e p a).hart.unit = s.hart.unit := rfl
@[simp] theorem State.enterP_hart_fq (s : State) (c d : Nat) (e : Word) (p a : Bool) : (s.enterP c d e p a).hart.fq = s.hart.fq := rfl
@[simp] theorem State.enterP_hart_stopped (s : State) (c d : Nat) (e : Word) (p a : Bool) : (s.enterP c d e p a).hart.stopped = s.hart.stopped := rfl
@[simp] theorem State.enterP_hart_undelivered (s : State) (c d : Nat) (e : Word) (p a : Bool) : (s.enterP c d e p a).hart.undelivered = s.hart.undelivered := rfl
@[simp] theorem State.enterP_hart_spanLost (s : State) (c d : Nat) (e : Word) (p a : Bool) : (s.enterP c d e p a).hart.spanLost = s.hart.spanLost := rfl
@[simp] theorem State.enterP_hart_rejoin (s : State) (c d : Nat) (e : Word) (p a : Bool) : (s.enterP c d e p a).hart.rejoin = s.hart.rejoin := rfl
@[simp] theorem State.enterP_hart_warm (s : State) (c d : Nat) (e : Word) (p a : Bool) : (s.enterP c d e p a).hart.warm = s.hart.warm := rfl
@[simp] theorem State.enterP_hart_cut (s : State) (c d : Nat) (e : Word) (p a : Bool) : (s.enterP c d e p a).hart.cut = s.hart.cut := rfl
@[simp] theorem State.enterP_hart_ir (s : State) (c d : Nat) (e : Word) (p a : Bool) : (s.enterP c d e p a).hart.ir = s.hart.ir := rfl

@[simp] theorem State.setVstart_pset (s : State) (n : Nat) : (s.setVstart n).pset = s.pset := rfl
@[simp] theorem State.setVstart_hid (s : State) (n : Nat) : (s.setVstart n).hid = s.hid := rfl
@[simp] theorem State.setVstart_podt (s : State) (n : Nat) : (s.setVstart n).podt = s.podt := rfl
@[simp] theorem State.setVstart_ra (s : State) (n : Nat) : (s.setVstart n).ra = s.ra := rfl
@[simp] theorem State.setVstart_mem (s : State) (n : Nat) : (s.setVstart n).mem = s.mem := rfl
@[simp] theorem State.setVstart_poison (s : State) (n : Nat) : (s.setVstart n).poison = s.poison := rfl
@[simp] theorem State.setVstart_dirty (s : State) (n : Nat) : (s.setVstart n).dirty = s.dirty := rfl
@[simp] theorem State.setVstart_wells (s : State) (n : Nat) : (s.setVstart n).wells = s.wells := rfl
@[simp] theorem State.setVstart_ink (s : State) (n : Nat) : (s.setVstart n).ink = s.ink := rfl
@[simp] theorem State.setVstart_replicas (s : State) (n : Nat) : (s.setVstart n).replicas = s.replicas := rfl
@[simp] theorem State.setVstart_pool (s : State) (n : Nat) : (s.setVstart n).pool = s.pool := rfl
@[simp] theorem State.setVstart_tlb (s : State) (n : Nat) : (s.setVstart n).tlb = s.tlb := rfl
@[simp] theorem State.setVstart_walks (s : State) (n : Nat) : (s.setVstart n).walks = s.walks := rfl
@[simp] theorem State.setVstart_era (s : State) (n : Nat) : (s.setVstart n).era = s.era := rfl
@[simp] theorem State.setVstart_icache (s : State) (n : Nat) : (s.setVstart n).icache = s.icache := rfl
@[simp] theorem State.setVstart_halls (s : State) (n : Nat) : (s.setVstart n).halls = s.halls := rfl
@[simp] theorem State.setVstart_vfs (s : State) (n : Nat) : (s.setVstart n).vfs = s.vfs := rfl
@[simp] theorem State.setVstart_launches (s : State) (n : Nat) : (s.setVstart n).launches = s.launches := rfl
@[simp] theorem State.setVstart_graphs (s : State) (n : Nat) : (s.setVstart n).graphs = s.graphs := rfl
@[simp] theorem State.setVstart_units (s : State) (n : Nat) : (s.setVstart n).units = s.units := rfl
@[simp] theorem State.setVstart_cmds (s : State) (n : Nat) : (s.setVstart n).cmds = s.cmds := rfl
@[simp] theorem State.setVstart_accums (s : State) (n : Nat) : (s.setVstart n).accums = s.accums := rfl
@[simp] theorem State.setVstart_colls (s : State) (n : Nat) : (s.setVstart n).colls = s.colls := rfl
@[simp] theorem State.setVstart_hostPorts (s : State) (n : Nat) : (s.setVstart n).hostPorts = s.hostPorts := rfl
@[simp] theorem State.setVstart_hostLines (s : State) (n : Nat) : (s.setVstart n).hostLines = s.hostLines := rfl
@[simp] theorem State.setVstart_fabric (s : State) (n : Nat) : (s.setVstart n).fabric = s.fabric := rfl
@[simp] theorem State.setVstart_pkgstat (s : State) (n : Nat) : (s.setVstart n).pkgstat = s.pkgstat := rfl
@[simp] theorem State.setVstart_ptpcfg (s : State) (n : Nat) : (s.setVstart n).ptpcfg = s.ptpcfg := rfl
@[simp] theorem State.setVstart_ptpLock (s : State) (n : Nat) : (s.setVstart n).ptpLock = s.ptpLock := rfl
@[simp] theorem State.setVstart_ptpOffset (s : State) (n : Nat) : (s.setVstart n).ptpOffset = s.ptpOffset := rfl
@[simp] theorem State.setVstart_ptpGood (s : State) (n : Nat) : (s.setVstart n).ptpGood = s.ptpGood := rfl
@[simp] theorem State.setVstart_image (s : State) (n : Nat) : (s.setVstart n).image = s.image := rfl
@[simp] theorem State.setVstart_schedule (s : State) (n : Nat) : (s.setVstart n).schedule = s.schedule := rfl
@[simp] theorem State.setVstart_fresh (s : State) (n : Nat) : (s.setVstart n).fresh = s.fresh := rfl
@[simp] theorem State.setVstart_nextId (s : State) (n : Nat) : (s.setVstart n).nextId = s.nextId := rfl
@[simp] theorem State.setVstart_hart_g (s : State) (n : Nat) : (s.setVstart n).hart.g = s.hart.g := rfl
@[simp] theorem State.setVstart_hart_v (s : State) (n : Nat) : (s.setVstart n).hart.v = s.hart.v := rfl
@[simp] theorem State.setVstart_hart_hwm (s : State) (n : Nat) : (s.setVstart n).hart.hwm = s.hart.hwm := rfl
@[simp] theorem State.setVstart_hart_m (s : State) (n : Nat) : (s.setVstart n).hart.m = s.hart.m := rfl
@[simp] theorem State.setVstart_hart_z (s : State) (n : Nat) : (s.setVstart n).hart.z = s.hart.z := rfl
@[simp] theorem State.setVstart_hart_l (s : State) (n : Nat) : (s.setVstart n).hart.l = s.hart.l := rfl
@[simp] theorem State.setVstart_hart_ldesc (s : State) (n : Nat) : (s.setVstart n).hart.ldesc = s.hart.ldesc := rfl
@[simp] theorem State.setVstart_hart_k (s : State) (n : Nat) : (s.setVstart n).hart.k = s.hart.k := rfl
@[simp] theorem State.setVstart_hart_pc (s : State) (n : Nat) : (s.setVstart n).hart.pc = s.hart.pc := rfl
@[simp] theorem State.setVstart_hart_mode (s : State) (n : Nat) : (s.setVstart n).hart.mode = s.hart.mode := rfl
@[simp] theorem State.setVstart_hart_vl (s : State) (n : Nat) : (s.setVstart n).hart.vl = s.hart.vl := rfl
@[simp] theorem State.setVstart_hart_vlw (s : State) (n : Nat) : (s.setVstart n).hart.vlw = s.hart.vlw := rfl
@[simp] theorem State.setVstart_hart_vmode (s : State) (n : Nat) : (s.setVstart n).hart.vmode = s.hart.vmode := rfl
@[simp] theorem State.setVstart_hart_vstat (s : State) (n : Nat) : (s.setVstart n).hart.vstat = s.hart.vstat := rfl
@[simp] theorem State.setVstart_hart_fstat (s : State) (n : Nat) : (s.setVstart n).hart.fstat = s.hart.fstat := rfl
@[simp] theorem State.setVstart_hart_vlmaxb (s : State) (n : Nat) : (s.setVstart n).hart.vlmaxb = s.hart.vlmaxb := rfl
@[simp] theorem State.setVstart_hart_vcap (s : State) (n : Nat) : (s.setVstart n).hart.vcap = s.hart.vcap := rfl
@[simp] theorem State.setVstart_hart_uid (s : State) (n : Nat) : (s.setVstart n).hart.uid = s.hart.uid := rfl
@[simp] theorem State.setVstart_hart_lid (s : State) (n : Nat) : (s.setVstart n).hart.lid = s.hart.lid := rfl
@[simp] theorem State.setVstart_hart_spbase (s : State) (n : Nat) : (s.setVstart n).hart.spbase = s.hart.spbase := rfl
@[simp] theorem State.setVstart_hart_srseed (s : State) (n : Nat) : (s.setVstart n).hart.srseed = s.hart.srseed := rfl
@[simp] theorem State.setVstart_hart_srbase (s : State) (n : Nat) : (s.setVstart n).hart.srbase = s.hart.srbase := rfl
@[simp] theorem State.setVstart_hart_sset (s : State) (n : Nat) : (s.setVstart n).hart.sset = s.hart.sset := rfl
@[simp] theorem State.setVstart_hart_claim (s : State) (n : Nat) : (s.setVstart n).hart.claim = s.hart.claim := rfl
@[simp] theorem State.setVstart_hart_seq (s : State) (n : Nat) : (s.setVstart n).hart.seq = s.hart.seq := rfl
@[simp] theorem State.setVstart_hart_posted (s : State) (n : Nat) : (s.setVstart n).hart.posted = s.hart.posted := rfl
@[simp] theorem State.setVstart_hart_vops (s : State) (n : Nat) : (s.setVstart n).hart.vops = s.hart.vops := rfl
@[simp] theorem State.setVstart_hart_armed (s : State) (n : Nat) : (s.setVstart n).hart.armed = s.hart.armed := rfl
@[simp] theorem State.setVstart_hart_fired (s : State) (n : Nat) : (s.setVstart n).hart.fired = s.hart.fired := rfl
@[simp] theorem State.setVstart_hart_armedPa (s : State) (n : Nat) : (s.setVstart n).hart.armedPa = s.hart.armedPa := rfl
@[simp] theorem State.setVstart_hart_wakes (s : State) (n : Nat) : (s.setVstart n).hart.wakes = s.hart.wakes := rfl
@[simp] theorem State.setVstart_hart_wait (s : State) (n : Nat) : (s.setVstart n).hart.wait = s.hart.wait := rfl
@[simp] theorem State.setVstart_hart_unit (s : State) (n : Nat) : (s.setVstart n).hart.unit = s.hart.unit := rfl
@[simp] theorem State.setVstart_hart_fq (s : State) (n : Nat) : (s.setVstart n).hart.fq = s.hart.fq := rfl
@[simp] theorem State.setVstart_hart_stopped (s : State) (n : Nat) : (s.setVstart n).hart.stopped = s.hart.stopped := rfl
@[simp] theorem State.setVstart_hart_undelivered (s : State) (n : Nat) : (s.setVstart n).hart.undelivered = s.hart.undelivered := rfl
@[simp] theorem State.setVstart_hart_transfer (s : State) (n : Nat) : (s.setVstart n).hart.transfer = s.hart.transfer := rfl
@[simp] theorem State.setVstart_hart_spanLost (s : State) (n : Nat) : (s.setVstart n).hart.spanLost = s.hart.spanLost := rfl
@[simp] theorem State.setVstart_hart_rejoin (s : State) (n : Nat) : (s.setVstart n).hart.rejoin = s.hart.rejoin := rfl
@[simp] theorem State.setVstart_hart_warm (s : State) (n : Nat) : (s.setVstart n).hart.warm = s.hart.warm := rfl
@[simp] theorem State.setVstart_hart_cut (s : State) (n : Nat) : (s.setVstart n).hart.cut = s.hart.cut := rfl
@[simp] theorem State.setVstart_hart_ir (s : State) (n : Nat) : (s.setVstart n).hart.ir = s.hart.ir := rfl

@[simp] theorem State.setVstart_hart_vstart (s : State) (n : Nat) : (s.setVstart n).hart.vstart = n := rfl

@[simp] theorem State.noteVstat_pset (s : State) (x : Word) : (s.noteVstat x).pset = s.pset := rfl
@[simp] theorem State.noteVstat_hid (s : State) (x : Word) : (s.noteVstat x).hid = s.hid := rfl
@[simp] theorem State.noteVstat_podt (s : State) (x : Word) : (s.noteVstat x).podt = s.podt := rfl
@[simp] theorem State.noteVstat_ra (s : State) (x : Word) : (s.noteVstat x).ra = s.ra := rfl
@[simp] theorem State.noteVstat_mem (s : State) (x : Word) : (s.noteVstat x).mem = s.mem := rfl
@[simp] theorem State.noteVstat_poison (s : State) (x : Word) : (s.noteVstat x).poison = s.poison := rfl
@[simp] theorem State.noteVstat_dirty (s : State) (x : Word) : (s.noteVstat x).dirty = s.dirty := rfl
@[simp] theorem State.noteVstat_wells (s : State) (x : Word) : (s.noteVstat x).wells = s.wells := rfl
@[simp] theorem State.noteVstat_ink (s : State) (x : Word) : (s.noteVstat x).ink = s.ink := rfl
@[simp] theorem State.noteVstat_replicas (s : State) (x : Word) : (s.noteVstat x).replicas = s.replicas := rfl
@[simp] theorem State.noteVstat_pool (s : State) (x : Word) : (s.noteVstat x).pool = s.pool := rfl
@[simp] theorem State.noteVstat_tlb (s : State) (x : Word) : (s.noteVstat x).tlb = s.tlb := rfl
@[simp] theorem State.noteVstat_walks (s : State) (x : Word) : (s.noteVstat x).walks = s.walks := rfl
@[simp] theorem State.noteVstat_era (s : State) (x : Word) : (s.noteVstat x).era = s.era := rfl
@[simp] theorem State.noteVstat_icache (s : State) (x : Word) : (s.noteVstat x).icache = s.icache := rfl
@[simp] theorem State.noteVstat_halls (s : State) (x : Word) : (s.noteVstat x).halls = s.halls := rfl
@[simp] theorem State.noteVstat_vfs (s : State) (x : Word) : (s.noteVstat x).vfs = s.vfs := rfl
@[simp] theorem State.noteVstat_launches (s : State) (x : Word) : (s.noteVstat x).launches = s.launches := rfl
@[simp] theorem State.noteVstat_graphs (s : State) (x : Word) : (s.noteVstat x).graphs = s.graphs := rfl
@[simp] theorem State.noteVstat_units (s : State) (x : Word) : (s.noteVstat x).units = s.units := rfl
@[simp] theorem State.noteVstat_cmds (s : State) (x : Word) : (s.noteVstat x).cmds = s.cmds := rfl
@[simp] theorem State.noteVstat_accums (s : State) (x : Word) : (s.noteVstat x).accums = s.accums := rfl
@[simp] theorem State.noteVstat_colls (s : State) (x : Word) : (s.noteVstat x).colls = s.colls := rfl
@[simp] theorem State.noteVstat_hostPorts (s : State) (x : Word) : (s.noteVstat x).hostPorts = s.hostPorts := rfl
@[simp] theorem State.noteVstat_hostLines (s : State) (x : Word) : (s.noteVstat x).hostLines = s.hostLines := rfl
@[simp] theorem State.noteVstat_fabric (s : State) (x : Word) : (s.noteVstat x).fabric = s.fabric := rfl
@[simp] theorem State.noteVstat_pkgstat (s : State) (x : Word) : (s.noteVstat x).pkgstat = s.pkgstat := rfl
@[simp] theorem State.noteVstat_ptpcfg (s : State) (x : Word) : (s.noteVstat x).ptpcfg = s.ptpcfg := rfl
@[simp] theorem State.noteVstat_ptpLock (s : State) (x : Word) : (s.noteVstat x).ptpLock = s.ptpLock := rfl
@[simp] theorem State.noteVstat_ptpOffset (s : State) (x : Word) : (s.noteVstat x).ptpOffset = s.ptpOffset := rfl
@[simp] theorem State.noteVstat_ptpGood (s : State) (x : Word) : (s.noteVstat x).ptpGood = s.ptpGood := rfl
@[simp] theorem State.noteVstat_image (s : State) (x : Word) : (s.noteVstat x).image = s.image := rfl
@[simp] theorem State.noteVstat_schedule (s : State) (x : Word) : (s.noteVstat x).schedule = s.schedule := rfl
@[simp] theorem State.noteVstat_fresh (s : State) (x : Word) : (s.noteVstat x).fresh = s.fresh := rfl
@[simp] theorem State.noteVstat_nextId (s : State) (x : Word) : (s.noteVstat x).nextId = s.nextId := rfl
@[simp] theorem State.noteVstat_hart_g (s : State) (x : Word) : (s.noteVstat x).hart.g = s.hart.g := rfl
@[simp] theorem State.noteVstat_hart_v (s : State) (x : Word) : (s.noteVstat x).hart.v = s.hart.v := rfl
@[simp] theorem State.noteVstat_hart_hwm (s : State) (x : Word) : (s.noteVstat x).hart.hwm = s.hart.hwm := rfl
@[simp] theorem State.noteVstat_hart_m (s : State) (x : Word) : (s.noteVstat x).hart.m = s.hart.m := rfl
@[simp] theorem State.noteVstat_hart_z (s : State) (x : Word) : (s.noteVstat x).hart.z = s.hart.z := rfl
@[simp] theorem State.noteVstat_hart_l (s : State) (x : Word) : (s.noteVstat x).hart.l = s.hart.l := rfl
@[simp] theorem State.noteVstat_hart_ldesc (s : State) (x : Word) : (s.noteVstat x).hart.ldesc = s.hart.ldesc := rfl
@[simp] theorem State.noteVstat_hart_k (s : State) (x : Word) : (s.noteVstat x).hart.k = s.hart.k := rfl
@[simp] theorem State.noteVstat_hart_pc (s : State) (x : Word) : (s.noteVstat x).hart.pc = s.hart.pc := rfl
@[simp] theorem State.noteVstat_hart_mode (s : State) (x : Word) : (s.noteVstat x).hart.mode = s.hart.mode := rfl
@[simp] theorem State.noteVstat_hart_vl (s : State) (x : Word) : (s.noteVstat x).hart.vl = s.hart.vl := rfl
@[simp] theorem State.noteVstat_hart_vlw (s : State) (x : Word) : (s.noteVstat x).hart.vlw = s.hart.vlw := rfl
@[simp] theorem State.noteVstat_hart_vstart (s : State) (x : Word) : (s.noteVstat x).hart.vstart = s.hart.vstart := rfl
@[simp] theorem State.noteVstat_hart_vmode (s : State) (x : Word) : (s.noteVstat x).hart.vmode = s.hart.vmode := rfl
@[simp] theorem State.noteVstat_hart_fstat (s : State) (x : Word) : (s.noteVstat x).hart.fstat = s.hart.fstat := rfl
@[simp] theorem State.noteVstat_hart_vlmaxb (s : State) (x : Word) : (s.noteVstat x).hart.vlmaxb = s.hart.vlmaxb := rfl
@[simp] theorem State.noteVstat_hart_vcap (s : State) (x : Word) : (s.noteVstat x).hart.vcap = s.hart.vcap := rfl
@[simp] theorem State.noteVstat_hart_uid (s : State) (x : Word) : (s.noteVstat x).hart.uid = s.hart.uid := rfl
@[simp] theorem State.noteVstat_hart_lid (s : State) (x : Word) : (s.noteVstat x).hart.lid = s.hart.lid := rfl
@[simp] theorem State.noteVstat_hart_spbase (s : State) (x : Word) : (s.noteVstat x).hart.spbase = s.hart.spbase := rfl
@[simp] theorem State.noteVstat_hart_srseed (s : State) (x : Word) : (s.noteVstat x).hart.srseed = s.hart.srseed := rfl
@[simp] theorem State.noteVstat_hart_srbase (s : State) (x : Word) : (s.noteVstat x).hart.srbase = s.hart.srbase := rfl
@[simp] theorem State.noteVstat_hart_sset (s : State) (x : Word) : (s.noteVstat x).hart.sset = s.hart.sset := rfl
@[simp] theorem State.noteVstat_hart_claim (s : State) (x : Word) : (s.noteVstat x).hart.claim = s.hart.claim := rfl
@[simp] theorem State.noteVstat_hart_seq (s : State) (x : Word) : (s.noteVstat x).hart.seq = s.hart.seq := rfl
@[simp] theorem State.noteVstat_hart_posted (s : State) (x : Word) : (s.noteVstat x).hart.posted = s.hart.posted := rfl
@[simp] theorem State.noteVstat_hart_vops (s : State) (x : Word) : (s.noteVstat x).hart.vops = s.hart.vops := rfl
@[simp] theorem State.noteVstat_hart_armed (s : State) (x : Word) : (s.noteVstat x).hart.armed = s.hart.armed := rfl
@[simp] theorem State.noteVstat_hart_fired (s : State) (x : Word) : (s.noteVstat x).hart.fired = s.hart.fired := rfl
@[simp] theorem State.noteVstat_hart_armedPa (s : State) (x : Word) : (s.noteVstat x).hart.armedPa = s.hart.armedPa := rfl
@[simp] theorem State.noteVstat_hart_wakes (s : State) (x : Word) : (s.noteVstat x).hart.wakes = s.hart.wakes := rfl
@[simp] theorem State.noteVstat_hart_wait (s : State) (x : Word) : (s.noteVstat x).hart.wait = s.hart.wait := rfl
@[simp] theorem State.noteVstat_hart_unit (s : State) (x : Word) : (s.noteVstat x).hart.unit = s.hart.unit := rfl
@[simp] theorem State.noteVstat_hart_fq (s : State) (x : Word) : (s.noteVstat x).hart.fq = s.hart.fq := rfl
@[simp] theorem State.noteVstat_hart_stopped (s : State) (x : Word) : (s.noteVstat x).hart.stopped = s.hart.stopped := rfl
@[simp] theorem State.noteVstat_hart_undelivered (s : State) (x : Word) : (s.noteVstat x).hart.undelivered = s.hart.undelivered := rfl
@[simp] theorem State.noteVstat_hart_transfer (s : State) (x : Word) : (s.noteVstat x).hart.transfer = s.hart.transfer := rfl
@[simp] theorem State.noteVstat_hart_spanLost (s : State) (x : Word) : (s.noteVstat x).hart.spanLost = s.hart.spanLost := rfl
@[simp] theorem State.noteVstat_hart_rejoin (s : State) (x : Word) : (s.noteVstat x).hart.rejoin = s.hart.rejoin := rfl
@[simp] theorem State.noteVstat_hart_warm (s : State) (x : Word) : (s.noteVstat x).hart.warm = s.hart.warm := rfl
@[simp] theorem State.noteVstat_hart_cut (s : State) (x : Word) : (s.noteVstat x).hart.cut = s.hart.cut := rfl
@[simp] theorem State.noteVstat_hart_ir (s : State) (x : Word) : (s.noteVstat x).hart.ir = s.hart.ir := rfl

/-! ## Scalar registers -/

theorem pick_put {α : Type} {w : Nat} (v : Vector α (2 ^ w)) (i j : BitVec w) (x : α) :
    pick (put v i x) j = if j = i then x else pick v j := by
  unfold pick put
  by_cases h : j = i
  · subst h; simp
  · have : i.toNat ≠ j.toNat := fun e => h (BitVec.eq_of_toNat_eq e.symm)
    simp [h, this]

/-- g0 reads as zero in every state (R44). -/
@[simp] theorem State.g_zero (s : State) : s.g 0#5 = 0#64 := by simp [State.g]

/-- What a register holds after a write of another or of itself (R44). -/
theorem State.g_setG (s : State) (i j : BitVec 5) (x : Word) :
    (s.setG i x).g j = if j = 0#5 then 0#64 else if j = i then x else s.g j := by
  unfold State.g State.setG
  by_cases hj : j = 0#5
  · simp [hj]
  · by_cases hi : i = 0#5
    · simp [hi, hj]
    · simp [hi, hj, pick_put]

@[simp] theorem State.g_retire (s : State) (n : Word) (j : BitVec 5) : (s.retire n).g j = s.g j := by simp [State.g]
@[simp] theorem State.g_jump (s : State) (t : Word) (j : BitVec 5) : (s.jump t).g j = s.g j := by simp [State.g]
@[simp] theorem State.g_setPc (s : State) (t : Word) (j : BitVec 5) : (s.setPc t).g j = s.g j := rfl
@[simp] theorem State.g_setVstart (s : State) (n : Nat) (j : BitVec 5) : (s.setVstart n).g j = s.g j := rfl

end Sys2Proof.Machine
end

