-- ==== Sys2Proof/Laws/Ops.lean ====
section
/-! SUPPORT. Laws/Ops.lean: what each shared operation can do, said once: retiring, writing a register, ending an
instruction, taking a trap, the checks, and reaching memory. -/

namespace Sys2Proof.Machine

set_option Elab.async false

/-! ## Retiring -/

theorem State.countInstr_rest (s : State) : { s.countInstr with halls := s.halls } = s := by
  unfold State.countInstr; split <;> rfl

theorem State.retire_hart (s : State) (l : Word) :
    (s.retire l).hart = { s.hart with pc := s.hart.pc + l, transfer := false } := by
  rw [State.retire, State.countInstr_hart]; rfl

/-- Retiring changes the pc, the transfer mark and what the halls count. -/
theorem State.retire_rest (s : State) (l : Word) : { s.retire l with hart := s.hart, halls := s.halls } = s := by
  unfold State.retire State.countInstr; split <;> rfl

theorem State.retire_g (s : State) (l : Word) (k : BitVec 5) : (s.retire l).g k = s.g k := by
  simp [State.g, State.retire_hart]

/-! ## Writing a register -/

theorem State.setG_hart_rest (s : State) (d : BitVec 5) (v : Word) : { (s.setG d v).hart with g := s.hart.g } = s.hart := by
  unfold State.setG; split <;> rfl

theorem State.setG_rest (s : State) (d : BitVec 5) (v : Word) : { s.setG d v with hart := s.hart } = s := by
  unfold State.setG; split <;> rfl

/-- g[0] stays 0; a write to another register is read back there and nowhere else. -/
theorem State.setG_g (s : State) (d : BitVec 5) (v : Word) (k : BitVec 5) :
    (s.setG d v).g k = if k = d ∧ k ≠ 0#5 then v else s.g k := by
  rw [State.g_setG]; by_cases hk : k = 0#5 <;> by_cases hd : k = d <;> simp_all [State.g]

/-! ## Ending an instruction -/

/-- An instruction that `finish` ends retires, or takes the trap that it met. -/
theorem finish_cases (p : Option Pfx) (r : Res) :
    (∃ s, r = .ok s ∧ finish p r = .next (s.retire (pfxLen p)))
    ∨ ∃ t s, r = .error (t, s) ∧ finish p r = .next (s.takeTrap { t with pfx := p.isSome }) := by
  cases r with
  | ok s => exact .inl ⟨s, rfl, rfl⟩
  | error e => exact .inr ⟨e.1, e.2, rfl, rfl⟩

/-- The same for one that reaches memory, whose translation fault may start run-ahead or be held. -/
theorem finishMem_cases (p : Option Pfx) (r : Res) :
    (∃ s, r = .ok s ∧ finishMem p r = .next (s.retire (pfxLen p)))
    ∨ ∃ t s, r = .error (t, s) ∧ finishMem p r = .next (s.takeFault { t with pfx := p.isSome }) := by
  cases r with
  | ok s => exact .inl ⟨s, rfl, rfl⟩
  | error e => exact .inr ⟨e.1, e.2, rfl, rfl⟩

/-- A fault that is no translation fault is a trap. -/
theorem State.takeFault_trap (s : State) (t : Trap) (h : t.reason = none) : s.takeFault t = s.takeTrap t := by
  simp [State.takeFault, h]

/-! ## Taking a trap -/

/-- A trap enters the S set with its own code, or the P set with it or with code 24, or stops the hart. -/
theorem State.takeTrap_cases (s : State) (t : Trap) :
    (s.toP t.code = false ∧ s.takeTrap t = s.enterS t)
    ∨ ∃ c d e, (c = t.code ∨ c = 24) ∧
        (s.takeTrap t = s.enterP c d e t.pfx t.after ∨ s.takeTrap t = s.undeliverable c) := by
  unfold State.takeTrap
  split
  · refine .inr ⟨t.code, t.detail, t.eval, .inl rfl, ?_⟩
    unfold State.takeP; split <;> simp
  · split
    · refine .inr ⟨24, 0, BitVec.ofNat 64 t.code, .inr rfl, ?_⟩
      unfold State.takeP; split <;> simp
    · exact .inl ⟨by simp_all, rfl⟩

/-- Entering the S set changes the hart only, and of the hart neither registers nor vector state. -/
theorem State.enterS_rest (s : State) (t : Trap) : { s.enterS t with hart := s.hart } = s := rfl

theorem State.enterS_g (s : State) (t : Trap) (k : BitVec 5) : (s.enterS t).g k = s.g k := rfl

theorem State.enterP_rest (s : State) (c d : Nat) (e : Word) (x a : Bool) :
    { s.enterP c d e x a with hart := s.hart, pset := s.pset } = s := rfl

theorem State.enterP_g (s : State) (c d : Nat) (e : Word) (x a : Bool) (k : BitVec 5) : (s.enterP c d e x a).g k = s.g k := rfl

/-! ## Reaching memory -/

theorem State.logRefusal_rest (s : State) (who : Option (BitVec 10)) (h : BitVec 4) (pa : Nat) (c : Option Nat) :
    { s.logRefusal who h pa c with halls := s.halls } = s := by
  cases c <;> rfl

/-- Logging a walk read that a gate refused changes the halls' logs. -/
theorem State.logWalk_rest (s : State) (who : Option (BitVec 10)) (h : BitVec 4) (lost : Option Nat) :
    { s.logWalk who h lost with halls := s.halls } = s := by
  unfold State.logWalk
  (repeat' split) <;> first | rfl | exact State.logRefusal_rest ..

/-- Keeping a translation changes the TLB, the cached table entries and, where a gate refused a walk read, a log. -/
theorem State.fillTlbBy_rest (s : State) (x : Bool) (who : Option (BitVec 10)) (h : BitVec 4) (va : Word) :
    { s.fillTlbBy x who h va with tlb := s.tlb, walks := s.walks, halls := s.halls } = s := by
  have e (l) : { (s.fillWalks who h va (s.walked who h va).seen).logWalk who h l with
      tlb := s.tlb, walks := s.walks, halls := s.halls } = s := by
    have := State.logWalk_rest (s.fillWalks who h va (s.walked who h va).seen) who h l
    rw [State.mk.injEq] at this
    rw [State.mk.injEq]
    simp only [State.fillWalks] at this ⊢
    simp_all
  unfold State.fillTlbBy
  dsimp only
  (repeat' split) <;> first | rfl | exact e _

theorem State.keepXlate_rest (s : State) (h : BitVec 4) (va : Word) :
    { s.keepXlate h va with tlb := s.tlb, walks := s.walks, halls := s.halls } = s := by
  unfold State.keepXlate State.fillTlb
  split
  · rfl
  · exact State.fillTlbBy_rest ..

/-- The checks of an access change what keeping a translation changes and, in run-ahead, what it notes. -/
theorem State.reach_rest (s : State) (h : BitVec 4) (k : Kind) (va : Word) (n al : Nat) (ok : Accept) :
    { (s.reach h k va n al ok).1 with tlb := s.tlb, walks := s.walks, halls := s.halls, ra := s.ra } = s := by
  have e := State.keepXlate_rest s h va
  rw [State.mk.injEq] at e
  unfold State.reach
  dsimp only
  rw [State.mk.injEq]
  (repeat' split) <;> simp_all

/-! ## Layouts -/

/-- The value of a field of a layout. -/
theorem place_toNat (n lo len : Nat) (h : lo + len ≤ 64) : (place n lo len).toNat = n % 2 ^ len * 2 ^ lo := by
  have h1 := Nat.mod_lt n (Nat.two_pow_pos len)
  have h2 : n % 2 ^ len * 2 ^ lo < 2 ^ 64 := by
    calc _ < 2 ^ len * 2 ^ lo := Nat.mul_lt_mul_of_pos_right h1 (Nat.two_pow_pos lo)
      _ = 2 ^ (lo + len) := by rw [← Nat.pow_add, Nat.add_comm]
      _ ≤ _ := Nat.pow_le_pow_right (by decide) h
  simp only [place, BitVec.toNat_ofNat, Nat.shiftLeft_eq]
  rw [Nat.mod_eq_of_lt h2]

/-- A field above a smaller number adds to it. -/
theorem place_or (n lo len : Nat) (x : Word) (hx : x.toNat < 2 ^ lo) (h : lo + len ≤ 64) :
    place n lo len ||| x = BitVec.ofNat 64 (x.toNat + 2 ^ lo * (n % 2 ^ len)) := by
  apply BitVec.eq_of_toNat_eq
  have e : (place n lo len ||| x).toNat = x.toNat + 2 ^ lo * (n % 2 ^ len) := by
    rw [BitVec.toNat_or, place_toNat _ _ _ h, Nat.mul_comm, ← Nat.two_pow_add_eq_or_of_lt hx, Nat.add_comm]
  rw [e, BitVec.toNat_ofNat, ← e, Nat.mod_eq_of_lt (BitVec.isLt _)]

end Sys2Proof.Machine
end

