-- ==== Sys2Proof/Laws/PerInstr.lean ====
section
/-! SUPPORT. PerInstr.lean: what is stated of every instruction, one lemma for each. -/

namespace Sys2Proof.Laws.ReadsBack

section
set_option maxRecDepth 100000
set_option linter.all false
set_option Elab.async false

/-- R60 to R66: the word of an instruction is no prefix, is a vector word where the instruction may be prefixed, and gives
back the instruction, with every operand, through its major and selector. -/
def Statement (i : Instr) : Prop := ∀ w, encodeWord i = some w →
  isPfx w = false ∧ (i.pfx.isSome = true → isVector w = true) ∧ decodeFields i.pfx w = some i

theorem scalar {i : Instr} {w : IWord} {m : BitVec 6} (he : encodeWord i = some w) (hp : i.pfx = none)
    (hm : w.extractLsb' 26 6 = m) (hn : m ≠ 0x3E#6) (hd : decodeScalar w = some i) : Statement i := by
  rintro w' h
  obtain rfl : w = w' := by simpa [he] using h
  simp [isPfx, hm, hn, hp, decodeFields, hd]

theorem scalar_none {w : IWord} (h : 0x22#6 ≤ w.extractLsb' 26 6 ∧ w.extractLsb' 26 6 ≤ 0x2C#6) : decodeScalar w = none := by
  unfold decodeScalar
  split <;> simp_all

theorem vector {i : Instr} {w : IWord} {p : Option Pfx} {m : BitVec 6} (he : encodeWord i = some w) (hp : i.pfx = p)
    (hm : w.extractLsb' 26 6 = m) (hv : 0x22#6 ≤ m ∧ m ≤ 0x2C#6) (hd : decodeVector p w = some i) : Statement i := by
  rintro w' h
  obtain rfl : w = w' := by simpa [he] using h
  subst hm
  refine ⟨?_, fun _ => by simpa [isVector] using hv, ?_⟩
  · simp only [isPfx, beq_eq_false_iff_ne]
    rintro e
    rw [e] at hv
    revert hv; decide
  · rw [hp]
    cases p <;> simp [decodeFields, hd, scalar_none hv]

theorem at01 (w : IWord) (h : w.extractLsb' 26 6 = 0x01#6) : decodeScalar w = decodeSalu w := by
  simp only [decodeScalar, h]

theorem at02 (w : IWord) (h : w.extractLsb' 26 6 = 0x02#6) : decodeScalar w = some (.addi (w.extractLsb' 21 5) (w.extractLsb' 16 5) (w.extractLsb' 0 16)) := by
  simp only [decodeScalar, h]

theorem at03 (w : IWord) (h : w.extractLsb' 26 6 = 0x03#6) : decodeScalar w = some (.andi (w.extractLsb' 21 5) (w.extractLsb' 16 5) (w.extractLsb' 0 16)) := by
  simp only [decodeScalar, h]

theorem at04 (w : IWord) (h : w.extractLsb' 26 6 = 0x04#6) : decodeScalar w = some (.ori (w.extractLsb' 21 5) (w.extractLsb' 16 5) (w.extractLsb' 0 16)) := by
  simp only [decodeScalar, h]

theorem at05 (w : IWord) (h : w.extractLsb' 26 6 = 0x05#6) : decodeScalar w = some (.xori (w.extractLsb' 21 5) (w.extractLsb' 16 5) (w.extractLsb' 0 16)) := by
  simp only [decodeScalar, h]

theorem at06 (w : IWord) (h : w.extractLsb' 26 6 = 0x06#6) : decodeScalar w = decodeShi w := by
  simp only [decodeScalar, h]

theorem at07 (w : IWord) (h : w.extractLsb' 26 6 = 0x07#6) : decodeScalar w = some (.slti (w.extractLsb' 21 5) (w.extractLsb' 16 5) (w.extractLsb' 0 16)) := by
  simp only [decodeScalar, h]

theorem at08 (w : IWord) (h : w.extractLsb' 26 6 = 0x08#6) : decodeScalar w = some (.sltni (w.extractLsb' 21 5) (w.extractLsb' 16 5) (w.extractLsb' 0 16)) := by
  simp only [decodeScalar, h]

theorem at09 (w : IWord) (h : w.extractLsb' 26 6 = 0x09#6) : decodeScalar w = some (.ldhi (w.extractLsb' 21 5) (w.extractLsb' 0 16)) := by
  simp only [decodeScalar, h]

theorem at0A (w : IWord) (h : w.extractLsb' 26 6 = 0x0A#6) : decodeScalar w = some (.addpc (w.extractLsb' 21 5) (w.extractLsb' 0 16)) := by
  simp only [decodeScalar, h]

theorem at0B (w : IWord) (h : w.extractLsb' 26 6 = 0x0B#6) : decodeScalar w = some (.ldb (w.extractLsb' 21 5) (w.extractLsb' 16 5) (w.extractLsb' 0 16)) := by
  simp only [decodeScalar, h]

theorem at0C (w : IWord) (h : w.extractLsb' 26 6 = 0x0C#6) : decodeScalar w = some (.ldbn (w.extractLsb' 21 5) (w.extractLsb' 16 5) (w.extractLsb' 0 16)) := by
  simp only [decodeScalar, h]

theorem at0D (w : IWord) (h : w.extractLsb' 26 6 = 0x0D#6) : decodeScalar w = some (.ldh (w.extractLsb' 21 5) (w.extractLsb' 16 5) (w.extractLsb' 0 16)) := by
  simp only [decodeScalar, h]

theorem at0E (w : IWord) (h : w.extractLsb' 26 6 = 0x0E#6) : decodeScalar w = some (.ldhn (w.extractLsb' 21 5) (w.extractLsb' 16 5) (w.extractLsb' 0 16)) := by
  simp only [decodeScalar, h]

theorem at0F (w : IWord) (h : w.extractLsb' 26 6 = 0x0F#6) : decodeScalar w = some (.ldw (w.extractLsb' 21 5) (w.extractLsb' 16 5) (w.extractLsb' 0 16)) := by
  simp only [decodeScalar, h]

theorem at10 (w : IWord) (h : w.extractLsb' 26 6 = 0x10#6) : decodeScalar w = some (.ldwn (w.extractLsb' 21 5) (w.extractLsb' 16 5) (w.extractLsb' 0 16)) := by
  simp only [decodeScalar, h]

theorem at11 (w : IWord) (h : w.extractLsb' 26 6 = 0x11#6) : decodeScalar w = some (.ldd (w.extractLsb' 21 5) (w.extractLsb' 16 5) (w.extractLsb' 0 16)) := by
  simp only [decodeScalar, h]

theorem at12 (w : IWord) (h : w.extractLsb' 26 6 = 0x12#6) : decodeScalar w = some (.stb (w.extractLsb' 21 5) (w.extractLsb' 16 5) (w.extractLsb' 0 16)) := by
  simp only [decodeScalar, h]

theorem at13 (w : IWord) (h : w.extractLsb' 26 6 = 0x13#6) : decodeScalar w = some (.sth (w.extractLsb' 21 5) (w.extractLsb' 16 5) (w.extractLsb' 0 16)) := by
  simp only [decodeScalar, h]

theorem at14 (w : IWord) (h : w.extractLsb' 26 6 = 0x14#6) : decodeScalar w = some (.stw (w.extractLsb' 21 5) (w.extractLsb' 16 5) (w.extractLsb' 0 16)) := by
  simp only [decodeScalar, h]

theorem at15 (w : IWord) (h : w.extractLsb' 26 6 = 0x15#6) : decodeScalar w = some (.std (w.extractLsb' 21 5) (w.extractLsb' 16 5) (w.extractLsb' 0 16)) := by
  simp only [decodeScalar, h]

theorem at16 (w : IWord) (h : w.extractLsb' 26 6 = 0x16#6) : decodeScalar w = some (.beq (w.extractLsb' 21 5) (w.extractLsb' 16 5) (w.extractLsb' 0 16)) := by
  simp only [decodeScalar, h]

theorem at17 (w : IWord) (h : w.extractLsb' 26 6 = 0x17#6) : decodeScalar w = some (.bne (w.extractLsb' 21 5) (w.extractLsb' 16 5) (w.extractLsb' 0 16)) := by
  simp only [decodeScalar, h]

theorem at18 (w : IWord) (h : w.extractLsb' 26 6 = 0x18#6) : decodeScalar w = some (.blt (w.extractLsb' 21 5) (w.extractLsb' 16 5) (w.extractLsb' 0 16)) := by
  simp only [decodeScalar, h]

theorem at19 (w : IWord) (h : w.extractLsb' 26 6 = 0x19#6) : decodeScalar w = some (.bge (w.extractLsb' 21 5) (w.extractLsb' 16 5) (w.extractLsb' 0 16)) := by
  simp only [decodeScalar, h]

theorem at1A (w : IWord) (h : w.extractLsb' 26 6 = 0x1A#6) : decodeScalar w = some (.bltn (w.extractLsb' 21 5) (w.extractLsb' 16 5) (w.extractLsb' 0 16)) := by
  simp only [decodeScalar, h]

theorem at1B (w : IWord) (h : w.extractLsb' 26 6 = 0x1B#6) : decodeScalar w = some (.bgen (w.extractLsb' 21 5) (w.extractLsb' 16 5) (w.extractLsb' 0 16)) := by
  simp only [decodeScalar, h]

theorem at1C (w : IWord) (h : w.extractLsb' 26 6 = 0x1C#6) : decodeScalar w = some (.jal (w.extractLsb' 0 26)) := by
  simp only [decodeScalar, h]

theorem at1D (w : IWord) (h : w.extractLsb' 26 6 = 0x1D#6) : decodeScalar w = some (.jalr (w.extractLsb' 21 5) (w.extractLsb' 16 5) (w.extractLsb' 0 16)) := by
  simp only [decodeScalar, h]

theorem at1E (w : IWord) (h : w.extractLsb' 26 6 = 0x1E#6) : decodeScalar w = decodeSfp w := by
  simp only [decodeScalar, h]

theorem at1F (w : IWord) (h : w.extractLsb' 26 6 = 0x1F#6) : decodeScalar w = decodeAtom w := by
  simp only [decodeScalar, h]

theorem at20 (w : IWord) (h : w.extractLsb' 26 6 = 0x20#6) : decodeScalar w = decodeSync w := by
  simp only [decodeScalar, h]

theorem at21 (w : IWord) (h : w.extractLsb' 26 6 = 0x21#6) : decodeScalar w = decodeSys w := by
  simp only [decodeScalar, h]

theorem at2D (w : IWord) (h : w.extractLsb' 26 6 = 0x2D#6) : decodeScalar w = decodeEng w := by
  simp only [decodeScalar, h]

theorem at22 {p : Option Pfx} (w : IWord) (h : w.extractLsb' 26 6 = 0x22#6) : decodeVector p w = decodeVctl p w := by
  simp only [decodeVector, h]

theorem at23 {p : Option Pfx} (w : IWord) (h : w.extractLsb' 26 6 = 0x23#6) : decodeVector p w = decodeVint p w := by
  simp only [decodeVector, h]

theorem at24 {p : Option Pfx} (w : IWord) (h : w.extractLsb' 26 6 = 0x24#6) : decodeVector p w = decodeVfp p w := by
  simp only [decodeVector, h]

theorem at25 {p : Option Pfx} (w : IWord) (h : w.extractLsb' 26 6 = 0x25#6) : decodeVector p w = decodeVcvt p w := by
  simp only [decodeVector, h]

theorem at26 {p : Option Pfx} (w : IWord) (h : w.extractLsb' 26 6 = 0x26#6) : decodeVector p w = decodeVrp p w := by
  simp only [decodeVector, h]

theorem at27 {p : Option Pfx} (w : IWord) (h : w.extractLsb' 26 6 = 0x27#6) : decodeVector p w = decodeMask p w := by
  simp only [decodeVector, h]

theorem at28 {p : Option Pfx} (w : IWord) (h : w.extractLsb' 26 6 = 0x28#6) : decodeVector p w = decodeVld p w := by
  simp only [decodeVector, h]

theorem at29 {p : Option Pfx} (w : IWord) (h : w.extractLsb' 26 6 = 0x29#6) : decodeVector p w = decodeVst p w := by
  simp only [decodeVector, h]

theorem at2A {p : Option Pfx} (w : IWord) (h : w.extractLsb' 26 6 = 0x2A#6) : decodeVector p w = decodeVamo p w := by
  simp only [decodeVector, h]

theorem at2B {p : Option Pfx} (w : IWord) (h : w.extractLsb' 26 6 = 0x2B#6) : decodeVector p w = decodeInkw p w := by
  simp only [decodeVector, h]

theorem at2C {p : Option Pfx} (w : IWord) (h : w.extractLsb' 26 6 = 0x2C#6) : decodeVector p w = decodeMat p w := by
  simp only [decodeVector, h]
theorem add (d a b : BitVec 5) : Statement (.add d a b) := by
  exact scalar (m := 0x01#6) rfl rfl (sr_m ..) (by decide)
    (by rw [at01 _ (sr_m ..)]; simp [-BitVec.getLsbD_eq_getElem, decodeSalu, sr_d, sr_a, sr_b, sr_low, sr_bit, sr_b_low])

theorem sub (d a b : BitVec 5) : Statement (.sub d a b) := by
  exact scalar (m := 0x01#6) rfl rfl (sr_m ..) (by decide)
    (by rw [at01 _ (sr_m ..)]; simp [-BitVec.getLsbD_eq_getElem, decodeSalu, sr_d, sr_a, sr_b, sr_low, sr_bit, sr_b_low])

theorem and (d a b : BitVec 5) : Statement (.and d a b) := by
  exact scalar (m := 0x01#6) rfl rfl (sr_m ..) (by decide)
    (by rw [at01 _ (sr_m ..)]; simp [-BitVec.getLsbD_eq_getElem, decodeSalu, sr_d, sr_a, sr_b, sr_low, sr_bit, sr_b_low])

theorem or (d a b : BitVec 5) : Statement (.or d a b) := by
  exact scalar (m := 0x01#6) rfl rfl (sr_m ..) (by decide)
    (by rw [at01 _ (sr_m ..)]; simp [-BitVec.getLsbD_eq_getElem, decodeSalu, sr_d, sr_a, sr_b, sr_low, sr_bit, sr_b_low])

theorem xor (d a b : BitVec 5) : Statement (.xor d a b) := by
  exact scalar (m := 0x01#6) rfl rfl (sr_m ..) (by decide)
    (by rw [at01 _ (sr_m ..)]; simp [-BitVec.getLsbD_eq_getElem, decodeSalu, sr_d, sr_a, sr_b, sr_low, sr_bit, sr_b_low])

theorem andn (d a b : BitVec 5) : Statement (.andn d a b) := by
  exact scalar (m := 0x01#6) rfl rfl (sr_m ..) (by decide)
    (by rw [at01 _ (sr_m ..)]; simp [-BitVec.getLsbD_eq_getElem, decodeSalu, sr_d, sr_a, sr_b, sr_low, sr_bit, sr_b_low])

theorem orn (d a b : BitVec 5) : Statement (.orn d a b) := by
  exact scalar (m := 0x01#6) rfl rfl (sr_m ..) (by decide)
    (by rw [at01 _ (sr_m ..)]; simp [-BitVec.getLsbD_eq_getElem, decodeSalu, sr_d, sr_a, sr_b, sr_low, sr_bit, sr_b_low])

theorem sll (d a b : BitVec 5) : Statement (.sll d a b) := by
  exact scalar (m := 0x01#6) rfl rfl (sr_m ..) (by decide)
    (by rw [at01 _ (sr_m ..)]; simp [-BitVec.getLsbD_eq_getElem, decodeSalu, sr_d, sr_a, sr_b, sr_low, sr_bit, sr_b_low])

theorem srl (d a b : BitVec 5) : Statement (.srl d a b) := by
  exact scalar (m := 0x01#6) rfl rfl (sr_m ..) (by decide)
    (by rw [at01 _ (sr_m ..)]; simp [-BitVec.getLsbD_eq_getElem, decodeSalu, sr_d, sr_a, sr_b, sr_low, sr_bit, sr_b_low])

theorem sra (d a b : BitVec 5) : Statement (.sra d a b) := by
  exact scalar (m := 0x01#6) rfl rfl (sr_m ..) (by decide)
    (by rw [at01 _ (sr_m ..)]; simp [-BitVec.getLsbD_eq_getElem, decodeSalu, sr_d, sr_a, sr_b, sr_low, sr_bit, sr_b_low])

theorem rol (d a b : BitVec 5) : Statement (.rol d a b) := by
  exact scalar (m := 0x01#6) rfl rfl (sr_m ..) (by decide)
    (by rw [at01 _ (sr_m ..)]; simp [-BitVec.getLsbD_eq_getElem, decodeSalu, sr_d, sr_a, sr_b, sr_low, sr_bit, sr_b_low])

theorem ror (d a b : BitVec 5) : Statement (.ror d a b) := by
  exact scalar (m := 0x01#6) rfl rfl (sr_m ..) (by decide)
    (by rw [at01 _ (sr_m ..)]; simp [-BitVec.getLsbD_eq_getElem, decodeSalu, sr_d, sr_a, sr_b, sr_low, sr_bit, sr_b_low])

theorem slt (d a b : BitVec 5) : Statement (.slt d a b) := by
  exact scalar (m := 0x01#6) rfl rfl (sr_m ..) (by decide)
    (by rw [at01 _ (sr_m ..)]; simp [-BitVec.getLsbD_eq_getElem, decodeSalu, sr_d, sr_a, sr_b, sr_low, sr_bit, sr_b_low])

theorem sltn (d a b : BitVec 5) : Statement (.sltn d a b) := by
  exact scalar (m := 0x01#6) rfl rfl (sr_m ..) (by decide)
    (by rw [at01 _ (sr_m ..)]; simp [-BitVec.getLsbD_eq_getElem, decodeSalu, sr_d, sr_a, sr_b, sr_low, sr_bit, sr_b_low])

theorem min (d a b : BitVec 5) : Statement (.min d a b) := by
  exact scalar (m := 0x01#6) rfl rfl (sr_m ..) (by decide)
    (by rw [at01 _ (sr_m ..)]; simp [-BitVec.getLsbD_eq_getElem, decodeSalu, sr_d, sr_a, sr_b, sr_low, sr_bit, sr_b_low])

theorem max (d a b : BitVec 5) : Statement (.max d a b) := by
  exact scalar (m := 0x01#6) rfl rfl (sr_m ..) (by decide)
    (by rw [at01 _ (sr_m ..)]; simp [-BitVec.getLsbD_eq_getElem, decodeSalu, sr_d, sr_a, sr_b, sr_low, sr_bit, sr_b_low])

theorem minn (d a b : BitVec 5) : Statement (.minn d a b) := by
  exact scalar (m := 0x01#6) rfl rfl (sr_m ..) (by decide)
    (by rw [at01 _ (sr_m ..)]; simp [-BitVec.getLsbD_eq_getElem, decodeSalu, sr_d, sr_a, sr_b, sr_low, sr_bit, sr_b_low])

theorem maxn (d a b : BitVec 5) : Statement (.maxn d a b) := by
  exact scalar (m := 0x01#6) rfl rfl (sr_m ..) (by decide)
    (by rw [at01 _ (sr_m ..)]; simp [-BitVec.getLsbD_eq_getElem, decodeSalu, sr_d, sr_a, sr_b, sr_low, sr_bit, sr_b_low])

theorem mul (d a b : BitVec 5) : Statement (.mul d a b) := by
  exact scalar (m := 0x01#6) rfl rfl (sr_m ..) (by decide)
    (by rw [at01 _ (sr_m ..)]; simp [-BitVec.getLsbD_eq_getElem, decodeSalu, sr_d, sr_a, sr_b, sr_low, sr_bit, sr_b_low])

theorem mulh (d a b : BitVec 5) : Statement (.mulh d a b) := by
  exact scalar (m := 0x01#6) rfl rfl (sr_m ..) (by decide)
    (by rw [at01 _ (sr_m ..)]; simp [-BitVec.getLsbD_eq_getElem, decodeSalu, sr_d, sr_a, sr_b, sr_low, sr_bit, sr_b_low])

theorem mulhn (d a b : BitVec 5) : Statement (.mulhn d a b) := by
  exact scalar (m := 0x01#6) rfl rfl (sr_m ..) (by decide)
    (by rw [at01 _ (sr_m ..)]; simp [-BitVec.getLsbD_eq_getElem, decodeSalu, sr_d, sr_a, sr_b, sr_low, sr_bit, sr_b_low])

theorem div (d a b : BitVec 5) : Statement (.div d a b) := by
  exact scalar (m := 0x01#6) rfl rfl (sr_m ..) (by decide)
    (by rw [at01 _ (sr_m ..)]; simp [-BitVec.getLsbD_eq_getElem, decodeSalu, sr_d, sr_a, sr_b, sr_low, sr_bit, sr_b_low])

theorem divn (d a b : BitVec 5) : Statement (.divn d a b) := by
  exact scalar (m := 0x01#6) rfl rfl (sr_m ..) (by decide)
    (by rw [at01 _ (sr_m ..)]; simp [-BitVec.getLsbD_eq_getElem, decodeSalu, sr_d, sr_a, sr_b, sr_low, sr_bit, sr_b_low])

theorem rem (d a b : BitVec 5) : Statement (.rem d a b) := by
  exact scalar (m := 0x01#6) rfl rfl (sr_m ..) (by decide)
    (by rw [at01 _ (sr_m ..)]; simp [-BitVec.getLsbD_eq_getElem, decodeSalu, sr_d, sr_a, sr_b, sr_low, sr_bit, sr_b_low])

theorem remn (d a b : BitVec 5) : Statement (.remn d a b) := by
  exact scalar (m := 0x01#6) rfl rfl (sr_m ..) (by decide)
    (by rw [at01 _ (sr_m ..)]; simp [-BitVec.getLsbD_eq_getElem, decodeSalu, sr_d, sr_a, sr_b, sr_low, sr_bit, sr_b_low])

theorem clz (d a : BitVec 5) : Statement (.clz d a) := by
  exact scalar (m := 0x01#6) rfl rfl (sr_m ..) (by decide)
    (by rw [at01 _ (sr_m ..)]; simp [-BitVec.getLsbD_eq_getElem, decodeSalu, sr_d, sr_a, sr_b, sr_low, sr_bit, sr_b_low])

theorem ctz (d a : BitVec 5) : Statement (.ctz d a) := by
  exact scalar (m := 0x01#6) rfl rfl (sr_m ..) (by decide)
    (by rw [at01 _ (sr_m ..)]; simp [-BitVec.getLsbD_eq_getElem, decodeSalu, sr_d, sr_a, sr_b, sr_low, sr_bit, sr_b_low])

theorem popc (d a : BitVec 5) : Statement (.popc d a) := by
  exact scalar (m := 0x01#6) rfl rfl (sr_m ..) (by decide)
    (by rw [at01 _ (sr_m ..)]; simp [-BitVec.getLsbD_eq_getElem, decodeSalu, sr_d, sr_a, sr_b, sr_low, sr_bit, sr_b_low])

theorem bswp (d a : BitVec 5) : Statement (.bswp d a) := by
  exact scalar (m := 0x01#6) rfl rfl (sr_m ..) (by decide)
    (by rw [at01 _ (sr_m ..)]; simp [-BitVec.getLsbD_eq_getElem, decodeSalu, sr_d, sr_a, sr_b, sr_low, sr_bit, sr_b_low])

theorem sext (d a b : BitVec 5) : Statement (.sext d a b) := by
  exact scalar (m := 0x01#6) rfl rfl (sr_m ..) (by decide)
    (by rw [at01 _ (sr_m ..)]; simp [-BitVec.getLsbD_eq_getElem, decodeSalu, sr_d, sr_a, sr_b, sr_low, sr_bit, sr_b_low])

theorem zext (d a b : BitVec 5) : Statement (.zext d a b) := by
  exact scalar (m := 0x01#6) rfl rfl (sr_m ..) (by decide)
    (by rw [at01 _ (sr_m ..)]; simp [-BitVec.getLsbD_eq_getElem, decodeSalu, sr_d, sr_a, sr_b, sr_low, sr_bit, sr_b_low])

theorem selnz (d a b : BitVec 5) : Statement (.selnz d a b) := by
  exact scalar (m := 0x01#6) rfl rfl (sr_m ..) (by decide)
    (by rw [at01 _ (sr_m ..)]; simp [-BitVec.getLsbD_eq_getElem, decodeSalu, sr_d, sr_a, sr_b, sr_low, sr_bit, sr_b_low])

theorem addi (d a : BitVec 5) (i : BitVec 16) : Statement (.addi d a i) := by
  exact scalar (m := 0x02#6) rfl rfl (si_m ..) (by decide)
    (by rw [at02 _ (si_m ..)]; simp [-BitVec.getLsbD_eq_getElem, si_d, si_a, si_i, si_low])

theorem andi (d a : BitVec 5) (i : BitVec 16) : Statement (.andi d a i) := by
  exact scalar (m := 0x03#6) rfl rfl (si_m ..) (by decide)
    (by rw [at03 _ (si_m ..)]; simp [-BitVec.getLsbD_eq_getElem, si_d, si_a, si_i, si_low])

theorem ori (d a : BitVec 5) (i : BitVec 16) : Statement (.ori d a i) := by
  exact scalar (m := 0x04#6) rfl rfl (si_m ..) (by decide)
    (by rw [at04 _ (si_m ..)]; simp [-BitVec.getLsbD_eq_getElem, si_d, si_a, si_i, si_low])

theorem xori (d a : BitVec 5) (i : BitVec 16) : Statement (.xori d a i) := by
  exact scalar (m := 0x05#6) rfl rfl (si_m ..) (by decide)
    (by rw [at05 _ (si_m ..)]; simp [-BitVec.getLsbD_eq_getElem, si_d, si_a, si_i, si_low])

theorem slli (d a : BitVec 5) (n : BitVec 6) : Statement (.slli d a n) := by
  exact scalar (m := 0x06#6) rfl rfl (si_m ..) (by decide)
    (by rw [at06 _ (si_m ..)]; simp [-BitVec.getLsbD_eq_getElem, decodeShi, si_d, si_a, si_i, si_low, highBit_10_6, high_10_6, lowBit_10_6, low_10_6])

theorem srli (d a : BitVec 5) (n : BitVec 6) : Statement (.srli d a n) := by
  exact scalar (m := 0x06#6) rfl rfl (si_m ..) (by decide)
    (by rw [at06 _ (si_m ..)]; simp [-BitVec.getLsbD_eq_getElem, decodeShi, si_d, si_a, si_i, si_low, highBit_10_6, high_10_6, lowBit_10_6, low_10_6])

theorem srai (d a : BitVec 5) (n : BitVec 6) : Statement (.srai d a n) := by
  exact scalar (m := 0x06#6) rfl rfl (si_m ..) (by decide)
    (by rw [at06 _ (si_m ..)]; simp [-BitVec.getLsbD_eq_getElem, decodeShi, si_d, si_a, si_i, si_low, highBit_10_6, high_10_6, lowBit_10_6, low_10_6])

theorem rori (d a : BitVec 5) (n : BitVec 6) : Statement (.rori d a n) := by
  exact scalar (m := 0x06#6) rfl rfl (si_m ..) (by decide)
    (by rw [at06 _ (si_m ..)]; simp [-BitVec.getLsbD_eq_getElem, decodeShi, si_d, si_a, si_i, si_low, highBit_10_6, high_10_6, lowBit_10_6, low_10_6])

theorem slti (d a : BitVec 5) (i : BitVec 16) : Statement (.slti d a i) := by
  exact scalar (m := 0x07#6) rfl rfl (si_m ..) (by decide)
    (by rw [at07 _ (si_m ..)]; simp [-BitVec.getLsbD_eq_getElem, si_d, si_a, si_i, si_low])

theorem sltni (d a : BitVec 5) (i : BitVec 16) : Statement (.sltni d a i) := by
  exact scalar (m := 0x08#6) rfl rfl (si_m ..) (by decide)
    (by rw [at08 _ (si_m ..)]; simp [-BitVec.getLsbD_eq_getElem, si_d, si_a, si_i, si_low])

theorem ldhi (d : BitVec 5) (i : BitVec 16) : Statement (.ldhi d i) := by
  exact scalar (m := 0x09#6) rfl rfl (si_m ..) (by decide)
    (by rw [at09 _ (si_m ..)]; simp [-BitVec.getLsbD_eq_getElem, si_d, si_a, si_i, si_low])

theorem addpc (d : BitVec 5) (i : BitVec 16) : Statement (.addpc d i) := by
  exact scalar (m := 0x0A#6) rfl rfl (si_m ..) (by decide)
    (by rw [at0A _ (si_m ..)]; simp [-BitVec.getLsbD_eq_getElem, si_d, si_a, si_i, si_low])

theorem ldb (d a : BitVec 5) (i : BitVec 16) : Statement (.ldb d a i) := by
  exact scalar (m := 0x0B#6) rfl rfl (si_m ..) (by decide)
    (by rw [at0B _ (si_m ..)]; simp [-BitVec.getLsbD_eq_getElem, si_d, si_a, si_i, si_low])

theorem ldbn (d a : BitVec 5) (i : BitVec 16) : Statement (.ldbn d a i) := by
  exact scalar (m := 0x0C#6) rfl rfl (si_m ..) (by decide)
    (by rw [at0C _ (si_m ..)]; simp [-BitVec.getLsbD_eq_getElem, si_d, si_a, si_i, si_low])

theorem ldh (d a : BitVec 5) (i : BitVec 16) : Statement (.ldh d a i) := by
  exact scalar (m := 0x0D#6) rfl rfl (si_m ..) (by decide)
    (by rw [at0D _ (si_m ..)]; simp [-BitVec.getLsbD_eq_getElem, si_d, si_a, si_i, si_low])

theorem ldhn (d a : BitVec 5) (i : BitVec 16) : Statement (.ldhn d a i) := by
  exact scalar (m := 0x0E#6) rfl rfl (si_m ..) (by decide)
    (by rw [at0E _ (si_m ..)]; simp [-BitVec.getLsbD_eq_getElem, si_d, si_a, si_i, si_low])

theorem ldw (d a : BitVec 5) (i : BitVec 16) : Statement (.ldw d a i) := by
  exact scalar (m := 0x0F#6) rfl rfl (si_m ..) (by decide)
    (by rw [at0F _ (si_m ..)]; simp [-BitVec.getLsbD_eq_getElem, si_d, si_a, si_i, si_low])

theorem ldwn (d a : BitVec 5) (i : BitVec 16) : Statement (.ldwn d a i) := by
  exact scalar (m := 0x10#6) rfl rfl (si_m ..) (by decide)
    (by rw [at10 _ (si_m ..)]; simp [-BitVec.getLsbD_eq_getElem, si_d, si_a, si_i, si_low])

theorem ldd (d a : BitVec 5) (i : BitVec 16) : Statement (.ldd d a i) := by
  exact scalar (m := 0x11#6) rfl rfl (si_m ..) (by decide)
    (by rw [at11 _ (si_m ..)]; simp [-BitVec.getLsbD_eq_getElem, si_d, si_a, si_i, si_low])

theorem stb (d a : BitVec 5) (i : BitVec 16) : Statement (.stb d a i) := by
  exact scalar (m := 0x12#6) rfl rfl (si_m ..) (by decide)
    (by rw [at12 _ (si_m ..)]; simp [-BitVec.getLsbD_eq_getElem, si_d, si_a, si_i, si_low])

theorem sth (d a : BitVec 5) (i : BitVec 16) : Statement (.sth d a i) := by
  exact scalar (m := 0x13#6) rfl rfl (si_m ..) (by decide)
    (by rw [at13 _ (si_m ..)]; simp [-BitVec.getLsbD_eq_getElem, si_d, si_a, si_i, si_low])

theorem stw (d a : BitVec 5) (i : BitVec 16) : Statement (.stw d a i) := by
  exact scalar (m := 0x14#6) rfl rfl (si_m ..) (by decide)
    (by rw [at14 _ (si_m ..)]; simp [-BitVec.getLsbD_eq_getElem, si_d, si_a, si_i, si_low])

theorem std (d a : BitVec 5) (i : BitVec 16) : Statement (.std d a i) := by
  exact scalar (m := 0x15#6) rfl rfl (si_m ..) (by decide)
    (by rw [at15 _ (si_m ..)]; simp [-BitVec.getLsbD_eq_getElem, si_d, si_a, si_i, si_low])

theorem beq (a b : BitVec 5) (o : BitVec 16) : Statement (.beq a b o) := by
  exact scalar (m := 0x16#6) rfl rfl (si_m ..) (by decide)
    (by rw [at16 _ (si_m ..)]; simp [-BitVec.getLsbD_eq_getElem, si_d, si_a, si_i, si_low])

theorem bne (a b : BitVec 5) (o : BitVec 16) : Statement (.bne a b o) := by
  exact scalar (m := 0x17#6) rfl rfl (si_m ..) (by decide)
    (by rw [at17 _ (si_m ..)]; simp [-BitVec.getLsbD_eq_getElem, si_d, si_a, si_i, si_low])

theorem blt (a b : BitVec 5) (o : BitVec 16) : Statement (.blt a b o) := by
  exact scalar (m := 0x18#6) rfl rfl (si_m ..) (by decide)
    (by rw [at18 _ (si_m ..)]; simp [-BitVec.getLsbD_eq_getElem, si_d, si_a, si_i, si_low])

theorem bge (a b : BitVec 5) (o : BitVec 16) : Statement (.bge a b o) := by
  exact scalar (m := 0x19#6) rfl rfl (si_m ..) (by decide)
    (by rw [at19 _ (si_m ..)]; simp [-BitVec.getLsbD_eq_getElem, si_d, si_a, si_i, si_low])

theorem bltn (a b : BitVec 5) (o : BitVec 16) : Statement (.bltn a b o) := by
  exact scalar (m := 0x1A#6) rfl rfl (si_m ..) (by decide)
    (by rw [at1A _ (si_m ..)]; simp [-BitVec.getLsbD_eq_getElem, si_d, si_a, si_i, si_low])

theorem bgen (a b : BitVec 5) (o : BitVec 16) : Statement (.bgen a b o) := by
  exact scalar (m := 0x1B#6) rfl rfl (si_m ..) (by decide)
    (by rw [at1B _ (si_m ..)]; simp [-BitVec.getLsbD_eq_getElem, si_d, si_a, si_i, si_low])

theorem jal (o : BitVec 26) : Statement (.jal o) := by
  exact scalar (m := 0x1C#6) rfl rfl (sj_m ..) (by decide)
    (by rw [at1C _ (sj_m ..)]; simp [-BitVec.getLsbD_eq_getElem, sj_o])

theorem jalr (d a : BitVec 5) (i : BitVec 16) : Statement (.jalr d a i) := by
  exact scalar (m := 0x1D#6) rfl rfl (si_m ..) (by decide)
    (by rw [at1D _ (si_m ..)]; simp [-BitVec.getLsbD_eq_getElem, si_d, si_a, si_i, si_low])

theorem fadd (d a b : BitVec 5) (r : BitVec 3) (p : Bool) : Statement (.fadd d a b r p) := by
  exact scalar (m := 0x1E#6) rfl rfl (sr_m ..) (by decide)
    (by rw [at1E _ (sr_m ..)]; simp [-BitVec.getLsbD_eq_getElem, decodeSfp, sr_d, sr_a, sr_b, sr_low, sr_bit, sr_b_low, BitVec.getLsbD_ofBool, highBit_1_3, highBit_4_1, highBit_5_6, high_1_3, high_4_1, high_5_6, lowBit_1_3, lowBit_4_1, lowBit_5_6, low_1_3, low_4_1, low_5_6])

theorem fsub (d a b : BitVec 5) (r : BitVec 3) (p : Bool) : Statement (.fsub d a b r p) := by
  exact scalar (m := 0x1E#6) rfl rfl (sr_m ..) (by decide)
    (by rw [at1E _ (sr_m ..)]; simp [-BitVec.getLsbD_eq_getElem, decodeSfp, sr_d, sr_a, sr_b, sr_low, sr_bit, sr_b_low, BitVec.getLsbD_ofBool, highBit_1_3, highBit_4_1, highBit_5_6, high_1_3, high_4_1, high_5_6, lowBit_1_3, lowBit_4_1, lowBit_5_6, low_1_3, low_4_1, low_5_6])

theorem fmul (d a b : BitVec 5) (r : BitVec 3) (p : Bool) : Statement (.fmul d a b r p) := by
  exact scalar (m := 0x1E#6) rfl rfl (sr_m ..) (by decide)
    (by rw [at1E _ (sr_m ..)]; simp [-BitVec.getLsbD_eq_getElem, decodeSfp, sr_d, sr_a, sr_b, sr_low, sr_bit, sr_b_low, BitVec.getLsbD_ofBool, highBit_1_3, highBit_4_1, highBit_5_6, high_1_3, high_4_1, high_5_6, lowBit_1_3, lowBit_4_1, lowBit_5_6, low_1_3, low_4_1, low_5_6])

theorem fdiv (d a b : BitVec 5) (r : BitVec 3) (p : Bool) : Statement (.fdiv d a b r p) := by
  exact scalar (m := 0x1E#6) rfl rfl (sr_m ..) (by decide)
    (by rw [at1E _ (sr_m ..)]; simp [-BitVec.getLsbD_eq_getElem, decodeSfp, sr_d, sr_a, sr_b, sr_low, sr_bit, sr_b_low, BitVec.getLsbD_ofBool, highBit_1_3, highBit_4_1, highBit_5_6, high_1_3, high_4_1, high_5_6, lowBit_1_3, lowBit_4_1, lowBit_5_6, low_1_3, low_4_1, low_5_6])

theorem fsqrt (d a : BitVec 5) (r : BitVec 3) (p : Bool) : Statement (.fsqrt d a r p) := by
  exact scalar (m := 0x1E#6) rfl rfl (sr_m ..) (by decide)
    (by rw [at1E _ (sr_m ..)]; simp [-BitVec.getLsbD_eq_getElem, decodeSfp, sr_d, sr_a, sr_b, sr_low, sr_bit, sr_b_low, BitVec.getLsbD_ofBool, highBit_1_3, highBit_4_1, highBit_5_6, high_1_3, high_4_1, high_5_6, lowBit_1_3, lowBit_4_1, lowBit_5_6, low_1_3, low_4_1, low_5_6])

theorem fma (d a b : BitVec 5) (r : BitVec 3) (p : Bool) : Statement (.fma d a b r p) := by
  exact scalar (m := 0x1E#6) rfl rfl (sr_m ..) (by decide)
    (by rw [at1E _ (sr_m ..)]; simp [-BitVec.getLsbD_eq_getElem, decodeSfp, sr_d, sr_a, sr_b, sr_low, sr_bit, sr_b_low, BitVec.getLsbD_ofBool, highBit_1_3, highBit_4_1, highBit_5_6, high_1_3, high_4_1, high_5_6, lowBit_1_3, lowBit_4_1, lowBit_5_6, low_1_3, low_4_1, low_5_6])

theorem fmin (d a b : BitVec 5) (p : Bool) : Statement (.fmin d a b p) := by
  exact scalar (m := 0x1E#6) rfl rfl (sr_m ..) (by decide)
    (by rw [at1E _ (sr_m ..)]; simp [-BitVec.getLsbD_eq_getElem, decodeSfp, sr_d, sr_a, sr_b, sr_low, sr_bit, sr_b_low, BitVec.getLsbD_ofBool, highBit_1_3, highBit_4_1, highBit_5_6, high_1_3, high_4_1, high_5_6, lowBit_1_3, lowBit_4_1, lowBit_5_6, low_1_3, low_4_1, low_5_6])

theorem fmax (d a b : BitVec 5) (p : Bool) : Statement (.fmax d a b p) := by
  exact scalar (m := 0x1E#6) rfl rfl (sr_m ..) (by decide)
    (by rw [at1E _ (sr_m ..)]; simp [-BitVec.getLsbD_eq_getElem, decodeSfp, sr_d, sr_a, sr_b, sr_low, sr_bit, sr_b_low, BitVec.getLsbD_ofBool, highBit_1_3, highBit_4_1, highBit_5_6, high_1_3, high_4_1, high_5_6, lowBit_1_3, lowBit_4_1, lowBit_5_6, low_1_3, low_4_1, low_5_6])

theorem feq (d a b : BitVec 5) (p : Bool) : Statement (.feq d a b p) := by
  exact scalar (m := 0x1E#6) rfl rfl (sr_m ..) (by decide)
    (by rw [at1E _ (sr_m ..)]; simp [-BitVec.getLsbD_eq_getElem, decodeSfp, sr_d, sr_a, sr_b, sr_low, sr_bit, sr_b_low, BitVec.getLsbD_ofBool, highBit_1_3, highBit_4_1, highBit_5_6, high_1_3, high_4_1, high_5_6, lowBit_1_3, lowBit_4_1, lowBit_5_6, low_1_3, low_4_1, low_5_6])

theorem flt (d a b : BitVec 5) (p : Bool) : Statement (.flt d a b p) := by
  exact scalar (m := 0x1E#6) rfl rfl (sr_m ..) (by decide)
    (by rw [at1E _ (sr_m ..)]; simp [-BitVec.getLsbD_eq_getElem, decodeSfp, sr_d, sr_a, sr_b, sr_low, sr_bit, sr_b_low, BitVec.getLsbD_ofBool, highBit_1_3, highBit_4_1, highBit_5_6, high_1_3, high_4_1, high_5_6, lowBit_1_3, lowBit_4_1, lowBit_5_6, low_1_3, low_4_1, low_5_6])

theorem fle (d a b : BitVec 5) (p : Bool) : Statement (.fle d a b p) := by
  exact scalar (m := 0x1E#6) rfl rfl (sr_m ..) (by decide)
    (by rw [at1E _ (sr_m ..)]; simp [-BitVec.getLsbD_eq_getElem, decodeSfp, sr_d, sr_a, sr_b, sr_low, sr_bit, sr_b_low, BitVec.getLsbD_ofBool, highBit_1_3, highBit_4_1, highBit_5_6, high_1_3, high_4_1, high_5_6, lowBit_1_3, lowBit_4_1, lowBit_5_6, low_1_3, low_4_1, low_5_6])

theorem fclass (d a : BitVec 5) (p : Bool) : Statement (.fclass d a p) := by
  exact scalar (m := 0x1E#6) rfl rfl (sr_m ..) (by decide)
    (by rw [at1E _ (sr_m ..)]; simp [-BitVec.getLsbD_eq_getElem, decodeSfp, sr_d, sr_a, sr_b, sr_low, sr_bit, sr_b_low, BitVec.getLsbD_ofBool, highBit_1_3, highBit_4_1, highBit_5_6, high_1_3, high_4_1, high_5_6, lowBit_1_3, lowBit_4_1, lowBit_5_6, low_1_3, low_4_1, low_5_6])

theorem fcvtff (d a : BitVec 5) (r : BitVec 3) (p : Bool) : Statement (.fcvtff d a r p) := by
  exact scalar (m := 0x1E#6) rfl rfl (sr_m ..) (by decide)
    (by rw [at1E _ (sr_m ..)]; simp [-BitVec.getLsbD_eq_getElem, decodeSfp, sr_d, sr_a, sr_b, sr_low, sr_bit, sr_b_low, BitVec.getLsbD_ofBool, highBit_1_3, highBit_4_1, highBit_5_6, high_1_3, high_4_1, high_5_6, lowBit_1_3, lowBit_4_1, lowBit_5_6, low_1_3, low_4_1, low_5_6])

theorem fcvti (d a : BitVec 5) (r : BitVec 3) (p : Bool) : Statement (.fcvti d a r p) := by
  exact scalar (m := 0x1E#6) rfl rfl (sr_m ..) (by decide)
    (by rw [at1E _ (sr_m ..)]; simp [-BitVec.getLsbD_eq_getElem, decodeSfp, sr_d, sr_a, sr_b, sr_low, sr_bit, sr_b_low, BitVec.getLsbD_ofBool, highBit_1_3, highBit_4_1, highBit_5_6, high_1_3, high_4_1, high_5_6, lowBit_1_3, lowBit_4_1, lowBit_5_6, low_1_3, low_4_1, low_5_6])

theorem fcvtn (d a : BitVec 5) (r : BitVec 3) (p : Bool) : Statement (.fcvtn d a r p) := by
  exact scalar (m := 0x1E#6) rfl rfl (sr_m ..) (by decide)
    (by rw [at1E _ (sr_m ..)]; simp [-BitVec.getLsbD_eq_getElem, decodeSfp, sr_d, sr_a, sr_b, sr_low, sr_bit, sr_b_low, BitVec.getLsbD_ofBool, highBit_1_3, highBit_4_1, highBit_5_6, high_1_3, high_4_1, high_5_6, lowBit_1_3, lowBit_4_1, lowBit_5_6, low_1_3, low_4_1, low_5_6])

theorem fcvtw (d a : BitVec 5) (r : BitVec 3) (p : Bool) : Statement (.fcvtw d a r p) := by
  exact scalar (m := 0x1E#6) rfl rfl (sr_m ..) (by decide)
    (by rw [at1E _ (sr_m ..)]; simp [-BitVec.getLsbD_eq_getElem, decodeSfp, sr_d, sr_a, sr_b, sr_low, sr_bit, sr_b_low, BitVec.getLsbD_ofBool, highBit_1_3, highBit_4_1, highBit_5_6, high_1_3, high_4_1, high_5_6, lowBit_1_3, lowBit_4_1, lowBit_5_6, low_1_3, low_4_1, low_5_6])

theorem fcvtwn (d a : BitVec 5) (r : BitVec 3) (p : Bool) : Statement (.fcvtwn d a r p) := by
  exact scalar (m := 0x1E#6) rfl rfl (sr_m ..) (by decide)
    (by rw [at1E _ (sr_m ..)]; simp [-BitVec.getLsbD_eq_getElem, decodeSfp, sr_d, sr_a, sr_b, sr_low, sr_bit, sr_b_low, BitVec.getLsbD_ofBool, highBit_1_3, highBit_4_1, highBit_5_6, high_1_3, high_4_1, high_5_6, lowBit_1_3, lowBit_4_1, lowBit_5_6, low_1_3, low_4_1, low_5_6])

theorem fcvtif (d a : BitVec 5) (r : BitVec 3) (p : Bool) : Statement (.fcvtif d a r p) := by
  exact scalar (m := 0x1E#6) rfl rfl (sr_m ..) (by decide)
    (by rw [at1E _ (sr_m ..)]; simp [-BitVec.getLsbD_eq_getElem, decodeSfp, sr_d, sr_a, sr_b, sr_low, sr_bit, sr_b_low, BitVec.getLsbD_ofBool, highBit_1_3, highBit_4_1, highBit_5_6, high_1_3, high_4_1, high_5_6, lowBit_1_3, lowBit_4_1, lowBit_5_6, low_1_3, low_4_1, low_5_6])

theorem fcvtnf (d a : BitVec 5) (r : BitVec 3) (p : Bool) : Statement (.fcvtnf d a r p) := by
  exact scalar (m := 0x1E#6) rfl rfl (sr_m ..) (by decide)
    (by rw [at1E _ (sr_m ..)]; simp [-BitVec.getLsbD_eq_getElem, decodeSfp, sr_d, sr_a, sr_b, sr_low, sr_bit, sr_b_low, BitVec.getLsbD_ofBool, highBit_1_3, highBit_4_1, highBit_5_6, high_1_3, high_4_1, high_5_6, lowBit_1_3, lowBit_4_1, lowBit_5_6, low_1_3, low_4_1, low_5_6])

theorem fsgn (d a b : BitVec 5) (p : Bool) : Statement (.fsgn d a b p) := by
  exact scalar (m := 0x1E#6) rfl rfl (sr_m ..) (by decide)
    (by rw [at1E _ (sr_m ..)]; simp [-BitVec.getLsbD_eq_getElem, decodeSfp, sr_d, sr_a, sr_b, sr_low, sr_bit, sr_b_low, BitVec.getLsbD_ofBool, highBit_1_3, highBit_4_1, highBit_5_6, high_1_3, high_4_1, high_5_6, lowBit_1_3, lowBit_4_1, lowBit_5_6, low_1_3, low_4_1, low_5_6])

theorem fsgnn (d a b : BitVec 5) (p : Bool) : Statement (.fsgnn d a b p) := by
  exact scalar (m := 0x1E#6) rfl rfl (sr_m ..) (by decide)
    (by rw [at1E _ (sr_m ..)]; simp [-BitVec.getLsbD_eq_getElem, decodeSfp, sr_d, sr_a, sr_b, sr_low, sr_bit, sr_b_low, BitVec.getLsbD_ofBool, highBit_1_3, highBit_4_1, highBit_5_6, high_1_3, high_4_1, high_5_6, lowBit_1_3, lowBit_4_1, lowBit_5_6, low_1_3, low_4_1, low_5_6])

theorem fsgnx (d a b : BitVec 5) (p : Bool) : Statement (.fsgnx d a b p) := by
  exact scalar (m := 0x1E#6) rfl rfl (sr_m ..) (by decide)
    (by rw [at1E _ (sr_m ..)]; simp [-BitVec.getLsbD_eq_getElem, decodeSfp, sr_d, sr_a, sr_b, sr_low, sr_bit, sr_b_low, BitVec.getLsbD_ofBool, highBit_1_3, highBit_4_1, highBit_5_6, high_1_3, high_4_1, high_5_6, lowBit_1_3, lowBit_4_1, lowBit_5_6, low_1_3, low_4_1, low_5_6])

theorem amoadd (d a b : BitVec 5) (s : BitVec 3) (q l w : Bool) : Statement (.amoadd d a b s q l w) := by
  exact scalar (m := 0x1F#6) rfl rfl (sr_m ..) (by decide)
    (by rw [at1F _ (sr_m ..)]; simp [-BitVec.getLsbD_eq_getElem, decodeAtom, sr_d, sr_a, sr_b, sr_low, sr_bit, sr_b_low, BitVec.getLsbD_ofBool, highBit_3_1, highBit_3_2, highBit_4_1, highBit_5_1, highBit_5_6, highBit_6_5, high_3_1, high_3_2, high_4_1, high_5_1, high_5_6, high_6_5, lowBit_3_1, lowBit_3_2, lowBit_4_1, lowBit_5_1, lowBit_5_6, lowBit_6_5, low_3_1, low_3_2, low_4_1, low_5_1, low_5_6, low_6_5])

theorem amoand (d a b : BitVec 5) (s : BitVec 3) (q l w : Bool) : Statement (.amoand d a b s q l w) := by
  exact scalar (m := 0x1F#6) rfl rfl (sr_m ..) (by decide)
    (by rw [at1F _ (sr_m ..)]; simp [-BitVec.getLsbD_eq_getElem, decodeAtom, sr_d, sr_a, sr_b, sr_low, sr_bit, sr_b_low, BitVec.getLsbD_ofBool, highBit_3_1, highBit_3_2, highBit_4_1, highBit_5_1, highBit_5_6, highBit_6_5, high_3_1, high_3_2, high_4_1, high_5_1, high_5_6, high_6_5, lowBit_3_1, lowBit_3_2, lowBit_4_1, lowBit_5_1, lowBit_5_6, lowBit_6_5, low_3_1, low_3_2, low_4_1, low_5_1, low_5_6, low_6_5])

theorem amoor (d a b : BitVec 5) (s : BitVec 3) (q l w : Bool) : Statement (.amoor d a b s q l w) := by
  exact scalar (m := 0x1F#6) rfl rfl (sr_m ..) (by decide)
    (by rw [at1F _ (sr_m ..)]; simp [-BitVec.getLsbD_eq_getElem, decodeAtom, sr_d, sr_a, sr_b, sr_low, sr_bit, sr_b_low, BitVec.getLsbD_ofBool, highBit_3_1, highBit_3_2, highBit_4_1, highBit_5_1, highBit_5_6, highBit_6_5, high_3_1, high_3_2, high_4_1, high_5_1, high_5_6, high_6_5, lowBit_3_1, lowBit_3_2, lowBit_4_1, lowBit_5_1, lowBit_5_6, lowBit_6_5, low_3_1, low_3_2, low_4_1, low_5_1, low_5_6, low_6_5])

theorem amoxor (d a b : BitVec 5) (s : BitVec 3) (q l w : Bool) : Statement (.amoxor d a b s q l w) := by
  exact scalar (m := 0x1F#6) rfl rfl (sr_m ..) (by decide)
    (by rw [at1F _ (sr_m ..)]; simp [-BitVec.getLsbD_eq_getElem, decodeAtom, sr_d, sr_a, sr_b, sr_low, sr_bit, sr_b_low, BitVec.getLsbD_ofBool, highBit_3_1, highBit_3_2, highBit_4_1, highBit_5_1, highBit_5_6, highBit_6_5, high_3_1, high_3_2, high_4_1, high_5_1, high_5_6, high_6_5, lowBit_3_1, lowBit_3_2, lowBit_4_1, lowBit_5_1, lowBit_5_6, lowBit_6_5, low_3_1, low_3_2, low_4_1, low_5_1, low_5_6, low_6_5])

theorem amomin (d a b : BitVec 5) (s : BitVec 3) (q l w : Bool) : Statement (.amomin d a b s q l w) := by
  exact scalar (m := 0x1F#6) rfl rfl (sr_m ..) (by decide)
    (by rw [at1F _ (sr_m ..)]; simp [-BitVec.getLsbD_eq_getElem, decodeAtom, sr_d, sr_a, sr_b, sr_low, sr_bit, sr_b_low, BitVec.getLsbD_ofBool, highBit_3_1, highBit_3_2, highBit_4_1, highBit_5_1, highBit_5_6, highBit_6_5, high_3_1, high_3_2, high_4_1, high_5_1, high_5_6, high_6_5, lowBit_3_1, lowBit_3_2, lowBit_4_1, lowBit_5_1, lowBit_5_6, lowBit_6_5, low_3_1, low_3_2, low_4_1, low_5_1, low_5_6, low_6_5])

theorem amomax (d a b : BitVec 5) (s : BitVec 3) (q l w : Bool) : Statement (.amomax d a b s q l w) := by
  exact scalar (m := 0x1F#6) rfl rfl (sr_m ..) (by decide)
    (by rw [at1F _ (sr_m ..)]; simp [-BitVec.getLsbD_eq_getElem, decodeAtom, sr_d, sr_a, sr_b, sr_low, sr_bit, sr_b_low, BitVec.getLsbD_ofBool, highBit_3_1, highBit_3_2, highBit_4_1, highBit_5_1, highBit_5_6, highBit_6_5, high_3_1, high_3_2, high_4_1, high_5_1, high_5_6, high_6_5, lowBit_3_1, lowBit_3_2, lowBit_4_1, lowBit_5_1, lowBit_5_6, lowBit_6_5, low_3_1, low_3_2, low_4_1, low_5_1, low_5_6, low_6_5])

theorem amominn (d a b : BitVec 5) (s : BitVec 3) (q l w : Bool) : Statement (.amominn d a b s q l w) := by
  exact scalar (m := 0x1F#6) rfl rfl (sr_m ..) (by decide)
    (by rw [at1F _ (sr_m ..)]; simp [-BitVec.getLsbD_eq_getElem, decodeAtom, sr_d, sr_a, sr_b, sr_low, sr_bit, sr_b_low, BitVec.getLsbD_ofBool, highBit_3_1, highBit_3_2, highBit_4_1, highBit_5_1, highBit_5_6, highBit_6_5, high_3_1, high_3_2, high_4_1, high_5_1, high_5_6, high_6_5, lowBit_3_1, lowBit_3_2, lowBit_4_1, lowBit_5_1, lowBit_5_6, lowBit_6_5, low_3_1, low_3_2, low_4_1, low_5_1, low_5_6, low_6_5])

theorem amomaxn (d a b : BitVec 5) (s : BitVec 3) (q l w : Bool) : Statement (.amomaxn d a b s q l w) := by
  exact scalar (m := 0x1F#6) rfl rfl (sr_m ..) (by decide)
    (by rw [at1F _ (sr_m ..)]; simp [-BitVec.getLsbD_eq_getElem, decodeAtom, sr_d, sr_a, sr_b, sr_low, sr_bit, sr_b_low, BitVec.getLsbD_ofBool, highBit_3_1, highBit_3_2, highBit_4_1, highBit_5_1, highBit_5_6, highBit_6_5, high_3_1, high_3_2, high_4_1, high_5_1, high_5_6, high_6_5, lowBit_3_1, lowBit_3_2, lowBit_4_1, lowBit_5_1, lowBit_5_6, lowBit_6_5, low_3_1, low_3_2, low_4_1, low_5_1, low_5_6, low_6_5])

theorem amoswp (d a b : BitVec 5) (s : BitVec 3) (q l w : Bool) : Statement (.amoswp d a b s q l w) := by
  exact scalar (m := 0x1F#6) rfl rfl (sr_m ..) (by decide)
    (by rw [at1F _ (sr_m ..)]; simp [-BitVec.getLsbD_eq_getElem, decodeAtom, sr_d, sr_a, sr_b, sr_low, sr_bit, sr_b_low, BitVec.getLsbD_ofBool, highBit_3_1, highBit_3_2, highBit_4_1, highBit_5_1, highBit_5_6, highBit_6_5, high_3_1, high_3_2, high_4_1, high_5_1, high_5_6, high_6_5, lowBit_3_1, lowBit_3_2, lowBit_4_1, lowBit_5_1, lowBit_5_6, lowBit_6_5, low_3_1, low_3_2, low_4_1, low_5_1, low_5_6, low_6_5])

theorem amofadd (d a b : BitVec 5) (s : BitVec 3) (q l w : Bool) : Statement (.amofadd d a b s q l w) := by
  exact scalar (m := 0x1F#6) rfl rfl (sr_m ..) (by decide)
    (by rw [at1F _ (sr_m ..)]; simp [-BitVec.getLsbD_eq_getElem, decodeAtom, sr_d, sr_a, sr_b, sr_low, sr_bit, sr_b_low, BitVec.getLsbD_ofBool, highBit_3_1, highBit_3_2, highBit_4_1, highBit_5_1, highBit_5_6, highBit_6_5, high_3_1, high_3_2, high_4_1, high_5_1, high_5_6, high_6_5, lowBit_3_1, lowBit_3_2, lowBit_4_1, lowBit_5_1, lowBit_5_6, lowBit_6_5, low_3_1, low_3_2, low_4_1, low_5_1, low_5_6, low_6_5])

theorem cas (d a b : BitVec 5) (s : BitVec 3) (q l w : Bool) : Statement (.cas d a b s q l w) := by
  exact scalar (m := 0x1F#6) rfl rfl (sr_m ..) (by decide)
    (by rw [at1F _ (sr_m ..)]; simp [-BitVec.getLsbD_eq_getElem, decodeAtom, sr_d, sr_a, sr_b, sr_low, sr_bit, sr_b_low, BitVec.getLsbD_ofBool, highBit_3_1, highBit_3_2, highBit_4_1, highBit_5_1, highBit_5_6, highBit_6_5, high_3_1, high_3_2, high_4_1, high_5_1, high_5_6, high_6_5, lowBit_3_1, lowBit_3_2, lowBit_4_1, lowBit_5_1, lowBit_5_6, lowBit_6_5, low_3_1, low_3_2, low_4_1, low_5_1, low_5_6, low_6_5])

theorem cas2 (d a b : BitVec 5) (s : BitVec 3) (q l : Bool) : Statement (.cas2 d a b s q l) := by
  exact scalar (m := 0x1F#6) rfl rfl (sr_m ..) (by decide)
    (by rw [at1F _ (sr_m ..)]; simp [-BitVec.getLsbD_eq_getElem, decodeAtom, sr_d, sr_a, sr_b, sr_low, sr_bit, sr_b_low, BitVec.getLsbD_ofBool, highBit_3_1, highBit_3_2, highBit_4_1, highBit_5_1, highBit_5_6, highBit_6_5, high_3_1, high_3_2, high_4_1, high_5_1, high_5_6, high_6_5, lowBit_3_1, lowBit_3_2, lowBit_4_1, lowBit_5_1, lowBit_5_6, lowBit_6_5, low_3_1, low_3_2, low_4_1, low_5_1, low_5_6, low_6_5])

theorem lda (d a : BitVec 5) (s : BitVec 3) (w : Bool) : Statement (.lda d a s w) := by
  exact scalar (m := 0x1F#6) rfl rfl (sr_m ..) (by decide)
    (by rw [at1F _ (sr_m ..)]; simp [-BitVec.getLsbD_eq_getElem, decodeAtom, sr_d, sr_a, sr_b, sr_low, sr_bit, sr_b_low, BitVec.getLsbD_ofBool, highBit_3_1, highBit_3_2, highBit_4_1, highBit_5_1, highBit_5_6, highBit_6_5, high_3_1, high_3_2, high_4_1, high_5_1, high_5_6, high_6_5, lowBit_3_1, lowBit_3_2, lowBit_4_1, lowBit_5_1, lowBit_5_6, lowBit_6_5, low_3_1, low_3_2, low_4_1, low_5_1, low_5_6, low_6_5])

theorem strel (d a : BitVec 5) (s : BitVec 3) (w : Bool) : Statement (.strel d a s w) := by
  exact scalar (m := 0x1F#6) rfl rfl (sr_m ..) (by decide)
    (by rw [at1F _ (sr_m ..)]; simp [-BitVec.getLsbD_eq_getElem, decodeAtom, sr_d, sr_a, sr_b, sr_low, sr_bit, sr_b_low, BitVec.getLsbD_ofBool, highBit_3_1, highBit_3_2, highBit_4_1, highBit_5_1, highBit_5_6, highBit_6_5, high_3_1, high_3_2, high_4_1, high_5_1, high_5_6, high_6_5, lowBit_3_1, lowBit_3_2, lowBit_4_1, lowBit_5_1, lowBit_5_6, lowBit_6_5, low_3_1, low_3_2, low_4_1, low_5_1, low_5_6, low_6_5])

theorem fence (s : BitVec 3) (q l : Bool) : Statement (.fence s q l) := by
  exact scalar (m := 0x1F#6) rfl rfl (sr_m ..) (by decide)
    (by rw [at1F _ (sr_m ..)]; simp [-BitVec.getLsbD_eq_getElem, decodeAtom, sr_d, sr_a, sr_b, sr_low, sr_bit, sr_b_low, BitVec.getLsbD_ofBool, highBit_3_1, highBit_3_2, highBit_4_1, highBit_5_1, highBit_5_6, highBit_6_5, high_3_1, high_3_2, high_4_1, high_5_1, high_5_6, high_6_5, lowBit_3_1, lowBit_3_2, lowBit_4_1, lowBit_5_1, lowBit_5_6, lowBit_6_5, low_3_1, low_3_2, low_4_1, low_5_1, low_5_6, low_6_5])

theorem vdrain (k s : BitVec 3) (q l : Bool) : Statement (.vdrain k s q l) := by
  exact scalar (m := 0x1F#6) rfl rfl (sr_m ..) (by decide)
    (by rw [at1F _ (sr_m ..)]; simp [-BitVec.getLsbD_eq_getElem, decodeAtom, sr_d, sr_a, sr_b, sr_low, sr_bit, sr_b_low, BitVec.getLsbD_ofBool, highBit_3_1, highBit_3_2, highBit_4_1, highBit_5_1, highBit_5_6, highBit_6_5, high_3_1, high_3_2, high_4_1, high_5_1, high_5_6, high_6_5, lowBit_3_1, lowBit_3_2, lowBit_4_1, lowBit_5_1, lowBit_5_6, lowBit_6_5, low_3_1, low_3_2, low_4_1, low_5_1, low_5_6, low_6_5, widened_1, widened_2, widened_3, widened_4])

theorem barinit (a b : BitVec 5) (s : BitVec 3) : Statement (.barinit a b s) := by
  exact scalar (m := 0x20#6) rfl rfl (sr_m ..) (by decide)
    (by rw [at20 _ (sr_m ..)]; simp [-BitVec.getLsbD_eq_getElem, decodeSync, sr_d, sr_a, sr_b, sr_low, sr_bit, sr_b_low, highBit_2_3, highBit_3_2, highBit_5_6, high_2_3, high_3_2, high_5_6, lowBit_2_3, lowBit_3_2, lowBit_5_6, low_2_3, low_3_2, low_5_6])

theorem barjoin (a : BitVec 5) : Statement (.barjoin a) := by
  exact scalar (m := 0x20#6) rfl rfl (sr_m ..) (by decide)
    (by rw [at20 _ (sr_m ..)]; simp [-BitVec.getLsbD_eq_getElem, decodeSync, sr_d, sr_a, sr_b, sr_low, sr_bit, sr_b_low])

theorem barleave (a : BitVec 5) : Statement (.barleave a) := by
  exact scalar (m := 0x20#6) rfl rfl (sr_m ..) (by decide)
    (by rw [at20 _ (sr_m ..)]; simp [-BitVec.getLsbD_eq_getElem, decodeSync, sr_d, sr_a, sr_b, sr_low, sr_bit, sr_b_low])

theorem bararr (d a : BitVec 5) : Statement (.bararr d a) := by
  exact scalar (m := 0x20#6) rfl rfl (sr_m ..) (by decide)
    (by rw [at20 _ (sr_m ..)]; simp [-BitVec.getLsbD_eq_getElem, decodeSync, sr_d, sr_a, sr_b, sr_low, sr_bit, sr_b_low])

theorem barwait (d a b : BitVec 5) : Statement (.barwait d a b) := by
  exact scalar (m := 0x20#6) rfl rfl (sr_m ..) (by decide)
    (by rw [at20 _ (sr_m ..)]; simp [-BitVec.getLsbD_eq_getElem, decodeSync, sr_d, sr_a, sr_b, sr_low, sr_bit, sr_b_low])

theorem barsyn (d a : BitVec 5) : Statement (.barsyn d a) := by
  exact scalar (m := 0x20#6) rfl rfl (sr_m ..) (by decide)
    (by rw [at20 _ (sr_m ..)]; simp [-BitVec.getLsbD_eq_getElem, decodeSync, sr_d, sr_a, sr_b, sr_low, sr_bit, sr_b_low])

theorem kwait (k : BitVec 3) : Statement (.kwait k) := by
  exact scalar (m := 0x20#6) rfl rfl (sr_m ..) (by decide)
    (by rw [at20 _ (sr_m ..)]; simp [-BitVec.getLsbD_eq_getElem, decodeSync, sr_d, sr_a, sr_b, sr_low, sr_bit, sr_b_low, widened_1, widened_2, widened_3, widened_4])

theorem krd (d : BitVec 5) (k : BitVec 3) : Statement (.krd d k) := by
  exact scalar (m := 0x20#6) rfl rfl (sr_m ..) (by decide)
    (by rw [at20 _ (sr_m ..)]; simp [-BitVec.getLsbD_eq_getElem, decodeSync, sr_d, sr_a, sr_b, sr_low, sr_bit, sr_b_low, widened_1, widened_2, widened_3, widened_4])

theorem kset (d a : BitVec 5) (k : BitVec 3) : Statement (.kset d a k) := by
  exact scalar (m := 0x20#6) rfl rfl (sr_m ..) (by decide)
    (by rw [at20 _ (sr_m ..)]; simp [-BitVec.getLsbD_eq_getElem, decodeSync, sr_d, sr_a, sr_b, sr_low, sr_bit, sr_b_low, widened_1, widened_2, widened_3, widened_4])

theorem kstat (d : BitVec 5) (k : BitVec 3) : Statement (.kstat d k) := by
  exact scalar (m := 0x20#6) rfl rfl (sr_m ..) (by decide)
    (by rw [at20 _ (sr_m ..)]; simp [-BitVec.getLsbD_eq_getElem, decodeSync, sr_d, sr_a, sr_b, sr_low, sr_bit, sr_b_low, widened_1, widened_2, widened_3, widened_4])

theorem pause : Statement .pause := by
  exact scalar (m := 0x20#6) rfl rfl (sr_m ..) (by decide)
    (by rw [at20 _ (sr_m ..)]; simp [-BitVec.getLsbD_eq_getElem, decodeSync, sr_d, sr_a, sr_b, sr_low, sr_bit, sr_b_low])

theorem yield : Statement .yield := by
  exact scalar (m := 0x20#6) rfl rfl (sr_m ..) (by decide)
    (by rw [at20 _ (sr_m ..)]; simp [-BitVec.getLsbD_eq_getElem, decodeSync, sr_d, sr_a, sr_b, sr_low, sr_bit, sr_b_low])

theorem watch (d a b : BitVec 5) : Statement (.watch d a b) := by
  exact scalar (m := 0x20#6) rfl rfl (sr_m ..) (by decide)
    (by rw [at20 _ (sr_m ..)]; simp [-BitVec.getLsbD_eq_getElem, decodeSync, sr_d, sr_a, sr_b, sr_low, sr_bit, sr_b_low])

theorem unwatch (d a : BitVec 5) : Statement (.unwatch d a) := by
  exact scalar (m := 0x20#6) rfl rfl (sr_m ..) (by decide)
    (by rw [at20 _ (sr_m ..)]; simp [-BitVec.getLsbD_eq_getElem, decodeSync, sr_d, sr_a, sr_b, sr_low, sr_bit, sr_b_low])

theorem vwarm (d a b : BitVec 5) (m : BitVec 3) : Statement (.vwarm d a b m) := by
  exact scalar (m := 0x20#6) rfl rfl (sr_m ..) (by decide)
    (by rw [at20 _ (sr_m ..)]; simp [-BitVec.getLsbD_eq_getElem, decodeSync, sr_d, sr_a, sr_b, sr_low, sr_bit, sr_b_low, highBit_2_3, highBit_3_2, highBit_5_6, high_2_3, high_3_2, high_5_6, lowBit_2_3, lowBit_3_2, lowBit_5_6, low_2_3, low_3_2, low_5_6])

theorem waitany (d a b : BitVec 5) : Statement (.waitany d a b) := by
  exact scalar (m := 0x20#6) rfl rfl (sr_m ..) (by decide)
    (by rw [at20 _ (sr_m ..)]; simp [-BitVec.getLsbD_eq_getElem, decodeSync, sr_d, sr_a, sr_b, sr_low, sr_bit, sr_b_low])

theorem phase (d : BitVec 5) : Statement (.phase d) := by
  exact scalar (m := 0x20#6) rfl rfl (sr_m ..) (by decide)
    (by rw [at20 _ (sr_m ..)]; simp [-BitVec.getLsbD_eq_getElem, decodeSync, sr_d, sr_a, sr_b, sr_low, sr_bit, sr_b_low])

theorem launch (d a b : BitVec 5) (s : BitVec 3) : Statement (.launch d a b s) := by
  exact scalar (m := 0x20#6) rfl rfl (sr_m ..) (by decide)
    (by rw [at20 _ (sr_m ..)]; simp [-BitVec.getLsbD_eq_getElem, decodeSync, sr_d, sr_a, sr_b, sr_low, sr_bit, sr_b_low, highBit_2_3, highBit_3_2, highBit_5_6, high_2_3, high_3_2, high_5_6, lowBit_2_3, lowBit_3_2, lowBit_5_6, low_2_3, low_3_2, low_5_6])

theorem cancel (d a : BitVec 5) (n : BitVec 2) : Statement (.cancel d a n) := by
  exact scalar (m := 0x20#6) rfl rfl (sr_m ..) (by decide)
    (by rw [at20 _ (sr_m ..)]; simp [-BitVec.getLsbD_eq_getElem, decodeSync, sr_d, sr_a, sr_b, sr_low, sr_bit, sr_b_low, highBit_2_3, highBit_3_2, highBit_5_6, high_2_3, high_3_2, high_5_6, lowBit_2_3, lowBit_3_2, lowBit_5_6, low_2_3, low_3_2, low_5_6])

theorem exit (a : BitVec 5) (s : BitVec 3) : Statement (.exit a s) := by
  exact scalar (m := 0x20#6) rfl rfl (sr_m ..) (by decide)
    (by rw [at20 _ (sr_m ..)]; simp [-BitVec.getLsbD_eq_getElem, decodeSync, sr_d, sr_a, sr_b, sr_low, sr_bit, sr_b_low, highBit_2_3, highBit_3_2, highBit_5_6, high_2_3, high_3_2, high_5_6, lowBit_2_3, lowBit_3_2, lowBit_5_6, low_2_3, low_3_2, low_5_6])

theorem trap (n h : BitVec 5) : Statement (.trap n h) := by
  exact scalar (m := 0x21#6) rfl rfl (sr_m ..) (by decide)
    (by rw [at21 _ (sr_m ..)]; simp [-BitVec.getLsbD_eq_getElem, decodeSys, sr_d, sr_a, sr_b, sr_low, sr_bit, sr_b_low, highBit_5_6, high_5_6, lowBit_5_6, low_5_6])

theorem eret : Statement .eret := by
  exact scalar (m := 0x21#6) rfl rfl (sr_m ..) (by decide)
    (by rw [at21 _ (sr_m ..)]; simp [-BitVec.getLsbD_eq_getElem, decodeSys, sr_d, sr_a, sr_b, sr_low, sr_bit, sr_b_low])

theorem srd (d n h : BitVec 5) : Statement (.srd d n h) := by
  exact scalar (m := 0x21#6) rfl rfl (sr_m ..) (by decide)
    (by rw [at21 _ (sr_m ..)]; simp [-BitVec.getLsbD_eq_getElem, decodeSys, sr_d, sr_a, sr_b, sr_low, sr_bit, sr_b_low, highBit_5_6, high_5_6, lowBit_5_6, low_5_6])

theorem swr (d a n h : BitVec 5) : Statement (.swr d a n h) := by
  exact scalar (m := 0x21#6) rfl rfl (sr_m ..) (by decide)
    (by rw [at21 _ (sr_m ..)]; simp [-BitVec.getLsbD_eq_getElem, decodeSys, sr_d, sr_a, sr_b, sr_low, sr_bit, sr_b_low, highBit_5_6, high_5_6, lowBit_5_6, low_5_6])

theorem sset (d a n h : BitVec 5) : Statement (.sset d a n h) := by
  exact scalar (m := 0x21#6) rfl rfl (sr_m ..) (by decide)
    (by rw [at21 _ (sr_m ..)]; simp [-BitVec.getLsbD_eq_getElem, decodeSys, sr_d, sr_a, sr_b, sr_low, sr_bit, sr_b_low, highBit_5_6, high_5_6, lowBit_5_6, low_5_6])

theorem sclr (d a n h : BitVec 5) : Statement (.sclr d a n h) := by
  exact scalar (m := 0x21#6) rfl rfl (sr_m ..) (by decide)
    (by rw [at21 _ (sr_m ..)]; simp [-BitVec.getLsbD_eq_getElem, decodeSys, sr_d, sr_a, sr_b, sr_low, sr_bit, sr_b_low, highBit_5_6, high_5_6, lowBit_5_6, low_5_6])

theorem svc (n h : BitVec 5) : Statement (.svc n h) := by
  exact scalar (m := 0x21#6) rfl rfl (sr_m ..) (by decide)
    (by rw [at21 _ (sr_m ..)]; simp [-BitVec.getLsbD_eq_getElem, decodeSys, sr_d, sr_a, sr_b, sr_low, sr_bit, sr_b_low, highBit_5_6, high_5_6, lowBit_5_6, low_5_6])

theorem linewb (a : BitVec 5) : Statement (.linewb a) := by
  exact scalar (m := 0x21#6) rfl rfl (sr_m ..) (by decide)
    (by rw [at21 _ (sr_m ..)]; simp [-BitVec.getLsbD_eq_getElem, decodeSys, sr_d, sr_a, sr_b, sr_low, sr_bit, sr_b_low])

theorem lineinv (a : BitVec 5) : Statement (.lineinv a) := by
  exact scalar (m := 0x21#6) rfl rfl (sr_m ..) (by decide)
    (by rw [at21 _ (sr_m ..)]; simp [-BitVec.getLsbD_eq_getElem, decodeSys, sr_d, sr_a, sr_b, sr_low, sr_bit, sr_b_low])

theorem tlbsh (d a k : BitVec 5) : Statement (.tlbsh d a k) := by
  exact scalar (m := 0x21#6) rfl rfl (sr_m ..) (by decide)
    (by rw [at21 _ (sr_m ..)]; simp [-BitVec.getLsbD_eq_getElem, decodeSys, sr_d, sr_a, sr_b, sr_low, sr_bit, sr_b_low, highBit_5_6, high_5_6, lowBit_5_6, low_5_6])

theorem fencei : Statement .fencei := by
  exact scalar (m := 0x21#6) rfl rfl (sr_m ..) (by decide)
    (by rw [at21 _ (sr_m ..)]; simp [-BitVec.getLsbD_eq_getElem, decodeSys, sr_d, sr_a, sr_b, sr_low, sr_bit, sr_b_low])

theorem wfi : Statement .wfi := by
  exact scalar (m := 0x21#6) rfl rfl (sr_m ..) (by decide)
    (by rw [at21 _ (sr_m ..)]; simp [-BitVec.getLsbD_eq_getElem, decodeSys, sr_d, sr_a, sr_b, sr_low, sr_bit, sr_b_low])

theorem halt : Statement .halt := by
  exact scalar (m := 0x21#6) rfl rfl (sr_m ..) (by decide)
    (by rw [at21 _ (sr_m ..)]; simp [-BitVec.getLsbD_eq_getElem, decodeSys, sr_d, sr_a, sr_b, sr_low, sr_bit, sr_b_low])

theorem vclaim (p : Option Pfx) (d a b : BitVec 5) : Statement (.vclaim p d a b) := by
  exact vector (p := p) (m := 0x22#6) rfl rfl (vr_m ..) (by decide)
    (by rw [at22 _ (vr_m ..)]; simp [-BitVec.getLsbD_eq_getElem, decodeVctl, vr_d, vr_a, vr_b, vr_k, vr_f, vr_d_low, vr_a_low, vr_b_low, vr_x, vr_y])

theorem vrel (p : Option Pfx) : Statement (.vrel p) := by
  exact vector (p := p) (m := 0x22#6) rfl rfl (vr_m ..) (by decide)
    (by rw [at22 _ (vr_m ..)]; simp [-BitVec.getLsbD_eq_getElem, decodeVctl, vr_d, vr_a, vr_b, vr_k, vr_f, vr_d_low, vr_a_low, vr_b_low, vr_x, vr_y])

theorem setvl (p : Option Pfx) (d a : BitVec 5) : Statement (.setvl p d a) := by
  exact vector (p := p) (m := 0x22#6) rfl rfl (vr_m ..) (by decide)
    (by rw [at22 _ (vr_m ..)]; simp [-BitVec.getLsbD_eq_getElem, decodeVctl, vr_d, vr_a, vr_b, vr_k, vr_f, vr_d_low, vr_a_low, vr_b_low, vr_x, vr_y])

theorem setvm (p : Option Pfx) (d a b : BitVec 5) : Statement (.setvm p d a b) := by
  exact vector (p := p) (m := 0x22#6) rfl rfl (vr_m ..) (by decide)
    (by rw [at22 _ (vr_m ..)]; simp [-BitVec.getLsbD_eq_getElem, decodeVctl, vr_d, vr_a, vr_b, vr_k, vr_f, vr_d_low, vr_a_low, vr_b_low, vr_x, vr_y])

theorem vspill (p : Option Pfx) (d a : BitVec 5) : Statement (.vspill p d a) := by
  exact vector (p := p) (m := 0x22#6) rfl rfl (vr_m ..) (by decide)
    (by rw [at22 _ (vr_m ..)]; simp [-BitVec.getLsbD_eq_getElem, decodeVctl, vr_d, vr_a, vr_b, vr_k, vr_f, vr_d_low, vr_a_low, vr_b_low, vr_x, vr_y])

theorem vfill (p : Option Pfx) (d a : BitVec 5) : Statement (.vfill p d a) := by
  exact vector (p := p) (m := 0x22#6) rfl rfl (vr_m ..) (by decide)
    (by rw [at22 _ (vr_m ..)]; simp [-BitVec.getLsbD_eq_getElem, decodeVctl, vr_d, vr_a, vr_b, vr_k, vr_f, vr_d_low, vr_a_low, vr_b_low, vr_x, vr_y])

theorem zspill (p : Option Pfx) (d : BitVec 2) (a : BitVec 5) : Statement (.zspill p d a) := by
  exact vector (p := p) (m := 0x22#6) rfl rfl (vr_m ..) (by decide)
    (by rw [at22 _ (vr_m ..)]; simp [-BitVec.getLsbD_eq_getElem, decodeVctl, vr_d, vr_a, vr_b, vr_k, vr_f, vr_d_low, vr_a_low, vr_b_low, vr_x, vr_y, widened_1, widened_2, widened_3, widened_4])

theorem zfill (p : Option Pfx) (d : BitVec 2) (a : BitVec 5) : Statement (.zfill p d a) := by
  exact vector (p := p) (m := 0x22#6) rfl rfl (vr_m ..) (by decide)
    (by rw [at22 _ (vr_m ..)]; simp [-BitVec.getLsbD_eq_getElem, decodeVctl, vr_d, vr_a, vr_b, vr_k, vr_f, vr_d_low, vr_a_low, vr_b_low, vr_x, vr_y, widened_1, widened_2, widened_3, widened_4])

theorem vadd (o : VOp3) : Statement (.vadd o) := by
  obtain ⟨p, d, a, b, x, y, k⟩ := o
  exact vector (p := p) (m := 0x23#6) rfl rfl (vr_m ..) (by decide)
    (by rw [at23 _ (vr_m ..)]; simp [-BitVec.getLsbD_eq_getElem, decodeVint, vop3, vop2, vcmpOp, vr_d, vr_a, vr_b, vr_k, vr_f, vr_d_low, vr_a_low, vr_b_low, vr_x, vr_y])

theorem vsub (o : VOp3) : Statement (.vsub o) := by
  obtain ⟨p, d, a, b, x, y, k⟩ := o
  exact vector (p := p) (m := 0x23#6) rfl rfl (vr_m ..) (by decide)
    (by rw [at23 _ (vr_m ..)]; simp [-BitVec.getLsbD_eq_getElem, decodeVint, vop3, vop2, vcmpOp, vr_d, vr_a, vr_b, vr_k, vr_f, vr_d_low, vr_a_low, vr_b_low, vr_x, vr_y])

theorem vrsub (o : VOp3) : Statement (.vrsub o) := by
  obtain ⟨p, d, a, b, x, y, k⟩ := o
  exact vector (p := p) (m := 0x23#6) rfl rfl (vr_m ..) (by decide)
    (by rw [at23 _ (vr_m ..)]; simp [-BitVec.getLsbD_eq_getElem, decodeVint, vop3, vop2, vcmpOp, vr_d, vr_a, vr_b, vr_k, vr_f, vr_d_low, vr_a_low, vr_b_low, vr_x, vr_y])

theorem vmul (o : VOp3) : Statement (.vmul o) := by
  obtain ⟨p, d, a, b, x, y, k⟩ := o
  exact vector (p := p) (m := 0x23#6) rfl rfl (vr_m ..) (by decide)
    (by rw [at23 _ (vr_m ..)]; simp [-BitVec.getLsbD_eq_getElem, decodeVint, vop3, vop2, vcmpOp, vr_d, vr_a, vr_b, vr_k, vr_f, vr_d_low, vr_a_low, vr_b_low, vr_x, vr_y])

theorem vmulh (o : VOp3) : Statement (.vmulh o) := by
  obtain ⟨p, d, a, b, x, y, k⟩ := o
  exact vector (p := p) (m := 0x23#6) rfl rfl (vr_m ..) (by decide)
    (by rw [at23 _ (vr_m ..)]; simp [-BitVec.getLsbD_eq_getElem, decodeVint, vop3, vop2, vcmpOp, vr_d, vr_a, vr_b, vr_k, vr_f, vr_d_low, vr_a_low, vr_b_low, vr_x, vr_y])

theorem vmulhn (o : VOp3) : Statement (.vmulhn o) := by
  obtain ⟨p, d, a, b, x, y, k⟩ := o
  exact vector (p := p) (m := 0x23#6) rfl rfl (vr_m ..) (by decide)
    (by rw [at23 _ (vr_m ..)]; simp [-BitVec.getLsbD_eq_getElem, decodeVint, vop3, vop2, vcmpOp, vr_d, vr_a, vr_b, vr_k, vr_f, vr_d_low, vr_a_low, vr_b_low, vr_x, vr_y])

theorem vdiv (o : VOp3) : Statement (.vdiv o) := by
  obtain ⟨p, d, a, b, x, y, k⟩ := o
  exact vector (p := p) (m := 0x23#6) rfl rfl (vr_m ..) (by decide)
    (by rw [at23 _ (vr_m ..)]; simp [-BitVec.getLsbD_eq_getElem, decodeVint, vop3, vop2, vcmpOp, vr_d, vr_a, vr_b, vr_k, vr_f, vr_d_low, vr_a_low, vr_b_low, vr_x, vr_y])

theorem vdivn (o : VOp3) : Statement (.vdivn o) := by
  obtain ⟨p, d, a, b, x, y, k⟩ := o
  exact vector (p := p) (m := 0x23#6) rfl rfl (vr_m ..) (by decide)
    (by rw [at23 _ (vr_m ..)]; simp [-BitVec.getLsbD_eq_getElem, decodeVint, vop3, vop2, vcmpOp, vr_d, vr_a, vr_b, vr_k, vr_f, vr_d_low, vr_a_low, vr_b_low, vr_x, vr_y])

theorem vrem (o : VOp3) : Statement (.vrem o) := by
  obtain ⟨p, d, a, b, x, y, k⟩ := o
  exact vector (p := p) (m := 0x23#6) rfl rfl (vr_m ..) (by decide)
    (by rw [at23 _ (vr_m ..)]; simp [-BitVec.getLsbD_eq_getElem, decodeVint, vop3, vop2, vcmpOp, vr_d, vr_a, vr_b, vr_k, vr_f, vr_d_low, vr_a_low, vr_b_low, vr_x, vr_y])

theorem vremn (o : VOp3) : Statement (.vremn o) := by
  obtain ⟨p, d, a, b, x, y, k⟩ := o
  exact vector (p := p) (m := 0x23#6) rfl rfl (vr_m ..) (by decide)
    (by rw [at23 _ (vr_m ..)]; simp [-BitVec.getLsbD_eq_getElem, decodeVint, vop3, vop2, vcmpOp, vr_d, vr_a, vr_b, vr_k, vr_f, vr_d_low, vr_a_low, vr_b_low, vr_x, vr_y])

theorem vmin (o : VOp3) : Statement (.vmin o) := by
  obtain ⟨p, d, a, b, x, y, k⟩ := o
  exact vector (p := p) (m := 0x23#6) rfl rfl (vr_m ..) (by decide)
    (by rw [at23 _ (vr_m ..)]; simp [-BitVec.getLsbD_eq_getElem, decodeVint, vop3, vop2, vcmpOp, vr_d, vr_a, vr_b, vr_k, vr_f, vr_d_low, vr_a_low, vr_b_low, vr_x, vr_y])

theorem vmax (o : VOp3) : Statement (.vmax o) := by
  obtain ⟨p, d, a, b, x, y, k⟩ := o
  exact vector (p := p) (m := 0x23#6) rfl rfl (vr_m ..) (by decide)
    (by rw [at23 _ (vr_m ..)]; simp [-BitVec.getLsbD_eq_getElem, decodeVint, vop3, vop2, vcmpOp, vr_d, vr_a, vr_b, vr_k, vr_f, vr_d_low, vr_a_low, vr_b_low, vr_x, vr_y])

theorem vminn (o : VOp3) : Statement (.vminn o) := by
  obtain ⟨p, d, a, b, x, y, k⟩ := o
  exact vector (p := p) (m := 0x23#6) rfl rfl (vr_m ..) (by decide)
    (by rw [at23 _ (vr_m ..)]; simp [-BitVec.getLsbD_eq_getElem, decodeVint, vop3, vop2, vcmpOp, vr_d, vr_a, vr_b, vr_k, vr_f, vr_d_low, vr_a_low, vr_b_low, vr_x, vr_y])

theorem vmaxn (o : VOp3) : Statement (.vmaxn o) := by
  obtain ⟨p, d, a, b, x, y, k⟩ := o
  exact vector (p := p) (m := 0x23#6) rfl rfl (vr_m ..) (by decide)
    (by rw [at23 _ (vr_m ..)]; simp [-BitVec.getLsbD_eq_getElem, decodeVint, vop3, vop2, vcmpOp, vr_d, vr_a, vr_b, vr_k, vr_f, vr_d_low, vr_a_low, vr_b_low, vr_x, vr_y])

theorem vand (o : VOp3) : Statement (.vand o) := by
  obtain ⟨p, d, a, b, x, y, k⟩ := o
  exact vector (p := p) (m := 0x23#6) rfl rfl (vr_m ..) (by decide)
    (by rw [at23 _ (vr_m ..)]; simp [-BitVec.getLsbD_eq_getElem, decodeVint, vop3, vop2, vcmpOp, vr_d, vr_a, vr_b, vr_k, vr_f, vr_d_low, vr_a_low, vr_b_low, vr_x, vr_y])

theorem vor (o : VOp3) : Statement (.vor o) := by
  obtain ⟨p, d, a, b, x, y, k⟩ := o
  exact vector (p := p) (m := 0x23#6) rfl rfl (vr_m ..) (by decide)
    (by rw [at23 _ (vr_m ..)]; simp [-BitVec.getLsbD_eq_getElem, decodeVint, vop3, vop2, vcmpOp, vr_d, vr_a, vr_b, vr_k, vr_f, vr_d_low, vr_a_low, vr_b_low, vr_x, vr_y])

theorem vxor (o : VOp3) : Statement (.vxor o) := by
  obtain ⟨p, d, a, b, x, y, k⟩ := o
  exact vector (p := p) (m := 0x23#6) rfl rfl (vr_m ..) (by decide)
    (by rw [at23 _ (vr_m ..)]; simp [-BitVec.getLsbD_eq_getElem, decodeVint, vop3, vop2, vcmpOp, vr_d, vr_a, vr_b, vr_k, vr_f, vr_d_low, vr_a_low, vr_b_low, vr_x, vr_y])

theorem vsll (o : VOp3) : Statement (.vsll o) := by
  obtain ⟨p, d, a, b, x, y, k⟩ := o
  exact vector (p := p) (m := 0x23#6) rfl rfl (vr_m ..) (by decide)
    (by rw [at23 _ (vr_m ..)]; simp [-BitVec.getLsbD_eq_getElem, decodeVint, vop3, vop2, vcmpOp, vr_d, vr_a, vr_b, vr_k, vr_f, vr_d_low, vr_a_low, vr_b_low, vr_x, vr_y])

theorem vsrl (o : VOp3) : Statement (.vsrl o) := by
  obtain ⟨p, d, a, b, x, y, k⟩ := o
  exact vector (p := p) (m := 0x23#6) rfl rfl (vr_m ..) (by decide)
    (by rw [at23 _ (vr_m ..)]; simp [-BitVec.getLsbD_eq_getElem, decodeVint, vop3, vop2, vcmpOp, vr_d, vr_a, vr_b, vr_k, vr_f, vr_d_low, vr_a_low, vr_b_low, vr_x, vr_y])

theorem vsra (o : VOp3) : Statement (.vsra o) := by
  obtain ⟨p, d, a, b, x, y, k⟩ := o
  exact vector (p := p) (m := 0x23#6) rfl rfl (vr_m ..) (by decide)
    (by rw [at23 _ (vr_m ..)]; simp [-BitVec.getLsbD_eq_getElem, decodeVint, vop3, vop2, vcmpOp, vr_d, vr_a, vr_b, vr_k, vr_f, vr_d_low, vr_a_low, vr_b_low, vr_x, vr_y])

theorem vcmpeq (o : VCmpOp) : Statement (.vcmpeq o) := by
  obtain ⟨p, d, a, b, x, y, k⟩ := o
  exact vector (p := p) (m := 0x23#6) rfl rfl (vr_m ..) (by decide)
    (by rw [at23 _ (vr_m ..)]; simp [-BitVec.getLsbD_eq_getElem, decodeVint, vop3, vop2, vcmpOp, vr_d, vr_a, vr_b, vr_k, vr_f, vr_d_low, vr_a_low, vr_b_low, vr_x, vr_y, widened_1, widened_2, widened_3, widened_4])

theorem vcmpne (o : VCmpOp) : Statement (.vcmpne o) := by
  obtain ⟨p, d, a, b, x, y, k⟩ := o
  exact vector (p := p) (m := 0x23#6) rfl rfl (vr_m ..) (by decide)
    (by rw [at23 _ (vr_m ..)]; simp [-BitVec.getLsbD_eq_getElem, decodeVint, vop3, vop2, vcmpOp, vr_d, vr_a, vr_b, vr_k, vr_f, vr_d_low, vr_a_low, vr_b_low, vr_x, vr_y, widened_1, widened_2, widened_3, widened_4])

theorem vcmplt (o : VCmpOp) : Statement (.vcmplt o) := by
  obtain ⟨p, d, a, b, x, y, k⟩ := o
  exact vector (p := p) (m := 0x23#6) rfl rfl (vr_m ..) (by decide)
    (by rw [at23 _ (vr_m ..)]; simp [-BitVec.getLsbD_eq_getElem, decodeVint, vop3, vop2, vcmpOp, vr_d, vr_a, vr_b, vr_k, vr_f, vr_d_low, vr_a_low, vr_b_low, vr_x, vr_y, widened_1, widened_2, widened_3, widened_4])

theorem vcmple (o : VCmpOp) : Statement (.vcmple o) := by
  obtain ⟨p, d, a, b, x, y, k⟩ := o
  exact vector (p := p) (m := 0x23#6) rfl rfl (vr_m ..) (by decide)
    (by rw [at23 _ (vr_m ..)]; simp [-BitVec.getLsbD_eq_getElem, decodeVint, vop3, vop2, vcmpOp, vr_d, vr_a, vr_b, vr_k, vr_f, vr_d_low, vr_a_low, vr_b_low, vr_x, vr_y, widened_1, widened_2, widened_3, widened_4])

theorem vcmpltn (o : VCmpOp) : Statement (.vcmpltn o) := by
  obtain ⟨p, d, a, b, x, y, k⟩ := o
  exact vector (p := p) (m := 0x23#6) rfl rfl (vr_m ..) (by decide)
    (by rw [at23 _ (vr_m ..)]; simp [-BitVec.getLsbD_eq_getElem, decodeVint, vop3, vop2, vcmpOp, vr_d, vr_a, vr_b, vr_k, vr_f, vr_d_low, vr_a_low, vr_b_low, vr_x, vr_y, widened_1, widened_2, widened_3, widened_4])

theorem vcmplen (o : VCmpOp) : Statement (.vcmplen o) := by
  obtain ⟨p, d, a, b, x, y, k⟩ := o
  exact vector (p := p) (m := 0x23#6) rfl rfl (vr_m ..) (by decide)
    (by rw [at23 _ (vr_m ..)]; simp [-BitVec.getLsbD_eq_getElem, decodeVint, vop3, vop2, vcmpOp, vr_d, vr_a, vr_b, vr_k, vr_f, vr_d_low, vr_a_low, vr_b_low, vr_x, vr_y, widened_1, widened_2, widened_3, widened_4])

theorem vmerge (o : VOp3) : Statement (.vmerge o) := by
  obtain ⟨p, d, a, b, x, y, k⟩ := o
  exact vector (p := p) (m := 0x23#6) rfl rfl (vr_m ..) (by decide)
    (by rw [at23 _ (vr_m ..)]; simp [-BitVec.getLsbD_eq_getElem, decodeVint, vop3, vop2, vcmpOp, vr_d, vr_a, vr_b, vr_k, vr_f, vr_d_low, vr_a_low, vr_b_low, vr_x, vr_y])

theorem vmv (o : VOp2) : Statement (.vmv o) := by
  obtain ⟨p, d, a, x, k⟩ := o
  exact vector (p := p) (m := 0x23#6) rfl rfl (vr_m ..) (by decide)
    (by rw [at23 _ (vr_m ..)]; simp [-BitVec.getLsbD_eq_getElem, decodeVint, vop3, vop2, vcmpOp, vr_d, vr_a, vr_b, vr_k, vr_f, vr_d_low, vr_a_low, vr_b_low, vr_x, vr_y])

theorem vbcast (p : Option Pfx) (d a : BitVec 5) (m : BitVec 3) : Statement (.vbcast p d a m) := by
  exact vector (p := p) (m := 0x23#6) rfl rfl (vr_m ..) (by decide)
    (by rw [at23 _ (vr_m ..)]; simp [-BitVec.getLsbD_eq_getElem, decodeVint, vop3, vop2, vcmpOp, vr_d, vr_a, vr_b, vr_k, vr_f, vr_d_low, vr_a_low, vr_b_low, vr_x, vr_y])

theorem vid (p : Option Pfx) (d : BitVec 5) (m : BitVec 3) : Statement (.vid p d m) := by
  exact vector (p := p) (m := 0x23#6) rfl rfl (vr_m ..) (by decide)
    (by rw [at23 _ (vr_m ..)]; simp [-BitVec.getLsbD_eq_getElem, decodeVint, vop3, vop2, vcmpOp, vr_d, vr_a, vr_b, vr_k, vr_f, vr_d_low, vr_a_low, vr_b_low, vr_x, vr_y])

theorem vext (p : Option Pfx) (d a b : BitVec 5) (x : Bool) : Statement (.vext p d a b x) := by
  exact vector (p := p) (m := 0x23#6) rfl rfl (vr_m ..) (by decide)
    (by rw [at23 _ (vr_m ..)]; simp [-BitVec.getLsbD_eq_getElem, decodeVint, vop3, vop2, vcmpOp, vr_d, vr_a, vr_b, vr_k, vr_f, vr_d_low, vr_a_low, vr_b_low, vr_x, vr_y])

theorem vins (p : Option Pfx) (d a b : BitVec 5) : Statement (.vins p d a b) := by
  exact vector (p := p) (m := 0x23#6) rfl rfl (vr_m ..) (by decide)
    (by rw [at23 _ (vr_m ..)]; simp [-BitVec.getLsbD_eq_getElem, decodeVint, vop3, vop2, vcmpOp, vr_d, vr_a, vr_b, vr_k, vr_f, vr_d_low, vr_a_low, vr_b_low, vr_x, vr_y])

theorem vwmul (o : VOp3) : Statement (.vwmul o) := by
  obtain ⟨p, d, a, b, x, y, k⟩ := o
  exact vector (p := p) (m := 0x23#6) rfl rfl (vr_m ..) (by decide)
    (by rw [at23 _ (vr_m ..)]; simp [-BitVec.getLsbD_eq_getElem, decodeVint, vop3, vop2, vcmpOp, vr_d, vr_a, vr_b, vr_k, vr_f, vr_d_low, vr_a_low, vr_b_low, vr_x, vr_y])

theorem vwadd (o : VOp3) : Statement (.vwadd o) := by
  obtain ⟨p, d, a, b, x, y, k⟩ := o
  exact vector (p := p) (m := 0x23#6) rfl rfl (vr_m ..) (by decide)
    (by rw [at23 _ (vr_m ..)]; simp [-BitVec.getLsbD_eq_getElem, decodeVint, vop3, vop2, vcmpOp, vr_d, vr_a, vr_b, vr_k, vr_f, vr_d_low, vr_a_low, vr_b_low, vr_x, vr_y])

theorem vfadd (o : VOp3) : Statement (.vfadd o) := by
  obtain ⟨p, d, a, b, x, y, k⟩ := o
  exact vector (p := p) (m := 0x24#6) rfl rfl (vr_m ..) (by decide)
    (by rw [at24 _ (vr_m ..)]; simp [-BitVec.getLsbD_eq_getElem, decodeVfp, vop3, vop2, vcmpOp, vr_d, vr_a, vr_b, vr_k, vr_f, vr_d_low, vr_a_low, vr_b_low, vr_x, vr_y])

theorem vfsub (o : VOp3) : Statement (.vfsub o) := by
  obtain ⟨p, d, a, b, x, y, k⟩ := o
  exact vector (p := p) (m := 0x24#6) rfl rfl (vr_m ..) (by decide)
    (by rw [at24 _ (vr_m ..)]; simp [-BitVec.getLsbD_eq_getElem, decodeVfp, vop3, vop2, vcmpOp, vr_d, vr_a, vr_b, vr_k, vr_f, vr_d_low, vr_a_low, vr_b_low, vr_x, vr_y])

theorem vfmul (o : VOp3) : Statement (.vfmul o) := by
  obtain ⟨p, d, a, b, x, y, k⟩ := o
  exact vector (p := p) (m := 0x24#6) rfl rfl (vr_m ..) (by decide)
    (by rw [at24 _ (vr_m ..)]; simp [-BitVec.getLsbD_eq_getElem, decodeVfp, vop3, vop2, vcmpOp, vr_d, vr_a, vr_b, vr_k, vr_f, vr_d_low, vr_a_low, vr_b_low, vr_x, vr_y])

theorem vfdiv (o : VOp3) : Statement (.vfdiv o) := by
  obtain ⟨p, d, a, b, x, y, k⟩ := o
  exact vector (p := p) (m := 0x24#6) rfl rfl (vr_m ..) (by decide)
    (by rw [at24 _ (vr_m ..)]; simp [-BitVec.getLsbD_eq_getElem, decodeVfp, vop3, vop2, vcmpOp, vr_d, vr_a, vr_b, vr_k, vr_f, vr_d_low, vr_a_low, vr_b_low, vr_x, vr_y])

theorem vfsqrt (o : VOp2) : Statement (.vfsqrt o) := by
  obtain ⟨p, d, a, x, k⟩ := o
  exact vector (p := p) (m := 0x24#6) rfl rfl (vr_m ..) (by decide)
    (by rw [at24 _ (vr_m ..)]; simp [-BitVec.getLsbD_eq_getElem, decodeVfp, vop3, vop2, vcmpOp, vr_d, vr_a, vr_b, vr_k, vr_f, vr_d_low, vr_a_low, vr_b_low, vr_x, vr_y])

theorem vfma (o : VOp3) : Statement (.vfma o) := by
  obtain ⟨p, d, a, b, x, y, k⟩ := o
  exact vector (p := p) (m := 0x24#6) rfl rfl (vr_m ..) (by decide)
    (by rw [at24 _ (vr_m ..)]; simp [-BitVec.getLsbD_eq_getElem, decodeVfp, vop3, vop2, vcmpOp, vr_d, vr_a, vr_b, vr_k, vr_f, vr_d_low, vr_a_low, vr_b_low, vr_x, vr_y])

theorem vfms (o : VOp3) : Statement (.vfms o) := by
  obtain ⟨p, d, a, b, x, y, k⟩ := o
  exact vector (p := p) (m := 0x24#6) rfl rfl (vr_m ..) (by decide)
    (by rw [at24 _ (vr_m ..)]; simp [-BitVec.getLsbD_eq_getElem, decodeVfp, vop3, vop2, vcmpOp, vr_d, vr_a, vr_b, vr_k, vr_f, vr_d_low, vr_a_low, vr_b_low, vr_x, vr_y])

theorem vfnma (o : VOp3) : Statement (.vfnma o) := by
  obtain ⟨p, d, a, b, x, y, k⟩ := o
  exact vector (p := p) (m := 0x24#6) rfl rfl (vr_m ..) (by decide)
    (by rw [at24 _ (vr_m ..)]; simp [-BitVec.getLsbD_eq_getElem, decodeVfp, vop3, vop2, vcmpOp, vr_d, vr_a, vr_b, vr_k, vr_f, vr_d_low, vr_a_low, vr_b_low, vr_x, vr_y])

theorem vfmin (o : VOp3) : Statement (.vfmin o) := by
  obtain ⟨p, d, a, b, x, y, k⟩ := o
  exact vector (p := p) (m := 0x24#6) rfl rfl (vr_m ..) (by decide)
    (by rw [at24 _ (vr_m ..)]; simp [-BitVec.getLsbD_eq_getElem, decodeVfp, vop3, vop2, vcmpOp, vr_d, vr_a, vr_b, vr_k, vr_f, vr_d_low, vr_a_low, vr_b_low, vr_x, vr_y])

theorem vfmax (o : VOp3) : Statement (.vfmax o) := by
  obtain ⟨p, d, a, b, x, y, k⟩ := o
  exact vector (p := p) (m := 0x24#6) rfl rfl (vr_m ..) (by decide)
    (by rw [at24 _ (vr_m ..)]; simp [-BitVec.getLsbD_eq_getElem, decodeVfp, vop3, vop2, vcmpOp, vr_d, vr_a, vr_b, vr_k, vr_f, vr_d_low, vr_a_low, vr_b_low, vr_x, vr_y])

theorem vfabs (o : VOp2) : Statement (.vfabs o) := by
  obtain ⟨p, d, a, x, k⟩ := o
  exact vector (p := p) (m := 0x24#6) rfl rfl (vr_m ..) (by decide)
    (by rw [at24 _ (vr_m ..)]; simp [-BitVec.getLsbD_eq_getElem, decodeVfp, vop3, vop2, vcmpOp, vr_d, vr_a, vr_b, vr_k, vr_f, vr_d_low, vr_a_low, vr_b_low, vr_x, vr_y])

theorem vfneg (o : VOp2) : Statement (.vfneg o) := by
  obtain ⟨p, d, a, x, k⟩ := o
  exact vector (p := p) (m := 0x24#6) rfl rfl (vr_m ..) (by decide)
    (by rw [at24 _ (vr_m ..)]; simp [-BitVec.getLsbD_eq_getElem, decodeVfp, vop3, vop2, vcmpOp, vr_d, vr_a, vr_b, vr_k, vr_f, vr_d_low, vr_a_low, vr_b_low, vr_x, vr_y])

theorem vfcmpeq (o : VCmpOp) : Statement (.vfcmpeq o) := by
  obtain ⟨p, d, a, b, x, y, k⟩ := o
  exact vector (p := p) (m := 0x24#6) rfl rfl (vr_m ..) (by decide)
    (by rw [at24 _ (vr_m ..)]; simp [-BitVec.getLsbD_eq_getElem, decodeVfp, vop3, vop2, vcmpOp, vr_d, vr_a, vr_b, vr_k, vr_f, vr_d_low, vr_a_low, vr_b_low, vr_x, vr_y, widened_1, widened_2, widened_3, widened_4])

theorem vfcmplt (o : VCmpOp) : Statement (.vfcmplt o) := by
  obtain ⟨p, d, a, b, x, y, k⟩ := o
  exact vector (p := p) (m := 0x24#6) rfl rfl (vr_m ..) (by decide)
    (by rw [at24 _ (vr_m ..)]; simp [-BitVec.getLsbD_eq_getElem, decodeVfp, vop3, vop2, vcmpOp, vr_d, vr_a, vr_b, vr_k, vr_f, vr_d_low, vr_a_low, vr_b_low, vr_x, vr_y, widened_1, widened_2, widened_3, widened_4])

theorem vfcmple (o : VCmpOp) : Statement (.vfcmple o) := by
  obtain ⟨p, d, a, b, x, y, k⟩ := o
  exact vector (p := p) (m := 0x24#6) rfl rfl (vr_m ..) (by decide)
    (by rw [at24 _ (vr_m ..)]; simp [-BitVec.getLsbD_eq_getElem, decodeVfp, vop3, vop2, vcmpOp, vr_d, vr_a, vr_b, vr_k, vr_f, vr_d_low, vr_a_low, vr_b_low, vr_x, vr_y, widened_1, widened_2, widened_3, widened_4])

theorem vfclass (o : VOp2) : Statement (.vfclass o) := by
  obtain ⟨p, d, a, x, k⟩ := o
  exact vector (p := p) (m := 0x24#6) rfl rfl (vr_m ..) (by decide)
    (by rw [at24 _ (vr_m ..)]; simp [-BitVec.getLsbD_eq_getElem, decodeVfp, vop3, vop2, vcmpOp, vr_d, vr_a, vr_b, vr_k, vr_f, vr_d_low, vr_a_low, vr_b_low, vr_x, vr_y])

theorem vfrcp (o : VOp2) : Statement (.vfrcp o) := by
  obtain ⟨p, d, a, x, k⟩ := o
  exact vector (p := p) (m := 0x24#6) rfl rfl (vr_m ..) (by decide)
    (by rw [at24 _ (vr_m ..)]; simp [-BitVec.getLsbD_eq_getElem, decodeVfp, vop3, vop2, vcmpOp, vr_d, vr_a, vr_b, vr_k, vr_f, vr_d_low, vr_a_low, vr_b_low, vr_x, vr_y])

theorem vfrsq (o : VOp2) : Statement (.vfrsq o) := by
  obtain ⟨p, d, a, x, k⟩ := o
  exact vector (p := p) (m := 0x24#6) rfl rfl (vr_m ..) (by decide)
    (by rw [at24 _ (vr_m ..)]; simp [-BitVec.getLsbD_eq_getElem, decodeVfp, vop3, vop2, vcmpOp, vr_d, vr_a, vr_b, vr_k, vr_f, vr_d_low, vr_a_low, vr_b_low, vr_x, vr_y])

theorem vfex2 (o : VOp2) : Statement (.vfex2 o) := by
  obtain ⟨p, d, a, x, k⟩ := o
  exact vector (p := p) (m := 0x24#6) rfl rfl (vr_m ..) (by decide)
    (by rw [at24 _ (vr_m ..)]; simp [-BitVec.getLsbD_eq_getElem, decodeVfp, vop3, vop2, vcmpOp, vr_d, vr_a, vr_b, vr_k, vr_f, vr_d_low, vr_a_low, vr_b_low, vr_x, vr_y])

theorem vflg2 (o : VOp2) : Statement (.vflg2 o) := by
  obtain ⟨p, d, a, x, k⟩ := o
  exact vector (p := p) (m := 0x24#6) rfl rfl (vr_m ..) (by decide)
    (by rw [at24 _ (vr_m ..)]; simp [-BitVec.getLsbD_eq_getElem, decodeVfp, vop3, vop2, vcmpOp, vr_d, vr_a, vr_b, vr_k, vr_f, vr_d_low, vr_a_low, vr_b_low, vr_x, vr_y])

theorem vftnh (o : VOp2) : Statement (.vftnh o) := by
  obtain ⟨p, d, a, x, k⟩ := o
  exact vector (p := p) (m := 0x24#6) rfl rfl (vr_m ..) (by decide)
    (by rw [at24 _ (vr_m ..)]; simp [-BitVec.getLsbD_eq_getElem, decodeVfp, vop3, vop2, vcmpOp, vr_d, vr_a, vr_b, vr_k, vr_f, vr_d_low, vr_a_low, vr_b_low, vr_x, vr_y])

theorem vfsig (o : VOp2) : Statement (.vfsig o) := by
  obtain ⟨p, d, a, x, k⟩ := o
  exact vector (p := p) (m := 0x24#6) rfl rfl (vr_m ..) (by decide)
    (by rw [at24 _ (vr_m ..)]; simp [-BitVec.getLsbD_eq_getElem, decodeVfp, vop3, vop2, vcmpOp, vr_d, vr_a, vr_b, vr_k, vr_f, vr_d_low, vr_a_low, vr_b_low, vr_x, vr_y])

theorem vfexp (o : VOp2) : Statement (.vfexp o) := by
  obtain ⟨p, d, a, x, k⟩ := o
  exact vector (p := p) (m := 0x24#6) rfl rfl (vr_m ..) (by decide)
    (by rw [at24 _ (vr_m ..)]; simp [-BitVec.getLsbD_eq_getElem, decodeVfp, vop3, vop2, vcmpOp, vr_d, vr_a, vr_b, vr_k, vr_f, vr_d_low, vr_a_low, vr_b_low, vr_x, vr_y])

theorem vfscl (o : VOp3) : Statement (.vfscl o) := by
  obtain ⟨p, d, a, b, x, y, k⟩ := o
  exact vector (p := p) (m := 0x24#6) rfl rfl (vr_m ..) (by decide)
    (by rw [at24 _ (vr_m ..)]; simp [-BitVec.getLsbD_eq_getElem, decodeVfp, vop3, vop2, vcmpOp, vr_d, vr_a, vr_b, vr_k, vr_f, vr_d_low, vr_a_low, vr_b_low, vr_x, vr_y])

theorem vcvt (p : Option Pfx) (d a : BitVec 5) (t : BitVec 4) (x : Bool) (m : BitVec 3) : Statement (.vcvt p d a t x m) := by
  exact vector (p := p) (m := 0x25#6) rfl rfl (vr_m ..) (by decide)
    (by rw [at25 _ (vr_m ..)]; simp [-BitVec.getLsbD_eq_getElem, decodeVcvt, vr_d, vr_a, vr_b, vr_k, vr_f, vr_d_low, vr_a_low, vr_b_low, vr_x, vr_y, highBit_1_4, high_1_4, lowBit_1_4, low_1_4])

theorem vcvtef (p : Pfx) (d a : BitVec 5) (t : BitVec 4) (x : Bool) (m : BitVec 3) : Statement (.vcvtef p d a t x m) := by
  exact vector (p := some p) (m := 0x25#6) rfl rfl (vr_m ..) (by decide)
    (by rw [at25 _ (vr_m ..)]; simp [-BitVec.getLsbD_eq_getElem, decodeVcvt, vr_d, vr_a, vr_b, vr_k, vr_f, vr_d_low, vr_a_low, vr_b_low, vr_x, vr_y, widened_1, widened_2, widened_3, widened_4])

theorem vftoi (p : Option Pfx) (d a : BitVec 5) (t : BitVec 4) (x : Bool) (m : BitVec 3) : Statement (.vftoi p d a t x m) := by
  exact vector (p := p) (m := 0x25#6) rfl rfl (vr_m ..) (by decide)
    (by rw [at25 _ (vr_m ..)]; simp [-BitVec.getLsbD_eq_getElem, decodeVcvt, vr_d, vr_a, vr_b, vr_k, vr_f, vr_d_low, vr_a_low, vr_b_low, vr_x, vr_y, highBit_1_4, high_1_4, lowBit_1_4, low_1_4])

theorem vitof (p : Option Pfx) (d a : BitVec 5) (t : BitVec 4) (x : Bool) (m : BitVec 3) : Statement (.vitof p d a t x m) := by
  exact vector (p := p) (m := 0x25#6) rfl rfl (vr_m ..) (by decide)
    (by rw [at25 _ (vr_m ..)]; simp [-BitVec.getLsbD_eq_getElem, decodeVcvt, vr_d, vr_a, vr_b, vr_k, vr_f, vr_d_low, vr_a_low, vr_b_low, vr_x, vr_y, highBit_1_4, high_1_4, lowBit_1_4, low_1_4])

theorem vredsum (o : VOp3) : Statement (.vredsum o) := by
  obtain ⟨p, d, a, b, x, y, k⟩ := o
  exact vector (p := p) (m := 0x26#6) rfl rfl (vr_m ..) (by decide)
    (by rw [at26 _ (vr_m ..)]; simp [-BitVec.getLsbD_eq_getElem, decodeVrp, vop3, vop2, vcmpOp, vr_d, vr_a, vr_b, vr_k, vr_f, vr_d_low, vr_a_low, vr_b_low, vr_x, vr_y])

theorem vredmin (o : VOp3) : Statement (.vredmin o) := by
  obtain ⟨p, d, a, b, x, y, k⟩ := o
  exact vector (p := p) (m := 0x26#6) rfl rfl (vr_m ..) (by decide)
    (by rw [at26 _ (vr_m ..)]; simp [-BitVec.getLsbD_eq_getElem, decodeVrp, vop3, vop2, vcmpOp, vr_d, vr_a, vr_b, vr_k, vr_f, vr_d_low, vr_a_low, vr_b_low, vr_x, vr_y])

theorem vredmax (o : VOp3) : Statement (.vredmax o) := by
  obtain ⟨p, d, a, b, x, y, k⟩ := o
  exact vector (p := p) (m := 0x26#6) rfl rfl (vr_m ..) (by decide)
    (by rw [at26 _ (vr_m ..)]; simp [-BitVec.getLsbD_eq_getElem, decodeVrp, vop3, vop2, vcmpOp, vr_d, vr_a, vr_b, vr_k, vr_f, vr_d_low, vr_a_low, vr_b_low, vr_x, vr_y])

theorem vredminn (o : VOp3) : Statement (.vredminn o) := by
  obtain ⟨p, d, a, b, x, y, k⟩ := o
  exact vector (p := p) (m := 0x26#6) rfl rfl (vr_m ..) (by decide)
    (by rw [at26 _ (vr_m ..)]; simp [-BitVec.getLsbD_eq_getElem, decodeVrp, vop3, vop2, vcmpOp, vr_d, vr_a, vr_b, vr_k, vr_f, vr_d_low, vr_a_low, vr_b_low, vr_x, vr_y])

theorem vredmaxn (o : VOp3) : Statement (.vredmaxn o) := by
  obtain ⟨p, d, a, b, x, y, k⟩ := o
  exact vector (p := p) (m := 0x26#6) rfl rfl (vr_m ..) (by decide)
    (by rw [at26 _ (vr_m ..)]; simp [-BitVec.getLsbD_eq_getElem, decodeVrp, vop3, vop2, vcmpOp, vr_d, vr_a, vr_b, vr_k, vr_f, vr_d_low, vr_a_low, vr_b_low, vr_x, vr_y])

theorem vredand (o : VOp3) : Statement (.vredand o) := by
  obtain ⟨p, d, a, b, x, y, k⟩ := o
  exact vector (p := p) (m := 0x26#6) rfl rfl (vr_m ..) (by decide)
    (by rw [at26 _ (vr_m ..)]; simp [-BitVec.getLsbD_eq_getElem, decodeVrp, vop3, vop2, vcmpOp, vr_d, vr_a, vr_b, vr_k, vr_f, vr_d_low, vr_a_low, vr_b_low, vr_x, vr_y])

theorem vredor (o : VOp3) : Statement (.vredor o) := by
  obtain ⟨p, d, a, b, x, y, k⟩ := o
  exact vector (p := p) (m := 0x26#6) rfl rfl (vr_m ..) (by decide)
    (by rw [at26 _ (vr_m ..)]; simp [-BitVec.getLsbD_eq_getElem, decodeVrp, vop3, vop2, vcmpOp, vr_d, vr_a, vr_b, vr_k, vr_f, vr_d_low, vr_a_low, vr_b_low, vr_x, vr_y])

theorem vredxor (o : VOp3) : Statement (.vredxor o) := by
  obtain ⟨p, d, a, b, x, y, k⟩ := o
  exact vector (p := p) (m := 0x26#6) rfl rfl (vr_m ..) (by decide)
    (by rw [at26 _ (vr_m ..)]; simp [-BitVec.getLsbD_eq_getElem, decodeVrp, vop3, vop2, vcmpOp, vr_d, vr_a, vr_b, vr_k, vr_f, vr_d_low, vr_a_low, vr_b_low, vr_x, vr_y])

theorem vfredsum (o : VOp3) : Statement (.vfredsum o) := by
  obtain ⟨p, d, a, b, x, y, k⟩ := o
  exact vector (p := p) (m := 0x26#6) rfl rfl (vr_m ..) (by decide)
    (by rw [at26 _ (vr_m ..)]; simp [-BitVec.getLsbD_eq_getElem, decodeVrp, vop3, vop2, vcmpOp, vr_d, vr_a, vr_b, vr_k, vr_f, vr_d_low, vr_a_low, vr_b_low, vr_x, vr_y])

theorem vfredmin (o : VOp3) : Statement (.vfredmin o) := by
  obtain ⟨p, d, a, b, x, y, k⟩ := o
  exact vector (p := p) (m := 0x26#6) rfl rfl (vr_m ..) (by decide)
    (by rw [at26 _ (vr_m ..)]; simp [-BitVec.getLsbD_eq_getElem, decodeVrp, vop3, vop2, vcmpOp, vr_d, vr_a, vr_b, vr_k, vr_f, vr_d_low, vr_a_low, vr_b_low, vr_x, vr_y])

theorem vfredmax (o : VOp3) : Statement (.vfredmax o) := by
  obtain ⟨p, d, a, b, x, y, k⟩ := o
  exact vector (p := p) (m := 0x26#6) rfl rfl (vr_m ..) (by decide)
    (by rw [at26 _ (vr_m ..)]; simp [-BitVec.getLsbD_eq_getElem, decodeVrp, vop3, vop2, vcmpOp, vr_d, vr_a, vr_b, vr_k, vr_f, vr_d_low, vr_a_low, vr_b_low, vr_x, vr_y])

theorem vscan (o : VOp3) : Statement (.vscan o) := by
  obtain ⟨p, d, a, b, x, y, k⟩ := o
  exact vector (p := p) (m := 0x26#6) rfl rfl (vr_m ..) (by decide)
    (by rw [at26 _ (vr_m ..)]; simp [-BitVec.getLsbD_eq_getElem, decodeVrp, vop3, vop2, vcmpOp, vr_d, vr_a, vr_b, vr_k, vr_f, vr_d_low, vr_a_low, vr_b_low, vr_x, vr_y])

theorem vscanx (o : VOp3) : Statement (.vscanx o) := by
  obtain ⟨p, d, a, b, x, y, k⟩ := o
  exact vector (p := p) (m := 0x26#6) rfl rfl (vr_m ..) (by decide)
    (by rw [at26 _ (vr_m ..)]; simp [-BitVec.getLsbD_eq_getElem, decodeVrp, vop3, vop2, vcmpOp, vr_d, vr_a, vr_b, vr_k, vr_f, vr_d_low, vr_a_low, vr_b_low, vr_x, vr_y])

theorem vfscan (o : VOp3) : Statement (.vfscan o) := by
  obtain ⟨p, d, a, b, x, y, k⟩ := o
  exact vector (p := p) (m := 0x26#6) rfl rfl (vr_m ..) (by decide)
    (by rw [at26 _ (vr_m ..)]; simp [-BitVec.getLsbD_eq_getElem, decodeVrp, vop3, vop2, vcmpOp, vr_d, vr_a, vr_b, vr_k, vr_f, vr_d_low, vr_a_low, vr_b_low, vr_x, vr_y])

theorem vslup (p : Option Pfx) (d a b : BitVec 5) (x : Bool) (m : BitVec 3) : Statement (.vslup p d a b x m) := by
  exact vector (p := p) (m := 0x26#6) rfl rfl (vr_m ..) (by decide)
    (by rw [at26 _ (vr_m ..)]; simp [-BitVec.getLsbD_eq_getElem, decodeVrp, vop3, vop2, vcmpOp, vr_d, vr_a, vr_b, vr_k, vr_f, vr_d_low, vr_a_low, vr_b_low, vr_x, vr_y])

theorem vsldn (p : Option Pfx) (d a b : BitVec 5) (x : Bool) (m : BitVec 3) : Statement (.vsldn p d a b x m) := by
  exact vector (p := p) (m := 0x26#6) rfl rfl (vr_m ..) (by decide)
    (by rw [at26 _ (vr_m ..)]; simp [-BitVec.getLsbD_eq_getElem, decodeVrp, vop3, vop2, vcmpOp, vr_d, vr_a, vr_b, vr_k, vr_f, vr_d_low, vr_a_low, vr_b_low, vr_x, vr_y])

theorem vperm (o : VOp3) : Statement (.vperm o) := by
  obtain ⟨p, d, a, b, x, y, k⟩ := o
  exact vector (p := p) (m := 0x26#6) rfl rfl (vr_m ..) (by decide)
    (by rw [at26 _ (vr_m ..)]; simp [-BitVec.getLsbD_eq_getElem, decodeVrp, vop3, vop2, vcmpOp, vr_d, vr_a, vr_b, vr_k, vr_f, vr_d_low, vr_a_low, vr_b_low, vr_x, vr_y])

theorem vpack (o : VOp2) : Statement (.vpack o) := by
  obtain ⟨p, d, a, x, k⟩ := o
  exact vector (p := p) (m := 0x26#6) rfl rfl (vr_m ..) (by decide)
    (by rw [at26 _ (vr_m ..)]; simp [-BitVec.getLsbD_eq_getElem, decodeVrp, vop3, vop2, vcmpOp, vr_d, vr_a, vr_b, vr_k, vr_f, vr_d_low, vr_a_low, vr_b_low, vr_x, vr_y])

theorem vunpack (o : VOp2) : Statement (.vunpack o) := by
  obtain ⟨p, d, a, x, k⟩ := o
  exact vector (p := p) (m := 0x26#6) rfl rfl (vr_m ..) (by decide)
    (by rw [at26 _ (vr_m ..)]; simp [-BitVec.getLsbD_eq_getElem, decodeVrp, vop3, vop2, vcmpOp, vr_d, vr_a, vr_b, vr_k, vr_f, vr_d_low, vr_a_low, vr_b_low, vr_x, vr_y])

theorem vxchg (p : Option Pfx) (d a b : BitVec 5) (x : Bool) (m : BitVec 3) : Statement (.vxchg p d a b x m) := by
  exact vector (p := p) (m := 0x26#6) rfl rfl (vr_m ..) (by decide)
    (by rw [at26 _ (vr_m ..)]; simp [-BitVec.getLsbD_eq_getElem, decodeVrp, vop3, vop2, vcmpOp, vr_d, vr_a, vr_b, vr_k, vr_f, vr_d_low, vr_a_low, vr_b_low, vr_x, vr_y])

theorem vrev (o : VOp2) : Statement (.vrev o) := by
  obtain ⟨p, d, a, x, k⟩ := o
  exact vector (p := p) (m := 0x26#6) rfl rfl (vr_m ..) (by decide)
    (by rw [at26 _ (vr_m ..)]; simp [-BitVec.getLsbD_eq_getElem, decodeVrp, vop3, vop2, vcmpOp, vr_d, vr_a, vr_b, vr_k, vr_f, vr_d_low, vr_a_low, vr_b_low, vr_x, vr_y])

theorem mand (p : Option Pfx) (d a b : BitVec 3) : Statement (.mand p d a b) := by
  exact vector (p := p) (m := 0x27#6) rfl rfl (vr_m ..) (by decide)
    (by rw [at27 _ (vr_m ..)]; simp [-BitVec.getLsbD_eq_getElem, decodeMask, vr_d, vr_a, vr_b, vr_k, vr_f, vr_d_low, vr_a_low, vr_b_low, vr_x, vr_y, widened_1, widened_2, widened_3, widened_4])

theorem mor (p : Option Pfx) (d a b : BitVec 3) : Statement (.mor p d a b) := by
  exact vector (p := p) (m := 0x27#6) rfl rfl (vr_m ..) (by decide)
    (by rw [at27 _ (vr_m ..)]; simp [-BitVec.getLsbD_eq_getElem, decodeMask, vr_d, vr_a, vr_b, vr_k, vr_f, vr_d_low, vr_a_low, vr_b_low, vr_x, vr_y, widened_1, widened_2, widened_3, widened_4])

theorem mxor (p : Option Pfx) (d a b : BitVec 3) : Statement (.mxor p d a b) := by
  exact vector (p := p) (m := 0x27#6) rfl rfl (vr_m ..) (by decide)
    (by rw [at27 _ (vr_m ..)]; simp [-BitVec.getLsbD_eq_getElem, decodeMask, vr_d, vr_a, vr_b, vr_k, vr_f, vr_d_low, vr_a_low, vr_b_low, vr_x, vr_y, widened_1, widened_2, widened_3, widened_4])

theorem mandn (p : Option Pfx) (d a b : BitVec 3) : Statement (.mandn p d a b) := by
  exact vector (p := p) (m := 0x27#6) rfl rfl (vr_m ..) (by decide)
    (by rw [at27 _ (vr_m ..)]; simp [-BitVec.getLsbD_eq_getElem, decodeMask, vr_d, vr_a, vr_b, vr_k, vr_f, vr_d_low, vr_a_low, vr_b_low, vr_x, vr_y, widened_1, widened_2, widened_3, widened_4])

theorem mnot (p : Option Pfx) (d a : BitVec 3) : Statement (.mnot p d a) := by
  exact vector (p := p) (m := 0x27#6) rfl rfl (vr_m ..) (by decide)
    (by rw [at27 _ (vr_m ..)]; simp [-BitVec.getLsbD_eq_getElem, decodeMask, vr_d, vr_a, vr_b, vr_k, vr_f, vr_d_low, vr_a_low, vr_b_low, vr_x, vr_y, widened_1, widened_2, widened_3, widened_4])

theorem mset (p : Option Pfx) (d : BitVec 3) : Statement (.mset p d) := by
  exact vector (p := p) (m := 0x27#6) rfl rfl (vr_m ..) (by decide)
    (by rw [at27 _ (vr_m ..)]; simp [-BitVec.getLsbD_eq_getElem, decodeMask, vr_d, vr_a, vr_b, vr_k, vr_f, vr_d_low, vr_a_low, vr_b_low, vr_x, vr_y, widened_1, widened_2, widened_3, widened_4])

theorem mclr (p : Option Pfx) (d : BitVec 3) : Statement (.mclr p d) := by
  exact vector (p := p) (m := 0x27#6) rfl rfl (vr_m ..) (by decide)
    (by rw [at27 _ (vr_m ..)]; simp [-BitVec.getLsbD_eq_getElem, decodeMask, vr_d, vr_a, vr_b, vr_k, vr_f, vr_d_low, vr_a_low, vr_b_low, vr_x, vr_y, widened_1, widened_2, widened_3, widened_4])

theorem mpop (p : Option Pfx) (d : BitVec 5) (a m : BitVec 3) : Statement (.mpop p d a m) := by
  exact vector (p := p) (m := 0x27#6) rfl rfl (vr_m ..) (by decide)
    (by rw [at27 _ (vr_m ..)]; simp [-BitVec.getLsbD_eq_getElem, decodeMask, vr_d, vr_a, vr_b, vr_k, vr_f, vr_d_low, vr_a_low, vr_b_low, vr_x, vr_y, widened_1, widened_2, widened_3, widened_4])

theorem mfirst (p : Option Pfx) (d : BitVec 5) (a m : BitVec 3) : Statement (.mfirst p d a m) := by
  exact vector (p := p) (m := 0x27#6) rfl rfl (vr_m ..) (by decide)
    (by rw [at27 _ (vr_m ..)]; simp [-BitVec.getLsbD_eq_getElem, decodeMask, vr_d, vr_a, vr_b, vr_k, vr_f, vr_d_low, vr_a_low, vr_b_low, vr_x, vr_y, widened_1, widened_2, widened_3, widened_4])

theorem mfromv (p : Option Pfx) (d : BitVec 3) (a : BitVec 5) (x : Bool) (m : BitVec 3) : Statement (.mfromv p d a x m) := by
  exact vector (p := p) (m := 0x27#6) rfl rfl (vr_m ..) (by decide)
    (by rw [at27 _ (vr_m ..)]; simp [-BitVec.getLsbD_eq_getElem, decodeMask, vr_d, vr_a, vr_b, vr_k, vr_f, vr_d_low, vr_a_low, vr_b_low, vr_x, vr_y, widened_1, widened_2, widened_3, widened_4])

theorem mtov (p : Option Pfx) (d : BitVec 5) (a m : BitVec 3) : Statement (.mtov p d a m) := by
  exact vector (p := p) (m := 0x27#6) rfl rfl (vr_m ..) (by decide)
    (by rw [at27 _ (vr_m ..)]; simp [-BitVec.getLsbD_eq_getElem, decodeMask, vr_d, vr_a, vr_b, vr_k, vr_f, vr_d_low, vr_a_low, vr_b_low, vr_x, vr_y, widened_1, widened_2, widened_3, widened_4])

theorem msbf (p : Option Pfx) (d a m : BitVec 3) : Statement (.msbf p d a m) := by
  exact vector (p := p) (m := 0x27#6) rfl rfl (vr_m ..) (by decide)
    (by rw [at27 _ (vr_m ..)]; simp [-BitVec.getLsbD_eq_getElem, decodeMask, vr_d, vr_a, vr_b, vr_k, vr_f, vr_d_low, vr_a_low, vr_b_low, vr_x, vr_y, widened_1, widened_2, widened_3, widened_4])

theorem vld (p : Option Pfx) (d a : BitVec 5) (m : BitVec 3) (e : BitVec 2) (k : BitVec 3) : Statement (.vld p d a m e k) := by
  exact vector (p := p) (m := 0x28#6) rfl rfl (vm_m ..) (by decide)
    (by rw [at28 _ (vm_m ..)]; simp [-BitVec.getLsbD_eq_getElem, decodeVld, vm_d, vm_a, vm_b, vm_k, vm_f, vm_n, vm_d_low, vm_a_low, vm_f_2, vm_f_0, vm_x, highBit_2_2, high_2_2, lowBit_2_2, low_2_2])

theorem vlds (p : Option Pfx) (d a b : BitVec 5) (m : BitVec 3) (e : BitVec 2) (k : BitVec 3) : Statement (.vlds p d a b m e k) := by
  exact vector (p := p) (m := 0x28#6) rfl rfl (vm_m ..) (by decide)
    (by rw [at28 _ (vm_m ..)]; simp [-BitVec.getLsbD_eq_getElem, decodeVld, vm_d, vm_a, vm_b, vm_k, vm_f, vm_n, vm_d_low, vm_a_low, vm_f_2, vm_f_0, vm_x, highBit_2_2, high_2_2, lowBit_2_2, low_2_2])

theorem vldx (p : Option Pfx) (d a b : BitVec 5) (c : Bool) (m : BitVec 3) (e : BitVec 2) (k : BitVec 3) : Statement (.vldx p d a b c m e k) := by
  exact vector (p := p) (m := 0x28#6) rfl rfl (vm_m ..) (by decide)
    (by rw [at28 _ (vm_m ..)]; simp [-BitVec.getLsbD_eq_getElem, decodeVld, vm_d, vm_a, vm_b, vm_k, vm_f, vm_n, vm_d_low, vm_a_low, vm_f_2, vm_f_0, vm_x, highBit_2_2, high_2_2, lowBit_2_2, low_2_2])

theorem vldff (p : Option Pfx) (d a : BitVec 5) (m : BitVec 3) (e : BitVec 2) : Statement (.vldff p d a m e) := by
  exact vector (p := p) (m := 0x28#6) rfl rfl (vm_m ..) (by decide)
    (by rw [at28 _ (vm_m ..)]; simp [-BitVec.getLsbD_eq_getElem, decodeVld, vm_d, vm_a, vm_b, vm_k, vm_f, vm_n, vm_d_low, vm_a_low, vm_f_2, vm_f_0, vm_x, highBit_2_2, high_2_2, lowBit_2_2, low_2_2])

theorem vst (p : Option Pfx) (d a : BitVec 5) (c : Bool) (m : BitVec 3) (e : BitVec 2) (k : BitVec 3) : Statement (.vst p d a c m e k) := by
  exact vector (p := p) (m := 0x29#6) rfl rfl (vm_m ..) (by decide)
    (by rw [at29 _ (vm_m ..)]; simp [-BitVec.getLsbD_eq_getElem, decodeVst, vm_d, vm_a, vm_b, vm_k, vm_f, vm_n, vm_d_low, vm_a_low, vm_f_2, vm_f_0, vm_x, highBit_2_2, high_2_2, lowBit_2_2, low_2_2])

theorem vsts (p : Option Pfx) (d a b : BitVec 5) (c : Bool) (m : BitVec 3) (e : BitVec 2) (k : BitVec 3) : Statement (.vsts p d a b c m e k) := by
  exact vector (p := p) (m := 0x29#6) rfl rfl (vm_m ..) (by decide)
    (by rw [at29 _ (vm_m ..)]; simp [-BitVec.getLsbD_eq_getElem, decodeVst, vm_d, vm_a, vm_b, vm_k, vm_f, vm_n, vm_d_low, vm_a_low, vm_f_2, vm_f_0, vm_x, highBit_2_2, high_2_2, lowBit_2_2, low_2_2])

theorem vstx (p : Option Pfx) (d a b : BitVec 5) (c : Bool) (m : BitVec 3) (e : BitVec 2) (k : BitVec 3) : Statement (.vstx p d a b c m e k) := by
  exact vector (p := p) (m := 0x29#6) rfl rfl (vm_m ..) (by decide)
    (by rw [at29 _ (vm_m ..)]; simp [-BitVec.getLsbD_eq_getElem, decodeVst, vm_d, vm_a, vm_b, vm_k, vm_f, vm_n, vm_d_low, vm_a_low, vm_f_2, vm_f_0, vm_x, highBit_2_2, high_2_2, lowBit_2_2, low_2_2])

theorem vamoadd (o : VAmoOp) : Statement (.vamoadd o) := by
  obtain ⟨p, d, a, b, x, k, n⟩ := o
  exact vector (p := p) (m := 0x2A#6) rfl rfl (vm_m ..) (by decide)
    (by rw [at2A _ (vm_m ..)]; simp [-BitVec.getLsbD_eq_getElem, decodeVamo, vamoOp, vm_d, vm_a, vm_b, vm_k, vm_f, vm_n, vm_d_low, vm_a_low, vm_f_2, vm_f_0, vm_x])

theorem vamoand (o : VAmoOp) : Statement (.vamoand o) := by
  obtain ⟨p, d, a, b, x, k, n⟩ := o
  exact vector (p := p) (m := 0x2A#6) rfl rfl (vm_m ..) (by decide)
    (by rw [at2A _ (vm_m ..)]; simp [-BitVec.getLsbD_eq_getElem, decodeVamo, vamoOp, vm_d, vm_a, vm_b, vm_k, vm_f, vm_n, vm_d_low, vm_a_low, vm_f_2, vm_f_0, vm_x])

theorem vamoor (o : VAmoOp) : Statement (.vamoor o) := by
  obtain ⟨p, d, a, b, x, k, n⟩ := o
  exact vector (p := p) (m := 0x2A#6) rfl rfl (vm_m ..) (by decide)
    (by rw [at2A _ (vm_m ..)]; simp [-BitVec.getLsbD_eq_getElem, decodeVamo, vamoOp, vm_d, vm_a, vm_b, vm_k, vm_f, vm_n, vm_d_low, vm_a_low, vm_f_2, vm_f_0, vm_x])

theorem vamoxor (o : VAmoOp) : Statement (.vamoxor o) := by
  obtain ⟨p, d, a, b, x, k, n⟩ := o
  exact vector (p := p) (m := 0x2A#6) rfl rfl (vm_m ..) (by decide)
    (by rw [at2A _ (vm_m ..)]; simp [-BitVec.getLsbD_eq_getElem, decodeVamo, vamoOp, vm_d, vm_a, vm_b, vm_k, vm_f, vm_n, vm_d_low, vm_a_low, vm_f_2, vm_f_0, vm_x])

theorem vamomin (o : VAmoOp) : Statement (.vamomin o) := by
  obtain ⟨p, d, a, b, x, k, n⟩ := o
  exact vector (p := p) (m := 0x2A#6) rfl rfl (vm_m ..) (by decide)
    (by rw [at2A _ (vm_m ..)]; simp [-BitVec.getLsbD_eq_getElem, decodeVamo, vamoOp, vm_d, vm_a, vm_b, vm_k, vm_f, vm_n, vm_d_low, vm_a_low, vm_f_2, vm_f_0, vm_x])

theorem vamomax (o : VAmoOp) : Statement (.vamomax o) := by
  obtain ⟨p, d, a, b, x, k, n⟩ := o
  exact vector (p := p) (m := 0x2A#6) rfl rfl (vm_m ..) (by decide)
    (by rw [at2A _ (vm_m ..)]; simp [-BitVec.getLsbD_eq_getElem, decodeVamo, vamoOp, vm_d, vm_a, vm_b, vm_k, vm_f, vm_n, vm_d_low, vm_a_low, vm_f_2, vm_f_0, vm_x])

theorem vamominn (o : VAmoOp) : Statement (.vamominn o) := by
  obtain ⟨p, d, a, b, x, k, n⟩ := o
  exact vector (p := p) (m := 0x2A#6) rfl rfl (vm_m ..) (by decide)
    (by rw [at2A _ (vm_m ..)]; simp [-BitVec.getLsbD_eq_getElem, decodeVamo, vamoOp, vm_d, vm_a, vm_b, vm_k, vm_f, vm_n, vm_d_low, vm_a_low, vm_f_2, vm_f_0, vm_x])

theorem vamomaxn (o : VAmoOp) : Statement (.vamomaxn o) := by
  obtain ⟨p, d, a, b, x, k, n⟩ := o
  exact vector (p := p) (m := 0x2A#6) rfl rfl (vm_m ..) (by decide)
    (by rw [at2A _ (vm_m ..)]; simp [-BitVec.getLsbD_eq_getElem, decodeVamo, vamoOp, vm_d, vm_a, vm_b, vm_k, vm_f, vm_n, vm_d_low, vm_a_low, vm_f_2, vm_f_0, vm_x])

theorem vamofadd (o : VAmoOp) : Statement (.vamofadd o) := by
  obtain ⟨p, d, a, b, x, k, n⟩ := o
  exact vector (p := p) (m := 0x2A#6) rfl rfl (vm_m ..) (by decide)
    (by rw [at2A _ (vm_m ..)]; simp [-BitVec.getLsbD_eq_getElem, decodeVamo, vamoOp, vm_d, vm_a, vm_b, vm_k, vm_f, vm_n, vm_d_low, vm_a_low, vm_f_2, vm_f_0, vm_x])

theorem vamofmin (o : VAmoOp) : Statement (.vamofmin o) := by
  obtain ⟨p, d, a, b, x, k, n⟩ := o
  exact vector (p := p) (m := 0x2A#6) rfl rfl (vm_m ..) (by decide)
    (by rw [at2A _ (vm_m ..)]; simp [-BitVec.getLsbD_eq_getElem, decodeVamo, vamoOp, vm_d, vm_a, vm_b, vm_k, vm_f, vm_n, vm_d_low, vm_a_low, vm_f_2, vm_f_0, vm_x])

theorem vamofmax (o : VAmoOp) : Statement (.vamofmax o) := by
  obtain ⟨p, d, a, b, x, k, n⟩ := o
  exact vector (p := p) (m := 0x2A#6) rfl rfl (vm_m ..) (by decide)
    (by rw [at2A _ (vm_m ..)]; simp [-BitVec.getLsbD_eq_getElem, decodeVamo, vamoOp, vm_d, vm_a, vm_b, vm_k, vm_f, vm_n, vm_d_low, vm_a_low, vm_f_2, vm_f_0, vm_x])

theorem vamoswp (o : VAmoOp) : Statement (.vamoswp o) := by
  obtain ⟨p, d, a, b, x, k, n⟩ := o
  exact vector (p := p) (m := 0x2A#6) rfl rfl (vm_m ..) (by decide)
    (by rw [at2A _ (vm_m ..)]; simp [-BitVec.getLsbD_eq_getElem, decodeVamo, vamoOp, vm_d, vm_a, vm_b, vm_k, vm_f, vm_n, vm_d_low, vm_a_low, vm_f_2, vm_f_0, vm_x])

theorem vapnd (p : Option Pfx) (d a b : BitVec 5) (c : Bool) (m k : BitVec 3) : Statement (.vapnd p d a b c m k) := by
  exact vector (p := p) (m := 0x2B#6) rfl rfl (vm_m ..) (by decide)
    (by rw [at2B _ (vm_m ..)]; simp [-BitVec.getLsbD_eq_getElem, decodeInkw, vm_d, vm_a, vm_b, vm_k, vm_f, vm_n, vm_d_low, vm_a_low, vm_f_2, vm_f_0, vm_x])

theorem sealPage (p : Option Pfx) (s : BitVec 3) (a : BitVec 5) (k : BitVec 3) : Statement (.sealPage p s a k) := by
  exact vector (p := p) (m := 0x2B#6) rfl rfl (vm_m ..) (by decide)
    (by rw [at2B _ (vm_m ..)]; simp [-BitVec.getLsbD_eq_getElem, decodeInkw, vm_d, vm_a, vm_b, vm_k, vm_f, vm_n, vm_d_low, vm_a_low, vm_f_2, vm_f_0, vm_x, highBit_2_3, high_2_3, lowBit_2_3, low_2_3])

theorem inktail (p : Option Pfx) (d a : BitVec 5) : Statement (.inktail p d a) := by
  exact vector (p := p) (m := 0x2B#6) rfl rfl (vm_m ..) (by decide)
    (by rw [at2B _ (vm_m ..)]; simp [-BitVec.getLsbD_eq_getElem, decodeInkw, vm_d, vm_a, vm_b, vm_k, vm_f, vm_n, vm_d_low, vm_a_low, vm_f_2, vm_f_0, vm_x])

theorem winit (p : Option Pfx) (d a : BitVec 5) (c : Bool) (m k : BitVec 3) : Statement (.winit p d a c m k) := by
  exact vector (p := p) (m := 0x2B#6) rfl rfl (vm_m ..) (by decide)
    (by rw [at2B _ (vm_m ..)]; simp [-BitVec.getLsbD_eq_getElem, decodeInkw, vm_d, vm_a, vm_b, vm_k, vm_f, vm_n, vm_d_low, vm_a_low, vm_f_2, vm_f_0, vm_x])

theorem wdep (p : Option Pfx) (d a : BitVec 5) (c : Bool) (m k : BitVec 3) : Statement (.wdep p d a c m k) := by
  exact vector (p := p) (m := 0x2B#6) rfl rfl (vm_m ..) (by decide)
    (by rw [at2B _ (vm_m ..)]; simp [-BitVec.getLsbD_eq_getElem, decodeInkw, vm_d, vm_a, vm_b, vm_k, vm_f, vm_n, vm_d_low, vm_a_low, vm_f_2, vm_f_0, vm_x])

theorem wdepx (p : Option Pfx) (d a b : BitVec 5) (c : Bool) (m k : BitVec 3) : Statement (.wdepx p d a b c m k) := by
  exact vector (p := p) (m := 0x2B#6) rfl rfl (vm_m ..) (by decide)
    (by rw [at2B _ (vm_m ..)]; simp [-BitVec.getLsbD_eq_getElem, decodeInkw, vm_d, vm_a, vm_b, vm_k, vm_f, vm_n, vm_d_low, vm_a_low, vm_f_2, vm_f_0, vm_x])

theorem wread (p : Option Pfx) (d a : BitVec 5) (m k : BitVec 3) : Statement (.wread p d a m k) := by
  exact vector (p := p) (m := 0x2B#6) rfl rfl (vm_m ..) (by decide)
    (by rw [at2B _ (vm_m ..)]; simp [-BitVec.getLsbD_eq_getElem, decodeInkw, vm_d, vm_a, vm_b, vm_k, vm_f, vm_n, vm_d_low, vm_a_low, vm_f_2, vm_f_0, vm_x])

theorem wdrain (p : Option Pfx) (d a : BitVec 5) (m k : BitVec 3) : Statement (.wdrain p d a m k) := by
  exact vector (p := p) (m := 0x2B#6) rfl rfl (vm_m ..) (by decide)
    (by rw [at2B _ (vm_m ..)]; simp [-BitVec.getLsbD_eq_getElem, decodeInkw, vm_d, vm_a, vm_b, vm_k, vm_f, vm_n, vm_d_low, vm_a_low, vm_f_2, vm_f_0, vm_x])

theorem olgath (p : Option Pfx) (d : BitVec 1) (a b : BitVec 5) (y : Bool) (m : BitVec 3) : Statement (.olgath p d a b y m) := by
  exact vector (p := p) (m := 0x2C#6) rfl rfl (vr_m ..) (by decide)
    (by rw [at2C _ (vr_m ..)]; simp [-BitVec.getLsbD_eq_getElem, decodeMat, vr_d, vr_a, vr_b, vr_k, vr_f, vr_d_low, vr_a_low, vr_b_low, vr_x, vr_y, widened_1, widened_2, widened_3, widened_4])

theorem zrank (p : Option Pfx) (d : BitVec 2) (a b : BitVec 5) (x y : Bool) (m : BitVec 3) : Statement (.zrank p d a b x y m) := by
  exact vector (p := p) (m := 0x2C#6) rfl rfl (vr_m ..) (by decide)
    (by rw [at2C _ (vr_m ..)]; simp [-BitVec.getLsbD_eq_getElem, decodeMat, vr_d, vr_a, vr_b, vr_k, vr_f, vr_d_low, vr_a_low, vr_b_low, vr_x, vr_y, widened_1, widened_2, widened_3, widened_4])

theorem mblk (p : Option Pfx) (d : BitVec 2) (b : BitVec 5) : Statement (.mblk p d b) := by
  exact vector (p := p) (m := 0x2C#6) rfl rfl (vr_m ..) (by decide)
    (by rw [at2C _ (vr_m ..)]; simp [-BitVec.getLsbD_eq_getElem, decodeMat, vr_d, vr_a, vr_b, vr_k, vr_f, vr_d_low, vr_a_low, vr_b_low, vr_x, vr_y, widened_1, widened_2, widened_3, widened_4])

theorem zzero (p : Option Pfx) (d : BitVec 2) : Statement (.zzero p d) := by
  exact vector (p := p) (m := 0x2C#6) rfl rfl (vr_m ..) (by decide)
    (by rw [at2C _ (vr_m ..)]; simp [-BitVec.getLsbD_eq_getElem, decodeMat, vr_d, vr_a, vr_b, vr_k, vr_f, vr_d_low, vr_a_low, vr_b_low, vr_x, vr_y, widened_1, widened_2, widened_3, widened_4])

theorem zread (p : Option Pfx) (d : BitVec 5) (a : BitVec 2) (b : BitVec 5) (m : BitVec 3) : Statement (.zread p d a b m) := by
  exact vector (p := p) (m := 0x2C#6) rfl rfl (vr_m ..) (by decide)
    (by rw [at2C _ (vr_m ..)]; simp [-BitVec.getLsbD_eq_getElem, decodeMat, vr_d, vr_a, vr_b, vr_k, vr_f, vr_d_low, vr_a_low, vr_b_low, vr_x, vr_y, widened_1, widened_2, widened_3, widened_4])

theorem zwrite (p : Option Pfx) (d : BitVec 2) (a b : BitVec 5) (x : Bool) (m : BitVec 3) : Statement (.zwrite p d a b x m) := by
  exact vector (p := p) (m := 0x2C#6) rfl rfl (vr_m ..) (by decide)
    (by rw [at2C _ (vr_m ..)]; simp [-BitVec.getLsbD_eq_getElem, decodeMat, vr_d, vr_a, vr_b, vr_k, vr_f, vr_d_low, vr_a_low, vr_b_low, vr_x, vr_y, widened_1, widened_2, widened_3, widened_4])

theorem zdep (p : Pfx) (d : BitVec 5) (a : BitVec 2) (b : BitVec 5) (m : BitVec 3) : Statement (.zdep p d a b m) := by
  exact vector (p := some p) (m := 0x2C#6) rfl rfl (vr_m ..) (by decide)
    (by rw [at2C _ (vr_m ..)]; simp [-BitVec.getLsbD_eq_getElem, decodeMat, vr_d, vr_a, vr_b, vr_k, vr_f, vr_d_low, vr_a_low, vr_b_low, vr_x, vr_y, widened_1, widened_2, widened_3, widened_4])

theorem zdim (p : Option Pfx) (d : BitVec 5) : Statement (.zdim p d) := by
  exact vector (p := p) (m := 0x2C#6) rfl rfl (vr_m ..) (by decide)
    (by rw [at2C _ (vr_m ..)]; simp [-BitVec.getLsbD_eq_getElem, decodeMat, vr_d, vr_a, vr_b, vr_k, vr_f, vr_d_low, vr_a_low, vr_b_low, vr_x, vr_y])

theorem copy (a : BitVec 5) (s : BitVec 3) (q l : Bool) (k : BitVec 3) : Statement (.copy a s q l k) := by
  exact scalar (m := 0x2D#6) rfl rfl (sr_m ..) (by decide)
    (by rw [at2D _ (sr_m ..)]; simp [-BitVec.getLsbD_eq_getElem, decodeEng, sr_d, sr_a, sr_b, sr_low, sr_bit, sr_b_low, BitVec.getLsbD_ofBool, highBit_3_1, highBit_3_2, highBit_4_1, highBit_5_3, highBit_8_3, high_3_1, high_3_2, high_4_1, high_5_3, high_8_3, lowBit_3_1, lowBit_3_2, lowBit_4_1, lowBit_5_3, lowBit_8_3, low_3_1, low_3_2, low_4_1, low_5_3, low_8_3])

theorem coll (a b : BitVec 5) (s : BitVec 3) (q l : Bool) (k : BitVec 3) : Statement (.coll a b s q l k) := by
  exact scalar (m := 0x2D#6) rfl rfl (sr_m ..) (by decide)
    (by rw [at2D _ (sr_m ..)]; simp [-BitVec.getLsbD_eq_getElem, decodeEng, sr_d, sr_a, sr_b, sr_low, sr_bit, sr_b_low, BitVec.getLsbD_ofBool, highBit_3_1, highBit_3_2, highBit_4_1, highBit_5_3, highBit_8_3, high_3_1, high_3_2, high_4_1, high_5_3, high_8_3, lowBit_3_1, lowBit_3_2, lowBit_4_1, lowBit_5_3, lowBit_8_3, low_3_1, low_3_2, low_4_1, low_5_3, low_8_3])

theorem flight (a b : BitVec 5) (s : BitVec 3) (q l : Bool) (k : BitVec 3) : Statement (.flight a b s q l k) := by
  exact scalar (m := 0x2D#6) rfl rfl (sr_m ..) (by decide)
    (by rw [at2D _ (sr_m ..)]; simp [-BitVec.getLsbD_eq_getElem, decodeEng, sr_d, sr_a, sr_b, sr_low, sr_bit, sr_b_low, BitVec.getLsbD_ofBool, highBit_3_1, highBit_3_2, highBit_4_1, highBit_5_3, highBit_8_3, high_3_1, high_3_2, high_4_1, high_5_3, high_8_3, lowBit_3_1, lowBit_3_2, lowBit_4_1, lowBit_5_3, lowBit_8_3, low_3_1, low_3_2, low_4_1, low_5_3, low_8_3])

theorem ixg (a : BitVec 5) (s : BitVec 3) (q l : Bool) (k : BitVec 3) : Statement (.ixg a s q l k) := by
  exact scalar (m := 0x2D#6) rfl rfl (sr_m ..) (by decide)
    (by rw [at2D _ (sr_m ..)]; simp [-BitVec.getLsbD_eq_getElem, decodeEng, sr_d, sr_a, sr_b, sr_low, sr_bit, sr_b_low, BitVec.getLsbD_ofBool, highBit_3_1, highBit_3_2, highBit_4_1, highBit_5_3, highBit_8_3, high_3_1, high_3_2, high_4_1, high_5_3, high_8_3, lowBit_3_1, lowBit_3_2, lowBit_4_1, lowBit_5_3, lowBit_8_3, low_3_1, low_3_2, low_4_1, low_5_3, low_8_3])

theorem rowin (d a b : BitVec 5) (s k : BitVec 3) : Statement (.rowin d a b s k) := by
  exact scalar (m := 0x2D#6) rfl rfl (sr_m ..) (by decide)
    (by rw [at2D _ (sr_m ..)]; simp [-BitVec.getLsbD_eq_getElem, decodeEng, sr_d, sr_a, sr_b, sr_low, sr_bit, sr_b_low, highBit_3_1, highBit_3_2, highBit_4_1, highBit_5_3, highBit_8_3, high_3_1, high_3_2, high_4_1, high_5_3, high_8_3, lowBit_3_1, lowBit_3_2, lowBit_4_1, lowBit_5_3, lowBit_8_3, low_3_1, low_3_2, low_4_1, low_5_3, low_8_3])

theorem rowout (a : BitVec 5) : Statement (.rowout a) := by
  exact scalar (m := 0x2D#6) rfl rfl (sr_m ..) (by decide)
    (by rw [at2D _ (sr_m ..)]; simp [-BitVec.getLsbD_eq_getElem, decodeEng, sr_d, sr_a, sr_b, sr_low, sr_bit, sr_b_low])

theorem storeErrorResponse (i : Nat) : Statement (.storeErrorResponse i) := fun _ h => nomatch h

theorem storeErrorTrap : Statement .storeErrorTrap := fun _ h => nomatch h

theorem vectorMemoryCompletion (i : Nat) : Statement (.vectorMemoryCompletion i) := fun _ h => nomatch h

theorem tailUnitAppend (page : Word) (esize : Nat) (data : List Byte) : Statement (.tailUnitAppend page esize data) := fun _ h => nomatch h

theorem sealRequest (page : Word) : Statement (.sealRequest page) := fun _ h => nomatch h

theorem sealingComplete (page : Word) : Statement (.sealingComplete page) := fun _ h => nomatch h

theorem wellLineStep (line : Word) : Statement (.wellLineStep line) := fun _ h => nomatch h

theorem wellLineFill (line : Word) (bad : Bool) : Statement (.wellLineFill line bad) := fun _ h => nomatch h

theorem wellLineEvict (line : Word) : Statement (.wellLineEvict line) := fun _ h => nomatch h

theorem wellLineWriteback (line : Word) (ok : Bool) : Statement (.wellLineWriteback line ok) := fun _ h => nomatch h

theorem inkPageFree (page : Word) : Statement (.inkPageFree page) := fun _ h => nomatch h

theorem inkFreeDrainDone (page : Word) : Statement (.inkFreeDrainDone page) := fun _ h => nomatch h

theorem replicaCreate (page : Word) (hall : BitVec 4) : Statement (.replicaCreate page hall) := fun _ h => nomatch h

theorem replicaCopyDone (page : Word) (hall : BitVec 4) : Statement (.replicaCopyDone page hall) := fun _ h => nomatch h

theorem replicaReclaim (page : Word) (hall : BitVec 4) : Statement (.replicaReclaim page hall) := fun _ h => nomatch h

theorem replicaReclaimDone (page : Word) (hall : BitVec 4) : Statement (.replicaReclaimDone page hall) := fun _ h => nomatch h

theorem engineCommandCompletion (i : Nat) : Statement (.engineCommandCompletion i) := fun _ h => nomatch h

theorem rowinFillDone (i : Nat) : Statement (.rowinFillDone i) := fun _ h => nomatch h

theorem waitEntryFire (pa : Word) : Statement (.waitEntryFire pa) := fun _ h => nomatch h

theorem landingTrigger (hall : BitVec 4) (n : BitVec 6) : Statement (.landingTrigger hall n) := fun _ h => nomatch h

theorem landingAction (hall : BitVec 4) (n : BitVec 6) : Statement (.landingAction hall n) := fun _ h => nomatch h

theorem barrierWaitEnd : Statement .barrierWaitEnd := fun _ h => nomatch h

theorem kwaitEnd : Statement .kwaitEnd := fun _ h => nomatch h

theorem waitanyEnd : Statement .waitanyEnd := fun _ h => nomatch h

theorem wfiWake : Statement .wfiWake := fun _ h => nomatch h

theorem phaseComplete (vf : BitVec 10) (serial : BitVec 32) : Statement (.phaseComplete vf serial) := fun _ h => nomatch h

theorem pauseExpiry : Statement .pauseExpiry := fun _ h => nomatch h

theorem unitKill (vf : BitVec 10) (serial : BitVec 32) (unit : Nat) : Statement (.unitKill vf serial unit) := fun _ h => nomatch h

theorem dispatcherStep (hall : BitVec 4) : Statement (.dispatcherStep hall) := fun _ h => nomatch h

theorem preemptionTimeout (vf : BitVec 10) (serial : BitVec 32) (group : Nat) : Statement (.preemptionTimeout vf serial group) := fun _ h => nomatch h

theorem launchAdmission (vf : BitVec 10) (q : BitVec 7) : Statement (.launchAdmission vf q) := fun _ h => nomatch h

theorem launchCompletion (vf : BitVec 10) (serial : BitVec 32) : Statement (.launchCompletion vf serial) := fun _ h => nomatch h

theorem ageBoost (vf : BitVec 10) (q : BitVec 7) : Statement (.ageBoost vf q) := fun _ h => nomatch h

theorem qptrTailWrite (vf : BitVec 10) (q : BitVec 7) (tail : BitVec 32) : Statement (.qptrTailWrite vf q tail) := fun _ h => nomatch h

theorem qcfgWrite (vf : BitVec 10) (q : BitVec 7) (value : Word) : Statement (.qcfgWrite vf q value) := fun _ h => nomatch h

theorem contextSave (vf : BitVec 10) (serial : BitVec 32) (group : Nat) : Statement (.contextSave vf serial group) := fun _ h => nomatch h

theorem resumption (vf : BitVec 10) (serial : BitVec 32) (group : Nat) (hall : BitVec 4) (cluster : BitVec 5) : Statement (.resumption vf serial group hall cluster) := fun _ h => nomatch h

theorem faultRunAheadStop (stop : BitVec 4) : Statement (.faultRunAheadStop stop) := fun _ h => nomatch h

theorem spanPositionLost (pos : BitVec 3) : Statement (.spanPositionLost pos) := fun _ h => nomatch h

theorem lanePoolCapWrite (hall : BitVec 4) (cluster : BitVec 5) (cap : BitVec 8) : Statement (.lanePoolCapWrite hall cluster cap) := fun _ h => nomatch h

theorem trfctlClear (hall : BitVec 4) : Statement (.trfctlClear hall) := fun _ h => nomatch h

theorem trfctlFreeze (hall : BitVec 4) (on : Bool) : Statement (.trfctlFreeze hall on) := fun _ h => nomatch h

theorem fqrespRetry (hall : BitVec 4) (token : BitVec 32) : Statement (.fqrespRetry hall token) := fun _ h => nomatch h

theorem fqrespForward (hall : BitVec 4) (token : BitVec 32) : Statement (.fqrespForward hall token) := fun _ h => nomatch h

theorem fqrespComplete (hall : BitVec 4) (token : BitVec 32) : Statement (.fqrespComplete hall token) := fun _ h => nomatch h

theorem shootctlGo (hall : BitVec 4) (kind : BitVec 2) (vf : BitVec 10) : Statement (.shootctlGo hall kind vf) := fun _ h => nomatch h

theorem shootdownDone (hall : BitVec 4) : Statement (.shootdownDone hall) := fun _ h => nomatch h

theorem hownWrite (hall : BitVec 4) (tenant : BitVec 16) : Statement (.hownWrite hall tenant) := fun _ h => nomatch h

theorem hallWarmReset (hall : BitVec 4) : Statement (.hallWarmReset hall) := fun _ h => nomatch h

theorem hallForcedReset (hall : BitVec 4) : Statement (.hallForcedReset hall) := fun _ h => nomatch h

theorem hallRelease (hall : BitVec 4) : Statement (.hallRelease hall) := fun _ h => nomatch h

theorem hallFence (hall : BitVec 4) (cause : BitVec 4) : Statement (.hallFence hall cause) := fun _ h => nomatch h

theorem hallHangTimeout (hall : BitVec 4) : Statement (.hallHangTimeout hall) := fun _ h => nomatch h

theorem gwctlWrite (hall : BitVec 4) (i : BitVec 5) (value : Word) : Statement (.gwctlWrite hall i value) := fun _ h => nomatch h

theorem galleryRevokeDrainDone (hall : BitVec 4) (i : BitVec 5) : Statement (.galleryRevokeDrainDone hall i) := fun _ h => nomatch h

theorem violationLogClear (hall : BitVec 4) : Statement (.violationLogClear hall) := fun _ h => nomatch h

theorem vfReset (vf : BitVec 10) : Statement (.vfReset vf) := fun _ h => nomatch h

theorem vfResetFlitTimeout (vf : BitVec 10) (i : Nat) : Statement (.vfResetFlitTimeout vf i) := fun _ h => nomatch h

theorem vfResetComplete (vf : BitVec 10) : Statement (.vfResetComplete vf) := fun _ h => nomatch h

theorem vfvcapWrite (vf : BitVec 10) (value : Word) : Statement (.vfvcapWrite vf value) := fun _ h => nomatch h

theorem portcfgGuarWrite (hall : BitVec 4) (port : BitVec 4) (guar : BitVec 4) : Statement (.portcfgGuarWrite hall port guar) := fun _ h => nomatch h

theorem hostPortTrain (port : BitVec 2) (mode : BitVec 2) (gen : BitVec 4) (width : BitVec 8) (cache mem : Bool) : Statement (.hostPortTrain port mode gen width cache mem) := fun _ h => nomatch h

theorem hostPortDown (port : BitVec 2) : Statement (.hostPortDown port) := fun _ h => nomatch h

theorem hostSnoop (pa : Word) (invalidate : Bool) : Statement (.hostSnoop pa invalidate) := fun _ h => nomatch h

theorem hostCxlMemRequest (port : BitVec 2) (addr : Word) (wdata : Option Word) : Statement (.hostCxlMemRequest port addr wdata) := fun _ h => nomatch h

theorem collArming (i : Nat) : Statement (.collArming i) := fun _ h => nomatch h

theorem splitFlit (i : Nat) : Statement (.splitFlit i) := fun _ h => nomatch h

theorem abortFlit (i : Nat) (cause : BitVec 4) : Statement (.abortFlit i cause) := fun _ h => nomatch h

theorem rruContribution (i : Nat) (rank elem : Nat) : Statement (.rruContribution i rank elem) := fun _ h => nomatch h

theorem flightTransfer (i ordinal : Nat) : Statement (.flightTransfer i ordinal) := fun _ h => nomatch h

theorem pathWeightMeasure (die : BitVec 3) : Statement (.pathWeightMeasure die) := fun _ h => nomatch h

theorem wavelengthDark (die w : BitVec 3) : Statement (.wavelengthDark die w) := fun _ h => nomatch h

theorem relayEstablished (src dst : BitVec 3) : Statement (.relayEstablished src dst) := fun _ h => nomatch h

theorem pathLost (src dst : BitVec 3) : Statement (.pathLost src dst) := fun _ h => nomatch h

theorem wavelengthRelit (die w : BitVec 3) : Statement (.wavelengthRelit die w) := fun _ h => nomatch h

theorem ixgRemoteRowRequest (i row : Nat) : Statement (.ixgRemoteRowRequest i row) := fun _ h => nomatch h

theorem extPortTrain (hall : BitVec 4) (port : BitVec 4) (width : BitVec 4) (chip : BitVec 12) (peer : PeerPort) (tenant : BitVec 16) : Statement (.extPortTrain hall port width chip peer tenant) := fun _ h => nomatch h

theorem extFlitReceive (hall : BitVec 4) (port : BitVec 4) (seq : BitVec 48) (slot : Bool) (type : BitVec 8) (tagOk : Bool) : Statement (.extFlitReceive hall port seq slot type tagOk) := fun _ h => nomatch h

theorem nakReceived (hall : BitVec 4) (port : BitVec 4) (seq : BitVec 48) : Statement (.nakReceived hall port seq) := fun _ h => nomatch h

theorem ackReceived (hall : BitVec 4) (port : BitVec 4) (seq : BitVec 48) : Statement (.ackReceived hall port seq) := fun _ h => nomatch h

theorem portRetrain (hall : BitVec 4) (port : BitVec 4) : Statement (.portRetrain hall port) := fun _ h => nomatch h

theorem retrainTimeout (hall : BitVec 4) (port : BitVec 4) : Statement (.retrainTimeout hall port) := fun _ h => nomatch h

theorem epkctlSwitch (hall : BitVec 4) (port : BitVec 4) : Statement (.epkctlSwitch hall port) := fun _ h => nomatch h

theorem keyLow (hall : BitVec 4) (port : BitVec 4) : Statement (.keyLow hall port) := fun _ h => nomatch h

theorem keyExhausted (hall : BitVec 4) (port : BitVec 4) : Statement (.keyExhausted hall port) := fun _ h => nomatch h

theorem keyExhaustedTimeout (hall : BitVec 4) (port : BitVec 4) : Statement (.keyExhaustedTimeout hall port) := fun _ h => nomatch h

theorem fabricPacketForward (hall : BitVec 4) (chip : BitVec 12) (hops line : Nat) : Statement (.fabricPacketForward hall chip hops line) := fun _ h => nomatch h

theorem ptpTimeFlit (offset : Int) : Statement (.ptpTimeFlit offset) := fun _ h => nomatch h

theorem lrsetWrite (hall : BitVec 4) (cluster : BitVec 5) (high : Bool) (lanes : Word) : Statement (.lrsetWrite hall cluster high lanes) := fun _ h => nomatch h

theorem mpsetWrite (hall : BitVec 4) (cluster : BitVec 5) (quarters : BitVec 4) : Statement (.mpsetWrite hall cluster quarters) := fun _ h => nomatch h

theorem scrubLine (hall : BitVec 4) (tier2 : Bool) (line : Nat) (corrected uncorrectable : Bool) : Statement (.scrubLine hall tier2 line corrected uncorrectable) := fun _ h => nomatch h

theorem scrubPauseEnd (hall : BitVec 4) : Statement (.scrubPauseEnd hall) := fun _ h => nomatch h

theorem memoryUncorrectableError (pa : Word) (src : BitVec 8) (synd : Word) : Statement (.memoryUncorrectableError pa src synd) := fun _ h => nomatch h

theorem registerUncorrectableError (latch : Option (BitVec 1)) : Statement (.registerUncorrectableError latch) := fun _ h => nomatch h

theorem errorLogClear (hall : BitVec 4) : Statement (.errorLogClear hall) := fun _ h => nomatch h

theorem attestationGo (vf : BitVec 10) : Statement (.attestationGo vf) := fun _ h => nomatch h

theorem attestationReportDone (vf : BitVec 10) : Statement (.attestationReportDone vf) := fun _ h => nomatch h

theorem keyRecord (bytes : List Byte) : Statement (.keyRecord bytes) := fun _ h => nomatch h

theorem powerOn : Statement .powerOn := fun _ h => nomatch h

theorem powerCapAdjust (hall : BitVec 4) (pwr : BitVec 16) (tj : BitVec 8) : Statement (.powerCapAdjust hall pwr tj) := fun _ h => nomatch h

theorem thermalTrip (hall : BitVec 4) : Statement (.thermalTrip hall) := fun _ h => nomatch h

theorem hctlStop (hall : BitVec 4) (cluster : BitVec 5) (hart : BitVec 3) : Statement (.hctlStop hall cluster hart) := fun _ h => nomatch h

theorem hctlRun (hall : BitVec 4) (cluster : BitVec 5) (hart : BitVec 3) : Statement (.hctlRun hall cluster hart) := fun _ h => nomatch h

theorem hctlRecov (hall : BitVec 4) (cluster : BitVec 5) (on : Bool) : Statement (.hctlRecov hall cluster on) := fun _ h => nomatch h

theorem censusWrite (pa value : Word) : Statement (.censusWrite pa value) := fun _ h => nomatch h

theorem registerWrite (pa value : Word) (mode : BitVec 2) (vf : BitVec 10) : Statement (.registerWrite pa value mode vf) := fun _ h => nomatch h

theorem illegalInstruction (word pfxWord : IWord) : Statement (.illegalInstruction word pfxWord) := fun _ h => nomatch h

theorem instructionFetchFault (code : BitVec 8) (va : Word) : Statement (.instructionFetchFault code va) := fun _ h => nomatch h

theorem postedWritePerformed (i : Nat) : Statement (.postedWritePerformed i) := fun _ h => nomatch h

theorem wellPageMap (page : Word) (wlf : Bool) : Statement (.wellPageMap page wlf) := fun _ h => nomatch h

theorem inkFrameMap (frame : Word) (vf : BitVec 10) : Statement (.inkFrameMap frame vf) := fun _ h => nomatch h

end

end Sys2Proof.Laws.ReadsBack
end

