-- ==== Sys2Proof/Tests/Slice0.lean ====
section
/-! SUPPORT. Slice0.lean: tests and witnesses. Expected values come from the manual: its words (given in hexadecimal there), its
worked examples, or its tables worked by hand; each test names its source. -/

namespace Sys2Proof.Tests

set_option maxRecDepth 100000
set_option Elab.async false

open Sys2Proof.Machine

/-! ## Ill-formed instructions (R57, R61, R67, R74, R108, R115, R133, R197) -/

/-- A prefix whose fields are all 0. -/
def p0 : Pfx := { c := 0#5, cv := false, type := 0#4, rnd := 0#3, mask := 0#3, mv := false, z := false, pv := false, sat := false }

/-- A VADD with a prefix. -/
def vaddWith (p : Pfx) : Instr := .vadd { pfx := some p, d := 1#5, a := 2#5, b := 3#5, ea := false, eb := false, msk := 0#3 }

theorem test_wf_plain : (vaddWith p0).wf = true := by decide
theorem test_wf_scope : (Instr.amoadd 1#5 2#5 3#5 6#3 false false false).wf = false := by decide
theorem test_wf_cas2_odd : (Instr.cas2 1#5 2#5 4#5 0#3 false false).wf = false := by decide
theorem test_wf_cas2_same : (Instr.cas2 4#5 2#5 4#5 0#3 false false).wf = false := by decide
theorem test_wf_fence_kind : (Instr.fence 0#3 false false).wf = false := by decide
theorem test_wf_counter : (Instr.krd 1#5 0#3).wf = false := by decide
theorem test_wf_pair : (Instr.waitany 3#5 1#5 2#5).wf = false := by decide
theorem test_wf_register_number : (Instr.srd 1#5 6#5 0#5).wf = false := by decide
theorem test_wf_tlbsh_kind : (Instr.tlbsh 1#5 2#5 4#5).wf = false := by decide
theorem test_wf_mask_destination :
    (Instr.vcmpeq { pfx := none, d := 0#3, a := 1#5, b := 2#5, ea := false, eb := false, msk := 0#3 }).wf = false := by decide
theorem test_wf_source_type : (Instr.vcvt none 1#5 2#5 15#4 false 0#3).wf = false := by decide
theorem test_wf_mask_sources : (Instr.mand none 1#3 0#3 2#3).wf = false := by decide
theorem test_wf_msbf : (Instr.msbf none 1#3 0#3 0#3).wf = false := by decide
theorem test_wf_mset : (Instr.mset none 0#3).wf = false := by decide
theorem test_wf_mpop : (Instr.mpop none 1#5 0#3 0#3).wf = false := by decide
theorem test_wf_olgath_pair : (Instr.olgath none 0#1 3#5 2#5 false 0#3).wf = false := by decide
theorem test_wf_event : Instr.powerOn.wf = false := by decide
theorem test_wf_prefix_fourth : (vaddWith { p0 with cv := true }).wf = false := by decide
theorem test_wf_prefix_fourth_register : (vaddWith { p0 with c := 1#5 }).wf = false := by decide
theorem test_wf_prefix_fourth_required : (Instr.vcvtef p0 1#5 2#5 12#4 false 0#3).wf = false := by decide
theorem test_wf_prefix_type : (Instr.vclaim (some { p0 with type := 1#4 }) 1#5 2#5 3#5).wf = false := by decide
theorem test_wf_prefix_rounding : (vaddWith { p0 with rnd := 1#3 }).wf = false := by decide
theorem test_wf_prefix_mask : (vaddWith { p0 with mask := 1#3 }).wf = false := by decide
theorem test_wf_prefix_mask_unused : (Instr.mblk (some { p0 with mv := true }) 0#2 1#5).wf = false := by decide
theorem test_wf_prefix_policy : (vaddWith { p0 with z := true }).wf = false := by decide
theorem test_wf_prefix_policy_unused : (Instr.vext (some { p0 with pv := true }) 1#5 2#5 3#5 false).wf = false := by decide

/-! ## Words (Tables 4.1, 4.4, 4.6; words in hexadecimal are the manual's own) -/

-- The listing of Table 4.11.
theorem test_word_add : decode none 0b000001_00101_00110_00111_00000000000#32 = .ok (.add 5#5 6#5 7#5) := by decide +kernel
theorem test_word_vldx : decode none 0b101000_00100_01000_01001_0_000_10_10_010#32
    = .ok (.vldx none 4#5 8#5 9#5 false 0#3 2#2 2#3) := by decide +kernel
theorem test_word_bne : decode none 0b010111_00101_00000_1111111111111010#32 = .ok (.bne 5#5 0#5 0xFFFA#16) := by decide +kernel
-- major 0x02, d 3, a 4, imm −1
theorem test_word_addi : decode none 0b000010_00011_00100_1111111111111111#32 = .ok (.addi 3#5 4#5 0xFFFF#16) := by decide +kernel
-- major 0x06, imm bits 15:14 = 2 (SRAI), amount 63
theorem test_word_srai : decode none 0b000110_00001_00010_10_00000000_111111#32 = .ok (.srai 1#5 2#5 63#6) := by decide +kernel
theorem test_word_shi_field : decode none 0b000110_00001_00010_10_00000001_111111#32 = .error .badField := by decide +kernel
-- major 0x0F (LDW), offset 8; major 0x15 (STD)
theorem test_word_ldw : decode none 0b001111_00111_01000_0000000000001000#32 = .ok (.ldw 7#5 8#5 8#16) := by decide +kernel
theorem test_word_std : decode none 0b010101_00101_01010_0000000000000000#32 = .ok (.std 5#5 10#5 0#16) := by decide +kernel
theorem test_word_jal : decode none 0b011100_11111111111111111111111111#32 = .ok (.jal 0x3FFFFFF#26) := by decide +kernel
theorem test_word_jalr : decode none 0b011101_00000_00001_0000000000000000#32 = .ok (.jalr 0#5 1#5 0#16) := by decide +kernel
-- fma.f32 g8, g9, g10 (R99)
theorem test_word_fma : decode none 0x79095005#32 = .ok (.fma 8#5 9#5 10#5 0#3 false) := by decide +kernel
-- major 0x1E, FSUB (1), FP64, rounding 2
theorem test_word_fsub : decode none 0b011110_00001_00010_00011_0_010_1_000001#32 = .ok (.fsub 1#5 2#5 3#5 2#3 true) := by decide +kernel
-- cas2.sys.acq.rel g8, (g12), g10 (R105)
theorem test_word_cas2 : decode none 0x7D0C55CB#32 = .ok (.cas2 8#5 12#5 10#5 5#3 true true) := by decide +kernel
-- swr g0, vmode, g5 (R112); tlbsh 2, g8, g9 (R339)
theorem test_word_swr : decode none 0x84051003#32 = .ok (.swr 0#5 5#5 2#5 0#5) := by decide +kernel
theorem test_word_tlbsh : decode none 0x85280089#32 = .ok (.tlbsh 9#5 8#5 2#5) := by decide +kernel
-- major 0x20, KSTAT (9), d 4, counter 3 in b
theorem test_word_kstat : decode none 0b100000_00100_00000_00011_00000_001001#32 = .ok (.kstat 4#5 3#3) := by decide +kernel
-- major 0x22, SETVL (2)
theorem test_word_setvl : decode none 0b100010_00101_00110_00000_0_0_000_000010#32 = .ok (.setvl none 5#5 6#5) := by decide +kernel
-- major 0x23, VSUB (1), eb set, mask m3
theorem test_word_vsub : decode none 0b100011_00001_00010_00011_0_1_011_000001#32
    = .ok (.vsub { pfx := none, d := 1#5, a := 2#5, b := 3#5, ea := false, eb := true, msk := 3#3 }) := by decide +kernel
-- the prefixed VFADD of Table 4.11
theorem test_word_vfadd : decode (some 0xF80C2180#32) 0x90221C80#32 = .ok (.vfadd
    { pfx := some { p0 with type := 12#4, rnd := 1#3, z := true, pv := true },
      d := 1#5, a := 2#5, b := 3#5, ea := true, eb := false, msk := 2#3 }) := by decide +kernel
-- major 0x25, VFTOI (2), source type 12 in b
theorem test_word_vftoi : decode none 0b100101_00001_00010_01100_0_0_000_000010#32 = .ok (.vftoi none 1#5 2#5 12#4 false 0#3) := by
  decide +kernel
-- major 0x26, VPERM (16); major 0x27, MANDN (3)
theorem test_word_vperm : decode none 0b100110_00001_00010_00011_0_0_000_010000#32
    = .ok (.vperm { pfx := none, d := 1#5, a := 2#5, b := 3#5, ea := false, eb := false, msk := 0#3 }) := by decide +kernel
theorem test_word_mandn : decode none 0b100111_00001_00010_00011_0_0_000_000011#32 = .ok (.mandn none 1#3 2#3 3#3) := by decide +kernel
-- major 0x29, mode 1 (strided), eew 3
theorem test_word_vsts : decode none 0b101001_00001_00010_00011_0_000_01_11_000#32
    = .ok (.vsts none 1#5 2#5 3#5 false 0#3 3#2 0#3) := by decide +kernel
-- vamoadd.n32 v6, (g3), v7, k1 and its fetch form with v8 (R162)
theorem test_word_vamoadd : decode (some 0xF8060000#32) 0xA8C33801#32 = .ok (.vamoadd
    { pfx := some { p0 with type := 6#4 }, d := 6#5, a := 3#5, b := 7#5, ch := false, msk := 0#3, k := 1#3 }) := by decide +kernel
theorem test_word_vamoadd_fetch : decode (some 0xF9160000#32) 0xA8C33801#32 = .ok (.vamoadd
    { pfx := some { p0 with c := 8#5, cv := true, type := 6#4 }, d := 6#5, a := 3#5, b := 7#5, ch := false, msk := 0#3, k := 1#3 }) := by
  decide +kernel
-- seal.pkg (g8), k1; inktail g11, (g8) (R166); vapnd.f32 v2, (g8), g9 (R166); winit v1, (g12) and wdep.f32 v3, (g12) (R169)
theorem test_word_seal : decode none 0xAC680009#32 = .ok (.sealPage none 3#3 8#5 1#3) := by decide +kernel
theorem test_word_inktail : decode none 0xAD680010#32 = .ok (.inktail none 11#5 8#5) := by decide +kernel
theorem test_word_vapnd : decode (some 0xF80C0000#32) 0xAC484800#32
    = .ok (.vapnd (some { p0 with type := 12#4 }) 2#5 8#5 9#5 false 0#3 0#3) := by decide +kernel
theorem test_word_winit : decode none 0xAC2C0018#32 = .ok (.winit none 1#5 12#5 false 0#3 0#3) := by decide +kernel
theorem test_word_wdep : decode (some 0xF80C0000#32) 0xAC6C0020#32
    = .ok (.wdep (some { p0 with type := 12#4 }) 3#5 12#5 false 0#3 0#3) := by decide +kernel
-- major 0x2C, MBLK (2): z1, the depth in g3
theorem test_word_mblk : decode none 0b101100_00001_00000_00011_0_0_000_000010#32 = .ok (.mblk none 1#2 3#5) := by decide +kernel
-- coll.pkg.acq.rel (g8), g9, k2 (R263)
theorem test_word_coll : decode none 0xB4084BD1#32 = .ok (.coll 8#5 9#5 3#3 true true 2#3) := by decide +kernel
theorem test_word_zero : decode none 0#32 = .error .reserved := by decide +kernel
theorem test_word_prefix_misplaced : decode (some 0xF8000000#32) 0x04A63800#32 = .error .misplacedPrefix := by decide +kernel
-- a row of the table: 32 bits, and 64 bits with the prefix first
theorem test_table_word : decodeTableWord 32 0x04A63800 = some (.add 5#5 6#5 7#5) := by decide +kernel


/-! ## Small states -/

/-- The outcome is a next state of which p holds. -/
def nextIs (r : Host.Outcome State Fault Refusal) (p : State → Bool) : Bool := match r with | .next t => p t | _ => false

/-- The result is ok, with a value of which p holds. -/
def okIs {ε α : Type} (r : Except ε α) (p : α → Bool) : Bool := match r with | .ok x => p x | .error _ => false

/-- The result is a trap or another failure of which p holds. -/
def errorIs {ε α : Type} (r : Except ε α) (p : ε → Bool) : Bool := match r with | .ok _ => false | .error e => p e

/-- There is a value, of which p holds. -/
def someIs {α : Type} (r : Option α) (p : α → Bool) : Bool := match r with | some x => p x | none => false

/-- The load found bytes; `late` and `trap` say how it failed otherwise. -/
def got (r : State × Got) (p : State → List Byte → Bool) : Bool := match r with | (u, .bytes l) => p u l | _ => false
@[inherit_doc got] def gotLate (r : State × Got) : Bool := match r with | (_, .late _) => true | _ => false
@[inherit_doc got] def gotTrap (r : State × Got) (p : Trap → Bool) : Bool := match r with | (_, .trap t) => p t | _ => false

/-- The checks of an access gave a place of which p holds. -/
def found (r : State × Except Trap (Option Xl)) (p : State → Xl → Bool) : Bool :=
  match r with | (u, .ok (some x)) => p u x | _ => false

/-- A program is loaded: VF 0 maps page 0 of its space, and a unit of it is on the hart in mode A at address 0. -/
def loaded : State := State.reset.placeWords 0#32 0#32

/-- The same with page 1 a WLF page, 2 a WLX page, 3 an ink page and 4 the registers of die 0 (Table 22.1). -/
def mapped : State :=
  (((loaded.putWord 0x16008 0x400006783#64).putWord 0x16010 0x400014783#64).putWord 0x16018 0x800002783#64).putWord 0x16020
    (BitVec.ofNat 64 (mkPa 0#12 0 5 0x800000 + 0x8783))

/-- The same with a claim of 8 lanes and the whole matrix share; VL is 1 and VMODE says N32. -/
def ready : State := mapped.onHart fun h =>
  { h with
    claim := some { ceiling := 8, grant := 8, share := 3#2, span := 0#2, dies := 0#8, places := [] }
    vl := 1, vlw := 32, vlmaxb := 512, vmode := 6#64 }

/-- With x in g[i]. -/
def withG (s : State) (i : BitVec 5) (x : Word) : State := s.setG i x

/-- In mode m. -/
def inMode (s : State) (m : Mode) : State := s.onHart fun h => { h with mode := m }

/-- With handlers of both trap sets at 0x1000 and 0x2000. -/
def handled (s : State) : State :=
  { s with pset := { s.pset with evec := 0x2000#64 }, hart := { s.hart with sset := { s.hart.sset with evec := 0x1000#64 } } }

/-! ## Witnesses: for each statement with hypotheses, states and operands that meet them -/

/-- The first word of ADD g5, g6, g7 is where the hart fetches; and a VADD with a prefix. -/
def atAdd : State := State.reset.placeWords 0x04A63800#32 0#32
@[inherit_doc atAdd] def atPrefixed : State := State.reset.placeWords 0xF80C2180#32 0x90221C80#32

theorem witness_DecodeEncode :
    (Instr.add 5#5 6#5 7#5).wf = true ∧ encode (.add 5#5 6#5 7#5) = some (none, 0x04A63800#32)
      ∧ decode none 0x04A63800#32 = .ok (.add 5#5 6#5 7#5) := by decide +kernel

/-- The hart runs an instruction. -/
def runsNext (s : State) : Bool :=
  !s.idle && s.doomed.isNone && s.ra.isNone && !s.rebuildDue && s.hart.wait.isNone && s.owedTrap.isNone

theorem runsNext_of {s : State} (h : runsNext s = true) : RunsNext s := by
  simp only [runsNext, Bool.and_eq_true, Bool.not_eq_true', Option.isNone_iff_eq_none] at h
  obtain ⟨⟨⟨⟨⟨a, b⟩, c⟩, d⟩, e⟩, f⟩ := h
  exact ⟨a, b, c, d, e, f⟩

theorem witness_StepRunsDecoded :
    let s := started atAdd
    atAdd.schedule.head?.all (· == .turn none) = true ∧ RunsNext s ∧ s.hart.spanLost = 0#8 ∧ s.hart.pc.toNat % 4 = 0
      ∧ canonical s.hart.pc = true
      ∧ okIs (s.hartXlate s.myHall .fetch s.hart.pc 4) (fun x => x.cls == .nrm && (s.refusal s.who s.myHall x.pa 4 false).isNone
          && !s.poisoned x.pa 4 && (alFind x.pa s.icache).isNone && BitVec.ofNat 32 (leNat (s.bytes x.pa 4)) == 0x04A63800#32) = true
      ∧ isPfx 0x04A63800#32 = false ∧ decode none 0x04A63800#32 = .ok (.add 5#5 6#5 7#5) :=
  ⟨by decide +kernel, runsNext_of (by decide +kernel), by decide +kernel⟩

/-- The prefixed VFADD; and the same with a die of its span lost. -/
theorem witness_StepRunsDecoded_prefixed :
    let s := started atPrefixed
    let lost (s : State) : State := s.onHart fun h => { h with spanLost := 2#8 }
    let isThere (s : State) : Bool := match s.fetch with
        | (u, .words (some p) w) =>
          p == 0xF80C2180#32 && w == 0x90221C80#32 && isVector w
            && okIs (decode (some p) w) fun i => nextIs (exec i (u.setIr (some p) w)) fun t => !(u.setIr (some p) w).illegalIn i t
        | _ => false
    atPrefixed.schedule.head?.all (· == .turn none) = true ∧ RunsNext s ∧ RunsNext (started (lost atPrefixed)) ∧ s.hart.spanLost = 0#8
      ∧ (started (lost atPrefixed)).hart.spanLost ≠ 0#8 ∧ isThere s = true ∧ isThere (started (lost atPrefixed)) = true :=
  ⟨by decide +kernel, runsNext_of (by decide +kernel), runsNext_of (by decide +kernel), by decide +kernel⟩

theorem witness_StepKeepsInv : loaded.Inv ∧ nextIs (step loaded) (fun _ => true) = true :=
  ⟨by unfold State.Inv TrapSet.Legal; decide +kernel, by decide +kernel⟩

/-- A trap with this code, EVAL 7. -/
def trapOf (n : Nat) : Trap := { code := n, eval := 7#64 }

/-- With BUSY of the S set, or of the P set. -/
def busyS (s : State) : State := s.onHart fun h => { h with sset := { h.sset with estat := 4#64 } }
@[inherit_doc busyS] def busyP (s : State) : State := { s with pset := { s.pset with estat := 4#64 } }

/-- A set is free for a trap: it names a handler and is not busy. -/
def freeFor (x : TrapSet) (t : Trap) : Bool := vectorOf x != 0#64 && (t.deferred || !x.estat.getLsbD 2)

/-- The trap is for the S set. -/
def forSet (s : State) (t : Trap) : Bool := s.hart.mode == .a || (s.hart.mode == .s && t.code != 22 && t.code != 23)

/-- To the S set from mode A and from mode S; to the P set with code 22 from mode S and from mode P; as code 24 where the S set is busy;
and a deferred one to a busy set. -/
theorem witness_TrapEntry :
    (let s := handled loaded; forSet s (trapOf 8) && freeFor s.hart.sset (trapOf 8)) = true
    ∧ (let s := inMode (handled loaded) .s; forSet s (trapOf 8) && freeFor s.hart.sset (trapOf 8)) = true
    ∧ (let s := inMode (handled loaded) .s; !forSet s (trapOf 22) && freeFor s.pset (trapOf 22)) = true
    ∧ (let s := inMode (handled loaded) .p; !forSet s (trapOf 8) && freeFor s.pset (trapOf 8)) = true
    ∧ (let s := busyS (handled loaded); forSet s (trapOf 8) && !freeFor s.hart.sset (trapOf 8) && freeFor s.pset (trapOf 8)) = true
    ∧ (let s := busyS (handled loaded); forSet s (trapOf 14) && freeFor s.hart.sset { trapOf 14 with deferred := true }) = true := by
  decide +kernel

/-- With no handler named, and with both sets busy, in mode A; a deferred trap where the S set names no handler and the P set is busy; in
mode P. -/
theorem witness_UndeliverableTrapStops :
    (vectorOf loaded.pset == 0#64 && forSet loaded (trapOf 8) && !freeFor loaded.hart.sset (trapOf 8)) = true
    ∧ (let s := busyP (busyS (handled loaded));
      forSet s (trapOf 8) && !freeFor s.hart.sset (trapOf 8) && s.pset.estat.getLsbD 2) = true
    ∧ (let s := (busyP (handled loaded)).onHart fun h => { h with sset := { h.sset with evec := 0#64 } };
      forSet s (trapOf 14) && !freeFor s.hart.sset { trapOf 14 with deferred := true } && s.pset.estat.getLsbD 2) = true
    ∧ (let s := inMode loaded .p; !freeFor s.pset (trapOf 8) && !forSet s (trapOf 8)) = true := by decide +kernel

theorem witness_TrapCalls :
    (let s := handled loaded; s.hart.mode = .a ∧ vectorOf s.hart.sset ≠ 0#64 ∧ s.hart.sset.estat.getLsbD 2 = false)
    ∧ (let s := inMode (handled loaded) .s; s.hart.mode ≠ .a ∧ vectorOf s.pset ≠ 0#64 ∧ s.pset.estat.getLsbD 2 = false) := by
  decide +kernel

/-- PREV is the mode itself, below it, and above it. -/
theorem witness_EretReturns :
    (let s := (inMode loaded .s).onHart fun h => { h with sset := { h.sset with estat := 5#64 } };
      s.hart.mode ≠ .a ∧ s.hart.sset.estat.toNat % 4 ≤ s.hart.mode.code)
    ∧ (let s := inMode loaded .p; s.hart.mode ≠ .a ∧ s.pset.estat.toNat % 4 ≤ s.hart.mode.code)
    ∧ (let s := (inMode loaded .s).onHart fun h => { h with sset := { h.sset with estat := 6#64 } };
      s.hart.mode ≠ .a ∧ s.hart.mode.code < s.hart.sset.estat.toNat % 4)
    ∧ loaded.hart.mode = .a := by decide +kernel

theorem witness_RegisterLogicAndShifts :
    1#5 ≠ 0#5 ∧ decode none (BitVec.ofNat 32 (0x04000000 + 1 * 2 ^ 11 + 25)) = .error .badField := by decide +kernel

/-- An access that the hypervisor has completed with this value. -/
def completed (s : State) : State := s.onHart fun h => { h with fq := .complete 5#64 }

/-- Page 5 is a DEV page of host memory behind port 0, which is up. -/
def hosted : State := { mapped.putWord 0x16028 (BitVec.ofNat 64 (mkPa 0#12 0 6 0 + 0x8783)) with
  hostPorts := put (w := 2) mapped.hostPorts 0#2 { HostPort.reset with mode := 1#2, gen := 6#4, width := 16#8 } }

/-- The checks of an access from the hart's own hall. -/
def checked (s : State) (k : Kind) (va : Word) (n : Nat) (ok : Accept) : Except Trap Xl := s.locate s.myHall k va n n ok

/-- `Lies` and `Serves`, where they can be evaluated: n bytes at va in an NRM page, at a home that serves them. -/
def servedAt (s : State) (k : Kind) (va : Word) (n : Nat) : Bool :=
  canonical va && decide (va.toNat % n = 0) && okIs (s.hartXlate s.myHall k va n) fun x =>
    x.cls == .nrm && (s.refusal s.who s.myHall x.pa n (k != .load)).isNone && !s.poisoned x.pa n
      && !(decide (paTarget x.pa < 4) && s.inkRefuses x.pa) && !s.pcieOnly x.pa

theorem served_of {s : State} {k : Kind} {va : Word} {n : Nat} (h : servedAt s k va n = true) :
    ∃ x, Lies s k va n x ∧ Serves s x.pa n (k != .load) ∧ s.pcieOnly x.pa = false := by
  revert h
  unfold servedAt okIs
  cases hx : s.hartXlate s.myHall k va n with
  | error e => simp
  | ok x =>
    intro h
    simp only [Bool.and_eq_true, decide_eq_true_eq, beq_iff_eq, Bool.not_eq_true', Option.isNone_iff_eq_none, Bool.and_eq_false_imp] at h
    obtain ⟨⟨h1, h2⟩, ⟨⟨⟨⟨h3, h4⟩, h5⟩, h6⟩, h7⟩⟩ := h
    exact ⟨x, ⟨h1, h2, hx, h3⟩, ⟨h4, h5, fun _ => h6⟩, h7⟩

/-- `Settled`, where it can be evaluated. -/
theorem settled_of {s : State} (h : (s.ra.isNone && s.hart.posted.isEmpty && s.hart.seq.isEmpty && s.hart.fq == .none) = true) : Settled s := by
  simp only [Bool.and_eq_true, Option.isNone_iff_eq_none, List.isEmpty_iff, beq_iff_eq] at h
  obtain ⟨⟨⟨h1, h2⟩, h3⟩, h4⟩ := h
  exact ⟨h1, h2, h3, fun w => by rw [h4]; exact FqAnswer.noConfusion⟩

/-- Page 3 is open, with a tail of 8 bytes. -/
def inked : State := ready.onInk 0x800000000 fun p => { p with st := .openPage, vf := 0#10, tail := 8 }

/-- A load that may read a window. -/
def loadWin (s : State) (va : Word) (n : Nat) : State × Got := s.loadFrom s.myHall true va n n loadClasses [n]

theorem witness_ScalarLoads :
    Settled mapped ∧ (∃ x, Lies mapped .load 0x108#64 8 x ∧ Serves mapped x.pa 8 false ∧ mapped.pcieOnly x.pa = false)
    ∧ (∃ x, Lies mapped .load 0x109#64 1 x ∧ Serves mapped x.pa 1 false ∧ mapped.pcieOnly x.pa = false)
    ∧ mapped.windowLine mapped.myHall 0x108#64 = none ∧ mapped.hart.fq = .none ∧ mapped.ra = none
    ∧ ([1, 2, 4, 8].all fun n => got (loadWin mapped 0x108#64 n) fun _ l => l.length == n) = true
    ∧ got (loadWin inked 0x30000#64 8) (fun _ _ => true) = true
    ∧ got (loadWin (inMode mapped .s) 0x40038#64 8) (fun _ _ => true) = true
    ∧ (completed mapped).hart.fq = .complete 5#64 :=
  ⟨settled_of (by decide +kernel), served_of (k := .load) (by decide +kernel), served_of (k := .load) (by decide +kernel), by decide +kernel⟩

theorem witness_LoadsFindMemory :
    mapped.ra = none ∧ mapped.hart.posted = [] ∧ mapped.windowLine mapped.myHall 0x100#64 = none
    ∧ okIs (checked mapped .load 0x100#64 8 loadClasses) (fun x => x.cls == .nrm
      && (mapped.refusal mapped.who mapped.myHall x.pa 8 false).isNone && !mapped.poisoned x.pa 8) = true := by decide +kernel

/-- To an NRM page, to registers, which take eight bytes, and to host memory, which takes any. -/
theorem witness_ScalarStores :
    Settled mapped ∧ (∃ x, Lies mapped .store 0x108#64 8 x ∧ Serves mapped x.pa 8 true ∧ mapped.pcieOnly x.pa = false)
    ∧ (∃ x, Lies mapped .store 0x109#64 1 x ∧ Serves mapped x.pa 1 true ∧ mapped.pcieOnly x.pa = false)
    ∧ mapped.hart.fq = .none ∧ mapped.ra = none ∧ mapped.hart.posted.length < 256 ∧ Memory.wf mapped.mem = true
    ∧ ([1, 2, 4, 8].all fun n => okIs (checked mapped .store 0x108#64 n storeClasses) (·.cls == .nrm)
        && okIs (mapped.storeAt 0x108#64 (leBytes n 0) storeClasses) fun _ => true) = true
    ∧ (let s := inMode mapped .s; okIs (checked s .store 0x40038#64 8 storeClasses) (fun x => x.cls == .dev
        && okIs ((s.keepXlate s.myHall 0x40038#64).devStore x.pa (leBytes 8 0)) fun _ => true)) = true
    ∧ ([1, 2, 4, 8].all fun n => okIs (checked hosted .store 0x50008#64 n storeClasses) (fun x => x.cls == .dev
        && okIs ((hosted.keepXlate hosted.myHall 0x50008#64).devStore x.pa (leBytes n 0)) fun _ => true)) = true
    ∧ (completed mapped).hart.fq = .complete 5#64 :=
  ⟨settled_of (by decide +kernel), served_of (k := .store) (by decide +kernel), served_of (k := .store) (by decide +kernel), by decide +kernel⟩

/-- Two stores are posted, to two lines; each is the only one to its line. -/
def posting : State := (mapped.post (storeRequest mapped 0x108#64 0x108 (leBytes 8 7))).post (storeRequest mapped 0x148#64 0x148 (leBytes 4 9))

/-- The invariant of a concrete state can be evaluated. -/
theorem inv_of (s : State) (h : Memory.wf s.mem = true ∧ s.pset.evec.extractLsb' 0 2 = 0#2 ∧ s.pset.ecause.extractLsb' 16 48 = 0#48
    ∧ s.pset.estat.extractLsb' 5 59 = 0#59) : s.Inv := h

theorem witness_PostedStoreLands :
    posting.Inv
    ∧ posting.hart.posted = [storeRequest mapped 0x108#64 0x108 (leBytes 8 7), storeRequest mapped 0x148#64 0x148 (leBytes 4 9)]
    ∧ (storeRequest mapped 0x108#64 0x108 (leBytes 8 7)).failed = false ∧ (storeRequest mapped 0x148#64 0x148 (leBytes 4 9)).pa = 0x148
    ∧ leBytes 8 7 ≠ []
    ∧ posting.refusal (some 0#10) posting.myHall 0x108 8 true = none ∧ posting.refusal (some 0#10) posting.myHall 0x148 4 true = none
    ∧ posting.inkRefuses 0x108 = false :=
  ⟨inv_of _ (by decide +kernel), by decide +kernel⟩

/-- g1 is not canonical; 0x101 is no multiple of 2, 4 or 8; page 1 is of wells, and page 3 of ink. -/
theorem witness_ScalarAccessChecks :
    mapped.hart.fq = .none ∧ mapped.hart.posted.length < 256 ∧ canonical (0x8000000000000000#64) = false
    ∧ canonical 0x101#64 = true ∧ 0x101 % 2 ≠ 0 ∧ 0x101 % 4 ≠ 0 ∧ 0x101 % 8 ≠ 0
    ∧ ([1, 2, 4, 8].all fun n => okIs (mapped.hartXlate mapped.myHall .load 0x10008#64 n) fun x => loadClasses x.cls == false) = true
    ∧ ([1, 2, 4, 8].all fun n => okIs (mapped.hartXlate mapped.myHall .store 0x30008#64 n) fun x => storeClasses x.cls == false) = true := by
  decide +kernel

/-- A scope and a release let the instruction go on. -/
def orderedIs (s : State) (sc : BitVec 3) (rel : Bool) (p : State → Bool) : Bool := okIs ((s.scoped sc).bind (·.releaseIf rel sc)) p

/-- W32 and doubleword atomics, with and without release; a CAS that misses, one that hits, and a CAS2 pair. -/
theorem witness_AtomicsReturnOld :
    ([false, true].all fun rel => orderedIs posting 4#3 rel fun s' =>
      [4, 8].all fun n => [false, true].all fun refused =>
        okIs (s'.atomicAt 0x108#64 n refused false fun m => some (m + 1)) fun r => someIs r.1 fun m => m == 7) = true
    ∧ orderedIs mapped 0#3 false (fun s' =>
        okIs (s'.atomicAt 0x108#64 8 true false fun m => if m = 1 then some 2 else none) (fun r => r.1 == some 0)
        && okIs (s'.atomicAt 0x108#64 8 true false fun m => if m = 0 then some 2 else none) (fun r => r.1 == some 0)
        && okIs (s'.atomicAt 0x110#64 16 false false fun _ => none) (fun r => r.1 == some 0)) = true := by decide +kernel

/-- On an aligned word, doubleword and pair of memory, with and without acquire and release, at TEN; CAS where the old value, 0, is that of
g2, and where it is not. -/
theorem witness_AtomicsComplete :
    let s := mapped.setG 1#5 0x100#64
    Settled s ∧ Scoped s 4#3 ∧ Memory.wf s.mem = true
    ∧ (∃ x, Lies s .rmw (s.g 1#5) 4 x ∧ Serves s x.pa 4 true ∧ s.pcieOnly x.pa = false)
    ∧ (∃ x, Lies s .rmw (s.g 1#5) 8 x ∧ Serves s x.pa 8 true ∧ s.pcieOnly x.pa = false)
    ∧ (∃ x, Lies s .rmw (s.g 1#5) 16 x ∧ Serves s x.pa 16 true ∧ s.pcieOnly x.pa = false)
    ∧ leNat (s.bytes 0x100 8) = 0 ∧ s.g 2#5 = 0#64 ∧ (s.setG 2#5 1#64).g 2#5 ≠ 0#64 :=
  ⟨settled_of (by decide +kernel), fun h => absurd h (by decide +kernel), by decide +kernel, served_of (k := .rmw) (by decide +kernel),
    served_of (k := .rmw) (by decide +kernel), served_of (k := .rmw) (by decide +kernel), by decide +kernel⟩

theorem witness_AtomicsUpdateMemory :
    mapped.Inv ∧ mapped.ra = none ∧ mapped.hart.posted = []
    ∧ ([4, 8, 16].all fun n => okIs (checked mapped .rmw 0x110#64 n onlyNrm) fun x =>
        (mapped.updateLate mapped.who mapped.myHall x.pa n true).isNone) = true :=
  ⟨inv_of _ (by decide +kernel), by decide +kernel⟩

theorem witness_OrderedAccesses :
    okIs (mapped.scoped 3#3) (fun s' => got (s'.loadFrom s'.myHall false 0x108#64 8 8 loadClasses [8]) (fun _ _ => true)
        && got (s'.loadFrom s'.myHall false 0x108#64 4 4 loadClasses [4]) fun _ _ => true) = true
    ∧ mapped.completed = none ∧ posting.completed = none ∧ posting.hart.posted.length < 256
    ∧ orderedIs posting 3#3 true (fun s' => s'.completed.isNone && okIs (s'.storeAt 0x108#64 (leBytes 8 0) storeClasses) (fun _ => true)
        && okIs (s'.storeAt 0x108#64 (leBytes 4 0) storeClasses) fun _ => true) = true
    ∧ posting.ra = none ∧ okIs (posting.scoped 3#3) (fun u =>
        okIs ((u.completeVecs fun o => decide (o.k = 2#3)).releaseIf true 3#3) fun _ => true) = true := by decide +kernel

/-- Two posted stores, performed by FENCE.PKG; one that failed, whose trap FENCE takes; nothing posted. -/
theorem witness_OrderedComplete :
    (let s := mapped.setG 1#5 0x100#64;
      Settled s ∧ Scoped s 3#3 ∧ Memory.wf s.mem = true
      ∧ (∃ x, Lies s .load (s.g 1#5) 4 x ∧ Serves s x.pa 4 false ∧ s.pcieOnly x.pa = false)
      ∧ (∃ x, Lies s .store (s.g 1#5) 8 x ∧ Serves s x.pa 8 true ∧ s.pcieOnly x.pa = false) ∧ s.hart.posted = [] ∧ s.hart.seq = [])
    ∧ posting.ra = none ∧ ((posting.settleScope (posting.scopeRun 3#3)).owedTrap.isNone && posting.hart.posted.length == 2) = true
    ∧ (let s := (handled posting).onHart fun h => { h with posted := h.posted.map fun p => { p with failed := true } };
      s.ra.isNone && someIs (s.settleScope (s.scopeRun 3#3)).owedTrap fun p => p.1.code == 14) = true :=
  ⟨⟨settled_of (by decide +kernel), fun h => absurd h (by decide +kernel), by decide +kernel, served_of (k := .load) (by decide +kernel),
    served_of (k := .store) (by decide +kernel), by decide +kernel⟩, by decide +kernel⟩

/-! ## Vectors -/

/-- `ready` with this type in VMODE, and VL elements. -/
def typed (t : BitVec 4) (vl : Nat) : State := ready.onHart fun h => { h with vmode := t.setWidth 64, vl := vl, vlw := typeWidth t }

/-- The checks of a vector instruction pass. -/
def vecOk (s : State) (ok : Bool) (dsts srcs : List VOpd) (cross : Bool) : Bool := ok && s.operandsOk dsts srcs cross && s.hart.claim.isSome && s.hart.cut.isNone

theorem vecOk_of {s : State} {ok : Bool} {d r : List VOpd} {x : Bool} (h : vecOk s ok d r x = true) : VecOk s ok d r x := by
  unfold VecOk
  simpa only [vecOk, Bool.and_eq_true, Option.isNone_iff_eq_none, and_assoc] using h

/-- Two sources and a destination of one width: integers, floats and the special functions' types; one source; none. -/
theorem witness_Elementwise :
    vecOk (typed 6#4 128) (isInt 6#4) [vreg 1#5 32] [vreg 2#5 32, vreg 3#5 32] false = true
    ∧ vecOk (typed 7#4 64) (isInt 7#4) [vreg 1#5 64] [vreg 1#5 64, vreg 1#5 64] false = true
    ∧ vecOk (typed 12#4 128) (arithFloat 12#4) [vreg 1#5 32] [vreg 2#5 32, vreg 3#5 32] false = true
    ∧ vecOk (typed 12#4 128) (specialFloat 12#4) [vreg 1#5 32] [vreg 2#5 32] false = true
    ∧ vecOk (typed 6#4 0) (anyType 6#4) [vreg 1#5 32] [] false = true
    ∧ (typed 6#4 0).vtype none = 6#4 ∧ (typed 6#4 0).ra = none := by decide +kernel

theorem witness_VectorIntegerArithmetic : VecOk ready (isInt (ready.vtype none)) [vreg 1#5 32] [vreg 2#5 32, vreg 3#5 32] false ∧ ready.ra = none :=
  ⟨vecOk_of (by decide +kernel), by decide +kernel⟩

theorem witness_VectorFloatArithmetic :
    VecOk (typed 12#4 3) (arithFloat ((typed 12#4 3).vtype none)) [vreg 1#5 32] [vreg 2#5 32, vreg 3#5 32] false
      ∧ VecOk (typed 12#4 3) (arithFloat ((typed 12#4 3).vtype none)) [vreg 1#5 32] [vreg 2#5 32] false ∧ (typed 12#4 3).ra = none :=
  ⟨vecOk_of (by decide +kernel), vecOk_of (by decide +kernel), by decide +kernel⟩

theorem witness_VectorCompares :
    VecOk ready (isInt (ready.vtype none)) [] [vreg 1#5 32, vreg 2#5 32] false
      ∧ VecOk (typed 12#4 3) (arithFloat ((typed 12#4 3).vtype none)) [] [vreg 1#5 32, vreg 2#5 32] false ∧ ready.ra = none :=
  ⟨vecOk_of (by decide +kernel), vecOk_of (by decide +kernel), by decide +kernel⟩

theorem witness_VectorMovesAndWidening :
    vecOk ready (anyType (ready.vtype none)) [vreg 1#5 32] [vreg 2#5 32] false = true
    ∧ vecOk ready (anyType (ready.vtype none)) [vreg 1#5 32] [] false = true
    ∧ vecOk ready (isInt (ready.vtype none)) [vreg 1#5 32] [] false = true
    ∧ vecOk ready (anyType (ready.vtype none)) [vreg 1#5 32] [vreg 2#5 32, vreg 3#5 32] false = true
    ∧ vecOk ready (anyType (ready.vtype none)) [] [vreg 2#5 32] false = true
    ∧ vecOk ready (narrowInt (ready.vtype none)) [⟨4#5, 2, 64⟩] [vreg 2#5 32, vreg 3#5 32] false = true
    ∧ ready.ra = none := by decide +kernel

/-- FP32 to FP16, the same types, and FP16 to FP64; FP32 to I64; N32 to FP32. -/
theorem witness_VectorSpecialAndConvert :
    vecOk (typed 12#4 3) (specialFloat ((typed 12#4 3).vtype none)) [vreg 1#5 32] [vreg 2#5 32] false = true
    ∧ vecOk (typed 10#4 3) (isFloat 12#4 && isFloat 10#4 && decide (typeWidth 12#4 ≤ 4 * typeWidth 10#4)) [⟨1#5, 1, 16⟩] [⟨2#5, 2, 32⟩] false = true
    ∧ vecOk (typed 12#4 3) (isFloat 12#4) [⟨1#5, 1, 32⟩] [⟨2#5, 1, 32⟩] false = true
    ∧ vecOk (typed 13#4 3) (isFloat 10#4 && isFloat 13#4 && decide (typeWidth 13#4 ≤ 4 * typeWidth 10#4)) [⟨4#5, 4, 64⟩] [⟨2#5, 1, 16⟩] false = true
    ∧ vecOk (typed 7#4 3) (isFloat 12#4 && isInt 7#4) [⟨4#5, 2, 64⟩] [⟨2#5, 1, 32⟩] false = true
    ∧ vecOk (typed 12#4 3) (isInt 6#4 && isFloat 12#4) [⟨4#5, 1, 32⟩] [⟨2#5, 1, 32⟩] false = true
    ∧ (typed 7#4 3).ra = none := by decide +kernel

theorem witness_VectorConvertErrorFree :
    let s := typed 10#4 3
    vecOk s (narrows 12#4 (s.vtype none) && ratioOk 32 16 && !(convOpd 4#5 32 16).overlaps (convOpd 1#5 16 32))
      [convOpd 1#5 16 32, convOpd 4#5 32 16] [convOpd 2#5 32 16] false = true ∧ s.ra = none := by decide +kernel

/-- With VSTART 0: two active elements, none active (the mask m1 is all zeros), and VL 0; with VSTART 1. -/
theorem witness_VectorReductions :
    vecOk (typed 6#4 2) (isInt 6#4) [vreg 1#5 32] [vreg 2#5 32, vreg 3#5 32] false = true
    ∧ vecOk (typed 12#4 2) (arithFloat 12#4) [vreg 1#5 32] [vreg 2#5 32, vreg 3#5 32] false = true
    ∧ vecOk (typed 6#4 0) (isInt 6#4) [vreg 1#5 32] [vreg 2#5 32, vreg 3#5 32] false = true
    ∧ (typed 6#4 2).hart.vstart = 0 ∧ (typed 6#4 2).ra = none
    ∧ activeBelow (typed 6#4 2) none 0#3 128 2 = [0, 1] ∧ activeBelow (typed 6#4 2) none 1#3 128 2 = []
    ∧ ((typed 6#4 2).setVstart 1).hart.vstart ≠ 0 := by decide +kernel

theorem witness_VectorScans :
    vecOk (typed 6#4 2) (isInt 6#4) [vreg 1#5 32] [vreg 2#5 32, vreg 3#5 32] false = true
    ∧ vecOk (typed 12#4 2) (arithFloat 12#4) [vreg 1#5 32] [vreg 2#5 32, vreg 3#5 32] false = true
    ∧ (typed 6#4 2).hart.vstart = 0 ∧ (typed 6#4 2).ra = none ∧ ((typed 6#4 2).setVstart 1).hart.vstart ≠ 0 := by decide +kernel

/-- A span of two positions of 128 elements each; VL is 256, and mask m1 holds all elements but the first. -/
def spanned : State :=
  let s := (typed 6#4 256).onHart fun h =>
    { h with
      claim := some { ceiling := 8, grant := 8, share := 0#2, span := 1#2, dies := 0#8, places := [] }
      m := put (w := 3) h.m 1#3 (BitVec.allOnes 131072) }
  (s.setMaskBit 1#3 128 0 false).setElem (vreg 3#5 32) 0 200

/-- Without a move between positions; and with one: VSLUP by 1 at element 128, VSLDN by 1 at 127, VPERM at 0, VREV at 0, VUNPACK and
VPACK under m1 at 128. VXCHG crosses and does not trap. -/
theorem witness_VectorMovesBetweenElements :
    vecOk ready (anyType (ready.vtype none)) [vreg 1#5 32] [vreg 2#5 32, vreg 3#5 32] true = true ∧ ready.positions = 1 ∧ ready.hart.vl = 1
    ∧ vecOk spanned (anyType (spanned.vtype none)) [vreg 1#5 32] [vreg 2#5 32, vreg 3#5 32] true = true ∧ spanned.ra = none
    ∧ spanned.perPos (vreg 1#5 32) = 128 ∧ spanned.hart.vstart = 0 ∧ spanned.hart.vl = 256 ∧ spanned.positions = 2
    ∧ ([0, 127, 128].all fun e => spanned.active (spanned.maskSel none 0#3) 128 e) = true
    ∧ 128 - 1 = 127 ∧ 127 / 128 ≠ 128 / 128 ∧ spanned.elem (vreg 3#5 32) 0 = 200 ∧ 200 / 128 ≠ 0 / 128 ∧ (256 - 1 - 0) / 128 ≠ 0 / 128
    ∧ spanned.active (spanned.maskSel none 1#3) 128 128 = true
    ∧ ((List.range 128).countP fun i => spanned.active (spanned.maskSel none 1#3) 128 i) = 127 := by decide +kernel

theorem witness_MaskInstructions :
    vecOk ready (anyType (ready.vtype none)) [] [vreg 2#5 32] false = true
    ∧ vecOk ready (isInt (ready.vtype none)) [vreg 2#5 32] [] false = true ∧ ready.ra = none := by decide +kernel

/-! ## Vector memory -/

theorem got_of {r : State × Got} {p : State → List Byte → Bool} (h : got r p = true) : ∃ u l, r = (u, .bytes l) ∧ p u l = true := by
  obtain ⟨u, g⟩ := r
  cases g <;> simp_all [got]

theorem found_of {r : State × Except Trap (Option Xl)} {p : State → Xl → Bool} (h : found r p = true) :
    ∃ u x, r = (u, .ok (some x)) ∧ p u x = true := by
  rcases r with ⟨u, _ | _ | x⟩ <;> simp_all [found]

/-- `ElementsLoaded`, where it can be evaluated. -/
def loadRun (sel : BitVec 3) (per : Nat) (zero : Bool) (o : VOpd) (n : Nat) (k : BitVec 3) (addr : Nat → Word) :
    List Nat → State × BitVec 4 → Option (State × BitVec 4)
  | [], p => some p
  | e :: l, p =>
    if p.1.active sel per e then
      match p.1.loadFrom (p.1.elemHall per e) true (addr e) n n nrmInk [n] with
      | (u, .bytes bs) => loadRun sel per zero o n k addr l (u.setElem o e (leNat bs), p.2)
      | (u, .late err) =>
        if k = 0#3 then none else loadRun sel per zero o n k addr l (failedElem u o e err, if p.2 = 0#4 then err.status else p.2)
      | _ => none
    else loadRun sel per zero o n k addr l (if zero then p.1.setElem o e 0 else p.1, p.2)

theorem loadRun_sound {s : State} {sel : BitVec 3} {per : Nat} {zero : Bool} {o : VOpd} {n : Nat} {k : BitVec 3} {addr : Nat → Word}
    (l : List Nat) : ∀ (p q : State × BitVec 4), loadRun sel per zero o n k addr l p = some q →
      ElementsLoaded s sel per zero o n k addr l p q := by
  induction l with
  | nil => intro p q h; simpa [loadRun, ElementsLoaded, eq_comm] using h
  | cons e l ih =>
    intro p q h
    simp only [loadRun] at h
    simp only [ElementsLoaded]
    split at h
    · rw [if_pos ‹_›]
      split at h
      · exact .inl ⟨_, _, ‹_›, ih _ _ h⟩
      · split at h
        · cases h
        · exact .inr ⟨‹_›, _, _, ‹_›, ih _ _ h⟩
      · cases h
    · rw [if_neg ‹_›]
      exact ih _ _ h

theorem loaded_of {s : State} {sel : BitVec 3} {per : Nat} {zero : Bool} {o : VOpd} {n : Nat} {k : BitVec 3} {addr : Nat → Word}
    {l : List Nat} {p : State × BitVec 4} (h : (loadRun sel per zero o n k addr l p).isSome = true) :
    ∃ q, ElementsLoaded s sel per zero o n k addr l p q := by
  obtain ⟨q, hq⟩ := Option.isSome_iff_exists.1 h
  exact ⟨q, loadRun_sound l p q hq⟩

/-- `ElementsPosted`, where it can be evaluated. -/
def postRun (sel : BitVec 3) (per n : Nat) (kind : Kind) (ok : Accept) (addr : Nat → Word) (mk : Nat → Xl → Payload) :
    List Nat → State × List Posted → Option (State × List Posted)
  | [], p => some p
  | e :: l, p =>
    if p.1.active sel per e then
      match p.1.reachWrite (p.1.elemHall per e) kind (addr e) n n ok with
      | (u, .ok (some x)) => postRun sel per n kind ok addr mk l (u, joinPosted p.2 { requestTo u (addr e) x.pa n (mk e x) with frm := u.elemHall per e })
      | _ => none
    else postRun sel per n kind ok addr mk l p

theorem postRun_sound {sel : BitVec 3} {per n : Nat} {kind : Kind} {ok : Accept} {addr : Nat → Word} {mk : Nat → Xl → Payload}
    (l : List Nat) : ∀ (p q : State × List Posted), postRun sel per n kind ok addr mk l p = some q →
      ElementsPosted sel per n kind ok addr mk l p q := by
  induction l with
  | nil => intro p q h; simpa [postRun, ElementsPosted, eq_comm] using h
  | cons e l ih =>
    intro p q h
    simp only [postRun] at h
    simp only [ElementsPosted]
    split at h
    · rw [if_pos ‹_›]
      split at h
      · exact ⟨_, _, ‹_›, ih _ _ h⟩
      · cases h
    · rw [if_neg ‹_›]
      exact ih _ _ h

theorem posted_of {sel : BitVec 3} {per n : Nat} {kind : Kind} {ok : Accept} {addr : Nat → Word} {mk : Nat → Xl → Payload}
    {l : List Nat} {p : State × List Posted} (h : (postRun sel per n kind ok addr mk l p).isSome = true) :
    ∃ q, ElementsPosted sel per n kind ok addr mk l p q := by
  obtain ⟨q, hq⟩ := Option.isSome_iff_exists.1 h
  exact ⟨q, postRun_sound l p q hq⟩

theorem okIs_of {ε α : Type} {r : Except ε α} {p : α → Bool} (h : okIs r p = true) : ∃ x, r = .ok x := by
  cases r <;> simp_all [okIs]

/-- `FirstIssues`, where it can be evaluated. -/
theorem firstIssues_of {s : State} {sel : BitVec 3} {per n : Nat} {kind : Kind} {ok : Accept} {addr : Nat → Word}
    (h : someIs (activeElems s sel per).head? (fun e => okIs (s.locate (s.elemHall per e) kind (addr e) n n ok) fun _ => true) = true) :
    FirstIssues s sel per n kind ok addr := by
  revert h
  unfold someIs okIs FirstIssues
  cases (activeElems s sel per).head? with
  | none => simp
  | some e =>
    cases hx : s.locate (s.elemHall per e) kind (addr e) n n ok with
    | error t => simp [hx]
    | ok x => exact fun _ => ⟨e, x, rfl, hx⟩

/-- Where a list of elements lies, by the translation of each. -/
def placeOf (s : State) (kind : Kind) (n : Nat) (addr : Nat → Word) (e : Nat) : Xl :=
  match s.hartXlate s.myHall kind (addr e) n with
  | .ok x => x
  | .error _ => ⟨0, .dev⟩

/-- `ElementsLie` at `placeOf`, where it can be evaluated. -/
def lieRun (s : State) (els : List Nat) (per : Nat) (kind : Kind) (n : Nat) (addr : Nat → Word) (write : Bool) : Bool :=
  (els.all fun e => canonical (addr e) && decide ((addr e).toNat % n = 0) && okIs (s.hartXlate s.myHall kind (addr e) n) fun x =>
      x.cls == .nrm && (s.refusal s.who s.myHall (x.pa / 64 * 64) 64 write).isNone && !s.poisoned (x.pa / 64 * 64) 64
        && !(decide (paTarget (x.pa / 64 * 64) < 4) && s.inkRefuses (x.pa / 64 * 64)) && s.elemHall per e == s.myHall)
    && els.all fun e => els.all fun f => pageOf (addr e) == pageOf (addr f)

theorem lie_of {s : State} {els : List Nat} {per : Nat} {kind : Kind} {n : Nat} {addr : Nat → Word} {write : Bool}
    (h : lieRun s els per kind n addr write = true) : ElementsLie s els per kind n addr (placeOf s kind n addr) write := by
  simp only [lieRun, Bool.and_eq_true, List.all_eq_true, beq_iff_eq, decide_eq_true_eq] at h
  refine ⟨fun e he => ?_, h.2⟩
  obtain ⟨⟨h1, h2⟩, h3⟩ := h.1 e he
  revert h3
  unfold okIs placeOf
  cases hx : s.hartXlate s.myHall kind (addr e) n with
  | error t => simp
  | ok x =>
    intro h3
    simp only [Bool.and_eq_true, decide_eq_true_eq, beq_iff_eq, Bool.not_eq_true', Option.isNone_iff_eq_none,
      Bool.and_eq_false_imp] at h3
    obtain ⟨⟨⟨⟨h3, h4⟩, h5⟩, h6⟩, h7⟩ := h3
    exact ⟨⟨h1, h2, hx, h3⟩, ⟨h4, h5, fun _ => h6⟩, h7⟩

/-- The n bytes at va lie in one NRM page, whose home serves the first line. -/
theorem liesLine_of {s : State} {va : Word} (n : Nat) (h : (canonical va && decide (va.toNat % n = 0) && okIs (s.hartXlate s.myHall .load va n) fun x =>
      x.cls == .nrm && (s.refusal s.who s.myHall x.pa 64 false).isNone && !s.poisoned x.pa 64) = true) :
    ∃ x, Lies s .load va n x ∧ Serves s x.pa 64 false := by
  simp only [Bool.and_eq_true, decide_eq_true_eq] at h
  obtain ⟨⟨h1, h2⟩, h3⟩ := h
  revert h3
  unfold okIs
  cases hx : s.hartXlate s.myHall .load va n with
  | error t => simp
  | ok x =>
    intro h3
    simp only [Bool.and_eq_true, beq_iff_eq, Bool.not_eq_true', Option.isNone_iff_eq_none] at h3
    exact ⟨x, ⟨h1, h2, hx, h3.1.1⟩, h3.1.2, h3.2, fun h => absurd h (by decide)⟩

/-- Two N32 elements, with g1 = 0x100; with poison at element 0, and at element 1; with g1 at a page of wells; with a stride in g2 that
takes element 1 out of the address space; with counter 1 at its limit. -/
def pairAt : State := (typed 6#4 2).setG 1#5 0x100#64
@[inherit_doc pairAt] def pairPoisoned : State := { pairAt with poison := [0x100 / 8] }
@[inherit_doc pairAt] def pairHalf : State := { pairAt.setG 1#5 0x11C#64 with poison := [0x120 / 8] }
@[inherit_doc pairAt] def pairWells : State := (typed 6#4 2).setG 1#5 0x10000#64
@[inherit_doc pairAt] def pairFar : State := pairAt.setG 2#5 0x4000000000000000#64
@[inherit_doc pairAt] def pairFull : State := pairAt.setCounter 1#3 { Counter.reset with count := BitVec.allOnes 32 }

/-- The address of element e of four bytes at g1. -/
def at4 (s : State) (e : Nat) : Word := s.g 1#5 + BitVec.ofNat 64 (e * 4)
/-- The address of element e at g1 with the stride of g2. -/
def atStride (s : State) (e : Nat) : Word := s.g 1#5 + BitVec.ofNat 64 e * s.g 2#5

/-- Elements that all pass, in the blocking form and, over poison, in the other; element 1 that traps after element 0, and one that fails
there after issue; a first element that would issue while the counter is full; elements in one page that serves them. -/
theorem witness_VectorLoads :
    (VecOk pairAt true [vreg 2#5 32] [] false ∧ VecOk pairAt true [vreg 2#5 32] [vreg 3#5 32] false ∧ pairAt.ra = none
      ∧ pairAt.counterFull 0#3 = false ∧ pairPoisoned.counterFull 1#3 = false)
    ∧ (∃ q, ElementsLoaded pairAt 0#3 128 false (vreg 2#5 32) 4 0#3 (at4 pairAt) (upTo 0 2) (pairAt, 0#4) q)
    ∧ (∃ q, ElementsLoaded pairPoisoned 0#3 128 false (vreg 2#5 32) 4 1#3 (at4 pairPoisoned) (upTo 0 2) (pairPoisoned, 0#4) q)
    ∧ someIs (loadRun 0#3 128 false (vreg 2#5 32) 4 0#3 (atStride pairFar) (upTo 0 1) (pairFar, 0#4)) (fun q =>
        q.1.active 0#3 128 1 && gotTrap (q.1.loadFrom q.1.myHall true (atStride pairFar 1) 4 4 nrmInk [4]) fun t => t.code == 6) = true
    ∧ someIs (loadRun 0#3 128 false (vreg 2#5 32) 4 0#3 (at4 pairHalf) (upTo 0 1) (pairHalf, 0#4)) (fun q =>
        q.1.active 0#3 128 1 && gotLate (q.1.loadFrom q.1.myHall true (at4 pairHalf 1) 4 4 nrmInk [4])) = true
    ∧ (pairFull.counterFull 1#3 = true ∧ FirstIssues pairFull 0#3 128 4 .load nrmInk (at4 pairFull))
    ∧ (Settled pairAt ∧ (∃ x, ElementsLie pairAt (activeElems pairAt 0#3 128) 128 .load 4 (at4 pairAt) x false)
      ∧ (activeElems pairAt 0#3 128).all (fun e => (pairAt.windowLine pairAt.myHall (at4 pairAt e)).isNone) = true) :=
  ⟨⟨vecOk_of (by decide +kernel), vecOk_of (by decide +kernel), by decide +kernel⟩, loaded_of (by decide +kernel),
    loaded_of (by decide +kernel), by decide +kernel, by decide +kernel, ⟨by decide +kernel, firstIssues_of (by decide +kernel)⟩,
    settled_of (by decide +kernel), ⟨_, lie_of (by decide +kernel)⟩, by decide +kernel⟩

/-- Element 1 fails, and the one below it is active; element 0 traps or finds poison, and there is none below it. -/
theorem witness_FaultFirstLoads :
    VecOk pairAt (pairAt.positions == 1) [vreg 2#5 32] [] false ∧ pairAt.ra = none ∧ pairAt.hart.fq = .none ∧ pairAt.shadowed = false
    ∧ (∃ q, ElementsLoaded pairAt 0#3 128 false (vreg 2#5 32) 4 0#3 (at4 pairAt) (upTo 0 2) (pairAt, 0#4) q)
    ∧ pairHalf.active 0#3 128 0 = true ∧ pairHalf.shadowed = false
    ∧ someIs (loadRun 0#3 128 false (vreg 2#5 32) 4 0#3 (at4 pairHalf) (upTo 0 1) (pairHalf, 0#4)) (fun q =>
        q.1.active 0#3 128 1 && gotLate (q.1.loadFrom q.1.myHall true (at4 pairHalf 1) 4 4 nrmInk [4])) = true
    ∧ upTo 0 0 = [] ∧ pairPoisoned.active 0#3 128 0 = true
    ∧ gotLate (pairPoisoned.loadFrom pairPoisoned.myHall true (at4 pairPoisoned 0) 4 4 nrmInk [4]) = true
    ∧ gotTrap (pairWells.loadFrom pairWells.myHall true (at4 pairWells 0) 4 4 nrmInk [4]) (fun t => t.code == 10) = true
    ∧ (Settled pairAt ∧ (∃ x, ElementsLie pairAt (activeElems pairAt 0#3 128) 128 .load 4 (at4 pairAt) x false)
      ∧ (activeElems pairAt 0#3 128).all (fun e => (pairAt.windowLine pairAt.myHall (at4 pairAt e)).isNone) = true) :=
  ⟨vecOk_of (by decide +kernel), by decide +kernel, by decide +kernel, by decide +kernel, loaded_of (by decide +kernel), by decide +kernel,
    by decide +kernel, by decide +kernel, by decide +kernel, by decide +kernel, by decide +kernel, by decide +kernel,
    settled_of (by decide +kernel), ⟨_, lie_of (by decide +kernel)⟩, by decide +kernel⟩

/-- The hart can post nothing: the lists of posted and of failed stores are full. -/
def packed (s : State) : State := s.onHart fun h =>
  { h with posted := List.replicate 256 { storeRequest s 0x200#64 0x200 [0#8] with failed := true }, seq := List.replicate 256 ⟨0#64, 0#3, 0#64⟩ }

/-- What a store of element 0 posts. -/
def zeros4 (_ : Nat) (x : Xl) : Payload := bytesFrom x.pa (leBytes 4 0)

theorem witness_VectorStores :
    (VecOk pairAt true [] [vreg 2#5 32] false ∧ VecOk pairAt true [] [vreg 2#5 32, vreg 3#5 32] false ∧ pairAt.ra = none
      ∧ pairAt.counterFull 0#3 = false ∧ pairAt.counterFull 1#3 = false)
    ∧ (∃ q, ElementsPosted 0#3 128 4 .store onlyNrm (at4 pairAt) zeros4 (upTo 0 2) (pairAt, []) q)
    ∧ someIs (postRun 0#3 128 4 .store onlyNrm (atStride pairFar) zeros4 (upTo 0 1) (pairFar, [])) (fun q =>
        q.1.active 0#3 128 1 && match q.1.reachWrite q.1.myHall .store (atStride pairFar 1) 4 4 onlyNrm with
          | (_, .error t) => t.code == 6 | _ => false) = true
    ∧ (pairFull.counterFull 1#3 = true ∧ FirstIssues pairFull 0#3 128 4 .store onlyNrm (at4 pairFull))
    ∧ (let s := packed pairAt; s.postFull = true ∧ FirstIssues s 0#3 128 4 .store onlyNrm (at4 s))
    ∧ Settled pairAt ∧ (∃ x, ElementsLie pairAt (activeElems pairAt 0#3 128) 128 .store 4 (at4 pairAt) x true)
    ∧ (activeElems pairAt 0#3 128).length ≤ 256 :=
  ⟨⟨vecOk_of (by decide +kernel), vecOk_of (by decide +kernel), by decide +kernel⟩, posted_of (by decide +kernel), by decide +kernel,
    ⟨by decide +kernel, firstIssues_of (by decide +kernel)⟩, ⟨by decide +kernel, firstIssues_of (by decide +kernel)⟩,
    settled_of (by decide +kernel), ⟨_, lie_of (by decide +kernel)⟩, by decide +kernel⟩

/-- A VAMO of N32 elements of v2 at g1 with indexes in v3, and what it does at each element. -/
def amoWord : VAmoOp := { pfx := none, d := 2#5, a := 1#5, b := 3#5, ch := false, msk := 0#3, k := 0#3 }
@[inherit_doc amoWord] def amoAccess : VAccess :=
  { sel := 0#3, per := 128, zero := false, size := 4, ok := onlyNrm, kind := .rmw, win := false, addr := fun e => some (at4 pairAt e) }

theorem witness_VectorAtomics :
    VecOk pairAt true [] [vreg 2#5 32, vreg 3#5 32] true ∧ VecOk pairAt true [vreg 4#5 32] [vreg 2#5 32, vreg 3#5 32] true
    ∧ pairAt.ra = none ∧ pairAt.vtype none = 6#4
    ∧ VecOk (typed 12#4 2) true [] [vreg 2#5 32, vreg 3#5 32] true
    ∧ (∃ q, ElementsPosted 0#3 128 4 .rmw onlyNrm (fun _ => 0x100#64) zeros4 (upTo 0 2) (pairAt, []) q)
    ∧ pairAt.counterFull amoWord.k = false
    ∧ okIs (pairAt.vfetch amoAccess (vreg 4#5 32) 0 6#4 (pairAt.elem (vreg 2#5 32)) 0#3) (fun _ => true) = true
    ∧ Settled pairAt ∧ (∃ x, ElementsLie pairAt (activeElems pairAt 0#3 128) 128 .rmw 4 (at4 pairAt) x true)
    ∧ (activeElems pairAt 0#3 128).all (fun e => !pairAt.pcieOnly (placeOf pairAt .rmw 4 (at4 pairAt) e).pa) = true
    ∧ ((activeElems pairAt 0#3 128).map fun e => (placeOf pairAt .rmw 4 (at4 pairAt) e).pa).Nodup
    ∧ (pairFull.counterFull 1#3 = true ∧ FirstIssues pairFull 0#3 128 4 .rmw onlyNrm (at4 pairFull)) :=
  ⟨vecOk_of (by decide +kernel), vecOk_of (by decide +kernel), by decide +kernel, by decide +kernel, vecOk_of (by decide +kernel),
    posted_of (by decide +kernel), by decide +kernel, by decide +kernel, settled_of (by decide +kernel), ⟨_, lie_of (by decide +kernel)⟩,
    by decide +kernel, by decide +kernel, by decide +kernel, firstIssues_of (by decide +kernel)⟩

theorem witness_VectorFetchUpdatesMemory :
    let s := pairAt.onHart fun h => { h with vl := 1 }
    s.Inv ∧ s.ra = none ∧ s.hart.posted = [] ∧ s.hart.cut = none ∧ amoAccess.kind = .rmw ∧ amoAccess.zero = false ∧ upTo s.hart.vstart s.hart.vl = [0]
      ∧ s.active amoAccess.sel amoAccess.per 0 = true ∧ amoAccess.addr 0 = some 0x100#64
      ∧ okIs (s.locate s.myHall .rmw 0x100#64 4 4 amoAccess.ok) (fun y => (s.updateLate s.who s.myHall y.pa 4 true).isNone) = true :=
  ⟨inv_of _ (by decide +kernel), by decide +kernel⟩

/-! ## Claims, lengths, spills -/

theorem witness_ClaimsGranted : mapped.hart.claim = none ∧ ready.hart.claim ≠ none := by decide +kernel

theorem witness_LengthsSet :
    anyType (ready.vtype none) = true ∧ anyType (BitVec.ofNat 4 ((ready.setG 1#5 6#64).g 1#5).toNat) = true ∧ ready.ra = none
    ∧ ready.hart.claim = some { ceiling := 8, grant := 8, share := 3#2, span := 0#2, dies := 0#8, places := [] }
    ∧ (let s := ready.onHart fun h => { h with claim := none };
      s.hart.claim = none ∧ s.ra = none ∧ anyType (s.vtype none) = true)
    ∧ anyType ((ready.onHart fun h => { h with vmode := 15#64 }).vtype none) = false := by decide +kernel

/-- At VSTART n. -/
def startAt (s : State) (n : Nat) : State := s.setVstart n

/-- The line of a row of a tile from g1 on. -/
def at64 (s : State) (e : Nat) : Word := s.g 1#5 + BitVec.ofNat 64 (64 * e)
@[inherit_doc at64] def at8 (s : State) (e : Nat) : Word := s.g 1#5 + BitVec.ofNat 64 (8 * e)

/-- The units of a spill from VSTART on lie in the page of g1, which serves them; and a full hart waits at the first. -/
theorem witness_UnitsLie :
    (let s := startAt pairAt 63; Settled s ∧ ∃ x, ElementsLie s (upTo 63 64) 0 .store 8 (at8 s) x true)
    ∧ (let s := startAt pairAt 31; Settled s ∧ ∃ x, ElementsLie s (upTo (31 * 2) (32 * 2)) 0 .store 64 (at64 s) x true)
    ∧ (let s := startAt pairAt 63; ∃ x, ElementsLie s (upTo 63 64) 0 .load 8 (at8 s) x false)
    ∧ (let s := startAt pairAt 31; ∃ x, ElementsLie s (upTo (31 * 2) (32 * 2)) 0 .load 64 (at64 s) x false)
    ∧ (let s := packed (startAt pairAt 63); UnitWaits s 8 63 (at8 s) ∧ s.hart.vstart < s.hart.vlmaxb / 8)
    ∧ (let s := packed (startAt pairAt 31); UnitWaits s 64 (31 * 2) (at64 s) ∧ s.hart.vstart < s.tileRows) :=
  ⟨⟨settled_of (by decide +kernel), ⟨_, lie_of (by decide +kernel)⟩⟩, ⟨settled_of (by decide +kernel), ⟨_, lie_of (by decide +kernel)⟩⟩,
    ⟨_, lie_of (by decide +kernel)⟩, ⟨_, lie_of (by decide +kernel)⟩,
    ⟨⟨by decide +kernel, okIs_of (p := fun _ => true) (by decide +kernel)⟩, by decide +kernel⟩,
    ⟨⟨by decide +kernel, okIs_of (p := fun _ => true) (by decide +kernel)⟩, by decide +kernel⟩⟩

/-- VSPILL from its last group, VSTART 63; ZSPILL from its last row, 31, and from VSTART 32, where nothing is left; a group in page 1, of
wells, which traps; a base that is not aligned; no claim. -/
theorem witness_SpillsPost :
    (let s := startAt pairAt 63;
      s.hart.claim.isSome = true ∧ s.ra = none ∧ s.hart.cut = none ∧ (s.g 1#5).toNat % 64 = 0 ∧ s.hart.vlmaxb / 8 = 64
      ∧ ∃ q, ElementsPosted 0#3 0 8 .store onlyNrm (at8 s) (fun _ x => bytesFrom x.pa (leBytes 8 0)) (upTo 63 64) (s, []) q)
    ∧ (let s := startAt pairAt 31;
      s.shareCode ≠ 0#2 ∧ s.tileRows = 32 ∧ s.tileCols / 16 = 2
      ∧ ∃ q, ElementsPosted 0#3 0 64 .store onlyNrm (at64 s) (fun _ x => bytesFrom x.pa (leBytes 64 0)) (upTo (31 * 2) (32 * 2)) (s, []) q)
    ∧ (let s := (startAt pairAt 0).setG 1#5 0x10000#64;
      s.ra = none ∧ (s.g 1#5).toNat % 64 = 0 ∧ upTo 0 0 = []
      ∧ (match s.reachWrite s.myHall .store (at8 s 0) 8 8 onlyNrm with | (_, .error t) => t.code == 10 | _ => false) = true)
    ∧ ((pairAt.setG 1#5 0x108#64).g 1#5).toNat % 64 ≠ 0 ∧ mapped.hart.claim = none :=
  ⟨⟨by decide +kernel, by decide +kernel, by decide +kernel, by decide +kernel, by decide +kernel, posted_of (by decide +kernel)⟩,
    ⟨by decide +kernel, by decide +kernel, by decide +kernel, posted_of (by decide +kernel)⟩, by decide +kernel⟩

/-- The same for VFILL and ZFILL. -/
theorem witness_FillsLoad :
    (let s := startAt pairAt 63;
      s.hart.claim.isSome = true ∧ s.ra = none ∧ s.hart.cut = none ∧ (s.g 1#5).toNat % 64 = 0 ∧ s.hart.vstart ≤ s.hart.vlmaxb / 8 ∧ s.hart.vlmaxb / 8 = 64
      ∧ got (s.loadFrom s.myHall false (at8 s 63) 8 8 onlyNrm [8]) (fun _ _ => true) = true)
    ∧ (let s := startAt pairAt 31;
      s.shareCode ≠ 0#2 ∧ s.hart.vstart ≤ s.tileRows ∧ s.tileRows = 32 ∧ s.tileCols / 16 = 2
      ∧ got (s.loadAt (at64 s 62) 64 64 onlyNrm [64]) (fun u _ => got (u.loadAt (at64 s 63) 64 64 onlyNrm [64]) fun _ _ => true) = true)
    ∧ (let s := (startAt pairAt 0).setG 1#5 0x10000#64;
      s.ra = none ∧ (s.g 1#5).toNat % 64 = 0 ∧ gotTrap (s.loadFrom s.myHall false (at8 s 0) 8 8 onlyNrm [8]) (fun t => t.code == 10) = true) := by
  decide +kernel

/-! ## Ink pages and wells -/

/-- `inked` with g1 at its page; with 4 bytes of room; sealed. -/
def inkAt : State := inked.setG 1#5 0x30000#64
@[inherit_doc inkAt] def inkNear : State := inkAt.onInk 0x800000000 fun p => { p with tail := 65532 }
@[inherit_doc inkAt] def inkSealed : State := inkAt.onInk 0x800000000 fun p => { p with st := .sealed }

/-- An append of nothing, one that fits, one that ends at 64 KiB, and one a byte beyond. -/
theorem witness_AppendsAtTail :
    inkAt.Inv ∧ inkNear.Inv
    ∧ inkAt.refusal inkAt.who inkAt.myHall 0x800000000 1 true = none ∧ (inkAt.inkPage 0x800000000).st = .openPage
    ∧ (inkAt.inkPage 0x800000000).epois = false ∧ inkAt.poison = [] ∧ inkNear.refusal inkNear.who inkNear.myHall 0x800000000 1 true = none
    ∧ (8 + 4 - 1) / 4 * 4 + (leBytes 4 7).length ≤ 65536 ∧ (inkNear.inkPage 0x800000000).tail = 65532
    ∧ (65532 + 4 - 1) / 4 * 4 + (leBytes 4 7).length = 65536 ∧ 65536 < (65532 + 1 - 1) / 1 * 1 + (leBytes 5 7).length :=
  ⟨inv_of _ (by decide +kernel), inv_of _ (by decide +kernel), by decide +kernel⟩

/-- Page 3 as the target of VAPND: an append that is taken, one that is full, and one that fails because the page is sealed; then SEAL, with
and without the page being open; then INKTAIL of an open and of a sealed page. -/
theorem witness_InkInstructions :
    VecOk inkAt (anyType (inkAt.vtype none) && inkAt.vtype none != 14#4 && inkAt.positions == 1) [] [vreg 2#5 32] false
    ∧ inkAt.ra = none ∧ inkAt.counterFull 0#3 = false ∧ inkAt.counterFull 1#3 = false
    ∧ found (inkAt.reach inkAt.myHall .rmw (inkAt.g 1#5) 1 1 onlyInk) (fun u x =>
        match (u.append u.who u.myHall x.pa 4 (leBytes 4 0)).2 with | .took n => n == 8 | _ => false) = true
    ∧ found (inkNear.reach inkNear.myHall .rmw (inkNear.g 1#5) 1 1 onlyInk) (fun u x =>
        match (u.append u.who u.myHall x.pa 4 (leBytes 8 0)).2 with | .full => true | _ => false) = true
    ∧ found (inkSealed.reach inkSealed.myHall .rmw (inkSealed.g 1#5) 1 1 onlyInk) (fun u x =>
        match (u.append u.who u.myHall x.pa 4 (leBytes 4 0)).2 with | .failed _ => true | _ => false) = true
    ∧ inkAt.counterFull 2#3 = false ∧ inkAt.postFull = false
    ∧ found (inkAt.reach inkAt.myHall .store (inkAt.g 1#5) 1 1 onlyInk) (fun v x =>
        okIs (v.release (v.scopeRun 3#3)) fun w => okIs (w.seal w.who w.myHall x.pa) fun y =>
          (y.inkPage x.pa).pend == 0 && (y.inkPage x.pa).st == .sealing) = true
    ∧ found (inkAt.reach inkAt.myHall .load (inkAt.g 1#5) 1 1 onlyInk) (fun u x => (u.refusal u.who u.myHall x.pa 1 false).isNone
        && !(u.inkPage x.pa).epois && (u.inkPage x.pa).st == .openPage) = true
    ∧ found (inkSealed.reach inkSealed.myHall .load (inkSealed.g 1#5) 1 1 onlyInk) (fun u x => (u.refusal u.who u.myHall x.pa 1 false).isNone
        && !(u.inkPage x.pa).epois && (u.inkPage x.pa).st == .sealed) = true
    ∧ ((inkAt.setCounter 1#3 { Counter.reset with count := BitVec.allOnes 32 }).counterFull 1#3 = true ∧ inkAt.elemHall 0 0 = inkAt.myHall) :=
  ⟨vecOk_of (by decide +kernel), by decide +kernel⟩

theorem inkLies_of {s : State} {kind : Kind} {va : Word} {write : Bool}
    (h : (canonical va && okIs (s.hartXlate s.myHall kind va 1) fun x => x.cls == .ink && (s.refusal s.who s.myHall x.pa 1 write).isNone
      && !(s.inkPage x.pa).epois && (s.inkPage x.pa).st != .free && (s.inkPage x.pa).st != .freeing) = true) :
    ∃ x, InkLies s kind va x write := by
  rw [Bool.and_eq_true] at h
  obtain ⟨h0, h1⟩ := h
  revert h1
  unfold okIs
  cases hx : s.hartXlate s.myHall kind va 1 with
  | error e => simp
  | ok x =>
    intro h
    simp only [Bool.and_eq_true, beq_iff_eq, bne_iff_ne, Bool.not_eq_true', Option.isNone_iff_eq_none] at h
    obtain ⟨⟨⟨⟨h1, h2⟩, h3⟩, h4⟩, h5⟩ := h
    exact ⟨x, h0, hx, h1, h2, h3, h4, h5⟩

/-- The page of g1 serves an append, a seal and a read of its tail, open and sealed; an append of 4 bytes fits, and one of 8 does not. -/
theorem witness_InkPagesServe :
    Settled inkAt ∧ Scoped inkAt 3#3 ∧ inkAt.poison = [] ∧ Memory.wf inkAt.mem = true
    ∧ (∃ x, InkLies inkAt .rmw (inkAt.g 1#5) x true) ∧ (∃ x, InkLies inkNear .rmw (inkNear.g 1#5) x true)
    ∧ (∃ x, InkLies inkAt .store (inkAt.g 1#5) x true) ∧ (∃ x, InkLies inkSealed .store (inkSealed.g 1#5) x true)
    ∧ (∃ x, InkLies inkAt .load (inkAt.g 1#5) x false) ∧ (∃ x, InkLies inkSealed .load (inkSealed.g 1#5) x false)
    ∧ okIs (inkAt.hartXlate inkAt.myHall .rmw (inkAt.g 1#5) 1) (fun x => (inkAt.inkPage x.pa).st == .openPage
        && (inkAt.inkPage x.pa).tail == 8 && (inkAt.inkPage x.pa).pend == 0) = true
    ∧ okIs (inkNear.hartXlate inkNear.myHall .rmw (inkNear.g 1#5) 1) (fun x => (inkNear.inkPage x.pa).st == .openPage
        && decide (65536 < ((inkNear.inkPage x.pa).tail + 8 - 1) / 8 * 8 + 8)) = true :=
  ⟨settled_of (by decide +kernel), fun h => absurd h (by decide +kernel), by decide +kernel, by decide +kernel,
    inkLies_of (by decide +kernel), inkLies_of (by decide +kernel), inkLies_of (by decide +kernel), inkLies_of (by decide +kernel),
    inkLies_of (by decide +kernel), inkLies_of (by decide +kernel), by decide +kernel⟩

/-- One FP32 element, with g1 at the WLF page and at the WLX page; and the same with nothing to do. -/
def wlfAt : State := (typed 12#4 1).setG 1#5 0x10000#64
@[inherit_doc wlfAt] def wlxAt : State := (typed 12#4 1).setG 1#5 0x20000#64
@[inherit_doc wlfAt] def wlfIdle : State := (typed 12#4 0).setG 1#5 0x10000#64

theorem base_of {s : State} {kind : Kind} {a : BitVec 5} {sel : BitVec 3} {per : Nat} {c : Machine.Class}
    (h : ((upTo s.hart.vstart s.hart.vl).any fun e => s.active sel per e) = true)
    (f : found (s.reach s.myHall kind (s.g a) 1 1 wellClasses) (fun _ x => x.cls == c) = true) : ∃ u, baseChecked s kind a sel per u (some c) := by
  obtain ⟨u, x, hr, hx⟩ := found_of f
  refine ⟨u, ?_⟩
  unfold baseChecked
  rw [if_pos h]
  exact ⟨x, hr, congrArg some (eq_of_beq hx).symm⟩

/-- What WINIT and a deposit of element 0 carry home. -/
def anchorOf (_ : Nat) (x : Xl) : Payload := .winit (x.cls == .wlf) (x.pa / 64) 0#8
@[inherit_doc anchorOf] def depositOf (_ : Nat) (x : Xl) : Payload := .deposit (x.cls == .wlf) (x.pa / 64) [(0, .fin false 0 0 false)]

/-- `WellsLie` at `placeOf`, where it can be evaluated. -/
def wellRun (s : State) (els : List Nat) (per : Nat) (kind : Kind) (base : Word) (n : Nat) (cls : Machine.Class) (addr : Nat → Word)
    (write : Bool) : Bool :=
  wellClasses cls && (els.all fun e => canonical (addr e) && decide ((addr e).toNat % n = 0)
      && okIs (s.hartXlate s.myHall kind (addr e) n) fun x => x.cls == cls
        && (s.refusal s.who s.myHall (x.pa / 64 * 64) 64 write).isNone && !(s.wellLine (x.pa / 64)).pois
        && s.elemHall per e == s.myHall && pageOf (addr e) == pageOf base)
    && canonical base && okIs (s.hartXlate s.myHall kind base 1) fun b => b.cls == cls

theorem wells_of {s : State} {els : List Nat} {per : Nat} {kind : Kind} {base : Word} {n : Nat} {cls : Machine.Class}
    {addr : Nat → Word} {write : Bool} (h : wellRun s els per kind base n cls addr write = true) :
    WellsLie s els per kind base n cls addr (placeOf s kind n addr) write := by
  simp only [wellRun, Bool.and_eq_true, List.all_eq_true, decide_eq_true_eq] at h
  obtain ⟨⟨⟨h0, h1⟩, h2⟩, h3⟩ := h
  refine ⟨h0, fun e he => ?_, fun _ => ⟨h2, ?_⟩⟩
  · obtain ⟨⟨h4, h5⟩, h6⟩ := h1 e he
    revert h6
    unfold okIs placeOf
    cases hx : s.hartXlate s.myHall kind (addr e) n with
    | error t => simp
    | ok x =>
      intro h6
      simp only [Bool.and_eq_true, beq_iff_eq, Bool.not_eq_true', Option.isNone_iff_eq_none] at h6
      obtain ⟨⟨⟨⟨h6, h7⟩, h8⟩, h9⟩, h10⟩ := h6
      exact ⟨h4, h5, rfl, h6, h7, h8, h9, h10⟩
  · revert h3
    unfold okIs
    cases hx : s.hartXlate s.myHall kind base 1 with
    | error t => simp
    | ok b => exact fun h3 => ⟨b, rfl, by simpa using h3⟩

/-- The elements of WINIT, WDEP, WREAD and WDRAIN lie at a WLF page and at a WLX page. -/
theorem witness_WellsServe :
    Settled wlfAt ∧ Settled wlxAt ∧ Memory.wf wlfAt.mem = true
    ∧ (∃ x, WellsLie wlfAt (activeElems wlfAt 0#3 512) 512 .store (wlfAt.g 1#5) 64 .wlf (fun e => wlfAt.g 1#5 + BitVec.ofNat 64 (64 * e)) x true)
    ∧ (∃ x, WellsLie wlfAt (activeElems wlfAt 0#3 128) 128 .store (wlfAt.g 1#5) 4 .wlf (fun e => wlfAt.g 1#5 + BitVec.ofNat 64 (e * 4)) x true)
    ∧ (∃ x, WellsLie wlxAt (activeElems wlxAt 0#3 128) 128 .store (wlxAt.g 1#5) 8 .wlx (fun e => wlxAt.g 1#5 + BitVec.ofNat 64 (e * 8)) x true)
    ∧ (∃ x, WellsLie wlfAt (activeElems wlfAt 0#3 128) 128 .load (wlfAt.g 1#5) 4 .wlf (fun e => wlfAt.g 1#5 + BitVec.ofNat 64 (e * 4)) x true)
    ∧ (∃ x, WellsLie wlxAt (activeElems wlxAt 0#3 128) 128 .load (wlxAt.g 1#5) 8 .wlx (fun e => wlxAt.g 1#5 + BitVec.ofNat 64 (e * 8)) x false) :=
  ⟨settled_of (by decide +kernel), settled_of (by decide +kernel), by decide +kernel, ⟨_, wells_of (by decide +kernel)⟩,
    ⟨_, wells_of (by decide +kernel)⟩, ⟨_, wells_of (by decide +kernel)⟩, ⟨_, wells_of (by decide +kernel)⟩, ⟨_, wells_of (by decide +kernel)⟩⟩

theorem witness_WellsPost :
    VecOk wlfAt true [] [vreg 2#5 8] false ∧ VecOk wlfAt (arithFloat (wlfAt.vtype none)) [] [vreg 2#5 32, vreg 3#5 32] false
    ∧ VecOk wlxAt (arithFloat (wlxAt.vtype none)) [] [vreg 2#5 32] false ∧ wlfAt.ra = none ∧ wlfAt.counterFull 0#3 = false ∧ wlfAt.postFull = false
    ∧ (∃ u, baseChecked wlfAt .store 1#5 0#3 128 u (some .wlf)) ∧ (∃ u, baseChecked wlxAt .store 1#5 0#3 128 u (some .wlx))
    ∧ baseChecked wlfIdle .store 1#5 0#3 128 wlfIdle none
    ∧ (∃ q, ElementsPosted 0#3 512 64 .store wellClasses (fun e => wlfAt.g 1#5 + BitVec.ofNat 64 (64 * e)) anchorOf (upTo 0 1) (wlfAt, []) q)
    ∧ (∃ q, ElementsPosted 0#3 128 4 .store (fun x => some x == some .wlf) (fun e => wlfAt.g 1#5 + BitVec.ofNat 64 (e * 4)) depositOf
        (upTo 0 1) (wlfAt, []) q)
    ∧ ∃ q, ElementsPosted 0#3 128 8 .store (fun x => some x == some .wlx) (fun e => wlxAt.g 1#5 + BitVec.ofNat 64 (e * 8)) depositOf
        (upTo 0 1) (wlxAt, []) q :=
  ⟨vecOk_of (by decide +kernel), vecOk_of (by decide +kernel), vecOk_of (by decide +kernel), by decide +kernel, by decide +kernel,
    by decide +kernel,
    base_of (by decide +kernel) (by decide +kernel), base_of (by decide +kernel) (by decide +kernel),
    by unfold baseChecked; rw [if_neg (by decide +kernel)]; exact ⟨rfl, rfl⟩,
    posted_of (by decide +kernel), posted_of (by decide +kernel), posted_of (by decide +kernel)⟩

/-- The first line of page 1, with and without poison; the last slot of a line of each class. -/
theorem witness_WellLineSteps :
    wlfAt.Inv ∧ 15 < 64 / 4 ∧ 7 < 64 / 8 ∧ (wlfAt.wellLine 0x10000000).pois = false
    ∧ ((wlfAt.onWell 0x10000000 fun w => { w with pois := true }).wellLine 0x10000000).pois = true
    ∧ (∀ i ∈ List.range 8, i < 64 / 8) ∧ ∀ i < 8, i ∈ List.range 8 :=
  ⟨inv_of _ (by decide +kernel), by decide +kernel⟩

/-- The well access of WREAD and WDRAIN at g1. -/
def wellAccess (s : State) (n : Nat) (c : Machine.Class) : VAccess :=
  { sel := 0#3, per := 128, zero := false, size := n, ok := fun x => some x == some c, kind := .load, win := false,
    addr := fun e => some (s.g 1#5 + BitVec.ofNat 64 (e * n)) }

theorem witness_WellsRead :
    VecOk wlfAt true [vreg 4#5 32] [] false ∧ wlfAt.ra = none ∧ wlfAt.counterFull 0#3 = false
    ∧ (∃ u, baseChecked wlfAt .load 1#5 0#3 128 u (some .wlf))
    ∧ ([false, true].all fun drain => okIs (wlfAt.wellReadOp (wellAccess wlfAt 4 .wlf) (vreg 4#5 32) true drain 0#3) fun _ => true) = true
    ∧ ([false, true].all fun drain => okIs (wlxAt.wellReadOp (wellAccess wlxAt 8 .wlx) (vreg 4#5 32) false drain 0#3) fun _ => true) = true
    ∧ upTo wlfIdle.hart.vstart wlfIdle.hart.vl = [] ∧ baseChecked wlfIdle .load 1#5 0#3 128 wlfIdle none
    ∧ upTo wlfAt.hart.vstart wlfAt.hart.vl = [0]
    ∧ found (wlfAt.reach wlfAt.myHall .load (wlfAt.g 1#5) 1 1 wellClasses) (fun u _ => u.active 0#3 128 0 && u.hart.posted == []
        && found (u.reach wlfAt.myHall .load (wlfAt.g 1#5 + BitVec.ofNat 64 (0 * 4)) 4 4 fun x => some x == some .wlf) fun v x =>
          (v.wellLate v.myHall (x.pa / 64) false).isNone && (v.wellLate v.myHall (x.pa / 64) true).isNone) = true :=
  ⟨vecOk_of (by decide +kernel), by decide +kernel, by decide +kernel, base_of (by decide +kernel) (by decide +kernel), by decide +kernel,
    by decide +kernel, by decide +kernel, by unfold baseChecked; rw [if_neg (by decide +kernel)]; exact ⟨rfl, rfl⟩, by decide +kernel⟩

/-! ## System instructions -/

/-- VSTART may be read and written in every mode; VCAP written in mode S and read in mode A; a register that is read only; a number
without a register; the trap registers in each mode. -/
theorem witness_SystemRegisters :
    sysAllows .a 0x001 = .rw ∧ sysAllows .s 0x005 = .rw ∧ sysAllows .a 0x005 = .ro ∧ sysAllows .a 0x010 = .ro ∧ sysAllows .a 0x006 = .unassigned
    ∧ sysAllows .a 0x100 = .hidden ∧ sysAllows .s 0x100 = .rw ∧ sysAllows .s 0x200 = .hidden ∧ sysAllows .p 0x200 = .rw
    ∧ mapped.hart.mode = .a ∧ (inMode mapped .s).hart.mode = .s ∧ (inMode mapped .p).hart.mode = .p := by decide +kernel

theorem witness_CacheTranslationAndWaiting :
    mapped.ra = none ∧ mapped.hart.posted = [] ∧ canonical (mapped.g 1#5) = true
    ∧ okIs (mapped.hartXlate mapped.myHall .store (mapped.g 1#5) 1) (fun x => x.cls == .nrm) = true
    ∧ (0 < 4 ∧ Mode.s.code ≤ (inMode mapped .s).hart.mode.code ∧ ((inMode mapped .s).settle fun _ => true).shadowed = false)
    ∧ (2 < 4 ∧ Mode.p.code ≤ (inMode mapped .p).hart.mode.code ∧ ¬(2 < 2))
    ∧ mapped.hart.mode.code < Mode.s.code ∧ (inMode mapped .s).hart.mode.code < Mode.p.code
    ∧ (inMode mapped .s).hart.mode ≠ .a ∧ (inMode mapped .s).hart.wakes = 0#64 ∧ (inMode mapped .s).hart.fired = 0#64
    ∧ ((inMode mapped .p).onHart fun h => { h with unit := none }).myUnit = none
    ∧ (((inMode mapped .s).onHart fun h => { h with wakes := 2#64 }).hart.wakes ≠ 0#64)
    ∧ mapped.hart.mode = .a ∧ (inMode mapped .p).hart.mode = .p ∧ mapped.hart.mode ≠ .p := by decide +kernel

/-! ## Synchronisation -/

/-- g1 names cluster barrier 1, of TGT n; `arrived` and `members` say whether the hart's unit is there. -/
def barred (n : Nat) (member there : Bool) : State :=
  let s := ready.setG 1#5 1#64
  s.setBarrier (.cluster (loadedUnit s.myHall s.myCluster s.myHart) 1)
    { Barrier.reset with tgt := n, members := if member then [s.myKey] else [], arrived := if there then [s.myKey] else [] }

/-- The barrier that g1 names, where it can be had, and p of it. -/
def barrierIs (s : State) (p : BarRef → Barrier → Bool) : Bool := okIs (s.barrierOf (s.g 1#5)) fun r => p r (s.barrier r)

/-- The hart was pre-empted in the wait of the instruction at its PC, where it had arrived in generation g. -/
def rejoined (s : State) (g : BitVec 32) : State := s.onHart fun h => { h with rejoin := some (h.pc, g) }

/-- BARINIT, BARJOIN by a stranger and by a member, BARLEAVE before and after arriving; arrivals that complete a generation and that do
not; a second arrival; a wait for a past and for the current generation; the wait of BARSYN. -/
theorem witness_Barriers :
    Scoped (barred 0 false false) 1#3 ∧ barrierIs (barred 0 false false) (fun r x => r.isOpen && x.arr == 0) = true ∧ 1 % 2 ^ 16 ≠ 0
    ∧ barrierIs (barred 2 false false) (fun r x => r.isOpen && !x.members.contains ready.myKey && !x.arrived.contains ready.myKey) = true
    ∧ barrierIs (barred 2 true false) (fun r x => r.isOpen && x.members.contains ready.myKey && !x.arrived.contains ready.myKey) = true
    ∧ barrierIs (barred 2 true true) (fun r x => r.isOpen && x.members.contains ready.myKey && x.arrived.contains ready.myKey) = true
    ∧ (barred 2 true false).myKey = ready.myKey
    ∧ ([(1, true), (2, false)].all fun p => okIs ((barred p.1 true false).release 4#3) fun u =>
        barrierIs (barred p.1 true false) fun r x =>
          let v := u.setBarrier r (x.arrive u.myKey)
          barrierIs v fun q y => q == r && (y.gen != x.gen) == p.2) = true
    ∧ barrierIs (barred 2 true false) (fun _ x => x.gen == 0#32 && x.gen != 7#32) = true
    ∧ ((barred 2 true true).onHart fun h => { h with wait := some (.barrier 1#64 0#32 3#5) }).hart.wait = some (.barrier 1#64 0#32 3#5)
    ∧ barrierIs ((barred 2 true true).onHart fun h => { h with wait := some (.barrier 1#64 0#32 3#5) }) (fun _ x => x.gen == 0#32 && x.gen != 9#32) = true
    ∧ 0 < 1 ∧ 1 ≤ Barrier.reset.arr + 1 ∧ Barrier.reset.arr + 1 < 2
    ∧ (let s := barred 2 true false; s.hart.posted = [] ∧ s.hart.seq = [] ∧ s.joinedHere = none ∧ s.ra = none)
    ∧ barrierIs (barred 1 true false) (fun _ x => decide (0 < x.tgt) && decide (x.tgt ≤ x.arr + 1) && !x.arrived.contains ready.myKey) = true
    ∧ barrierIs (barred 2 true false) (fun _ x => x.scope == 0#3 || x.scope == 1#3) = true
    ∧ (let s := rejoined (barred 2 true true) 0#32; s.joinedHere = some 0#32 ∧ barrierIs s (fun _ x => x.gen == 0#32) = true)
    ∧ (let s := rejoined (barred 2 true true) 9#32; s.joinedHere = some 9#32 ∧ barrierIs s (fun _ x => x.gen != 9#32) = true) :=
  ⟨fun h => absurd h (by decide +kernel), by decide +kernel⟩

/-- Counter k of a state has COUNT 3. -/
def counting (k : BitVec 3) : State := mapped.setCounter k { count := 3#32, err := false, status := 0#4 }

/-- What WAITANY reports in bits 8:0. -/
def condOf (s : State) (a : BitVec 5) : BitVec 9 := BitVec.ofNat 9 ((s.g a).toNat % 512 &&& ((if s.hart.fired ≠ 0#64 then 1 else 0)
  + ((List.range 8).map fun i => if i ≠ 0 ∧ (s.counter (BitVec.ofNat 3 i)).count = 0#32 then 2 ^ i else 0).sum + (if s.hart.wakes ≠ 0#64 then 256 else 0)))

/-- Counters at 0 and not, and all seven for k 0; each condition of WAITANY alone, none, and a time that has come or not; each wait. -/
theorem witness_CountersAndWaits :
    mapped.hart.wait = none ∧ mapped.ra = none ∧ (mapped.counter 2#3).count = 0#32
    ∧ (∀ i : BitVec 3, i ≠ 0#3 → (mapped.counter i).count = 0#32) ∧ ((counting 2#3).counter 2#3).count ≠ 0#32
    ∧ ¬(∀ i : BitVec 3, i ≠ 0#3 → ((counting 2#3).counter i).count = 0#32) ∧ (counting 2#3).hart.wait = none
    ∧ condOf ((mapped.setG 1#5 1#64).onHart fun h => { h with fired := 1#64 }) 1#5 = 1#9
    ∧ condOf (mapped.setG 1#5 4#64) 1#5 = 4#9 ∧ condOf ((mapped.setG 1#5 256#64).onHart fun h => { h with wakes := 8#64 }) 1#5 = 256#9
    ∧ condOf (mapped.setG 1#5 257#64) 1#5 = 0#9 ∧ mapped.g 2#5 = 0#64
    ∧ (let s : State := { mapped.setG 2#5 9#64 with podt := 9#64 }; s.g 2#5 ≠ 0#64 ∧ (s.g 2#5).toNat ≤ s.podt.toNat)
    ∧ (let s : State := { mapped.setG 2#5 9#64 with podt := 8#64 }; ¬(s.g 2#5 ≠ 0#64 ∧ (s.g 2#5).toNat ≤ s.podt.toNat))
    ∧ ([Wait.kwait 2#3, .kstat 4#5 2#3, .kset 4#5 1#5 2#3, .waitany 4#5 1#5 2#5, .pause, .wfi].all fun w =>
        (mapped.onHart fun h => { h with wait := some w }).hart.wait == some w) = true
    ∧ (mapped.onHart fun h => { h with unit := none }).myUnit = none ∧ mapped.myUnit.isSome = true := by decide +kernel

/-- g1 names 0x100 in page 0, and g2 a descriptor at 0x200: plain, or with a comparison that Table 11.8 does not have. -/
def watching (w0 : Word) : State := ((mapped.putWord 0x200 w0).setG 1#5 0x100#64).setG 2#5 0x200#64

/-- A landing on the word at 0x100. -/
def landing (st : LandingState) (w0 : Word) (pend : Nat) : Landing where
  st := st
  va := 0x100#64
  pa := 0x100
  page := 65536
  vf := 0#10
  desc := [w0, 0#64, 0#64, 0#64]
  demoted := false
  owner := some (loadedUnit 0#4 0#5 0#3).key
  trigs := 0#16
  lostn := 0
  err := false
  pend := pend

/-- Landing 3 of hall 0 is this one, and g1 its handle; or every landing of the hall is. -/
def landed (l : Landing) : State := (mapped.onHall 0#4 fun x => { x with landings := alSet 3 l x.landings }).setG 1#5 3#64
@[inherit_doc landed] def crowded (s : State) : State :=
  s.onHall 0#4 fun x => { x with landings := (List.range 64).map fun i => (i, landing .armed 0#64 0) }

/-- Page 6 is the scratchpad of the hart's cluster; g1 points to it. -/
def padded : State := (typed 6#4 1 |>.putWord 0x16030 (BitVec.ofNat 64 (spPa 0#12 0#4 0#5 0 + 0x783))).setG 1#5 0x60000#64

/-- WATCH with a sound descriptor, with an unsound one, and with no landing free; UNWATCH of an armed landing, with and without an action
pending, of one that is closing, and of no handle; VWARM of one element, and of none; a comparison of each kind that holds or does not. -/
theorem witness_WatchedWords :
    ([(0#64, true), (5#64, false)].all fun p => found ((watching p.1).watchSite ((watching p.1).g 1#5)) fun u x =>
        got (u.loadAt ((watching p.1).g 2#5) 32 32 onlyNrm [32]) fun v bs => v.ra.isNone && landingOk (leWords bs 4) == p.2
          && fieldNat (wordAt (leWords bs 4) 0) 4 2 != 1 && decide (v.scoped 0#3 = .ok v)
          && (v.refusal v.who v.myHall x.pa 8 false).isNone && (v.hall (homeHall x.pa)).freeLanding == some 0) = true
    ∧ found ((crowded (watching 0#64)).watchSite 0x100#64) (fun u x =>
        got (u.loadAt 0x200#64 32 32 onlyNrm [32]) fun v _ => (v.hall (homeHall x.pa)).freeLanding == none) = true
    ∧ mapped.scoped 0#3 = .ok mapped
    ∧ ([landing .armed 0#64 0, landing .armed 0#64 2, landing .closing 0#64 1].all fun l =>
        ((landed l).g 1#5).toNat < 1024 && alFind 3 ((landed l).hall 0#4).landings == some l && l.vf == (landed l).myVf) = true
    ∧ mapped.barrierHall 0#4 = true ∧ 1024 ≤ ((mapped.setG 1#5 1024#64).g 1#5).toNat
    ∧ (let s := mapped.onHall 0#4 fun x => { x with st := .fenced }; s.owns (s.tenantOf s.myVf) 0#4 = true ∧ s.barrierHall 0#4 = false)
    ∧ VecOk padded (decide (padded.hart.vl ≤ 64) && decide (padded.hart.vl ≤ padded.hart.vlmaxb / 4)) [] [vreg 2#5 32] false ∧ padded.ra = none
    ∧ (armFrom { sel := 0#3, per := 128, zero := false, size := 8, ok := onlyNrm, kind := .load, win := false, addr := fun _ => some 0x60000#64 } (upTo 0 1)
        padded).2 = none
    ∧ (padded.hart.warm = none ∧ (activeElems padded 0#3 128).length ≤ 16 ∧ (∀ u ∈ padded.units, u.onHart = true → padded.hart.unit = some u.key)
      ∧ ((activeElems padded 0#3 128).all fun e =>
        let va := padded.g 1#5 + BitVec.ofNat 64 (padded.elem (vreg 2#5 32) e * 8)
        canonical va && decide (va.toNat % 8 = 0) && okIs (padded.hartXlate padded.myHall .load va 8) fun x =>
          x.cls == .nrm && paTarget x.pa == 4 && (padded.refusal padded.who padded.myHall x.pa 8 false).isNone
            && padded.elemHall 128 e == padded.myHall && pageOf va == pageOf (padded.g 1#5)) = true)
    ∧ (let s := padded.onHart fun h => { h with warm := some (h.pc, 0) }; s.hart.warm = some (s.hart.pc, s.hart.vstart))
    ∧ ((0, 0x100) ∈ (mapped.onHart fun h => { h with armedPa := [(0, 0x100)] }).hart.armedPa ∧ 0 < 64)
    ∧ ([0#64, 1#64, 3#64, 4#64].all fun w0 => (landed (landing .armed w0 0)).word 0x100 == 0#64) = true
    ∧ ((0#64).toInt ≤ (0#64).toInt ∧ (landed (landing .armed 2#64 7)).word 0x100 = 0#64 ∧ 7 < 8)
    ∧ (1 < (landing .armed 0#64 2).pend ∧ fieldNat (wordAt (landing .armed 0#64 2).desc 0) 4 2 = 0
        ∧ (landing .armed 0#64 2).owner = (landed (landing .armed 0#64 2)).hart.unit) :=
  ⟨by decide +kernel, by decide +kernel, by rfl, by decide +kernel, by decide +kernel, by decide +kernel, by decide +kernel,
    vecOk_of (by decide +kernel), by decide +kernel⟩

/-- A launch of one unit, serial 0, in a cohort or not, in this state. -/
def launchOf (cohort : Bool) (st : LaunchState) (done : Nat) : Launch where
  vf := 0#10
  serial := 0#32
  words := [0#64, 0#64, 0x0000000101080000#64, if cohort then 0x100000000#64 else 0#64] ++ List.replicate 12 0#64
  st := st
  order := 0
  nextGroup := 1
  done := done
  erru := 0
  phase := 0
  bar := { Barrier.reset with tgt := 1 }
  phaseBar := { Barrier.reset with tgt := 1, gen := 1#32 }

/-- The hart's unit is of this launch. -/
def launched (l : Launch) : State := { mapped with launches := [l] }

/-- Queue 0 of VF 0 is open, with its ring at page 0; with so many slots taken. -/
def queueing (s : State) (n : Nat) : State := s.onVf 0#10 fun f =>
  { f with queues := alSet 0 { Queue.reset with cfg := 0x8001FFFF04000000#64, tail := BitVec.ofNat 32 n } f.queues }

theorem witness_PhasesAndLaunches :
    (let s := launched (launchOf true .placing 0);
      someIs s.myLaunch (fun l => l.cohort) = true ∧ (s.completeVecs fun _ => true).ownCmds = false
        ∧ okIs ((s.completeVecs fun _ => true).release 4#3) (fun _ => true) = true
        ∧ someIs (s.launch? 0#10 0#32) (fun l => l.phaseBar.gen.toNat != l.phase && l.graph == 0#16 && l.fld 0x30 0 64 == 0) = true
        ∧ s.hart.wait = none ∧ s.joinedHere = none ∧ s.hart.vops = [] ∧ s.ownCmds = false ∧ s.hart.posted = [] ∧ s.hart.seq = [])
    ∧ (let s := rejoined (launched (launchOf true .placing 0)) 0#32; s.joinedHere = some 0#32
        ∧ someIs s.myLaunch (fun l => l.cohort && l.phaseBar.gen.toNat != 0) = true)
    ∧ (Settled mapped ∧ Scoped mapped 3#3 ∧ (∃ x, Lies mapped .load (mapped.g 1#5) 128 x ∧ Serves mapped x.pa 64 false)
      ∧ okIs (mapped.hartXlate mapped.myHall .load (mapped.g 1#5) 128) (fun x => (mapped.refusal mapped.who mapped.myHall (x.pa + 64) 64 false).isNone
          && !mapped.poisoned (x.pa + 64) 64) = true)
    ∧ mapped.myLaunch = none
    ∧ orderedIs mapped 3#3 true (fun u => got (u.loadAt (mapped.g 1#5) 128 128 onlyNrm [64, 64]) fun v _ =>
        v.ra.isNone && decide ((mapped.g 2#5).toNat < 128)) = true
    ∧ 128 ≤ ((mapped.setG 2#5 128#64).g 2#5).toNat
    ∧ (let s := queueing mapped 0; let x := (s.vf 0#10).queue 0#7;
      s.queueOpen 0#10 x = true ∧ x.full = false ∧ s.hallAdmits 0#10 x.home = true
        ∧ okIs (s.translate (some 0#10) x.home .s .store (x.slotVa x.tail)) (fun a => a.cls == .nrm
            && okIs (s.writeHome (some 0#10) x.home a.pa (leBytes 128 0)) fun _ => true) = true)
    ∧ 3#2 ≠ 2#2 ∧ mapped.hart.mode = .a ∧ (inMode mapped .s).hart.mode ≠ .a
    ∧ (let u := mapped.completeVecs fun _ => true; u.ownCmds = false
        ∧ okIs (u.release (u.scopeRun 3#3)) (fun v => ((v.demote 3#3).retire 4#64).myUnit.isSome) = true)
    ∧ mapped.hart.vops = [] ∧ mapped.ownCmds = false ∧ mapped.hart.posted = [] ∧ mapped.hart.seq = [] ∧ mapped.myUnit.isSome = true :=
  ⟨by decide +kernel, by decide +kernel, ⟨settled_of (by decide +kernel), fun h => absurd h (by decide +kernel),
    liesLine_of 128 (by decide +kernel), by decide +kernel⟩, by decide +kernel⟩

/-! ## Matrix -/

/-- `ready` with the whole share and FP16, so that latches and tiles may be used. -/
def tiled (vl : Nat) : State := typed 10#4 vl

/-- With a latch that is still to be rebuilt. -/
def pendingLatch : State := (tiled 1).onHart fun h =>
  { h with ldesc := put (w := 1) h.ldesc 0#1 (some { base := 0#64, pitch := 0#64, idx := [], act := 0#64, vl := 1, reached := 64, todo := 1#64, resumeAt := none }) }

/-- Operands and share for ZRANK and MBLK; no share; sums with a NaN, with two infinities, with each infinity alone. -/
theorem witness_MatrixProducts :
    vecOk (tiled 2) true [] [vreg 2#5 16, vreg 3#5 16] false = true ∧ (tiled 2).shareCode ≠ 0#2 ∧ (tiled 2).ra = none
    ∧ (tiled 2).vtype none = 10#4 ∧ (tiled 2).latchPending 0#1 = false ∧ (tiled 2).latchPending 1#1 = false
    ∧ pendingLatch.latchPending 0#1 = true ∧ mapped.shareCode = 0#2
    ∧ FVal.nan ∈ Fmt.fp32.value 0x7FC00000 :: []
    ∧ (let t := Fmt.fp32.value 0 :: [(FVal.inf true, 0#5), (.inf false, 0#5)].map (·.1);
      FVal.nan ∉ t ∧ FVal.inf true ∈ t ∧ FVal.inf false ∈ t)
    ∧ (let t := Fmt.fp32.value 0 :: [(FVal.inf false, 0#5)].map (·.1); FVal.nan ∉ t ∧ FVal.inf true ∉ t ∧ FVal.inf false ∈ t)
    ∧ (let t := Fmt.fp32.value 0xFF800000 :: []; FVal.nan ∉ t ∧ FVal.inf true ∈ t ∧ FVal.inf false ∉ t) := by decide +kernel

/-- Row 31 is the last that a share of 32 rows has. -/
theorem witness_TileMoves :
    (tiled 1).shareCode ≠ 0#2 ∧ (tiled 1).ra = none ∧ mapped.shareCode = 0#2
    ∧ VecOk (tiled 1) (decide ((tiled 1).hart.vl ≤ (tiled 1).tileCols)) [vreg 2#5 32] [] false
    ∧ VecOk (tiled 1) (decide ((tiled 1).hart.vl ≤ (tiled 1).tileCols)) [] [vreg 2#5 32] false
    ∧ (tiled 1).tileRows = 32 ∧ 31 < 32 ∧ 32 ≤ 32 ∧ mapped.hart.claim = none ∧ mapped.operandsOk [vreg 2#5 32] [] false = true :=
  ⟨by decide +kernel, by decide +kernel, by decide +kernel, vecOk_of (by decide +kernel), vecOk_of (by decide +kernel), by decide +kernel⟩

/-- From VSTART 63, with row 63 active (VL 64) and inactive (VL 1); from VSTART 64; a row in page 1, which traps, and one over poison; VL 65. -/
theorem witness_LatchGather :
    VecOk ((tiled 64).setVstart 63) (decide (64 ≤ 64)) [] [vreg 2#5 32] false ∧ (tiled 64).shareCode ≠ 0#2 ∧ (tiled 64).ra = none
    ∧ ((tiled 64).setVstart 63).hart.vstart < 64 ∧ 64 ≤ ((tiled 64).setVstart 64).hart.vstart
    ∧ ((tiled 64).active ((tiled 64).maskSel none 0#3) ((tiled 64).perPos (vreg 2#5 32)) 63) = true ∧ ¬(63 < (tiled 1).hart.vl)
    ∧ got ((tiled 64).loadFrom 0#4 true 0#64 128 128 nrmInk [64, 64]) (fun _ _ => true) = true
    ∧ gotTrap ((tiled 64).loadFrom 0#4 true 0x10000#64 128 128 nrmInk [64, 64]) (fun t => t.code == 10) = true
    ∧ gotLate (({ tiled 64 with poison := [0x20] } : State).loadFrom 0#4 true 0x100#64 128 128 nrmInk [64, 64]) = true
    ∧ (tiled 64).myHall = 0#4 ∧ 64 < (tiled 65).hart.vl
    ∧ (let s := ((tiled 64).setVstart 63).setG 1#5 0x100#64;
      Settled s ∧ (∃ x, Lies s .load (s.g 1#5) 128 x ∧ Serves s x.pa 64 false)
      ∧ okIs (s.hartXlate s.myHall .load (s.g 1#5) 128) (fun x => (s.refusal s.who s.myHall (x.pa + 64) 64 false).isNone
          && !s.poisoned (x.pa + 64) 64) = true
      ∧ s.windowLine s.myHall (s.g 1#5) = none ∧ s.windowLine s.myHall (s.g 1#5 + 64#64) = none ∧ upTo s.hart.vstart 64 = [63]) :=
  ⟨vecOk_of (by decide +kernel), by decide +kernel, by decide +kernel, by decide +kernel, by decide +kernel, by decide +kernel,
    by decide +kernel, by decide +kernel, by decide +kernel, by decide +kernel, by decide +kernel, by decide +kernel,
    settled_of (by decide +kernel), liesLine_of 128 (by decide +kernel), by decide +kernel⟩

/-- `RowsDeposited`, where it can be evaluated. -/
def rowsRun (s : State) (act : Nat → Bool) (addr : Nat → Word) (f : Nat → Nat → FVal) :
    List Nat → State × List Posted → Option (State × List Posted)
  | [], p => some p
  | i :: r, p =>
    if act i then
      match p.1.reach p.1.myHall .store (addr i) 64 64 wellClasses with
      | (u, .ok (some x)) =>
        let n := if x.cls == .wlf then 4 else 8
        match postRun 0#3 0 64 .store (fun c => c == x.cls) (fun j => addr i + BitVec.ofNat 64 (64 * j))
            (fun j y => .deposit (y.cls == .wlf) (y.pa / 64) ((List.range (64 / n)).map fun e => (e, f i (j * (64 / n) + e))))
            (List.range (s.tileCols / (64 / n))) (u, []) with
        | some q => rowsRun s act addr f r (q.1, p.2 ++ q.2)
        | none => none
      | _ => none
    else rowsRun s act addr f r p

theorem rowsRun_sound {s : State} {act : Nat → Bool} {addr : Nat → Word} {f : Nat → Nat → FVal} (l : List Nat) :
    ∀ (p q : State × List Posted), rowsRun s act addr f l p = some q → RowsDeposited s act addr f l p q := by
  induction l with
  | nil => intro p q h; simpa [rowsRun, RowsDeposited, eq_comm] using h
  | cons i r ih =>
    intro p q h
    simp only [rowsRun] at h
    simp only [RowsDeposited]
    split at h
    · rw [if_pos ‹_›]
      split at h
      · split at h
        · exact ⟨_, _, _, _, ‹_›, postRun_sound _ _ _ ‹_›, ih _ _ h⟩
        · cases h
      · cases h
    · rw [if_neg ‹_›]
      exact ih _ _ h

/-- One row at page 1 with a pitch of 128 bytes in g2; the same at page 0, which is not of wells; bases and pitches that are not aligned. -/
def depositing (base pitch : Word) : State := ((tiled 1).setG 2#5 base).setG 3#5 pitch

theorem witness_TileDeposits :
    (let s := depositing 0x10000#64 128#64;
      VecOk s (decide (s.hart.vl ≤ s.tileRows)) [] [vreg 4#5 32] false ∧ s.shareCode ≠ 0#2 ∧ s.ra = none
      ∧ ((s.g 2#5).toNat % 64 = 0 ∧ (s.g 3#5).toNat % 64 = 0)
      ∧ ∃ q, RowsDeposited s (fun i => s.active 0#3 128 i) (fun i => s.g 2#5 + BitVec.ofNat 64 i * s.g 3#5) (fun _ _ => .fin false 0 0 false)
          (upTo 0 1) (s, []) q)
    ∧ (let s := depositing 0x0#64 128#64;
      upTo 0 0 = [] ∧ (match s.reach s.myHall .store (s.g 2#5) 64 64 wellClasses with | (_, .error t) => t.code == 10 | _ => false) = true)
    ∧ (let s := packed (depositing 0x10000#64 128#64);
      s.postFull = true ∧ FirstIssues s 0#3 128 64 .store wellClasses (fun i => s.g 2#5 + BitVec.ofNat 64 i * s.g 3#5))
    ∧ (let s := depositing 0x10000#64 128#64;
      Settled s ∧ wellClasses .wlf = true ∧ activeElems s 0#3 128 = [0] ∧ s.tileCols / 16 = 2
      ∧ ((List.range 2).all fun j => canonical (s.g 2#5 + BitVec.ofNat 64 (64 * j)) && okIs (s.hartXlate s.myHall .store (s.g 2#5 + BitVec.ofNat 64 (64 * j)) 64)
          (fun x => x.cls == .wlf) && s.elemHall 0 j == s.myHall && pageOf (s.g 2#5 + BitVec.ofNat 64 (64 * j)) == pageOf (s.g 2#5)) = true)
    ∧ (depositing 0x10020#64 128#64 |>.g 2#5).toNat % 64 ≠ 0 ∧ (depositing 0x10000#64 130#64 |>.g 3#5).toNat % 64 ≠ 0 := by
  refine ⟨⟨vecOk_of (by decide +kernel), by decide +kernel, by decide +kernel, by decide +kernel, ?_⟩, by decide +kernel,
    ⟨by decide +kernel, firstIssues_of (by decide +kernel)⟩, ⟨settled_of (by decide +kernel), by decide +kernel⟩, by decide +kernel⟩
  have h : (rowsRun (depositing 0x10000#64 128#64) (fun i => (depositing 0x10000#64 128#64).active 0#3 128 i)
    (fun i => (depositing 0x10000#64 128#64).g 2#5 + BitVec.ofNat 64 i * (depositing 0x10000#64 128#64).g 3#5)
    (fun _ _ => .fin false 0 0 false) (upTo 0 1) (depositing 0x10000#64 128#64, [])).isSome = true := by decide +kernel
  obtain ⟨q, hq⟩ := Option.isSome_iff_exists.1 h
  exact ⟨q, rowsRun_sound _ _ _ hq⟩

/-! ## Engines and windows -/

/-- A command of VF 0 in hall 0 with this record. -/
def cmdOf (id : Nat) (op : BitVec 3) (rank : Nat) (words : List Word) : Cmd where
  id := id
  op := op
  vf := 0#10
  hall := 0#4
  owner := some (loadedUnit 0#4 0#5 0#3).key
  mode := .a
  k := 0#3
  counted := true
  scope := 3#3
  acq := false
  rel := false
  rank := rank
  words := words
  window := 0
  armed := false
  split := []
  tree := 0
  root := none
  batch := []
  done := []
  fail := none
  stuck := none
  forward := false
  live := true
  run := 0
  tab := []
  away := none
  lostAt := none

/-- A COPY of 16 bytes from 0x100 to 0x200 (Table 11.3), of one row; and a record of no row, which is bad. -/
def copyWords (rows : Nat) : List Word := [0x100#64, 0x200#64, BitVec.ofNat 64 (rows * 2 ^ 32 + 16), 0#64, 0#64, 0#64, 0#64, 0#64]

/-- g1 names a record at 0x400. -/
def recorded (words : List Word) : State :=
  ((List.range words.length).foldl (fun (s : State) i => s.putWord (0x400 + 8 * i) (wordAt words i)) mapped).setG 1#5 0x400#64

/-- A COLL of one rank, whose RANKTAB is at 0x600. -/
def collWords : List Word := [0x100#64, 0x200#64, 0x600#64, 0x100010006#64, 0#64, 0#64, 0#64, 0#64]

/-- Records of 64 and of 128 bytes that can be read, a good one and one of no byte; one in page 1, which traps, and one over poison; a full
counter, a full queue; a twin on the die; a run that has started nothing. -/
theorem witness_EngineCommandsIssue :
    (let s := recorded (copyWords 1); s.ra = none ∧ s.counterFull 2#3 = false ∧ s.queueFull 0#3 = false ∧ s.queueFull 1#3 = false
      ∧ s.queueFull 2#3 = false ∧ s.queueFull 3#3 = false ∧ Scoped s 3#3 ∧ Settled s
      ∧ ([64, 128].all fun n => found (s.reach s.myHall .load (s.g 1#5) n n onlyNrm) fun u _ =>
          got (u.loadAt (s.g 1#5) n n onlyNrm (List.replicate (n / 64) 64)) fun v bs =>
            (leWords bs 8).take 8 == copyWords 1 && (cmdOf 1 0#3 0 (leWords bs 8)).recordOk && v.cmds == []) = true
      ∧ (∃ x, Lies s .load (s.g 1#5) 64 x ∧ Serves s x.pa 64 false) ∧ (∃ x, Lies s .load (s.g 1#5) 128 x ∧ Serves s x.pa 64 false)
      ∧ okIs (s.hartXlate s.myHall .load (s.g 1#5) 128) (fun x => (s.refusal s.who s.myHall (x.pa + 64) 64 false).isNone
          && !s.poisoned (x.pa + 64) 64) = true)
    ∧ (cmdOf 1 0#3 0 [0#64, 0#64, 0#64, 0#64, 0#64, 0#64, 0#64, 0#64]).recordOk = false
    ∧ (let c := cmdOf 1 1#3 0 collWords; c.inRun = true
      ∧ (let s : State := { mapped with cmds := [c] }; s.twin { c with id := 2 } c = true ∧ c.hall.toNat / 2 = s.myHall.toNat / 2)
      ∧ mapped.cmds = [] ∧ mapped.colls = [])
    ∧ (match mapped.reach mapped.myHall .load 0x10000#64 64 64 onlyNrm with | (_, .error t) => t.code == 10 | _ => false) = true
    ∧ gotLate (({ mapped with poison := [0x80] } : State).loadAt 0x400#64 64 64 onlyNrm [64]) = true
    ∧ (mapped.setCounter 2#3 { count := BitVec.allOnes 32, err := false, status := 0#4 }).counterFull 2#3 = true
    ∧ ({ mapped with cmds := (List.range 64).map fun i => cmdOf i 0#3 0 (copyWords 1) } : State).queueFull 0#3 = true :=
  ⟨⟨by decide +kernel, by decide +kernel, by decide +kernel, by decide +kernel, by decide +kernel, by decide +kernel,
    fun h => absurd h (by decide +kernel), settled_of (by decide +kernel), by decide +kernel, liesLine_of 64 (by decide +kernel),
    liesLine_of 128 (by decide +kernel), by decide +kernel⟩, by decide +kernel⟩

/-- `LinesTranslated`, where it can be evaluated. -/
def linesRun (c : Cmd) (base : Word) : List Nat → State → Bool
  | [], _ => true
  | i :: r, s => match s.engXlate c .load (base + BitVec.ofNat 64 (64 * i)) with
    | (u, .ok x) => x.cls == .nrm && linesRun c base r u
    | _ => false

theorem linesRun_sound {c : Cmd} {base : Word} (l : List Nat) : ∀ s, linesRun c base l s = true → ∃ t m, LinesTranslated c base l s t m := by
  induction l with
  | nil => intro s _; exact ⟨s, [], rfl, rfl⟩
  | cons i r ih =>
    intro s h
    simp only [linesRun] at h
    split at h
    · rw [Bool.and_eq_true] at h
      obtain ⟨t, m, hm⟩ := ih _ h.2
      exact ⟨t, _, _, _, m, ‹_›, eq_of_beq h.1, hm, rfl⟩
    · cases h

/-- A window of two lines at 0x100; a base that is not aligned, lengths that are not of whole lines, too small and too great; no room; a
handle of a hall, and none; a fill under way. -/
theorem witness_Windows :
    (let s := (mapped.setG 1#5 0x100#64).setG 2#5 128#64;
      s.ra = none ∧ s.counterFull 2#3 = false ∧ Scoped s 3#3 ∧ (s.hall s.myHall).freeWindow 128 = some 0
      ∧ (s.g 1#5).toNat % 64 = 0 ∧ (s.g 2#5).toNat % 64 = 0 ∧ 64 ≤ (s.g 2#5).toNat ∧ (s.g 2#5).toNat ≤ 2 ^ 24
      ∧ (∃ t m, LinesTranslated { cmdOf 1 4#3 0 [0x100#64, 128#64] with acq := true, k := 2#3 } 0x100#64 (List.range (128 / 64)) s t m)
      ∧ Settled s ∧ canonical (s.g 1#5) = true ∧ s.inAlias s.myVf (s.g 1#5) = false
      ∧ (s.g 1#5).toNat / 65536 = ((s.g 1#5).toNat + (s.g 2#5).toNat - 1) / 65536
      ∧ okIs (s.translate s.who s.myHall s.hart.mode .load (s.g 1#5)) (fun x => x.cls == .nrm && !s.neverCached x.pa) = true)
    ∧ ((mapped.setG 1#5 0x100#64).setG 2#5 128#64 |>.setCounter 2#3 { count := BitVec.allOnes 32, err := false, status := 0#4 }).counterFull 2#3
        = true
    ∧ (inMode mapped .p).hart.mode = .p
    ∧ 0x108 % 64 ≠ 0 ∧ (100 % 64 ≠ 0 ∧ 0 < 64 ∧ 2 ^ 24 < 2 ^ 24 + 64)
    ∧ ((mapped.onHall 0#4 fun x => { x with windows := [(0, { base := 0#64, len := 2 ^ 24, vf := 0#10, lines := [] })] }).hall 0#4).freeWindow 64 = none
    ∧ ((mapped.onHall 0#4 fun x => { x with windows := [(0, { base := 0#64, len := 2 ^ 24 - 64, vf := 0#10, lines := [] })] }).hall 0#4).freeWindow 64
        = some 1
    ∧ (mapped.g 1#5).toNat < 1024 ∧ 1024 ≤ ((mapped.setG 1#5 1024#64).g 1#5).toNat
    ∧ someIs (({ mapped with cmds := [cmdOf 1 4#3 0 [0x100#64, 128#64]] } : State).cmd? 1) (fun c => c.op == 4#3) = true := by
  refine ⟨⟨by decide +kernel, by decide +kernel, fun h => absurd h (by decide +kernel), by decide +kernel, by decide +kernel, by decide +kernel, by decide +kernel, by decide +kernel,
    linesRun_sound _ _ (by decide +kernel), settled_of (by decide +kernel), by decide +kernel⟩, by decide +kernel⟩

/-! ## The homes -/

/-- The first line of page 1 in this residency, with the hart's deposit waiting for it, or nothing. -/
def lineAt (r : Residency) (waits : Bool) : State :=
  let s := mapped.onWell 0x10000000 fun w => { w with res := r }
  if waits then s.post (requestTo s 0x10000#64 0x400000000 4 (.deposit true 0x10000000 [(0, .fin false 1 0 false)])) else s

theorem oldest_of {s : State} {line : Nat} {p : Posted} (h : s.hart.posted = [p]) (hp : p.pa / 64 = line) (hf : p.failed = false) :
    OldestFor s line 0 :=
  ⟨⟨p, by rw [h]; rfl, hp, hf⟩, fun j _ hj => absurd hj (Nat.not_lt_zero j)⟩

theorem nothing_of {s : State} {line : Nat} (h : s.hart.posted = []) : NothingFor s line := fun p hp => by rw [h] at hp; cases hp

/-- The store-error queue has one entry; or operation 4 is in flight on counter 2, while page 3 is being sealed. -/
def erring (mask : BitVec 64) : State := mapped.onHart fun h => { h with seq := [{ va := 0x140#64, lsz := 0#3, mask := mask }] }
@[inherit_doc erring] def completing (st : BitVec 4) (seals : Option Nat) : State :=
  (inked.onInk 0x800000000 fun p => { p with st := .sealing }).onHart fun h =>
    { h with vops := [{ id := 4, k := 2#3, status := st, seals := seals, at' := 1#8 }] }

/-- A failed request, and one that is not; entries of the store-error queue with bits 5 and 63 alone, with a free set; a held trap; a
completion with and without a status, and one that seals. -/
theorem witness_StoreErrorsAndCompletions :
    (posting.onHart fun h => { h with posted := h.posted.map fun p => { p with failed := true } }).hart.posted[0]?.any (·.failed) = true
    ∧ posting.hart.posted[0]?.any (fun p => !p.failed && p.also == [] && p.mask != 0#64 && p.report.length == 1) = true
    ∧ (let s := erring (0x20#64); s.hart.stopped = false ∧ s.hart.wait = none ∧ s.ra = none ∧ s.storeErrorHeld = false
        ∧ s.hart.seq = [{ va := 0x140#64, lsz := 0#3, mask := 0x20#64 }] ∧ 5 < 64 ∧ (0x20#64).getLsbD 5 = true
        ∧ ∀ j < 5, (0x20#64).getLsbD j = false)
    ∧ (0x8000000000000000#64).getLsbD 63 = true ∧ (∀ j < 63, (0x8000000000000000#64).getLsbD j = false)
    ∧ mapped.hart.seq = [] ∧ (busyP (busyS (handled (erring 1#64)))).storeErrorHeld = true
    ∧ ([(0#4, none), (6#4, none), (0#4, some 0x80000)].all fun p =>
        ((completing p.1 p.2).hart.vops.find? fun o => o.id == 4) == some { id := 4, k := 2#3, status := p.1, seals := p.2, at' := 1#8 }) = true
    ∧ ((completing 0#4 (some 0x80000)).inkPage (0x80000 * 65536)).st = .sealing := by decide +kernel

theorem witness_WellLineEvents :
    ((lineAt .resident true).wellLine (0x400000000 / 64)).res = .resident ∧ OldestFor (lineAt .resident true) (0x400000000 / 64) 0
    ∧ ((lineAt .absent true).wellLine (0x400000000 / 64)).res = .absent ∧ OldestFor (lineAt .absent true) (0x400000000 / 64) 0
    ∧ NothingFor (lineAt .resident false) (0x400000000 / 64) ∧ ((lineAt .resident false).wellLine (0x400000000 / 64)).res = .resident
    ∧ ((lineAt .filling false).wellLine (0x400000000 / 64)).res = .filling ∧ (lineAt .filling false).hart.posted = []
    ∧ ((lineAt .writing false).wellLine (0x400000000 / 64)).res = .writing ∧ NothingFor (lineAt .writing false) (0x400000000 / 64)
    ∧ ((lineAt .writing true).wellLine (0x400000000 / 64)).res = .writing ∧ OldestFor (lineAt .writing true) (0x400000000 / 64) 0
    ∧ mapped.Inv ∧ mapped.inWells (0x400000000 / 65536 * 65536) = true ∧ mapped.inWells (0x100 / 65536 * 65536) = false := by
  have post (r : Residency) : (lineAt r true).hart.posted = [requestTo (lineAt r false) 0x10000#64 0x400000000 4
      (.deposit true 0x10000000 [(0, .fin false 1 0 false)])] := by cases r <;> decide +kernel
  have none (r : Residency) : (lineAt r false).hart.posted = [] := by cases r <;> decide +kernel
  exact ⟨by decide +kernel, oldest_of (post _) (by decide) (by decide +kernel), by decide +kernel, oldest_of (post _) (by decide) (by decide +kernel),
    nothing_of (none _), by decide +kernel, by decide +kernel, none _, by decide +kernel, nothing_of (none _), by decide +kernel,
    oldest_of (post _) (by decide) (by decide +kernel), inv_of _ (by decide +kernel), by decide +kernel⟩

/-- The ink page in this state, with replicas in hall 1. -/
def inkIn (st : InkState) (l : List ReplicaState) : State :=
  { inked.onInk 0x800000000 fun p => { p with st := st } with replicas := l.map fun r => (0x80000, 1, r) }

theorem witness_InkPageEvents :
    (let s := inkIn .openPage []; s.inInk 0x800000000 = true ∧ 8 % 8 = 0 ∧ 8 ∈ [1, 2, 4, 8]
      ∧ s.refusal (some 0#10) (homeHall 0x800000000) 0x800000000 1 true = none ∧ (s.inkPage 0x800000000).epois = false
      ∧ (s.inkPage 0x800000000).st = .openPage)
    ∧ (let s := inkIn .sealing []; (s.inkPage 0x800000000).st = .sealing ∧ (s.inkPage 0x800000000).pend = 0)
    ∧ (let s := inkIn .free []; s.inInk 0x800000000 = true ∧ (s.inkPage 0x800000000).st = .free)
    ∧ (let s := inkIn .freeing []; (s.inkPage 0x800000000).st = .freeing ∧ (s.inkPage 0x800000000).reads = 0 ∧ (s.inkPage 0x800000000).rmap = 0#16)
    ∧ (let s := (inkIn .freeing []).onInk 0x800000000 fun p => { p with reads := 1 };
      (s.inkPage 0x800000000).st = .freeing ∧ (s.inkPage 0x800000000).reads ≠ 0)
    ∧ (let s := inkIn .sealed []; (s.inkPage 0x800000000).st = .sealed ∧ s.owns (s.tenantOf 0#10) 1#4 = true
      ∧ (s.poolUsed 1#4).length < fieldNat (s.hall 1#4).inkcfg 48 8 * 16384 ∧ s.replicas = [])
    ∧ (let s := inkIn .sealed [.copying]; (0x80000, 1, .copying) ∈ s.replicas ∧ s.poisoned (0x80000 * 65536) 65536 = false
      ∧ (s.inkPage 0x800000000).epois = false
      ∧ s.refusal none 1#4 (0x80000 * 65536) 65536 false = none)
    ∧ ({ inkIn .sealed [.copying] with poison := [0x80000 * 8192] } : State).poisoned (0x80000 * 65536) 65536 = true
    ∧ (((inkIn .sealed [.copying]).onInk 0x800000000 fun p => { p with epois := true }).inkPage 0x800000000).epois = true
    ∧ someIs ({ inkIn .sealed [.copying] with pool := [((0x80000, 1), 0)] } : State).pool.head? (fun _ => true) = true
    ∧ (0x80000, 1, .published) ∈ (inkIn .sealed [.published]).replicas ∧ (0x80000, 1, .reclaiming) ∈ (inkIn .sealed [.reclaiming]).replicas := by
  decide +kernel

/-! ## Queues, launches, saved units -/

/-- Queue 0 of VF 0, as `queueing` leaves it; a launch that waits for its first group. -/
def queue0 (s : State) : Queue := (s.vf 0#10).queue 0#7
@[inherit_doc queue0] def waiting : Launch := { launchOf false .ready 0 with serial := 1#32, nextGroup := 0 }

/-- Queue 0 holds one record at the start of page 0: 1 unit in groups of n. -/
def submitted (n : Nat) : State := (queueing mapped 1).putWord 0x10 (BitVec.ofNat 64 (2 ^ 32 + n * 2 ^ 24 + 8 * 2 ^ 16))

/-- The launch that admission makes of the record in slot 0. -/
def recordAt (s : State) (bs : List Byte) : Launch where
  vf := 0#10
  serial := 0#7 ++ (queue0 s).head.extractLsb' 0 25
  words := leWords bs 16
  st := .held
  order := 0
  nextGroup := 0
  done := 0
  erru := 0
  phase := 0
  bar := Barrier.reset
  phaseBar := Barrier.reset

/-- A sound launch. -/
def soundIn (s : State) (l : Launch) : Bool :=
  l.fieldsOk && s.wordUsable 0#10 (queue0 s).home (wordAt l.words 6) && s.wordUsable 0#10 (queue0 s).home (wordAt l.words 7)
    && (!l.cohort || s.cohortFits l (queue0 s).halls)

/-- A tail that fills the ring of 16 and one beyond it, one that goes back; a record that is sound, one of groups of 0, one in page 7, which is
not mapped; a launch whose unit has ended, one whose has not, one that is cancelled; a queue with AGE 5 and a head, with AGE 0, without a
head; a launch that can be placed, and none. -/
theorem witness_Dispatching :
    (let x := queue0 (queueing mapped 3); x.slots = 16 ∧ (16#32 - x.head).toNat ≤ x.slots ∧ (x.tail - x.head).toNat ≤ (16#32 - x.head).toNat
      ∧ x.slots < (17#32 - x.head).toNat ∧ (2#32 - x.head).toNat < (x.tail - x.head).toNat)
    ∧ ([(1, true), (0, false)].all fun p => let s := submitted p.1; let x := queue0 s;
      s.queueOpen 0#10 x && x.head != x.tail && okIs (s.translate (some 0#10) x.home .s .load (x.slotVa x.head)) fun a => a.cls == .nrm
        && okIs (s.readHome (some 0#10) x.home a.pa 128 false) fun bs => (recordAt s bs).graph == 0#16 && soundIn s (recordAt s bs) == p.2) = true
    ∧ (let s := (queueing mapped 1).onVf 0#10 fun f => { f with queues := f.queues.map fun p => (p.1, { p.2 with base := 0x70000#64 }) };
      s.queueOpen 0#10 (queue0 s) = true ∧ (queue0 s).head ≠ (queue0 s).tail
        ∧ errorIs (s.translate (some 0#10) (queue0 s).home .s .load ((queue0 s).slotVa (queue0 s).head)) (fun _ => true) = true)
    ∧ (let s := launched (launchOf false .placing 1); s.launch? 0#10 0#32 = some (launchOf false .placing 1)
      ∧ (∀ m ∈ s.launches, m.dropped = false) ∧ (launchOf false .placing 1).units ≤ 1 ∧ (launchOf false .placing 1).graph = 0#16)
    ∧ ((launchOf false .placing 0).dropped = false ∧ (launchOf false .placing 0).cancelled = false
      ∧ (launchOf false .placing 0).done < (launchOf false .placing 0).units)
    ∧ (let s : State := { launched (launchOf false (.cancelled false) 0) with units := [] };
      someIs (s.launch? 0#10 0#32) (fun l => l.dropped) = true ∧ s.units = []
        ∧ ((launched (launchOf false (.cancelled false) 0)).units.any fun w => w.key.vf == 0#10 && w.key.serial == 0#32) = true)
    ∧ (let s : State := { (queueing mapped 0).onVf 0#10 fun f =>
          { f with queues := f.queues.map fun p => (p.1, { p.2 with cfg := p.2.cfg ||| 0x500#64 }) } with launches := [waiting] };
      (queue0 s).age ≠ 0 ∧ s.queueOpen 0#10 (queue0 s) = true ∧ (s.headPrio 0#10 0#7).isSome = true)
    ∧ (queue0 (queueing mapped 0)).age = 0 ∧ mapped.queueOpen 0#10 (queue0 mapped) = false ∧ mapped.headPrio 0#10 0#7 = none
    ∧ (let s := launched (launchOf false (.cancelled false) 0); s.launch? 0#10 0#32 = some (launchOf false (.cancelled false) 0)
      ∧ (launchOf false (.cancelled false) 0).cancelled = true ∧ s.hart.unit = some { vf := 0#10, serial := 0#32, idx := 0 }
      ∧ (s.units.any fun u => u.key == { vf := 0#10, serial := 0#32, idx := 0 }) = true)
    ∧ mapped.launches = [] ∧ mapped.offers 0#4 = []
    ∧ (let s : State := { (queueing mapped 0).onVf 0#10 fun f => { f with queues := f.queues.map fun p => (p.1, { p.2 with credit := 1 }) } with
          launches := [waiting] };
      s.offers 0#4 = [{ key := 0, vf := 0#10, q := 0#7, launch := waiting, eff := 0, back := none }] ∧ waiting.cohort = false ∧ waiting.st ≠ .pending
        ∧ (∀ m ∈ s.launches, m.st ≠ .pending) ∧ 0 < (queue0 s).credit
        ∧ (s.placeOffer 0#4 { key := 0, vf := 0#10, q := 0#7, launch := waiting, eff := 0, back := none }).isSome = true) := by decide +kernel

/-- The hart's unit is asked to stop; or is pre-empted, so that the hart is empty. -/
def stopping : State := { mapped with units := [{ loadedUnit 0#4 0#5 0#3 with preempt := true }] }
@[inherit_doc stopping] def preempted : State :=
  { queueing mapped 0 with
    launches := [launchOf false .placing 0], units := [{ loadedUnit 0#4 0#5 0#3 with st := .preempted, spBytes := 0 }], hart := { mapped.hart with unit := none } }

/-- Run-ahead has begun. -/
def ahead : RunAhead := mapped.startAhead { va := 0x70000#64, pc := 0#64, kind := 0#2, reason := 0#4 } 0#2 true

/-- A group that was asked to stop, and one that was not; one that can be placed in another cluster and in its own; run-ahead that stops with
and without a record; a position of a span that another hall holds, and no claim; a fetch that fails. -/
theorem witness_SavedContexts :
    (stopping.groupOf 0#10 0#32 0).length = 1 ∧ stopping.canStop = true ∧ (stopping.freeImage 0#4 (imagePages 4096 1)).isSome = true
    ∧ ((stopping.groupOf 0#10 0#32 0).all fun u => u.onHart && u.preempt && stopping.isMine u && stopping.hart.unit == some u.key) = true
    ∧ ((mapped.groupOf 0#10 0#32 0).any fun u => !u.preempt) = true
    ∧ preempted.backOf 0#10 0#7 = some (launchOf false .placing 0, 0) ∧ (launchOf false .placing 0).serial = 0#32
    ∧ (launchOf false .placing 0).cohort = false ∧ (queue0 preempted).halls.getLsbD 0 = true
    ∧ preempted.mayResume 0#10 0#32 0 0#4 1#5 = true ∧ 1#5 ≠ preempted.myCluster ∧ mapped.backOf 0#10 0#7 = none
    ∧ (queue0 mapped).halls.getLsbD 0 = false
    ∧ (let u := { loadedUnit 0#4 0#5 0#3 with st := .preempted, spBytes := 0 };
      preempted.groupOf 0#10 0#32 0 = [u] ∧ preempted.mayResume 0#10 0#32 0 0#4 0#5 = true ∧ 0#4 = preempted.myHall ∧ 0#5 = preempted.myCluster
        ∧ (preempted.freeHarts 0#4 0#5).head? = some preempted.myHart ∧ preempted.hart.posted = [] ∧ preempted.hart.seq = []
        ∧ (let b := preempted.slotPa u.slotHall u.slot; let v := preempted.readImage u 0#4 0#5;
          v.word (b + 0x150) = 0#64 ∧ fieldNat (v.word (b + 0x108)) 0 2 = Mode.a.code ∧ v.slotBad u = false)
        ∧ (preempted.readImage u 0#4 1#5).slotBad u = false
        ∧ (({ preempted with poison := [preempted.slotPa u.slotHall u.slot / 8] } : State).readImage u 0#4 1#5).slotBad u = true)
    ∧ mapped.mayResume 0#10 0#32 0 0#4 1#5 = false
    ∧ ({ mapped with ra := some ahead } : State).ra = some ahead ∧ ({ mapped with ra := some ahead } : State).askedToStop = false
    ∧ stopping.askedToStop = true ∧ ahead.count < 256 ∧ ahead.batch.length < 64
    ∧ 256 ≤ ({ ahead with count := 256 } : RunAhead).count ∧ 64 ≤ ({ ahead with batch := List.replicate 64 (ahead.batch.headD { va := 0#64, pc := 0#64, kind := 0#2, reason := 0#4 }) } : RunAhead).batch.length
    ∧ (rolledBack { mapped with ra := some ahead } ahead).shadowed = false
    ∧ mapped.ra = none
    ∧ (let c : Claim := { ceiling := 8, grant := 8, share := 0#2, span := 1#2, dies := 3#8, places := [{ hall := 2#4, cluster := 0#5, slot := 0 }] };
      c.own 0#4 = 0 ∧ 1 ≠ c.own 0#4 ∧ c.places[1 - 1]? = some { hall := 2#4, cluster := 0#5, slot := 0 })
    ∧ mapped.hart.claim = none ∧ mapped.hart.stopped = false ∧ mapped.hart.wait = none ∧ mapped.shadowed = false := by decide +kernel

/-! ## Halls -/

/-- Hall 1 in this state, with this tenant. -/
def hallIn (st : HallState) (t : BitVec 16) : State := mapped.onHall 1#4 fun x => { x with st := st, tenant := t }

theorem witness_HallLifecycle :
    (hallIn .reset 1#16).Inv ∧ ((hallIn .reset 0#16).hall 1#4).st = .reset ∧ ((hallIn .reset 0#16).hall 1#4).tenant = 0#16
    ∧ shapeOk ((hallIn .reset 1#16).hallMask 1#16) = true ∧ shapeOk ((hallIn .reset 1#16).onHall 0#4 (fun x => { x with tenant := 2#16 }) |>.hallMask 1#16) = false
    ∧ ((hallIn .running 1#16).hall 1#4).st = .running ∧ ((hallIn .fenced 1#16).hall 1#4).st ≠ .running ∧ ((hallIn .fenced 1#16).hall 1#4).st ≠ .reset :=
  ⟨inv_of _ (by decide +kernel), by decide +kernel⟩

/-- The hart has been stopped, with a trap that could not be delivered or without. -/
def halted (code : Option (BitVec 8)) : State := mapped.onHart fun h => { h with stopped := true, undelivered := code }

/-- Power and temperature above, at each limit, between, and below; the hart itself and another; each way that it was stopped. -/
theorem witness_LanesAndHarts :
    (let x := mapped.hall 0#4; x.plim = 450#16 ∧ x.tlim = 100#8 ∧ x.st ≠ .reset ∧ 115#8 ≤ 115#8 ∧ 114#8 < 115#8
      ∧ x.plim < 451#16 ∧ x.tlim ≤ 100#8 ∧ ¬(x.plim < 450#16 ∨ x.tlim ≤ 99#8)
      ∧ (20 * 427 < 19 * x.plim.toNat ∧ 94 + 5 < x.tlim.toNat) ∧ ¬(20 * 428 < 19 * x.plim.toNat) ∧ ¬(95 + 5 < x.tlim.toNat))
    ∧ (mapped.myHall = 0#4 ∧ mapped.myCluster = 0#5 ∧ mapped.myHart = 0#3) ∧ ¬(mapped.myHall = 1#4) ∧ mapped.ra = none
    ∧ ((halted none).hart.stopped = true ∧ (halted none).hart.undelivered = none) ∧ (halted (some 8#8)).hart.undelivered = some 8#8
    ∧ vectorOf (halted (some 8#8)).pset = 0#64 ∧ vectorOf (handled (halted (some 8#8))).pset ≠ 0#64 := by decide +kernel

/-- Gallery window 3 of hall 0 is open to tenant 1. -/
def galleried : State := mapped.onHall 0#4 fun x => { x with gallery := put (w := 5) x.gallery 3#5 { Gallery.reset with ctl := 0x8000000000010001#64 } }

theorem witness_GalleryWindows :
    let g := pick (w := 5) (galleried.hall 0#4).gallery 3#5
    (g.ctl.getLsbD 63 && !(0#64).getLsbD 63) = true ∧ (g.ctl.getLsbD 63 && !(0x8000000000000000#64).getLsbD 63) = false
      ∧ g.ctl.extractLsb' 16 16 = 1#16 ∧ (galleried.vf 0#10).tenant = 1#16 := by decide +kernel

/-- An access held under token 7: a scalar one or a batch of the hart, or one of an engine command. -/
def heldAccess (cmd : Option Nat) (scalar : Bool) (record : List Word) : Held where
  token := 7#32
  cmd := cmd
  vf := 0#10
  va := 0x70000#64
  kind := 0#2
  tlbsh := none
  code := 8
  after := false
  pfx := false
  scalar := scalar
  record := record
  recordPa := 0
  cut := none

/-- It is held in hall 0, and the hart waits for it. -/
def held (cmd : Option Nat) (scalar : Bool) (record : List Word) : State :=
  (mapped.onHall 0#4 fun x => { x with held := [heldAccess cmd scalar record] }).onHart fun h => { h with wait := some (.held 7#32) }

theorem witness_HallRequests :
    mapped.heldAt 0#4 7#32 = none
    ∧ ([(true, []), (false, []), (false, [0#64])].all fun p => someIs ((held none p.1 p.2).heldAt 0#4 7#32) fun a =>
        a.cmd == none && a.tlbsh == none && a.scalar == p.1 && a.record == p.2) = true
    ∧ (let s := (held none false []).onHall 0#4 fun x => { x with held := x.held.map fun a => { a with cut := some (0, 1, 32) } };
      someIs (s.heldAt 0#4 7#32) (fun a => a.cmd == none && a.tlbsh == none && a.cut == some (0, 1, 32)) = true ∧ s.hart.wait = some (.held 7#32))
    ∧ (held none true []).hart.wait = some (.held 7#32) ∧ someIs ((held (some 5) false []).heldAt 0#4 7#32) (fun a => a.cmd == some 5) = true
    ∧ (mapped.hall 0#4).shootBusy = false ∧ ((mapped.onHall 0#4 fun x => { x with shootBusy := true }).hall 0#4).shootBusy = true := by decide +kernel

/-- VF 0 is being reset, while this command is left. -/
def resetting (l : List Cmd) : State := { mapped.onVf 0#10 fun f => { f with rstBusy := true } with cmds := l }

theorem witness_VfControls :
    (mapped.vf 0#10).rstBusy = false ∧ ((resetting []).vf 0#10).rstBusy = true ∧ (resetting []).cmds = []
    ∧ ((resetting [cmdOf 5 0#3 0 []]).cmds.any fun c => c.vf == 0#10) = true
    ∧ (resetting [cmdOf 5 0#3 0 []]).cmd? 5 = some (cmdOf 5 0#3 0 []) ∧ (cmdOf 5 0#3 0 []).live = true
    ∧ fieldNat (511#64) 0 14 < 1024 ∧ (512 ≤ fieldNat (512#64) 0 14 ∧ fieldNat (512#64) 0 14 < 8192) ∧ 8192 ≤ fieldNat (8192#64) 0 14
    ∧ (8#4).toNat < 9 ∧ 0#4 ≤ (mapped.port 0#4 8).width ∧ (mapped.port 0#4 8).width < 1#4 ∧ (mapped.hall 0#4).tenant ≠ 0#16
    ∧ (mapped.vf 0#10).tenant = (mapped.hall 0#4).tenant := by decide +kernel

/-! ## Ports, the fabric, hosts -/

/-- Port 8 of hall 0 in this state. -/
def ported (st : BitVec 4) (kpend : Bool) : State := mapped.onPort 0#4 8 fun p => { p with state := st, kpend := kpend }

/-- Hall 0 reaches chip 1 over port 8, which has room. -/
def routed : State := (ported 2#4 false).onHall 0#4 fun x => { x with route := [(1, 0x8100#16)] }

/-- What the verifier says of a key record is open, so a record that is good is one of which it says so. -/
theorem witness_ExternalPorts :
    (8#4).toNat < 9 ∧ (8#4).toNat ≤ 8 ∧ (143#8).toNat < 144 ∧ 8 < (9#4).toNat ∧ 144 ≤ (144#8).toNat
    ∧ (mapped.port 0#4 8).guar ≤ 0#4 ∧ 7#4 < ((mapped.onPort 0#4 8 fun p => { p with guar := 8#4 }).port 0#4 8).guar
    ∧ (mapped.hall 0#4).tenant ≠ 0#16 ∧ (mapped.vf 0#10).tenant = (mapped.hall 0#4).tenant
    ∧ (mapped.port 0#4 8).naks < 8 ∧ 8 ≤ ((mapped.onPort 0#4 8 fun p => { p with naks := 8 }).port 0#4 8).naks
    ∧ (mapped.port 0#4 8).expect = 0 ∧ (mapped.port 0#4 8).rslot = false ∧ 1 ≠ (mapped.port 0#4 8).expect
    ∧ ((ported 1#4 false).port 0#4 8).state = 1#4 ∧ ((ported 5#4 false).port 0#4 8).state = 5#4 ∧ ((ported 2#4 false).port 0#4 8).state ≠ 1#4
    ∧ ((ported 2#4 true).port 0#4 8).kpend = true ∧ ((ported 2#4 false).port 0#4 8).kpend = false
    ∧ 16 ≤ 16 ∧ 0#12 = mapped.chip ∧ mapped.routePorts 0#4 1#12 = []
    ∧ (15 < 16 ∧ 1#12 ≠ routed.chip ∧ routed.routePorts 0#4 1#12 ≠ [] ∧ (routed.port 0#4 8).replay.length < 8192)
    ∧ ((leBytes 128 0).length = 128 ∧ (BitVec.ofNat 64 (leNat ((leBytes 128 0).take 8))).extractLsb' 52 12 = mapped.chip
        ∧ fieldNat (BitVec.ofNat 64 (leNat ((leBytes 128 0).take 8))) 44 8 < 144)
    ∧ (leBytes 127 0).length ≠ 128 := by decide +kernel

/-- The wavelength from die 0 to die 2 is dark; or every one from die 0 is. -/
def darkened (all : Bool) : State :=
  { mapped with fabric := { mapped.fabric with dark := put (w := 3) mapped.fabric.dark 0#3 (if all then 0xFF#8 else 4#8) } }

/-- HDM window 0 of host port 0 opens 256 MiB of hall 0, n times as far from its start, for VF 0. -/
def memPort (n : Nat) : State := mapped.onHostPort 0#2 fun p =>
  { p with mode := 2#2, mem := true, hdmCtl := p.hdmCtl.setIfInBounds 0 (BitVec.ofNat 64 (2 ^ 63 + n * 2 ^ 28 + 1)) }

theorem witness_FabricAndHosts :
    (pick (w := 3) mapped.fabric.dark 0#3).getLsbD 2 = false
    ∧ ((pick (w := 3) (darkened false).fabric.dark 0#3).getLsbD 2 = true ∧ (0#3) ≠ 2#3
      ∧ (1#3 ≠ 0#3 ∧ 1#3 ≠ 2#3 ∧ (pick (w := 3) (darkened false).fabric.dark 0#3).getLsbD 1 = false
        ∧ (pick (w := 3) (darkened false).fabric.dark 1#3).getLsbD 2 = false))
    ∧ ((pick (w := 3) (darkened true).fabric.dark 0#3).getLsbD 2 = true
      ∧ ∀ r : BitVec 3, (pick (w := 3) (darkened true).fabric.dark 0#3).getLsbD r.toNat = true)
    ∧ mapped.ptpcfg.extractLsb' 62 2 ≠ 1#2 ∧ ({ mapped with ptpcfg := 0x4000000000000000#64 } : State).ptpcfg.extractLsb' 62 2 = 1#2
    ∧ (1#3 = 0#3 + 1#3 ∧ ∀ q < 1#3, ¬(q ≠ 0#3 ∧ q ≠ 2#3 ∧ (pick (w := 3) (darkened false).fabric.dark 0#3).getLsbD q.toNat = false
        ∧ (pick (w := 3) (darkened false).fabric.dark q).getLsbD 2 = false))
    ∧ 2#2 ≠ 3#2 ∧ 2#2 ≠ 0#2 ∧ (1 ≤ (6#4).toNat ∧ (6#4).toNat ≤ 6 ∧ (16#8).toNat ∈ [1, 2, 4, 8, 16]) ∧ (3#8).toNat ∉ [1, 2, 4, 8, 16]
    ∧ (pick (w := 2) mapped.hostPorts 0#2).mem = false ∧ mapped.memTarget (pick (w := 2) mapped.hostPorts 0#2) 0 = none
    ∧ ([(0, 0), (64, 1), (128, 2)].all fun p => someIs ((memPort p.1).memTarget (pick (w := 2) (memPort p.1).hostPorts 0#2) 8) fun a =>
        (memPort p.1).inWells a.1 == (p.2 == 1) && (memPort p.1).inInk a.1 == (p.2 == 2)
          && (p.2 != 0 || okIs ((memPort p.1).writeHome (some a.2) (homeHall a.1) a.1 (leBytes 8 0)) fun _ => true)) = true := by decide +kernel


/-! ## What engines do -/

/-- These commands are in flight. -/
def flying (l : List Cmd) : State := { mapped with cmds := l }

/-- A FLIGHT of one transfer of 16 bytes between 0x100 and offset 0x200 of rank 0 (Table 11.4), that puts (0) or gets (1). -/
def flightWords (op : Nat) : List Word :=
  [0x100#64, 0x200#64, 0x300#64, BitVec.ofNat 64 (1 + op * 2 ^ 18), 16#64, 0#64, 0#64, 0x100000000#64] ++ List.replicate 8 0#64

/-- An IXG of one row of 16 bytes from a table of n rows (Table 11.6). -/
def ixgWords (n : Nat) : List Word := [0#64, 0x300#64, 0x200#64, BitVec.ofNat 64 (1 + 16 * 2 ^ 32), 16#64, BitVec.ofNat 64 n, 0#64, 0#64]

/-- A command of which nothing is settled, held or lost. -/
def readyCmd (s : State) (c : Cmd) : Bool :=
  s.cmd? c.id == some c && c.live && !c.done.contains 0 && !s.cmdHeld c && c.stuck.isNone && c.lostAt.isNone

/-- The outcome of an engine's access, and what holds after it. -/
def readOk {α : Type} (r : State × Except EngErr α) (p : State → α → Bool) : Bool := match r with | (u, .ok x) => p u x | _ => false
@[inherit_doc readOk] def wroteOk (r : State × Option EngErr) : Bool := match r with | (_, none) => true | _ => false

/-- A command that is over, by itself and with a failure, in the blocking form and on counter 2; a COPY of one row; a put and a get; a
reducing flight whose receiver has not issued; an IXG whose index is in its table, and one whose table is empty. -/
theorem witness_EngineWork :
    ([(none, 0#3), (none, 2#3), (some { cause := 1#4, va := 0#64, pos := 0#64, nfail := 1#32, idxv := 0#32 }, 0#3)].all
      fun (p : Option EngFail × BitVec 3) =>
        let c := { cmdOf 5 0#3 0 (copyWords 1) with live := false, fail := p.1, k := p.2 }
        (flying [c]).cmd? 5 == some c && !c.live && c.counted && (flying [c]).hart.unit == c.owner && c.stuck.isNone && c.lostAt.isNone) = true
    ∧ ((flying []).onHart fun h => { h with wait := some (.engine 5) }).hart.wait = some (.engine 5)
    ∧ (let c := cmdOf 5 0#3 0 (copyWords 1);
      readyCmd (flying [c]) c = true ∧ c.copyRows = 1 ∧ c.copyMode = 0 ∧ (flying [c]).copyOverlaps c = false ∧ c.done = []
        ∧ readOk (({ flying [c] with fresh := 1 } : State).engRead c (c.at 0) c.copyBytes) (fun u bs => wroteOk (u.engWrite c (c.at 8) bs)) = true)
    ∧ ([0, 1].all fun op =>
        let c := cmdOf 5 2#3 0 (flightWords op)
        let s := flying [c]
        readyCmd s c && s.moves c && c.flightOp == op && c.points == 1 && c.recordOk && readOk (s.rankBase c (c.peer c.rank 0)) fun u b =>
          !(u.farWaits c (b + c.remoteOff 0)) &&
          (if op = 0 then readOk (u.engPeek c (c.localAt 0) c.xbytes) fun v bs => wroteOk (v.engStore c (some c.hall) (b + c.remoteOff 0) bs)
            else readOk (u.engRead c (b + c.remoteOff 0) c.xbytes) fun v bs => wroteOk (v.engStore c none (c.localAt 0) bs))) = true
    ∧ (let c := { cmdOf 5 2#3 0 (flightWords 2) with run := 7 };
      (flying [c]).cmd? 5 = some c ∧ c.flightOp = 2 ∧ (flying [c]).colls = [] ∧ (flying []).runPeers 7 = [])
    ∧ ([4, 0].all fun n =>
        let c := { cmdOf 5 3#3 0 (ixgWords n) with root := some 0x100#64, batch := [(0, 0#32)] }
        readyCmd (flying [c]) c && c.ixgCount == 1 && c.batchRead && c.batchOpen.contains 0 && c.indexOf 0 == some 0#32 && c.fld 0x28 0 32 == n
          && (n == 0 || readOk ((flying [c]).engRead c (0x100#64 + BitVec.ofNat 64 (0#32).toNat * c.at 0x20) c.ixgBytes) fun v bs =>
            wroteOk (v.engWrite c (c.at 0x10 + BitVec.ofNat 64 (0 * c.ixgBytes)) bs))) = true := by decide +kernel

/-- A collective of two ranks on 4 FP32 elements from 0x100 to 0x200, whose RANKTAB is at 0x600 (Table 11.5), of this kind: 0 adds, 3 copies
from rank 0. It is of run 7. -/
def collOf (id rank kind : Nat) (armed : Bool) : Cmd :=
  { cmdOf id 1#3 rank [0x100#64, 0x200#64, 0x600#64, BitVec.ofNat 64 (4 + 12 * 2 ^ 32 + kind * 2 ^ 36), 2#64, 0#64, 0#64, 0#64] with
    armed := armed, run := 7, tab := if armed then [0#64, 0#64] else [], split := if armed then [1] else [] }

/-- Run 7, of tenant 1, which these ranks have issued and to which these contributions have come. -/
def runOf (ranks : List Nat) (got : List (Nat × Nat × Word)) : Collective :=
  { id := 7, tenant := 1#16, tab := 0x600#64, seq := 0, joined := ranks, ended := [], flit := none, paths := [plainRing], got := got, bad := [] }

/-- Run 7 with these commands. -/
def running (l : List Cmd) (got : List (Nat × Nat × Word)) : State := { flying l with colls := [runOf (l.map (·.rank)) got] }

/-- Path 0 of VF 0 at die 0 is usable, with this weight last measured. -/
def weighed (s : State) (w : Nat) : State := s.onVf 0#10 fun f =>
  { f with cpath := put (w := 3) f.cpath 0#3 ((pick (w := 3) f.cpath 0#3).setIfInBounds 0 (BitVec.ofNat 64 (w * 2 ^ 32 + 2 ^ 31 + 1))) }

/-- A sound COLL of which nothing is held or lost. -/
def soundColl (s : State) (c : Cmd) : Bool := s.cmd? c.id == some c && c.op == 1#3 && c.stuck.isNone && c.lostAt.isNone && c.away.isNone
  && s.moves c && !s.cmdHeld c

/-- The lead rank with and without weight; the other rank, whose lead is not armed, is armed, is armed with another record or another table;
a second lead; a rank of another package, from which an abort comes; a run that one rank has not issued. -/
theorem witness_CollectivesArm :
    (let s := weighed (running [collOf 5 0 0 false] []) 3; let c := collOf 5 0 0 false;
      soundColl s c = true ∧ (∀ d ∈ s.cmds, d.id = 5 → d = c) ∧ c.armed = false ∧ c.rank = c.lead
        ∧ readOk (s.engPeek c (c.at 0x10) (8 * c.collSize)) (fun u _ => ((u.offeredPaths c).map (u.pathWeight c)).sum != 0) = true)
    ∧ (let s := weighed (running [collOf 5 0 0 false] []) 0; let c := collOf 5 0 0 false;
      soundColl s c = true ∧ readOk (s.engPeek c (c.at 0x10) (8 * c.collSize)) (fun u _ => ((u.offeredPaths c).map (u.pathWeight c)).sum == 0) = true)
    ∧ (collOf 5 0 0 true).armed = true
    ∧ ([(collOf 5 0 0 true, true, true), (collOf 5 0 3 true, false, true), ({ collOf 5 0 0 true with tab := [1#64, 0#64] }, true, false)].all
        fun (p : Cmd × Bool × Bool) =>
          let c := collOf 6 1 0 false
          let s := running [p.1, c] []
          soundColl s c && !c.armed && c.rank != c.lead && s.armedLeads c == [p.1] && c.agrees p.1 == p.2.1 && p.1.away.isNone
            && readOk (s.engPeek c (c.at 0x10) (8 * c.collSize)) fun _ bs => (leWords bs c.collSize == p.1.tab) == p.2.2) = true
    ∧ (running [collOf 5 0 0 false, collOf 6 1 0 false] []).armedLeads (collOf 6 1 0 false) = []
    ∧ (let s := running [collOf 5 0 0 true, collOf 6 0 0 false] []; s.armedLeads (collOf 6 0 0 false) = [collOf 5 0 0 true]
      ∧ (collOf 6 0 0 false).rank = (collOf 6 0 0 false).lead)
    ∧ (let s := running [collOf 5 0 0 true, { collOf 6 1 0 true with away := some 1#12 }] [];
      (∃ d ∈ s.runPeers (collOf 5 0 0 true).run, d.away.isSome = true) ∧ 9#4 ∈ [0#4, 1#4, 2#4, 3#4, 5#4, 6#4, 9#4]
        ∧ 4#4 ∉ [0#4, 1#4, 2#4, 3#4, 5#4, 6#4, 9#4])
    ∧ (let s := running [collOf 5 0 0 true] []; soundColl s (collOf 5 0 0 true) = true
      ∧ (s.colls.all fun x => decide (x.joined.length < 2)) = true ∧ s.mayTake (collOf 5 0 0 false) 0 = false) := by decide +kernel

/-- A contribution that is the first of a sum, and one that is the last; a pair that carried something of a command when it went dark, and
one that did not; the least of a list. -/
theorem witness_CollectivesReduce :
    ([(0, []), (1, [(0, 0, 0#64)])].all fun (p : Nat × List (Nat × Nat × Word)) =>
        let c := collOf 6 1 0 true
        let d := collOf (5 + p.1) p.1 0 true
        let s := running [collOf 5 0 0 true, c] p.2
        soundColl s c && soundColl s d && s.mayTake c 0 && (c.givers 0).contains p.1 && (s.runPeers 7).find? (fun d => d.rank == p.1) == some d
          && d.armed && s.coll? 7 == some (runOf [0, 1] p.2) && (runOf [0, 1] p.2).value 0 p.1 == none && s.way d 0 p.1 (d.ownerOf 0) == .clear
          && readOk (s.engGetElem d (d.at 0) (typeWidth d.collType) (d.sourceElem 0)) fun u v =>
            let x' := runOf [0, 1] ((0, p.1, BitVec.ofNat 64 v) :: p.2)
            let t := u.onColl 7 fun y => { y with got := (0, p.1, BitVec.ofNat 64 v) :: y.got }
            t.way c 0 (c.ownerOf 0) c.rank == .clear && c.reduces && !c.collArrival && t.destClass c == some .nrm && c.collType == 12#4
              && x'.full c 0 == (p.1 == 1) && (p.1 == 0 || c.sourceRead x' (c.at 8) 4
                && wroteOk (t.engStore c (t.countsElem c 0) (c.at 8) (leBytes 4 0)))) = true
    ∧ (∀ d ∈ (running [collOf 5 0 0 true] []).cmds, d.lostAt ≠ some (0#3, 2#3))
    ∧ (let c := { collOf 5 0 0 true with lostAt := some (0#3, 2#3) }; (running [c] []).cmd? 5 = some c ∧ c.inRun = true ∧ c.live = true)
    ∧ ((let x := (pick (w := 3) ((weighed mapped 3).vf 0#10).cpath 0#3)[0]; x.getLsbD 31 = true) ∧ 0#3 ≠ 1#3) := by decide +kernel

/-! ## Registers, errors, power -/

/-- The address of register x of die 0. -/
def regPa (x : Nat) : Nat := mkPa 0#12 0 5 x

/-- A register of VF 1 and of queue 127 of it, one of hall 1; one of another chip, one that is not aligned, the last one and the first beyond;
each of the requests for hall control and for a held access. -/
theorem witness_RegisterWrites :
    ([0x38, 0x10, 0x18, 0x148, 0x1000 + 24 * 127, 0x1000 + 24 * 127 + 16].all fun x =>
        let a := regPa (0x800000 + 0x2000 * 1 + x)
        paTarget a == 5 && paChip a == mapped.chip && a % 8 == 0 && paOffset a == 0x800000 + 0x2000 * (1#10).toNat + x) = true
    ∧ ([0, 8, 0x10, 0x1310, 0x1238, 0x1220].all fun x =>
        let a := regPa (0x1000000 * 2 + x)
        paTarget a == 5 && paChip a == mapped.chip && a % 8 == 0 && (1#4).toNat / 2 == (paDie a).toNat
          && paOffset a == 0x1000000 * (1 + (1#4).toNat % 2) + x) = true
    ∧ (paChip (mkPa 1#12 0 5 0) ≠ mapped.chip ∧ regPa 4 % 8 ≠ 0 ∧ paTarget 0x100 ≠ 5)
    ∧ (paOffset (regPa 0x80000000) = 0x80000000 ∧ paOffset (regPa 0x7FFFFFF8) < 0x80000000)
    ∧ ((1#2 = 1#2 ∧ 1#10 = 1#10) ∧ (1#2 ≠ 2#2 ∧ 1#2 ≠ 3#2) ∧ ¬(3#2 = 1#2 ∧ 1#10 = 1#10)) ∧ (0x8000000000000000#64).getLsbD 63 = true ∧ (0x80000000#64).getLsbD 31 = true
    ∧ ([1, 2, 3].all fun n => fieldNat (BitVec.ofNat 64 (n * 2 ^ 62)) 62 2 == n && (n == 3 || fieldNat (BitVec.ofNat 64 n) 0 2 == n)) = true := by
  decide +kernel

/-- With scrubbing off, paused, and on; the last line of HBM4E and the one before; an address of HBM4E, of tier-2 memory, of a scratchpad and
of host memory; a unit on the hart; a latch that was loaded. -/
theorem witness_ReliabilityEvents :
    (mapped.hall 0#4).scrubcfg.getLsbD 0 = true ∧ (mapped.hall 0#4).scrubPaused = false
    ∧ ((mapped.onHall 0#4 fun x => { x with scrubcfg := 0#64 }).hall 0#4).scrubcfg.getLsbD 0 = false
    ∧ ((mapped.onHall 0#4 fun x => { x with scrubPaused := true }).hall 0#4).scrubPaused = true
    ∧ (2 ^ 30 - 1 < 2 ^ 30 ∧ 2 ^ 30 ≤ 2 ^ 30 - 1 + 1 ∧ ¬(2 ^ 30 ≤ 2 ^ 30 - 2 + 1) ∧ 2 ^ 30 ≤ 2 ^ 30)
    ∧ mapped.dirty.contains (memoryPa mapped.chip 0#4 false 5 / 64) = false
    ∧ (paTarget 0x120 < 4 ∧ paChip 0x120 = mapped.chip ∧ mapped.inWells 0x120 = false)
    ∧ (paTarget (mkPa 0#12 0 2 0) < 4 ∧ mapped.inWells (mkPa 0#12 0 2 0) = false)
    ∧ (paTarget (spPa 0#12 0#4 0#5 8) = 4 ∧ paTarget (spPa 0#12 0#4 0#5 8) < 5 ∧ paChip (spPa 0#12 0#4 0#5 8) = mapped.chip)
    ∧ ¬(paTarget (mkPa 0#12 0 6 0) < 5) ∧ mapped.hart.unit.isSome = true ∧ pendingLatch.ra = none
    ∧ (pick (w := 1) pendingLatch.hart.ldesc 0#1).isSome = true := by decide +kernel

/-- The attestation of VF 0 has been asked for, to this address, for tenant t. -/
def attesting (va : Word) (t : BitVec 16) : State := mapped.onVf 0#10 fun f => { f with attBusy := true, attaddr := va, tenant := t }

theorem rejected (i : Image) (h : decide ((i.halls.toList.map fun h => h.plim.toNat).sum ≤ 7200) = false) : i.accepted = false := by
  unfold Image.accepted
  rw [h, Bool.and_false]

/-- An image whose power limits are above 7,200 W is not accepted; whether a signature verifies is open. A hall of the image fits, and one whose
ink region is that of its wells does not. -/
theorem witness_PowerAndAttestation :
    mapped.Inv ∧ (({ Image.standard with halls := Vector.replicate 16 { tenant := 1#16, wellcfg := 0#64, inkcfg := 0#64, cscfg := 0x130#64, plim := 451#16, firmware := [] } }
      : Image).accepted = false)
    ∧ (Image.standard.halls[0]).fits = true ∧ ({ Image.standard.halls[0] with inkcfg := 0x0000000800000010#64 } : HallImage).fits = false
    ∧ (mapped.vf 0#10).attBusy = false ∧ ((attesting 0x8000#64 1#16).vf 0#10).attBusy = true
    ∧ ((attesting 0x8004#64 1#16).vf 0#10).attaddr.toNat % 64 ≠ 0 ∧ (∀ k, (attesting 0x8000#64 9#16).owns 9#16 k = false)
    ∧ (let s := attesting 0x8000#64 1#16;
      (s.vf 0#10).attaddr.toNat % 64 = 0 ∧ s.owns 1#16 0#4 = true ∧ (s.hall 0#4).st = .running ∧ (∀ k < 0#4, s.owns 1#16 k = false)
        ∧ someIs (s.writeVfLines 0#10 0#4 0x8000#64 (lines64 (wordsBytes (s.attestWords 0#10 0)
            ++ leBytes 64 (Config.identitySign 0 (wordsBytes (s.attestWords 0#10 0))).toNat) 19)) (fun _ => true) = true) :=
  ⟨inv_of _ (by decide +kernel), rejected _ (by decide +kernel), by decide +kernel⟩

/-! ## Instructions left part-way, silent errors -/

/-- The hart is to run this word on the elements of s, with handlers of both trap sets, and this happens next. -/
def facing (s : State) (w : IWord) (h : Happening) : State := { (handled s).placeWords w 0#32 with schedule := [h] }

/-- VADD v1, v2, v3 on 128 elements of N32, 16 to a row, with 5 and 7 in the first elements of v2 and v3. -/
def adding (h : Happening) : State :=
  facing ((typed 6#4 128).setElem (vreg 2#5 32) 0 5 |>.setElem (vreg 3#5 32) 0 7) 0x8C221800#32 h

/-- What the next step fetches decodes, and p holds of the instruction and of the state that runs it. -/
noncomputable def runsOn (s : State) (p : State → Instr → Bool) : Bool :=
  match (started s).fetch with
  | (u, .words q w) => okIs (decode q w) fun i => p (u.setIr q w) i
  | _ => false

/-- The instruction, ending at n, would retire, with a handler of the S set free. -/
noncomputable def endsAt (v : State) (i : Instr) (n : Option Nat) : Bool :=
  nextIs (exec i { v with hart := { v.hart with cut := n } }) fun t =>
    v.retiredIn { t with hart := { t.hart with cut := none } } 4#64 && t.hart.mode == .a && vectorOf t.hart.sset != 0#64
      && !t.hart.sset.estat.getLsbD 2

/-- Element 16 begins a row, and element 17 none. -/
theorem witness_LeftPartWay :
    let s := adding (.turn (some (.row 16)))
    s.schedule.head? = some (.turn (some (.row 16))) ∧ RunsNext (started s) ∧ (started s).hart.spanLost = 0#8 ∧ (started s).hart.fq = .none
      ∧ runsOn s (fun v i => v.mayLeave (v.course i) 16 && endsAt v i (some 16)) = true
      ∧ runsOn (adding (.turn (some (.row 17)))) (fun v i => !v.mayLeave (v.course i) 17) = true :=
  ⟨by decide +kernel, runsNext_of (by decide +kernel), by decide +kernel⟩

/-- Row 1 of VADD; row 0 of VREDSUM and of VEXT; quarter 2 in MBLK. -/
theorem witness_SilentErrors :
    (let s := adding (.turn (some (.lanes 1)));
      RunsNext (started s) ∧ (started s).hart.spanLost = 0#8 ∧ (started s).hart.fq = .none
      ∧ runsOn s (fun v i => v.course i == .rows 32 128 true && max (v.rowStart 32 1) v.hart.vstart == 16 && v.rowStart 32 2 == 32
          && endsAt v i (some 16)) = true)
    ∧ ([(0x98221800#32, false), (0x8C22181E#32, true)].all fun p =>
        runsOn (facing (typed 6#4 128) p.1 (.turn (some (.lanes 0)))) fun v i => v.course i == .whole 32 p.2 && decide (v.rowStart 32 0 < v.hart.vl)
          && endsAt v i none) = true
    ∧ runsOn (facing (typed 10#4 2) 0xB0008002#32 (.turn (some (.macs 2#2)))) (fun v i => v.course i == .array && endsAt v i none) = true
    ∧ (adding (.charge 0#4 0#5 0#3 3#7 0#64)).schedule.head? = some (.charge 0#4 0#5 0#3 3#7 0#64) :=
  ⟨⟨runsNext_of (by decide +kernel), by decide +kernel⟩, by decide +kernel⟩

-- R123, Table 21.4: VADD left at its second row; R122: the three runs of row 0 disagree, so nothing is added
theorem test_left_at_row : nextIs (step (adding (.turn (some (.row 16))))) (fun t =>
    t.hart.vstart == 16 && t.hart.pc == 0#64 && t.elem (vreg 1#5 32) 0 == 12) = true := by decide +kernel
theorem test_silent_error : nextIs (step (adding (.turn (some (.lanes 0))))) (fun t =>
    t.hart.sset.ecause == 15#64 && t.hart.sset.eval == 0#64 && t.hart.sset.epc == 0#64 && t.hart.vstart == 0
      && t.elem (vreg 1#5 32) 0 == 0) = true := by decide +kernel

/-! ## One step each, against the manual's worked examples -/

/-- One instruction on two register values, x in g1 and y in g2, with g3 as its destination. -/
def scalar (i : Instr) (x y : Word) : Host.Outcome State Fault Refusal := exec i ((mapped.setG 1#5 x).setG 2#5 y)

/-- It leaves this value in g3. -/
def gives (i : Instr) (x y v : Word) : Bool := nextIs (scalar i x y) fun t => t.g 3#5 == v && t.hart.pc == 4#64

-- Table 5.2
theorem test_div_wraps : gives (.div 3#5 1#5 2#5) 0x8000000000000000#64 0xFFFFFFFFFFFFFFFF#64 0x8000000000000000#64 = true := by decide +kernel
theorem test_div_by_zero : gives (.div 3#5 1#5 2#5) 7#64 0#64 0xFFFFFFFFFFFFFFFF#64 = true := by decide +kernel
theorem test_rem_wraps : gives (.rem 3#5 1#5 2#5) 0x8000000000000000#64 0xFFFFFFFFFFFFFFFF#64 0#64 = true := by decide +kernel
theorem test_rem_sign : gives (.rem 3#5 1#5 2#5) (BitVec.ofInt 64 (-7)) 2#64 0xFFFFFFFFFFFFFFFF#64 = true := by decide +kernel
theorem test_sra_amount : gives (.sra 3#5 1#5 2#5) 0x8000000000000010#64 65#64 0xC000000000000008#64 = true := by decide +kernel
theorem test_mulhn : gives (.mulhn 3#5 1#5 2#5) 0xFFFFFFFFFFFFFFFF#64 2#64 1#64 = true := by decide +kernel
theorem test_clz_zero : gives (.clz 3#5 1#5) 0#64 0#64 64#64 = true := by decide +kernel
theorem test_sext : gives (.sext 3#5 1#5 2#5) 0x80#64 7#64 0xFFFFFFFFFFFFFF80#64 = true := by decide +kernel
theorem test_zext : gives (.zext 3#5 1#5 2#5) 0xFFFFFFFFFFFFFFFF#64 31#64 0xFFFFFFFF#64 = true := by decide +kernel
theorem test_g0_discards : nextIs (scalar (.addi 0#5 1#5 1#16) 5#64 0#64) (fun t => t.g 0#5 == 0#64 && t.hart.pc == 4#64) = true := by
  decide +kernel

-- R90's example: STD, then STB at byte 3, then LDW, the two stores still posted
theorem test_load_sees_posted_stores :
    let s := (mapped.post (storeRequest mapped 0x100#64 0x100 (leBytes 8 0x1122334455667788))).post (storeRequest mapped 0x103#64 0x103 (leBytes 1 0xAB))
    nextIs (exec (.ldw 7#5 8#5 0#16) (s.setG 8#5 0x100#64)) (fun t => t.g 7#5 == 0xFFFFFFFFAB667788#64) = true := by decide +kernel

-- R99's example: FMA keeps 2^−24; FMUL rounds the tie to even with NX
theorem test_fma_exact : nextIs (exec (.fma 8#5 9#5 10#5 0#3 false) (((mapped.setG 9#5 0x3F800800#64).setG 10#5 0x3F800800#64).setG 8#5 0xBF801000#64))
    (fun t => t.g 8#5 == 0x33800000#64 && t.hart.fstat == 0#64) = true := by decide +kernel
theorem test_fmul_tie : nextIs (scalar (.fmul 3#5 1#5 2#5 0#3 false) 0x3F800800#64 0x3F800800#64)
    (fun t => t.g 3#5 == 0x3F801000#64 && t.hart.fstat == 1#64) = true := by decide +kernel

-- R105's example: CAS2 that misses and one that succeeds, the descriptor being at 0x140
theorem test_cas2_misses : nextIs (exec (.cas2 8#5 12#5 10#5 3#3 false false)
      ((((((mapped.putWord 0x140 0x20000#64).putWord 0x148 8#64).setG 8#5 0x10000#64).setG 9#5 7#64).setG 10#5 0x10040#64).setG 11#5 8#64
        |>.setG 12#5 0x140#64))
    (fun t => t.g 8#5 == 0x20000#64 && t.g 9#5 == 8#64 && t.word 0x140 == 0x20000#64 && t.word 0x148 == 8#64) = true := by decide +kernel
theorem test_cas2_succeeds : nextIs (exec (.cas2 8#5 12#5 10#5 3#3 false false)
      ((((((mapped.putWord 0x140 0x20000#64).putWord 0x148 8#64).setG 8#5 0x20000#64).setG 9#5 8#64).setG 10#5 0x10040#64).setG 11#5 9#64
        |>.setG 12#5 0x140#64))
    (fun t => t.g 8#5 == 0x20000#64 && t.g 9#5 == 8#64 && t.word 0x140 == 0x10040#64 && t.word 0x148 == 9#64) = true := by decide +kernel

-- R110's example: a SYS fence in a limited VF, with SYSTRAP 0 and 1
theorem test_fence_demoted : nextIs (exec (.fence 5#3 true true) (mapped.onVf 0#10 fun f => { f with scope := 1#64 }))
    (fun t => t.hart.vstat == 0x40#64 && t.hart.pc == 4#64) = true := by decide +kernel
theorem test_fence_traps : nextIs (exec (.fence 5#3 true true) ((handled mapped).onVf 0#10 fun f => { f with scope := 3#64 }))
    (fun t => t.hart.sset.ecause == 18#64 && t.hart.sset.epc == 0#64 && t.hart.vstat == 0#64 && t.hart.pc == 0x1000#64) = true := by decide +kernel

-- R312, R315: TRAP 5 from mode A; ERET back to mode A
theorem test_trap_enters : nextIs (exec (.trap 5#5 0#5) (handled mapped)) (fun t => t.hart.mode == .s && t.hart.pc == 0x1000#64
    && t.hart.sset.epc == 4#64 && t.hart.sset.ecause == 22#64 && t.hart.sset.eval == 5#64 && t.hart.sset.estat == 0x14#64) = true := by decide +kernel
theorem test_eret_returns : nextIs (exec .eret ((inMode mapped .s).onHart fun h => { h with sset := { h.sset with epc := 0x40#64, estat := 4#64 } }))
    (fun t => t.hart.mode == .a && t.hart.pc == 0x40#64 && t.hart.sset.estat == 0#64) = true := by decide +kernel

/-- Elements of register r, from element 0 on. -/
def withElems (s : State) (r : BitVec 5) (w : Nat) (l : List Nat) : State :=
  ((List.range l.length).zip l).foldl (fun t p => t.setElem (vreg r w) p.1 p.2) s

/-- The first n elements of register r. -/
def elemsAt (s : State) (r : BitVec 5) (w n : Nat) : List Nat := (List.range n).map fun e => s.elem (vreg r w) e

-- Table 7.7: the four sources in v4; with saturation, into v8 and v12
theorem test_vcvtef : (match decode (some 0xF99820C0#32) 0x95046001#32 with
    | .ok i => nextIs (exec i ((withElems (typed 0#4 4) 4#5 32 [0x3F8CCCCD, 0x43EB0000, 0xC1C00000, 0x3A83126F]).onHart fun h => { h with vlmaxb := 1024 }))
        fun t => elemsAt t 8#5 8 4 == [0x39, 0x7E, 0xDC, 0x01] && elemsAt t 12#5 32 4 == [0xBCCCCCC0, 0x41B00000, 0, 0xBA79DB22]
          && t.hart.vstat == 0x1C#64 && t.hart.vstart == 0
    | .error _ => false) = true := by decide +kernel

-- R32's example: FP32 to BF16 under SR (6) with SRSEED 1, element 0
theorem test_vcvt_stochastic :
    ([(0x3F808000, 0x3F81), (0x3F804000, 0x3F80)].all fun p =>
      nextIs (exec (.vcvt (some { p0 with type := 10#4, rnd := 6#3 }) 4#5 2#5 12#4 false 0#3)
          ((withElems (typed 0#4 1) 2#5 32 [p.1]).onHart fun h => { h with srseed := 1#64 }))
        fun t => t.elem (vreg 4#5 16) 0 == p.2 && t.hart.vstat == 0x10#64) = true := by decide +kernel

/-- Table 8.6's N32 values in v1, and m1 where they are not zero. -/
def packing : State := (withElems (typed 6#4 8) 1#5 32 [5, 0, 3, 0, 0, 7, 2, 0]).onHart fun h => { h with m := put (w := 3) h.m 1#3 0x65#131072 }

-- the listing of the chapter on reductions, step by step
theorem test_vcmpne : nextIs (exec (.vcmpne { pfx := none, d := 2#3, a := 1#5, b := 2#5, ea := false, eb := false, msk := 0#3 }) packing)
    (fun t => pick (w := 3) t.hart.m 2#3 == 0x65#131072) = true := by decide +kernel
theorem test_vpack : nextIs (exec (.vpack { pfx := none, d := 3#5, a := 1#5, ea := false, msk := 1#3 }) packing)
    (fun t => elemsAt t 3#5 32 8 == [5, 3, 7, 2, 0, 0, 0, 0]) = true := by decide +kernel
theorem test_mpop : nextIs (exec (.mpop none 10#5 1#3 0#3) packing) (fun t => t.g 10#5 == 4#64) = true := by decide +kernel
theorem test_vscanx : nextIs (exec (.vscanx { pfx := none, d := 4#5, a := 1#5, b := 2#5, ea := false, eb := false, msk := 0#3 }) packing)
    (fun t => elemsAt t 4#5 32 8 == [0, 5, 5, 8, 8, 8, 15, 17] && t.hart.vstat == 0#64) = true := by decide +kernel
theorem test_vredmaxn : nextIs (exec (.vredmaxn { pfx := none, d := 5#5, a := 1#5, b := 2#5, ea := false, eb := false, msk := 0#3 }) packing)
    (fun t => elemsAt t 5#5 32 8 == [7, 0, 0, 0, 0, 0, 0, 0]) = true := by decide +kernel

/-- R42's example: 2^24, 1, 1 and 1 in v1, with mask m1 without element 1. -/
def summing : State := (withElems (typed 12#4 4) 1#5 32 [0x4B800000, 0x3F800000, 0x3F800000, 0x3F800000]).onHart fun h =>
  { h with m := put (w := 3) h.m 1#3 0xD#131072 }

theorem test_vfredsum_tree : ([0#3, 1#3].all fun m =>
    nextIs (exec (.vfredsum { pfx := none, d := 3#5, a := 1#5, b := 2#5, ea := false, eb := false, msk := m }) summing)
      fun t => t.elem (vreg 3#5 32) 0 == 0x4B800001) = true := by decide +kernel
theorem test_vfscan_in_order : nextIs (exec (.vfscan { pfx := none, d := 3#5, a := 1#5, b := 2#5, ea := false, eb := false, msk := 0#3 }) summing)
    (fun t => elemsAt t 3#5 32 4 == [0x4B800000, 0x4B800000, 0x4B800000, 0x4B800000]) = true := by decide +kernel

-- the first element of R162's example: index 2 and addend 1 on the words 10, 0, 4
theorem test_vamoadd : nextIs (exec (.vamoadd { pfx := some { p0 with type := 6#4 }, d := 6#5, a := 3#5, b := 7#5, ch := false, msk := 0#3, k := 0#3 })
      ((withElems (withElems (typed 6#4 1) 7#5 32 [2]) 6#5 32 [1]).setG 3#5 0x100#64
        |>.putWord 0x100 10#64 |>.putWord 0x108 4#64))
    (fun t => t.settleAll.word 0x100 == 10#64 && t.settleAll.word 0x108 == 5#64) = true := by decide +kernel

-- Table 9.6: hart A's append of three FP32 values, and hart B's of two I64 values, each on the tail that it finds
theorem test_vapnd_first : ([(4, 4, 16), (24, 24, 36)].all fun (p : Nat × Nat × Nat) =>
    nextIs (exec (.vapnd (some { p0 with type := 12#4 }) 2#5 8#5 9#5 false 0#3 0#3)
        (((typed 6#4 3).onInk 0x800000000 fun x => { x with st := .openPage, tail := p.1 }).setG 8#5 0x30000#64))
      fun t => t.g 9#5 == BitVec.ofNat 64 p.2.1 && (t.inkPage 0x800000000).tail == p.2.2) = true := by decide +kernel
theorem test_vapnd_aligns : ([(16, 16, 32), (4, 8, 24)].all fun (p : Nat × Nat × Nat) =>
    nextIs (exec (.vapnd (some { p0 with type := 7#4 }) 5#5 8#5 10#5 false 0#3 0#3)
        (((withElems (typed 6#4 2) 5#5 64 [7, 2 ^ 64 - 1]).onInk 0x800000000 fun x => { x with st := .openPage, tail := p.1 }).setG 8#5 0x30000#64))
      fun t => t.g 10#5 == BitVec.ofNat 64 p.2.1 && (t.inkPage 0x800000000).tail == p.2.2
        && t.word (0x800000000 + p.2.1 + 8) == BitVec.allOnes 64) = true := by decide +kernel

/-- The WLX line at page 2, with anchor 30 and element 0 holding N. -/
def wellOf (n : Word) : State := (wlxAt.onWell (0x400010000 / 64) fun w => { w with e := 30#8, res := .resident }).putWord 0x400010000 n

-- R38's example: WDEP of 1.0, of −2^24, and of 2^−40, which changes nothing; WREAD
theorem test_wdep : ([(0x3F800000, 0x100000000#64), (0xCB800000, 0xFF00000000000000#64), (0x2B800000, 0#64)].all fun (p : Nat × Word) =>
    nextIs (exec (.wdep none 3#5 1#5 false 0#3 0#3) (withElems (wellOf 0#64) 3#5 32 [p.1])) fun t => t.settleAll.word 0x400010000 == p.2) = true := by
  decide +kernel
theorem test_wread : nextIs (exec (.wread none 4#5 1#5 0#3 0#3) (wellOf 0x100000000#64)) (fun t => t.elem (vreg 4#5 32) 0 == 0x3F800000) = true := by
  decide +kernel

-- Table 2.9: the incoming partial below the window
theorem test_group_sum : ([(0, 0x67800000), (0x3F800000, 0x67800001), (0xBF800000, 0x67800000)].all fun (p : Nat × Nat) =>
    (groupSum p.1 [mulVal (Fmt.bf16.value 0x5380) (Fmt.bf16.value 0x5380), mulVal (Fmt.bf16.value 0x4D80) (Fmt.bf16.value 0x4D80)] false).1 == p.2) = true := by
  decide +kernel

/-- The latches of the matrix chapter's example, in E4M3: rows (1, −1) and (2, 0.5); and (3, 4); the depth 2 in g16. -/
def latched : State := ((typed 8#4 2).onHart fun h =>
  { h with l := put (w := 1) (put (w := 1) h.l 0#1 (BitVec.ofNat 65536 (0xB838 + 0x3040 * 2 ^ 1024))) 1#1 0x4844#65536 }).setG 16#5 2#64

theorem test_mblk : nextIs (exec (.mblk none 0#2 16#5) latched) (fun t =>
    tileElem 32 (t.tile 0#2) 0 0 == 0xBF800000 && tileElem 32 (t.tile 0#2) 1 0 == 0x41000000 && tileElem 32 (t.tile 0#2) 0 1 == 0
      && t.hart.vstat == 0#64) = true := by decide +kernel
theorem test_zdim : nextIs (exec (.zdim none 3#5) (mapped.onHart fun h =>
    { h with claim := some { ceiling := 8, grant := 8, share := 1#2, span := 0#2, dies := 0#8, places := [] } })) (fun t => t.g 3#5 == 0x14040#64) = true := by
  decide +kernel

-- the barrier example of the chapter on units: GEN 1, TGT 2, LOST 1
theorem test_barwait_status : nextIs (exec (.barwait 9#5 1#5 2#5)
      ((mapped.setG 1#5 1#64).setBarrier (.cluster (loadedUnit 0#4 0#5 0#3) 1) { Barrier.reset with gen := 1#32, tgt := 2, last := (1#32, 2, true) }))
    (fun t => t.g 9#5 == 0x0001000200000001#64) = true := by decide +kernel

-- Table 16.5 and Table 16.6
theorem test_split : splitChunks 1024 [1650, 1180, 370] = [528, 378, 118] := by decide +kernel
theorem test_sum_in_rank_order : sumFrom [0x4B800000, 0x3F800000, 0x3F800000, 0x3F800000] = 0x4B800000 := by decide +kernel

-- R215's example: shares under CAP 128 and 80, and after hart 5 has exited
theorem test_shares :
    let c (cap : Nat) (l : List (Nat × Nat)) : Cluster := { Cluster.reset with cap := cap, claims := l.map fun p => { hart := p.1, ceiling := p.2, granted := p.2, share := 0#2 } }
    (c 128 []).grantFor 5 128 = 64 ∧ (c 128 [(0, 64)]).grantFor 4 64 = 32 ∧ (c 128 [(0, 64), (3, 32)]).grantFor 3 16 = 8
      ∧ ((c 80 [(0, 64), (3, 32), (5, 8)]).shares 3).map (·.granted) = [32, 16, 8] ∧ ((c 80 [(0, 64), (3, 32)]).shares 3).map (·.granted) = [32, 16] := by
  decide +kernel

-- R376's example: the wavelength from die 3 to die 4 goes dark, and the pair is relayed
theorem test_wavelength_dark : nextIs (exec (.wavelengthDark 3#3 1#3) mapped) (fun t => pick (w := 3) t.fabric.dark 3#3 == 0x10#8) = true := by decide +kernel
theorem test_relay : nextIs (exec (.relayEstablished 3#3 4#3) { mapped with fabric := { mapped.fabric with dark := put (w := 3) mapped.fabric.dark 3#3 0x10#8 } })
    (fun t => t.fabric.stat 3#3 == 0x1010#64) = true := by decide +kernel

-- the address of the lane pool register of cluster 5 of hall 3, and of the tail-table entry of ink frame 2 of it (the census chapter)
theorem test_register_address : mkPa 0#12 1 5 (0x02000000 + 0x2500) = 0x0002500002002500 := by decide +kernel

end Sys2Proof.Tests
end

/-! # Fetching and running one instruction (R6, R59, R68, R116, R221) -/

namespace Sys2Proof.Machine

/-! ## What a fetch changes -/

/-- A walk that finds its leaf lost no read. -/
theorem State.walkFrom_lost (s : State) (who : Option (BitVec 10)) (frm : BitVec 4) (va pte : Word) (left t : Nat)
    (seen : List (Nat × Word)) (h : (s.walkFrom who frm va left t seen).res = .ok pte) :
    (s.walkFrom who frm va left t seen).lost = none := by
  induction left generalizing t seen with
  | zero =>
    unfold State.walkFrom at h ⊢
    grind
  | succ n ih =>
    unfold State.walkFrom at h ⊢
    grind

theorem State.walked_lost (s : State) (who : Option (BitVec 10)) (frm : BitVec 4) (va pte : Word)
    (h : (s.walked who frm va).res = .ok pte) : (s.walked who frm va).lost = none := by
  unfold State.walked at h ⊢
  split at h
  · cases h
  · exact s.walkFrom_lost _ _ _ _ _ _ _ h

/-- Keeping a translation that was found changes the cached translations only: no gate refused a read of its walk. -/
theorem State.fillTlb_of_leaf (s : State) (who : Option (BitVec 10)) (frm : BitVec 4) (va pte : Word)
    (h : s.leaf who frm false va = .ok pte) :
    ∃ tlb walks, s.fillTlb who frm va = { s with tlb := tlb, walks := walks } := by
  unfold State.fillTlb State.fillTlbBy
  dsimp only
  split
  · exact ⟨_, _, rfl⟩
  · rename_i unused
    rw [h]
    dsimp only
    split
    · exact ⟨_, _, rfl⟩
    · rename_i miss
      have none_used : (s.cached who frm false va).find? (fun e => e.used == s.era) = none := by simpa using unused
      have lost : (s.walked who frm va).lost = none :=
        s.walked_lost who frm va pte (by simpa [State.leaf, none_used, Option.not_isSome_iff_eq_none.mp miss, State.walk] using h)
      rw [lost]
      exact ⟨_, _, rfl⟩

theorem State.fillTlb_hart (s : State) (who : Option (BitVec 10)) (frm : BitVec 4) (va : Word) :
    (s.fillTlb who frm va).hart = s.hart := by
  have e := congrArg State.hart (State.fillTlbBy_rest s false who frm va)
  exact e

theorem State.fetchHome_hart (s : State) (pa : Nat) : (s.fetchHome pa).1.hart = s.hart := by
  unfold State.fetchHome
  split
  · have e := congrArg State.hart (s.logRefusal_rest s.who s.myHall pa ‹_›)
    exact e
  · dsimp only
    (repeat' split) <;> rfl

theorem State.fetchAt_hart (s : State) (va : Word) : (s.fetchAt va).1.hart = s.hart := by
  have filled := s.fillTlb_hart s.who s.myHall va
  have home (pa : Nat) := ((s.fillTlb s.who s.myHall va).fetchHome_hart pa).trans filled
  unfold State.fetchAt
  dsimp only
  split
  · rfl
  · split
    · rfl
    · split
      · exact filled
      · rename_i x _
        have e := home x.pa
        split
        · exact filled
        · split <;> simp_all

/-- A fetch leaves the hart as it is. -/
theorem State.fetch_hart (s : State) : s.fetch.1.hart = s.hart := by
  have first := s.fetchAt_hart s.hart.pc
  have second (t : State) := t.fetchAt_hart (s.hart.pc + 4#64)
  unfold State.fetch
  dsimp only
  split
  · simp_all
  · rename_i t w _
    have e := second t
    split
    · split <;> simp_all
    · simp_all

/-- A fetch that its home answers, and that no cached word can make stale, finds the bytes there; it fills the translations and the
instruction cache. -/
theorem State.fetchAt_ok (s : State) (va : Word) (x : Xl) (align : va.toNat % 4 = 0) (canon : canonical va = true)
    (hx : s.hartXlate s.myHall .fetch va 4 = .ok x) (nrm : x.cls = .nrm) (reached : s.refusal s.who s.myHall x.pa 4 false = none)
    (clean : s.poisoned x.pa 4 = false) (unheld : alFind x.pa s.icache = none) :
    ∃ tlb walks icache, s.fetchAt va
      = ({ s with tlb := tlb, walks := walks, icache := icache }, .ok (BitVec.ofNat 32 (leNat (s.bytes x.pa 4)))) := by
  obtain ⟨pte, leaf⟩ : ∃ pte, s.leaf s.who s.myHall false va = .ok pte := by
    simp only [State.hartXlate, State.translate, State.translateBy, if_true] at hx
    split at hx
    · cases hx
    · exact ⟨_, ‹_›⟩
  obtain ⟨tlb, walks, filled⟩ := s.fillTlb_of_leaf _ _ _ _ leaf
  refine ⟨tlb, walks, alSet x.pa (BitVec.ofNat 32 (leNat (s.bytes x.pa 4))) s.icache, ?_⟩
  have home : (s.fillTlb s.who s.myHall va).fetchHome x.pa
      = ({ s with tlb := tlb, walks := walks, icache := alSet x.pa (BitVec.ofNat 32 (leNat (s.bytes x.pa 4))) s.icache },
        some (BitVec.ofNat 32 (leNat (s.bytes x.pa 4)))) := by
    have reached' : ({ s with tlb := tlb, walks := walks } : State).refusal
      ({ s with tlb := tlb, walks := walks } : State).who ({ s with tlb := tlb, walks := walks } : State).myHall x.pa 4 false = none := reached
    have clean' : ({ s with tlb := tlb, walks := walks } : State).poisoned x.pa 4 = false := clean
    rw [filled, State.fetchHome, reached', clean']
    simp only [unheld]
    rfl
  simp only [State.fetchAt, align, canon, hx, nrm, home]
  rfl

/-- A word that governs no second one is fetched alone (R59). -/
theorem State.fetch_ok (s : State) (x : Xl) (w : IWord) (align : s.hart.pc.toNat % 4 = 0) (canon : canonical s.hart.pc = true)
    (hx : s.hartXlate s.myHall .fetch s.hart.pc 4 = .ok x) (nrm : x.cls = .nrm)
    (reached : s.refusal s.who s.myHall x.pa 4 false = none) (clean : s.poisoned x.pa 4 = false)
    (unheld : alFind x.pa s.icache = none) (hw : w = BitVec.ofNat 32 (leNat (s.bytes x.pa 4))) (notPfx : isPfx w = false) :
    ∃ u, s.fetch = (u, .words none w) ∧ (u.setIr none w).hart = { s.hart with ir := (none, w) }
      ∧ { u.setIr none w with hart := s.hart, tlb := s.tlb, walks := s.walks, icache := s.icache } = s := by
  obtain ⟨tlb, walks, icache, found⟩ := s.fetchAt_ok s.hart.pc x align canon hx nrm reached clean unheld
  refine ⟨{ s with tlb := tlb, walks := walks, icache := icache }, ?_, rfl, rfl⟩
  rw [State.fetch, found, ← hw]
  simp only [notPfx]
  rfl

/-! ## The hart's turn, where it runs an instruction -/

/-- A step that the schedule leaves to the hart is its turn, from the state in which what was placed has started. -/
theorem step_of_turn (s : State) (h : s.schedule.head?.all (· == .turn none) = true) : step s = andTick ((started s).turn none) := by
  unfold step started
  split
  · rename_i nothing
    rw [show s.schedule.tail = s.schedule by rw [nothing]; rfl]
  · rename_i e r more
    obtain rfl : e = .turn none := by simpa [more] using h
    rw [more]
    rfl

theorem RunsNext.turn_eq {s : State} (h : RunsNext s) (stop : Option Stop) : s.turn stop = s.runNext stop := by
  obtain ⟨awake, wanted, ahead, built, unwaiting, unowed⟩ := h
  simp [State.turn, awake, wanted, ahead, built, unwaiting, unowed]

/-- An instruction that the schedule does not leave part-way has the whole effect of `exec`. -/
theorem State.andTick_perform (s : State) (i : Instr) (w : IWord) (pfx : Bool) : andTick (s.perform i w pfx none) = ranIn s i w := by
  have whole : s.runStopped i w pfx none = none := by unfold State.runStopped; split <;> rfl
  unfold State.perform ranIn
  rw [whole]
  cases exec i s <;> rfl

/-- Neither the answer of a hypervisor nor a count of element rows hides which trap an instruction took. -/
theorem State.trapped_countRows (s t : State) (w : IWord) :
    s.trapped (s.countRows (t.onHart fun h => { h with fq := .none }) w) = s.trapped t := by
  unfold State.countRows
  split <;> rfl

theorem State.illegalIn_countRows (s t : State) (i : Instr) (w : IWord) :
    s.illegalIn i (s.countRows (t.onHart fun h => { h with fq := .none }) w) = s.illegalIn i t := by
  simp only [State.illegalIn, State.trapped_countRows]

theorem andTick_orSpanLoss_next (s t : State) (i : Instr) (w : IWord) (pfx : Bool) (ht : exec i s = .next t)
    (lost : s.hart.spanLost ≠ 0#8) (vector : isVector w = true) :
    andTick (s.orSpanLoss i w (s.perform i w pfx none))
      = if s.illegalIn i t = true then ranIn s i w else .next s.takeSpanLoss.tick := by
  have whole : s.runStopped i w pfx none = none := by unfold State.runStopped; split <;> rfl
  simp only [State.orSpanLoss, State.perform, whole, ht, ranIn, lost, vector, ne_eq, not_false_eq_true, decide_true, Bool.and_self,
    if_true, State.illegalIn_countRows]
  split <;> rfl

/-- A step that fetches the words of an instruction performs it, or takes the fault of its span. -/
theorem step_of_words (s u : State) (p : Option IWord) (w : IWord) (i : Instr) (turn : s.schedule.head?.all (· == .turn none) = true)
    (runs : RunsNext (started s)) (fetched : (started s).fetch = (u, .words p w)) (dec : decode p w = .ok i) :
    step s = andTick ((u.setIr p w).orSpanLoss i w ((u.setIr p w).perform i w p.isSome none)) := by
  rw [step_of_turn s turn, runs.turn_eq, State.runNext, fetched]
  simp only [State.runWords, dec]

theorem step_of_words_unlost (s u : State) (p : Option IWord) (w : IWord) (i : Instr)
    (turn : s.schedule.head?.all (· == .turn none) = true) (runs : RunsNext (started s))
    (fetched : (started s).fetch = (u, .words p w)) (dec : decode p w = .ok i)
    (unlost : (started s).hart.spanLost = 0#8 ∨ isVector w = false) : step s = ranIn (u.setIr p w) i w := by
  have hart : u.hart = (started s).hart := by rw [← (started s).fetch_hart, fetched]
  have kept : ¬((u.setIr p w).hart.spanLost ≠ 0#8 && isVector w) = true := by
    show ¬(u.hart.spanLost ≠ 0#8 && isVector w) = true
    rw [hart]
    rcases unlost with h | h <;> simp [h]
  rw [step_of_words s u p w i turn runs fetched dec]
  unfold State.orSpanLoss
  rw [if_neg kept, State.andTick_perform]

/-- Settles O3: the turn reaches the fetch, whose two parts are `fetchAt_ok` (what it finds and fills) and `fetch_hart`; what is
fetched is performed whole, since the schedule leaves it nowhere. -/
theorem stepRunsDecoded : Obligations.StepRunsDecoded := by
  unfold Obligations.StepRunsDecoded
  intro s s' turn runs
  refine ⟨?_, ?_⟩
  · intro x w i unlost align canon hx nrm reached clean unheld hw notPfx dec
    obtain ⟨u, fetched, hart, rest⟩ := s'.fetch_ok x w align canon hx nrm reached clean unheld hw notPfx
    exact ⟨_, hart, rest, step_of_words_unlost s u none w i turn runs fetched dec (.inl unlost)⟩
  · intro u p w i fetched dec v
    have hart : u.hart = s'.hart := by rw [← s'.fetch_hart, fetched]
    refine ⟨step_of_words_unlost s u p w i turn runs fetched dec, ?_⟩
    intro lost vector t ht
    rw [step_of_words s u p w i turn runs fetched dec]
    exact andTick_orSpanLoss_next v t i w p.isSome ht (by rw [← hart] at lost; exact lost) vector

end Sys2Proof.Machine

/-! # Power-on and attestation (R395, R397, R398, R403) -/

namespace Sys2Proof.Machine

/-! ## Keyed lists, bits, memory -/

theorem alFind_alSet {κ ν : Type} [DecidableEq κ] (k j : κ) (v : ν) (l : List (κ × ν)) :
    alFind j (alSet k v l) = if j = k then some v else alFind j l := by
  induction l with
  | nil => simp [alSet, alFind, eq_comm]
  | cons p r ih =>
    obtain ⟨i, x⟩ := p
    by_cases hi : i = k
    · subst hi; by_cases hj : j = i <;> simp [alSet, alFind, hj, eq_comm]
    · by_cases hj : j = k
      · subst hj; simp [alSet, alFind, hi, ih]
      · simp [alSet, alFind, hi, ih, hj]

theorem getLsbD_setBit {n : Nat} (x : BitVec n) (i j : Nat) (b : Bool) :
    (setBit x i b).getLsbD j = (decide (j < n) && if j = i then b else x.getLsbD j) := by
  unfold setBit setField
  by_cases hj : j < n
  · rcases Nat.lt_trichotomy j i with h | h | h
    · simp [hj, h, Nat.ne_of_lt h]
    · subst h; cases b <;> simp [hj]
    · have : j - i ≠ 0 := by omega
      cases b <;> simp [hj, this, Nat.ne_of_gt h]
  · simp [hj]

/-- Every address below the first cell of canonical memory reads as unlisted. -/
theorem Memory.read_of_lt {m : List Host.Cell} {lo a : Nat} (wf : Memory.wfFrom lo m = true) (h : a < lo) :
    Memory.read m a = Memory.unlisted := by
  cases m with
  | nil => rfl
  | cons c r =>
    simp only [Memory.wfFrom, Bool.and_eq_true, decide_eq_true_eq] at wf
    rw [Memory.read, if_pos (by omega)]

/-- Dropping the cells outside a set of addresses makes those addresses read as unlisted, and no other. -/
theorem Memory.read_filter (p : Nat → Bool) (m : List Host.Cell) (lo a : Nat) (wf : Memory.wfFrom lo m = true) :
    Memory.read (m.filter fun c => p c.1) a = if p a = true then Memory.read m a else Memory.unlisted := by
  induction m generalizing lo with
  | nil => simp [Memory.read]
  | cons c r ih =>
    obtain ⟨x, b⟩ := c
    simp only [Memory.wfFrom, Bool.and_eq_true, decide_eq_true_eq] at wf
    obtain ⟨-, rest⟩ := wf
    have below (h : a ≤ x) : Memory.read r a = Memory.unlisted := Memory.read_of_lt rest (by omega)
    have tail := ih _ rest
    rcases Nat.lt_trichotomy a x with h | rfl | h
    · cases hp : p x <;> simp [hp, Memory.read, h, tail, below (Nat.le_of_lt h)]
    · cases hp : p a <;> simp [hp, Memory.read, tail]
    · cases hp : p x <;> simp [hp, Memory.read, Nat.not_lt.mpr (Nat.le_of_lt h), Nat.ne_of_gt h, tail]

/-! ## Places of the state -/

theorem State.hall_onHall (s : State) (h k : BitVec 4) (f : Hall → Hall) :
    (s.onHall h f).hall k = if k = h then f (s.hall h) else s.hall k :=
  pick_put ..

theorem State.vf_onVf (s : State) (v w : BitVec 10) (f : VF → VF) :
    (s.onVf v f).vf w = if w = v then f (s.vf v) else s.vf w := by
  unfold State.vf State.onVf
  rw [alFind_alSet]
  by_cases h : w = v
  · subst h; simp [State.vf]
  · simp [h, BitVec.toNat_inj]

/-! ## Loops over the halls -/

/-- What holds before turn m of a loop and is kept by the other turns, and what turn m makes of it, which they keep too, holds at
the end. -/
theorem foldl_range_turn {σ : Type} (f : σ → Nat → σ) (before after : σ → Prop) (m k : Nat) (hm : m < k)
    (keepsBefore : ∀ s n, n < k → n ≠ m → before s → before (f s n)) (turn : ∀ s, before s → after (f s m))
    (keepsAfter : ∀ s n, n < k → n ≠ m → after s → after (f s n)) (s : σ) (hs : before s) :
    after ((List.range k).foldl f s) := by
  have upTo (j : Nat) (hj : j ≤ k) :
      (j ≤ m → before ((List.range j).foldl f s)) ∧ (m < j → after ((List.range j).foldl f s)) := by
    induction j with
    | zero => exact ⟨fun _ => hs, fun h => absurd h (Nat.not_lt_zero m)⟩
    | succ j ih =>
      obtain ⟨low, high⟩ := ih (by omega)
      rw [List.range_succ, List.foldl_append]
      refine ⟨fun h => keepsBefore _ j (by omega) (by omega) (low (by omega)), fun h => ?_⟩
      rcases Nat.lt_or_eq_of_le (Nat.le_of_lt_succ h) with h | rfl
      · exact keepsAfter _ j (by omega) (by omega) (high h)
      · exact turn _ (low (Nat.le_refl _))
  exact (upTo k (Nat.le_refl k)).2 hm

theorem ofNat_ne_of_ne_toNat {h : BitVec 4} {n : Nat} (hn : n < 16) (ne : n ≠ h.toNat) : h ≠ BitVec.ofNat 4 n := by
  rintro rfl
  exact ne (by simp [Nat.mod_eq_of_lt hn])

/-! ## Bringing a hall up (R397, R403) -/

/-- Outside the halls and PKGSTAT nothing has changed. -/
def SameButHalls (s t : State) : Prop := { t with halls := s.halls, pkgstat := s.pkgstat } = s

theorem SameButHalls.trans {s t u : State} (a : SameButHalls s t) (b : SameButHalls t u) : SameButHalls s u := by
  unfold SameButHalls at *
  rw [State.mk.injEq] at *
  simp_all

theorem SameButHalls.setPkgstat {s t : State} (a : SameButHalls s t) (x : BitVec 16) : SameButHalls s { t with pkgstat := x } := a

theorem SameButHalls.image {s t : State} (a : SameButHalls s t) : t.image = s.image := by
  have e := congrArg State.image a
  exact e

theorem SameButHalls.hid {s t : State} (a : SameButHalls s t) : t.hid = s.hid := by
  have e := congrArg State.hid a
  exact e

theorem SameButHalls.foldl {f : State → Nat → State} (hf : ∀ s n, SameButHalls s (f s n)) (l : List Nat) (s : State) :
    SameButHalls s (l.foldl f s) := by
  induction l generalizing s with
  | nil => rfl
  | cons n r ih => exact (hf s n).trans (ih (f s n))

theorem State.measureHall_rest (s : State) (h : BitVec 4) : SameButHalls s (s.measureHall h) := by
  unfold State.measureHall State.extend
  rfl

theorem State.releaseHall_rest (s : State) (h : BitVec 4) : SameButHalls s (s.releaseHall h) := rfl

theorem State.bringUpHall_fit (s : State) (n : Nat) (fits : (pick (w := 4) s.image.halls (BitVec.ofNat 4 n)).fits = true) :
    s.bringUpHall n = (let h := BitVec.ofNat 4 n
      let t := ((s.onHall h fun x =>
        { x.withImage (pick (w := 4) s.image.halls h) with tenant := (pick (w := 4) s.image.halls h).tenant }).measureHall h).releaseHall h
      { t with pkgstat := setBit t.pkgstat n true }) := by
  unfold State.bringUpHall
  dsimp only
  rw [fits]
  rfl

theorem State.bringUpHall_unfit (s : State) (n : Nat) (fits : (pick (w := 4) s.image.halls (BitVec.ofNat 4 n)).fits = false) :
    s.bringUpHall n = s := by
  simp [State.bringUpHall, fits]

theorem State.bringUpHall_rest (s : State) (n : Nat) : SameButHalls s (s.bringUpHall n) := by
  cases fits : (pick (w := 4) s.image.halls (BitVec.ofNat 4 n)).fits with
  | false => rw [s.bringUpHall_unfit n fits]; rfl
  | true =>
    rw [s.bringUpHall_fit n fits]
    have loaded (f : Hall → Hall) : SameButHalls s (s.onHall (BitVec.ofNat 4 n) f) := rfl
    exact (((loaded _).trans (State.measureHall_rest ..)).trans (State.releaseHall_rest ..)).setPkgstat _

/-- A hall that comes up has its regions, its tenant and HMEAS from its image, and has left reset. -/
def BroughtUp (x : Hall) (i : HallImage) : Prop :=
  x.tenant = i.tenant ∧ x.wellcfg = gibCfg i.wellcfg ∧ x.inkcfg = inkCfg i.inkcfg ∧ x.cscfg = gibCfg i.cscfg ∧ x.plim = i.plim
    ∧ x.st ≠ .reset ∧ (i.tenant = 0#16 → x.st = .fenced) ∧ x.hmcnt = 2#32

theorem State.releaseHall_hall (s : State) (h : BitVec 4) (hs : (s.hall h).st = .reset) :
    ∃ st err, (s.releaseHall h).hall h = { s.hall h with st := st, shapeErr := err } ∧ st ≠ .reset
      ∧ ((s.hall h).tenant = 0#16 → st = .fenced) := by
  unfold State.releaseHall
  dsimp only
  rw [State.hall_onHall, if_pos rfl, if_pos hs]
  refine ⟨_, _, rfl, ?_, ?_⟩
  · split <;> simp
  · intro t0
    simp [t0]

theorem State.extend_hall (s : State) (h : BitVec 4) (msg : List Byte) :
    ∃ m, (s.extend h msg).hall h
      = { s.hall h with hmeas := m, hmcnt := if (s.hall h).hmcnt = BitVec.allOnes 32 then (s.hall h).hmcnt else (s.hall h).hmcnt + 1 } := by
  unfold State.extend
  rw [State.hall_onHall, if_pos rfl]
  exact ⟨_, rfl⟩

/-- HMEAS has been extended by two records since it was 0 (R397). -/
theorem State.measureHall_hall (s : State) (h : BitVec 4) :
    ∃ m, (s.measureHall h).hall h = { s.hall h with hmeas := m, hmcnt := 2#32 } := by
  unfold State.measureHall
  dsimp only
  obtain ⟨m₂, two⟩ := State.extend_hall ((s.onHall h _).extend h _) h _
  obtain ⟨m₁, one⟩ := State.extend_hall (s.onHall h _) h _
  rw [two, one, State.hall_onHall, if_pos rfl]
  exact ⟨m₂, rfl⟩

theorem State.extend_other (s : State) (h k : BitVec 4) (hk : k ≠ h) (msg : List Byte) : (s.extend h msg).hall k = s.hall k := by
  rw [State.extend, State.hall_onHall, if_neg hk]

theorem State.measureHall_other (s : State) (h k : BitVec 4) (hk : k ≠ h) : (s.measureHall h).hall k = s.hall k := by
  rw [State.measureHall, State.extend_other _ h k hk, State.extend_other _ h k hk, State.hall_onHall, if_neg hk]

theorem State.bringUpHall_same (s : State) (h : BitVec 4) (fits : (pick (w := 4) s.image.halls h).fits = true)
    (hs : (s.hall h).st = .reset) : BroughtUp ((s.bringUpHall h.toNat).hall h) (pick (w := 4) s.image.halls h)
      ∧ (s.bringUpHall h.toNat).pkgstat.getLsbD h.toNat = true := by
  let i := pick (w := 4) s.image.halls h
  let s1 := s.onHall h fun x => { x.withImage i with tenant := i.tenant }
  have loaded : s1.hall h = { (s.hall h).withImage i with tenant := i.tenant } := by
    rw [State.hall_onHall, if_pos rfl]
  obtain ⟨m, measured⟩ := s1.measureHall_hall h
  obtain ⟨st, err, released, notReset, fenced⟩ := (s1.measureHall h).releaseHall_hall h (by rw [measured, loaded]; exact hs)
  have up : s.bringUpHall h.toNat
      = { (s1.measureHall h).releaseHall h with pkgstat := setBit ((s1.measureHall h).releaseHall h).pkgstat h.toNat true } := by
    simp only [State.bringUpHall, BitVec.ofNat_toNat, BitVec.setWidth_eq, fits]
    rfl
  have hall : (s.bringUpHall h.toNat).hall h = ((s1.measureHall h).releaseHall h).hall h := by rw [up]; rfl
  rw [measured, loaded] at released fenced
  refine ⟨?_, ?_⟩
  · rw [hall, released]
    exact ⟨rfl, rfl, rfl, rfl, rfl, notReset, fenced, rfl⟩
  · rw [up, getLsbD_setBit, if_pos rfl, decide_eq_true h.isLt, Bool.and_self]

theorem State.releaseHall_other (s : State) (h k : BitVec 4) (hk : k ≠ h) : (s.releaseHall h).hall k = s.hall k := by
  unfold State.releaseHall
  dsimp only
  rw [State.hall_onHall, if_neg hk]

theorem State.measureHall_pkgstat (s : State) (h : BitVec 4) : (s.measureHall h).pkgstat = s.pkgstat := by
  simp [State.measureHall, State.extend]

theorem State.releaseHall_pkgstat (s : State) (h : BitVec 4) : (s.releaseHall h).pkgstat = s.pkgstat := rfl

/-- Bringing another hall up changes neither a hall nor its bit of PKGSTAT. -/
theorem State.bringUpHall_other (s : State) (h : BitVec 4) (n : Nat) (hn : n < 16) (ne : n ≠ h.toNat) :
    (s.bringUpHall n).hall h = s.hall h ∧ (s.bringUpHall n).pkgstat.getLsbD h.toNat = s.pkgstat.getLsbD h.toNat := by
  have hh := ofNat_ne_of_ne_toNat hn ne
  let i := pick (w := 4) s.image.halls (BitVec.ofNat 4 n)
  cases fits : i.fits with
  | false => rw [s.bringUpHall_unfit n fits]; exact ⟨rfl, rfl⟩
  | true =>
    rw [s.bringUpHall_fit n fits]
    generalize BitVec.ofNat 4 n = k at hh ⊢
    refine ⟨?_, ?_⟩
    · refine (State.releaseHall_other _ k h hh).trans ((State.measureHall_other _ k h hh).trans ?_)
      rw [State.hall_onHall, if_neg hh]
    · rw [getLsbD_setBit, if_neg (Ne.symm ne), decide_eq_true h.isLt, Bool.true_and, State.releaseHall_pkgstat,
        State.measureHall_pkgstat, State.onHall_pkgstat]

/-! ## Power-on (R403) -/

/-- The module right after power is applied: nothing but its image and the memory of the host is left, and HID is wired. -/
def State.unpowered (s : State) : State :=
  { State.reset with
    mem := s.mem.filter fun c => paTarget c.1 == 6
    poison := s.poison.filter fun g => paTarget (8 * g) == 6
    image := s.image, schedule := s.schedule, fresh := s.fresh
    hid := hidOf s.image.chip s.hid }

theorem HallImage.loadedTenant_unfit {i : HallImage} (unfit : i.fits = false) : i.loadedTenant = 0#16 := by
  simp [HallImage.loadedTenant, unfit]

/-- Hall n takes its tenant, as the first loop of bring-up has it. -/
def State.loadTenant (s : State) (n : Nat) : State :=
  s.onHall (BitVec.ofNat 4 n) fun x => { x with tenant := (pick (w := 4) s.image.halls (BitVec.ofNat 4 n)).loadedTenant }

theorem State.powerOn_eq (s : State) : s.powerOn = if !s.image.accepted then s.unpowered
    else (List.range 16).foldl State.bringUpHall ((List.range 16).foldl State.loadTenant s.unpowered) := rfl

theorem State.powerOn_rejected (s : State) (h : s.image.accepted = false) : s.powerOn = s.unpowered := by
  simp [State.powerOn_eq, h]

theorem State.powerOn_accepted (s : State) (h : s.image.accepted = true) :
    s.powerOn = (List.range 16).foldl State.bringUpHall ((List.range 16).foldl State.loadTenant s.unpowered) := by
  simp [State.powerOn_eq, h]

theorem State.loadTenant_rest (s : State) (n : Nat) : SameButHalls s (s.loadTenant n) := rfl

/-- Bring-up changes the halls and PKGSTAT only. -/
theorem State.powerOn_rest (s : State) : SameButHalls s.unpowered s.powerOn := by
  cases h : s.image.accepted with
  | false => rw [s.powerOn_rejected h]; rfl
  | true =>
    rw [s.powerOn_accepted h]
    exact (SameButHalls.foldl State.loadTenant_rest _ _).trans (SameButHalls.foldl State.bringUpHall_rest _ _)

theorem State.unpowered_hall (s : State) (h : BitVec 4) : s.unpowered.hall h = Hall.reset := by
  simp [State.hall, pick, State.unpowered, State.reset]

/-- Before the first hall is released, each has its tenant and nothing else. -/
theorem State.loadTenants_hall (s : State) (h : BitVec 4) :
    ((List.range 16).foldl State.loadTenant s.unpowered).hall h
      = { Hall.reset with tenant := (pick (w := 4) s.image.halls h).loadedTenant } := by
  refine (foldl_range_turn State.loadTenant (fun t => t.image = s.image ∧ t.hall h = Hall.reset)
    (fun t => t.hall h = { Hall.reset with tenant := (pick (w := 4) s.image.halls h).loadedTenant }) h.toNat 16 h.isLt
    ?_ ?_ ?_ s.unpowered ⟨rfl, s.unpowered_hall h⟩)
  · rintro t n hn ne ⟨image, hall⟩
    exact ⟨image, by rw [State.loadTenant, State.hall_onHall, if_neg (ofNat_ne_of_ne_toNat hn ne), hall]⟩
  · rintro t ⟨image, hall⟩
    simp only [State.loadTenant, BitVec.ofNat_toNat, BitVec.setWidth_eq]
    rw [State.hall_onHall, if_pos rfl, image, hall]
  · rintro t n hn ne hall
    rw [State.loadTenant, State.hall_onHall, if_neg (ofNat_ne_of_ne_toNat hn ne), hall]

/-- Hall h, whose image is i, has its tenant and waits for its turn to come up. -/
def AwaitsPower (h : BitVec 4) (i : HallImage) (t : State) : Prop :=
  pick (w := 4) t.image.halls h = i ∧ t.pkgstat.getLsbD h.toNat = false ∧ t.hall h = { Hall.reset with tenant := i.loadedTenant }

theorem State.loadTenants_awaits (s : State) (h : BitVec 4) :
    AwaitsPower h (pick (w := 4) s.image.halls h) ((List.range 16).foldl State.loadTenant s.unpowered) := by
  have rest (t : State) (l : List Nat) : (l.foldl State.loadTenant t).image = t.image ∧ (l.foldl State.loadTenant t).pkgstat = t.pkgstat := by
    induction l generalizing t with
    | nil => exact ⟨rfl, rfl⟩
    | cons n r ih => exact ih (t.loadTenant n)
  refine ⟨by rw [(rest _ _).1]; rfl, by rw [(rest _ _).2]; exact BitVec.getLsbD_zero, s.loadTenants_hall h⟩

theorem AwaitsPower.bringUpOther {h : BitVec 4} {i : HallImage} {t : State} (w : AwaitsPower h i t) {n : Nat} (hn : n < 16) (ne : n ≠ h.toNat) :
    AwaitsPower h i (t.bringUpHall n) := by
  obtain ⟨image, bit, hall⟩ := w
  obtain ⟨hall', bit'⟩ := t.bringUpHall_other h n hn ne
  exact ⟨by rw [(t.bringUpHall_rest n).image, image], by rw [bit', bit], by rw [hall', hall]⟩

/-- R403: a hall whose regions fit comes up. -/
theorem State.powerOn_up (s : State) (h : BitVec 4) (ok : s.image.accepted = true) (fits : (pick (w := 4) s.image.halls h).fits = true) :
    BroughtUp (s.powerOn.hall h) (pick (w := 4) s.image.halls h) ∧ s.powerOn.pkgstat.getLsbD h.toNat = true := by
  rw [s.powerOn_accepted ok]
  refine foldl_range_turn State.bringUpHall (AwaitsPower h (pick (w := 4) s.image.halls h))
    (fun t => BroughtUp (t.hall h) (pick (w := 4) s.image.halls h) ∧ t.pkgstat.getLsbD h.toNat = true) h.toNat 16 h.isLt
    (fun t n hn ne w => w.bringUpOther hn ne) ?_ ?_ _ (s.loadTenants_awaits h)
  · rintro t ⟨image, -, hall⟩
    rw [← image] at fits ⊢
    exact t.bringUpHall_same h fits (by rw [hall]; rfl)
  · rintro t n hn ne up
    obtain ⟨hall, bit⟩ := t.bringUpHall_other h n hn ne
    rwa [hall, bit]

/-- R403: a hall whose regions do not fit stays in reset, with no tenant. -/
theorem State.powerOn_awaits (s : State) (h : BitVec 4) (ok : s.image.accepted = true) (unfit : (pick (w := 4) s.image.halls h).fits = false) :
    AwaitsPower h (pick (w := 4) s.image.halls h) s.powerOn := by
  rw [s.powerOn_accepted ok]
  refine foldl_range_turn State.bringUpHall (AwaitsPower h (pick (w := 4) s.image.halls h)) _ h.toNat 16 h.isLt
    (fun t n hn ne w => w.bringUpOther hn ne) ?_ (fun t n hn ne w => w.bringUpOther hn ne) _ (s.loadTenants_awaits h)
  rintro t ⟨image, bit, hall⟩
  rw [t.bringUpHall_unfit h.toNat (by simpa [image] using unfit)]
  exact ⟨image, bit, hall⟩

theorem hidOf_toNat (chip : BitVec 12) (hid : Word) :
    (hidOf chip hid).toNat = hid.toNat % 4096 + 4096 * (hid.toNat / 256 % 16 / 2) + 32768 * chip.toNat := by
  have hc := chip.isLt
  have low : (place (fieldNat hid 0 12) 0 12).toNat = hid.toNat % 4096 := by
    rw [place_toNat _ _ _ (by decide)]
    simp [fieldNat, BitVec.extractLsb'_toNat]
  have die : fieldNat hid 8 4 = hid.toNat / 256 % 16 := by
    simp [fieldNat, BitVec.extractLsb'_toNat, Nat.shiftRight_eq_div_pow]
  have mid : (place (fieldNat hid 8 4 / 2) 12 3 ||| place (fieldNat hid 0 12) 0 12).toNat
      = hid.toNat % 4096 + 4096 * (hid.toNat / 256 % 16 / 2) := by
    rw [place_or _ _ _ _ (by omega) (by decide), low, die, BitVec.toNat_ofNat]
    have : hid.toNat / 256 % 16 / 2 < 8 := by omega
    generalize hid.toNat / 256 % 16 / 2 = d at this ⊢
    omega
  rw [hidOf, BitVec.or_assoc, place_or _ _ _ _ (by omega) (by decide), mid, BitVec.toNat_ofNat]
  omega

/-- R403, Table 3.7: HID has the chip of the image, the hart's place, and the die that its hall stands on. -/
theorem hidOf_fields (chip : BitVec 12) (hid : Word) :
    (hidOf chip hid).extractLsb' 15 12 = chip ∧ (hidOf chip hid).extractLsb' 8 4 = hid.extractLsb' 8 4
      ∧ (hidOf chip hid).extractLsb' 3 5 = hid.extractLsb' 3 5 ∧ (hidOf chip hid).extractLsb' 0 3 = hid.extractLsb' 0 3
      ∧ fieldNat (hidOf chip hid) 12 3 = (hid.extractLsb' 8 4).toNat / 2 := by
  have hc := chip.isLt
  have above : (hid.toNat % 4096 + 4096 * (hid.toNat / 256 % 16 / 2) + 32768 * chip.toNat) / 32768 = chip.toNat := by
    have : hid.toNat / 256 % 16 / 2 < 8 := by omega
    generalize hid.toNat / 256 % 16 / 2 = d at this ⊢
    omega
  refine ⟨BitVec.eq_of_toNat_eq ?_, BitVec.eq_of_toNat_eq ?_, BitVec.eq_of_toNat_eq ?_, BitVec.eq_of_toNat_eq ?_, ?_⟩
  all_goals
    simp only [fieldNat, BitVec.extractLsb'_toNat, hidOf_toNat, Nat.shiftRight_eq_div_pow, Nat.reducePow]
    omega

theorem State.powerOn_cleared (s : State) :
    let t := s.powerOn
    t.hart = State.reset.hart ∧ t.pset = State.reset.pset ∧ t.ra = none ∧ t.image = s.image ∧ t.cmds = [] ∧ t.units = []
      ∧ t.launches = [] ∧ t.vfs = [] ∧ t.tlb = [] ∧ t.walks = [] ∧ t.podt = 0#64 := by
  have rest := s.powerOn_rest
  unfold SameButHalls at rest
  rw [State.mk.injEq] at rest
  simp only [rest]
  exact ⟨rfl, rfl, rfl, rfl, rfl, rfl, rfl, rfl, rfl, rfl, rfl⟩

/-- R403: host memory is kept, and every other byte reads 0; memory is in canonical form, which every step keeps. -/
theorem State.powerOn_read (s : State) (inv : s.Inv) (a : Nat) :
    Memory.read s.powerOn.mem a = if paTarget a = 6 then Memory.read s.mem a else 0#8 := by
  have mem : s.powerOn.mem = s.mem.filter fun c => paTarget c.1 == 6 := by
    have e := congrArg State.mem s.powerOn_rest
    exact e
  rw [mem, Memory.read_filter (fun a => paTarget a == 6) s.mem 0 a inv.1]
  simp [Memory.unlisted]

/-! ## Attestation (R398) -/

/-- BUSY and ERR of the attestation of VF v, and nothing else. -/
theorem State.onVf_flags (s : State) (v : BitVec 10) (b e : Bool) :
    let t := s.onVf v fun x => { x with attBusy := b, attErr := e }
    t.vf v = { s.vf v with attBusy := b, attErr := e } ∧ (∀ w, w ≠ v → t.vf w = s.vf w) ∧ { t with vfs := s.vfs } = s :=
  ⟨by rw [State.vf_onVf, if_pos rfl], fun w hw => by rw [State.vf_onVf, if_neg hw], rfl⟩

theorem State.startAttest_idle (s : State) (v : BitVec 10) (idle : (s.vf v).attBusy = false) :
    s.startAttest v = s.onVf v fun x => { x with attBusy := true, attErr := false } := by
  simp [State.startAttest, idle]

theorem State.startAttest_busy (s : State) (v : BitVec 10) (busy : (s.vf v).attBusy = true) : s.startAttest v = s := by
  simp [State.startAttest, busy]

theorem State.attest_idle (s : State) (v : BitVec 10) (idle : (s.vf v).attBusy = false) : s.attest v = s := by
  simp [State.attest, idle]

/-- The lowest hall that a tenant owns and that runs. -/
def State.lead (s : State) (t : BitVec 16) : Option Nat :=
  (List.range 16).find? fun i => s.owns t (BitVec.ofNat 4 i) && (s.hall (BitVec.ofNat 4 i)).st == .running

theorem State.lead_none (s : State) (t : BitVec 16) (h : ∀ k, s.owns t k = false) : s.lead t = none := by
  simp [State.lead, h]

theorem State.lead_lowest (s : State) (t : BitVec 16) (h : BitVec 4) (owns : s.owns t h = true) (runs : (s.hall h).st = .running)
    (below : ∀ k < h, s.owns t k = false) : s.lead t = some h.toNat := by
  unfold State.lead
  rw [List.find?_range_eq_some]
  refine ⟨by simp [owns, runs], List.mem_range.mpr h.isLt, fun j hj => ?_⟩
  have lt : BitVec.ofNat 4 j < h := by
    rw [BitVec.lt_def, BitVec.toNat_ofNat]
    exact Nat.lt_of_le_of_lt (Nat.mod_le _ _) hj
  simp [below _ lt]

/-- The state that a report which can be written leaves, but for BUSY: its words and their signature are written. -/
def State.reported (s : State) (v : BitVec 10) : Option State :=
  match s.lead (s.vf v).tenant with
  | none => none
  | some h =>
    let body := wordsBytes (s.attestWords v (h / 2))
    if (s.vf v).attaddr.toNat % 64 ≠ 0 then none
    else s.writeVfLines v (BitVec.ofNat 4 h) (s.vf v).attaddr
      (lines64 (body ++ leBytes 64 (Config.identitySign (h / 2) body).toNat) 19)

theorem State.attest_eq (s : State) (v : BitVec 10) (busy : (s.vf v).attBusy = true) :
    s.attest v = match s.reported v with
      | some u => u.onVf v fun x => { x with attBusy := false }
      | none => s.onVf v fun x => { x with attBusy := false, attErr := true } := by
  unfold State.attest
  dsimp only
  rw [busy]
  rfl

theorem State.attest_err (s : State) (v : BitVec 10) (busy : (s.vf v).attBusy = true) (h : s.reported v = none) :
    s.attest v = s.onVf v fun x => { x with attBusy := false, attErr := true } := by
  rw [s.attest_eq v busy, h]

theorem State.reported_misaligned (s : State) (v : BitVec 10) (h : (s.vf v).attaddr.toNat % 64 ≠ 0) : s.reported v = none := by
  unfold State.reported
  split
  · rfl
  · exact if_pos h

theorem State.reported_unowned (s : State) (v : BitVec 10) (h : ∀ k, s.owns (s.vf v).tenant k = false) : s.reported v = none := by
  rw [State.reported, s.lead_none _ h]

theorem State.reported_lowest (s : State) (v : BitVec 10) (h : BitVec 4) (aligned : (s.vf v).attaddr.toNat % 64 = 0)
    (owns : s.owns (s.vf v).tenant h = true) (runs : (s.hall h).st = .running) (below : ∀ k < h, s.owns (s.vf v).tenant k = false) :
    s.reported v = s.writeVfLines v h (s.vf v).attaddr (lines64 (wordsBytes (s.attestWords v (h.toNat / 2))
      ++ leBytes 64 (Config.identitySign (h.toNat / 2) (wordsBytes (s.attestWords v (h.toNat / 2)))).toNat) 19) := by
  rw [State.reported, s.lead_lowest _ h owns runs below]
  dsimp only
  rw [if_neg (by rw [aligned]; decide), BitVec.ofNat_toNat, BitVec.setWidth_eq]

/-- Settles O60: both loops of bring-up change the halls and PKGSTAT only (`powerOn_rest`), and of these each turn changes those of
its own hall (`foldl_range_turn`); the four outcomes of a report are the cases of `reported`. -/
theorem powerAndAttestation : Obligations.PowerAndAttestation := by
  unfold Obligations.PowerAndAttestation
  intro s v h f i set
  refine ⟨⟨s.powerOn, rfl, ?_⟩, ?_, ?_, ?_, ?_, ?_, ?_⟩
  · obtain ⟨hart, pset, ra, image, cmds, units, launches, vfs, tlb, walks, podt⟩ := s.powerOn_cleared
    obtain ⟨chip, hall, cluster, spot, die⟩ := hidOf_fields s.image.chip s.hid
    have hid : s.powerOn.hid = hidOf s.image.chip s.hid := s.powerOn_rest.hid
    rw [← hid] at chip hall cluster spot die
    refine ⟨hart, pset, ra, image, cmds, units, launches, vfs, tlb, walks, podt, chip, hall, cluster, spot, die, s.powerOn_read,
      ?_, ?_, ?_⟩
    · intro rejected
      rw [s.powerOn_rejected rejected]
      exact ⟨s.unpowered_hall h, rfl⟩
    · intro ok fits
      obtain ⟨⟨tenant, wells, ink, cs, plim, out, fenced, count⟩, bit⟩ := s.powerOn_up h ok fits
      exact ⟨bit, tenant, wells, ink, cs, plim, out, fenced, count⟩
    · intro ok unfit
      obtain ⟨-, bit, hall⟩ := s.powerOn_awaits h ok unfit
      rw [hall]
      exact ⟨bit, rfl, HallImage.loadedTenant_unfit unfit⟩
  · intro idle
    exact ⟨_, congrArg Host.Outcome.next (s.startAttest_idle v idle), s.onVf_flags v true false⟩
  · intro busy
    exact congrArg Host.Outcome.next (s.startAttest_busy v busy)
  · intro idle
    exact congrArg Host.Outcome.next (s.attest_idle v idle)
  · intro busy misaligned
    exact ⟨_, congrArg Host.Outcome.next (s.attest_err v busy (s.reported_misaligned v misaligned)), s.onVf_flags v false true⟩
  · intro busy unowned
    exact ⟨_, congrArg Host.Outcome.next (s.attest_err v busy (s.reported_unowned v unowned)), s.onVf_flags v false true⟩
  · intro busy aligned u owns runs below body written
    have done : s.attest v = u.onVf v fun x => { x with attBusy := false } := by
      rw [s.attest_eq v busy, s.reported_lowest v h aligned owns runs below, written]
    exact ⟨_, congrArg Host.Outcome.next done, by rw [State.vf_onVf, if_pos rfl], rfl⟩

end Sys2Proof.Machine

/-! # What every step keeps (R17, R315) -/

namespace Sys2Proof.Machine

/-- Time passes with every step: what it leads to is a state after a tick. -/
theorem step_ticked {s t : State} (h : step s = .next t) : ∃ u : State, t = u.tick := by
  have ticked {r : Host.Outcome State Fault Refusal} (e : andTick r = .next t) : ∃ u : State, t = u.tick := by
    cases r with
    | next u => exact ⟨u, (Host.Outcome.next.inj e).symm⟩
    | fault f => cases e
    | refused f => cases e
  unfold step at h
  split at h
  · exact ticked h
  · exact ticked h

/-- A tick ends what was left part-way. -/
theorem State.tick_cut (s : State) : s.tick.hart.cut = none := by
  unfold State.tick
  dsimp only
  split <;> rfl

/-- Settles O5: each operation keeps the invariant (`step_inv`), and every step ends with a tick. -/
theorem stepKeepsInv : Obligations.StepKeepsInv := by
  unfold Obligations.StepKeepsInv
  intro s t h
  refine ⟨fun inv => step_inv s inv t h, ?_⟩
  obtain ⟨u, rfl⟩ := step_ticked h
  exact u.tick_cut

end Sys2Proof.Machine

/-! # Posted stores (R15, R85, R86, R88 to R91) -/

namespace Sys2Proof.Machine

/-! ## Bytes of memory -/

/-- What is written to canonical memory is read back, and every other byte reads as before. -/
theorem Memory.read_write (m : List Host.Cell) (lo a i : Nat) (b : Byte) (wf : Memory.wfFrom lo m = true) :
    Memory.read (Memory.write m a b) i = if i = a then b else Memory.read m i := by
  induction m generalizing lo with
  | nil =>
    unfold Memory.write
    split <;> simp only [Memory.read] <;> grind
  | cons c r ih =>
    obtain ⟨x, y⟩ := c
    simp only [Memory.wfFrom, Bool.and_eq_true, decide_eq_true_eq] at wf
    obtain ⟨-, rest⟩ := wf
    have tail := ih _ rest
    have below (h : i ≤ x) : Memory.read r i = Memory.unlisted := Memory.read_of_lt rest (by omega)
    unfold Memory.write
    rcases Nat.lt_trichotomy a x with lt | rfl | gt
    · rw [if_pos lt]
      split <;> simp only [Memory.read] <;> grind
    · rw [if_neg (Nat.lt_irrefl a), if_pos rfl]
      split <;> simp only [Memory.read] <;> grind
    · rw [if_neg (by omega), if_neg (by omega)]
      simp only [Memory.read]
      grind

theorem Memory.read_writeBytes (bs : List Byte) (m : List Host.Cell) (a i : Nat) (wf : Memory.wf m = true) :
    Memory.read (Memory.writeBytes m a bs) i = if a ≤ i ∧ i < a + bs.length then bs.getD (i - a) 0#8 else Memory.read m i := by
  induction bs generalizing m a with
  | nil => rw [Memory.writeBytes, if_neg (by simp)]
  | cons b r ih =>
    rw [Memory.writeBytes, ih _ _ (Memory.wf_write m a b wf), Memory.read_write m 0 a i b wf]
    rcases Nat.lt_trichotomy i a with lt | rfl | gt
    · rw [if_neg (by omega), if_neg (by omega), if_neg (by omega)]
    · simp
    · obtain ⟨j, rfl⟩ : ∃ j, i = a + 1 + j := ⟨i - (a + 1), by omega⟩
      have e : a + 1 + j - a = j + 1 := by omega
      have e' : a + 1 + j - (a + 1) = j := by omega
      have c : (a + 1 ≤ a + 1 + j ∧ a + 1 + j < a + 1 + r.length) ↔ (a ≤ a + 1 + j ∧ a + 1 + j < a + (b :: r).length) := by
        rw [List.length_cons]; omega
      rw [if_neg (show ¬a + 1 + j = a by omega), e, e', List.getD_cons_succ]
      simp only [c]

theorem leBytes_length (n x : Nat) : (leBytes n x).length = n := by
  induction n generalizing x with
  | zero => rfl
  | succ n ih => rw [leBytes, List.length_cons, ih]

theorem leBytes_getD (n x i : Nat) (h : i < n) : (leBytes n x).getD i 0#8 = BitVec.ofNat 8 (x / 256 ^ i) := by
  induction n generalizing x i with
  | zero => omega
  | succ n ih =>
    cases i with
    | zero => simp [leBytes]
    | succ i =>
      rw [leBytes, List.getD_cons_succ, ih _ _ (by omega), Nat.div_div_eq_div_mul, Nat.pow_succ, Nat.mul_comm]

/-! ## What leaves memory as it is -/

theorem foldl_mem {α : Type} (f : State → α → State) (hf : ∀ s a, (f s a).mem = s.mem) (l : List α) (s : State) :
    (l.foldl f s).mem = s.mem := by
  induction l generalizing s with
  | nil => rfl
  | cons a r ih => exact (ih (f s a)).trans (hf s a)

@[simp] theorem State.evictLine_mem (s : State) (line : Nat) : (s.evictLine line).mem = s.mem := by
  unfold State.evictLine
  split <;> rfl

@[simp] theorem State.touchOne_mem (s : State) (line : Nat) : (s.touchOne line).mem = s.mem := by
  unfold State.touchOne
  dsimp only
  split
  · rfl
  · exact State.evictLine_mem ..

@[simp] theorem State.touchLine_mem (s : State) (pa n : Nat) : (s.touchLine pa n).mem = s.mem := by
  unfold State.touchLine
  split
  · exact foldl_mem _ State.touchOne_mem _ s
  · rfl

@[simp] theorem State.evalLanding_mem (s : State) (h : BitVec 4) (n : Nat) (l : Landing) : (s.evalLanding h n l).mem = s.mem := by
  unfold State.evalLanding
  split <;> rfl

@[simp] theorem State.afterWrite_mem (s : State) (pa n : Nat) : (s.afterWrite pa n).mem = s.mem := by
  unfold State.afterWrite State.fireLandings
  split
  · refine (foldl_mem _ (fun t l => ?_) _ _).trans rfl
    split
    · exact t.evalLanding_mem ..
    · rfl
  · rfl

/-- What a write sets off changes no byte but those written. -/
theorem State.performBytes_mem (s : State) (pa : Nat) (bs : List Byte) :
    (s.performBytes pa bs).mem = Memory.writeBytes s.mem pa bs := by
  rw [State.performBytes, State.afterWrite_mem, State.touchLine_mem, State.putBytes]

@[simp] theorem State.addTraffic_mem (s : State) (h : BitVec 4) (i n : Nat) : (s.addTraffic h i n).mem = s.mem := by
  unfold State.addTraffic
  split <;> rfl

@[simp] theorem State.dropHostLine_mem (s : State) (pa : Nat) : (s.dropHostLine pa).mem = s.mem := by
  unfold State.dropHostLine
  dsimp only
  split
  · split
    · exact State.addTraffic_mem ..
    · rfl
  · rfl

@[simp] theorem State.hostRoom_mem (s : State) (h : BitVec 4) : (s.hostRoom h).mem = s.mem := by
  unfold State.hostRoom
  dsimp only
  split
  · rfl
  · split
    · exact State.dropHostLine_mem ..
    · rfl

@[simp] theorem State.countHost_mem (s : State) (h : BitVec 4) (pa n : Nat) (write : Bool) :
    (s.countHost h pa n write).mem = s.mem := by
  unfold State.countHost
  split
  · exact State.addTraffic_mem ..
  · split
    · cases write <;> simp only [apply_ite State.mem, State.addTraffic_mem, ite_self]
    · simp only [State.addTraffic_mem, State.hostRoom_mem]

@[simp] theorem State.count_mem (s : State) (h : BitVec 4) (pa n : Nat) (write : Bool) : (s.count h pa n write).mem = s.mem := by
  unfold State.count
  split
  · exact State.countHost_mem ..
  · exact State.addTraffic_mem ..

/-- Dropping lines from windows changes the halls only. -/
theorem State.dropOwnLines_eq (s : State) (h : BitVec 4) (pa n : Nat) :
    ∃ halls, s.dropOwnLines h pa n = { s with halls := halls } := by
  unfold State.dropOwnLines
  dsimp only
  split <;> exact ⟨_, rfl⟩

@[simp] theorem State.dropOwnLines_mem (s : State) (h : BitVec 4) (pa n : Nat) : (s.dropOwnLines h pa n).mem = s.mem := by
  obtain ⟨halls, e⟩ := s.dropOwnLines_eq h pa n
  rw [e]

/-! ## What decides whether a home admits a request -/

/-- A hall as the gates see it: its state, tenant, windows for other tenants, ports and regions. -/
def Hall.atGate (x : Hall) : Hall :=
  { Hall.reset with
    st := x.st, tenant := x.tenant, gallery := x.gallery, route := x.route, ports := x.ports, cscfg := x.cscfg, inkcfg := x.inkcfg }

/-- A state as the gates and the homes of requests see it (R12, R15, R16, R228, R262, R319, R347, R355). -/
def State.atGates (s : State) : State :=
  { State.reset with
    hid := s.hid, image := s.image, vfs := s.vfs, units := s.units, ink := s.ink, hostPorts := s.hostPorts, fabric := s.fabric
    era := s.era, halls := s.halls.map Hall.atGate }

theorem State.atGates_hall (s : State) (h : BitVec 4) : s.atGates.hall h = (s.hall h).atGate := by
  simp [State.hall, State.atGates, pick]

theorem State.atGates_owns (s : State) (t : BitVec 16) (h : BitVec 4) : s.atGates.owns t h = s.owns t h := by
  simp only [State.owns, s.atGates_hall, Hall.atGate]

theorem State.atGates_tenantOf (s : State) (v : BitVec 10) : s.atGates.tenantOf v = s.tenantOf v := rfl

theorem State.atGates_spAdmit (s : State) (who : Option (BitVec 10)) (h : BitVec 4) (pa : Nat) :
    s.atGates.spAdmit who h pa = s.spAdmit who h pa := by
  simp only [State.spAdmit, s.atGates_owns, s.atGates_tenantOf]
  rfl

theorem State.atGates_gate (s : State) (who : Option (BitVec 10)) (h : BitVec 4) (pa n : Nat) (write : Bool) :
    s.atGates.gate who h pa n write = s.gate who h pa n write := by
  simp only [State.gate, s.atGates_hall, s.atGates_owns, s.atGates_tenantOf, s.atGates_spAdmit, Hall.atGate]
  rfl

theorem State.atGates_sends (s : State) (who : Option (BitVec 10)) (h : BitVec 4) : s.atGates.sends who h = s.sends who h := by
  simp only [State.sends, s.atGates_hall, s.atGates_owns, s.atGates_tenantOf, Hall.atGate]

theorem State.atGates_remoteGate (s : State) (who : Option (BitVec 10)) (pa : Nat) (write : Bool) :
    s.atGates.remoteGate who pa write = s.remoteGate who pa write := by
  simp only [State.remoteGate, State.ownerOf, s.atGates_hall, s.atGates_tenantOf, Hall.atGate]
  rfl

theorem State.atGates_routeUp (s : State) (h : BitVec 4) (chip : BitVec 12) : s.atGates.routeUp h chip = s.routeUp h chip := by
  simp only [State.routeUp, s.atGates_hall, Hall.atGate]

theorem State.atGates_inSave (s : State) (pa : Nat) : s.atGates.inSave pa = s.inSave pa := by
  simp only [State.inSave, s.atGates_hall, Hall.atGate]

theorem State.atGates_inInk (s : State) (pa : Nat) : s.atGates.inInk pa = s.inInk pa := by
  simp only [State.inInk, s.atGates_hall, Hall.atGate]

theorem State.atGates_refusal (s : State) (who : Option (BitVec 10)) (frm : BitVec 4) (pa n : Nat) (write : Bool) :
    s.atGates.refusal who frm pa n write = s.refusal who frm pa n write := by
  simp only [State.refusal, State.inkFreeing, s.atGates_sends, s.atGates_remoteGate, s.atGates_routeUp, s.atGates_gate,
    s.atGates_spAdmit, s.atGates_inSave, s.atGates_inInk]
  rfl

/-- Gates that see the same answer alike. -/
theorem State.refusal_congr {s t : State} (h : t.atGates = s.atGates) (who : Option (BitVec 10)) (frm : BitVec 4) (pa n : Nat)
    (write : Bool) : t.refusal who frm pa n write = s.refusal who frm pa n write := by
  rw [← t.atGates_refusal, h, s.atGates_refusal]

theorem State.inkRefuses_congr {s t : State} (h : t.atGates = s.atGates) (pa : Nat) : t.inkRefuses pa = s.inkRefuses pa := by
  have ink := congrArg State.ink h
  change t.ink = s.ink at ink
  rw [State.inkRefuses, State.inkRefuses, ← t.atGates_inInk, h, s.atGates_inInk, State.inkPage, State.inkPage, ink]

/-- A change of a hall that its gate does not see. -/
theorem State.onHall_atGates (s : State) (h : BitVec 4) (f : Hall → Hall) (unseen : ∀ x, (f x).atGate = x.atGate) :
    (s.onHall h f).atGates = s.atGates := by
  have halls : (s.onHall h f).halls.map Hall.atGate = s.halls.map Hall.atGate := by
    apply Vector.ext
    intro i hi
    by_cases e : h.toNat = i
    · subst e
      simp [State.onHall, State.hall, put, pick, unseen]
    · simp [State.onHall, put, e]
  rw [State.atGates, halls]
  rfl

theorem State.dropOwnLines_atGates (s : State) (h : BitVec 4) (pa n : Nat) : (s.dropOwnLines h pa n).atGates = s.atGates := by
  have unseen (t : State) (k : BitVec 4) : (t.dropWindowLines k pa n).atGates = t.atGates := t.onHall_atGates k _ fun _ => rfl
  unfold State.dropOwnLines
  dsimp only
  split
  · exact unseen s _
  · exact (unseen _ _).trans (unseen s _)

theorem State.retire_atGates (s : State) (l : Word) : (s.retire l).atGates = s.atGates := by
  unfold State.retire State.countInstr
  split
  · rfl
  · exact State.onHall_atGates ((s.setPc (s.hart.pc + l)).setTransfer false) _ _ fun _ => rfl

/-! ## A request of bytes at its home -/

/-- Bytes at consecutive addresses are one run. -/
theorem joinRuns_consecutive (pa : Nat) (bs : List Byte) (ne : bs ≠ []) :
    joinRuns ((List.range bs.length).zip bs |>.map fun q => (pa + q.1, q.2)) = [(pa, bs)] := by
  induction bs generalizing pa with
  | nil => exact absurd rfl ne
  | cons b r ih =>
    have first : ((List.range (b :: r).length).zip (b :: r) |>.map fun q => (pa + q.1, q.2))
        = (pa, b) :: ((List.range r.length).zip r |>.map fun q => (pa + 1 + q.1, q.2)) := by
      rw [List.length_cons, List.range_succ_eq_map, List.zip_cons_cons, List.map_cons, List.zip_map_left, List.map_map]
      congr 1
      apply List.map_congr_left
      intro q _
      simp only [Function.comp_apply, Prod.map, id, Nat.succ_eq_add_one]
      rw [Nat.add_assoc, Nat.add_comm 1]
    rw [first, joinRuns]
    cases r with
    | nil => rfl
    | cons c l => rw [ih (pa + 1) (List.cons_ne_nil c l)]; exact if_pos rfl

theorem State.writeHome_admitted (s : State) (who : Option (BitVec 10)) (frm : BitVec 4) (pa : Nat) (bs : List Byte)
    (admitted : s.refusal who frm pa bs.length true = none) (plain : paTarget pa < 4 → s.inkRefuses pa = false) :
    s.writeHome who frm pa bs = .ok (s.performBytes pa bs) := by
  have unsealed : ¬(decide (paTarget pa < 4) && s.inkRefuses pa) = true := by
    by_cases h : paTarget pa < 4 <;> simp [h, plain]
  unfold State.writeHome
  rw [admitted]
  exact if_neg unsealed

/-- A request of bytes that its home admits is performed: memory holds them (R15, R88). -/
theorem State.performPosted_admitted (s : State) (p : Posted) (pa : Nat) (bs : List Byte) (live : p.failed = false)
    (payload : p.payload = bytesFrom pa bs) (ne : bs ≠ []) (admitted : s.refusal p.who p.frm pa bs.length true = none)
    (plain : paTarget pa < 4 → s.inkRefuses pa = false) :
    ∃ u, s.performPosted p = (u, none) ∧ u.mem = Memory.writeBytes s.mem pa bs := by
  refine ⟨((s.performBytes pa bs).count p.frm pa bs.length true).dropOwnLines p.frm (p.pa / 64 * 64) 64, ?_, ?_⟩
  · simp only [State.performPosted, live, payload, bytesFrom, joinRuns_consecutive pa bs ne, State.writeRuns,
      s.writeHome_admitted _ _ _ _ admitted plain]
    rfl
  · rw [State.dropOwnLines_mem, State.count_mem, State.performBytes_mem]

/-- Of a list whose last request alone is chosen, that one is performed and the others are kept. -/
theorem State.settleList_concat (s u : State) (sel : Posted → Bool) (l : List Posted) (p : Posted)
    (others : ∀ q ∈ l, sel q = false) (chosen : sel p = true) (done : s.performPosted p = (u, none)) :
    s.settleList sel (l ++ [p]) = (u, l) := by
  induction l with
  | nil => simp only [List.nil_append, State.settleList, chosen, done, if_true]
  | cons q r ih =>
    have kept := others q List.mem_cons_self
    simp only [List.cons_append, State.settleList, kept, ih fun x hx => others x (List.mem_cons_of_mem q hx)]
    rfl

/-- Settling one request that is performed leaves the memory that it leaves. -/
theorem State.settleAll_single (s u : State) (p : Posted) (posted : s.hart.posted = [p]) (done : s.performPosted p = (u, none)) :
    s.settleAll.mem = u.mem := by
  have alone := s.settleList_concat u (fun _ => true) [] p (by simp) rfl done
  rw [State.settleAll, State.collectErrors, State.onHart_mem, State.settle, posted]
  exact congrArg (fun r => r.1.mem) alone

/-- The requests before it go to other lines and stay, so the event performs this one alone. -/
theorem postedStoreLands : PostedStoreLands := by
  intro s k p pa bs inv at_k alone live hpa payload ne admitted plain
  obtain ⟨u, done, mem⟩ := s.performPosted_admitted p pa bs live payload ne admitted plain
  obtain ⟨wf, -⟩ := inv
  have upto : s.hart.posted.take (k + 1) = s.hart.posted.take k ++ [p] := by
    rw [List.take_add_one, at_k]; rfl
  have others : ∀ q ∈ s.hart.posted.take k, (q.pa / 64 == p.pa / 64) = false := by
    intro q hq
    obtain ⟨j, hj, rfl⟩ := List.mem_take_iff_getElem.mp hq
    exact beq_false_of_ne (alone j _ (List.getElem?_eq_getElem (by omega)) (by omega))
  have settled := s.settleList_concat u (fun q => q.pa / 64 == p.pa / 64) _ p others (beq_self_eq_true _) done
  refine ⟨u.onHart fun h => { h with posted := s.hart.posted.take k ++ s.hart.posted.drop (k + 1) }, ?_, ?_, ?_⟩
  · show execPostedWritePerformed k s = _
    simp only [execPostedWritePerformed, at_k, upto, settled]
    rfl
  · exact (List.eraseIdx_eq_take_drop_succ ..).symm
  · intro a
    rw [State.onHart_mem, mem, Memory.read_writeBytes bs s.mem pa a wf]

/-! ## Scalar stores -/

/-- The checks that let an access be made (R86). -/
theorem State.locate_eq_ok (s : State) (frm : BitVec 4) (k : Kind) (va : Word) (n al : Nat) (ok : Accept) (x : Xl) :
    s.locate frm k va n al ok = .ok x
      ↔ canonical va = true ∧ va.toNat % al = 0 ∧ s.hartXlate frm k va n = .ok x ∧ ok x.cls = true := by
  unfold State.locate
  cases canonical va with
  | false => simp
  | true =>
    by_cases aligned : va.toNat % al = 0
    · cases s.hartXlate frm k va n with
      | error r => simp [aligned]
      | ok y => grind
    · simp [aligned]

/-- Keeping the translation of a data access that found one fills the cached translations only. -/
theorem State.keepXlate_of_hartXlate (s : State) (frm : BitVec 4) (k : Kind) (va : Word) (n : Nat) (x : Xl) (data : k ≠ .fetch)
    (found : s.hartXlate frm k va n = .ok x) : ∃ tlb walks, s.keepXlate frm va = { s with tlb := tlb, walks := walks } := by
  unfold State.keepXlate
  split
  · exact ⟨_, _, rfl⟩
  · rename_i walked
    have table : s.aliasByte va = none := by
      cases h : s.aliasByte va <;> simp [h] at walked ⊢
    simp only [State.hartXlate, if_neg data, table, State.translate, State.translateBy] at found
    split at found
    · cases found
    · rename_i pte leaf
      exact s.fillTlb_of_leaf _ _ _ pte leaf

theorem State.storeBytes_nrm (s : State) (va : Word) (x : Xl) (bs : List Byte) (nrm : x.cls = .nrm) :
    s.storeBytes va x bs = s.post (storeRequest s va x.pa bs) := by
  have line : setField va 0 0#6 = va &&& ~~~0x3F#64 := by simp [setField]
  simp only [State.storeBytes, nrm, line]
  rfl

theorem State.storeAt_of_locate (s : State) (va : Word) (bs : List Byte) (ok : Accept) (x : Xl) (ra : s.ra = none)
    (found : s.locate s.myHall .store va bs.length bs.length ok = .ok x) :
    s.storeAt va bs ok = .ok ((s.keepXlate s.myHall va).storeBytes va x bs) := by
  have ra' := congrArg State.ra (s.keepXlate_rest s.myHall va)
  change (s.keepXlate s.myHall va).ra = s.ra at ra'
  simp only [State.storeAt, State.reachWrite, State.reach, found, ra', ra]
  rfl

/-- With fewer than 256 requests under way the hart issues the next one (R89). -/
theorem State.postFull_of_room (s : State) (room : s.hart.posted.length < 256) : s.postFull = false := by
  simp [State.postFull, Nat.not_le.mpr room]

theorem scalarStore_of_storeAt (d a : BitVec 5) (i : BitVec 16) (n : Nat) (s t : State) (made : ∀ w, s.hart.fq ≠ .complete w)
    (room : s.hart.posted.length < 256) (stored : s.storeAt (s.ea a i) (leBytes n (s.g d).toNat) storeClasses = .ok t) :
    scalarStore d a i n s = .next (t.retire 4#64) := by
  have effect : storeEffect d n (s.ea a i) s = .ok t := by
    unfold storeEffect
    split
    · next w h => exact absurd h (made w)
    · rw [stored]
  rw [scalarStore, postStalls, s.postFull_of_room room, Bool.and_false, if_neg Bool.false_ne_true, effect]
  rfl

/-- An access that the hypervisor has completed is not made (R337). -/
theorem scalarStore_completed (d a : BitVec 5) (i : BitVec 16) (n : Nat) (s : State) (w : Word) (fq : s.hart.fq = .complete w)
    (room : s.hart.posted.length < 256) :
    scalarStore d a i n s = .next ((s.onHart fun h => { h with fq := .none }).retire 4#64) := by
  rw [scalarStore, postStalls, s.postFull_of_room room, Bool.and_false, if_neg Bool.false_ne_true, storeEffect, fq]
  rfl

/-- What an instruction leaves that has posted p and retired: but for the cached translations and the halls, only the hart has
changed. -/
def State.afterPost (s : State) (p : Posted) (tlb : List TlbEntry) (walks : List WalkEntry) (halls : Vector Hall 16) : State :=
  { s with
    hart := { s.hart with pc := s.hart.pc + 4#64, transfer := false, posted := s.hart.posted ++ [p] }
    tlb := tlb, walks := walks, halls := halls }

/-- Retiring changes the pc, the transfer mark and what the halls count. -/
theorem State.retire_eq (s : State) (l : Word) :
    ∃ halls, s.retire l = { s with hart := { s.hart with pc := s.hart.pc + l, transfer := false }, halls := halls } := by
  unfold State.retire State.countInstr
  split <;> exact ⟨_, rfl⟩

/-- Posting, while there is room, and retiring. -/
theorem State.post_retire (s : State) (p : Posted) (room : s.hart.posted.length < 256) :
    ∃ halls, (s.post p).retire 4#64 = s.afterPost p s.tlb s.walks halls := by
  obtain ⟨dropped, e⟩ := s.dropOwnLines_eq p.frm (p.pa / 64 * 64) 64
  obtain ⟨halls, retired⟩ := (s.post p).retire_eq 4#64
  refine ⟨halls, retired.trans ?_⟩
  rw [State.post, if_neg (Nat.not_le.mpr room), e]
  rfl

theorem State.post_atGates (s : State) (p : Posted) (room : s.hart.posted.length < 256) : (s.post p).atGates = s.atGates := by
  rw [State.post, if_neg (Nat.not_le.mpr room)]
  exact s.dropOwnLines_atGates ..

/-- A scalar store to an NRM page posts its bytes and retires (R85, R86, R88). -/
theorem scalarStore_posts (d a : BitVec 5) (i : BitVec 16) (n : Nat) (s : State) (x : Xl) (made : ∀ w, s.hart.fq ≠ .complete w)
    (ra : s.ra = none) (room : s.hart.posted.length < 256)
    (found : s.locate s.myHall .store (s.ea a i) n n storeClasses = .ok x) (nrm : x.cls = .nrm) :
    ∃ tlb walks halls,
      let t := s.afterPost (storeRequest s (s.ea a i) x.pa (leBytes n (s.g d).toNat)) tlb walks halls
      scalarStore d a i n s = .next t ∧ t.atGates = s.atGates := by
  have stored := s.storeAt_of_locate (s.ea a i) (leBytes n (s.g d).toNat) storeClasses x ra (by rw [leBytes_length]; exact found)
  obtain ⟨-, -, xlate, -⟩ := (s.locate_eq_ok ..).mp found
  obtain ⟨tlb, walks, kept⟩ := s.keepXlate_of_hartXlate _ _ _ _ _ (by decide) xlate
  rw [kept, State.storeBytes_nrm _ _ _ _ nrm] at stored
  obtain ⟨halls, after⟩ := State.post_retire { s with tlb := tlb, walks := walks } (storeRequest s (s.ea a i) x.pa _) room
  refine ⟨tlb, walks, halls, (scalarStore_of_storeAt d a i n s _ made room stored).trans (congrArg _ after), ?_⟩
  refine (congrArg State.atGates after.symm).trans ?_
  rw [State.retire_atGates]
  exact State.post_atGates { s with tlb := tlb, walks := walks } _ room

/-- What a store has posted alone lands where its home serves it. -/
theorem State.afterPost_lands (s : State) (va : Word) (pa n v : Nat) (tlb : List TlbEntry) (walks : List WalkEntry)
    (halls : Vector Hall 16) (gates : (s.afterPost (storeRequest s va pa (leBytes n v)) tlb walks halls).atGates = s.atGates)
    (idle : s.hart.posted = []) (pos : 0 < n) (serves : Serves s pa n true) (wf : Memory.wf s.mem = true) :
    MemWith s (s.afterPost (storeRequest s va pa (leBytes n v)) tlb walks halls).settleAll pa n v := by
  obtain ⟨admitted, -, plain⟩ := serves
  let p := storeRequest s va pa (leBytes n v)
  let t := s.afterPost p tlb walks halls
  have posted : t.hart.posted = [p] := congrArg (· ++ [p]) idle
  have some_bytes : leBytes n v ≠ [] := List.ne_nil_of_length_pos (by rw [leBytes_length]; exact pos)
  obtain ⟨u, done, mem⟩ := t.performPosted_admitted p pa (leBytes n v) rfl rfl some_bytes
    (by rw [State.refusal_congr gates, leBytes_length]; exact admitted)
    (by rw [State.inkRefuses_congr gates]; exact plain rfl)
  intro i
  have same : t.mem = s.mem := rfl
  rw [t.settleAll_single u p posted done, mem, same, Memory.read_writeBytes _ _ _ _ wf, leBytes_length]
  split
  · rw [leBytes_getD _ _ _ (by omega)]
  · rfl

/-- The four widths differ in the number of bytes only. -/
theorem scalarStores : ScalarStores := by
  intro d a i s va stores
  have all (x : Instr) (n : Nat) (pos : 0 < n) (run : exec x s = scalarStore d a i n s) : stores x n := by
    refine ⟨fun xl made ra found room => ⟨fun nrm => ?_, fun _ => ?_⟩, fun xl settled lies serves => ?_, fun w fq room => ?_⟩
    · obtain ⟨tlb, walks, halls, ran, -⟩ := scalarStore_posts d a i n s xl made ra room found nrm
      exact ⟨_, run.trans ran, rfl, fun _ => rfl, rfl, rfl, rfl⟩
    · rw [run]
      exact scalarStore_of_storeAt d a i n s _ made room
        (s.storeAt_of_locate va _ storeClasses xl ra (by rw [leBytes_length]; exact found))
    · obtain ⟨ra, idle, -, made⟩ := settled
      obtain ⟨canon, aligned, xlate, nrm⟩ := lies
      have found : s.locate s.myHall .store va n n storeClasses = .ok xl :=
        (s.locate_eq_ok ..).mpr ⟨canon, aligned, xlate, by rw [nrm]; rfl⟩
      obtain ⟨tlb, walks, halls, ran, gates⟩ := scalarStore_posts d a i n s xl made ra (by rw [idle]; decide) found nrm
      exact ⟨_, run.trans ran, fun _ => rfl, rfl, fun _ => rfl, s.afterPost_lands _ _ _ _ tlb walks halls gates idle pos serves⟩
    · refine ⟨_, run.trans (scalarStore_completed d a i n s w fq room), fun k => ?_, ?_, fun b => ?_⟩
      · rw [State.retire_g]; rfl
      · rw [State.retire_hart]; rfl
      · rw [State.retire_mem]; rfl
  exact ⟨all _ 1 (by decide) rfl, all _ 2 (by decide) rfl, all _ 4 (by decide) rfl, all _ 8 (by decide) rfl⟩

/-- Settles O14: a store posts one request (`scalarStore_posts`), which no gate sees; performing a request that its home admits
writes its bytes (`performPosted_admitted`), alone (`afterPost_lands`) or after requests to other lines (`settleList_concat`). -/
theorem scalarStoresLand : Obligations.ScalarStoresLand := ⟨scalarStores, postedStoreLands⟩

end Sys2Proof.Machine

/-! # Scalar floating point (R97 to R100) -/

namespace Sys2Proof.Machine

/-! ## Writing a result and its flags -/

theorem State.setG_eq (s : State) (d : BitVec 5) (v : Word) : ∃ g, s.setG d v = { s with hart := { s.hart with g := g } } := by
  unfold State.setG
  split <;> exact ⟨_, rfl⟩

theorem State.countInstr_halls_congr {s t : State} (ra : t.ra = s.ra) (hid : t.hid = s.hid) (halls : t.halls = s.halls) :
    t.countInstr.halls = s.countInstr.halls := by
  simp only [State.countInstr, ra]
  split
  · exact halls
  · simp only [State.onCluster, State.onHall, State.hall, State.myHall, State.myCluster, hid, halls]

/-- A scalar floating-point instruction writes its result, adds its flags and retires (R97). -/
theorem scalarFp_wrote (d : BitVec 5) (r : Nat × Flags) (s : State) :
    ∃ t, scalarFp d r s = .next t ∧ WroteG s t d (BitVec.ofNat 64 r.1) (s.hart.fstat ||| fstatFlags r.2) 4#64 := by
  obtain ⟨g, wrote⟩ := s.setG_eq d (BitVec.ofNat 64 r.1)
  let u := (s.setG d (BitVec.ofNat 64 r.1)).orFstat r.2
  have hart : (u.retire 4#64).hart = { u.hart with pc := u.hart.pc + 4#64, transfer := false } := u.retire_hart _
  have rest : { u.retire 4#64 with hart := u.hart, halls := u.halls } = u := u.retire_rest _
  have counted : (u.retire 4#64).halls = s.countInstr.halls :=
    State.countInstr_halls_congr (s.setG_ra d _) (s.setG_hid d _) (s.setG_halls d _)
  refine ⟨u.retire 4#64, rfl, fun k => ?_, ?_, ?_, ?_, ?_, ?_, counted, fun a => ?_⟩
  · exact (u.retire_g _ k).trans (s.setG_g d _ k)
  all_goals simp only [u, wrote, State.orFstat] at hart rest ⊢
  · rw [hart]
  · rw [hart]
  · rw [hart]
  · rw [hart]
  · exact congrArg (fun t : State => { t with hart := s.hart }) rest
  · rw [State.retire_mem]

theorem computesFp_of {i : Instr} {d : BitVec 5} {v : State → Nat × Flags} (run : ∀ s, exec i s = scalarFp d (v s) s) :
    ComputesFp i d v := by
  intro s
  rw [run s]
  exact scalarFp_wrote d (v s) s

/-! ## Rounding once -/

/-- An exact value is rounded once; NV is set for a signalling operand too (R24 to R28). -/
theorem rounded_eq (f : Fmt) (env : RndEnv) (xs : List Nat) (v : FVal × Flags) :
    rounded f env xs v = ((roundTo f env v.1).1, (roundTo f env v.1).2 ||| v.2 ||| flag ((xs.map fun i => decide (f.isSNaN i)).any id) flNV) := by
  simp [rounded, List.any_map]

/-- Settles O11: each instruction forms an exact value, which `rounded_eq` rounds once; FMIN and FMAX give an operand. -/
theorem scalarFloatArithmetic : Obligations.ScalarFloatArithmetic := by
  intro d a b r p x y z f e v nan once
  have rounds {i : Instr} (xs : State → List Nat) (q : State → FVal × Flags)
      (run : ∀ s, exec i s = scalarFp d (rounded f (e s) (xs s) (q s)) s) : ComputesFp i d fun s => once s (xs s) (q s) :=
    computesFp_of fun s => by rw [run s, rounded_eq]
  exact ⟨rounds _ _ fun _ => rfl, rounds _ _ fun _ => rfl, rounds _ _ fun _ => rfl, rounds _ _ fun _ => rfl,
    rounds _ _ fun _ => rfl, rounds _ _ fun _ => rfl, computesFp_of fun _ => rfl, computesFp_of fun _ => rfl⟩

/-! ## Compares -/

theorem Fmt.isSNaN_of_number {f : Fmt} {x : Nat} (h : f.isNaN x = false) : f.isSNaN x = false := by
  simp [Fmt.isSNaN, h]

/-- FEQ is 0 with a NaN, and NV is set for a signalling one only (R99). -/
theorem fpCompare_eq (f : Fmt) (x y : Nat) :
    fpCompare f .eq x y
      = (!(f.isNaN x || f.isNaN y) && eqVal (f.value x) (f.value y), flag (f.isSNaN x || f.isSNaN y) flNV) := by
  cases hx : f.isNaN x <;> cases hy : f.isNaN y <;>
    simp [fpCompare, hx, hy, flag, Fmt.isSNaN_of_number]

/-- FLT and FLE are 0 with a NaN, and every NaN sets NV (R99). -/
theorem fpCompare_lt (f : Fmt) (x y : Nat) :
    fpCompare f .lt x y
      = (!(f.isNaN x || f.isNaN y) && ltVal (f.value x) (f.value y), flag (f.isNaN x || f.isNaN y) flNV) := by
  cases hx : f.isNaN x <;> cases hy : f.isNaN y <;> simp [fpCompare, hx, hy, flag]

@[inherit_doc fpCompare_lt] theorem fpCompare_le (f : Fmt) (x y : Nat) :
    fpCompare f .le x y
      = (!(f.isNaN x || f.isNaN y) && !ltVal (f.value y) (f.value x), flag (f.isNaN x || f.isNaN y) flNV) := by
  cases hx : f.isNaN x <;> cases hy : f.isNaN y <;> simp [fpCompare, hx, hy, flag]

/-! ## Signs -/

/-- The sign bit of a pattern of the format. -/
theorem Fmt.neg_eq_decide {f : Fmt} {x : Nat} (h : x < 2 ^ f.width) : f.neg x = decide (2 ^ (f.width - 1) ≤ x) := by
  have width : f.width - 1 + 1 = f.width := by simp only [Fmt.width]; omega
  rw [← width, Nat.pow_succ] at h
  have pos : 0 < 2 ^ (f.width - 1) := Nat.two_pow_pos _
  rw [Fmt.neg, Nat.testBit_eq_decide_div_mod_eq, decide_eq_decide]
  have small : x / 2 ^ (f.width - 1) < 2 := Nat.div_lt_of_lt_mul h
  have one : x / 2 ^ (f.width - 1) = 1 ↔ 2 ^ (f.width - 1) ≤ x := by
    rw [← Nat.one_le_div_iff pos]; omega
  rw [Nat.mod_eq_of_lt small, one]

theorem State.fpat_lt (s : State) (p : Bool) (i : BitVec 5) : s.fpat p i < 2 ^ (sfmt p).width :=
  Nat.mod_lt _ (Nat.two_pow_pos _)

theorem scalarFloatCompareSign : ScalarFloatCompareSign := by
  intro d a b p f x y nan snan truth top signed neg
  have compares {i : Instr} (rel : FRel) (c : State → Bool) (fl : State → Flags)
      (cmp : ∀ s, fpCompare f rel (x s) (y s) = (!nan s && c s, fl s))
      (run : ∀ s, exec i s = scalarCompare rel d a b p s) : ComputesFp i d fun s => (truth s (c s), fl s) := by
    refine computesFp_of fun s => (run s).trans (congrArg (scalarFp d · s) ?_)
    have value : bit (!nan s && c s) = truth s (c s) := by cases h : nan s <;> simp [truth, h, bit]
    exact (congrArg (fun q : Bool × Flags => (bit q.1, q.2)) (cmp s)).trans (congrArg (·, fl s) value)
  have signs {i : Instr} (g h : State → Bool) (same : ∀ s, g s = h s)
      (run : ∀ s, exec i s = scalarFp d (withSign p (g s) (x s), 0#5) s) : ComputesFp i d fun s => (signed (h s) (x s), 0#5) := by
    refine computesFp_of fun s => (run s).trans (congrArg (fun n => scalarFp d (n, 0#5) s) ?_)
    rw [same s]
    exact Nat.add_comm _ _
  have negX s : f.neg (x s) = neg s x := Fmt.neg_eq_decide (State.fpat_lt s p a)
  have negY s : f.neg (y s) = neg s y := Fmt.neg_eq_decide (State.fpat_lt s p b)
  exact ⟨compares .eq _ _ (fun s => fpCompare_eq f _ _) fun _ => rfl, compares .lt _ _ (fun s => fpCompare_lt f _ _) fun _ => rfl,
    compares .le _ _ (fun s => fpCompare_le f _ _) fun _ => rfl, computesFp_of fun _ => rfl,
    signs _ _ negY fun _ => rfl, signs _ _ (fun s => congrArg (!·) (negY s)) fun _ => rfl,
    signs _ _ (fun s => congrArg₂ (· != ·) (negX s) (negY s)) fun _ => rfl⟩

/-! ## Conversions -/

theorem ofSigned_64 (i : Int) : ofSigned 64 i = (BitVec.ofInt 64 i).toNat := (BitVec.toNat_ofInt i).symm

theorem scalarFloatConvert : ScalarFloatConvert := by
  intro d a r p f e v ext
  have saturates {i : Instr} (w : Nat) (sgn : Bool) (run : ∀ s, exec i s = floatToScalar d a r p w sgn s) :
      ComputesFp i d fun s => ext (toInt (e s) w sgn (v s)) w sgn :=
    computesFp_of fun s => (run s).trans (congrArg (fun n => scalarFp d (n, (toInt (e s) w sgn (v s)).2) s) (ofSigned_64 _))
  exact ⟨computesFp_of fun _ => rfl, saturates 64 true fun _ => rfl, saturates 64 false fun _ => rfl, saturates 32 true fun _ => rfl,
    saturates 32 false fun _ => rfl, computesFp_of fun _ => rfl, computesFp_of fun _ => rfl⟩

/-- Settles O12: compares give 0 for a NaN with the flags of their relation (`fpCompare_eq`, `fpCompare_lt`, `fpCompare_le`), signs are
the top bit (`Fmt.neg_eq_decide`), and what a conversion saturates is extended by `ofSigned_64`. -/
theorem scalarFloatCompareConvert : Obligations.ScalarFloatCompareConvert := ⟨scalarFloatCompareSign, scalarFloatConvert⟩

end Sys2Proof.Machine

/-! # Element-wise vector instructions (R119 to R121) -/

namespace Sys2Proof.Machine

/-! ## What computing in registers leaves alone -/

/-- From s to t neither memory nor the PC has changed: so it is until an instruction that computes in registers retires. -/
def State.Keeps (s t : State) : Prop := t.mem = s.mem ∧ t.hart.pc = s.hart.pc

theorem State.Keeps.refl (s : State) : s.Keeps s := ⟨rfl, rfl⟩

theorem State.Keeps.trans {s t u : State} (h : s.Keeps t) (k : t.Keeps u) : s.Keeps u := ⟨k.1.trans h.1, k.2.trans h.2⟩

theorem State.foldl_keeps {α : Type} (f : State → α → State) (hf : ∀ (t : State) a, t.Keeps (f t a)) (l : List α) (s : State) :
    s.Keeps (l.foldl f s) := by
  induction l generalizing s with
  | nil => exact .refl s
  | cons a r ih => exact (hf s a).trans (ih (f s a))

theorem State.orVstat_keeps (s : State) (f : Flags) : s.Keeps (s.orVstat f) := ⟨rfl, rfl⟩
theorem State.setVstart_keeps (s : State) (n : Nat) : s.Keeps (s.setVstart n) := ⟨rfl, rfl⟩

theorem State.putDst_keeps (s : State) (d : VDst) (e x : Nat) : s.Keeps (s.putDst d e x) := by
  cases d <;> exact ⟨rfl, rfl⟩

theorem State.loseDst_keeps (s : State) (d : VDst) (e : Nat) : s.Keeps (s.loseDst d e) := by
  cases d <;> exact ⟨rfl, rfl⟩

theorem State.elementStep_keeps (s : State) (sel : BitVec 3) (zero : Bool) (per : Nat) (d : VDst) (unk : Nat → Bool)
    (op : Nat → Nat × Flags) (t : State) (e : Nat) : t.Keeps (s.elementStep sel zero per d unk op t e) := by
  unfold State.elementStep
  repeat' split
  · exact t.loseDst_keeps d e
  · exact t.loseDst_keeps d e
  · exact (t.putDst_keeps d e _).trans (State.orVstat_keeps _ _)
  · exact t.putDst_keeps d e 0
  · exact .refl t

theorem State.elementwise_keeps (s : State) (sel : BitVec 3) (zero : Bool) (per : Nat) (d : VDst) (unk : Nat → Bool)
    (op : Nat → Nat × Flags) : s.Keeps (s.elementwise sel zero per d unk op) :=
  (State.foldl_keeps _ (s.elementStep_keeps sel zero per d unk op) _ s).trans (State.setVstart_keeps _ 0)

/-- An instruction whose effect keeps memory and the PC, and zeroes VSTART, completes in registers. -/
theorem finish_completes (p : Option Pfx) {s t : State} (keeps : s.Keeps t) (zero : t.hart.vstart = 0) :
    ∃ u, finish p (.ok t) = .next u ∧ u.hart.pc = s.hart.pc + pfxLen p ∧ u.hart.vstart = 0 ∧ SameMem s u := by
  obtain ⟨mem, pc⟩ := keeps
  refine ⟨t.retire (pfxLen p), rfl, ?_, ?_, fun a => ?_⟩
  · rw [State.retire_hart_pc, pc]
  · rw [State.retire_hart_vstart, zero]
  · rw [State.retire_mem, mem]

/-! ## Out of run-ahead everything is known -/

theorem State.elemUnknown_known (s : State) (ra : s.ra = none) (o : VOpd) (e : Nat) : s.elemUnknown o e = false := by
  rw [State.elemUnknown, ra]

theorem State.maskUnknown_known (s : State) (ra : s.ra = none) (r : BitVec 3) (per e : Nat) : s.maskUnknown r per e = false := by
  rw [State.maskUnknown, ra]

theorem State.activeUnknown_known (s : State) (ra : s.ra = none) (sel : BitVec 3) (per e : Nat) :
    s.activeUnknown sel per e = false := by
  rw [State.activeUnknown, s.maskUnknown_known ra, Bool.and_false]

theorem State.anyUnknown_known (s : State) (ra : s.ra = none) (srcs : List VOpd) (e : Nat) : s.anyUnknown srcs e = false := by
  simp [State.anyUnknown, s.elemUnknown_known ra]

/-! ## Checks and effect -/

/-- An element is a pattern of its width. -/
theorem State.elem_lt (s : State) (o : VOpd) (e : Nat) : s.elem o e < 2 ^ o.w := BitVec.isLt _

/-- The checks of R121 pass. -/
theorem VecOk.vecCheck {s : State} {ok : Bool} {dsts srcs : List VOpd} {cross : Bool} (h : VecOk s ok dsts srcs cross) :
    s.vecCheck ok dsts srcs cross = .ok s := by
  obtain ⟨legal, operands, claim, -⟩ := h
  simp [State.vecCheck, legal, operands, Option.isSome_iff_ne_none.mp claim]

/-- An instruction that is left nowhere processes the elements from VSTART to VL − 1. -/
theorem State.range_uncut (s : State) (uncut : s.hart.cut = none) : s.range = upTo s.hart.vstart s.hart.vl := by
  rw [State.range, State.endAt, uncut]

theorem State.elementwise_known (s : State) (p : Option Pfx) (m : BitVec 3) (per : Nat) (d : VDst) (unk : Nat → Bool)
    (op : Nat → Nat × Flags) (uncut : s.hart.cut = none) (ra : s.ra = none) (known : ∀ e, unk e = false) :
    s.elementwise (s.maskSel p m) (s.zeroing p) per d unk op = elementsDone s p m per (·.putDst d) op := by
  rw [State.elementwise, s.range_uncut uncut]
  refine congrArg (fun f => ((upTo s.hart.vstart s.hart.vl).foldl f s).setVstart 0) (funext₂ fun t e => ?_)
  simp only [State.elementStep, s.activeUnknown_known ra, known, Bool.false_eq_true, if_false]

/-- What the result is matters only at elements that the instruction processes, where the type is legal. -/
theorem elementOp_elementwise {i : Instr} {p : Option Pfx} {m : BitVec 3} {ok : State → Bool} {d : State → VOpd}
    {srcs : State → List VOpd} {res : State → Nat → Nat × Flags} (unk : State → Nat → Bool) (op : State → Nat → Nat × Flags)
    (run : ∀ s, exec i s = elementOp p m (ok s) (d s) (srcs s) false (unk s) (op s) s)
    (known : ∀ s, s.ra = none → ∀ e, unk s e = false) (same : ∀ s, ok s = true → ∀ e, op s e = res s e) :
    Elementwise i p m ok d srcs res := by
  intro s checks
  have legal : ok s = true := checks.1
  have uncut : s.hart.cut = none := checks.2.2.2
  have effect : exec i s = finish p (.ok (s.elementwise (s.maskSel p m) (s.zeroing p) (s.perPos (d s)) (.vec (d s)) (unk s) (op s))) := by
    rw [run s, elementOp, checks.vecCheck]
    rfl
  refine ⟨fun ra => ?_, ?_⟩
  · rw [effect, s.elementwise_known p m _ _ _ _ uncut ra (known s ra), funext (same s legal)]
    rfl
  · rw [effect]
    exact finish_completes p (s.elementwise_keeps ..) rfl

theorem binaryOp_binary {mk : VOp3 → Instr} {ok : BitVec 4 → Bool}
    {f : BitVec 4 → State → Option Pfx → Nat → Nat → Nat → Nat × Flags}
    (op : State → Option Pfx → BitVec 4 → Nat → Nat → Nat → Nat × Flags)
    (run : ∀ o s, exec (mk o) s = binaryOp o ok (op s o.pfx) s)
    (same : ∀ s p t e x y, ok t = true → x < 2 ^ typeWidth t → y < 2 ^ typeWidth t → op s p t e x y = f t s p e x y) :
    Binary mk ok f := fun o =>
  elementOp_elementwise _ _ (run o) (fun s ra => s.anyUnknown_known ra _) fun s legal e =>
    same s o.pfx _ e _ _ legal (s.elem_lt ..) (s.elem_lt ..)

theorem unaryOp_unary {mk : VOp2 → Instr} {ok : BitVec 4 → Bool} {f : BitVec 4 → State → Option Pfx → Nat → Nat → Nat × Flags}
    (op : State → Option Pfx → BitVec 4 → Nat → Nat → Nat × Flags)
    (run : ∀ o s, exec (mk o) s = unaryOp o ok (op s o.pfx) s)
    (same : ∀ s p t e x, ok t = true → x < 2 ^ typeWidth t → op s p t e x = f t s p e x) :
    Unary mk ok f := fun o =>
  elementOp_elementwise _ _ (run o) (fun s ra => s.anyUnknown_known ra _) fun s legal e => same s o.pfx _ e _ legal (s.elem_lt ..)

/-! # Vector integer arithmetic (R124 to R126) -/

/-! ## Patterns and the integers that they stand for -/

theorem patternOf_eq (w : Nat) (i : Int) : patternOf w i = ofSigned w i := by
  rw [patternOf, ofSigned, Nat.cast_pow]
  rfl

theorem ofSigned_natCast (w n : Nat) : ofSigned w n = n % 2 ^ w := by
  rw [ofSigned, ← Int.natCast_emod, Int.toNat_natCast]

/-- A pattern stands for its signed value. -/
theorem patternOf_toSigned {w x : Nat} (h : x < 2 ^ w) : patternOf w (toSigned w x) = x := by
  have cast : ((2 ^ w : Nat) : Int) = 2 ^ w := by push_cast; rfl
  rw [patternOf_eq, ofSigned, toSigned, Nat.mod_eq_of_lt h]
  split
  · rw [← Int.natCast_emod, Int.toNat_natCast, Nat.mod_eq_of_lt h]
  · rw [← cast, Int.sub_emod_right, ← Int.natCast_emod, Int.toNat_natCast, Nat.mod_eq_of_lt h]

theorem toSigned_eq_zero {w x : Nat} (h : x < 2 ^ w) : toSigned w x = 0 ↔ x = 0 := by
  refine ⟨fun zero => ?_, fun zero => ?_⟩
  · rw [← patternOf_toSigned h, zero, patternOf, Int.zero_emod]
    rfl
  · subst zero
    rw [toSigned, Nat.zero_mod, if_pos (Nat.two_pow_pos _)]
    rfl

theorem patternOf_neg_one (w : Nat) : patternOf w (-1) = 2 ^ w - 1 := by
  have pos : 0 < 2 ^ w := Nat.two_pow_pos w
  have wrapped : (-1 : Int) % (2 ^ w : Nat) = (2 ^ w - 1 : Nat) := by
    rw [← Int.add_emod_right, Int.emod_eq_of_lt] <;> omega
  rw [patternOf_eq, ofSigned, wrapped, Int.toNat_natCast]

/-! ## Extremes -/

theorem extremum_signed {w x y : Nat} (max : Bool) (hx : x < 2 ^ w) (hy : y < 2 ^ w) :
    extremum true max w x y = patternOf w (if max then Max.max (toSigned w x) (toSigned w y) else min (toSigned w x) (toSigned w y)) := by
  simp only [extremum, intOf, if_true]
  cases max
  · simp only [Bool.false_eq_true, if_false, min_def_lt, apply_ite (patternOf w), patternOf_toSigned hx, patternOf_toSigned hy]
  · simp only [if_true, max_def_lt, apply_ite (patternOf w), patternOf_toSigned hx, patternOf_toSigned hy]

theorem extremum_unsigned {w x y : Nat} (max : Bool) (hx : x < 2 ^ w) (hy : y < 2 ^ w) :
    extremum false max w x y = if max then Nat.max x y else Nat.min x y := by
  simp only [extremum, intOf, Nat.mod_eq_of_lt hx, Nat.mod_eq_of_lt hy, Bool.false_eq_true, if_false, Int.ofNat_lt]
  cases max
  · exact (min_def_lt x y).symm
  · exact (max_def_lt x y).symm

/-! ## The instructions -/

theorem wrapOrSat_eq (t : BitVec 4) (sat : Bool) (i : Int) :
    wrapOrSat t sat i = patternOf (typeWidth t)
      (if sat then max (lowestOf (typeWidth t) (isSigned t)) (min (highestOf (typeWidth t) (isSigned t)) i) else i) :=
  (patternOf_eq ..).symm

theorem quot_signed {w x y : Nat} (hy : y < 2 ^ w) :
    quot true w x y = patternOf w (if toSigned w y = 0 then -1 else (toSigned w x).tdiv (toSigned w y)) := by
  simp only [quot, toSigned_eq_zero hy, intOf, if_true]
  split
  · exact (patternOf_neg_one w).symm
  · exact (patternOf_eq ..).symm

theorem quot_unsigned {w x y : Nat} (hx : x < 2 ^ w) (hy : y < 2 ^ w) :
    quot false w x y = if y % 2 ^ w = 0 then 2 ^ w - 1 else x % 2 ^ w / (y % 2 ^ w) := by
  simp only [quot, intOf, Nat.mod_eq_of_lt hx, Nat.mod_eq_of_lt hy, Bool.false_eq_true, if_false,
    Int.tdiv_eq_ediv_of_nonneg (Int.natCast_nonneg _),
    ← Int.natCast_ediv, ofSigned_natCast, Nat.mod_eq_of_lt (lt_of_le_of_lt (Nat.div_le_self x y) hx)]

theorem remainder_signed {w x y : Nat} (hx : x < 2 ^ w) (hy : y < 2 ^ w) :
    remainder true w x y = patternOf w (if toSigned w y = 0 then toSigned w x else (toSigned w x).tmod (toSigned w y)) := by
  simp only [remainder, toSigned_eq_zero hy, intOf, if_true]
  split
  · exact (patternOf_toSigned hx).symm
  · exact (patternOf_eq ..).symm

theorem remainder_unsigned {w x y : Nat} (hx : x < 2 ^ w) (hy : y < 2 ^ w) :
    remainder false w x y = x % 2 ^ w % (y % 2 ^ w) := by
  simp only [remainder, intOf, Nat.mod_eq_of_lt hx, Nat.mod_eq_of_lt hy, Bool.false_eq_true, if_false,
    Int.tmod_eq_emod_of_nonneg (Int.natCast_nonneg _), ← Int.natCast_emod, ofSigned_natCast,
    Nat.mod_eq_of_lt (lt_of_le_of_lt (Nat.mod_le x y) hx)]
  split
  · next h => rw [h, Nat.mod_zero]
  · rfl

theorem mulHigh_unsigned (w x y : Nat) : mulHigh false w x y = x % 2 ^ w * (y % 2 ^ w) / 2 ^ w := by
  have high : x % 2 ^ w * (y % 2 ^ w) / 2 ^ w < 2 ^ w :=
    Nat.div_lt_of_lt_mul (Nat.mul_lt_mul'' (Nat.mod_lt x (Nat.two_pow_pos w)) (Nat.mod_lt y (Nat.two_pow_pos w)))
  simp only [mulHigh, intOf, Bool.false_eq_true, if_false, ← Int.natCast_mul, ← Int.natCast_ediv, ofSigned_natCast, Nat.mod_eq_of_lt high]

theorem mulHigh_signed (w x y : Nat) : mulHigh true w x y = patternOf w (toSigned w x * toSigned w y / 2 ^ w) := by
  rw [patternOf_eq, mulHigh, Nat.cast_pow]
  rfl

theorem shiftArith_eq (w x y : Nat) : shiftArith w x y = patternOf w (toSigned w x / 2 ^ (y % w)) := by
  rw [patternOf_eq, shiftArith, Int.shiftRight_eq_div_pow, Nat.cast_pow]
  rfl

/-- Settles O18: each operation on patterns, from `wrapOrSat_eq` to `shiftArith_eq`, at every element (`binaryOp_binary`). -/
theorem vectorIntegerArithmetic : Obligations.VectorIntegerArithmetic := by
  unfold Obligations.VectorIntegerArithmetic
  intro num saturable signed bits
  have saturates (mk : VOp3 → Instr) (f : Int → Int → Int) (run : ∀ o s, exec (mk o) s = satOp o f s) : saturable mk f :=
    binaryOp_binary (fun s p t _ x y => (wrapOrSat t (s.saturates p) (f (num t x) (num t y)), 0#5)) run
      fun s p t _ _ _ _ _ _ => congrArg (·, 0#5) (wrapOrSat_eq t (s.saturates p) _)
  have onSigned (mk : VOp3 → Instr) (g : Nat → Nat → Nat → Nat) (f : Nat → Int → Int → Int)
      (run : ∀ o s, exec (mk o) s = plainOp o g s)
      (same : ∀ w x y, x < 2 ^ w → y < 2 ^ w → g w x y = patternOf w (f w (toSigned w x) (toSigned w y))) : signed mk f :=
    binaryOp_binary (fun _ _ t _ x y => (g (typeWidth t) x y, 0#5)) run fun _ _ _ _ _ _ _ hx hy => congrArg (·, 0#5) (same _ _ _ hx hy)
  have plain (mk : VOp3 → Instr) (g f : Nat → Nat → Nat → Nat) (run : ∀ o s, exec (mk o) s = plainOp o g s)
      (same : ∀ w x y, x < 2 ^ w → y < 2 ^ w → g w x y = f w x y) : bits mk f :=
    binaryOp_binary (fun _ _ t _ x y => (g (typeWidth t) x y, 0#5)) run fun _ _ _ _ _ _ _ hx hy => congrArg (·, 0#5) (same _ _ _ hx hy)
  exact ⟨saturates .vadd (· + ·) fun _ _ => rfl, saturates .vsub (· - ·) fun _ _ => rfl,
    saturates .vrsub (fun x y => y - x) fun _ _ => rfl, saturates .vmul (· * ·) fun _ _ => rfl,
    onSigned .vmulh (mulHigh true) (fun w x y => x * y / 2 ^ w) (fun _ _ => rfl) fun w x y _ _ => mulHigh_signed w x y,
    plain .vmulhn (mulHigh false) (fun w x y => x % 2 ^ w * (y % 2 ^ w) / 2 ^ w) (fun _ _ => rfl) fun w x y _ _ => mulHigh_unsigned w x y,
    onSigned .vdiv (quot true) (fun _ x y => if y = 0 then -1 else x.tdiv y) (fun _ _ => rfl) fun _ _ _ _ hy => quot_signed hy,
    plain .vdivn (quot false) (fun w x y => if y % 2 ^ w = 0 then 2 ^ w - 1 else x % 2 ^ w / (y % 2 ^ w)) (fun _ _ => rfl)
      fun _ _ _ hx hy => quot_unsigned hx hy,
    onSigned .vrem (remainder true) (fun _ x y => if y = 0 then x else x.tmod y) (fun _ _ => rfl) fun _ _ _ hx hy => remainder_signed hx hy,
    plain .vremn (remainder false) (fun w x y => x % 2 ^ w % (y % 2 ^ w)) (fun _ _ => rfl) fun _ _ _ hx hy => remainder_unsigned hx hy,
    onSigned .vmin (extremum true false) (fun _ x y => min x y) (fun _ _ => rfl) fun _ _ _ hx hy => extremum_signed false hx hy,
    onSigned .vmax (extremum true true) (fun _ x y => max x y) (fun _ _ => rfl) fun _ _ _ hx hy => extremum_signed true hx hy,
    plain .vminn (extremum false false) (fun _ => Nat.min) (fun _ _ => rfl) fun _ _ _ hx hy => extremum_unsigned false hx hy,
    plain .vmaxn (extremum false true) (fun _ => Nat.max) (fun _ _ => rfl) fun _ _ _ hx hy => extremum_unsigned true hx hy,
    plain .vand (fun _ x y => x &&& y) (fun _ x y => x &&& y) (fun _ _ => rfl) fun _ _ _ _ _ => rfl,
    plain .vor (fun _ x y => x ||| y) (fun _ x y => x ||| y) (fun _ _ => rfl) fun _ _ _ _ _ => rfl,
    plain .vxor (fun _ x y => x ^^^ y) (fun _ x y => x ^^^ y) (fun _ _ => rfl) fun _ _ _ _ _ => rfl,
    plain .vsll shiftLeft (fun w x y => x * 2 ^ (y % w) % 2 ^ w) (fun _ _ => rfl)
      fun w x y _ _ => congrArg (· % 2 ^ w) (Nat.shiftLeft_eq x (y % w)),
    plain .vsrl shiftRight (fun w x y => x / 2 ^ (y % w)) (fun _ _ => rfl) fun w x y _ _ => Nat.shiftRight_eq_div_pow x (y % w),
    binaryOp_binary (fun _ _ t _ x y => (shiftArith (typeWidth t) x y, 0#5)) (fun _ _ => rfl) fun _ _ _ _ _ _ _ _ _ =>
      congrArg (·, 0#5) (shiftArith_eq ..)⟩

end Sys2Proof.Machine

/-! # Vector floating point (R130 to R135) -/

namespace Sys2Proof.Machine

/-! ## Formats of the types -/

theorem fmtOf_ieee {t : BitVec 4} (h : arithFloat t = true) : (fmtOf t).kind = .ieee := by
  revert t; decide

theorem fmtOf_width {t : BitVec 4} (h : arithFloat t = true) : (fmtOf t).width = typeWidth t := by
  revert t; decide

theorem isInt_of_isFloat {t : BitVec 4} (h : isFloat t = true) : isInt t = false := by
  revert t; decide

theorem isFloat_of_arithFloat {t : BitVec 4} (h : arithFloat t = true) : isFloat t = true := by
  revert t; decide

/-! ## Scaling -/

/-- Scaling a finite value adds to its exponent, within bounds beyond which every result is the same (Table 7.4). -/
theorem fpScale_fin {f : Fmt} {env : RndEnv} {x m : Nat} {n e : Int} {g st : Bool} (h : f.operand env.ftz x = .fin g m e st) :
    fpScale f env x n = rounded f env [x] (.fin g m (e + max (-5000) (min 5000 n)) st, 0#5) := by
  rw [fpScale, h]
  rfl

theorem fpScale_nan {f : Fmt} {env : RndEnv} {x : Nat} {n : Int} (h : f.operand env.ftz x = .nan) :
    fpScale f env x n = rounded f env [x] (.nan, 0#5) := by
  rw [fpScale, h]

theorem Fmt.isNaN_of_inf {f : Fmt} {ftz g : Bool} {x : Nat} (h : f.operand ftz x = .inf g) : f.isNaN x = false := by
  unfold Fmt.operand Fmt.value at h
  grind

/-- An infinity stays, with no flag. -/
theorem fpScale_inf {f : Fmt} {env : RndEnv} {x : Nat} {n : Int} {g : Bool} (ieee : f.kind = .ieee)
    (h : f.operand env.ftz x = .inf g) : fpScale f env x n = rounded f env [x] (.inf g, 0#5) := by
  have quiet : f.isSNaN x = false := Fmt.isSNaN_of_number (Fmt.isNaN_of_inf h)
  rw [fpScale, h]
  simp [rounded, roundTo, ieee, quiet, flag]

/-- Settles O21: every operation rounds an exact value once (`rounded`); only VFSCL distinguishes its operands (`fpScale_fin`). -/
theorem vectorFloatArithmetic : Obligations.VectorFloatArithmetic := by
  unfold Obligations.VectorFloatArithmetic
  intro once val two fma
  have twos (mk : VOp3 → Instr) (g : Fmt → RndEnv → Nat → Nat → Nat × Flags) (f : Rnd → FVal → FVal → FVal × Flags)
      (run : ∀ o s, exec (mk o) s = vfBinary o g s)
      (same : ∀ F env x y, g F env x y = rounded F env [x, y] (f env.rnd (F.operand env.ftz x) (F.operand env.ftz y))) : two mk f :=
    binaryOp_binary (fun s p t e => g (fmtOf t) (s.vecEnv p e)) run fun _ _ _ _ _ _ _ _ _ => same ..
  have fmas (mk : VOp3 → Instr) (negProd negAdd : Bool) (run : ∀ o s, exec (mk o) s = vfMultiplyAdd o negProd negAdd s) :
      fma mk negProd negAdd := fun o =>
    elementOp_elementwise _ _ (run o) (fun s ra => s.anyUnknown_known ra _) fun _ _ _ => rfl
  refine ⟨twos .vfadd (fpAdd · · false) addVal (fun _ _ => rfl) fun _ _ _ _ => rfl,
    twos .vfsub (fpAdd · · true) (fun r v w => addVal r v w.negate) (fun _ _ => rfl) fun _ _ _ _ => rfl,
    twos .vfmul fpMul (fun _ v w => mulVal v w) (fun _ _ => rfl) fun _ _ _ _ => rfl,
    twos .vfdiv fpDiv (fun _ v w => divVal v w) (fun _ _ => rfl) fun _ _ _ _ => rfl,
    unaryOp_unary (fun s p t e x => fpSqrt (fmtOf t) (s.vecEnv p e) x) (fun _ _ => rfl) fun _ _ _ _ _ _ _ => rfl,
    fmas .vfma false false fun _ _ => rfl, fmas .vfms false true fun _ _ => rfl, fmas .vfnma true false fun _ _ => rfl,
    binaryOp_binary (fun s p t e x y => fpScale (fmtOf t) (s.vecEnv p e) x (toSigned (typeWidth t) y)) (fun _ _ => rfl) ?_,
    binaryOp_binary (fun _ _ t _ => minMax (fmtOf t) false) (fun _ _ => rfl) fun _ _ _ _ _ _ _ _ _ => rfl,
    binaryOp_binary (fun _ _ t _ => minMax (fmtOf t) true) (fun _ _ => rfl) fun _ _ _ _ _ _ _ _ _ => rfl,
    unaryOp_unary (fun _ _ t _ x => ((fmtOf t).magnitude x, 0#5)) (fun _ _ => rfl) ?_,
    unaryOp_unary (fun _ _ t _ x => (x ^^^ 2 ^ (typeWidth t - 1), 0#5)) (fun _ _ => rfl) fun _ _ _ _ _ _ _ => rfl,
    unaryOp_unary (fun _ _ t _ x => (classBits (fmtOf t) x, 0#5)) (fun _ _ => rfl) fun _ _ _ _ _ _ _ => rfl⟩
  · intro s p t e x y legal _ _
    cases h : val t s p x with
    | nan => exact fpScale_nan h
    | inf g => exact fpScale_inf (fmtOf_ieee legal) h
    | fin g m k st => exact fpScale_fin h
  · intro s p t e x legal _
    rw [Fmt.magnitude, fmtOf_width legal]

/-! ## Special functions and conversions -/

theorem rounded_one (f : Fmt) (env : RndEnv) (x : Nat) (v : FVal × Flags) :
    rounded f env [x] v = ((roundTo f env v.1).1, (roundTo f env v.1).2 ||| v.2 ||| flag (f.isSNaN x) flNV) := by
  simp [rounded]

theorem convert_intToInt {s t : BitVec 4} (env : RndEnv) (x : Nat) (differ : s ≠ t) (hs : isInt s = true) (ht : isInt t = true) :
    convert env s t x = (intToInt (typeWidth s) (isSigned s) (typeWidth t) (isSigned t) env.sat x, 0#5) := by
  simp [convert, differ, hs, ht]

theorem convert_floatToFloat {s t : BitVec 4} (env : RndEnv) (x : Nat) (differ : s ≠ t) (hs : isFloat s = true) (ht : isFloat t = true) :
    convert env s t x = floatToFloat (fmtOf s) (fmtOf t) env x := by
  simp [convert, differ, isInt_of_isFloat hs, isInt_of_isFloat ht]

theorem convert_floatToInt {s t : BitVec 4} (env : RndEnv) (x : Nat) (hs : isFloat s = true) (ht : isInt t = true) :
    convert env s t x = toInt env (typeWidth t) (isSigned t) ((fmtOf s).operand env.ftz x) := by
  have differ : s ≠ t := by rintro rfl; simp [isInt_of_isFloat hs] at ht
  simp [convert, differ, isInt_of_isFloat hs, ht]

theorem convert_intToFloat {s t : BitVec 4} (env : RndEnv) (x : Nat) (hs : isInt s = true) (ht : isFloat t = true) :
    convert env s t x = fromInt (fmtOf t) env (typeWidth s) (isSigned s) x := by
  have differ : s ≠ t := by rintro rfl; simp [isInt_of_isFloat ht] at hs
  simp [convert, differ, hs, isInt_of_isFloat ht]

theorem intToInt_eq (sw tw : Nat) (ss ts sat : Bool) (x : Nat) :
    intToInt sw ss tw ts sat x = patternOf tw (if sat && decide (tw ≤ sw) then max (lowestOf tw ts) (min (highestOf tw ts) (intOf sw ss x))
      else intOf sw ss x) := by
  rw [patternOf_eq]
  rfl

theorem vectorSpecialAndConversions : VectorSpecialAndConvert := by
  unfold VectorSpecialAndConvert
  intro special group converts
  have specials (mk : VOp2 → Instr) (fn : Special) (run : ∀ o s, exec (mk o) s = vfSpecial o fn s) : special mk fn :=
    unaryOp_unary (fun s p t e x => fpSpecial (fmtOf t) (s.vecEnv p e) fn x) run fun _ _ _ _ _ _ _ => rounded_one ..
  have conversions (mk : Option Pfx → BitVec 5 → BitVec 5 → BitVec 4 → Bool → BitVec 3 → Instr) (ok : BitVec 4 → BitVec 4 → Bool)
      (f : RndEnv → BitVec 4 → BitVec 4 → Nat → Nat × Flags)
      (run : ∀ p d a t x m s, exec (mk p d a t x m) s = conversionOp p d a t m ok s)
      (same : ∀ env st dt x, ok st dt = true → convert env st dt x = f env st dt x) : converts mk ok f := fun p d a t x m =>
    elementOp_elementwise (fun s => s.anyUnknown [convOpd a (typeWidth t) (typeWidth (s.vtype p))])
      (fun s e => convert (s.vecEnv p e) t (s.vtype p) (s.elem (convOpd a (typeWidth t) (typeWidth (s.vtype p))) e))
      (fun s => by rw [run, conversionOp, ratioOk, ← Bool.and_assoc]; rfl) (fun s ra => s.anyUnknown_known ra _)
      fun s legal e => same _ _ _ _ (by
        rw [Bool.and_assoc, Bool.and_eq_true] at legal
        exact legal.1)
  refine ⟨specials .vfrcp .rcp fun _ _ => rfl, specials .vfrsq .rsq fun _ _ => rfl, specials .vfex2 .ex2 fun _ _ => rfl,
    specials .vflg2 .lg2 fun _ _ => rfl, specials .vftnh .tnh fun _ _ => rfl, specials .vfsig .sig fun _ _ => rfl,
    specials .vfexp .exp fun _ _ => rfl,
    conversions .vcvt (fun s t => (isInt s && isInt t) || (isFloat s && isFloat t)) (fun env s t x =>
      if s = t then (x, 0#5)
      else if isInt s then
        let i : Int := if isSigned s then toSigned (typeWidth s) x else (x % 2 ^ typeWidth s : Nat)
        let w := typeWidth t
        (patternOf w (if env.sat && decide (w ≤ typeWidth s) then max (lowestOf w (isSigned t)) (min (highestOf w (isSigned t)) i) else i), 0#5)
      else floatToFloat (fmtOf s) (fmtOf t) env x) (fun _ _ _ _ _ _ _ => rfl) fun env st dt x legal => ?_,
    conversions .vftoi (fun s t => isFloat s && isInt t)
      (fun env s t x => toInt env (typeWidth t) (isSigned t) ((fmtOf s).operand env.ftz x)) (fun _ _ _ _ _ _ _ => rfl)
      fun env st dt x legal => ?_,
    conversions .vitof (fun s t => isInt s && isFloat t) (fun env s t x => fromInt (fmtOf t) env (typeWidth s) (isSigned s) x)
      (fun _ _ _ _ _ _ _ => rfl) fun env st dt x legal => ?_⟩
  · by_cases same : st = dt
    · rw [convert, if_pos same, if_pos same]
    · rw [if_neg same]
      simp only [Bool.or_eq_true, Bool.and_eq_true] at legal
      rcases legal with ⟨hs, ht⟩ | ⟨hs, ht⟩
      · rw [convert_intToInt env x same hs ht, intToInt_eq, if_pos hs]
        rfl
      · rw [convert_floatToFloat env x same hs ht, isInt_of_isFloat hs]
        rfl
  · rw [Bool.and_eq_true] at legal
    exact convert_floatToInt env x legal.1 legal.2
  · rw [Bool.and_eq_true] at legal
    exact convert_intToFloat env x legal.1 legal.2

/-! ## The error-free conversion (R35, R135) -/

theorem convert_narrows {s t : BitVec 4} (env : RndEnv) (x : Nat) (h : narrows s t = true) :
    convert env s t x = floatToFloat (fmtOf s) (fmtOf t) env x := by
  simp only [narrows, Bool.and_eq_true, bne_iff_ne] at h
  obtain ⟨⟨⟨hs, ht⟩, differ⟩, -⟩ := h
  exact convert_floatToFloat env x differ (isFloat_of_arithFloat hs) ht

theorem State.errorFreeStep_keeps (s : State) (sel : BitVec 3) (zero : Bool) (d c src : VOpd) (st dt : BitVec 4) (p : Option Pfx)
    (t : State) (e : Nat) : t.Keeps (s.errorFreeStep sel zero d c src st dt p t e) := by
  unfold State.errorFreeStep
  dsimp only
  repeat' split
  · exact ⟨rfl, rfl⟩
  · exact ⟨rfl, rfl⟩
  · exact ⟨rfl, rfl⟩
  · exact .refl t

theorem Fmt.isNaN_of_nan {f : Fmt} {ftz : Bool} {x : Nat} (h : f.operand ftz x = .nan) : f.isNaN x = true := by
  unfold Fmt.operand Fmt.value at h
  grind

/-- One element of VCVTEF out of run-ahead: what is narrowed and what is left of it are written together, or neither (R135). -/
theorem State.errorFreeStep_known (s : State) (ra : s.ra = none) (sel : BitVec 3) (zero : Bool) (d c src : VOpd) (st dt : BitVec 4)
    (p : Option Pfx) (t : State) (e : Nat) (legal : narrows st dt = true) :
    s.errorFreeStep sel zero d c src st dt p t e =
      let env := s.vecEnv p e
      let x := s.elem src e
      let n := floatToFloat (fmtOf st) (fmtOf dt) env x
      let r := residual (fmtOf st) (fmtOf dt) env.rnd x n.1 (narrowedOver (fmtOf st) (fmtOf dt) env x) (Config.freeWord (s.fresh + e)).toNat
      if s.active sel (s.perPos d) e then ((t.setElem d e n.1).setElem c e r.1).orVstat (n.2 ||| r.2)
      else if zero then (t.setElem d e 0).setElem c e 0 else t := by
  simp only [State.errorFreeStep, s.activeUnknown_known ra, s.elemUnknown_known ra, convert_narrows _ _ legal, Bool.and_false, Bool.or_self,
    Bool.false_eq_true, if_false]

theorem vectorConvertErrorFree : VectorConvertErrorFree := by
  unfold VectorConvertErrorFree
  intro p d a t x m s dt dw sw src vd vc f g env narrow isFinite past isExact diff rest checks
  obtain ⟨legal, -, -, uncut⟩ := id checks
  simp only [Bool.and_eq_true] at legal
  obtain ⟨⟨narrower, -⟩, -⟩ := legal
  let step := s.errorFreeStep (s.maskSel (some p) m) (s.zeroing (some p)) vd vc src t dt (some p)
  let after : State := { (s.range.foldl step s).setVstart 0 with fresh := s.fresh + s.hart.vl }
  have effect : exec (.vcvtef p d a t x m) s = finish (some p) (.ok after) :=
    calc exec (.vcvtef p d a t x m) s
      _ = finish (some p) (s.vecCheck (narrows t dt && ratioOk sw dw && !vc.overlaps vd) [vd, vc] [src] false >>= fun s =>
            .ok { (s.range.foldl (s.errorFreeStep (s.maskSel (some p) m) (s.zeroing (some p)) vd vc src t dt (some p)) s).setVstart 0 with
              fresh := s.fresh + s.hart.vl }) := rfl
      _ = finish (some p) (.ok after) := by rw [checks.vecCheck]; rfl
  have keeps : s.Keeps after := State.foldl_keeps step (s.errorFreeStep_keeps _ _ _ _ _ _ _ _) s.range s
  refine ⟨fun ra => ?_, effect ▸ finish_completes (some p) keeps rfl⟩
  have overflowed e : narrowedOver f g (env e) (s.elem src e) = past e := by
    simp only [narrowedOver, past]
    cases h : f.operand (env e).ftz (s.elem src e) with
    | nan => simp [isFinite, Fmt.isNaN_of_nan h, narrow, floatToFloat, h]
    | inf n => simp [isFinite, Fmt.isNaN_of_inf h]
    | fin n k q st => simp [isFinite, narrow, floatToFloat, h]
  have exactly e : exactResidual g (narrow e).1 (past e) = isExact e := by
    simp only [exactResidual, isExact]
    cases g.value (narrow e).1 <;> rfl
  have left e : residual f g (env e).rnd (s.elem src e) (narrow e).1 (past e) (Config.freeWord (s.fresh + e)).toNat
      = (rest e, flag (!isExact e) flNX) := by
    simp only [residual, exactly]
    rfl
  have same : step = fun u e =>
      if s.active (s.maskSel (some p) m) (s.perPos vd) e then
        ((u.setElem vd e (narrow e).1).setElem vc e (if s.active (s.maskSel (some p) m) (s.perPos vd) e then rest e else 0)).orVstat
          ((narrow e).2 ||| flag (!isExact e) flNX)
      else if s.zeroing (some p) then
        (u.setElem vd e 0).setElem vc e (if s.active (s.maskSel (some p) m) (s.perPos vd) e then rest e else 0)
      else u := by
    funext u e
    refine (s.errorFreeStep_known ra _ _ _ _ _ _ _ _ u e narrower).trans ?_
    show (if s.active (s.maskSel (some p) m) (s.perPos vd) e then
        ((u.setElem vd e (narrow e).1).setElem vc e
          (residual f g (env e).rnd (s.elem src e) (narrow e).1 (narrowedOver f g (env e) (s.elem src e)) (Config.freeWord (s.fresh + e)).toNat).1).orVstat
          ((narrow e).2 ||| (residual f g (env e).rnd (s.elem src e) (narrow e).1 (narrowedOver f g (env e) (s.elem src e))
            (Config.freeWord (s.fresh + e)).toNat).2)
      else if s.zeroing (some p) then (u.setElem vd e 0).setElem vc e 0 else u) = _
    rw [overflowed, left]
    cases s.active (s.maskSel (some p) m) (s.perPos vd) e <;> rfl
  rw [effect]
  simp only [after, same, s.range_uncut uncut]
  rfl

/-- Settles O22: the special functions and the conversions round once at every element; VCVTEF writes both of its results in each step
(`errorFreeStep_known`). -/
theorem vectorSpecialAndConvert : Obligations.VectorSpecialAndConvert := ⟨vectorSpecialAndConversions, vectorConvertErrorFree⟩

end Sys2Proof.Machine

/-! # Reductions and scans (R42, R43, R143 to R145) -/

namespace Sys2Proof.Machine

/-! ## What both share -/

theorem activeBelow_vl (s : State) (p : Option Pfx) (m : BitVec 3) (per : Nat) :
    activeBelow s p m per s.hart.vl = s.actives (s.maskSel p m) per := by
  rw [activeBelow, show Nat.min s.hart.vl s.hart.vl = s.hart.vl from Nat.min_self _]
  rfl

theorem State.activesUnknown_known (s : State) (ra : s.ra = none) (sel : BitVec 3) (per : Nat) (a : VOpd) :
    s.activesUnknown sel per a = false := by
  simp [State.activesUnknown, s.activeUnknown_known ra, s.elemUnknown_known ra]

theorem State.setVstart_of_eq (s : State) (n : Nat) (h : s.hart.vstart = n) : s.setVstart n = s := by
  subst h
  rfl

/-- Nothing but VSTART 0 is legal (R145). -/
theorem State.vecCheck_vstart (s : State) (ok : Bool) (dsts srcs : List VOpd) (started : s.hart.vstart ≠ 0) :
    s.vecCheck (ok && s.hart.vstart == 0) dsts srcs false = .error (s.illegal, s) := by
  simp [State.vecCheck, started]

/-- With VSTART 0 its check is one of the others. -/
theorem VecOk.vecCheck_vstart {s : State} {ok : Bool} {dsts srcs : List VOpd} (h : VecOk s ok dsts srcs false)
    (start : s.hart.vstart = 0) : s.vecCheck (ok && s.hart.vstart == 0) dsts srcs false = .ok s := by
  rw [start, beq_self_eq_true, Bool.and_true, h.vecCheck]

/-! ## Reductions -/

/-- What `reductionOp` does once its checks have passed. -/
def State.reduced (s : State) (sel : BitVec 3) (d a b : VOpd) (f : Nat → List Nat → Nat × Flags) : State :=
  if s.hart.vl = 0 then s.setVstart 0
  else if s.activesUnknown sel (s.perPos a) a || s.elemUnknown b 0 then (s.noteElem d 0 true).setVstart 0
  else if s.actives sel (s.perPos a) = [] then ((s.setElem d 0 (s.elem b 0)).noteVstat vstatEmpty).setVstart 0
  else
    let r := f (s.elem b 0) (s.actives sel (s.perPos a))
    ((s.setElem d 0 r.1).orVstat r.2).setVstart 0

theorem State.reduced_keeps (s : State) (sel : BitVec 3) (d a b : VOpd) (f : Nat → List Nat → Nat × Flags) :
    s.Keeps (s.reduced sel d a b f) ∧ (s.reduced sel d a b f).hart.vstart = 0 := by
  unfold State.reduced
  repeat' split
  all_goals exact ⟨⟨rfl, rfl⟩, rfl⟩

theorem reductionOp_eq (o : VOp3) (ok : BitVec 4 → Bool) (f : BitVec 4 → BitVec 3 → Nat → Nat → List Nat → Nat × Flags) (s : State)
    (checked : s.vecCheck (ok (s.vtype o.pfx) && s.hart.vstart == 0) [vreg o.d (typeWidth (s.vtype o.pfx))]
      [vreg o.a (typeWidth (s.vtype o.pfx)), vreg o.b (typeWidth (s.vtype o.pfx))] false = .ok s) :
    reductionOp o ok f s = finish o.pfx (.ok (s.reduced (s.maskSel o.pfx o.msk) (vreg o.d (typeWidth (s.vtype o.pfx)))
      (vreg o.a (typeWidth (s.vtype o.pfx))) (vreg o.b (typeWidth (s.vtype o.pfx)))
      (f (s.vtype o.pfx) (s.maskSel o.pfx o.msk) (s.perPos (vreg o.a (typeWidth (s.vtype o.pfx))))))) := by
  unfold State.reduced
  simp only [reductionOp, checked, apply_ite (Except.ok (ε := Trap × State))]
  rfl

theorem State.reduced_known (s : State) (ra : s.ra = none) (start : s.hart.vstart = 0) (sel : BitVec 3) (d a b : VOpd)
    (f : Nat → List Nat → Nat × Flags) :
    s.reduced sel d a b f =
      if s.hart.vl = 0 then s
      else if s.actives sel (s.perPos a) = [] then (s.setElem d 0 (s.elem b 0)).noteVstat vstatEmpty
      else
        let r := f (s.elem b 0) (s.actives sel (s.perPos a))
        (s.setElem d 0 r.1).orVstat r.2 := by
  have done (t : State) (h : t.hart.vstart = s.hart.vstart) : t.setVstart 0 = t := t.setVstart_of_eq 0 (h.trans start)
  simp only [State.reduced, s.activesUnknown_known ra, s.elemUnknown_known ra, Bool.or_self, Bool.false_eq_true, if_false]
  rw [done s rfl, done ((s.setElem d 0 (s.elem b 0)).noteVstat vstatEmpty) rfl,
    done ((s.setElem d 0 _).orVstat _) rfl]

/-! ### Integer reductions -/

theorem foldl_sum_mod (n z : Nat) (l : List Nat) (hz : z < n) : l.foldl (fun x y => (x + y) % n) z = (z + l.sum) % n := by
  have pos : 0 < n := by omega
  induction l generalizing z with
  | nil => rw [List.foldl_nil, List.sum_nil, Nat.add_zero, Nat.mod_eq_of_lt hz]
  | cons x r ih => rw [List.foldl_cons, ih _ (Nat.mod_lt _ pos), List.sum_cons, Nat.mod_add_mod, Nat.add_assoc]

theorem extremum_lt (sgn max : Bool) {w x y : Nat} (hx : x < 2 ^ w) (hy : y < 2 ^ w) : extremum sgn max w x y < 2 ^ w := by
  unfold extremum
  repeat' split
  all_goals assumption

theorem toSigned_extremum (max : Bool) (w x y : Nat) :
    toSigned w (extremum true max w x y) = if max then Max.max (toSigned w x) (toSigned w y) else min (toSigned w x) (toSigned w y) := by
  simp only [extremum, intOf, if_true, max_def_lt, min_def_lt]
  cases max <;> exact apply_ite (toSigned w) ..

theorem foldl_extremum_signed (max : Bool) (w z : Nat) (l : List Nat) (hz : z < 2 ^ w) (hl : ∀ y ∈ l, y < 2 ^ w) :
    l.foldl (extremum true max w) z
      = patternOf w ((l.map (toSigned w)).foldl (fun x y => if max then Max.max x y else min x y) (toSigned w z)) := by
  induction l generalizing z with
  | nil => exact (patternOf_toSigned hz).symm
  | cons x r ih =>
    rw [List.foldl_cons, ih _ (extremum_lt true max hz (hl x List.mem_cons_self)) fun y hy => hl y (List.mem_cons_of_mem x hy),
      toSigned_extremum, List.map_cons, List.foldl_cons]

theorem foldl_extremum_unsigned (max : Bool) (w z : Nat) (l : List Nat) (hz : z < 2 ^ w) (hl : ∀ y ∈ l, y < 2 ^ w) :
    l.foldl (extremum false max w) z = l.foldl (fun x y => if max then Nat.max x y else Nat.min x y) z := by
  induction l generalizing z with
  | nil => rfl
  | cons x r ih =>
    have hx := hl x List.mem_cons_self
    rw [List.foldl_cons, ih _ (extremum_lt false max hz hx) fun y hy => hl y (List.mem_cons_of_mem x hy), extremum_unsigned max hz hx,
      List.foldl_cons]

/-! ### The fixed tree (R42) -/

theorem onTree_none (leaf : Nat → Option Nat) (combine : Nat → Nat → Nat → Nat × Flags) (k lo : Nat)
    (above : ∀ e, lo ≤ e → leaf e = none) : onTree leaf combine k lo = none := by
  induction k generalizing lo with
  | zero => rw [onTree, above lo le_rfl]; rfl
  | succ k ih => rw [onTree, ih lo above, ih (lo + 2 ^ k) fun e h => above e (Nat.le_of_add_right_le h)]

/-- Leaving out the nodes above VL changes nothing, since they hold no active element. -/
theorem treeNode_eq_onTree (leaf : Nat → Option Nat) (vl : Nat) (combine : Nat → Nat → Nat → Nat × Flags) (k lo : Nat)
    (above : ∀ e, vl ≤ e → leaf e = none) : treeNode leaf vl combine k lo = onTree leaf combine k lo := by
  induction k generalizing lo with
  | zero => rfl
  | succ k ih =>
    rw [treeNode]
    split
    · next h => exact (onTree_none leaf combine (k + 1) lo fun e he => above e (by omega)).symm
    · rw [onTree, ih, ih]
      cases onTree leaf combine k lo <;> cases onTree leaf combine k (lo + 2 ^ k) <;> rfl

/-- The depth is that of the least power of two that reaches VL. -/
theorem treeDepth_eq_clog (vl : Nat) : treeDepth vl = Nat.clog 2 vl := by
  unfold treeDepth
  split
  · next h => exact (Nat.clog_of_right_le_one h 2).symm
  · next h =>
    have reach (d : Nat) : vl ≤ 2 ^ d ↔ (vl - 1).log2 + 1 ≤ d := by
      rw [Nat.succ_le_iff, Nat.log2_lt (by omega)]; omega
    exact Nat.le_antisymm ((reach _).mp (Nat.le_pow_clog (by decide) vl)) (Nat.clog_le_of_le_pow ((reach _).mpr le_rfl))

theorem vectorReductions : VectorReductions := by
  unfold VectorReductions
  intro reduces elems int signed tree
  have reducing (mk : VOp3 → Instr) (ok : BitVec 4 → Bool)
      (f : BitVec 4 → State → Option Pfx → BitVec 3 → BitVec 5 → Nat → Nat × Flags)
      (g : VOp3 → State → BitVec 4 → BitVec 3 → Nat → Nat → List Nat → Nat × Flags)
      (run : ∀ o s, exec (mk o) s = reductionOp o ok (g o s) s)
      (same : ∀ o s, let t := s.vtype o.pfx
        let per := s.perPos (vreg o.a (typeWidth t))
        let z := s.elem (vreg o.b (typeWidth t)) 0
        g o s t (s.maskSel o.pfx o.msk) per z (s.actives (s.maskSel o.pfx o.msk) per) = f t s o.pfx o.msk o.a z) :
      reduces mk ok f := by
    intro o s t w d a b act r
    have effect (checks : VecOk s (ok t) [d] [a, b] false) (start : s.hart.vstart = 0) :
        exec (mk o) s = finish o.pfx (.ok (s.reduced (s.maskSel o.pfx o.msk) d a b (g o s t (s.maskSel o.pfx o.msk) (s.perPos a)))) :=
      (run o s).trans (reductionOp_eq o ok _ s (checks.vecCheck_vstart start))
    refine ⟨fun checks start ra => ?_, fun checks start => ?_, fun started => ?_⟩
    · rw [effect checks start, s.reduced_known ra start, same o s]
      simp only [act, activeBelow_vl]
      rfl
    · rw [CompletesInRegisters, effect checks start]
      exact finish_completes o.pfx (s.reduced_keeps ..).1 (s.reduced_keeps ..).2
    · rw [run, reductionOp, s.vecCheck_vstart _ _ _ started]
      rfl
  have ints (mk : VOp3 → Instr) (f : Nat → Nat → List Nat → Nat) (g : Nat → Nat → Nat → Nat)
      (run : ∀ o s, exec (mk o) s = intReduction o g s)
      (same : ∀ w z l, z < 2 ^ w → (∀ y ∈ l, y < 2 ^ w) → l.foldl (g w) z = f w z l) : int mk f := by
    refine reducing mk isInt (fun t s p m a z => (f (typeWidth t) z (elems t s p m a), 0#5))
      (fun o s t _ _ z act => (act.foldl (fun r e => g (typeWidth t) r (s.elem (vreg o.a (typeWidth t)) e)) z, 0#5)) run ?_
    intro o s t per z
    refine congrArg (·, 0#5) ?_
    show _ = f (typeWidth t) z ((activeBelow s o.pfx o.msk per s.hart.vl).map (s.elem (vreg o.a (typeWidth t))))
    have bounded : ∀ y ∈ (activeBelow s o.pfx o.msk per s.hart.vl).map (s.elem (vreg o.a (typeWidth t))), y < 2 ^ typeWidth t := by
      intro y hy
      obtain ⟨e, -, rfl⟩ := List.mem_map.mp hy
      exact s.elem_lt ..
    have hz : z < 2 ^ typeWidth t := s.elem_lt ..
    rw [← same _ _ _ hz bounded, activeBelow_vl, List.foldl_map]
  have trees (mk : VOp3 → Instr) (f : BitVec 4 → State → Option Pfx → Nat → Nat → Nat → Nat × Flags)
      (run : ∀ o s, exec (mk o) s = treeReduction o (fun t => f t s o.pfx) s) : tree mk f := by
    refine reducing mk arithFloat
      (fun t s p m a z =>
        let o := vreg a (typeWidth t)
        let leaf e := if e ∈ activeBelow s p m (s.perPos o) s.hart.vl then some (s.elem o e) else none
        match onTree leaf (f t s p) (Nat.clog 2 s.hart.vl) 0 with
        | some x => let r := f t s p 0 z x.1; (r.1, x.2 ||| r.2)
        | none => (z, 0#5))
      (fun o s t sel per z _ =>
        let a := vreg o.a (typeWidth t)
        let leaf e := if e < s.hart.vl && s.active sel per e then some (s.elem a e) else none
        match treeNode leaf s.hart.vl (f t s o.pfx) (treeDepth s.hart.vl) 0 with
        | none => (z, 0#5)
        | some (x, fx) => let r := f t s o.pfx 0 z x; (r.1, fx ||| r.2)) run ?_
    intro o s t per z
    let a := vreg o.a (typeWidth t)
    have leaves : (fun e => if e < s.hart.vl && s.active (s.maskSel o.pfx o.msk) per e then some (s.elem a e) else none)
        = fun e => if e ∈ activeBelow s o.pfx o.msk per s.hart.vl then some (s.elem a e) else none := by
      funext e
      simp [activeBelow_vl, State.actives]
    have same : treeNode (fun e => if e < s.hart.vl && s.active (s.maskSel o.pfx o.msk) per e then some (s.elem a e) else none)
          s.hart.vl (f t s o.pfx) (treeDepth s.hart.vl) 0
        = onTree (fun e => if e ∈ activeBelow s o.pfx o.msk per s.hart.vl then some (s.elem a e) else none) (f t s o.pfx)
          (Nat.clog 2 s.hart.vl) 0 := by
      rw [treeNode_eq_onTree _ _ _ _ _ fun e h => by simp [Nat.not_lt.mpr h], treeDepth_eq_clog, leaves]
    dsimp only
    rw [same]
    cases onTree (fun e => if e ∈ activeBelow s o.pfx o.msk per s.hart.vl then some (s.elem a e) else none) (f t s o.pfx)
      (Nat.clog 2 s.hart.vl) 0 <;> rfl
  exact ⟨ints .vredsum (fun w z l => (z + l.sum) % 2 ^ w) (fun w x y => (x + y) % 2 ^ w) (fun _ _ => rfl)
      fun w z l hz _ => foldl_sum_mod (2 ^ w) z l hz,
    ints .vredmin (fun w z l => patternOf w ((l.map (toSigned w)).foldl min (toSigned w z))) (extremum true false) (fun _ _ => rfl)
      fun w z l hz hl => foldl_extremum_signed false w z l hz hl,
    ints .vredmax (fun w z l => patternOf w ((l.map (toSigned w)).foldl max (toSigned w z))) (extremum true true) (fun _ _ => rfl)
      fun w z l hz hl => foldl_extremum_signed true w z l hz hl,
    ints .vredminn (fun _ z l => l.foldl Nat.min z) (extremum false false) (fun _ _ => rfl)
      fun w z l hz hl => foldl_extremum_unsigned false w z l hz hl,
    ints .vredmaxn (fun _ z l => l.foldl Nat.max z) (extremum false true) (fun _ _ => rfl)
      fun w z l hz hl => foldl_extremum_unsigned true w z l hz hl,
    ints .vredand (fun _ z l => l.foldl Nat.land z) (fun _ x y => x &&& y) (fun _ _ => rfl) fun _ _ _ _ _ => rfl,
    ints .vredor (fun _ z l => l.foldl Nat.lor z) (fun _ x y => x ||| y) (fun _ _ => rfl) fun _ _ _ _ _ => rfl,
    ints .vredxor (fun _ z l => l.foldl Nat.xor z) (fun _ x y => x ^^^ y) (fun _ _ => rfl) fun _ _ _ _ _ => rfl,
    trees .vfredsum (fun t s p i x y => fpAdd (fmtOf t) (s.vecEnv p i) false x y) fun _ _ => rfl,
    trees .vfredmin (fun t s p i x y =>
      minMax (fmtOf t) false (zeroed (fmtOf t) (s.vecEnv p i).ftz x) (zeroed (fmtOf t) (s.vecEnv p i).ftz y)) fun _ _ => rfl,
    trees .vfredmax (fun t s p i x y =>
      minMax (fmtOf t) true (zeroed (fmtOf t) (s.vecEnv p i).ftz x) (zeroed (fmtOf t) (s.vecEnv p i).ftz y)) fun _ _ => rfl⟩

/-! ## Scans -/

theorem State.scanStep_keeps (s : State) (sel : BitVec 3) (zero : Bool) (d a : VOpd) (incl : Bool)
    (combine : Nat → Nat → Nat → Nat × Flags) (r : Running) (e : Nat) :
    r.t.Keeps (s.scanStep sel zero d a incl combine r e).t := by
  unfold State.scanStep
  dsimp only
  repeat' split
  all_goals exact ⟨rfl, rfl⟩

theorem State.scanned_keeps (s : State) (sel : BitVec 3) (zero : Bool) (d a : VOpd) (incl : Bool)
    (combine : Nat → Nat → Nat → Nat × Flags) (l : List Nat) (r : Running) :
    r.t.Keeps (l.foldl (s.scanStep sel zero d a incl combine) r).t := by
  induction l generalizing r with
  | nil => exact .refl r.t
  | cons e l ih => exact (s.scanStep_keeps ..).trans (ih _)

/-- The running value after the elements of a list. -/
def scanValue (combine : Nat → Nat → Nat → Nat × Flags) (x : Nat → Nat) (z : Nat) (l : List Nat) : Nat :=
  l.foldl (fun r i => (combine i r (x i)).1) z

/-- What a scan writes to element e, when the active elements before it are `before`. -/
def scanResult (incl : Bool) (combine : Nat → Nat → Nat → Nat × Flags) (x : Nat → Nat) (z : Nat) (before : List Nat) (e : Nat) :
    Nat × Flags :=
  let r := scanValue combine x z before
  (if incl then (combine e r (x e)).1 else r, (combine e r (x e)).2)

/-- Out of run-ahead each active element receives the running value. -/
theorem State.scanStep_known (s : State) (ra : s.ra = none) (sel : BitVec 3) (zero : Bool) (d a : VOpd) (incl : Bool)
    (combine : Nat → Nat → Nat → Nat × Flags) (t : State) (x e : Nat) :
    s.scanStep sel zero d a incl combine { t := t, x := x, unk := false } e =
      if s.active sel (s.perPos a) e then
        { t := (t.setElem d e (if incl then (combine e x (s.elem a e)).1 else x)).orVstat (combine e x (s.elem a e)).2
          x := (combine e x (s.elem a e)).1, unk := false }
      else { t := if zero then t.setElem d e 0 else t, x := x, unk := false } := by
  simp only [State.scanStep, s.activeUnknown_known ra, s.elemUnknown_known ra]
  cases incl <;> rfl

/-- The first n elements of a scan. -/
theorem State.scan_known (s : State) (ra : s.ra = none) (p : Option Pfx) (m : BitVec 3) (d a : VOpd) (incl : Bool)
    (combine : Nat → Nat → Nat → Nat × Flags) (z n : Nat) (below : n ≤ s.hart.vl) :
    (List.range n).foldl (s.scanStep (s.maskSel p m) (s.zeroing p) d a incl combine) { t := s, x := z, unk := false } =
      { t := (List.range n).foldl (fun t e =>
          let r := scanResult incl combine (s.elem a) z (activeBelow s p m (s.perPos a) e) e
          if s.active (s.maskSel p m) (s.perPos a) e then (t.setElem d e r.1).orVstat r.2
          else if s.zeroing p then t.setElem d e 0 else t) s
        x := scanValue combine (s.elem a) z (activeBelow s p m (s.perPos a) n), unk := false } := by
  have lower (k : Nat) (h : k ≤ s.hart.vl) :
      activeBelow s p m (s.perPos a) k = (List.range k).filter fun e => s.active (s.maskSel p m) (s.perPos a) e := by
    rw [activeBelow, show Nat.min k s.hart.vl = k from Nat.min_eq_left h]
  induction n with
  | zero => rw [lower 0 (Nat.zero_le _)]; rfl
  | succ n ih =>
    rw [List.range_succ, List.foldl_append, List.foldl_append, ih (by omega), List.foldl_cons, List.foldl_nil, List.foldl_cons,
      List.foldl_nil, s.scanStep_known ra, lower (n + 1) below, List.range_succ, List.filter_append, ← lower n (by omega), scanValue,
      scanValue, List.foldl_append]
    cases active : s.active (s.maskSel p m) (s.perPos a) n
    · simp [active]
    · simp [active, scanResult, scanValue]

/-- What `scanOp` does once its checks have passed. -/
def State.scanned (s : State) (sel : BitVec 3) (zero : Bool) (d a b : VOpd) (incl : Bool) (combine : Nat → Nat → Nat → Nat × Flags) :
    State :=
  if s.hart.vl = 0 then s.setVstart 0
  else if s.actives sel (s.perPos a) = [] && !s.activesUnknown sel (s.perPos a) a then (s.noteVstat vstatEmpty).setVstart 0
  else ((List.range s.hart.vl).foldl (s.scanStep sel zero d a incl combine)
    { t := s, x := s.elem b 0, unk := s.elemUnknown b 0 }).t.setVstart 0

theorem scanOp_eq (o : VOp3) (ok : BitVec 4 → Bool) (incl : Bool) (combine : BitVec 4 → Nat → Nat → Nat → Nat × Flags) (s : State)
    (checked : s.vecCheck (ok (s.vtype o.pfx) && s.hart.vstart == 0) [vreg o.d (typeWidth (s.vtype o.pfx))]
      [vreg o.a (typeWidth (s.vtype o.pfx)), vreg o.b (typeWidth (s.vtype o.pfx))] false = .ok s) :
    scanOp o ok incl combine s = finish o.pfx (.ok (s.scanned (s.maskSel o.pfx o.msk) (s.zeroing o.pfx)
      (vreg o.d (typeWidth (s.vtype o.pfx))) (vreg o.a (typeWidth (s.vtype o.pfx))) (vreg o.b (typeWidth (s.vtype o.pfx))) incl
      (combine (s.vtype o.pfx)))) := by
  unfold State.scanned
  simp only [scanOp, checked, apply_ite (Except.ok (ε := Trap × State))]
  rfl

theorem State.scanned_completes (s : State) (sel : BitVec 3) (zero : Bool) (d a b : VOpd) (incl : Bool)
    (combine : Nat → Nat → Nat → Nat × Flags) :
    s.Keeps (s.scanned sel zero d a b incl combine) ∧ (s.scanned sel zero d a b incl combine).hart.vstart = 0 := by
  unfold State.scanned
  repeat' split
  · exact ⟨⟨rfl, rfl⟩, rfl⟩
  · exact ⟨⟨rfl, rfl⟩, rfl⟩
  · exact ⟨(s.scanned_keeps _ _ _ _ _ _ _ _).trans (State.setVstart_keeps _ 0), rfl⟩

theorem upTo_zero (n : Nat) : upTo 0 n = List.range n := by simp [upTo]

theorem State.scanned_known (s : State) (ra : s.ra = none) (start : s.hart.vstart = 0) (p : Option Pfx) (m : BitVec 3) (d a b : VOpd)
    (incl : Bool) (combine : Nat → Nat → Nat → Nat × Flags) :
    s.scanned (s.maskSel p m) (s.zeroing p) d a b incl combine =
      if s.hart.vl = 0 then s
      else if activeBelow s p m (s.perPos a) s.hart.vl = [] then s.noteVstat vstatEmpty
      else elementsDone s p m (s.perPos a) (·.setElem d) fun e =>
        scanResult incl combine (s.elem a) (s.elem b 0) (activeBelow s p m (s.perPos a) e) e := by
  have known : (decide (s.actives (s.maskSel p m) (s.perPos a) = []) && !s.activesUnknown (s.maskSel p m) (s.perPos a) a) = true
      ↔ activeBelow s p m (s.perPos a) s.hart.vl = [] := by
    rw [s.activesUnknown_known ra, activeBelow_vl]
    simp
  simp only [State.scanned, known, s.elemUnknown_known ra, s.scan_known ra p m d a incl combine _ _ le_rfl]
  rw [s.setVstart_of_eq 0 start, (s.noteVstat vstatEmpty).setVstart_of_eq 0 start, elementsDone, rangeDone, start, upTo_zero]
  rfl

theorem scanValue_sum (n : Nat) (x : Nat → Nat) (z : Nat) (l : List Nat) (hz : z < n) :
    scanValue (fun _ x y => ((x + y) % n, 0#5)) x z l = (z + (l.map x).sum) % n := by
  rw [← foldl_sum_mod n z _ hz, List.foldl_map]
  rfl

theorem vectorScans : VectorScans := by
  unfold VectorScans
  intro scans
  have scanning (mk : VOp3 → Instr) (ok : BitVec 4 → Bool)
      (f : BitVec 4 → State → Option Pfx → (Nat → Nat) → Nat → List Nat → Nat → Nat × Flags)
      (incl : Bool) (combine : VOp3 → State → BitVec 4 → Nat → Nat → Nat → Nat × Flags)
      (run : ∀ o s, exec (mk o) s = scanOp o ok incl (combine o s) s)
      (same : ∀ (o : VOp3) s t x z before e, z < 2 ^ typeWidth t →
        scanResult incl (combine o s t) x z before e = f t s o.pfx x z before e) :
      scans mk ok f := by
    intro o s t w d a b
    have effect (checks : VecOk s (ok t) [d] [a, b] false) (start : s.hart.vstart = 0) : exec (mk o) s
        = finish o.pfx (.ok (s.scanned (s.maskSel o.pfx o.msk) (s.zeroing o.pfx) d a b incl (combine o s t))) :=
      (run o s).trans (scanOp_eq o ok incl _ s (checks.vecCheck_vstart start))
    refine ⟨fun checks start ra => ?_, fun checks start => ?_, fun started => ?_⟩
    · have hz : s.elem b 0 < 2 ^ typeWidth t := s.elem_lt ..
      rw [effect checks start, s.scanned_known ra start]
      simp only [same o s t _ _ _ _ hz]
      rfl
    · rw [CompletesInRegisters, effect checks start]
      exact finish_completes o.pfx (s.scanned_completes ..).1 (s.scanned_completes ..).2
    · rw [run, scanOp, s.vecCheck_vstart _ _ _ started]
      rfl
  exact ⟨scanning .vscan isInt (fun t _ _ x z before e => ((z + (before.map x).sum + x e) % 2 ^ typeWidth t, 0#5)) true
      (fun _ _ t _ x y => ((x + y) % 2 ^ typeWidth t, 0#5)) (fun _ _ => rfl)
      fun o s t x z before e hz => by rw [scanResult, scanValue_sum _ x z before hz, if_pos rfl, Nat.mod_add_mod],
    scanning .vscanx isInt (fun t _ _ x z before _ => ((z + (before.map x).sum) % 2 ^ typeWidth t, 0#5)) false
      (fun _ _ t _ x y => ((x + y) % 2 ^ typeWidth t, 0#5)) (fun _ _ => rfl)
      fun o s t x z before e hz => congrArg (·, 0#5) (scanValue_sum _ x z before hz),
    scanning .vfscan arithFloat (fun t s p x z before e =>
        let add i r := fpAdd (fmtOf t) (s.vecEnv p i) false r (x i)
        add e (before.foldl (fun r i => (add i r).1) z)) true
      (fun o s t i x y => fpAdd (fmtOf t) (s.vecEnv o.pfx i) false x y) (fun _ _ => rfl) fun _ _ _ _ _ _ _ _ => rfl⟩

/-- Settles O23: reductions leave out nothing but inactive elements (`foldl_sum_mod`, `treeNode_eq_onTree`), and a scan carries the value
of the active elements below each (`State.scan_known`). -/
theorem vectorReductionsAndScans : Obligations.VectorReductionsAndScans := ⟨vectorReductions, vectorScans⟩

end Sys2Proof.Machine

/-! # Matrix products (R41, R171, R174, R177, R178) -/

namespace Sys2Proof.Machine

/-! ## Sums with special terms (R41) -/

theorem groupSum_nan {c : Nat} {ps : List (FVal × Flags)} (nv : Bool) (h : .nan ∈ Fmt.fp32.value c :: ps.map (·.1)) :
    (groupSum c ps nv).1 = 0x7FC00000 := by
  have found : ((Fmt.fp32.value c :: ps.map (·.1)).any fun t => t == .nan) = true := List.any_eq_true.mpr ⟨_, h, beq_self_eq_true _⟩
  simp only [groupSum, found, if_true]
  rfl

/-- Without a NaN, infinities of both signs are invalid, and those of one sign give it. -/
theorem groupSum_inf {c : Nat} {ps : List (FVal × Flags)} (nv : Bool) (number : .nan ∉ Fmt.fp32.value c :: ps.map (·.1))
    (h : .inf true ∈ Fmt.fp32.value c :: ps.map (·.1) ∨ .inf false ∈ Fmt.fp32.value c :: ps.map (·.1)) :
    groupSum c ps nv =
      let nvFlag := flag (nv || Fmt.fp32.isSNaN c) flNV ||| ps.foldl (fun f p => f ||| p.2) 0#5
      if .inf true ∈ Fmt.fp32.value c :: ps.map (·.1) ∧ .inf false ∈ Fmt.fp32.value c :: ps.map (·.1) then
        (Fmt.fp32.canonical, nvFlag ||| flNV)
      else (Fmt.fp32.signed (decide (.inf true ∈ Fmt.fp32.value c :: ps.map (·.1))) Fmt.fp32.infBits, nvFlag) := by
  have isIn (v : FVal) : ((Fmt.fp32.value c :: ps.map (·.1)).any fun t => t == v) = decide (v ∈ Fmt.fp32.value c :: ps.map (·.1)) := by
    rw [Bool.eq_iff_iff, List.any_eq_true, decide_eq_true_iff]
    exact ⟨fun ⟨t, ht, e⟩ => by rwa [← eq_of_beq e], fun h => ⟨v, h, beq_self_eq_true v⟩⟩
  simp only [groupSum, isIn, number]
  by_cases neg : .inf true ∈ Fmt.fp32.value c :: ps.map (·.1) <;> by_cases pos : .inf false ∈ Fmt.fp32.value c :: ps.map (·.1)
  · simp only [neg, pos]; rfl
  · simp only [neg, pos]; rfl
  · simp only [neg, pos]; rfl
  · simp only [neg, pos, or_self] at h

/-! ## Tiles -/

/-- What `tileFrom` is made of, as a number. -/
def tileNat (l : List Nat) : Nat := l.foldr (fun x acc => acc * 2 ^ 32 + x % 2 ^ 32) 0

theorem tileNat_shift (l : List Nat) (k : Nat) : tileNat l / 2 ^ (32 * k) % 2 ^ 32 = (l.getD k 0) % 2 ^ 32 := by
  induction l generalizing k with
  | nil => simp [tileNat]
  | cons x r ih =>
    have cons : tileNat (x :: r) = tileNat r * 2 ^ 32 + x % 2 ^ 32 := rfl
    cases k with
    | zero => rw [cons, Nat.mul_zero, Nat.pow_zero, Nat.div_one, Nat.mul_add_mod_self_right, Nat.mod_mod]; rfl
    | succ k =>
      have first : tileNat (x :: r) / 2 ^ 32 = tileNat r := by rw [cons]; omega
      rw [show 32 * (k + 1) = 32 + 32 * k by omega, Nat.pow_add, ← Nat.div_div_eq_div_mul, first, ih]
      rfl

/-- Element (i, j) of a tile made of a list, row by row. -/
theorem tileElem_tileFrom (n i j : Nat) (l : List Nat) (inside : i * n + j < 4096) :
    tileElem n (tileFrom l) i j = l.getD (i * n + j) 0 % 2 ^ 32 := by
  have wide : 131072 = 32 * (i * n + j) + (32 + (131040 - 32 * (i * n + j))) := by omega
  rw [← tileNat_shift, tileElem, fieldNat, BitVec.extractLsb'_toNat, tileFrom, BitVec.toNat_ofNat, Nat.shiftRight_eq_div_pow]
  show tileNat l % 2 ^ 131072 / 2 ^ (32 * (i * n + j)) % 2 ^ 32 = _
  rw [wide, Nat.pow_add, Nat.mod_mul_right_div_self, Nat.mod_mod_of_dvd _ (Nat.pow_dvd_pow 2 (Nat.le_add_right 32 _))]

theorem getLsbD_foldl_or (l : List (Nat × Flags)) (a : Flags) (k : Nat) :
    (l.foldl (fun a x => a ||| x.2) a).getLsbD k = true ↔ a.getLsbD k = true ∨ ∃ x ∈ l, x.2.getLsbD k = true := by
  induction l generalizing a with
  | nil => simp
  | cons x r ih => rw [List.foldl_cons, ih, BitVec.getLsbD_or]; simp [or_assoc]

/-- Where element (r, c) of a tile of m rows and n columns stands. -/
theorem tile_index {m n r c : Nat} (hr : r < m) (hc : c < n) : r * n + c < m * n ∧ (r * n + c) / n = r ∧ (r * n + c) % n = c := by
  refine ⟨?_, ?_, ?_⟩
  · calc r * n + c < r * n + n := by omega
      _ = (r + 1) * n := (Nat.succ_mul r n).symm
      _ ≤ m * n := Nat.mul_le_mul_right n hr
  · rw [Nat.mul_comm, Nat.mul_add_div (by omega), Nat.div_eq_of_lt hc, Nat.add_zero]
  · rw [Nat.mul_comm, Nat.mul_add_mod, Nat.mod_eq_of_lt hc]

/-- Every element of an updated tile is updated once. -/
theorem updateTile_elem (m n : Nat) (z : TileBits) (f : Nat → Nat → Nat → Nat × Flags) (r c : Nat) (hr : r < m) (hc : c < n)
    (fits : m * n ≤ 4096) : tileElem n (updateTile m n z f).1 r c = (f r c (tileElem n z r c)).1 % 2 ^ 32 := by
  obtain ⟨inside, row, col⟩ := tile_index hr hc
  rw [updateTile, tileElem_tileFrom n r c _ (by omega)]
  simp [List.getD_eq_getElem?_getD, inside, row, col]

theorem updateTile_flags (m n : Nat) (z : TileBits) (f : Nat → Nat → Nat → Nat × Flags) (k : Nat) :
    (updateTile m n z f).2.getLsbD k = true ↔ ∃ r c, r < m ∧ c < n ∧ (f r c (tileElem n z r c)).2.getLsbD k = true := by
  rw [updateTile, getLsbD_foldl_or]
  constructor
  · rintro (h | ⟨x, hx, h⟩)
    · simp at h
    · obtain ⟨i, hi, rfl⟩ := List.mem_map.mp hx
      have hi := List.mem_range.mp hi
      have pos : 0 < n := Nat.pos_of_mul_pos_left (by omega : 0 < m * n)
      exact ⟨i / n, i % n, Nat.div_lt_of_lt_mul (by rwa [Nat.mul_comm]), Nat.mod_lt i pos, h⟩
  · rintro ⟨r, c, hr, hc, h⟩
    obtain ⟨inside, row, col⟩ := tile_index hr hc
    exact .inr ⟨_, List.mem_map.mpr ⟨r * n + c, List.mem_range.mpr inside, rfl⟩, by rw [row, col]; exact h⟩

/-- A tile holds at most 64 × 64 elements (R171). -/
theorem State.tile_fits (s : State) : s.tileRows * s.tileCols ≤ 4096 := by
  have rows : s.tileRows ≤ 64 := by unfold State.tileRows shareRows; split <;> decide
  have cols : s.tileCols ≤ 64 := by unfold State.tileCols shareCols; split <;> decide
  exact Nat.mul_le_mul rows cols

/-- An instruction that ends by updating a tile, out of run-ahead. -/
theorem tileUpdated_of {i : Instr} {s : State} {d : BitVec 2} {n : Nat} {f : Nat → Nat → Nat → Nat × Flags} {len : Word}
    (ra : s.ra = none) (g : Nat → Nat → Nat → Nat × Flags) (same : ∀ r c x, g r c x = f r c x)
    (run : exec i s = .next ((((((s.setTile d (updateTile s.tileRows s.tileCols (s.tile d) g).1).orVstat
      (updateTile s.tileRows s.tileCols (s.tile d) g).2).countMacs n).setVstart 0)).retire len)) : TileUpdated i s d n f len := by
  obtain rfl : g = f := by funext r c x; exact same r c x
  refine ⟨_, _, run.trans ?_, fun r c hr hc => updateTile_elem _ _ _ _ r c hr hc s.tile_fits, updateTile_flags _ _ _ _⟩
  have last (t : State) (h : t.ra = none) : (t.countMacs n).setVstart 0 = (t.setVstart 0).countMacs n := by
    rw [State.countMacs, State.countMacs, show (t.setVstart 0).ra = none from h, h]
    rfl
  rw [last]
  · rfl
  · exact ra

theorem State.needShare_held (s : State) (h : s.shareCode ≠ 0#2) : s.needShare = .ok s := by
  simp [State.needShare, require, h]

theorem State.needShare_missing (s : State) (h : s.shareCode = 0#2) : s.needShare = .error (claimTrap, s) := by
  simp [State.needShare, require, h]

theorem State.tileUnknown_known (s : State) (ra : s.ra = none) (z : BitVec 2) : s.tileUnknown z = false := by
  rw [State.tileUnknown, ra]
  rfl

theorem State.latchUnknown_known (s : State) (ra : s.ra = none) (n : BitVec 1) : s.latchUnknown n = false := by
  rw [State.latchUnknown, ra]
  rfl

theorem State.gUnknown_known (s : State) (ra : s.ra = none) (i : BitVec 5) : s.gUnknown i = false := by
  rw [State.gUnknown, ra]

/-- Where nothing of a latch is still to be rebuilt, rebuilding a row does nothing (R176). -/
theorem rebuildRow_idle (n : BitVec 1) (s : State) (row : Nat) (built : s.latchPending n = false) :
    rebuildRow n (s, none) row = (s, none) := by
  unfold State.latchPending at built
  unfold rebuildRow
  cases h : pick (w := 1) s.hart.ldesc n with
  | none => simp only [h]
  | some d =>
    have idle : d.todo = 0#64 := by simpa [h] using built
    simp [h, idle]

theorem State.rebuildLatches_idle (s : State) (built0 : s.latchPending 0#1 = false) (built1 : s.latchPending 1#1 = false) :
    s.rebuildLatches = (s, none) := by
  have idle (n : BitVec 1) (built : s.latchPending n = false) (l : List Nat) : l.foldl (rebuildRow n) (s, none) = (s, none) := by
    induction l with
    | nil => rfl
    | cons row l ih => rw [List.foldl_cons, rebuildRow_idle n s row built, ih]
  rw [State.rebuildLatches, idle _ built0, idle _ built1]

/-- Settles O40: `updateTile_elem` and `updateTile_flags` say what a tile update is, `groupSum_nan` and `groupSum_inf` what special terms
give. -/
theorem matrixProducts : Obligations.MatrixProducts := by
  unfold Obligations.MatrixProducts
  intro p d a b x y m s t w ok f times row rowValue colValue k latch group
  refine ⟨fun checks share ra => ?_, fun legal share ra built0 built1 => ?_, fun legal share => ?_, fun c ps nv => ?_⟩
  · refine tileUpdated_of ra (rankElem f rowValue colValue) (fun _ _ _ => rfl) ?_
    show execZrank p d a b x y m s = _
    have known : ((List.range s.hart.vl).any fun i =>
        (i < s.tileRows && (s.activeUnknown (s.maskSel p m) (s.perPos (vreg a w)) i
          || (s.active (s.maskSel p m) (s.perPos (vreg a w)) i && s.elemUnknown (vreg a w) i)))
        || (i < s.tileCols && s.elemUnknown (vreg b w) i)) = false := by
      simp [s.activeUnknown_known ra, s.elemUnknown_known ra]
    have checked : s.vecCheck (matType t) [] [vreg a w, vreg b w] false = .ok s := checks.vecCheck
    simp only [execZrank]
    rw [checked]
    simp only [bind, Except.bind, s.needShare_held share]
    rw [known, s.tileUnknown_known ra]
    rfl
  · refine tileUpdated_of ra (blockElem f w k (s.latch 0#1) (s.latch 1#1)) (fun _ _ _ => rfl) ?_
    show execMblk p d b s = _
    have checked : (require (matType t) s.illegal s : Res) = .ok s := by
      rw [show matType t = true from legal]
      rfl
    simp only [execMblk]
    rw [checked]
    simp only [bind, Except.bind, s.needShare_held share, s.rebuildLatches_idle built0 built1, built0, built1, s.gUnknown_known ra,
      s.latchUnknown_known ra, s.tileUnknown_known ra]
    rfl
  · show execMblk p d b s = _
    have checked : (require (matType t) s.illegal s : Res) = .ok s := by
      rw [show matType t = true from legal]
      rfl
    simp only [execMblk]
    rw [checked]
    simp only [bind, Except.bind, s.needShare_missing share]
    rfl
  · intro terms
    refine ⟨groupSum_nan nv, fun number neg pos => ?_, fun number neg pos => ?_, fun number neg pos => ?_⟩
    · rw [groupSum_inf nv number (.inl neg)]
      simp only [show FVal.inf true ∈ Fmt.fp32.value c :: ps.map (·.1) from neg,
        show FVal.inf false ∈ Fmt.fp32.value c :: ps.map (·.1) from pos, and_self, if_true]
      exact ⟨rfl, by rw [BitVec.getLsbD_or]; simp [flNV]⟩
    · rw [groupSum_inf nv number (.inr pos)]
      simp only [show FVal.inf true ∉ Fmt.fp32.value c :: ps.map (·.1) from neg, false_and, if_false, decide_false]
      rfl
    · rw [groupSum_inf nv number (.inl neg)]
      simp only [show FVal.inf true ∈ Fmt.fp32.value c :: ps.map (·.1) from neg,
        show FVal.inf false ∉ Fmt.fp32.value c :: ps.map (·.1) from pos, and_false, if_false, decide_true]
      rfl

end Sys2Proof.Machine

/-! # Translations that are kept (R331 to R336) -/

namespace Sys2Proof.Machine

/-! ## What a walk sees of an address: its page -/

/-- A field of an address above its 64 KiB offset is a field of its page number. -/
theorem fieldNat_of_page (va : Word) (lo len : Nat) (above : 16 ≤ lo) (inside : lo + len ≤ 56) :
    fieldNat va lo len = pageOf va / 2 ^ (lo - 16) % 2 ^ len := by
  have low : lo = 16 + (lo - 16) := by omega
  have high : 56 = lo + (len + (56 - lo - len)) := by omega
  rw [fieldNat, BitVec.extractLsb'_toNat, Nat.shiftRight_eq_div_pow, pageOf, Nat.div_div_eq_div_mul,
    show 65536 * 2 ^ (lo - 16) = 2 ^ lo by rw [show 65536 = 2 ^ 16 from rfl, ← Nat.pow_add, ← low], high, Nat.pow_add 2 lo,
    Nat.mod_mul_right_div_self, Nat.pow_add, Nat.mod_mul_right_mod]

theorem walkPart_congr {va vb : Word} (page : pageOf vb = pageOf va) (lvl : Nat) (inside : lvl ≤ 3) :
    walkPart vb lvl = walkPart va lvl := by
  rw [walkPart, walkPart, fieldNat_of_page vb _ _ (by omega) (by omega), fieldNat_of_page va _ _ (by omega) (by omega), page]

theorem State.walkFrom_congr (s : State) (who : Option (BitVec 10)) (frm : BitVec 4) {va vb : Word} (page : pageOf vb = pageOf va)
    (left t : Nat) (seen : List (Nat × Word)) : s.walkFrom who frm vb left t seen = s.walkFrom who frm va left t seen := by
  have index (lvl : Nat) (inside : lvl ≤ 3) : fieldNat vb (46 - 10 * lvl) 10 = fieldNat va (46 - 10 * lvl) 10 := by
    rw [fieldNat_of_page vb _ _ (by omega) (by omega), fieldNat_of_page va _ _ (by omega) (by omega), page]
  have entry (lvl a : Nat) (inside : lvl ≤ 3) : s.walkEntry who frm vb lvl a = s.walkEntry who frm va lvl a := by
    simp only [State.walkEntry, State.cachedTables, walkPart_congr page lvl inside]
  induction left generalizing t seen with
  | zero =>
    unfold State.walkFrom
    simp only [index, entry, Nat.sub_le]
  | succ n ih =>
    unfold State.walkFrom
    simp only [index, entry, Nat.sub_le, ih]

/-- Two addresses of one page have one leaf entry. -/
theorem State.leaf_congr (s : State) (who : Option (BitVec 10)) (frm : BitVec 4) (ixg : Bool) {va vb : Word}
    (page : pageOf vb = pageOf va) : s.leaf who frm ixg vb = s.leaf who frm ixg va := by
  have walk : s.walk who frm vb = s.walk who frm va := by
    simp only [State.walk, State.walked, s.walkFrom_congr who frm page]
  simp only [State.leaf, State.cached, page, walk]

/-! ## A leaf that is kept -/

/-- s with other cached translations. -/
def State.caching (s : State) (tlb : List TlbEntry) (walks : List WalkEntry) : State := { s with tlb := tlb, walks := walks }

/-- What an access of this step used is what the next one finds. -/
theorem State.leaf_of_newest (t : State) (who : Option (BitVec 10)) (frm : BitVec 4) (va : Word) (e : TlbEntry)
    (newest : t.tlb.head? = some e) (space : e.space = who) (hall : e.hall = frm) (data : e.ixg = false) (page : e.page = pageOf va)
    (used : e.used = t.era) : t.leaf who frm false va = .ok e.pte := by
  obtain ⟨l, newest⟩ := List.head?_eq_some_iff.mp newest
  simp [State.leaf, State.cached, newest, space, hall, data, page, used]

/-- The leaf entry that an access used is the one that a later access of its step finds (R336). -/
theorem State.fillTlb_leaf (s : State) (who : Option (BitVec 10)) (frm : BitVec 4) (va pte : Word)
    (found : s.leaf who frm false va = .ok pte) : (s.fillTlb who frm va).leaf who frm false va = .ok pte := by
  unfold State.fillTlb
  by_cases used : ((s.cached who frm false va).any fun e => e.used == s.era) = true
  · rw [State.fillTlbBy, if_pos used]
    exact found
  · refine State.leaf_of_newest _ _ _ _ ⟨who, frm, false, pageOf va, pte, (s.fillTlbBy false who frm va).era⟩ ?_ rfl rfl rfl rfl rfl
    simp only [State.fillTlbBy, found]
    rw [if_neg used]
    rfl

/-- A translation sees the cached ones by the leaf entry that they give. -/
theorem State.caching_hartXlate (s : State) (tlb : List TlbEntry) (walks : List WalkEntry) (frm : BitVec 4) (k : Kind) (va : Word)
    (n : Nat) (leaf : (s.caching tlb walks).leaf s.who frm false va = s.leaf s.who frm false va) :
    (s.caching tlb walks).hartXlate frm k va n = s.hartXlate frm k va n := by
  simp only [State.hartXlate, State.translate, State.translateBy]
  rw [show (s.caching tlb walks).who = s.who from rfl, leaf]
  rfl

/-- Keeping the translation of one address leaves those of its page as they were. -/
theorem State.keepXlate_hartXlate (s : State) (frm : BitVec 4) (k j : Kind) {va vb : Word} (n m : Nat) (x : Xl) (data : k ≠ .fetch)
    (page : pageOf vb = pageOf va) (found : s.hartXlate frm k va n = .ok x) :
    (s.keepXlate frm va).hartXlate frm j vb m = s.hartXlate frm j vb m := by
  unfold State.keepXlate
  split
  · rfl
  · rename_i walked
    have table : s.aliasByte va = none := by
      cases h : s.aliasByte va <;> simp [h] at walked ⊢
    simp only [State.hartXlate, if_neg data, table, State.translate, State.translateBy] at found
    split at found
    · cases found
    · rename_i pte leaf
      have kept : (s.fillTlb s.who frm va).leaf s.who frm false vb = s.leaf s.who frm false vb := by
        rw [State.leaf_congr _ _ _ _ page, State.leaf_congr _ _ _ _ page, leaf]
        exact s.fillTlb_leaf _ _ _ pte leaf
      obtain ⟨tlb, walks, e⟩ := s.fillTlb_of_leaf _ _ _ pte leaf
      rw [e] at kept ⊢
      exact s.caching_hartXlate tlb walks frm j vb m kept

end Sys2Proof.Machine

/-! # What a request at its home sees of the hart: nothing

A home performs a request by what stands in the request. So performing one commutes with any change of the hart, but for what it has
posted, its store errors and its armed waits, and of the cached translations. -/

namespace Sys2Proof.Machine

/-- s with another hart, but for its armed waits, its posted requests and its store errors, and with other cached translations. -/
def State.wearing (s : State) (h : Hart) (tlb : List TlbEntry) (walks : List WalkEntry) : State :=
  { s with
    hart := { h with armed := s.hart.armed, fired := s.hart.fired, armedPa := s.hart.armedPa, posted := s.hart.posted, seq := s.hart.seq }
    tlb := tlb, walks := walks }

section
variable (s : State) (h : Hart) (tlb : List TlbEntry) (walks : List WalkEntry)

theorem foldl_wearing {α : Type} (f : State → α → State)
    (hf : ∀ (t : State) x, f (t.wearing h tlb walks) x = (f t x).wearing h tlb walks) (l : List α) :
    l.foldl f (s.wearing h tlb walks) = (l.foldl f s).wearing h tlb walks := by
  induction l generalizing s with
  | nil => rfl
  | cons x l ih => rw [List.foldl_cons, hf, ih, List.foldl_cons]

theorem ite_wearing (c : Prop) [Decidable c] (t u : State) :
    (if c then t.wearing h tlb walks else u.wearing h tlb walks) = (if c then t else u).wearing h tlb walks :=
  (apply_ite (fun t => State.wearing t h tlb walks) c t u).symm

/-! ## Writing -/

theorem State.evictLine_wearing (line : Nat) : (s.wearing h tlb walks).evictLine line = (s.evictLine line).wearing h tlb walks :=
  ite_wearing h tlb walks _ s { s with dirty := s.dirty.filter (· != line) }

theorem State.touchOne_wearing (line : Nat) : (s.wearing h tlb walks).touchOne line = (s.touchOne line).wearing h tlb walks := by
  unfold State.touchOne
  dsimp only
  rw [← ite_wearing h tlb walks]
  have dirty (n : Nat) : (({ s with dirty := natInsert line s.dirty } : State).wearing h tlb walks).evictLine n
      = (({ s with dirty := natInsert line s.dirty } : State).evictLine n).wearing h tlb walks := State.evictLine_wearing ..
  exact congrArg₂ (ite _) rfl (congrArg (fun t : State => { t with fresh := s.fresh + 1 }) (dirty _))

theorem State.touchLine_wearing (pa n : Nat) : (s.wearing h tlb walks).touchLine pa n = (s.touchLine pa n).wearing h tlb walks := by
  unfold State.touchLine
  rw [← ite_wearing h tlb walks, foldl_wearing s h tlb walks _ fun t => t.touchOne_wearing h tlb walks]

theorem State.evalLanding_wearing (k : BitVec 4) (n : Nat) (l : Landing) :
    (s.wearing h tlb walks).evalLanding k n l = (s.evalLanding k n l).wearing h tlb walks := by
  unfold State.evalLanding
  rw [← ite_wearing h tlb walks]
  rfl

theorem State.fireLandings_wearing (pa n : Nat) :
    (s.wearing h tlb walks).fireLandings pa n = (s.fireLandings pa n).wearing h tlb walks := by
  unfold State.fireLandings
  dsimp only
  rw [← ite_wearing h tlb walks, ← foldl_wearing s h tlb walks]
  · rfl
  · intro t l
    rw [← ite_wearing h tlb walks, t.evalLanding_wearing h tlb walks]

theorem State.performBytes_wearing (pa : Nat) (bs : List Byte) :
    (s.wearing h tlb walks).performBytes pa bs = (s.performBytes pa bs).wearing h tlb walks := by
  unfold State.performBytes State.afterWrite
  rw [show (s.wearing h tlb walks).putBytes pa bs = (s.putBytes pa bs).wearing h tlb walks from rfl, State.touchLine_wearing]
  exact State.fireLandings_wearing (State.fireWaits _ pa bs.length) h tlb walks pa bs.length

/-! ## Counting -/

theorem State.addTraffic_wearing (k : BitVec 4) (i n : Nat) :
    (s.wearing h tlb walks).addTraffic k i n = (s.addTraffic k i n).wearing h tlb walks := by
  unfold State.addTraffic
  rw [← ite_wearing h tlb walks]
  rfl

theorem State.dropHostLine_wearing (pa : Nat) :
    (s.wearing h tlb walks).dropHostLine pa = (s.dropHostLine pa).wearing h tlb walks := by
  have traffic (k : BitVec 4) (l : List HostLine) : (({ s with hostLines := l } : State).wearing h tlb walks).addTraffic k 9 64
      = (({ s with hostLines := l } : State).addTraffic k 9 64).wearing h tlb walks := State.addTraffic_wearing ..
  unfold State.dropHostLine
  rw [show (s.wearing h tlb walks).hostLines = s.hostLines from rfl]
  cases s.hostLines.find? fun l => l.line == pa / 64 with
  | none => rfl
  | some l =>
    dsimp only
    rw [← ite_wearing h tlb walks, ← traffic]
    rfl

theorem State.hostRoom_wearing (k : BitVec 4) : (s.wearing h tlb walks).hostRoom k = (s.hostRoom k).wearing h tlb walks := by
  have drop (pa : Nat) : (({ s with fresh := s.fresh + 1 } : State).wearing h tlb walks).dropHostLine pa
      = (({ s with fresh := s.fresh + 1 } : State).dropHostLine pa).wearing h tlb walks := State.dropHostLine_wearing ..
  unfold State.hostRoom
  rw [show (s.wearing h tlb walks).hostLines = s.hostLines from rfl, show (s.wearing h tlb walks).fresh = s.fresh from rfl]
  dsimp only
  rw [← ite_wearing h tlb walks]
  congr 1
  cases (s.hostLines.filter fun x => x.holder == k)[Config.elementRank s.fresh (s.hostLines.filter fun x => x.holder == k).length
      % (s.hostLines.filter fun x => x.holder == k).length]? with
  | none => rfl
  | some x => exact drop _

theorem State.countHost_wearing (k : BitVec 4) (pa n : Nat) (write : Bool) :
    (s.wearing h tlb walks).countHost k pa n write = (s.countHost k pa n write).wearing h tlb walks := by
  have traffic (t : State) (i : Nat) : (t.wearing h tlb walks).addTraffic k i n = (t.addTraffic k i n).wearing h tlb walks :=
    State.addTraffic_wearing ..
  unfold State.countHost
  rw [← ite_wearing h tlb walks, ← s.addTraffic_wearing h tlb walks, show (s.wearing h tlb walks).hostLines = s.hostLines from rfl,
    show (s.wearing h tlb walks).hostCached pa = s.hostCached pa from rfl]
  congr 1
  cases s.hostLines.find? fun l => l.line == pa / 64 with
  | none =>
    dsimp only
    rw [s.hostRoom_wearing h tlb walks, State.addTraffic_wearing]
    rfl
  | some l =>
    dsimp only
    rw [← ite_wearing h tlb walks]
    cases write
    · exact congrArg₂ (ite _) (traffic s _) (traffic s _)
    · have marked :=
        traffic { s with hostLines := replaceFirst (fun l => l.line == pa / 64) (fun l => { l with modified := true }) s.hostLines }
      exact congrArg₂ (ite _) (marked _) (marked _)

theorem State.count_wearing (k : BitVec 4) (pa n : Nat) (write : Bool) :
    (s.wearing h tlb walks).count k pa n write = (s.count k pa n write).wearing h tlb walks := by
  unfold State.count
  rw [← ite_wearing h tlb walks, State.countHost_wearing]
  exact congrArg _ (State.addTraffic_wearing ..)

/-! ## Logging and windows -/

theorem State.logRefusal_wearing (who : Option (BitVec 10)) (k : BitVec 4) (pa : Nat) (c : Option Nat) :
    (s.wearing h tlb walks).logRefusal who k pa c = (s.logRefusal who k pa c).wearing h tlb walks := by
  cases c <;> rfl

theorem State.logSealed_wearing (who : Option (BitVec 10)) (k : BitVec 4) (pa : Nat) :
    (s.wearing h tlb walks).logSealed who k pa = (s.logSealed who k pa).wearing h tlb walks := by
  unfold State.logSealed
  rw [← ite_wearing h tlb walks]
  rfl

theorem State.logUpdate_wearing (who : Option (BitVec 10)) (k : BitVec 4) (pa n : Nat) :
    (s.wearing h tlb walks).logUpdate who k pa n = (s.logUpdate who k pa n).wearing h tlb walks := by
  unfold State.logUpdate
  rw [show (s.wearing h tlb walks).refusal who k pa n true = s.refusal who k pa n true from rfl]
  cases s.refusal who k pa n true with
  | some c => exact s.logRefusal_wearing h tlb walks who k pa c
  | none =>
    dsimp only
    rw [← ite_wearing h tlb walks, ← s.logSealed_wearing h tlb walks]
    rfl

theorem State.dropOwnLines_wearing (k : BitVec 4) (pa n : Nat) :
    (s.wearing h tlb walks).dropOwnLines k pa n = (s.dropOwnLines k pa n).wearing h tlb walks := by
  unfold State.dropOwnLines
  dsimp only
  rw [← ite_wearing h tlb walks]
  rfl

theorem State.countUpdate_wearing (k : BitVec 4) (pa n : Nat) (atHost : Bool) :
    (s.wearing h tlb walks).countUpdate k pa n atHost = (s.countUpdate k pa n atHost).wearing h tlb walks := by
  unfold State.countUpdate
  rw [← ite_wearing h tlb walks, s.dropHostLine_wearing h tlb walks, State.addTraffic_wearing, s.count_wearing h tlb walks]

/-! ## Requests -/

/-- A result of a state, with the state as it would be. -/
def worn {α : Type} (r : State × α) : State × α := (r.1.wearing h tlb walks, r.2)

theorem State.writeHome_wearing (who : Option (BitVec 10)) (k : BitVec 4) (pa : Nat) (bs : List Byte) :
    (s.wearing h tlb walks).writeHome who k pa bs
      = ((s.writeHome who k pa bs).map (·.wearing h tlb walks)).mapError (·.wearing h tlb walks) := by
  unfold State.writeHome
  rw [show (s.wearing h tlb walks).refusal who k pa bs.length true = s.refusal who k pa bs.length true from rfl]
  cases s.refusal who k pa bs.length true with
  | some c => exact congrArg Except.error (s.logRefusal_wearing h tlb walks who k pa c)
  | none =>
    dsimp only
    rw [show (s.wearing h tlb walks).inkRefuses pa = s.inkRefuses pa from rfl]
    split
    · exact congrArg Except.error (s.logSealed_wearing h tlb walks who k pa)
    · exact congrArg Except.ok (s.performBytes_wearing h tlb walks pa bs)

theorem State.writeRuns_wearing (who : Option (BitVec 10)) (k : BitVec 4) (l : List (Nat × List Byte)) :
    (s.wearing h tlb walks).writeRuns who k l
      = ((s.writeRuns who k l).map (·.wearing h tlb walks)).mapError (·.wearing h tlb walks) := by
  induction l generalizing s with
  | nil => rfl
  | cons q l ih =>
    obtain ⟨pa, bs⟩ := q
    rw [State.writeRuns, State.writeRuns, s.writeHome_wearing h tlb walks]
    cases s.writeHome who k pa bs with
    | error t => rfl
    | ok t => exact (congrArg (fun t => State.writeRuns t who k l) (t.count_wearing h tlb walks k pa bs.length true)).trans (ih _)

theorem State.updateHome_wearing (who : Option (BitVec 10)) (k : BitVec 4) (pa n : Nat) (refused : Bool) (f : Nat → Option Nat) :
    (s.wearing h tlb walks).updateHome who k pa n refused f
      = ((s.updateHome who k pa n refused f).map fun r => (r.1, r.2.wearing h tlb walks)).mapError
          fun r => (r.1, r.2.wearing h tlb walks) := by
  unfold State.updateHome
  rw [show (s.wearing h tlb walks).updateLate who k pa n refused = s.updateLate who k pa n refused from rfl]
  cases s.updateLate who k pa n refused with
  | some e => exact congrArg (fun t => Except.error (e, t)) (s.logUpdate_wearing h tlb walks who k pa n)
  | none =>
    dsimp only
    rw [show (s.wearing h tlb walks).bytes pa n = s.bytes pa n from rfl]
    cases f (leNat (s.bytes pa n)) with
    | none => rfl
    | some x => exact congrArg (fun t => Except.ok (_, t)) (s.performBytes_wearing h tlb walks pa _)

theorem State.writeAmos_wearing (who : Option (BitVec 10)) (k : BitVec 4) (op : Nat) (t : BitVec 4) (l : List (Nat × Word)) :
    (s.wearing h tlb walks).writeAmos who k op t l = worn h tlb walks (s.writeAmos who k op t l) := by
  induction l generalizing s with
  | nil => rfl
  | cons q l ih =>
    obtain ⟨pa, x⟩ := q
    rw [State.writeAmos, State.writeAmos, s.updateHome_wearing h tlb walks]
    cases s.updateHome who k pa (typeWidth t / 8) true fun m => some (amoValue op t m x.toNat) with
    | ok r =>
      exact (congrArg (fun u => State.writeAmos u who k op t l) (r.2.countUpdate_wearing h tlb walks k pa _ true)).trans (ih _)
    | error r =>
      dsimp only [Except.map, Except.mapError]
      rw [ih]
      rfl

theorem State.depositOne_wearing (wlf : Bool) (line : Nat) (a : Nat × FVal) :
    (s.wearing h tlb walks).depositOne wlf line a = (s.depositOne wlf line a).wearing h tlb walks := by
  unfold State.depositOne State.setWellElem
  rw [← ite_wearing h tlb walks]
  exact congrArg₂ (ite _) (s.performBytes_wearing h tlb walks _ _)
    (congrArg (fun t => State.onWell t line _) (s.performBytes_wearing h tlb walks _ _))

theorem State.wellDeposit_wearing (wlf : Bool) (line : Nat) (adds : List (Nat × FVal)) :
    (s.wearing h tlb walks).wellDeposit wlf line adds = worn h tlb walks (s.wellDeposit wlf line adds) := by
  let r := s.makeResident line
  have all (t : State) := foldl_wearing t h tlb walks (fun t a => t.depositOne wlf line a)
    (fun t a => t.depositOne_wearing h tlb walks wlf line a) (r.openOrder (·.1) adds)
  show (if (r.wellLine line).pois then _ else _) = worn h tlb walks (if (r.wellLine line).pois then _ else _)
  split
  · rfl
  · exact congrArg (fun t : State => (({ t with fresh := r.fresh + 1 } : State), false)) (all r)

theorem State.wellInit_wearing (wlf : Bool) (line : Nat) (anchor : BitVec 8) :
    (s.wearing h tlb walks).wellInit wlf line anchor = (s.wellInit wlf line anchor).wearing h tlb walks := by
  unfold State.wellInit
  rw [s.performBytes_wearing h tlb walks]
  rfl

theorem State.performPosted_wearing (p : Posted) :
    (s.wearing h tlb walks).performPosted p = worn h tlb walks (s.performPosted p) := by
  unfold State.performPosted
  dsimp only
  split
  · rfl
  · cases p.payload with
    | bytes l =>
      dsimp only
      rw [s.writeRuns_wearing h tlb walks]
      cases s.writeRuns p.who p.frm (joinRuns l) with
      | ok t => exact congrArg (·, none) (t.dropOwnLines_wearing h tlb walks p.frm _ _)
      | error t => rfl
    | amo op t l =>
      have amos := State.writeAmos_wearing { s with fresh := s.fresh + 1 } h tlb walks p.who p.frm op t (s.openOrder (·.1) l)
      have lines (u : State) := u.dropOwnLines_wearing h tlb walks p.frm (p.pa / 64 * 64) 64
      exact (congrArg (fun r : State × Option Late × BitVec 64 =>
        (r.1.dropOwnLines p.frm (p.pa / 64 * 64) 64, r.2.1.map fun e => (e, r.2.2))) amos).trans (congrArg (·, _) (lines _))
    | deposit wlf line adds =>
      dsimp only
      rw [show (s.wearing h tlb walks).wellRefusal p.who p.frm line = s.wellRefusal p.who p.frm line from rfl]
      cases s.wellRefusal p.who p.frm line with
      | some c => exact congrArg (·, _) (s.logRefusal_wearing h tlb walks _ _ _ c)
      | none =>
        dsimp only
        rw [s.wellDeposit_wearing h tlb walks, worn]
        rcases s.wellDeposit wlf line adds with ⟨t, _ | _⟩
        · exact congrArg (·, none) (t.count_wearing h tlb walks p.frm _ _ true)
        · rfl
    | winit wlf line anchor =>
      dsimp only
      rw [show (s.wearing h tlb walks).wellRefusal p.who p.frm line = s.wellRefusal p.who p.frm line from rfl]
      cases s.wellRefusal p.who p.frm line with
      | some c => exact congrArg (·, _) (s.logRefusal_wearing h tlb walks _ _ _ c)
      | none =>
        dsimp only
        rw [s.wellInit_wearing h tlb walks, State.count_wearing]
        rfl

theorem State.settleList_wearing (sel : Posted → Bool) (l : List Posted) :
    (s.wearing h tlb walks).settleList sel l = worn h tlb walks (s.settleList sel l) := by
  induction l generalizing s with
  | nil => rfl
  | cons p l ih =>
    unfold State.settleList
    split
    · rw [s.performPosted_wearing h tlb walks, worn]
      rcases s.performPosted p with ⟨t, _ | ⟨e, m⟩⟩
      · exact ih t
      · dsimp only
        rw [ih t]
        rfl
    · rw [ih]
      rfl

/-- What the hart has posted ends alike, whatever else the hart holds. -/
theorem State.settle_wearing (sel : Posted → Bool) :
    (s.wearing h tlb walks).settle sel = (s.settle sel).wearing h tlb walks := by
  unfold State.settle
  rw [show (s.wearing h tlb walks).hart.posted = s.hart.posted from rfl, s.settleList_wearing h tlb walks]
  rfl

theorem State.settleAll_wearing : (s.wearing h tlb walks).settleAll = s.settleAll.wearing h tlb walks := by
  unfold State.settleAll
  rw [s.settle_wearing h tlb walks]
  rfl

theorem State.postFull_wearing : (s.wearing h tlb walks).postFull = s.postFull := by
  rw [State.postFull, s.settleAll_wearing h tlb walks]
  rfl

theorem State.post_wearing (p : Posted) : (s.wearing h tlb walks).post p = (s.post p).wearing h tlb walks := by
  unfold State.post
  dsimp only
  rw [s.settleAll_wearing h tlb walks, show (s.wearing h tlb walks).hart.posted = s.hart.posted from rfl, ite_wearing,
    State.dropOwnLines_wearing]
  rfl

theorem State.performNow_wearing (p : Posted) : (s.wearing h tlb walks).performNow p = worn h tlb walks (s.performNow p) := by
  unfold State.performNow State.settleAt
  rw [s.settle_wearing h tlb walks, State.dropOwnLines_wearing, State.performPosted_wearing, worn]
  rcases State.performPosted _ p with ⟨t, _ | ⟨e, m⟩⟩ <;> rfl

end
end Sys2Proof.Machine

/-! # What a write and its counts leave of well lines and gates -/

namespace Sys2Proof.Machine

/-- From s to t neither the headers of well lines nor what the gates see has changed. -/
def State.SameHomes (s t : State) : Prop := t.wells = s.wells ∧ t.atGates = s.atGates

theorem State.SameHomes.refl (s : State) : s.SameHomes s := ⟨rfl, rfl⟩

theorem State.SameHomes.trans {s t u : State} (h : s.SameHomes t) (k : t.SameHomes u) : s.SameHomes u :=
  ⟨k.1.trans h.1, k.2.trans h.2⟩

theorem State.SameHomes.ite {s t u : State} {c : Prop} [Decidable c] (h : s.SameHomes t) (k : s.SameHomes u) :
    s.SameHomes (if c then t else u) := by
  split <;> assumption

theorem State.foldl_sameHomes {α : Type} (f : State → α → State) (hf : ∀ (t : State) a, t.SameHomes (f t a)) (l : List α)
    (s : State) : s.SameHomes (l.foldl f s) := by
  induction l generalizing s with
  | nil => exact .refl s
  | cons a r ih => exact (hf s a).trans (ih (f s a))

theorem State.onHall_sameHomes (s : State) (h : BitVec 4) (f : Hall → Hall) (unseen : ∀ x, (f x).atGate = x.atGate) :
    s.SameHomes (s.onHall h f) := ⟨rfl, s.onHall_atGates h f unseen⟩

theorem State.evictLine_sameHomes (s : State) (line : Nat) : s.SameHomes (s.evictLine line) := .ite (.refl s) ⟨rfl, rfl⟩

theorem State.touchOne_sameHomes (s : State) (line : Nat) : s.SameHomes (s.touchOne line) :=
  .ite ⟨rfl, rfl⟩ (State.evictLine_sameHomes { s with dirty := natInsert line s.dirty } _)

theorem State.touchLine_sameHomes (s : State) (pa n : Nat) : s.SameHomes (s.touchLine pa n) :=
  .ite (State.foldl_sameHomes _ State.touchOne_sameHomes _ s) (.refl s)

theorem State.evalLanding_sameHomes (s : State) (h : BitVec 4) (n : Nat) (l : Landing) : s.SameHomes (s.evalLanding h n l) :=
  .ite (s.onHall_sameHomes h _ fun _ => rfl) (.refl s)

theorem State.fireLandings_sameHomes (s : State) (pa n : Nat) : s.SameHomes (s.fireLandings pa n) :=
  .ite (State.foldl_sameHomes _ (fun t (l : Nat × Landing) => .ite (t.evalLanding_sameHomes _ l.1 l.2) (.refl t)) _ s) (.refl s)

/-- A write sets off nothing that a gate or the header of a well line shows. -/
theorem State.performBytes_sameHomes (s : State) (pa : Nat) (bs : List Byte) : s.SameHomes (s.performBytes pa bs) := by
  have touched : s.SameHomes ((s.putBytes pa bs).touchLine pa bs.length) := State.touchLine_sameHomes (s.putBytes pa bs) pa bs.length
  have fired : s.SameHomes (((s.putBytes pa bs).touchLine pa bs.length).fireWaits pa bs.length) := touched
  exact fired.trans (State.fireLandings_sameHomes _ pa bs.length)

theorem State.addTraffic_sameHomes (s : State) (h : BitVec 4) (i n : Nat) : s.SameHomes (s.addTraffic h i n) :=
  .ite (.refl s) (s.onHall_sameHomes h _ fun _ => rfl)

theorem State.dropHostLine_sameHomes (s : State) (pa : Nat) : s.SameHomes (s.dropHostLine pa) := by
  unfold State.dropHostLine
  dsimp only
  split
  · exact .ite (State.addTraffic_sameHomes { s with hostLines := _ } _ _ _) ⟨rfl, rfl⟩
  · exact ⟨rfl, rfl⟩

theorem State.hostRoom_sameHomes (s : State) (h : BitVec 4) : s.SameHomes (s.hostRoom h) := by
  unfold State.hostRoom
  dsimp only
  split
  · exact .refl s
  · split
    · exact State.dropHostLine_sameHomes { s with fresh := s.fresh + 1 } _
    · exact .refl s

theorem State.countHost_sameHomes (s : State) (h : BitVec 4) (pa n : Nat) (write : Bool) : s.SameHomes (s.countHost h pa n write) := by
  unfold State.countHost
  split
  · exact s.addTraffic_sameHomes ..
  · split
    · cases write
      · exact .ite (s.addTraffic_sameHomes ..) (s.addTraffic_sameHomes ..)
      · exact .ite (State.addTraffic_sameHomes { s with hostLines := _ } ..) (State.addTraffic_sameHomes { s with hostLines := _ } ..)
    · exact (s.hostRoom_sameHomes h).trans ((s.hostRoom h).addTraffic_sameHomes h 8 64)

/-- Counting an access changes nothing that a gate or the header of a well line shows. -/
theorem State.count_sameHomes (s : State) (h : BitVec 4) (pa n : Nat) (write : Bool) : s.SameHomes (s.count h pa n write) :=
  .ite (s.countHost_sameHomes ..) (s.addTraffic_sameHomes ..)

theorem State.SameHomes.wellLine {s t : State} (h : s.SameHomes t) (line : Nat) : t.wellLine line = s.wellLine line := by
  rw [State.wellLine, State.wellLine, h.1]

/-! ## Bytes -/

/-- What a write leaves of memory. -/
theorem State.performBytes_read (s : State) (pa : Nat) (bs : List Byte) (wf : Memory.wf s.mem = true) (a : Nat) :
    Memory.read (s.performBytes pa bs).mem a = if pa ≤ a ∧ a < pa + bs.length then bs.getD (a - pa) 0#8 else Memory.read s.mem a := by
  rw [s.performBytes_mem, Memory.read_writeBytes bs s.mem pa a wf]

theorem State.performBytes_wf (s : State) (pa : Nat) (bs : List Byte) (wf : Memory.wf s.mem = true) :
    Memory.wf (s.performBytes pa bs).mem = true := by
  rw [s.performBytes_mem]
  exact Memory.wf_writeBytes _ _ _ wf

/-- Bytes that read alike are alike. -/
theorem State.bytes_congr {s t : State} (pa n : Nat) (same : ∀ a, pa ≤ a → a < pa + n → Memory.read t.mem a = Memory.read s.mem a) :
    t.bytes pa n = s.bytes pa n := by
  unfold State.bytes
  induction n generalizing pa with
  | zero => rfl
  | succ n ih =>
    rw [Memory.readBytes, Memory.readBytes, same pa (Nat.le_refl pa) (by omega), ih (pa + 1) fun a lo hi => same a (by omega) (by omega)]

/-! ## Headers of well lines -/

theorem State.onWell_wellLine (s : State) (line j : Nat) (f : WellLine → WellLine) :
    (s.onWell line f).wellLine j = if j = line then f (s.wellLine line) else s.wellLine j := by
  simp only [State.wellLine, State.onWell, alFind_alSet]
  split <;> rfl

theorem State.makeResident_wellLine (s : State) (line j : Nat) :
    (s.makeResident line).wellLine j = if j = line then { s.wellLine line with res := .resident } else s.wellLine j :=
  s.onWell_wellLine line j _

end Sys2Proof.Machine

/-! # Steps of a well line (R38, R39, R167 to R169, R255, R256) -/

namespace Sys2Proof.Machine

/-! ## One element -/

theorem State.setWellElem_sameHomes (s : State) (wlf : Bool) (line i x : Nat) : s.SameHomes (s.setWellElem wlf line i x) :=
  s.performBytes_sameHomes _ _

theorem State.setWellElem_wf (s : State) (wlf : Bool) (line i x : Nat) (wf : Memory.wf s.mem = true) :
    Memory.wf (s.setWellElem wlf line i x).mem = true := s.performBytes_wf _ _ wf

theorem State.setWellElem_read (s : State) (wlf : Bool) (line i x : Nat) (wf : Memory.wf s.mem = true) (a : Nat) :
    Memory.read (s.setWellElem wlf line i x).mem a =
      if wellPa wlf line i ≤ a ∧ a < wellPa wlf line i + wellSlot wlf then BitVec.ofNat 8 (x / 256 ^ (a - wellPa wlf line i))
      else Memory.read s.mem a := by
  rw [State.setWellElem, s.performBytes_read _ _ wf, leBytes_length]
  split
  · rw [leBytes_getD _ _ _ (by omega)]
  · rfl

/-! ## WINIT -/

theorem State.wellInit_read (s : State) (wlf : Bool) (line : Nat) (anchor : BitVec 8) (wf : Memory.wf s.mem = true) (a : Nat) :
    Memory.read (s.wellInit wlf line anchor).mem a = if 64 * line ≤ a ∧ a < 64 * line + 64 then 0#8 else Memory.read s.mem a := by
  show Memory.read (s.performBytes (line * 64) (List.replicate 64 0#8)).mem a = _
  rw [s.performBytes_read _ _ wf, List.length_replicate, Nat.mul_comm]
  split
  · rw [List.getD_replicate]
    omega
  · rfl

theorem State.wellInit_wellLine (s : State) (wlf : Bool) (line : Nat) (anchor : BitVec 8) :
    (s.wellInit wlf line anchor).wellLine line =
      { e := if wlf then (s.wellLine line).e else anchor, ov := false, nan := false, pois := false, wlf := wlf, res := .resident } := by
  rw [State.wellInit, State.onWell_wellLine, if_pos rfl]

/-! ## Deposits -/

theorem State.depositOne_wlf (s : State) (line : Nat) (a : Nat × FVal) :
    s.depositOne true line a = s.setWellElem true line a.1 (wlfDeposit (s.wellElem true line a.1) a.2) := rfl

theorem State.depositOne_wlx (s : State) (line : Nat) (a : Nat × FVal) :
    s.depositOne false line a =
      let x := wlxDeposit (s.wellLine line).e.toInt (toSigned 64 (s.wellElem false line a.1)) (s.wellLine line).ov
        (s.wellLine line).nan a.2
      (s.setWellElem false line a.1 (ofSigned 64 x.1)).onWell line fun w => { w with ov := x.2.1, nan := x.2.2 } := rfl

theorem State.openOrder_single {α : Type} (s : State) (key : α → Nat) (x : α) : s.openOrder key [x] = [x] := by
  simp [State.openOrder, repeats]

theorem State.wellDeposit_poisoned (s : State) (wlf : Bool) (line : Nat) (adds : List (Nat × FVal))
    (pois : (s.wellLine line).pois = true) : s.wellDeposit wlf line adds = (s.makeResident line, true) := by
  have kept : ((s.makeResident line).wellLine line).pois = true := by
    rw [s.makeResident_wellLine, if_pos rfl]
    exact pois
  simp only [State.wellDeposit, kept, if_true]

theorem State.wellDeposit_single (s : State) (wlf : Bool) (line : Nat) (add : Nat × FVal) (pois : (s.wellLine line).pois = false) :
    s.wellDeposit wlf line [add] = ({ (s.makeResident line).depositOne wlf line add with fresh := s.fresh + 1 }, false) := by
  have kept : ((s.makeResident line).wellLine line).pois = false := by
    rw [s.makeResident_wellLine, if_pos rfl]
    exact pois
  simp only [State.wellDeposit, kept, State.openOrder_single]
  rfl

/-- A deposit of one addend changes one element, and the flags of a WLX line. -/
theorem State.wellDeposit_clean (s : State) (wlf : Bool) (line slot : Nat) (v : FVal) (wf : Memory.wf s.mem = true)
    (pois : (s.wellLine line).pois = false) :
    let w := s.wellLine line
    let old := s.wellElem wlf line slot
    let x := wlxDeposit w.e.toInt (toSigned 64 old) w.ov w.nan v
    let new := if wlf then wlfDeposit old v else ofSigned 64 x.1
    ∃ t, s.wellDeposit wlf line [(slot, v)] = (t, false)
      ∧ (∀ a, Memory.read t.mem a = if wellPa wlf line slot ≤ a ∧ a < wellPa wlf line slot + wellSlot wlf then
          BitVec.ofNat 8 (new / 256 ^ (a - wellPa wlf line slot)) else Memory.read s.mem a)
      ∧ t.wellLine line = { w with res := .resident, ov := if wlf then w.ov else x.2.1, nan := if wlf then w.nan else x.2.2 } := by
  intro w old x new
  refine ⟨_, s.wellDeposit_single wlf line (slot, v) pois, ?_⟩
  let r := s.makeResident line
  have header : r.wellLine line = { w with res := .resident } := by rw [s.makeResident_wellLine, if_pos rfl]
  have kept (j : Nat) : (r.setWellElem wlf line slot j).wellLine line = { w with res := .resident } :=
    ((r.setWellElem_sameHomes wlf line slot j).wellLine line).trans header
  show (∀ a, Memory.read (r.depositOne wlf line (slot, v)).mem a = _) ∧ (r.depositOne wlf line (slot, v)).wellLine line = _
  cases wlf with
  | true =>
    rw [State.depositOne_wlf]
    exact ⟨r.setWellElem_read true line slot new wf, kept _⟩
  | false =>
    rw [State.depositOne_wlx, header]
    refine ⟨r.setWellElem_read false line slot new wf, ?_⟩
    rw [State.onWell_wellLine, if_pos rfl, kept]
    rfl

/-! ## Reading and draining -/

theorem State.wellRead_clean (s : State) (wlf : Bool) (line : Nat) (is : List Nat) (pois : (s.wellLine line).pois = false) :
    s.wellRead wlf line is = (s.makeResident line, some (is.map ((s.makeResident line).wellValue wlf line))) := by
  have kept : ((s.makeResident line).wellLine line).pois = false := by
    rw [s.makeResident_wellLine, if_pos rfl]
    exact pois
  simp only [State.wellRead, kept]
  rfl

/-- The value of an element is that of its bytes and of the header of its line. -/
theorem State.makeResident_wellValue (s : State) (wlf : Bool) (line i : Nat) :
    (s.makeResident line).wellValue wlf line i = s.wellValue wlf line i := by
  unfold State.wellValue
  rw [s.makeResident_wellLine, if_pos rfl]
  rfl

theorem State.wellValue_eq (s : State) (wlf : Bool) (line i : Nat) :
    s.wellValue wlf line i = if wlf then s.wellElem wlf line i else
      wlxRead (s.wellLine line).e.toInt (toSigned 64 (s.wellElem wlf line i)) (s.wellLine line).ov (s.wellLine line).nan := by
  unfold State.wellValue
  cases wlf
  · rw [if_neg Bool.false_ne_true, if_neg Bool.false_ne_true]
  · rw [if_pos rfl, if_pos rfl]

/-- The elements of a line become zero, one after another. -/
def State.zeroSlots (s : State) (wlf : Bool) (line : Nat) (is : List Nat) : State :=
  is.foldl (fun s i => s.setWellElem wlf line i 0) s

theorem State.zeroSlots_sameHomes (s : State) (wlf : Bool) (line : Nat) (is : List Nat) : s.SameHomes (s.zeroSlots wlf line is) :=
  State.foldl_sameHomes _ (fun t i => t.setWellElem_sameHomes wlf line i 0) is s

theorem State.zeroSlots_wf (s : State) (wlf : Bool) (line : Nat) (is : List Nat) (wf : Memory.wf s.mem = true) :
    Memory.wf (s.zeroSlots wlf line is).mem = true := by
  induction is generalizing s with
  | nil => exact wf
  | cons i l ih => exact ih _ (s.setWellElem_wf wlf line i 0 wf)

theorem State.zeroSlots_read (s : State) (wlf : Bool) (line : Nat) (is : List Nat) (wf : Memory.wf s.mem = true) (a : Nat) :
    Memory.read (s.zeroSlots wlf line is).mem a =
      if ∃ i ∈ is, wellPa wlf line i ≤ a ∧ a < wellPa wlf line i + wellSlot wlf then 0#8 else Memory.read s.mem a := by
  induction is generalizing s with
  | nil => simp [State.zeroSlots]
  | cons i l ih =>
    refine (ih _ (s.setWellElem_wf wlf line i 0 wf)).trans ?_
    rw [s.setWellElem_read wlf line i 0 wf, Nat.zero_div]
    simp only [List.exists_mem_cons_iff]
    by_cases rest : ∃ j ∈ l, wellPa wlf line j ≤ a ∧ a < wellPa wlf line j + wellSlot wlf
    · simp only [rest, or_true, if_true]
    · simp only [rest, or_false, if_false]

/-- Draining zeroes the slots, and the flags of a WLX line of which all eight were read. -/
theorem State.wellReset_eq (s : State) (wlf : Bool) (line : Nat) (is : List Nat) :
    s.wellReset wlf line is = if (!wlf && (List.range 8).all is.contains) = true then
      (s.zeroSlots wlf line is).onWell line fun w => { w with ov := false, nan := false } else s.zeroSlots wlf line is := rfl

theorem State.wellReset_mem (s : State) (wlf : Bool) (line : Nat) (is : List Nat) :
    (s.wellReset wlf line is).mem = (s.zeroSlots wlf line is).mem := by
  rw [State.wellReset_eq]
  split <;> rfl

theorem wellLineSteps : WellLineSteps := by
  intro s line anchor slot v wlf l n pa old w x new inv inside
  obtain ⟨wf, -⟩ := inv
  have place (i : Nat) : wellPa wlf line i = 64 * line + n * i := congrArg (· + _) (Nat.mul_comm line 64)
  have elem : s.wellElem wlf line slot = old := congrArg (fun a => leNat (s.bytes a n)) (place slot)
  refine ⟨⟨s.wellInit_read wlf line anchor wf, s.wellInit_wellLine wlf line anchor⟩, fun pois => ?_, fun pois => ?_, fun pois => ?_,
    fun _ => ⟨fun a => ?_, fun wlx all => ?_⟩⟩
  · obtain ⟨t, run, mem, header⟩ := s.wellDeposit_clean wlf line slot v wf pois
    rw [place, elem] at mem
    rw [elem] at header
    exact ⟨t, run, mem, by rw [header], by rw [header], by rw [header]⟩
  · exact ⟨_, s.wellDeposit_poisoned wlf line _ pois, fun _ => rfl⟩
  · refine ⟨s.makeResident line, ?_, fun _ => rfl⟩
    rw [s.wellRead_clean wlf line [slot] pois, List.map_singleton, s.makeResident_wellValue, s.wellValue_eq, elem]
  · rw [s.wellReset_mem, s.zeroSlots_read wlf line l wf]
    simp only [place]
    rfl
  · have cleared : (!wlf && (List.range 8).all l.contains) = true := by
      simp [wlx]
      exact fun i hi => all i hi
    rw [s.wellReset_eq, if_pos cleared, State.onWell_wellLine, if_pos rfl]
    exact ⟨rfl, rfl⟩

end Sys2Proof.Machine

/-! # Instructions that post: their elements, one after another (R153 to R155) -/

namespace Sys2Proof.Machine

/-! ## Reaching a place, out of run-ahead -/

theorem State.keepXlate_ra (s : State) (frm : BitVec 4) (va : Word) : (s.keepXlate frm va).ra = s.ra := by
  have e := congrArg State.ra (s.keepXlate_rest frm va)
  exact e

theorem State.reach_located (s : State) (frm : BitVec 4) (k : Kind) (va : Word) (n al : Nat) (ok : Accept) (x : Xl)
    (found : s.locate frm k va n al ok = .ok x) : s.reach frm k va n al ok = (s.keepXlate frm va, .ok (some x)) := by
  simp only [State.reach, found]

theorem State.reachWrite_located (s : State) (ra : s.ra = none) (frm : BitVec 4) (k : Kind) (va : Word) (n al : Nat) (ok : Accept)
    (x : Xl) (found : s.locate frm k va n al ok = .ok x) :
    s.reachWrite frm k va n al ok = (s.keepXlate frm va, .ok (some x)) := by
  simp only [State.reachWrite, s.reach_located frm k va n al ok x found, s.keepXlate_ra, ra]
  rfl

/-- A place that is reached was located; reaching it keeps its translation. -/
theorem State.reach_some {s u : State} {frm : BitVec 4} {k : Kind} {va : Word} {n al : Nat} {ok : Accept} {x : Xl}
    (reached : s.reach frm k va n al ok = (u, .ok (some x))) :
    s.locate frm k va n al ok = .ok x ∧ u = s.keepXlate frm va := by
  cases found : s.locate frm k va n al ok with
  | ok y =>
    rw [s.reach_located frm k va n al ok y found] at reached
    cases reached
    exact ⟨rfl, rfl⟩
  | error t =>
    simp only [State.reach, found] at reached
    split at reached <;> cases reached

theorem State.reachWrite_some {s u : State} {frm : BitVec 4} {k : Kind} {va : Word} {n al : Nat} {ok : Accept} {x : Xl}
    (reached : s.reachWrite frm k va n al ok = (u, .ok (some x))) : s.reach frm k va n al ok = (u, .ok (some x)) := by
  rcases h : s.reach frm k va n al ok with ⟨t, e | _ | y⟩ <;> simp only [State.reachWrite, h] at reached
  · cases reached
  · cases reached
  · split at reached <;> cases reached
    rfl

/-- What is reached by a data access is s with other cached translations. -/
theorem State.reach_caching {s u : State} {frm : BitVec 4} {k : Kind} {va : Word} {n al : Nat} {ok : Accept} {x : Xl}
    (data : k ≠ .fetch) (reached : s.reach frm k va n al ok = (u, .ok (some x))) : ∃ tlb walks, u = s.caching tlb walks := by
  obtain ⟨found, rfl⟩ := State.reach_some reached
  obtain ⟨-, -, xlate, -⟩ := (s.locate_eq_ok ..).mp found
  exact s.keepXlate_of_hartXlate frm k va n x data xlate

/-! ## Active elements -/

theorem State.act_known (s : State) (ra : s.ra = none) (sel : BitVec 3) (per e : Nat) :
    s.act sel per e = if s.active sel per e then .on else .off := by
  rw [State.act, s.activeUnknown_known ra]
  rfl

theorem State.act_on (s : State) (ra : s.ra = none) {sel : BitVec 3} {per e : Nat} (on : s.active sel per e = true) :
    s.act sel per e = .on := by
  rw [s.act_known ra, on]
  rfl

theorem State.act_off (s : State) (ra : s.ra = none) {sel : BitVec 3} {per e : Nat} (off : s.active sel per e = false) :
    s.act sel per e = .off := by
  rw [s.act_known ra, off]
  rfl

theorem setBit_true (m : BitVec 8) (i : Nat) : setBit m i true = m ||| 1#8 <<< i := by
  apply BitVec.eq_of_getLsbD_eq
  intro j hj
  rw [getLsbD_setBit, BitVec.getLsbD_or, BitVec.getLsbD_shiftLeft, BitVec.getLsbD_one]
  by_cases e : j = i
  · subst e
    simp [hj]
  · simp only [hj, e, decide_true, if_false, Bool.true_and]
    have : ¬(¬j < i ∧ j - i = 0) := by omega
    by_cases lt : j < i <;> simp [lt]
    omega

/-- The span positions that the model counts are those of the active elements. -/
theorem State.activeAt_eq (s : State) (ra : s.ra = none) (uncut : s.hart.cut = none) (v : VAccess) :
    s.activeAt v = activePositions s v.sel v.per := by
  rw [State.activeAt, activePositions, activeElems, List.foldl_filter, s.range_uncut uncut]
  congr 1
  funext m e
  rw [s.act_known ra]
  cases s.active v.sel v.per e <;> simp [setBit_true]

/-- The first element that is on is the first active one. -/
theorem State.find_on (s : State) (ra : s.ra = none) (uncut : s.hart.cut = none) (sel : BitVec 3) (per : Nat) :
    (s.range.find? fun e => s.act sel per e == .on) = (activeElems s sel per).head? := by
  rw [activeElems, List.head?_filter, s.range_uncut uncut]
  congr 1
  funext e
  rw [s.act_known ra]
  cases s.active sel per e <;> rfl

theorem State.firstActive_eq (s : State) (ra : s.ra = none) (uncut : s.hart.cut = none) (v : VAccess) :
    s.firstActive v = (activeElems s v.sel v.per).head? := s.find_on ra uncut v.sel v.per

/-! ## The elements -/

theorem postElems_append (v : VAccess) (mk : Nat → Xl → Except Trap Payload) (l r : List Nat) (p : PRun) :
    postElems v mk (l ++ r) p = postElems v mk r (postElems v mk l p) := by
  induction l generalizing p with
  | nil => rfl
  | cons e l ih =>
    rw [List.cons_append, postElems, postElems]
    split
    · cases r with
      | nil => rfl
      | cons f r =>
        rw [postElems, if_pos]
        assumption
    · exact ih _

theorem postElem_off (v : VAccess) (mk : Nat → Xl → Except Trap Payload) (s : State) (reqs : List Posted) (e : Nat)
    (ra : s.ra = none) (off : s.active v.sel v.per e = false) :
    postElem v mk ⟨s, reqs, none⟩ e = ⟨s, reqs, none⟩ := by
  simp only [postElem, s.act_off ra off]

theorem postElem_on (v : VAccess) (mk : Nat → Xl → Payload) (s u : State) (reqs : List Posted) (e : Nat) (va : Word) (x : Xl)
    (ra : s.ra = none) (on : s.active v.sel v.per e = true) (addr : v.addr e = some va)
    (reached : s.reachWrite (s.elemHall v.per e) v.kind va v.size v.size v.ok = (u, .ok (some x))) :
    postElem v (fun e x => .ok (mk e x)) ⟨s, reqs, none⟩ e =
      ⟨u, joinPosted reqs { requestTo u va x.pa v.size (mk e x) with frm := u.elemHall v.per e }, none⟩ := by
  have line : setField va 0 0#6 = va &&& ~~~0x3F#64 := by simp [setField]
  simp only [postElem, s.act_on ra on, addr, reached, line]
  rfl

theorem postElem_trap (v : VAccess) (mk : Nat → Xl → Except Trap Payload) (s u : State) (reqs : List Posted) (e : Nat) (va : Word)
    (t : Trap) (ra : s.ra = none) (on : s.active v.sel v.per e = true) (addr : v.addr e = some va)
    (failed : s.reachWrite (s.elemHall v.per e) v.kind va v.size v.size v.ok = (u, .error t)) :
    postElem v mk ⟨s, reqs, none⟩ e = ⟨u, reqs, some (e, t)⟩ := by
  simp only [postElem, s.act_on ra on, addr, failed]

/-- The elements that the vocabulary posts are those that the model posts. -/
theorem postElems_of_posted (v : VAccess) (mk : Nat → Xl → Payload) (addr : Nat → Word) (l : List Nat) (p q : State × List Posted)
    (data : v.kind ≠ .fetch) (ra : p.1.ra = none)
    (known : ∀ e ∈ l, p.1.active v.sel v.per e = true → v.addr e = some (addr e))
    (posted : ElementsPosted v.sel v.per v.size v.kind v.ok addr mk l p q) :
    postElems v (fun e x => .ok (mk e x)) l ⟨p.1, p.2, none⟩ = ⟨q.1, q.2, none⟩ ∧ ∃ tlb walks, q.1 = p.1.caching tlb walks := by
  induction l generalizing p with
  | nil =>
    rw [ElementsPosted] at posted
    subst posted
    exact ⟨rfl, _, _, rfl⟩
  | cons e l ih =>
    rw [ElementsPosted] at posted
    rw [postElems, if_neg (by simp)]
    cases active : p.1.active v.sel v.per e with
    | false =>
      rw [active, if_neg Bool.false_ne_true] at posted
      rw [postElem_off v _ p.1 p.2 e ra active]
      exact ih p ra (fun f hf => known f (List.mem_cons_of_mem e hf)) posted
    | true =>
      rw [active, if_pos rfl] at posted
      obtain ⟨u, x, reached, rest⟩ := posted
      obtain ⟨tlb, walks, rfl⟩ := State.reach_caching data (State.reachWrite_some reached)
      rw [postElem_on v mk p.1 _ p.2 e (addr e) x ra active (known e List.mem_cons_self active) reached]
      obtain ⟨run, tlb', walks', rfl'⟩ := ih (p.1.caching tlb walks, _) ra (fun f hf => known f (List.mem_cons_of_mem e hf)) rest
      exact ⟨run, tlb', walks', rfl'⟩

/-! ## The requests leave -/

theorem State.issueReqs_blocking (s : State) (l : List Posted) : s.issueReqs 0#3 l = (l.foldl State.post s, 0#4) := rfl

/-- The effect of an instruction that posts and whose elements all pass. -/
theorem State.vpost_posted (s u : State) (v : VAccess) (mk : Nat → Xl → Payload) (addr : Nat → Word) (k : BitVec 3) (l : List Posted)
    (p : Option Pfx) (data : v.kind ≠ .fetch) (ra : s.ra = none) (uncut : s.hart.cut = none)
    (known : ∀ e ∈ upTo s.hart.vstart s.hart.vl, s.active v.sel v.per e = true → v.addr e = some (addr e))
    (posted : ElementsPosted v.sel v.per v.size v.kind v.ok addr mk (upTo s.hart.vstart s.hart.vl) (s, []) (u, l)) :
    finishMem p (s.vpost v (fun e x => .ok (mk e x)) k)
      = .next (vectorEnded s (u.issueReqs k l).1 v.sel v.per k (u.issueReqs k l).2 (pfxLen p)) := by
  obtain ⟨run, -⟩ := postElems_of_posted v mk addr _ (s, []) (u, l) data ra known posted
  simp only [State.vpost, s.range_uncut uncut, s.activeAt_eq ra uncut, run]
  rfl

theorem upTo_split {a e b : Nat} (lo : a ≤ e) (hi : e < b) : upTo a b = upTo a e ++ e :: upTo (e + 1) b := by
  obtain ⟨d, rfl⟩ := Nat.exists_eq_add_of_le lo
  obtain ⟨c, rfl⟩ := Nat.exists_eq_add_of_le hi
  have len : a + d + 1 + c - a = d + (1 + c) := by omega
  simp only [upTo, len, List.range_add, List.map_append, List.map_map]
  simp [Function.comp_def, Nat.add_comm]
  omega

theorem postElems_trapped (v : VAccess) (mk : Nat → Xl → Except Trap Payload) (l : List Nat) (s : State) (reqs : List Posted)
    (x : Nat × Trap) : postElems v mk l ⟨s, reqs, some x⟩ = ⟨s, reqs, some x⟩ := by
  cases l <;> rfl

/-- The effect of one of which element e does not pass: the requests of those below it leave. -/
theorem State.vpost_trap (s u w : State) (v : VAccess) (mk : Nat → Xl → Payload) (addr : Nat → Word) (k : BitVec 3) (l : List Posted)
    (e : Nat) (t : Trap) (data : v.kind ≠ .fetch) (ra : s.ra = none) (uncut : s.hart.cut = none)
    (known : ∀ e, v.addr e = some (addr e)) (lo : s.hart.vstart ≤ e) (hi : e < s.hart.vl)
    (posted : ElementsPosted v.sel v.per v.size v.kind v.ok addr mk (upTo s.hart.vstart e) (s, []) (u, l))
    (on : u.active v.sel v.per e = true)
    (failed : u.reachWrite (u.elemHall v.per e) v.kind (addr e) v.size v.size v.ok = (w, .error t)) :
    s.vpost v (fun e x => .ok (mk e x)) k
      = .error (t, ((w.issueReqs k l).1.noteStatus k (w.issueReqs k l).2).setVstart e) := by
  obtain ⟨run, tlb, walks, caching⟩ := postElems_of_posted v mk addr _ (s, []) (u, l) data ra (fun e _ _ => known e) posted
  have ura : u.ra = none := (congrArg State.ra caching).trans ra
  have all : postElems v (fun e x => .ok (mk e x)) (upTo s.hart.vstart s.hart.vl) ⟨s, [], none⟩ = ⟨w, l, some (e, t)⟩ := by
    rw [upTo_split lo hi, postElems_append, run, postElems, if_neg (by simp), postElem_trap v _ u w l e _ t ura on (known e) failed,
      postElems_trapped]
  simp only [State.vpost, s.range_uncut uncut, all]
  rfl

/-! ## Waiting at issue -/

/-- The first active element, where its address is known, is issued when it is located. -/
theorem State.firstIssues_iff (s : State) (v : VAccess) (addr : Nat → Word) (ra : s.ra = none) (uncut : s.hart.cut = none)
    (known : ∀ e, v.addr e = some (addr e)) :
    (s.firstActive v).any (s.elemIssues v) = true ↔ FirstIssues s v.sel v.per v.size v.kind v.ok addr := by
  rw [s.firstActive_eq ra uncut, Option.any_eq_true, FirstIssues]
  refine exists_congr fun e => ?_
  simp only [State.elemIssues, known, exists_and_left]
  refine and_congr_right fun _ => ?_
  cases s.locate (s.elemHall v.per e) v.kind (addr e) v.size v.size v.ok <;> simp [Except.isOk, Except.toBool]

theorem State.issueWaits_iff (s : State) (k : BitVec 3) (v : VAccess) (addr : Nat → Word) (ra : s.ra = none)
    (uncut : s.hart.cut = none) (known : ∀ e, v.addr e = some (addr e)) :
    s.issueWaits k true v (s.firstActive v) = true ↔
      (s.counterFull k = true ∨ k = 0#3 ∧ s.postFull = true) ∧ FirstIssues s v.sel v.per v.size v.kind v.ok addr := by
  rw [← s.firstIssues_iff v addr ra uncut known, State.issueWaits, ra]
  simp

/-- An instruction neither of whose counters is full nor, where it posts, its store queue does not wait. -/
theorem State.issueWaits_false (s : State) (k : BitVec 3) (posts : Bool) (v : VAccess) (first : Option Nat)
    (counter : s.counterFull k = false) (room : posts = true → k = 0#3 → s.postFull = false) :
    s.issueWaits k posts v first = false := by
  have held : (posts && k == 0#3 && s.postFull) = false := by
    cases posts
    · rfl
    · by_cases blocking : k = 0#3
      · simp [room rfl blocking]
      · simp [blocking]
  rw [State.issueWaits, counter, held, Bool.or_self, Bool.and_false, Bool.false_and]

/-- An instruction that posts by itself: how it waits, completes and traps. -/
theorem posts_of_issue {i : Instr} {p : Option Pfx} {s : State} {k : BitVec 3} (v : VAccess) {addr : Nat → Word}
    {mk : Nat → Xl → Payload} (data : v.kind ≠ .fetch) (ra : s.ra = none) (uncut : s.hart.cut = none)
    (known : ∀ e, v.addr e = some (addr e))
    (run : exec i s = if s.issueWaits k true v (s.firstActive v) then .next s
      else finishMem p (s.vpost v (fun e x => .ok (mk e x)) k)) :
    Posts i p s v.sel v.per v.size v.kind v.ok k addr mk := by
  refine ⟨fun proceeds => ?_, fun waits => ?_⟩
  · rw [if_neg (mt (s.issueWaits_iff k v addr ra uncut known).mp proceeds)] at run
    refine ⟨fun u l posted => ?_, fun e u l w t lo hi posted on failed => ?_⟩
    · have ended := run.trans (s.vpost_posted u v mk addr k l p data ra uncut (fun e _ _ => known e) posted)
      refine ⟨fun blocking => ?_, fun _ => ended⟩
      subst blocking
      exact ended
    · rw [run, s.vpost_trap u w v mk addr k l e t data ra uncut known lo hi posted on failed]
      rfl
  · rw [run, if_pos ((s.issueWaits_iff k v addr ra uncut known).mpr waits)]

end Sys2Proof.Machine

/-! # What the well instructions post (R167, R168) -/

namespace Sys2Proof.Machine

/-! ## Addresses of one page -/

/-- t is s but for cached translations, and the addresses of a page translate as in s. -/
def State.SamePage (s t : State) (frm : BitVec 4) (page : Nat) : Prop :=
  (∃ tlb walks, t = s.caching tlb walks) ∧
    ∀ (k : Kind) (va : Word) (n : Nat), pageOf va = page → t.hartXlate frm k va n = s.hartXlate frm k va n

theorem State.SamePage.refl (s : State) (frm : BitVec 4) (page : Nat) : s.SamePage s frm page :=
  ⟨⟨s.tlb, s.walks, rfl⟩, fun _ _ _ _ => rfl⟩

/-- Keeping a translation of the page leaves the others of the page as they were. -/
theorem State.SamePage.keepXlate {s t : State} {frm : BitVec 4} {page : Nat} (h : s.SamePage t frm page) {k : Kind} {va : Word} {n : Nat}
    {x : Xl} (data : k ≠ .fetch) (here : pageOf va = page) (found : s.hartXlate frm k va n = .ok x) :
    s.SamePage (t.keepXlate frm va) frm page := by
  obtain ⟨⟨tlb, walks, rfl⟩, same⟩ := h
  have found' := (same k va n here).trans found
  obtain ⟨tlb', walks', caching⟩ := State.keepXlate_of_hartXlate _ frm k va n x data found'
  refine ⟨⟨tlb', walks', caching⟩, fun j vb m there => ?_⟩
  rw [State.keepXlate_hartXlate _ frm k j n m x data (there.trans here.symm) found', same j vb m there]

/-- An element of n bytes lies at x in a page, through the hart's own hall, in a class that the instruction takes. -/
structure State.LiesAt (s : State) (per page n : Nat) (kind : Kind) (ok : Accept) (e : Nat) (va : Word) (x : Xl) : Prop where
  canon : canonical va = true
  aligned : va.toNat % n = 0
  found : s.hartXlate s.myHall kind va n = .ok x
  cls : ok x.cls = true
  own : s.elemHall per e = s.myHall
  here : pageOf va = page

/-- Elements of one page are all posted, the requests of one line joined. -/
theorem elementsPosted_of_page (s : State) (ra : s.ra = none) (sel : BitVec 3) (per page n : Nat) (kind : Kind) (data : kind ≠ .fetch)
    (ok : Accept) (addr : Nat → Word) (mk : Nat → Xl → Payload) (x : Nat → Xl) (l : List Nat)
    (lies : ∀ e ∈ l, s.active sel per e = true → s.LiesAt per page n kind ok e (addr e) (x e)) (t : State) (reqs : List Posted)
    (same : s.SamePage t s.myHall page) :
    ∃ u, s.SamePage u s.myHall page ∧ ElementsPosted sel per n kind ok addr mk l (t, reqs)
      (u, (l.filter fun e => s.active sel per e).foldl
        (fun l e => joinPosted l (requestTo s (addr e) (x e).pa n (mk e (x e)))) reqs) := by
  induction l generalizing t reqs with
  | nil => exact ⟨t, same, rfl⟩
  | cons e l ih =>
    have rest := fun f hf => lies f (List.mem_cons_of_mem e hf)
    have active : t.active sel per e = s.active sel per e := by
      obtain ⟨⟨tlb, walks, rfl⟩, -⟩ := same
      rfl
    simp only [ElementsPosted, active, List.filter_cons]
    cases on : s.active sel per e with
    | false => exact ih rest t reqs same
    | true =>
      have at_e := lies e List.mem_cons_self on
      have kept := same.keepXlate data at_e.here at_e.found
      obtain ⟨⟨tlb, walks, caching⟩, xlate⟩ := same
      have own : t.elemHall per e = s.myHall := by rw [caching]; exact at_e.own
      have located : t.locate s.myHall kind (addr e) n n ok = .ok (x e) :=
        (t.locate_eq_ok ..).mpr ⟨at_e.canon, at_e.aligned, (xlate kind _ n at_e.here).trans at_e.found, at_e.cls⟩
      have reached := t.reachWrite_located (by rw [caching]; exact ra) s.myHall kind (addr e) n n ok (x e) located
      obtain ⟨u, page', posted⟩ := ih rest (t.keepXlate s.myHall (addr e))
        (joinPosted reqs (requestTo s (addr e) (x e).pa n (mk e (x e)))) kept
      have request : ({ requestTo (t.keepXlate s.myHall (addr e)) (addr e) (x e).pa n (mk e (x e)) with
          frm := (t.keepXlate s.myHall (addr e)).elemHall per e } : Posted) = requestTo s (addr e) (x e).pa n (mk e (x e)) := by
        obtain ⟨⟨tlb', walks', caching'⟩, -⟩ := kept
        rw [caching', show (s.caching tlb' walks').elemHall per e = s.myHall from at_e.own]
        rfl
      refine ⟨u, page', t.keepXlate s.myHall (addr e), x e, ?_, ?_⟩
      · rw [own]
        exact reached
      · exact (congrArg (fun r => ElementsPosted sel per n kind ok addr mk l
          (t.keepXlate s.myHall (addr e), joinPosted reqs r) (u, _)) request).mpr posted

/-! ## Requests that leave -/

theorem joinPosted_length (l : List Posted) (p : Posted) : (joinPosted l p).length ≤ l.length + 1 := by
  unfold joinPosted
  split <;> simp

theorem Joined_length (s : State) (n : Nat) (els : List Nat) (addr : Nat → Word) (x : Nat → Xl) (mk : Nat → Xl → Payload) :
    (Joined s n els addr x mk).length ≤ els.length := by
  have grows (l : List Nat) (reqs : List Posted) :
      (l.foldl (fun l e => joinPosted l (requestTo s (addr e) (x e).pa n (mk e (x e)))) reqs).length ≤ reqs.length + l.length := by
    induction l generalizing reqs with
    | nil => exact Nat.le_refl _
    | cons e l ih =>
      have step := joinPosted_length reqs (requestTo s (addr e) (x e).pa n (mk e (x e)))
      have rest := ih (joinPosted reqs (requestTo s (addr e) (x e).pa n (mk e (x e))))
      simp only [List.foldl_cons, List.length_cons]
      omega
  simpa [Joined] using grows els []

/-- While there is room for all, posting adds the requests and leaves memory as it is (R89). -/
theorem State.posts_room (s : State) (l : List Posted) (room : s.hart.posted.length + l.length ≤ 256) :
    (l.foldl State.post s).hart.posted = s.hart.posted ++ l ∧ (l.foldl State.post s).mem = s.mem := by
  induction l generalizing s with
  | nil => exact ⟨(List.append_nil _).symm, rfl⟩
  | cons p l ih =>
    rw [List.length_cons] at room
    have one : s.post p = (s.dropOwnLines p.frm (p.pa / 64 * 64) 64).onHart fun h => { h with posted := h.posted ++ [p] } := by
      rw [State.post, if_neg (by omega)]
    obtain ⟨halls, dropped⟩ := s.dropOwnLines_eq p.frm (p.pa / 64 * 64) 64
    have posted : (s.post p).hart.posted = s.hart.posted ++ [p] := by rw [one, dropped]; rfl
    have mem : (s.post p).mem = s.mem := by rw [one, dropped]; rfl
    obtain ⟨all, same⟩ := ih (s.post p) (by rw [posted, List.length_append, List.length_singleton]; omega)
    exact ⟨by rw [List.foldl_cons, all, posted, List.append_assoc, List.singleton_append], same.trans mem⟩

theorem State.issueReqs_wearing (s : State) (h : Hart) (tlb : List TlbEntry) (walks : List WalkEntry) (k : BitVec 3) (l : List Posted) :
    (s.wearing h tlb walks).issueReqs k l = worn h tlb walks (s.issueReqs k l) := by
  unfold State.issueReqs
  split
  · exact congrArg (·, _) (foldl_wearing s h tlb walks State.post (fun t p => t.post_wearing h tlb walks p) l)
  · have all (r : State × BitVec 4) : l.foldl (fun r p => let (t, st) := r.1.performNow p; (t, firstStatus r.2 st)) (worn h tlb walks r)
        = worn h tlb walks (l.foldl (fun r p => let (t, st) := r.1.performNow p; (t, firstStatus r.2 st)) r) := by
      induction l generalizing r with
      | nil => rfl
      | cons p l ih =>
        rw [List.foldl_cons, List.foldl_cons, ← ih]
        dsimp only [worn]
        rw [r.1.performNow_wearing h tlb walks]
        rfl
    exact all (s, 0#4)

/-- Requests that leave change of the hart only what awaits them. -/
theorem State.issueReqs_hart (s : State) (k : BitVec 3) (l : List Posted) :
    (s.issueReqs k l).1 = (s.issueReqs k l).1.wearing s.hart s.tlb s.walks :=
  congrArg Prod.fst (s.issueReqs_wearing s.hart s.tlb s.walks k l)

/-- Counting an operation changes of the hart its counters and what it has in flight. -/
theorem State.issueVec_hart (s : State) (k : BitVec 3) (st : BitVec 4) (at' : BitVec 8) :
    ∃ c ops, (s.issueVec k st at').hart = { s.hart with k := c, vops := ops } := by
  unfold State.issueVec State.countUp
  split
  · exact ⟨_, _, rfl⟩
  · split <;> exact ⟨_, _, rfl⟩

theorem State.issueVec_mem (s : State) (k : BitVec 3) (st : BitVec 4) (at' : BitVec 8) : (s.issueVec k st at').mem = s.mem := by
  unfold State.issueVec State.countUp
  split
  · rfl
  · split <;> rfl

/-- An instruction that has ended has changed, of the registers, its counter, VSTART and the PC. -/
theorem vectorEnded_hart (s u : State) (sel : BitVec 3) (per : Nat) (k : BitVec 3) (st : BitVec 4) (len : Word) :
    ∃ c ops, (vectorEnded s u sel per k st len).hart
      = { u.hart with k := c, vops := ops, vstart := 0, pc := u.hart.pc + len, transfer := false } := by
  obtain ⟨c, ops, e⟩ := u.issueVec_hart k st (activePositions s sel per)
  refine ⟨c, ops, ?_⟩
  rw [vectorEnded, State.retire_hart, State.setVstart, e]

theorem vectorEnded_mem (s u : State) (sel : BitVec 3) (per : Nat) (k : BitVec 3) (st : BitVec 4) (len : Word) :
    (vectorEnded s u sel per k st len).mem = u.mem := by
  rw [vectorEnded, State.retire_mem]
  exact u.issueVec_mem ..

/-- One that has posted the requests l from a state that differs from s by cached translations. -/
theorem posted_done {s u : State} (p : Option Pfx) (sel : BitVec 3) (per : Nat) (k : BitVec 3) (l : List Posted)
    (caching : ∃ tlb walks, u = s.caching tlb walks) (idle : s.hart.posted = []) :
    let t := vectorEnded s (u.issueReqs k l).1 sel per k (u.issueReqs k l).2 (pfxLen p)
    VectorDone s t p ∧ t.hart.v = s.hart.v ∧ (k = 0#3 → l.length ≤ 256 → t.hart.posted = l ∧ SameMem s t) := by
  obtain ⟨tlb, walks, rfl⟩ := caching
  intro t
  obtain ⟨c, ops, hart⟩ := vectorEnded_hart s ((s.caching tlb walks).issueReqs k l).1 sel per k
    ((s.caching tlb walks).issueReqs k l).2 (pfxLen p)
  have regs := (s.caching tlb walks).issueReqs_hart k l
  have hart : t.hart = _ := hart
  refine ⟨⟨?_, ?_, fun j => ?_⟩, ?_, fun blocking room => ?_⟩
  · rw [hart, regs]; rfl
  · rw [hart]
  · rw [State.g, State.g, hart, regs]; rfl
  · rw [hart, regs]; rfl
  · subst blocking
    obtain ⟨posted, mem⟩ := (s.caching tlb walks).posts_room l (by simpa [State.caching, idle] using room)
    refine ⟨?_, fun a => ?_⟩
    · rw [hart]
      exact posted.trans (congrArg (· ++ l) idle)
    · rw [show t.mem = _ from vectorEnded_mem .., State.issueReqs_blocking, mem]
      rfl

end Sys2Proof.Machine

/-! # WINIT, WDEP and WDEPX (R167, R168) -/

namespace Sys2Proof.Machine

/-! ## The base -/

theorem slotBytes_eq (cls : Option Class) : wellSlot (cls == some .wlf) = slotBytes cls := by
  unfold wellSlot slotBytes
  by_cases h : cls = some .wlf <;> simp [h]

/-- No element is active, or the base has been reached in a page of wells. -/
theorem baseChecked_cases {s u : State} {kind : Kind} {a : BitVec 5} {sel : BitVec 3} {per : Nat} {cls : Option Class}
    (base : baseChecked s kind a sel per u cls) :
    (activeElems s sel per = [] ∧ u = s ∧ cls = none)
    ∨ (activeElems s sel per ≠ [] ∧ ∃ x, s.reach s.myHall kind (s.g a) 1 1 wellClasses = (u, .ok (some x)) ∧ cls = some x.cls) := by
  unfold baseChecked at base
  have any : ((upTo s.hart.vstart s.hart.vl).any fun e => s.active sel per e) = true ↔ activeElems s sel per ≠ [] := by
    simp [activeElems, List.filter_eq_nil_iff]
  split at base
  · exact .inr ⟨any.mp ‹_›, base⟩
  · exact .inl ⟨not_not.mp (mt any.mpr ‹_›), base.1, base.2⟩

theorem baseChecked_caching {s u : State} {kind : Kind} {a : BitVec 5} {sel : BitVec 3} {per : Nat} {cls : Option Class}
    (data : kind ≠ .fetch) (base : baseChecked s kind a sel per u cls) : ∃ tlb walks, u = s.caching tlb walks := by
  rcases baseChecked_cases base with ⟨-, rfl, -⟩ | ⟨-, x, reached, -⟩
  · exact ⟨_, _, rfl⟩
  · exact State.reach_caching data reached

/-- What the base decides. -/
theorem State.wellBase_checked {s u : State} {kind : Kind} {a : BitVec 5} {p : Option Pfx} {m : BitVec 3} {o : VOpd}
    {cls : Option Class} (ra : s.ra = none) (uncut : s.hart.cut = none)
    (base : baseChecked s kind a (s.maskSel p m) (s.perPos o) u cls) : s.wellBase kind a (s.firstOf p m o) = .ok (u, cls) := by
  have first : s.firstOf p m o = (activeElems s (s.maskSel p m) (s.perPos o)).head? := s.find_on ra uncut _ _
  rcases baseChecked_cases base with ⟨none, rfl, rfl⟩ | ⟨some, x, reached, rfl⟩
  · rw [first, none]
    rfl
  · obtain ⟨e, l, els⟩ := List.exists_cons_of_ne_nil some
    rw [first, els, List.head?_cons, State.wellBase, s.gUnknown_known ra, reached]
    rfl

/-- An address that steps from a base, out of run-ahead. -/
theorem State.stepAddr_known (s : State) (ra : s.ra = none) (a : BitVec 5) (step : Nat → Word) (unk : Nat → Bool)
    (known : ∀ e, unk e = false) (e : Nat) : s.stepAddr a step unk e = some (s.g a + step e) := by
  rw [State.stepAddr, s.gUnknown_known ra, known, Bool.or_self, if_neg Bool.false_ne_true]

/-- The address of an active element: the base has a class. -/
theorem State.wellAccess_addr {s u : State} {kind : Kind} {a : BitVec 5} {p : Option Pfx} {m : BitVec 3} {o : VOpd}
    {cls : Option Class} (base : baseChecked s kind a (s.maskSel p m) (s.perPos o) u cls) (w : State) (addr : Nat → Nat → Option Word)
    (e : Nat) (he : e ∈ activeElems s (s.maskSel p m) (s.perPos o)) :
    (w.wellAccess p m o kind cls addr).addr e = addr (slotBytes cls) e := by
  rw [State.wellAccess, slotBytes_eq]
  rcases baseChecked_cases base with ⟨none, -, -⟩ | ⟨-, x, -, rfl⟩
  · rw [none] at he
    cases he
  · rfl

/-! ## Deposits -/

/-- The request of element e of a deposit in slots of n bytes: its exact value. -/
def depositRequest (s : State) (p : Option Pfx) (d : BitVec 5) (n e : Nat) (x : Xl) : Payload :=
  .deposit (x.cls == .wlf) (x.pa / 64)
    [(x.pa % 64 / n, (fmtOf (s.vtype p)).value (s.elem (vreg d (typeWidth (s.vtype p))) e))]

/-- A deposit whose checks and base pass and whose elements are all posted. -/
theorem wellDepositOp_posted {s u : State} {p : Option Pfx} {d a : BitVec 5} {m k : BitVec 3} {srcs : List VOpd}
    {step : Nat → Nat → Word} {unk : Nat → Bool} {cls : Option Class} {v : State} {l : List Posted}
    (checks : VecOk s (arithFloat (s.vtype p)) [] (vreg d (typeWidth (s.vtype p)) :: srcs) false) (ra : s.ra = none)
    (known : ∀ e, unk e = false) (counter : s.counterFull k = false) (room : k = 0#3 → s.postFull = false)
    (base : baseChecked s .store a (s.maskSel p m) (s.perPos (vreg d (typeWidth (s.vtype p)))) u cls)
    (posted : ElementsPosted (s.maskSel p m) (u.perPos (vreg d (typeWidth (s.vtype p)))) (slotBytes cls) .store (fun x => some x == cls)
      (fun e => s.g a + step (slotBytes cls) e) (depositRequest s p d (slotBytes cls)) (upTo s.hart.vstart s.hart.vl) (u, []) (v, l)) :
    wellDepositOp p d a m k srcs step unk s = .next (vectorEnded s (v.issueReqs k l).1 (s.maskSel p m)
      (s.perPos (vreg d (typeWidth (s.vtype p)))) k (v.issueReqs k l).2 (pfxLen p)) := by
  let o := vreg d (typeWidth (s.vtype p))
  have uncut : s.hart.cut = none := checks.2.2.2
  obtain ⟨tlb, walks, rfl⟩ := baseChecked_caching (by decide) base
  let acc := (s.caching tlb walks).wellAccess p m o .store cls fun slot => (s.caching tlb walks).stepAddr a (step slot) unk
  have waits : (s.caching tlb walks).issueWaits k true acc ((s.caching tlb walks).firstActive acc) = false :=
    State.issueWaits_false _ k true acc _ counter fun _ blocking => (s.postFull_wearing s.hart tlb walks).trans (room blocking)
  have addrs : ∀ e ∈ upTo s.hart.vstart s.hart.vl, s.active (s.maskSel p m) (s.perPos o) e = true →
      acc.addr e = some (s.g a + step (slotBytes cls) e) := fun e he on =>
    (State.wellAccess_addr base _ _ e (List.mem_filter.mpr ⟨he, on⟩)).trans (State.stepAddr_known _ ra a _ unk known e)
  have size : acc.size = slotBytes cls := slotBytes_eq cls
  have ended := State.vpost_posted (s.caching tlb walks) v acc (depositRequest s p d acc.size)
    (fun e => s.g a + step (slotBytes cls) e) k l p (show Kind.store ≠ .fetch by decide) ra uncut addrs (by rw [size]; exact posted)
  simp only [wellDepositOp]
  rw [checks.vecCheck]
  simp only [bind, Except.bind, s.wellBase_checked ra uncut base, issueOp]
  exact (if_neg (Bool.eq_false_iff.mp waits)).trans ended

/-! ## Elements in one page of wells -/

theorem mem_activeElems {s : State} {sel : BitVec 3} {per e : Nat} (he : e ∈ upTo s.hart.vstart s.hart.vl)
    (on : s.active sel per e = true) : e ∈ activeElems s sel per := List.mem_filter.mpr ⟨he, on⟩

/-- The base passes where the elements lie. -/
theorem WellsLie.base {s : State} {sel : BitVec 3} {per n : Nat} {kind : Kind} {a : BitVec 5} {cls : Class} {addr : Nat → Word}
    {x : Nat → Xl} {write : Bool} (lie : WellsLie s (activeElems s sel per) per kind (s.g a) n cls addr x write)
    (data : kind ≠ .fetch) :
    ∃ u c, baseChecked s kind a sel per u c ∧ s.SamePage u s.myHall (pageOf (s.g a))
      ∧ (activeElems s sel per ≠ [] → c = some cls) := by
  obtain ⟨wells, -, base⟩ := lie
  by_cases any : ((upTo s.hart.vstart s.hart.vl).any fun e => s.active sel per e) = true
  · have some_active : activeElems s sel per ≠ [] := by simpa [activeElems, List.filter_eq_nil_iff] using any
    obtain ⟨canon, b, found, rfl⟩ := base some_active
    have located : s.locate s.myHall kind (s.g a) 1 1 wellClasses = .ok b :=
      (s.locate_eq_ok ..).mpr ⟨canon, Nat.mod_one _, found, wells⟩
    refine ⟨s.keepXlate s.myHall (s.g a), some b.cls, ?_, (State.SamePage.refl s _ _).keepXlate data rfl found, fun _ => rfl⟩
    rw [baseChecked, if_pos any]
    exact ⟨b, s.reach_located _ _ _ _ _ _ b located, rfl⟩
  · refine ⟨s, none, ?_, .refl s _ _, fun some_active => absurd ?_ any⟩
    · rw [baseChecked, if_neg any]
      exact ⟨rfl, rfl⟩
    · simpa [activeElems, List.filter_eq_nil_iff] using some_active

/-- Each element lies in the page of the base. -/
theorem WellsLie.at {s : State} {sel : BitVec 3} {per n : Nat} {kind : Kind} {base : Word} {cls : Class} {addr : Nat → Word}
    {x : Nat → Xl} {write : Bool} (lie : WellsLie s (activeElems s sel per) per kind base n cls addr x write) (ok : Accept)
    (takes : ok cls = true) : ∀ e ∈ upTo s.hart.vstart s.hart.vl, s.active sel per e = true →
      s.LiesAt per (pageOf base) n kind ok e (addr e) (x e) := by
  intro e he on
  obtain ⟨-, each, -⟩ := lie
  obtain ⟨canon, aligned, found, cls, -, -, own, here⟩ := each e (mem_activeElems he on)
  exact ⟨canon, aligned, found, by rw [cls]; exact takes, own, here⟩

/-- A deposit whose elements lie in one page of wells completes. -/
theorem wellDepositOp_done {s : State} {p : Option Pfx} {d a : BitVec 5} {m k : BitVec 3} {srcs : List VOpd}
    {step : Nat → Nat → Word} {unk : Nat → Bool} {cls : Class} {x : Nat → Xl}
    (checks : VecOk s (arithFloat (s.vtype p)) [] (vreg d (typeWidth (s.vtype p)) :: srcs) false) (ra : s.ra = none)
    (known : ∀ e, unk e = false) (counter : s.counterFull k = false) (idle : s.hart.posted = [])
    (lie : WellsLie s (activeElems s (s.maskSel p m) (s.perPos (vreg d (typeWidth (s.vtype p)))))
      (s.perPos (vreg d (typeWidth (s.vtype p)))) .store (s.g a) (slotBytes (some cls)) cls
      (fun e => s.g a + step (slotBytes (some cls)) e) x true) :
    let els := activeElems s (s.maskSel p m) (s.perPos (vreg d (typeWidth (s.vtype p))))
    ∃ t, wellDepositOp p d a m k srcs step unk s = .next t ∧ VectorDone s t p ∧ t.hart.v = s.hart.v ∧
      (k = 0#3 → els.length ≤ 256 → t.hart.posted = Joined s (slotBytes (some cls)) els (fun e => s.g a + step (slotBytes (some cls)) e)
        x (depositRequest s p d (slotBytes (some cls))) ∧ SameMem s t) := by
  intro els
  have room : s.postFull = false := s.postFull_of_room (by rw [idle]; decide)
  obtain ⟨u, c, base, page, same⟩ := lie.base (by decide)
  have lies : ∀ e ∈ upTo s.hart.vstart s.hart.vl, s.active (s.maskSel p m) (s.perPos (vreg d (typeWidth (s.vtype p)))) e = true →
      s.LiesAt (s.perPos (vreg d (typeWidth (s.vtype p)))) (pageOf (s.g a)) (slotBytes c) .store (fun x => some x == c) e
        (s.g a + step (slotBytes c) e) (x e) := by
    intro e he on
    obtain rfl : c = some cls := same (List.ne_nil_of_mem (mem_activeElems he on))
    exact lie.at (fun x => some x == some cls) (beq_self_eq_true _) e he on
  have joined : Joined s (slotBytes (some cls)) els (fun e => s.g a + step (slotBytes (some cls)) e) x
        (depositRequest s p d (slotBytes (some cls)))
      = Joined s (slotBytes c) els (fun e => s.g a + step (slotBytes c) e) x (depositRequest s p d (slotBytes c)) := by
    rcases eq_or_ne els [] with none | some_active
    · rw [none]; rfl
    · rw [same some_active]
  obtain ⟨v, last, posted⟩ := elementsPosted_of_page s ra (s.maskSel p m) _ (pageOf (s.g a)) (slotBytes c) .store (by decide)
    (fun x => some x == c) (fun e => s.g a + step (slotBytes c) e) (depositRequest s p d (slotBytes c)) x _ lies u [] page
  obtain ⟨⟨tlb, walks, rfl⟩, -⟩ := page
  obtain ⟨registers, vectors, requests⟩ := posted_done p (s.maskSel p m) (s.perPos (vreg d (typeWidth (s.vtype p)))) k
    (Joined s (slotBytes c) els (fun e => s.g a + step (slotBytes c) e) x (depositRequest s p d (slotBytes c))) last.1 idle
  refine ⟨_, wellDepositOp_posted checks ra known counter (fun _ => room) base posted, registers, vectors, fun blocking few => ?_⟩
  rw [joined]
  exact requests blocking ((Joined_length ..).trans few)

/-! ## WINIT -/

/-- The access of WINIT. -/
def State.winitAccess (s : State) (p : Option Pfx) (d a : BitVec 5) (m : BitVec 3) : VAccess :=
  { sel := s.maskSel p m, per := s.perPos (vreg d 8), zero := false, size := 64, ok := wellClasses, kind := .store, win := false,
    addr := s.stepAddr a (fun i => BitVec.ofNat 64 (64 * i)) fun _ => false }

/-- The request of element e of WINIT. -/
def winitRequest (s : State) (d : BitVec 5) (e : Nat) (x : Xl) : Payload :=
  .winit (x.cls == .wlf) (x.pa / 64) (BitVec.ofNat 8 (s.elem (vreg d 8) e))

theorem State.winitAccess_addr (s : State) (ra : s.ra = none) (p : Option Pfx) (d a : BitVec 5) (m : BitVec 3) (e : Nat) :
    (s.winitAccess p d a m).addr e = some (s.g a + BitVec.ofNat 64 (64 * e)) :=
  s.stepAddr_known ra a (fun i => BitVec.ofNat 64 (64 * i)) _ (fun _ => rfl) e

theorem execWinit_issues (p : Option Pfx) (d a : BitVec 5) (c : Bool) (m k : BitVec 3) (s : State)
    (checks : VecOk s true [] [vreg d 8] false) :
    execWinit p d a c m k s = if s.issueWaits k true (s.winitAccess p d a m) (s.firstActive (s.winitAccess p d a m)) then .next s
      else finishMem p (s.vpost (s.winitAccess p d a m) (fun e x => .ok (winitRequest s d e x)) k) := by
  simp only [execWinit]
  rw [checks.vecCheck]
  rfl

/-- WINIT posts one request for each active element. -/
theorem winit_posts (p : Option Pfx) (d a : BitVec 5) (c : Bool) (m k : BitVec 3) (s : State) (checks : VecOk s true [] [vreg d 8] false)
    (ra : s.ra = none) :
    Posts (.winit p d a c m k) p s (s.maskSel p m) (s.perPos (vreg d 8)) 64 .store wellClasses k
      (fun e => s.g a + BitVec.ofNat 64 (64 * e)) (winitRequest s d) :=
  posts_of_issue (s.winitAccess p d a m) (show Kind.store ≠ .fetch by decide) ra checks.2.2.2
    (s.winitAccess_addr ra p d a m) (execWinit_issues p d a c m k s checks)

/-- WINIT whose lines lie in one page of wells completes. -/
theorem winit_done {p : Option Pfx} {d a : BitVec 5} {c : Bool} {m k : BitVec 3} {s : State} {cls : Class} {x : Nat → Xl}
    (checks : VecOk s true [] [vreg d 8] false) (ra : s.ra = none) (counter : s.counterFull k = false) (idle : s.hart.posted = [])
    (lie : WellsLie s (activeElems s (s.maskSel p m) (s.perPos (vreg d 8))) (s.perPos (vreg d 8)) .store (s.g a) 64 cls
      (fun e => s.g a + BitVec.ofNat 64 (64 * e)) x true) :
    let els := activeElems s (s.maskSel p m) (s.perPos (vreg d 8))
    ∃ t, exec (.winit p d a c m k) s = .next t ∧ VectorDone s t p ∧ t.hart.v = s.hart.v ∧ (k = 0#3 → els.length ≤ 256 →
      t.hart.posted = Joined s 64 els (fun e => s.g a + BitVec.ofNat 64 (64 * e)) x (winitRequest s d) ∧ SameMem s t) := by
  intro els
  have uncut : s.hart.cut = none := checks.2.2.2
  have room : s.postFull = false := s.postFull_of_room (by rw [idle]; decide)
  obtain ⟨v, last, posted⟩ := elementsPosted_of_page s ra (s.maskSel p m) (s.perPos (vreg d 8)) (pageOf (s.g a)) 64 .store (by decide)
    wellClasses (fun e => s.g a + BitVec.ofNat 64 (64 * e)) (winitRequest s d) x _ (lie.at wellClasses lie.1) s [] (.refl s _ _)
  have ended := s.vpost_posted v (s.winitAccess p d a m) (winitRequest s d) (fun e => s.g a + BitVec.ofNat 64 (64 * e)) k _ p
    (show Kind.store ≠ .fetch by decide) ra uncut
    (fun e _ _ => s.winitAccess_addr ra p d a m e) posted
  have waits := s.issueWaits_false k true (s.winitAccess p d a m) (s.firstActive (s.winitAccess p d a m)) counter fun _ _ => room
  obtain ⟨registers, vectors, requests⟩ := posted_done p (s.maskSel p m) (s.perPos (vreg d 8)) k
    (Joined s 64 els (fun e => s.g a + BitVec.ofNat 64 (64 * e)) x (winitRequest s d)) last.1 idle
  refine ⟨_, (execWinit_issues p d a c m k s checks).trans ((if_neg (Bool.eq_false_iff.mp waits)).trans ended), registers, vectors,
    fun blocking few => requests blocking ((Joined_length ..).trans few)⟩

theorem wellsPost : WellsPost := by
  intro p d a b c m k s t o sel done deposits lines anchor
  have deposit (i : Instr) (srcs : List VOpd) (index : Nat → Nat) (unk : Nat → Bool) (known : s.ra = none → ∀ e, unk e = false)
      (run : exec i s = wellDepositOp p d a m k srcs (fun n e => BitVec.ofNat 64 (index e * n)) unk s) : deposits i srcs index := by
    intro checks ra addr mk
    refine ⟨fun u cls counter room base => ?_, fun cls x settled counter lie => ?_⟩
    · intro n v l posted
      have ended := run.trans (wellDepositOp_posted checks ra (known ra) counter room base posted)
      refine ⟨fun blocking => ?_, fun _ => ended⟩
      subst blocking
      exact ended
    · obtain ⟨-, idle, -⟩ := settled
      rw [run]
      exact wellDepositOp_done checks ra (known ra) counter idle lie
  refine ⟨fun checks ra => ⟨winit_posts p d a c m k s checks ra, fun cls x settled counter lie => ?_⟩,
    deposit _ [] _ (fun _ => false) (fun _ _ => rfl) rfl,
    deposit _ [vreg b 32] _ (s.elemUnknown (vreg b 32)) (fun ra => s.elemUnknown_known ra _) rfl⟩
  obtain ⟨-, idle, -⟩ := settled
  exact winit_done checks ra counter idle lie

end Sys2Proof.Machine

/-! # Elements of one register (R121, R138) -/

namespace Sys2Proof.Machine

theorem getLsbD_setField {n w : Nat} (x : BitVec n) (lo : Nat) (y : BitVec w) (j : Nat) :
    (setField x lo y).getLsbD j = (decide (j < n) && if lo ≤ j ∧ j < lo + w then y.getLsbD (j - lo) else x.getLsbD j) := by
  unfold setField
  by_cases inside : j < n
  · by_cases low : j < lo
    · simp [inside, low, Nat.not_le.mpr low]
    · by_cases high : j < lo + w
      · have field : j - lo < w := by omega
        simp [inside, low, high, field, Nat.not_lt.mp low]
      · have field : ¬j - lo < w := by omega
        simp [inside, low, high, field, BitVec.getLsbD_of_ge y (j - lo) (by omega)]
  · simp [inside]

/-- Fields that do not overlap are replaced in any order. -/
theorem setField_comm {n w : Nat} (x : BitVec n) (lo lo' : Nat) (y z : BitVec w) (apart : lo + w ≤ lo' ∨ lo' + w ≤ lo) :
    setField (setField x lo y) lo' z = setField (setField x lo' z) lo y := by
  apply BitVec.eq_of_getLsbD_eq
  intro j hj
  simp only [getLsbD_setField, hj]
  by_cases first : lo ≤ j ∧ j < lo + w
  · have second : ¬(lo' ≤ j ∧ j < lo' + w) := by omega
    simp [first, second]
  · by_cases second : lo' ≤ j ∧ j < lo' + w <;> simp [first, second]

/-- The vector registers v with element e of an operand written, in the layout of s. -/
def State.regsWith (s : State) (o : VOpd) (v : Vector VReg 32) (e x : Nat) : Vector VReg 32 :=
  v.setIfInBounds (s.elemReg o e) (setField ((v[s.elemReg o e]?).getD 0#524288) (s.elemBit o e) (BitVec.ofNat o.w x))

theorem State.setElem_v (s t : State) (o : VOpd) (e x : Nat) (layout : t.hart.vlmaxb = s.hart.vlmaxb) :
    (t.setElem o e x).hart.v = s.regsWith o t.hart.v e x := by
  simp only [State.setElem, State.regsWith, State.elemReg, State.elemBit, State.perPos, layout]

/-- Where the elements of a single register stand. -/
theorem State.elemPlace_vreg (s : State) (d : BitVec 5) (w e : Nat) (holds : 0 < s.perPos (vreg d w)) :
    s.elemReg (vreg d w) e = d.toNat
      ∧ s.elemBit (vreg d w) e = e / s.perPos (vreg d w) * (s.hart.vlmaxb * 8) + e % s.perPos (vreg d w) * w
      ∧ e % s.perPos (vreg d w) * w + w ≤ s.hart.vlmaxb * 8 ∧ 0 < w := by
  have per : s.perPos (vreg d w) = s.hart.vlmaxb * 8 / w := by simp [State.perPos, vreg]
  have pos : 0 < w := Nat.pos_of_ne_zero fun zero => by
    rw [per, zero, Nat.div_zero] at holds
    exact Nat.lt_irrefl 0 holds
  have fits : e % s.perPos (vreg d w) * w + w ≤ s.hart.vlmaxb * 8 :=
    calc e % s.perPos (vreg d w) * w + w = (e % s.perPos (vreg d w) + 1) * w := (Nat.succ_mul _ w).symm
      _ ≤ s.perPos (vreg d w) * w := Nat.mul_le_mul_right w (Nat.mod_lt e holds)
      _ ≤ s.hart.vlmaxb * 8 := by rw [per]; exact Nat.div_mul_le_self _ w
  refine ⟨?_, ?_, fits, pos⟩
  · show d.toNat + e % s.perPos (vreg d w) * w / (s.hart.vlmaxb * 8) = d.toNat
    rw [Nat.div_eq_of_lt (by omega), Nat.add_zero]
  · show e / s.perPos (vreg d w) * (s.hart.vlmaxb * 8) + e % s.perPos (vreg d w) * w % (s.hart.vlmaxb * 8) = _
    rw [Nat.mod_eq_of_lt (by omega)]

/-- Two elements of a single register do not overlap. -/
theorem State.elemBit_apart (s : State) (d : BitVec 5) (w e f : Nat) (holds : 0 < s.perPos (vreg d w)) (differ : e ≠ f) :
    s.elemBit (vreg d w) e + w ≤ s.elemBit (vreg d w) f ∨ s.elemBit (vreg d w) f + w ≤ s.elemBit (vreg d w) e := by
  obtain ⟨-, at_e, fits_e, pos⟩ := s.elemPlace_vreg d w e holds
  obtain ⟨-, at_f, fits_f, -⟩ := s.elemPlace_vreg d w f holds
  rw [at_e, at_f]
  have before {a b : Nat} (lt : a < b) : a * (s.hart.vlmaxb * 8) + s.hart.vlmaxb * 8 ≤ b * (s.hart.vlmaxb * 8) := by
    rw [← Nat.succ_mul]
    exact Nat.mul_le_mul_right _ lt
  have next {a b : Nat} (lt : a < b) : a * w + w ≤ b * w := by
    rw [← Nat.succ_mul]
    exact Nat.mul_le_mul_right _ lt
  rcases Nat.lt_trichotomy (e / s.perPos (vreg d w)) (f / s.perPos (vreg d w)) with lt | same | gt
  · have := before lt
    omega
  · have mods : e % s.perPos (vreg d w) ≠ f % s.perPos (vreg d w) := fun h => differ <| by
      rw [← Nat.div_add_mod e (s.perPos (vreg d w)), ← Nat.div_add_mod f (s.perPos (vreg d w)), same, h]
    rw [same]
    rcases Nat.lt_or_gt_of_ne mods with lt | gt
    · have := next lt
      omega
    · have := next gt
      omega
  · have := before gt
    omega

/-- Two elements of a single register are written in any order. -/
theorem State.regsWith_comm (s : State) (d : BitVec 5) (w : Nat) (v : Vector VReg 32) (e f x y : Nat)
    (holds : 0 < s.perPos (vreg d w)) (differ : e ≠ f) :
    s.regsWith (vreg d w) (s.regsWith (vreg d w) v e x) f y = s.regsWith (vreg d w) (s.regsWith (vreg d w) v f y) e x := by
  obtain ⟨reg_e, -⟩ := s.elemPlace_vreg d w e holds
  obtain ⟨reg_f, -⟩ := s.elemPlace_vreg d w f holds
  have inside : d.toNat < 32 := d.isLt
  simp only [State.regsWith, reg_e, reg_f, Vector.getElem?_setIfInBounds_self_of_lt inside, Option.getD_some]
  rw [setField_comm (w := (vreg d w).w) _ _ _ _ _ (s.elemBit_apart d w e f holds differ)]
  apply Vector.ext
  intro i hi
  simp only [Vector.getElem_setIfInBounds]
  split <;> rfl

/-- The elements of a single register, each with a value of its own, are written in any order. -/
theorem State.regsWith_perm (s : State) (d : BitVec 5) (w : Nat) (value : Nat → Nat) {l r : List Nat} (perm : l.Perm r)
    (holds : ∀ e ∈ l, 0 < s.perPos (vreg d w)) (v : Vector VReg 32) :
    l.foldl (fun v e => s.regsWith (vreg d w) v e (value e)) v = r.foldl (fun v e => s.regsWith (vreg d w) v e (value e)) v := by
  refine perm.foldl_eq' (fun e he f _ v => ?_) v
  by_cases same : e = f
  · rw [same]
  · exact s.regsWith_comm d w v e f _ _ (holds e he) same

/-- What VecOk says of the capacity: where an element is processed, the register holds elements at each span position. -/
theorem VecOk.holds {s : State} {ok : Bool} {o : VOpd} {srcs : List VOpd} {cross : Bool} (checks : VecOk s ok [o] srcs cross)
    (some_element : 0 < s.hart.vl) : 0 < s.perPos o := by
  obtain ⟨-, operands, -⟩ := checks
  have fits : s.hart.vl ≤ s.positions * s.perPos o := by
    simp only [State.operandsOk, List.singleton_append, List.all_cons, Bool.and_eq_true, decide_eq_true_eq] at operands
    exact operands.1.1.2
  exact Nat.pos_of_mul_pos_left (by omega : 0 < s.positions * s.perPos o)

end Sys2Proof.Machine

/-! # WREAD and WDRAIN: the checks of the elements (R169) -/

namespace Sys2Proof.Machine

/-! ## Places in pages of wells -/

/-- The place of an address in a page of wells has the offset of the address in its 64 KiB. -/
theorem State.hartXlate_offset {s : State} {frm : BitVec 4} {k : Kind} {va : Word} {n : Nat} {x : Xl}
    (found : s.hartXlate frm k va n = .ok x) (wells : wellClasses x.cls = true) : x.pa % 65536 = va.toNat % 65536 := by
  have table : ∃ pte, x.pa = pte / 65536 * 65536 + va.toNat % 2 ^ 16 ∨ x.pa = pte / 65536 * 65536 + va.toNat % 2 ^ 21
      ∨ x.pa = pte / 65536 * 65536 + va.toNat % 2 ^ 30 := by
    unfold State.hartXlate State.translate State.translateBy at found
    split at found
    · dsimp only at found
      split at found
      · cases found
        cases wells
      · cases found
    · split at found
      · cases found
      · rename_i pte _
        refine ⟨pte.toNat, ?_⟩
        split at found
        · cases found
        · split at found
          · cases found
          · cases found
            dsimp only [pageSize]
            split <;> simp
  obtain ⟨pte, at16 | at21 | at30⟩ := table <;> omega

/-- An element aligned in its page is aligned in memory. -/
theorem State.LiesAt.place_aligned {s : State} {per page n : Nat} {kind : Kind} {ok : Accept} {e : Nat} {va : Word} {x : Xl}
    (h : s.LiesAt per page n kind ok e va x) (wells : wellClasses x.cls = true) (divides : n ∣ 65536) : x.pa % n = 0 := by
  have offset := State.hartXlate_offset h.found wells
  rw [← Nat.mod_mod_of_dvd x.pa divides, offset, Nat.mod_mod_of_dvd _ divides, h.aligned]

/-- A write of a vector register is no part of a walk. -/
theorem State.setElem_walkFrom (s : State) (o : VOpd) (e y : Nat) (who : Option (BitVec 10)) (frm : BitVec 4) (va : Word) (left t : Nat)
    (seen : List (Nat × Word)) : (s.setElem o e y).walkFrom who frm va left t seen = s.walkFrom who frm va left t seen := by
  have entry (lvl a : Nat) : (s.setElem o e y).walkEntry who frm va lvl a = s.walkEntry who frm va lvl a := rfl
  induction left generalizing t seen with
  | zero =>
    unfold State.walkFrom
    simp only [entry]
  | succ n ih =>
    unfold State.walkFrom
    simp only [entry, ih]

/-- An address translates alike after a write of a vector register. -/
theorem State.setElem_hartXlate (s : State) (o : VOpd) (e y : Nat) (frm : BitVec 4) (k : Kind) (va : Word) (n : Nat) :
    (s.setElem o e y).hartXlate frm k va n = s.hartXlate frm k va n := by
  have leaf : (s.setElem o e y).leaf s.who frm false va = s.leaf s.who frm false va := by
    simp only [State.leaf, State.walk, State.walked, State.setElem_walkFrom]
    rfl
  simp only [State.hartXlate, State.translate, State.translateBy]
  rw [show (s.setElem o e y).who = s.who from rfl, leaf]
  rfl

/-! ## What reading the elements changes -/

/-- From s to t the hart has changed in its vector registers, its armed waits, its posted requests and its store errors only. -/
def State.Filled (s t : State) : Prop :=
  ∃ v hwm armed fired armedPa posted seq, t.hart =
    { s.hart with v := v, hwm := hwm, armed := armed, fired := fired, armedPa := armedPa, posted := posted, seq := seq }

theorem State.Filled.refl (s : State) : s.Filled s := ⟨_, _, _, _, _, _, _, rfl⟩

theorem State.Filled.trans {s t u : State} (h : s.Filled t) (k : t.Filled u) : s.Filled u := by
  obtain ⟨_, _, _, _, _, _, _, h⟩ := h
  obtain ⟨_, _, _, _, _, _, _, k⟩ := k
  exact ⟨_, _, _, _, _, _, _, by rw [k, h]⟩

theorem State.Filled.vlmaxb {s t : State} (h : s.Filled t) : t.hart.vlmaxb = s.hart.vlmaxb := by
  obtain ⟨_, _, _, _, _, _, _, h⟩ := h
  rw [h]

theorem State.Filled.who {s t : State} (h : s.Filled t) : t.who = s.who := by
  obtain ⟨_, _, _, _, _, _, _, h⟩ := h
  simp only [State.who, State.myVf, h]

theorem State.setElem_filled (s : State) (o : VOpd) (e x : Nat) : s.Filled (s.setElem o e x) := ⟨_, _, _, _, _, _, _, rfl⟩

/-- What leaves the rest of the hart to what it wears. -/
theorem State.filled_of_wearing {s t : State} (h : t = t.wearing s.hart s.tlb s.walks) : s.Filled t :=
  ⟨s.hart.v, s.hart.hwm, t.hart.armed, t.hart.fired, t.hart.armedPa, t.hart.posted, t.hart.seq, congrArg State.hart h⟩

/-- t is s but for its vector registers and cached translations, and the addresses of a page translate as in s: so it is between the
elements of a load. -/
def State.Loading (s t : State) (page : Nat) : Prop :=
  (∃ v hwm tlb walks, t = s.wearing { s.hart with v := v, hwm := hwm } tlb walks) ∧
    ∀ (k : Kind) (va : Word) (n : Nat), pageOf va = page → t.hartXlate s.myHall k va n = s.hartXlate s.myHall k va n

theorem State.SamePage.loading {s t : State} {page : Nat} (h : s.SamePage t s.myHall page) : s.Loading t page := by
  obtain ⟨⟨tlb, walks, rfl⟩, same⟩ := h
  exact ⟨⟨s.hart.v, s.hart.hwm, tlb, walks, rfl⟩, same⟩

theorem State.Loading.keepXlate {s t : State} {page : Nat} (h : s.Loading t page) {k : Kind} {va : Word} {n : Nat}
    {x : Xl} (data : k ≠ .fetch) (here : pageOf va = page) (found : s.hartXlate s.myHall k va n = .ok x) :
    s.Loading (t.keepXlate s.myHall va) page := by
  obtain ⟨⟨v, hwm, tlb, walks, rfl⟩, same⟩ := h
  have found' := (same k va n here).trans found
  obtain ⟨tlb', walks', caching⟩ := State.keepXlate_of_hartXlate _ s.myHall k va n x data found'
  refine ⟨⟨v, hwm, tlb', walks', caching⟩, fun j vb m there => ?_⟩
  rw [State.keepXlate_hartXlate _ s.myHall k j n m x data (there.trans here.symm) found', same j vb m there]

theorem State.Loading.setElem {s t : State} {page : Nat} (h : s.Loading t page) (ra : s.ra = none) (o : VOpd) (e x : Nat) :
    s.Loading (t.setElem o e x) page := by
  obtain ⟨⟨v, hwm, tlb, walks, rfl⟩, same⟩ := h
  let t := s.wearing { s.hart with v := v, hwm := hwm } tlb walks
  have noted : t.noteElem o e false = t := by
    rw [State.noteElem, show t.ra = none from ra, Option.map_none, ← show t.ra = none from ra]
  refine ⟨⟨(t.setElem o e x).hart.v, (t.setElem o e x).hart.hwm, tlb, walks, ?_⟩, fun k va n here => ?_⟩
  · rw [State.setElem, noted]
    rfl
  · rw [State.setElem_hartXlate, same k va n here]

/-- Nothing is posted, so nothing is performed before an access. -/
theorem State.settleAt_idle (s : State) (pa n : Nat) (idle : s.hart.posted = []) : s.settleAt pa n = s := by
  rw [State.settleAt, State.settle, idle]
  show s.onHart (fun h => { h with posted := [] }) = s
  rw [State.onHart, ← idle]

/-! ## The elements -/

/-- The element e of an instruction that reads wells, from the hart's own hall. -/
def readOf (s : State) (addr : Nat → Word) (x : Nat → Xl) (e : Nat) : WellRead :=
  { e := e, frm := s.myHall, va := addr e, pa := (x e).pa }

/-- Elements of one page pass their checks; inactive ones become zero under the zero policy. -/
theorem wellElems_page (s : State) (ra : s.ra = none) (idle : s.hart.posted = []) (v : VAccess) (o : VOpd) (page : Nat)
    (data : v.kind ≠ .fetch) (addr : Nat → Word) (x : Nat → Xl) (l : List Nat)
    (known : ∀ e ∈ l, s.active v.sel v.per e = true → v.addr e = some (addr e))
    (lies : ∀ e ∈ l, s.active v.sel v.per e = true → s.LiesAt v.per page v.size v.kind v.ok e (addr e) (x e)) (t : State)
    (reads : List WellRead) (loading : s.Loading t page) :
    ∃ u, s.Loading u page
      ∧ wellElems v o l t reads = (u, reads ++ (l.filter fun e => s.active v.sel v.per e).map (readOf s addr x), none)
      ∧ u.hart.v = (if v.zero then l.filter fun e => !s.active v.sel v.per e else []).foldl (fun r e => s.regsWith o r e 0) t.hart.v := by
  induction l generalizing t reads with
  | nil =>
    refine ⟨t, loading, ?_, ?_⟩
    · rw [wellElems, List.filter_nil, List.map_nil, List.append_nil]
    · cases v.zero <;> rfl
  | cons e l ih =>
    have ih := ih (fun f hf => known f (List.mem_cons_of_mem e hf)) (fun f hf => lies f (List.mem_cons_of_mem e hf))
    have active : t.active v.sel v.per e = s.active v.sel v.per e := by
      obtain ⟨⟨_, _, _, _, rfl⟩, -⟩ := loading
      rfl
    have tra : t.ra = none := by
      obtain ⟨⟨_, _, _, _, rfl⟩, -⟩ := loading
      exact ra
    cases on : s.active v.sel v.per e with
    | false =>
      have off := t.act_off tra (active.trans on)
      cases zero : v.zero with
      | false =>
        obtain ⟨u, last, run, regs⟩ := ih t reads loading
        refine ⟨u, last, ?_, ?_⟩
        · simp only [wellElems, off, zero, List.filter_cons, on]
          exact run
        · simpa [zero] using regs
      | true =>
        have layout : t.hart.vlmaxb = s.hart.vlmaxb := by
          obtain ⟨⟨_, _, _, _, rfl⟩, -⟩ := loading
          rfl
        obtain ⟨u, last, run, regs⟩ := ih (t.setElem o e 0) reads (loading.setElem ra o e 0)
        refine ⟨u, last, ?_, ?_⟩
        · simp only [wellElems, off, zero, List.filter_cons, on]
          exact run
        · rw [s.setElem_v t o e 0 layout] at regs
          simpa [zero, on] using regs
    | true =>
      have is_on := t.act_on tra (active.trans on)
      have at_e := lies e List.mem_cons_self on
      have kept := loading.keepXlate data at_e.here at_e.found
      have own : t.elemHall v.per e = s.myHall ∧ (t.keepXlate s.myHall (addr e)).elemHall v.per e = s.myHall := by
        obtain ⟨⟨_, _, _, _, rfl⟩, -⟩ := loading
        obtain ⟨⟨_, _, _, _, e'⟩, -⟩ := kept
        rw [e']
        exact ⟨at_e.own, at_e.own⟩
      have located : t.locate s.myHall v.kind (addr e) v.size v.size v.ok = .ok (x e) :=
        (t.locate_eq_ok ..).mpr ⟨at_e.canon, at_e.aligned, (loading.2 _ _ _ at_e.here).trans at_e.found, at_e.cls⟩
      have reached := t.reach_located s.myHall v.kind (addr e) v.size v.size v.ok (x e) located
      have calm : (t.keepXlate s.myHall (addr e)).hart.posted = [] := by
        obtain ⟨⟨_, _, _, _, e'⟩, -⟩ := kept
        rw [e']
        exact idle
      have vectors : (t.keepXlate s.myHall (addr e)).hart.v = t.hart.v := by
        have e' := congrArg (fun u => u.hart.v) (t.keepXlate_rest s.myHall (addr e))
        exact e'
      obtain ⟨u, last, run, regs⟩ := ih (t.keepXlate s.myHall (addr e)) (reads ++ [readOf s addr x e]) kept
      refine ⟨u, last, ?_, ?_⟩
      · simp only [wellElems, is_on, known e List.mem_cons_self on, own.1, reached, own.2, State.keepXlate_ra, tra,
          State.settleAt_idle _ _ _ calm, List.filter_cons, on, Option.isSome_none, Bool.false_eq_true, if_false,
          if_true, List.map_cons]
        rw [List.append_assoc, List.singleton_append] at run
        exact run
      · rw [vectors] at regs
        simpa [on] using regs

end Sys2Proof.Machine

/-! # WREAD and WDRAIN: their lines, each in one step (R169) -/

namespace Sys2Proof.Machine

/-! ## Elements written one after another -/

/-- Elements of an operand written in order. -/
def State.setElems (s : State) (o : VOpd) (ws : List (Nat × Nat)) : State := ws.foldl (fun s q => s.setElem o q.1 q.2) s

theorem State.setElems_mem (s : State) (o : VOpd) (ws : List (Nat × Nat)) : (s.setElems o ws).mem = s.mem :=
  foldl_mem (fun s (q : Nat × Nat) => s.setElem o q.1 q.2) (fun _ _ => rfl) ws s

theorem State.setElems_sameHomes (s : State) (o : VOpd) (ws : List (Nat × Nat)) : s.SameHomes (s.setElems o ws) :=
  State.foldl_sameHomes (fun s (q : Nat × Nat) => s.setElem o q.1 q.2) (fun _ _ => ⟨rfl, rfl⟩) ws s

theorem State.setElems_filled (s : State) (o : VOpd) (ws : List (Nat × Nat)) : s.Filled (s.setElems o ws) := by
  induction ws generalizing s with
  | nil => exact .refl s
  | cons q ws ih => exact (s.setElem_filled o q.1 q.2).trans (ih _)

theorem State.setElems_v (s t : State) (o : VOpd) (ws : List (Nat × Nat)) (layout : t.hart.vlmaxb = s.hart.vlmaxb) :
    (t.setElems o ws).hart.v = ws.foldl (fun r q => s.regsWith o r q.1 q.2) t.hart.v := by
  induction ws generalizing t with
  | nil => rfl
  | cons q ws ih =>
    refine (ih (t.setElem o q.1 q.2) layout).trans ?_
    rw [s.setElem_v t o q.1 q.2 layout]
    rfl

/-! ## What a reset and its count leave of the hart -/

theorem State.wellReset_wearing (s : State) (h : Hart) (tlb : List TlbEntry) (walks : List WalkEntry) (wlf : Bool) (line : Nat)
    (is : List Nat) : (s.wearing h tlb walks).wellReset wlf line is = (s.wellReset wlf line is).wearing h tlb walks := by
  have slots : (s.wearing h tlb walks).zeroSlots wlf line is = (s.zeroSlots wlf line is).wearing h tlb walks :=
    foldl_wearing s h tlb walks _ (fun t i => t.performBytes_wearing h tlb walks _ _) is
  rw [State.wellReset_eq, State.wellReset_eq, slots, ← ite_wearing h tlb walks]
  rfl

theorem State.wellReset_atGates (s : State) (wlf : Bool) (line : Nat) (is : List Nat) :
    (s.wellReset wlf line is).atGates = s.atGates := by
  have slots := (s.zeroSlots_sameHomes wlf line is).2
  rw [State.wellReset_eq]
  split
  · exact slots
  · exact slots

theorem State.wellReset_wellLine (s : State) (wlf : Bool) (line j : Nat) (is : List Nat) (other : j ≠ line) :
    (s.wellReset wlf line is).wellLine j = s.wellLine j := by
  have slots := (s.zeroSlots_sameHomes wlf line is).wellLine j
  rw [State.wellReset_eq]
  split
  · rw [State.onWell_wellLine, if_neg other, slots]
  · exact slots

/-- The slot that holds an aligned place. -/
theorem wellPa_of_place (wlf : Bool) (pa : Nat) (aligned : pa % wellSlot wlf = 0) :
    wellPa wlf (pa / 64) (pa % 64 / wellSlot wlf) = pa := by
  cases wlf <;> simp only [wellPa, wellSlot, Bool.false_eq_true, if_false, if_true] at aligned ⊢ <;> omega

/-- The bytes of an aligned place lie in its line. -/
theorem line_of_place {wlf : Bool} {pa a : Nat} (aligned : pa % wellSlot wlf = 0) (lo : pa ≤ a) (hi : a < pa + wellSlot wlf) :
    a / 64 = pa / 64 := by
  cases wlf <;> simp only [wellSlot, Bool.false_eq_true, if_false, if_true] at aligned hi <;> omega

/-- What wears the hart of s has its vector registers. -/
theorem State.vectors_of_wearing {s t : State} (h : t = t.wearing s.hart s.tlb s.walks) : t.hart.v = s.hart.v :=
  congrArg (fun t => t.hart.v) h

/-! ## One line -/

/-- The elements of one line. -/
def ofPlace (l : List WellRead) (place : Nat × BitVec 4) : List WellRead := l.filter fun q => q.place == place

theorem mem_ofPlace {l : List WellRead} {place : Nat × BitVec 4} {q : WellRead} : q ∈ ofPlace l place ↔ q ∈ l ∧ q.place = place := by
  simp [ofPlace]

/-- The slot of an element within its line. -/
def WellRead.slot (wlf : Bool) (q : WellRead) : Nat := q.pa % 64 / wellSlot wlf

/-- The value that a well gives an element (R38, R169). -/
def WellRead.value (s : State) (wlf : Bool) (q : WellRead) : Nat := s.wellValue wlf (q.pa / 64) (q.slot wlf)

/-- What a line step leaves of t: the values of its elements are written, a drain resets them, and the access is counted. -/
def lineDone (t : State) (o : VOpd) (wlf drain : Bool) (l : List WellRead) (place : Nat × BitVec 4) : State :=
  let mine := ofPlace l place
  let read := (t.makeResident place.1).setElems o (mine.map fun q => (q.e, q.value t wlf))
  (if drain then read.wellReset wlf place.1 (mine.map (·.slot wlf)) else read).count place.2 (place.1 * 64)
    (mine.length * wellSlot wlf) false

theorem wellStep_clean (t : State) (o : VOpd) (wlf drain : Bool) (l : List WellRead) (st : BitVec 4) (place : Nat × BitVec 4)
    (late : t.wellLate place.2 place.1 drain = none) (pois : (t.wellLine place.1).pois = false) :
    wellStep o wlf drain l (t, st) place = (lineDone t o wlf drain l place, st) := by
  have values : ((ofPlace l place).map fun q => (q.e, q.value t wlf))
      = (ofPlace l place).map fun q => (q.e, t.wellValue wlf place.1 (q.slot wlf)) := by
    refine List.map_congr_left fun q hq => ?_
    obtain ⟨-, rfl⟩ := mem_ofPlace.mp hq
    rfl
  have zipped : ∀ u : State, (((ofPlace l place).zip (((ofPlace l place).map (·.slot wlf)).map (t.wellValue wlf place.1))).foldl
      (fun s q => s.setElem o q.1.e q.2) u) = u.setElems o ((ofPlace l place).map fun q => (q.e, q.value t wlf)) := by
    intro u
    rw [values, List.map_map, ← List.map_prod_left_eq_zip, List.foldl_map, State.setElems, List.foldl_map]
    rfl
  have wellValues : (t.makeResident place.1).wellValue wlf place.1 = t.wellValue wlf place.1 :=
    funext fun i => t.makeResident_wellValue wlf place.1 i
  simp only [wellStep, late, t.wellRead_clean wlf place.1 _ pois, wellValues, Option.getD_some]
  exact congrArg (fun u : State => ((if drain then u.wellReset wlf place.1 _ else u).count place.2 _ _ false, st)) (zipped _)

/-! ## Every line -/

/-- From s to t the lines `done` of a reading instruction have been read, and drained where it drains, from vector registers v₀ on. -/
structure LinesDone (s t : State) (o : VOpd) (wlf drain : Bool) (l : List WellRead) (v₀ : Vector VReg 32)
    (done : List (Nat × BitVec 4)) : Prop where
  filled : s.Filled t
  gates : t.atGates = s.atGates
  wf : Memory.wf t.mem = true
  header : ∀ line, (line, s.myHall) ∉ done → t.wellLine line = s.wellLine line
  mem : ∀ a, Memory.read t.mem a =
    if drain = true ∧ ∃ q ∈ l, q.place ∈ done ∧ q.pa ≤ a ∧ a < q.pa + wellSlot wlf then 0#8 else Memory.read s.mem a
  regs : t.hart.v = (done.flatMap (ofPlace l)).foldl (fun r q => s.regsWith o r q.e (q.value s wlf)) v₀

/-- The elements of a list come from the hart's own hall and are aligned. -/
def OwnAligned (s : State) (wlf : Bool) (l : List WellRead) : Prop := ∀ q ∈ l, q.frm = s.myHall ∧ q.pa % wellSlot wlf = 0

/-- A line that is still to be read holds what it held. -/
theorem LinesDone.value {s t : State} {o : VOpd} {wlf drain : Bool} {l : List WellRead} {v₀ : Vector VReg 32}
    {done : List (Nat × BitVec 4)} (h : LinesDone s t o wlf drain l v₀ done) (own : OwnAligned s wlf l) {q : WellRead} (hq : q ∈ l)
    (ahead : q.place ∉ done) : q.value t wlf = q.value s wlf := by
  obtain ⟨frm, aligned⟩ := own q hq
  have place : (q.pa / 64, s.myHall) = q.place := by rw [← frm]; rfl
  have bytes : t.wellElem wlf (q.pa / 64) (q.slot wlf) = s.wellElem wlf (q.pa / 64) (q.slot wlf) := by
    refine congrArg leNat (State.bytes_congr _ _ fun a lo hi => ?_)
    rw [WellRead.slot, wellPa_of_place wlf q.pa aligned] at lo hi
    rw [h.mem, if_neg]
    rintro ⟨-, q', hq', passed, lo', hi'⟩
    obtain ⟨frm', aligned'⟩ := own q' hq'
    refine ahead ?_
    rwa [← place, ← line_of_place aligned lo hi, line_of_place aligned' lo' hi', ← frm']
  rw [WellRead.value, WellRead.value, State.wellValue_eq, State.wellValue_eq, bytes, h.header _ (by rwa [place])]

/-- One more line. -/
theorem LinesDone.step {s t : State} {o : VOpd} {wlf drain : Bool} {l : List WellRead} {v₀ : Vector VReg 32}
    {done : List (Nat × BitVec 4)} (h : LinesDone s t o wlf drain l v₀ done) (own : OwnAligned s wlf l) (line : Nat) (st : BitVec 4)
    (ahead : (line, s.myHall) ∉ done) (admitted : s.refusal s.who s.myHall (line * 64) 64 drain = none)
    (pois : (s.wellLine line).pois = false) :
    wellStep o wlf drain l (t, st) (line, s.myHall) = (lineDone t o wlf drain l (line, s.myHall), st)
      ∧ LinesDone s (lineDone t o wlf drain l (line, s.myHall)) o wlf drain l v₀ (done ++ [(line, s.myHall)]) := by
  have clean : (t.wellLine line).pois = false := by rw [h.header line ahead]; exact pois
  have late : t.wellLate s.myHall line drain = none := by
    rw [State.wellLate, h.filled.who, State.refusal_congr h.gates, admitted, clean]
    rfl
  refine ⟨wellStep_clean t o wlf drain l st (line, s.myHall) late clean, ?_⟩
  have values : ((ofPlace l (line, s.myHall)).map fun q => (q.e, q.value t wlf))
      = (ofPlace l (line, s.myHall)).map fun q => (q.e, q.value s wlf) := by
    refine List.map_congr_left fun q hq => ?_
    obtain ⟨hq, place⟩ := mem_ofPlace.mp hq
    rw [h.value own hq (by rwa [place])]
  let mine := ofPlace l (line, s.myHall)
  let read := (t.makeResident line).setElems o (mine.map fun q => (q.e, q.value t wlf))
  let reset := if drain then read.wellReset wlf line (mine.map (·.slot wlf)) else read
  show LinesDone s (reset.count s.myHall (line * 64) (mine.length * wellSlot wlf) false) o wlf drain l v₀ _
  have homes := (t.makeResident line).setElems_sameHomes o (mine.map fun q => (q.e, q.value t wlf))
  have counted := reset.count_sameHomes s.myHall (line * 64) (mine.length * wellSlot wlf) false
  have worn : reset = reset.wearing read.hart read.tlb read.walks := by
    cases drain
    · rfl
    · exact read.wellReset_wearing read.hart read.tlb read.walks wlf line _
  have worn' : reset.count s.myHall (line * 64) (mine.length * wellSlot wlf) false
      = (reset.count s.myHall (line * 64) (mine.length * wellSlot wlf) false).wearing reset.hart reset.tlb reset.walks :=
    reset.count_wearing reset.hart reset.tlb reset.walks s.myHall (line * 64) (mine.length * wellSlot wlf) false
  have read_mem : read.mem = t.mem := (t.makeResident line).setElems_mem o _
  have read_wf : Memory.wf read.mem = true := by rw [read_mem]; exact h.wf
  constructor
  · exact ((h.filled.trans (t.makeResident line |>.setElems_filled o _)).trans (State.filled_of_wearing worn)).trans
      (State.filled_of_wearing worn')
  · refine counted.2.trans (Eq.trans ?_ (homes.2.trans h.gates))
    cases drain
    · rfl
    · exact read.wellReset_atGates wlf line _
  · rw [State.count_mem]
    cases drain
    · exact read_wf
    · rw [show reset = read.wellReset wlf line _ from rfl, State.wellReset_mem]
      exact read.zeroSlots_wf wlf line _ read_wf
  · intro j passed
    rw [List.mem_append, List.mem_singleton, not_or] at passed
    obtain ⟨before, other⟩ := passed
    have other : j ≠ line := fun e => other (by rw [e])
    have kept : read.wellLine j = t.wellLine j := (homes.wellLine j).trans (by rw [State.makeResident_wellLine, if_neg other])
    rw [counted.wellLine, ← h.header j before, ← kept]
    cases drain
    · rfl
    · exact read.wellReset_wellLine wlf line j _ other
  · intro a
    rw [State.count_mem]
    cases drain with
    | false =>
      rw [show reset.mem = t.mem from read_mem, h.mem, if_neg (by simp), if_neg (by simp)]
    | true =>
      have slots : (∃ i ∈ mine.map (·.slot wlf), wellPa wlf line i ≤ a ∧ a < wellPa wlf line i + wellSlot wlf)
          ↔ ∃ q ∈ l, q.place = (line, s.myHall) ∧ q.pa ≤ a ∧ a < q.pa + wellSlot wlf := by
        simp only [List.mem_map, exists_exists_and_eq_and]
        refine exists_congr fun q => ?_
        rw [mem_ofPlace, and_assoc]
        refine and_congr_right fun hq => and_congr_right fun place => ?_
        rw [show line = q.pa / 64 from (congrArg Prod.fst place).symm, WellRead.slot, wellPa_of_place wlf q.pa (own q hq).2]
      rw [show reset = read.wellReset wlf line _ from rfl, State.wellReset_mem, read.zeroSlots_read wlf line _ read_wf, read_mem, h.mem]
      simp only [slots, true_and, List.mem_append, List.mem_singleton, or_and_right, and_or_left, exists_or]
      by_cases now : ∃ q ∈ l, q.place = (line, s.myHall) ∧ q.pa ≤ a ∧ a < q.pa + wellSlot wlf
      · rw [if_pos now, if_pos (.inr now)]
      · simp only [now, or_false, if_false]
  · rw [State.vectors_of_wearing worn', State.vectors_of_wearing worn, List.flatMap_append, List.foldl_append, ← h.regs]
    refine (s.setElems_v (t.makeResident line) o _ h.filled.vlmaxb).trans ?_
    rw [values, List.foldl_map, List.flatMap_singleton]
    rfl

end Sys2Proof.Machine

/-! # WREAD and WDRAIN complete (R169) -/

namespace Sys2Proof.Machine

/-! ## The lines of the elements -/

/-- Each line of the elements is read once. -/
theorem wellLines_nodup (l : List WellRead) : (wellLines l).Nodup := by
  have grows (l : List WellRead) (acc : List (Nat × BitVec 4)) (h : acc.Nodup) :
      (l.foldl (fun acc q => if acc.contains q.place then acc else acc ++ [q.place]) acc).Nodup := by
    induction l generalizing acc with
    | nil => exact h
    | cons q l ih =>
      refine ih _ ?_
      dsimp only
      split
      · exact h
      · rename_i fresh
        exact List.nodup_append.mpr ⟨h, List.nodup_singleton _, fun a ha b hb e => fresh (by simp_all)⟩
  exact grows l [] List.nodup_nil

theorem mem_wellLines {l : List WellRead} {place : Nat × BitVec 4} : place ∈ wellLines l ↔ ∃ q ∈ l, q.place = place := by
  have grows (l : List WellRead) (acc : List (Nat × BitVec 4)) :
      place ∈ l.foldl (fun acc q => if acc.contains q.place then acc else acc ++ [q.place]) acc
        ↔ place ∈ acc ∨ ∃ q ∈ l, q.place = place := by
    induction l generalizing acc with
    | nil => simp
    | cons q l ih =>
      rw [List.foldl_cons, ih, List.exists_mem_cons_iff, ← or_assoc]
      refine or_congr_left ?_
      split
      · rename_i known
        have known : q.place ∈ acc := by simpa using known
        exact ⟨.inl, fun h => h.elim id fun e => e ▸ known⟩
      · rw [List.mem_append, List.mem_singleton, eq_comm]
  exact (grows l []).trans (by simp)

/-- The elements, line by line, are the elements. -/
theorem ofPlace_perm (places : List (Nat × BitVec 4)) (l : List WellRead) (nodup : places.Nodup)
    (covers : ∀ q ∈ l, q.place ∈ places) : (places.flatMap (ofPlace l)).Perm l := by
  induction places generalizing l with
  | nil =>
    obtain rfl : l = [] := List.eq_nil_iff_forall_not_mem.mpr fun q hq => by simpa using covers q hq
    exact .refl _
  | cons k places ih =>
    obtain ⟨fresh, nodup⟩ := List.nodup_cons.mp nodup
    let rest := l.filter fun q => !(q.place == k)
    have others : places.flatMap (ofPlace l) = places.flatMap (ofPlace rest) := by
      refine List.flatMap_congr fun j hj => ?_
      have differ : j ≠ k := fun e => fresh (e ▸ hj)
      rw [ofPlace, ofPlace, List.filter_filter]
      refine List.filter_congr fun q _ => ?_
      by_cases h : q.place = j <;> simp [h, differ]
    have mine := ih rest nodup fun q hq => by
      obtain ⟨hq, other⟩ := List.mem_filter.mp hq
      have := covers q hq
      simp_all
    rw [List.flatMap_cons, others]
    exact (mine.append_left _).trans (List.filter_append_perm _ l)

/-- The lines that remain, each in its turn. -/
theorem LinesDone.all {s t : State} {o : VOpd} {wlf drain : Bool} {l : List WellRead} {v₀ : Vector VReg 32}
    {done : List (Nat × BitVec 4)} (h : LinesDone s t o wlf drain l v₀ done) (own : OwnAligned s wlf l) (st : BitVec 4)
    (rest : List (Nat × BitVec 4)) (nodup : (done ++ rest).Nodup)
    (served : ∀ k ∈ rest, k.2 = s.myHall ∧ s.refusal s.who s.myHall (k.1 * 64) 64 drain = none ∧ (s.wellLine k.1).pois = false) :
    ∃ u, rest.foldl (wellStep o wlf drain l) (t, st) = (u, st) ∧ LinesDone s u o wlf drain l v₀ (done ++ rest) := by
  induction rest generalizing t done with
  | nil => exact ⟨t, rfl, by rwa [List.append_nil]⟩
  | cons k rest ih =>
    obtain ⟨line, frm⟩ := k
    obtain ⟨rfl, admitted, pois⟩ := served (line, frm) List.mem_cons_self
    have ahead : (line, s.myHall) ∉ done := fun hk =>
      List.disjoint_of_nodup_append nodup hk List.mem_cons_self
    obtain ⟨run, next⟩ := h.step own line st ahead admitted pois
    rw [List.append_cons] at nodup
    obtain ⟨u, rest_run, last⟩ := ih next nodup fun k hk => served k (List.mem_cons_of_mem _ hk)
    refine ⟨u, ?_, by rwa [List.append_cons]⟩
    rw [List.foldl_cons, run, rest_run]

/-! ## The effect -/

/-- Nothing of the elements fails, so all lines are read from the state that the checks leave. -/
theorem State.wellReadOp_served (s u : State) (v : VAccess) (o : VOpd) (wlf drain : Bool) (k : BitVec 3) (l : List WellRead)
    (checked : wellElems v o s.range s [] = (u, l, none))
    (served : ∀ q ∈ l, u.wellLate q.frm (q.pa / 64) drain = none) :
    s.wellReadOp v o wlf drain k =
      let r := (wellLines l).foldl (wellStep o wlf drain l) (u, 0#4)
      .ok ((r.1.issueVec k r.2 (s.activeAt v)).setVstart 0) := by
  have none_late : (if k = 0#3 then l.find? fun q => (u.wellLate q.frm (q.pa / 64) drain).isSome else none) = none := by
    split
    · exact List.find?_eq_none.mpr fun q hq => by simp [served q hq]
    · rfl
  simp only [State.wellReadOp, checked, none_late]
  rfl

/-- Elements in one page of wells on lines that serve the hart. -/
structure WellsServe (s : State) (v : VAccess) (wlf drain : Bool) (page : Nat) (addr : Nat → Word) (x : Nat → Xl) (e : Nat) : Prop where
  lies : s.LiesAt v.per page v.size v.kind v.ok e (addr e) (x e)
  wells : wellClasses (x e).cls = true
  admitted : s.refusal s.who s.myHall ((x e).pa / 64 * 64) 64 drain = none
  pois : (s.wellLine ((x e).pa / 64)).pois = false

/-- The value that element e receives: that of its well where it is active, and otherwise zero. -/
def wellResult (s : State) (v : VAccess) (wlf : Bool) (addr : Nat → Word) (x : Nat → Xl) (e : Nat) : Nat :=
  if s.active v.sel v.per e then (readOf s addr x e).value s wlf else 0

/-- The elements in the order in which their lines are read, after those that become zero, give the registers that the elements in
ascending order give. -/
theorem wellVectors (s : State) (v : VAccess) (d : BitVec 5) (w : Nat) (wlf : Bool) (addr : Nat → Word) (x : Nat → Xl)
    (holds : 0 < s.hart.vl → 0 < s.perPos (vreg d w)) (v₀ : Vector VReg 32)
    (zeroed : v₀ = (if v.zero then (upTo s.hart.vstart s.hart.vl).filter fun e => !s.active v.sel v.per e else []).foldl
      (fun r e => s.regsWith (vreg d w) r e 0) s.hart.v) (reads : List WellRead)
    (perm : reads.Perm ((activeElems s v.sel v.per).map (readOf s addr x))) :
    reads.foldl (fun r q => s.regsWith (vreg d w) r q.e (q.value s wlf)) v₀
      = ((upTo s.hart.vstart s.hart.vl).filter fun e => s.active v.sel v.per e || v.zero).foldl
          (fun r e => s.regsWith (vreg d w) r e (wellResult s v wlf addr x e)) s.hart.v := by
  let range := upTo s.hart.vstart s.hart.vl
  let offs := if v.zero then range.filter fun e => !s.active v.sel v.per e else []
  have off_zero : v₀ = offs.foldl (fun r e => s.regsWith (vreg d w) r e (wellResult s v wlf addr x e)) s.hart.v := by
    rw [zeroed]
    refine List.foldl_ext _ _ _ fun r e he => ?_
    have off : s.active v.sel v.per e = false := by
      cases h : v.zero <;> simp_all
    rw [wellResult, off, if_neg Bool.false_ne_true]
  have on_value : reads.foldl (fun r q => s.regsWith (vreg d w) r q.e (q.value s wlf)) v₀
      = (reads.map (·.e)).foldl (fun r e => s.regsWith (vreg d w) r e (wellResult s v wlf addr x e)) v₀ := by
    rw [List.foldl_map]
    refine List.foldl_ext _ _ _ fun r q hq => ?_
    obtain ⟨e, he, rfl⟩ := List.mem_map.mp (perm.mem_iff.mp hq)
    have on : s.active v.sel v.per e = true := (List.mem_filter.mp he).2
    rw [wellResult, show (readOf s addr x e).e = e from rfl, on, if_pos rfl]
  have elements : (reads.map (·.e)).Perm (activeElems s v.sel v.per) := by
    have e := perm.map (·.e)
    rwa [List.map_map, show ((·.e) ∘ readOf s addr x) = id from rfl, List.map_id] at e
  have all : (offs ++ reads.map (·.e)).Perm (range.filter fun e => s.active v.sel v.per e || v.zero) := by
    refine (elements.append_left offs).trans ?_
    cases h : v.zero with
    | false => simp [offs, h, activeElems, range]
    | true => simpa [offs, h, activeElems, range] using
        List.perm_append_comm.trans (List.filter_append_perm (fun e => s.active v.sel v.per e) range)
  rw [on_value, off_zero, ← List.foldl_append]
  refine s.regsWith_perm d w _ all (fun e he => holds ?_) _
  have inside := (List.mem_filter.mp (all.mem_iff.mp he)).1
  simp only [range, upTo, List.mem_map, List.mem_range] at inside
  obtain ⟨i, hi, -⟩ := inside
  omega

/-- The effect of WREAD and WDRAIN where the elements lie in one page of wells. -/
theorem State.wellReadOp_page {s u : State} {v : VAccess} {d : BitVec 5} {w : Nat} {wlf drain : Bool} (k : BitVec 3) {page : Nat}
    {addr : Nat → Word} {x : Nat → Xl} (ra : s.ra = none) (idle : s.hart.posted = []) (uncut : s.hart.cut = none)
    (wf : Memory.wf s.mem = true) (data : v.kind ≠ .fetch) (size : v.size = wellSlot wlf)
    (same : s.SamePage u s.myHall page) (holds : 0 < s.hart.vl → 0 < s.perPos (vreg d w))
    (known : ∀ e ∈ upTo s.hart.vstart s.hart.vl, s.active v.sel v.per e = true → v.addr e = some (addr e))
    (serve : ∀ e ∈ upTo s.hart.vstart s.hart.vl, s.active v.sel v.per e = true → WellsServe s v wlf drain page addr x e) :
    ∃ t, u.wellReadOp v (vreg d w) wlf drain k = .ok ((t.issueVec k 0#4 (u.activeAt v)).setVstart 0) ∧ s.Filled t
      ∧ t.hart.v = ((upTo s.hart.vstart s.hart.vl).filter fun e => s.active v.sel v.per e || v.zero).foldl
          (fun r e => s.regsWith (vreg d w) r e (wellResult s v wlf addr x e)) s.hart.v
      ∧ ∀ a, Memory.read t.mem a = if drain = true ∧ ∃ e ∈ activeElems s v.sel v.per, (x e).pa ≤ a ∧ a < (x e).pa + wellSlot wlf
          then 0#8 else Memory.read s.mem a := by
  let o := vreg d w
  let l := (activeElems s v.sel v.per).map (readOf s addr x)
  have each : ∀ e ∈ activeElems s v.sel v.per, WellsServe s v wlf drain page addr x e := fun e he => by
    obtain ⟨he, on⟩ := List.mem_filter.mp he
    exact serve e he on
  have divides : wellSlot wlf ∣ 65536 := by cases wlf <;> decide
  have own : OwnAligned s wlf l := by
    intro q hq
    obtain ⟨e, he, rfl⟩ := List.mem_map.mp hq
    have h := each e he
    exact ⟨rfl, size ▸ h.lies.place_aligned h.wells (size ▸ divides)⟩
  obtain ⟨first, loading, checked, vectors⟩ := wellElems_page s ra idle v o page data addr x _ known
    (fun e he on => (serve e he on).lies) u [] same.loading
  obtain ⟨⟨tlb, walks, rfl⟩, -⟩ := same
  obtain ⟨⟨v₀, hwm, tlb', walks', rfl⟩, -⟩ := loading
  have start : LinesDone s (s.wearing { s.hart with v := v₀, hwm := hwm } tlb' walks') o wlf drain l v₀ [] :=
    { filled := ⟨v₀, hwm, _, _, _, _, _, rfl⟩, gates := rfl, wf := wf, header := fun _ _ => rfl
      mem := fun a => by simp; rfl
      regs := rfl }
  obtain ⟨t, run, lines⟩ := start.all own 0#4 (wellLines l) (wellLines_nodup l) fun k hk => by
    obtain ⟨q, hq, rfl⟩ := mem_wellLines.mp hk
    obtain ⟨e, he, rfl⟩ := List.mem_map.mp hq
    exact ⟨rfl, (each e he).admitted, (each e he).pois⟩
  refine ⟨t, ?_, lines.filled, ?_, fun a => ?_⟩
  · have late : ∀ q ∈ l, (s.wearing { s.hart with v := v₀, hwm := hwm } tlb' walks').wellLate q.frm (q.pa / 64) drain = none := by
      intro q hq
      obtain ⟨e, he, rfl⟩ := List.mem_map.mp hq
      have admitted : (s.wearing { s.hart with v := v₀, hwm := hwm } tlb' walks').refusal
          (s.wearing { s.hart with v := v₀, hwm := hwm } tlb' walks').who s.myHall ((x e).pa / 64 * 64) 64 drain = none :=
        (each e he).admitted
      have pois : ((s.wearing { s.hart with v := v₀, hwm := hwm } tlb' walks').wellLine ((x e).pa / 64)).pois = false :=
        (each e he).pois
      rw [State.wellLate, readOf, admitted, pois]
      rfl
    rw [State.wellReadOp_served (s.caching tlb walks) _ v o wlf drain k l
      (by rw [State.range_uncut (s.caching tlb walks) uncut]; exact checked) late, run]
  · rw [lines.regs]
    exact wellVectors s v d w wlf addr x holds v₀ vectors _
      (ofPlace_perm _ l (wellLines_nodup l) fun q hq => mem_wellLines.mpr ⟨q, hq, rfl⟩)
  · rw [lines.mem]
    have same : (∃ q ∈ l, q.place ∈ [] ++ wellLines l ∧ q.pa ≤ a ∧ a < q.pa + wellSlot wlf)
        ↔ ∃ e ∈ activeElems s v.sel v.per, (x e).pa ≤ a ∧ a < (x e).pa + wellSlot wlf := by
      constructor
      · rintro ⟨q, hq, -, inside⟩
        obtain ⟨e, he, rfl⟩ := List.mem_map.mp hq
        exact ⟨e, he, inside⟩
      · rintro ⟨e, he, inside⟩
        have hq : readOf s addr x e ∈ l := List.mem_map_of_mem he
        exact ⟨_, hq, mem_wellLines.mpr ⟨_, hq, rfl⟩, inside⟩
    simp only [same]

end Sys2Proof.Machine

/-! # Wells (O33) -/

namespace Sys2Proof.Machine

/-- The access of WREAD and WDRAIN: elements of the class of the base. -/
def readAccess (s u : State) (p : Option Pfx) (a : BitVec 5) (m : BitVec 3) (o : VOpd) (cls : Option Class) : VAccess :=
  { sel := s.maskSel p m, per := u.perPos o, zero := s.zeroing p, size := slotBytes cls, ok := fun x => some x == cls, kind := .load,
    win := false, addr := fun e => if cls.isNone then none else some (s.g a + BitVec.ofNat 64 (e * slotBytes cls)) }

/-- WREAD and WDRAIN, once their checks and their base have passed and their counter has room. -/
theorem wellReader_reads {s u : State} {p : Option Pfx} {d a : BitVec 5} {m k : BitVec 3} {cls : Option Class} (drain : Bool)
    (checks : VecOk s true [vreg d 32] [] false) (ra : s.ra = none) (counter : s.counterFull k = false)
    (base : baseChecked s .load a (s.maskSel p m) (s.perPos (vreg d 32)) u cls) :
    wellReader drain p d a m k s
      = finishMem p (u.wellReadOp (readAccess s u p a m (vreg d 32) cls) (vreg d 32) (cls == some .wlf) drain k) := by
  obtain ⟨tlb, walks, rfl⟩ := baseChecked_caching (by decide) base
  let u := s.caching tlb walks
  have access : (u.wellAccess p m (vreg d 32) .load cls fun slot => u.stepAddr a (fun e => BitVec.ofNat 64 (e * slot)) fun _ => false)
      = readAccess s u p a m (vreg d 32) cls := by
    have addrs (n e : Nat) : u.stepAddr a (fun e => BitVec.ofNat 64 (e * n)) (fun _ => false) e = some (s.g a + BitVec.ofNat 64 (e * n)) :=
      u.stepAddr_known ra a _ _ (fun _ => rfl) e
    simp only [State.wellAccess, slotBytes_eq, addrs]
    rfl
  have wlf : (slotBytes cls == 4) = (cls == some .wlf) := by
    unfold slotBytes
    by_cases h : cls = some .wlf <;> simp [h]
  have waits (v : VAccess) := u.issueWaits_false k false v (u.firstActive v) counter fun h => absurd h Bool.false_ne_true
  simp only [wellReader]
  rw [checks.vecCheck]
  simp only [bind, Except.bind, s.wellBase_checked ra checks.2.2.2 base, issueOp]
  refine (if_neg (Bool.eq_false_iff.mp (waits _))).trans ?_
  rw [access]
  exact congrArg (fun b => finishMem p (u.wellReadOp (readAccess s u p a m (vreg d 32) cls) (vreg d 32) b drain k)) wlf

/-! ## Where the elements lie in one page of wells -/

/-- The registers after elements processed in order. -/
theorem rangeDone_v (s : State) (o : VOpd) (act : Nat → Bool) (zero : Bool) (value : Nat → Nat) :
    (rangeDone s fun u e => if act e then u.setElem o e (value e) else if zero then u.setElem o e 0 else u).hart.v
      = ((upTo s.hart.vstart s.hart.vl).filter fun e => act e || zero).foldl
          (fun r e => s.regsWith o r e (if act e then value e else 0)) s.hart.v := by
  have each (l : List Nat) (t : State) (layout : t.hart.vlmaxb = s.hart.vlmaxb) :
      (l.foldl (fun u e => if act e then u.setElem o e (value e) else if zero then u.setElem o e 0 else u) t).hart.v
        = (l.filter fun e => act e || zero).foldl (fun r e => s.regsWith o r e (if act e then value e else 0)) t.hart.v := by
    induction l generalizing t with
    | nil => rfl
    | cons e l ih =>
      have written (y : Nat) : (t.setElem o e y).hart.v = s.regsWith o t.hart.v e y := s.setElem_v t o e y layout
      have next (y : Nat) := ih (t.setElem o e y) layout
      rw [List.foldl_cons, List.filter_cons]
      cases on : act e with
      | true => simp [next, written, on]
      | false =>
        cases zero with
        | true => simpa [on, written] using next 0
        | false => simpa [on] using ih t layout
  exact each _ s rfl

/-- What a read gives for a place in a page of wells of a class, as FP32 bits (R38, R169). -/
def wellResultAt (s : State) (cls : Class) (pa : Nat) : Nat :=
  let old := leNat (s.bytes pa (slotBytes (some cls)))
  let w := s.wellLine (pa / 64)
  if cls = .wlf then old else wlxRead w.e.toInt (toSigned 64 old) w.ov w.nan

/-- The element of a line is the place where it stands. -/
theorem wellResultAt_eq (s : State) (cls : Class) (pa : Nat) (aligned : pa % wellSlot (some cls == some Class.wlf) = 0) :
    s.wellValue (some cls == some Class.wlf) (pa / 64) (pa % 64 / wellSlot (some cls == some Class.wlf)) = wellResultAt s cls pa := by
  rw [State.wellValue_eq, State.wellElem, wellPa_of_place _ pa aligned, slotBytes_eq, wellResultAt]
  by_cases h : cls = .wlf <;> simp [h]

/-- WREAD and WDRAIN whose elements lie in one page of wells complete with the values of their lines. -/
theorem wellReader_done {s : State} {p : Option Pfx} {d a : BitVec 5} {m k : BitVec 3} {cls : Class} {x : Nat → Xl} (drain : Bool)
    (checks : VecOk s true [vreg d 32] [] false) (counter : s.counterFull k = false) (settled : Settled s)
    (wf : Memory.wf s.mem = true)
    (lie : WellsLie s (activeElems s (s.maskSel p m) (s.perPos (vreg d 32))) (s.perPos (vreg d 32)) .load (s.g a) (slotBytes (some cls))
      cls (fun e => s.g a + BitVec.ofNat 64 (e * slotBytes (some cls))) x drain) :
    let els := activeElems s (s.maskSel p m) (s.perPos (vreg d 32))
    let n := slotBytes (some cls)
    let value e := wellResultAt s cls (x e).pa
    ∃ t, wellReader drain p d a m k s = .next t ∧ VectorDone s t p
      ∧ t.hart.v = (rangeDone s fun u e => if s.active (s.maskSel p m) (s.perPos (vreg d 32)) e then u.setElem (vreg d 32) e (value e)
          else if s.zeroing p then u.setElem (vreg d 32) e 0 else u).hart.v
      ∧ ∀ a', Memory.read t.mem a' = if drain = true ∧ ∃ e ∈ els, (x e).pa ≤ a' ∧ a' < (x e).pa + n then 0#8
          else Memory.read s.mem a' := by
  intro els n value
  obtain ⟨ra, idle, -, -⟩ := settled
  have uncut : s.hart.cut = none := checks.2.2.2
  obtain ⟨u, c, base, page, same⟩ := lie.base (by decide)
  have run := wellReader_reads drain checks ra counter base
  let v := readAccess s u p a m (vreg d 32) c
  have per : u.perPos (vreg d 32) = s.perPos (vreg d 32) ∧ u.activeAt v = activePositions s (s.maskSel p m) (s.perPos (vreg d 32)) := by
    obtain ⟨⟨tlb, walks, rfl⟩, -⟩ := page
    exact ⟨rfl, State.activeAt_eq _ ra uncut v⟩
  have active (e : Nat) : s.active v.sel v.per e = s.active (s.maskSel p m) (s.perPos (vreg d 32)) e :=
    congrArg (fun n => s.active (s.maskSel p m) n e) per.1
  have known : ∀ e ∈ upTo s.hart.vstart s.hart.vl, s.active v.sel v.per e = true →
      v.addr e = some (s.g a + BitVec.ofNat 64 (e * slotBytes c)) := by
    intro e he on
    rw [active] at on
    obtain rfl : c = some cls := same (List.ne_nil_of_mem (mem_activeElems he on))
    rfl
  have serve : ∀ e ∈ upTo s.hart.vstart s.hart.vl, s.active v.sel v.per e = true →
      WellsServe s v (c == some .wlf) drain (pageOf (s.g a)) (fun e => s.g a + BitVec.ofNat 64 (e * slotBytes c)) x e := by
    intro e he on
    rw [active] at on
    have mem := mem_activeElems he on
    obtain rfl : c = some cls := same (List.ne_nil_of_mem mem)
    have lies := lie.at (fun x => some x == some cls) (beq_self_eq_true _) e he on
    obtain ⟨wells, each, -⟩ := lie
    obtain ⟨-, -, -, here, admitted, pois, -, -⟩ := each e mem
    refine ⟨?_, by rw [here]; exact wells, admitted, pois⟩
    rw [show v.per = s.perPos (vreg d 32) from per.1]
    exact lies
  obtain ⟨t, effect, filled, regs, mem⟩ := State.wellReadOp_page (d := d) (w := 32) k ra idle uncut wf
    (show Kind.load ≠ .fetch by decide) (slotBytes_eq c).symm page checks.holds known serve
  rw [effect, per.2] at run
  obtain ⟨k', ops, hart⟩ := t.issueVec_hart k 0#4 (activePositions s (s.maskSel p m) (s.perPos (vreg d 32)))
  have ended : (((t.issueVec k 0#4 (activePositions s (s.maskSel p m) (s.perPos (vreg d 32)))).setVstart 0).retire (pfxLen p)).hart
      = { t.hart with k := k', vops := ops, vstart := 0, pc := t.hart.pc + pfxLen p, transfer := false } := by
    rw [State.retire_hart, State.setVstart, hart]
  refine ⟨_, run, ⟨?_, ?_, fun j => ?_⟩, ?_, fun a' => ?_⟩
  · obtain ⟨_, _, _, _, _, _, _, kept⟩ := filled
    rw [ended, kept]
  · rw [ended]
  · obtain ⟨_, _, _, _, _, _, _, kept⟩ := filled
    rw [State.g, State.g, ended, kept]
  · rw [ended, rangeDone_v]
    refine regs.trans ?_
    simp only [active]
    refine List.foldl_ext _ _ _ fun r e he => congrArg (s.regsWith (vreg d 32) r e) ?_
    rw [wellResult, active]
    by_cases on : s.active (s.maskSel p m) (s.perPos (vreg d 32)) e = true
    · obtain rfl : c = some cls := same (List.ne_nil_of_mem (mem_activeElems (List.mem_filter.mp he).1 on))
      have inPage := serve e (List.mem_filter.mp he).1 ((active e).trans on)
      rw [if_pos on, if_pos on]
      exact wellResultAt_eq s cls (x e).pa (slotBytes_eq (some cls) ▸ inPage.lies.place_aligned inPage.wells (by
        show slotBytes (some cls) ∣ 65536
        unfold slotBytes
        split <;> decide))
    · rw [if_neg on, if_neg on]
  · rw [State.retire_mem, State.setVstart, State.issueVec_mem, mem]
    have places : (∃ e ∈ activeElems s v.sel v.per, (x e).pa ≤ a' ∧ a' < (x e).pa + wellSlot (c == some .wlf))
        ↔ ∃ e ∈ els, (x e).pa ≤ a' ∧ a' < (x e).pa + n := by
      rw [show v.per = s.perPos (vreg d 32) from per.1]
      refine exists_congr fun e => and_congr_right fun he => ?_
      obtain rfl : c = some cls := same (List.ne_nil_of_mem he)
      rw [slotBytes_eq]
    simp only [places]

theorem wellsRead : WellsRead := by
  intro p d a m k s o sel per els reads
  have read (i : Instr) (drain : Bool) (run : exec i s = wellReader drain p d a m k s) : reads i drain := by
    intro checks ra counter
    refine ⟨fun u cls base => ?_, fun cls x settled wf => ?_⟩
    · intro n v
      have reader := run.trans (wellReader_reads drain checks ra counter base)
      refine ⟨fun t effect => ?_, fun t r effect => ?_⟩
      · rw [reader, show State.wellReadOp u (readAccess s u p a m (vreg d 32) cls) _ _ drain k = .ok t from effect]
        rfl
      · rw [reader, show State.wellReadOp u (readAccess s u p a m (vreg d 32) cls) _ _ drain k = .error (r, t) from effect]
        rfl
    · intro n lie old w value
      rw [run]
      exact wellReader_done drain checks counter settled wf lie
  exact ⟨read _ false rfl, read _ true rfl⟩

/-- Settles O33: `wellsPost`, from the elements that pass in one page (`elementsPosted_of_page`) and what performing requests leaves
of the hart (`issueReqs_wearing`); `wellLineSteps`; and `wellsRead`, whose lines are read one after another (`LinesDone.all`). -/
theorem wells : Obligations.Wells := ⟨wellsPost, wellLineSteps, wellsRead⟩

end Sys2Proof.Machine

/-! # Words of instructions (R59 to R69) -/

namespace Sys2Proof.Laws.ReadsBack

/-- One row of Table 4.6 after another; an event has no word. -/
theorem readsBack : ∀ i : Instr, Statement i
  | .add .. => add _ _ _ | .sub .. => sub _ _ _ | .and .. => and _ _ _ | .or .. => or _ _ _ | .xor .. => xor _ _ _
  | .andn .. => andn _ _ _ | .orn .. => orn _ _ _ | .sll .. => sll _ _ _ | .srl .. => srl _ _ _ | .sra .. => sra _ _ _
  | .rol .. => rol _ _ _ | .ror .. => ror _ _ _ | .slt .. => slt _ _ _ | .sltn .. => sltn _ _ _ | .min .. => min _ _ _
  | .max .. => max _ _ _ | .minn .. => minn _ _ _ | .maxn .. => maxn _ _ _ | .mul .. => mul _ _ _ | .mulh .. => mulh _ _ _
  | .mulhn .. => mulhn _ _ _ | .div .. => div _ _ _ | .divn .. => divn _ _ _ | .rem .. => rem _ _ _ | .remn .. => remn _ _ _
  | .clz .. => clz _ _ | .ctz .. => ctz _ _ | .popc .. => popc _ _ | .bswp .. => bswp _ _ | .sext .. => sext _ _ _
  | .zext .. => zext _ _ _ | .selnz .. => selnz _ _ _ | .addi .. => addi _ _ _ | .andi .. => andi _ _ _ | .ori .. => ori _ _ _
  | .xori .. => xori _ _ _ | .slli .. => slli _ _ _ | .srli .. => srli _ _ _ | .srai .. => srai _ _ _ | .rori .. => rori _ _ _
  | .slti .. => slti _ _ _ | .sltni .. => sltni _ _ _ | .ldhi .. => ldhi _ _ | .addpc .. => addpc _ _ | .ldb .. => ldb _ _ _
  | .ldbn .. => ldbn _ _ _ | .ldh .. => ldh _ _ _ | .ldhn .. => ldhn _ _ _ | .ldw .. => ldw _ _ _ | .ldwn .. => ldwn _ _ _
  | .ldd .. => ldd _ _ _ | .stb .. => stb _ _ _ | .sth .. => sth _ _ _ | .stw .. => stw _ _ _ | .std .. => std _ _ _
  | .beq .. => beq _ _ _ | .bne .. => bne _ _ _ | .blt .. => blt _ _ _ | .bge .. => bge _ _ _ | .bltn .. => bltn _ _ _
  | .bgen .. => bgen _ _ _ | .jal .. => jal _ | .jalr .. => jalr _ _ _ | .fadd .. => fadd _ _ _ _ _ | .fsub .. => fsub _ _ _ _ _
  | .fmul .. => fmul _ _ _ _ _ | .fdiv .. => fdiv _ _ _ _ _ | .fsqrt .. => fsqrt _ _ _ _ | .fma .. => fma _ _ _ _ _
  | .fmin .. => fmin _ _ _ _ | .fmax .. => fmax _ _ _ _ | .feq .. => feq _ _ _ _ | .flt .. => flt _ _ _ _ | .fle .. => fle _ _ _ _
  | .fclass .. => fclass _ _ _ | .fcvtff .. => fcvtff _ _ _ _ | .fcvti .. => fcvti _ _ _ _ | .fcvtn .. => fcvtn _ _ _ _
  | .fcvtw .. => fcvtw _ _ _ _ | .fcvtwn .. => fcvtwn _ _ _ _ | .fcvtif .. => fcvtif _ _ _ _ | .fcvtnf .. => fcvtnf _ _ _ _
  | .fsgn .. => fsgn _ _ _ _ | .fsgnn .. => fsgnn _ _ _ _ | .fsgnx .. => fsgnx _ _ _ _ | .amoadd .. => amoadd _ _ _ _ _ _ _
  | .amoand .. => amoand _ _ _ _ _ _ _ | .amoor .. => amoor _ _ _ _ _ _ _ | .amoxor .. => amoxor _ _ _ _ _ _ _
  | .amomin .. => amomin _ _ _ _ _ _ _ | .amomax .. => amomax _ _ _ _ _ _ _ | .amominn .. => amominn _ _ _ _ _ _ _
  | .amomaxn .. => amomaxn _ _ _ _ _ _ _ | .amoswp .. => amoswp _ _ _ _ _ _ _ | .amofadd .. => amofadd _ _ _ _ _ _ _
  | .cas .. => cas _ _ _ _ _ _ _ | .cas2 .. => cas2 _ _ _ _ _ _ | .lda .. => lda _ _ _ _ | .strel .. => strel _ _ _ _
  | .fence .. => fence _ _ _ | .vdrain .. => vdrain _ _ _ _ | .barinit .. => barinit _ _ _ | .barjoin .. => barjoin _
  | .barleave .. => barleave _ | .bararr .. => bararr _ _ | .barwait .. => barwait _ _ _ | .barsyn .. => barsyn _ _
  | .kwait .. => kwait _ | .krd .. => krd _ _ | .kset .. => kset _ _ _ | .kstat .. => kstat _ _ | .pause => pause | .yield => yield
  | .watch .. => watch _ _ _ | .unwatch .. => unwatch _ _ | .vwarm .. => vwarm _ _ _ _ | .waitany .. => waitany _ _ _
  | .phase .. => phase _ | .launch .. => launch _ _ _ _ | .cancel .. => cancel _ _ _ | .exit .. => exit _ _ | .trap .. => trap _ _
  | .eret => eret | .srd .. => srd _ _ _ | .swr .. => swr _ _ _ _ | .sset .. => sset _ _ _ _ | .sclr .. => sclr _ _ _ _
  | .svc .. => svc _ _ | .linewb .. => linewb _ | .lineinv .. => lineinv _ | .tlbsh .. => tlbsh _ _ _ | .fencei => fencei | .wfi => wfi
  | .halt => halt | .vclaim .. => vclaim _ _ _ _ | .vrel .. => vrel _ | .setvl .. => setvl _ _ _ | .setvm .. => setvm _ _ _ _
  | .vspill .. => vspill _ _ _ | .vfill .. => vfill _ _ _ | .zspill .. => zspill _ _ _ | .zfill .. => zfill _ _ _ | .vadd .. => vadd _
  | .vsub .. => vsub _ | .vrsub .. => vrsub _ | .vmul .. => vmul _ | .vmulh .. => vmulh _ | .vmulhn .. => vmulhn _ | .vdiv .. => vdiv _
  | .vdivn .. => vdivn _ | .vrem .. => vrem _ | .vremn .. => vremn _ | .vmin .. => vmin _ | .vmax .. => vmax _ | .vminn .. => vminn _
  | .vmaxn .. => vmaxn _ | .vand .. => vand _ | .vor .. => vor _ | .vxor .. => vxor _ | .vsll .. => vsll _ | .vsrl .. => vsrl _
  | .vsra .. => vsra _ | .vcmpeq .. => vcmpeq _ | .vcmpne .. => vcmpne _ | .vcmplt .. => vcmplt _ | .vcmple .. => vcmple _
  | .vcmpltn .. => vcmpltn _ | .vcmplen .. => vcmplen _ | .vmerge .. => vmerge _ | .vmv .. => vmv _ | .vbcast .. => vbcast _ _ _ _
  | .vid .. => vid _ _ _ | .vext .. => vext _ _ _ _ _ | .vins .. => vins _ _ _ _ | .vwmul .. => vwmul _ | .vwadd .. => vwadd _
  | .vfadd .. => vfadd _ | .vfsub .. => vfsub _ | .vfmul .. => vfmul _ | .vfdiv .. => vfdiv _ | .vfsqrt .. => vfsqrt _
  | .vfma .. => vfma _ | .vfms .. => vfms _ | .vfnma .. => vfnma _ | .vfmin .. => vfmin _ | .vfmax .. => vfmax _ | .vfabs .. => vfabs _
  | .vfneg .. => vfneg _ | .vfcmpeq .. => vfcmpeq _ | .vfcmplt .. => vfcmplt _ | .vfcmple .. => vfcmple _ | .vfclass .. => vfclass _
  | .vfrcp .. => vfrcp _ | .vfrsq .. => vfrsq _ | .vfex2 .. => vfex2 _ | .vflg2 .. => vflg2 _ | .vftnh .. => vftnh _
  | .vfsig .. => vfsig _ | .vfexp .. => vfexp _ | .vfscl .. => vfscl _ | .vcvt .. => vcvt _ _ _ _ _ _ | .vcvtef .. => vcvtef _ _ _ _ _ _
  | .vftoi .. => vftoi _ _ _ _ _ _ | .vitof .. => vitof _ _ _ _ _ _ | .vredsum .. => vredsum _ | .vredmin .. => vredmin _
  | .vredmax .. => vredmax _ | .vredminn .. => vredminn _ | .vredmaxn .. => vredmaxn _ | .vredand .. => vredand _
  | .vredor .. => vredor _ | .vredxor .. => vredxor _ | .vfredsum .. => vfredsum _ | .vfredmin .. => vfredmin _
  | .vfredmax .. => vfredmax _ | .vscan .. => vscan _ | .vscanx .. => vscanx _ | .vfscan .. => vfscan _ | .vslup .. => vslup _ _ _ _ _ _
  | .vsldn .. => vsldn _ _ _ _ _ _ | .vperm .. => vperm _ | .vpack .. => vpack _ | .vunpack .. => vunpack _
  | .vxchg .. => vxchg _ _ _ _ _ _ | .vrev .. => vrev _ | .mand .. => mand _ _ _ _ | .mor .. => mor _ _ _ _ | .mxor .. => mxor _ _ _ _
  | .mandn .. => mandn _ _ _ _ | .mnot .. => mnot _ _ _ | .mset .. => mset _ _ | .mclr .. => mclr _ _ | .mpop .. => mpop _ _ _ _
  | .mfirst .. => mfirst _ _ _ _ | .mfromv .. => mfromv _ _ _ _ _ | .mtov .. => mtov _ _ _ _ | .msbf .. => msbf _ _ _ _
  | .vld .. => vld _ _ _ _ _ _ | .vlds .. => vlds _ _ _ _ _ _ _ | .vldx .. => vldx _ _ _ _ _ _ _ _ | .vldff .. => vldff _ _ _ _ _
  | .vst .. => vst _ _ _ _ _ _ _ | .vsts .. => vsts _ _ _ _ _ _ _ _ | .vstx .. => vstx _ _ _ _ _ _ _ _ | .vamoadd .. => vamoadd _
  | .vamoand .. => vamoand _ | .vamoor .. => vamoor _ | .vamoxor .. => vamoxor _ | .vamomin .. => vamomin _ | .vamomax .. => vamomax _
  | .vamominn .. => vamominn _ | .vamomaxn .. => vamomaxn _ | .vamofadd .. => vamofadd _ | .vamofmin .. => vamofmin _
  | .vamofmax .. => vamofmax _ | .vamoswp .. => vamoswp _ | .vapnd .. => vapnd _ _ _ _ _ _ _ | .sealPage .. => sealPage _ _ _ _
  | .inktail .. => inktail _ _ _ | .winit .. => winit _ _ _ _ _ _ | .wdep .. => wdep _ _ _ _ _ _ | .wdepx .. => wdepx _ _ _ _ _ _ _
  | .wread .. => wread _ _ _ _ _ | .wdrain .. => wdrain _ _ _ _ _ | .olgath .. => olgath _ _ _ _ _ _ | .zrank .. => zrank _ _ _ _ _ _ _
  | .mblk .. => mblk _ _ _ | .zzero .. => zzero _ _ | .zread .. => zread _ _ _ _ _ | .zwrite .. => zwrite _ _ _ _ _ _
  | .zdep .. => zdep _ _ _ _ _ | .zdim .. => zdim _ _ | .copy .. => copy _ _ _ _ _ | .coll .. => coll _ _ _ _ _ _
  | .flight .. => flight _ _ _ _ _ _ | .ixg .. => ixg _ _ _ _ _ | .rowin .. => rowin _ _ _ _ _ | .rowout .. => rowout _
  | .storeErrorResponse .. => storeErrorResponse _ | .storeErrorTrap => storeErrorTrap
  | .vectorMemoryCompletion .. => vectorMemoryCompletion _ | .tailUnitAppend .. => tailUnitAppend _ _ _
  | .sealRequest .. => sealRequest _ | .sealingComplete .. => sealingComplete _ | .wellLineStep .. => wellLineStep _
  | .wellLineFill .. => wellLineFill _ _ | .wellLineEvict .. => wellLineEvict _ | .wellLineWriteback .. => wellLineWriteback _ _
  | .inkPageFree .. => inkPageFree _ | .inkFreeDrainDone .. => inkFreeDrainDone _ | .replicaCreate .. => replicaCreate _ _
  | .replicaCopyDone .. => replicaCopyDone _ _ | .replicaReclaim .. => replicaReclaim _ _
  | .replicaReclaimDone .. => replicaReclaimDone _ _ | .engineCommandCompletion .. => engineCommandCompletion _
  | .rowinFillDone .. => rowinFillDone _ | .waitEntryFire .. => waitEntryFire _ | .landingTrigger .. => landingTrigger _ _
  | .landingAction .. => landingAction _ _ | .barrierWaitEnd => barrierWaitEnd | .kwaitEnd => kwaitEnd | .waitanyEnd => waitanyEnd
  | .wfiWake => wfiWake | .phaseComplete .. => phaseComplete _ _ | .pauseExpiry => pauseExpiry | .unitKill .. => unitKill _ _ _
  | .dispatcherStep .. => dispatcherStep _ | .preemptionTimeout .. => preemptionTimeout _ _ _
  | .launchAdmission .. => launchAdmission _ _ | .launchCompletion .. => launchCompletion _ _ | .ageBoost .. => ageBoost _ _
  | .qptrTailWrite .. => qptrTailWrite _ _ _ | .qcfgWrite .. => qcfgWrite _ _ _ | .contextSave .. => contextSave _ _ _
  | .resumption .. => resumption _ _ _ _ _ | .faultRunAheadStop .. => faultRunAheadStop _ | .spanPositionLost .. => spanPositionLost _
  | .lanePoolCapWrite .. => lanePoolCapWrite _ _ _ | .trfctlClear .. => trfctlClear _ | .trfctlFreeze .. => trfctlFreeze _ _
  | .fqrespRetry .. => fqrespRetry _ _ | .fqrespForward .. => fqrespForward _ _ | .fqrespComplete .. => fqrespComplete _ _
  | .shootctlGo .. => shootctlGo _ _ _ | .shootdownDone .. => shootdownDone _ | .hownWrite .. => hownWrite _ _
  | .hallWarmReset .. => hallWarmReset _ | .hallForcedReset .. => hallForcedReset _ | .hallRelease .. => hallRelease _
  | .hallFence .. => hallFence _ _ | .hallHangTimeout .. => hallHangTimeout _ | .gwctlWrite .. => gwctlWrite _ _ _
  | .galleryRevokeDrainDone .. => galleryRevokeDrainDone _ _ | .violationLogClear .. => violationLogClear _ | .vfReset .. => vfReset _
  | .vfResetFlitTimeout .. => vfResetFlitTimeout _ _ | .vfResetComplete .. => vfResetComplete _ | .vfvcapWrite .. => vfvcapWrite _ _
  | .portcfgGuarWrite .. => portcfgGuarWrite _ _ _ | .hostPortTrain .. => hostPortTrain _ _ _ _ _ _ | .hostPortDown .. => hostPortDown _
  | .hostSnoop .. => hostSnoop _ _ | .hostCxlMemRequest .. => hostCxlMemRequest _ _ _ | .collArming .. => collArming _
  | .splitFlit .. => splitFlit _ | .abortFlit .. => abortFlit _ _ | .rruContribution .. => rruContribution _ _ _
  | .flightTransfer .. => flightTransfer _ _ | .pathWeightMeasure .. => pathWeightMeasure _ | .wavelengthDark .. => wavelengthDark _ _
  | .relayEstablished .. => relayEstablished _ _ | .pathLost .. => pathLost _ _ | .wavelengthRelit .. => wavelengthRelit _ _
  | .ixgRemoteRowRequest .. => ixgRemoteRowRequest _ _ | .extPortTrain .. => extPortTrain _ _ _ _ _ _
  | .extFlitReceive .. => extFlitReceive _ _ _ _ _ _ | .nakReceived .. => nakReceived _ _ _ | .ackReceived .. => ackReceived _ _ _
  | .portRetrain .. => portRetrain _ _ | .retrainTimeout .. => retrainTimeout _ _ | .epkctlSwitch .. => epkctlSwitch _ _
  | .keyLow .. => keyLow _ _ | .keyExhausted .. => keyExhausted _ _ | .keyExhaustedTimeout .. => keyExhaustedTimeout _ _
  | .fabricPacketForward .. => fabricPacketForward _ _ _ _ | .ptpTimeFlit .. => ptpTimeFlit _ | .lrsetWrite .. => lrsetWrite _ _ _ _
  | .mpsetWrite .. => mpsetWrite _ _ _ | .scrubLine .. => scrubLine _ _ _ _ _ | .scrubPauseEnd .. => scrubPauseEnd _
  | .memoryUncorrectableError .. => memoryUncorrectableError _ _ _ | .registerUncorrectableError .. => registerUncorrectableError _
  | .errorLogClear .. => errorLogClear _ | .attestationGo .. => attestationGo _ | .attestationReportDone .. => attestationReportDone _
  | .keyRecord .. => keyRecord _ | .powerOn => powerOn | .powerCapAdjust .. => powerCapAdjust _ _ _ | .thermalTrip .. => thermalTrip _
  | .hctlStop .. => hctlStop _ _ _ | .hctlRun .. => hctlRun _ _ _ | .hctlRecov .. => hctlRecov _ _ _
  | .censusWrite .. => censusWrite _ _ | .registerWrite .. => registerWrite _ _ _ _ | .illegalInstruction .. => illegalInstruction _ _
  | .instructionFetchFault .. => instructionFetchFault _ _ | .postedWritePerformed .. => postedWritePerformed _
  | .wellPageMap .. => wellPageMap _ _ | .inkFrameMap .. => inkFrameMap _ _

end Sys2Proof.Laws.ReadsBack

namespace Sys2Proof.Laws

/-! ## The decoder takes no word but those of a well-formed instruction -/

theorem decodeCheck_eq_ok {p : Option IWord} {w : IWord} {i j : Instr} :
    decodeCheck p w i = .ok j ↔ i = j ∧ i.wf = true ∧ encode i = some (p, w) := by
  unfold decodeCheck
  split
  · rename_i other
    simp [other]
  · split <;> simp_all

theorem wf_encode_of_decode {i : Instr} {p : Option IWord} {w : IWord} (h : decode p w = .ok i) :
    i.wf = true ∧ encode i = some (p, w) := by
  have checked {q : Option IWord} {j : Instr} (h : decodeCheck q w j = .ok i) : i.wf = true ∧ encode i = some (q, w) := by
    obtain ⟨rfl, wf, words⟩ := decodeCheck_eq_ok.mp h
    exact ⟨wf, words⟩
  cases p with
  | none =>
    rw [decode] at h
    split at h
    · cases h
    · exact checked h
  | some q =>
    rw [decode] at h
    split at h
    · cases h
    · split at h
      · cases h
      · exact checked h

/-! ## It takes all of these -/

theorem encode_eq_some {i : Instr} {p : Option IWord} {w : IWord} :
    encode i = some (p, w) ↔ encodeWord i = some w ∧ p = i.pfx.map Pfx.encode := by
  simp [encode, and_comm, eq_comm]

theorem decode_of_wf_encode {i : Instr} {p : Option IWord} {w : IWord} (wf : i.wf = true) (words : encode i = some (p, w)) :
    decode p w = .ok i := by
  obtain ⟨word, prefixed⟩ := encode_eq_some.mp words
  obtain ⟨-, vector, fields⟩ := ReadsBack.readsBack i w word
  have checked : decodeCheck p w i = .ok i := decodeCheck_eq_ok.mpr ⟨rfl, wf, words⟩
  cases carried : i.pfx with
  | none =>
    rw [carried] at fields prefixed
    obtain rfl : p = none := prefixed
    simp only [decode, fields, checked]
  | some q =>
    rw [carried] at fields prefixed vector
    obtain rfl : p = some q.encode := prefixed
    simp only [decode, pfx_isPfx_encode, vector rfl, pfx_decode_encode, fields]
    exact checked

/-- Settles O2: `decodeCheck` refuses what does not encode back, and the fields of every word give back its instruction
(`ReadsBack.readsBack`) with its prefix (`pfx_decode_encode`). -/
theorem decodeEncode : Obligations.DecodeEncode := fun _ _ _ =>
  ⟨wf_encode_of_decode, fun ⟨wf, words⟩ => decode_of_wf_encode wf words⟩

/-- Settles O1: a listed word is the word of its instruction (`decode_of_wf_encode`); the three refusals are met in the decoder. -/
theorem decodesWords : Obligations.DecodesWords :=
  ⟨decode_of_wf_encode (by decide) (by decide), decode_of_wf_encode (by decide) (by decide),
    decode_of_wf_encode (by decide) (by decide), decode_of_wf_encode (by decide) (by decide),
    decode_of_wf_encode (by decide) (by decide), by decide, decode_of_wf_encode (by decide) (by decide), by decide⟩

end Sys2Proof.Laws

/-! # Branches and jumps (R65, R92 to R94) -/

namespace Sys2Proof.Machine

/-! ## Words -/

theorem append_toNat {n m : Nat} (x : BitVec n) (y : BitVec m) : (x ++ y).toNat = x.toNat * 2 ^ m + y.toNat := by
  rw [BitVec.toNat_append, ← Nat.shiftLeft_add_eq_or_of_lt y.isLt, Nat.shiftLeft_eq]

theorem hasWord_si {i : Instr} {m : BitVec 6} {d a : BitVec 5} {o : BitVec 16} (word : encode i = some (none, si m d a o)) :
    HasWord i (m.toNat * 2 ^ 26 + d.toNat * 2 ^ 21 + a.toNat * 2 ^ 16 + o.toNat) := by
  have value : (si m d a o).toNat = m.toNat * 2 ^ 26 + d.toNat * 2 ^ 21 + a.toNat * 2 ^ 16 + o.toNat := by
    simp only [si, append_toNat]
    omega
  rw [HasWord, word, ← value, BitVec.ofNat_toNat, BitVec.setWidth_eq]

theorem hasWord_sj {i : Instr} {m : BitVec 6} {o : BitVec 26} (word : encode i = some (none, sj m o)) :
    HasWord i (m.toNat * 2 ^ 26 + o.toNat) := by
  rw [HasWord, word, ← append_toNat m o, BitVec.ofNat_toNat, BitVec.setWidth_eq]
  rfl

/-! ## Targets -/

theorem signExtend_shift (w : Nat) (o : BitVec w) : o.signExtend 64 <<< 2 = BitVec.ofInt 64 (4 * o.toInt) := by
  rw [BitVec.shiftLeft_eq_mul_twoPow, BitVec.signExtend, mul_comm, BitVec.ofInt_mul]
  rfl

theorem branchTarget_eq (pc : Word) {w : Nat} (o : BitVec w) : branchTarget pc o = pc + BitVec.ofInt 64 (4 + 4 * o.toInt) := by
  rw [branchTarget, signExtend_shift, BitVec.ofInt_add, add_assoc]
  rfl

/-! ## Moving -/

/-- What retires at an address, taken or not, with v in g[d], has moved there. -/
theorem State.setPc_moved (s : State) (d : BitVec 5) (v pc : Word) (taken : Bool) :
    Moved s (((s.setG d v).setPc pc).setTransfer taken).countInstr pc taken d v := by
  obtain ⟨g, wrote⟩ := s.setG_eq d v
  let u := ((s.setG d v).setPc pc).setTransfer taken
  have hart : u.countInstr.hart = u.hart := u.countInstr_hart
  have rest : { u.countInstr with halls := u.halls } = u := u.countInstr_rest
  have counted : u.countInstr.halls = s.countInstr.halls :=
    State.countInstr_halls_congr (s.setG_ra d v) (s.setG_hid d v) (s.setG_halls d v)
  refine ⟨?_, ?_, fun k => ?_, ?_, ?_, counted, fun a => ?_⟩
  · rw [hart]; rfl
  · rw [hart]; rfl
  · rw [State.g, hart]
    exact s.setG_g d v k
  · rw [hart]
    simp only [u, wrote]
    rfl
  · simp only [u, wrote] at rest ⊢
    exact congrArg (fun t : State => { t with hart := s.hart }) rest
  · have mem := congrArg State.mem rest
    simp only [u, wrote] at mem ⊢
    exact congrArg (Memory.read · a) mem

theorem branch_moved (c : Bool) (o : BitVec 16) (s : State) : ∃ t, branch c o s = .next t ∧
    Moved s t (if c then s.hart.pc + BitVec.ofInt 64 (4 + 4 * o.toInt) else s.hart.pc + 4#64) c 0#5 0#64 := by
  refine ⟨_, rfl, ?_⟩
  cases c with
  | true => exact branchTarget_eq s.hart.pc o ▸ s.setPc_moved 0#5 0#64 _ true
  | false => exact s.setPc_moved 0#5 0#64 _ false

/-! ## The instructions -/

theorem branches : Branches := by
  intro a b o s x y goes
  have goes_of {m : BitVec 6} {c : Bool} {i : Instr} (word : encode i = some (none, si m a b o)) (run : exec i s = branch c o s) :
      goes m.toNat c i := ⟨hasWord_si word, run ▸ branch_moved c o s⟩
  have differ : decide (x ≠ y) = (x != y) := decide_not
  exact ⟨goes_of (m := 0x16#6) rfl rfl, goes_of (m := 0x17#6) rfl (by rw [differ]; rfl),
    goes_of (m := 0x18#6) rfl rfl, goes_of (m := 0x19#6) rfl rfl, goes_of (m := 0x1A#6) rfl rfl, goes_of (m := 0x1B#6) rfl rfl⟩

theorem jumpsLink : JumpsLink := by
  intro s
  refine ⟨fun o => ⟨hasWord_sj (m := 0x1C#6) rfl, _, rfl, ?_⟩, fun d a i => ⟨hasWord_si (m := 0x1D#6) rfl, _, rfl, ?_⟩⟩
  · rw [branchTarget_eq]
    exact s.setPc_moved 1#5 _ _ true
  · rw [signExtend_shift]
    exact s.setPc_moved d _ _ true

/-- Settles O10: each transfer retires at its target (`State.setPc_moved`), which is formed modulo 2^64 (`branchTarget_eq`). -/
theorem branchesAndJumps : Obligations.BranchesAndJumps := ⟨branches, jumpsLink⟩

end Sys2Proof.Machine

/-! # Instructions that are left part-way (R123, R318, R322) -/

namespace Sys2Proof.Machine

/-! ## What the end of a step leaves -/

theorem State.cluster_onCluster (s : State) (h k : BitVec 4) (c d : BitVec 5) (f : Cluster → Cluster) :
    ((s.onCluster h c f).hall k).cluster d = if k = h ∧ d = c then f ((s.hall h).cluster c) else (s.hall k).cluster d := by
  rw [State.onCluster, State.hall_onHall]
  by_cases hall : k = h
  · subst hall
    rw [if_pos rfl, Hall.cluster, alFind_alSet]
    by_cases cluster : d = c
    · subst cluster; simp
    · simp [cluster, BitVec.toNat_inj, Hall.cluster]
  · simp [hall]

/-- What a change of one cluster leaves of the count of retired instructions of every cluster, where it leaves that of its own. -/
theorem State.onCluster_instr (s : State) (h k : BitVec 4) (c d : BitVec 5) (f : Cluster → Cluster) (kept : ∀ x, (f x).instr = x.instr) :
    (((s.onCluster h c f).hall k).cluster d).instr = ((s.hall k).cluster d).instr := by
  rw [s.cluster_onCluster]
  split
  · rename_i same
    obtain ⟨rfl, rfl⟩ := same
    exact kept _
  · rfl

theorem State.syncUnit_eq (s : State) : ∃ units, s.syncUnit = { s with units := units } := by
  unfold State.syncUnit
  split <;> exact ⟨_, rfl⟩

/-- Time passes: of the hart only where its instruction is left is gone, and of a cluster only its cycles have been counted. -/
theorem State.tick_cases (s : State) : ∃ u : State, u.hart = { s.hart with cut := none } ∧ u.mem = s.mem ∧ u.halls = s.halls
    ∧ (s.tick = u ∨ ∃ h c f, (∀ x, (f x).instr = x.instr) ∧ s.tick = u.onCluster h c f) := by
  obtain ⟨units, synced⟩ := s.syncUnit_eq
  unfold State.tick
  rw [synced]
  dsimp only
  split
  · refine ⟨_, ?_, ?_, ?_, .inl rfl⟩ <;> rfl
  · refine ⟨_, ?_, ?_, ?_, .inr ⟨_, _, _, ?_, rfl⟩⟩
    case refine_4 => exact fun _ => rfl
    all_goals rfl

theorem State.tick_hart (s : State) : s.tick.hart = { s.hart with cut := none } := by
  obtain ⟨u, hart, -, -, e | ⟨h, c, f, -, e⟩⟩ := s.tick_cases <;> exact (congrArg State.hart e).trans hart

theorem State.tick_mem (s : State) : s.tick.mem = s.mem := by
  obtain ⟨u, -, mem, -, e | ⟨h, c, f, -, e⟩⟩ := s.tick_cases <;> exact (congrArg State.mem e).trans mem

theorem State.tick_instr (s : State) (k : BitVec 4) (d : BitVec 5) :
    ((s.tick.hall k).cluster d).instr = ((s.hall k).cluster d).instr := by
  obtain ⟨u, -, -, halls, ticked⟩ := s.tick_cases
  have same : u.hall k = s.hall k := congrArg (fun x => pick (w := 4) x k) halls
  obtain e | ⟨h, c, f, kept, e⟩ := ticked
  · rw [e, same]
  · rw [e, u.onCluster_instr h k c d f kept, same]

theorem State.countRows_hart (s t : State) (w : IWord) : (s.countRows t w).hart = t.hart := by
  unfold State.countRows
  split <;> rfl

theorem State.countRows_mem (s t : State) (w : IWord) : (s.countRows t w).mem = t.mem := by
  unfold State.countRows
  split <;> rfl

theorem State.countRows_instr (s t : State) (w : IWord) (h : BitVec 4) (c : BitVec 5) :
    (((s.countRows t w).hall h).cluster c).instr = ((t.hall h).cluster c).instr := by
  unfold State.countRows
  split
  · exact State.onCluster_instr _ _ _ _ _ _ fun _ => rfl
  · rfl

/-! ## The hart's turn, with a place at which the schedule leaves the instruction -/

theorem step_of_turn_stop (s : State) (stop : Option Stop) (h : s.schedule.head? = some (.turn stop)) :
    step s = andTick ((started s).turn stop) := by
  unfold step started
  split
  · rename_i nothing
    rw [nothing] at h
    cases h
  · rename_i e r more
    rw [more] at h ⊢
    obtain rfl : e = .turn stop := Option.some.inj h
    rfl

/-- A step that fetches the words of an instruction performs it where no position of its span is lost. -/
theorem step_of_words_stop (s u : State) (stop : Option Stop) (p : Option IWord) (w : IWord) (i : Instr)
    (turn : s.schedule.head? = some (.turn stop)) (runs : RunsNext (started s)) (unlost : (started s).hart.spanLost = 0#8)
    (fetched : (started s).fetch = (u, .words p w)) (dec : decode p w = .ok i) :
    step s = andTick ((u.setIr p w).perform i w p.isSome stop) := by
  have hart : u.hart = (started s).hart := by rw [← (started s).fetch_hart, fetched]
  have kept : ¬((u.setIr p w).hart.spanLost ≠ 0#8 && isVector w) = true := by
    show ¬(u.hart.spanLost ≠ 0#8 && isVector w) = true
    rw [hart, unlost]
    simp
  rw [step_of_turn_stop s stop turn, runs.turn_eq, State.runNext, fetched]
  simp only [State.runWords, dec]
  unfold State.orSpanLoss
  rw [if_neg kept]

/-- Where the schedule may not leave the instruction, it runs whole. -/
theorem State.perform_row_whole (s : State) (i : Instr) (w : IWord) (pfx : Bool) (n : Nat) (fq : s.hart.fq = .none)
    (stays : s.mayLeave (s.course i) n = false) : s.perform i w pfx (some (.row n)) = s.perform i w pfx none := by
  simp [State.perform, State.runStopped, fq, stays]

/-- Where it may, the instruction that would retire stands at element n. -/
theorem State.perform_row_left (s t : State) (i : Instr) (w : IWord) (pfx : Bool) (n : Nat) (fq : s.hart.fq = .none)
    (leaves : s.mayLeave (s.course i) n = true) (ended : exec i { s with hart := { s.hart with cut := some n } } = .next t)
    (retired : s.retiredIn { t with hart := { t.hart with cut := none } } (if pfx then 8#64 else 4#64) = true) :
    s.perform i w pfx (some (.row n)) = .next (s.countRows (s.standAt { t with hart := { t.hart with cut := none } } n) w) := by
  have ended' : exec i (s.onHart fun h => { h with cut := some n }) = .next t := ended
  have retired' : s.retiredIn (t.onHart fun h => { h with cut := none }) (if pfx then 8#64 else 4#64) = true := retired
  simp only [State.perform, State.runStopped, fq, leaves, State.runTo, ended', retired']
  rfl

theorem leftPartWay : LeftPartWay := by
  intro s n u p w i s' v len turn runs unlost fq fetched dec
  have hart : u.hart = s'.hart := by rw [← s'.fetch_hart, fetched]
  have unanswered : v.hart.fq = .none := (congrArg Hart.fq hart).trans fq
  rw [step_of_words_stop s u _ p w i turn runs unlost fetched dec]
  refine ⟨fun stays => ?_, fun t leaves ended retired => ?_⟩
  · rw [State.perform_row_whole v i w p.isSome n unanswered stays]
    exact v.andTick_perform i w p.isSome
  · rw [State.perform_row_left v t i w p.isSome n unanswered leaves ended retired]
    refine ⟨_, rfl, ?_⟩
    rw [State.tick_hart, State.countRows_hart, State.tick_instr, State.countRows_instr]
    refine ⟨rfl, rfl, rfl, rfl, rfl, (congrArg Hart.pc hart :), rfl, rfl, fun a => ?_, ?_⟩
    · rw [State.tick_mem, State.countRows_mem]
      rfl
    · rw [State.standAt, State.cluster_onCluster, if_pos ⟨rfl, rfl⟩]

end Sys2Proof.Machine

/-! # Saved contexts (R320 to R324) -/

namespace Sys2Proof.Machine

/-! ## Saving a group -/

theorem State.mem_groupOf (s : State) (v : BitVec 10) (serial : BitVec 32) (group : Nat) (u : UnitRec) :
    u ∈ s.groupOf v serial group ↔ u ∈ s.units ∧ u.key.vf = v ∧ u.key.serial = serial ∧ u.group = group := by
  simp [State.groupOf, and_assoc]

/-- The record that a save leaves of a unit: those of its group are pre-empted, with their image at this page. -/
def savedRecord (v : BitVec 10) (serial : BitVec 32) (group page : Nat) (h : Hart) (hall : BitVec 4) (u : UnitRec) : UnitRec :=
  if u.key.vf = v && u.key.serial = serial && u.group = group then
    u.stopped page (if h.unit = some u.key then some (h, hall) else none)
  else u

theorem UnitRec.stopped_same (u : UnitRec) (page : Nat) (on : Option (Hart × BitVec 4)) :
    (u.stopped page on).key = u.key ∧ (u.stopped page on).group = u.group ∧ (u.stopped page on).st = .preempted
      ∧ (u.stopped page on).preempt = false ∧ (u.stopped page on).image = page := by
  cases on <;> exact ⟨rfl, rfl, rfl, rfl, rfl⟩

theorem savedRecord_of_group {v : BitVec 10} {serial : BitVec 32} {group page : Nat} {h : Hart} {hall : BitVec 4} {u w : UnitRec}
    (record : savedRecord v serial group page h hall u = w) (mine : w.key.vf = v ∧ w.key.serial = serial ∧ w.group = group) :
    w.st = .preempted ∧ w.preempt = false ∧ w.image = page := by
  obtain ⟨vf, ser, grp⟩ := mine
  unfold savedRecord at record
  split at record
  · obtain ⟨-, -, stopped⟩ := u.stopped_same page (if h.unit = some u.key then some (h, hall) else none)
    exact record ▸ stopped
  · rename_i other
    subst record
    simp [vf, ser, grp] at other

/-- A group whose units were all asked to stop is saved where its image fits: its records say so, and the hart is empty if it ran
one of them. -/
theorem State.saveGroup_asked (s : State) (v : BitVec 10) (serial : BitVec 32) (group : Nat) (u0 : UnitRec) (r : List UnitRec) (page : Nat)
    (us : s.groupOf v serial group = u0 :: r) (room : s.freeImage u0.slotHall (imagePages u0.spBytes u0.size) = some page)
    (asked : ∀ u ∈ s.groupOf v serial group, u.onHart = true ∧ u.preempt = true) (stops : s.canStop = true) :
    ∃ (t : State) (h : Hart) (hall : BitVec 4), (s.saveGroup v serial group).units = t.units.map (savedRecord v serial group page h hall)
      ∧ (s.saveGroup v serial group).hart
        = if ((s.groupOf v serial group).find? fun u => s.isMine u && s.hart.unit == some u.key).isSome then t.hart.release else t.hart := by
  have ready : (!((s.groupOf v serial group).all fun u => u.onHart && u.preempt)
      || (((s.groupOf v serial group).find? fun u => s.isMine u && s.hart.unit == some u.key).isSome && !s.canStop)) = false := by
    have all : ((s.groupOf v serial group).all fun u => u.onHart && u.preempt) = true :=
      List.all_eq_true.mpr fun u hu => by simp [asked u hu]
    rw [all, stops]
    simp
  rw [us] at ready ⊢
  unfold State.saveGroup
  rw [us]
  dsimp only
  rw [room]
  dsimp only
  rw [if_neg (by simp only [ready, Bool.false_eq_true, not_false_iff])]
  split
  · exact ⟨_, _, _, rfl, rfl⟩
  · exact ⟨_, _, _, rfl, rfl⟩

theorem State.saveGroup_unasked (s : State) (v : BitVec 10) (serial : BitVec 32) (group : Nat)
    (unasked : ∃ u ∈ s.groupOf v serial group, u.preempt = false) : s.saveGroup v serial group = s := by
  obtain ⟨u, hu, not_asked⟩ := unasked
  have some_unasked : ((s.groupOf v serial group).all fun u => u.onHart && u.preempt) = false :=
    List.all_eq_false.mpr ⟨u, hu, by simp [not_asked]⟩
  unfold State.saveGroup
  dsimp only
  split
  · rfl
  · split
    · rfl
    · rw [if_pos (by rw [some_unasked]; rfl)]

end Sys2Proof.Machine

/-! # What ends a unit leaves of the other records (R200, R211, R303) -/

namespace Sys2Proof.Machine

/-! ## A write changes no unit record -/

theorem foldl_units {α : Type} (f : State → α → State) (hf : ∀ s a, (f s a).units = s.units) (l : List α) (s : State) :
    (l.foldl f s).units = s.units := by
  induction l generalizing s with
  | nil => rfl
  | cons a r ih => exact (ih (f s a)).trans (hf s a)

theorem State.evictLine_units (s : State) (line : Nat) : (s.evictLine line).units = s.units := by
  unfold State.evictLine
  split <;> rfl

theorem State.touchOne_units (s : State) (line : Nat) : (s.touchOne line).units = s.units := by
  unfold State.touchOne
  dsimp only
  split
  · rfl
  · exact State.evictLine_units ..

theorem State.touchLine_units (s : State) (pa n : Nat) : (s.touchLine pa n).units = s.units := by
  unfold State.touchLine
  split
  · exact foldl_units _ State.touchOne_units _ s
  · rfl

theorem State.evalLanding_units (s : State) (h : BitVec 4) (n : Nat) (l : Landing) : (s.evalLanding h n l).units = s.units := by
  unfold State.evalLanding
  split <;> rfl

theorem State.fireLandings_units (s : State) (pa n : Nat) : (s.fireLandings pa n).units = s.units := by
  unfold State.fireLandings
  split
  · refine foldl_units _ (fun t l => ?_) _ s
    split
    · exact t.evalLanding_units ..
    · rfl
  · rfl

theorem State.performBytes_units (s : State) (pa : Nat) (bs : List Byte) : (s.performBytes pa bs).units = s.units := by
  rw [State.performBytes, State.afterWrite, State.fireLandings_units]
  exact State.touchLine_units (s.putBytes pa bs) pa bs.length

theorem State.dispatchWrite_units (s : State) (v : BitVec 10) (h : BitVec 4) (va w : Word) : (s.dispatchWrite v h va w).units = s.units := by
  have written (pa : Nat) (bs : List Byte) (t : State) (done : s.writeHome (some v) h pa bs = .ok t ∨ s.writeHome (some v) h pa bs = .error t) :
      t.units = s.units := by
    unfold State.writeHome at done
    split at done
    · obtain done | done := done <;> cases done
      exact (congrArg State.units (s.logRefusal_rest (some v) h pa _) :)
    · split at done <;> obtain done | done := done <;> cases done
      · unfold State.logSealed
        split <;> rfl
      · exact s.performBytes_units pa bs
  unfold State.dispatchWrite
  split
  · rfl
  · split
    · split
      · split
        · exact written _ _ _ (.inl ‹_›)
        · exact written _ _ _ (.inr ‹_›)
      · rfl
    · rfl

/-! ## The end of a unit -/

theorem State.countEnd_units (s : State) (k : UnitKey) (err : Bool) : (s.countEnd k err).units = s.units := by
  unfold State.countEnd State.writeLaunchWord
  dsimp only
  split
  · rfl
  · exact State.dispatchWrite_units ..

theorem State.endUnit_units (s : State) (u : UnitRec) (killed err : Bool) :
    (s.endUnit u killed err).units = s.units.filter fun w => w.key != u.key := by
  have grouped (t : State) : (t.endGroup u).units = t.units := by
    unfold State.endGroup
    split <;> rfl
  rw [State.endUnit, State.countEnd_units, grouped]
  split <;> split <;> rfl

theorem State.killUnit_units (s : State) (k : UnitKey) : (s.killUnit k).units = s.units.filter fun w => w.key != k := by
  unfold State.killUnit
  split
  · rename_i absent
    exact (List.filter_eq_self.mpr fun w hw => by simpa using List.find?_eq_none.mp absent w hw).symm
  · rename_i u found
    obtain rfl : u.key = k := by simpa using List.find?_some found
    exact s.endUnit_units u true true

/-- Units that are lost at a resumption are gone from the records, and no other (R388). -/
theorem State.mem_units_foldl_loseUnit (l : List UnitRec) (s : State) (w : UnitRec) :
    w ∈ (l.foldl State.loseUnit s).units ↔ w ∈ s.units ∧ ∀ u ∈ l, w.key ≠ u.key := by
  induction l generalizing s with
  | nil => simp
  | cons u r ih =>
    have lost : (s.loseUnit u).units = s.units.filter fun w => w.key != u.key := s.killUnit_units u.key
    rw [List.foldl_cons, ih, lost]
    simp [and_assoc]

end Sys2Proof.Machine

/-! # Resumption (R310, R323, R324, R388) -/

namespace Sys2Proof.Machine

/-! ## The image of a group -/

/-- Where the slots of every hall lie is as before. -/
def State.SameSlots (s t : State) : Prop := ∀ h n, t.slotPa h n = s.slotPa h n

theorem State.onCluster_sameSlots (s : State) (h : BitVec 4) (c : BitVec 5) (f : Cluster → Cluster) : s.SameSlots (s.onCluster h c f) := by
  intro k n
  unfold State.slotPa State.savePa State.onCluster
  rw [State.hall_onHall]
  by_cases same : k = h
  · subst same
    rw [if_pos rfl]
    rfl
  · rw [if_neg same]
    rfl

/-- Restoring an image changes memory, with its poison, and the barriers of one cluster. -/
theorem State.readImage_eq (s : State) (u : UnitRec) (h : BitVec 4) (c : BitVec 5) :
    (∃ mem poison halls, s.readImage u h c = { s with mem := mem, poison := poison, halls := halls }) ∧ s.SameSlots (s.readImage u h c) := by
  unfold State.readImage
  dsimp only
  generalize List.range (2 * u.size) = l
  have moved : ∃ mem poison halls, s.moveBytes (s.imagePa u.slotHall u.image (imagePages u.spBytes u.size)) (spPa s.chip h c u.spOff) u.spBytes
      = { s with mem := mem, poison := poison, halls := halls } := ⟨_, _, _, rfl⟩
  have slots : s.SameSlots (s.moveBytes (s.imagePa u.slotHall u.image (imagePages u.spBytes u.size)) (spPa s.chip h c u.spOff) u.spBytes) :=
    fun _ _ => rfl
  generalize s.moveBytes (s.imagePa u.slotHall u.image (imagePages u.spBytes u.size)) (spPa s.chip h c u.spOff) u.spBytes = t at moved slots ⊢
  induction l generalizing t with
  | nil => exact ⟨moved, slots⟩
  | cons n r ih =>
    refine ih _ ?_ fun k m => (t.onCluster_sameSlots h c _ k m).trans (slots k m)
    obtain ⟨mem, poison, halls, rfl⟩ := moved
    exact ⟨_, _, _, rfl⟩

/-! ## The units of a group that resumes -/

/-- The record of a unit that resumes on hart n of a cluster. -/
def UnitRec.resumedAt (u : UnitRec) (h : BitVec 4) (c : BitVec 5) (n : BitVec 3) (id : Nat) : UnitRec :=
  { u with st := .running, hall := h, cluster := c, hart := n, placedAt := id }

/-- The records of the units of a group that resumes, one on each of the lowest free harts. -/
def State.resumedUnits (s : State) (us : List UnitRec) (h : BitVec 4) (c : BitVec 5) : List UnitRec :=
  (us.zip (s.freeHarts h c)).map fun p => p.1.resumedAt h c p.2 s.nextId

/-- The state with the image of a group and these records of its units. -/
def State.withResumed (s : State) (u0 : UnitRec) (h : BitVec 4) (c : BitVec 5) (us' : List UnitRec) : State :=
  { s.readImage u0 h c with
    nextId := (s.readImage u0 h c).nextId + 1
    units := (s.readImage u0 h c).units.map fun u => (us'.find? fun w => w.key == u.key).getD u }

/-- The hart of the model resumes its unit, if one of these is its own. -/
def State.resumeMine (s : State) (us' : List UnitRec) : State :=
  match us'.find? s.isMine with
  | some u => s.resumeHart u
  | none => s

/-- A group that may resume does so, and loses the units whose slots are bad. -/
theorem State.resumeGroup_eq (s : State) (v : BitVec 10) (serial : BitVec 32) (group : Nat) (h : BitVec 4) (c : BitVec 5) (u0 : UnitRec)
    (r : List UnitRec) (us : s.groupOf v serial group = u0 :: r) (may : s.mayResume v serial group h c = true) :
    s.resumeGroup v serial group h c
      = ((s.resumedUnits (u0 :: r) h c).filter (s.withResumed u0 h c (s.resumedUnits (u0 :: r) h c)).slotBad).foldl State.loseUnit
          ((s.withResumed u0 h c (s.resumedUnits (u0 :: r) h c)).resumeMine (s.resumedUnits (u0 :: r) h c)) := by
  unfold State.resumeGroup
  rw [us]
  dsimp only
  rw [may, if_neg (by decide)]
  rfl

theorem State.mem_resumedUnits {s : State} {us : List UnitRec} {h : BitVec 4} {c : BitVec 5} {w : UnitRec}
    (hw : w ∈ s.resumedUnits us h c) : ∃ u ∈ us, ∃ n, w = u.resumedAt h c n s.nextId := by
  obtain ⟨⟨u, n⟩, mem, rfl⟩ := List.mem_map.mp hw
  exact ⟨u, (List.of_mem_zip mem).1, n, rfl⟩

theorem State.resumedUnits_of_mem {s : State} {us : List UnitRec} {h : BitVec 4} {c : BitVec 5} {u : UnitRec} (hu : u ∈ us)
    (harts : us.length ≤ (s.freeHarts h c).length) : ∃ n, u.resumedAt h c n s.nextId ∈ s.resumedUnits us h c := by
  obtain ⟨i, hi, rfl⟩ := List.getElem_of_mem hu
  have inside : i < (us.zip (s.freeHarts h c)).length := by simp; omega
  refine ⟨(s.freeHarts h c)[i], List.mem_map.mpr ⟨(us.zip (s.freeHarts h c))[i], List.getElem_mem inside, ?_⟩⟩
  rw [List.getElem_zip]

theorem State.harts_of_mayResume {s : State} {v : BitVec 10} {serial : BitVec 32} {group : Nat} {h : BitVec 4} {c : BitVec 5}
    (may : s.mayResume v serial group h c = true) :
    (∃ u0 r, s.groupOf v serial group = u0 :: r) ∧ (s.groupOf v serial group).length ≤ (s.freeHarts h c).length := by
  unfold State.mayResume at may
  obtain ⟨can, -⟩ := Bool.and_eq_true_iff.mp may
  unfold State.canResume at can
  generalize s.groupOf v serial group = us at can
  cases us with
  | nil => cases can
  | cons u0 r =>
    simp only [State.roomFor, Bool.and_eq_true, decide_eq_true_eq] at can
    exact ⟨⟨u0, r, rfl⟩, by tauto⟩

/-! ## The group that heads its queue -/

theorem State.launch?_some {s : State} {v : BitVec 10} {serial : BitVec 32} {l : Launch} (found : s.launch? v serial = some l) :
    l.vf = v ∧ l.serial = serial := by
  simpa using List.find?_some found

/-- The group that heads a queue is a pre-empted group of its launch. -/
theorem State.backGroups_of_backOf {s : State} {v : BitVec 10} {q : BitVec 7} {l : Launch} {g : Nat} (back : s.backOf v q = some (l, g)) :
    (s.backGroups l).contains g = true := by
  unfold State.backOf at back
  obtain ⟨u, heads, found⟩ := Option.bind_eq_some_iff.mp back
  obtain ⟨l', launched, pair⟩ := Option.map_eq_some_iff.mp found
  obtain ⟨rfl, rfl⟩ := Prod.mk.inj pair
  obtain ⟨vf, serial⟩ := State.launch?_some launched
  have preempted := List.find?_some heads
  simp only [Bool.and_eq_true, beq_iff_eq] at preempted
  obtain ⟨⟨⟨st, mine⟩, -⟩, -⟩ := preempted
  refine List.contains_iff_mem.mpr (List.mem_eraseDups.mpr (List.mem_map.mpr ⟨u, List.mem_filter.mpr ⟨List.mem_of_find?_eq_some heads, ?_⟩, rfl⟩))
  simp [st, mine, vf, serial]

/-- A launch that is no cohort resumes group by group. -/
theorem State.resumption_group {s : State} {v : BitVec 10} {serial : BitVec 32} {group : Nat} {h : BitVec 4} {c : BitVec 5} {l : Launch}
    (back : s.backOf v (serial.extractLsb' 25 7) = some (l, group)) (ser : l.serial = serial) (single : l.cohort = false)
    (served : ((s.vf v).queue (serial.extractLsb' 25 7)).halls.getLsbD h.toNat = true) (may : s.mayResume v serial group h c = true) :
    s.resumption v serial group h c = s.resumeGroup v serial group h c := by
  have heads := State.backGroups_of_backOf back
  unfold State.resumption
  simp only [back, ser, single, served, may, heads]
  simp

/-- Nothing resumes where no group heads the queue, in a hall that the queue does not name, or where the group may not. -/
theorem State.resumption_idle {s : State} {v : BitVec 10} {serial : BitVec 32} {group : Nat} {h : BitVec 4} {c : BitVec 5}
    (idle : s.backOf v (serial.extractLsb' 25 7) = none
      ∨ ((s.vf v).queue (serial.extractLsb' 25 7)).halls.getLsbD h.toNat = false ∨ s.mayResume v serial group h c = false) :
    s.resumption v serial group h c = s := by
  unfold State.resumption
  obtain idle | idle | idle := idle
  · rw [idle]
  all_goals
    split
    · rfl
    · rw [if_pos (by simp only [idle, Bool.not_false, Bool.or_true, Bool.true_or])]

/-! ## Where the slot of a unit is bad -/

theorem State.withResumed_slotBad (s : State) (u0 u : UnitRec) (h : BitVec 4) (c : BitVec 5) (us' : List UnitRec) (n : BitVec 3) (id : Nat) :
    (s.withResumed u0 h c us').slotBad (u.resumedAt h c n id) = (s.readImage u0 h c).slotBad u := rfl

/-- A unit whose slot is bad is lost as its group resumes (R388). -/
theorem State.resumeGroup_loses {s : State} {v : BitVec 10} {serial : BitVec 32} {group : Nat} {h : BitVec 4} {c : BitVec 5} {u0 u : UnitRec}
    {r : List UnitRec} (us : s.groupOf v serial group = u0 :: r) (may : s.mayResume v serial group h c = true)
    (hu : u ∈ s.groupOf v serial group) (bad : (s.readImage u0 h c).slotBad u = true) :
    ∀ w ∈ (s.resumeGroup v serial group h c).units, w.key ≠ u.key := by
  intro w hw
  rw [s.resumeGroup_eq v serial group h c u0 r us may, State.mem_units_foldl_loseUnit] at hw
  obtain ⟨-, harts⟩ := State.harts_of_mayResume may
  rw [us] at harts hu
  obtain ⟨n, resumed⟩ := State.resumedUnits_of_mem hu harts
  exact hw.2 (u.resumedAt h c n s.nextId) (List.mem_filter.mpr ⟨resumed, (s.withResumed_slotBad u0 u h c _ n _).trans bad⟩)

/-- No unit is lost where every slot is good. -/
theorem State.resumeGroup_good {s : State} {v : BitVec 10} {serial : BitVec 32} {group : Nat} {h : BitVec 4} {c : BitVec 5} {u0 : UnitRec}
    {r : List UnitRec} (us : s.groupOf v serial group = u0 :: r) (may : s.mayResume v serial group h c = true)
    (good : ∀ u ∈ s.groupOf v serial group, (s.readImage u0 h c).slotBad u = false) :
    s.resumeGroup v serial group h c
      = (s.withResumed u0 h c (s.resumedUnits (u0 :: r) h c)).resumeMine (s.resumedUnits (u0 :: r) h c) := by
  rw [s.resumeGroup_eq v serial group h c u0 r us may]
  rw [us] at good
  have none_bad : (s.resumedUnits (u0 :: r) h c).filter (s.withResumed u0 h c (s.resumedUnits (u0 :: r) h c)).slotBad = [] := by
    refine List.filter_eq_nil_iff.mpr fun w hw => ?_
    obtain ⟨u, hu, n, rfl⟩ := State.mem_resumedUnits hw
    rw [s.withResumed_slotBad u0 u h c, good u hu]
    decide
  rw [none_bad]
  rfl

/-! ## On another cluster -/

theorem State.withResumed_units (s : State) (u0 : UnitRec) (h : BitVec 4) (c : BitVec 5) (us' : List UnitRec) :
    (s.withResumed u0 h c us').units = s.units.map fun u => (us'.find? fun w => w.key == u.key).getD u := by
  obtain ⟨⟨mem, poison, halls, read⟩, -⟩ := s.readImage_eq u0 h c
  unfold State.withResumed
  rw [read]

theorem State.withResumed_hart (s : State) (u0 : UnitRec) (h : BitVec 4) (c : BitVec 5) (us' : List UnitRec) :
    (s.withResumed u0 h c us').hart = s.hart := by
  obtain ⟨⟨mem, poison, halls, read⟩, -⟩ := s.readImage_eq u0 h c
  unfold State.withResumed
  rw [read]

theorem State.withResumed_isMine (s : State) (u0 : UnitRec) (h : BitVec 4) (c : BitVec 5) (us' : List UnitRec) (w : UnitRec) :
    (s.withResumed u0 h c us').isMine w = s.isMine w := by
  obtain ⟨⟨mem, poison, halls, read⟩, -⟩ := s.readImage_eq u0 h c
  unfold State.withResumed
  rw [read]
  rfl

/-- Every unit of the group runs on the cluster. -/
theorem State.withResumed_running {s : State} {v : BitVec 10} {serial : BitVec 32} {group : Nat} {h : BitVec 4} {c : BitVec 5} {u0 w : UnitRec}
    (may : s.mayResume v serial group h c = true)
    (hw : w ∈ (s.withResumed u0 h c (s.resumedUnits (s.groupOf v serial group) h c)).units)
    (mine : w.key.vf = v ∧ w.key.serial = serial ∧ w.group = group) : w.st = .running ∧ w.hall = h ∧ w.cluster = c := by
  obtain ⟨-, harts⟩ := State.harts_of_mayResume may
  rw [State.withResumed_units] at hw
  obtain ⟨u, hu, record⟩ := List.mem_map.mp hw
  cases found : (s.resumedUnits (s.groupOf v serial group) h c).find? fun w => w.key == u.key with
  | some x =>
    rw [found] at record
    obtain rfl : x = w := record
    obtain ⟨y, -, n, rfl⟩ := State.mem_resumedUnits (List.mem_of_find?_eq_some found)
    exact ⟨rfl, rfl, rfl⟩
  | none =>
    rw [found] at record
    obtain rfl : u = w := record
    obtain ⟨n, resumed⟩ := State.resumedUnits_of_mem ((s.mem_groupOf v serial group u).mpr ⟨hu, mine⟩) harts
    exact absurd (beq_self_eq_true u.key) (List.find?_eq_none.mp found (u.resumedAt h c n s.nextId) resumed)

theorem State.resumeMine_elsewhere {s t : State} {us : List UnitRec} {h : BitVec 4} {c : BitVec 5} (same : ∀ w, t.isMine w = s.isMine w)
    (away : h ≠ s.myHall ∨ c ≠ s.myCluster) : t.resumeMine (s.resumedUnits us h c) = t := by
  have nobody : (s.resumedUnits us h c).find? t.isMine = none := by
    refine List.find?_eq_none.mpr fun w hw => ?_
    obtain ⟨u, -, n, rfl⟩ := State.mem_resumedUnits hw
    rw [same]
    unfold State.isMine State.isHart UnitRec.resumedAt
    obtain hall | cluster := away
    · simp [Ne.symm hall]
    · simp [Ne.symm cluster]
  unfold State.resumeMine
  rw [nobody]

/-! ## On the hart of the model -/

/-- Restoring the blocks of a slot changes the vector registers, their marks and the masks. -/
theorem State.restoreBlocks_eq (s : State) (slots : List Nat) (base saved len : Nat) (h : Hart) :
    ∃ vlmaxb v hwm m, s.restoreBlocks slots base saved len h = { h with vlmaxb := vlmaxb, v := v, hwm := hwm, m := m } := by
  unfold State.restoreBlocks
  dsimp only
  exact ⟨_, _, _, _, rfl⟩

/-- A unit without a claim stands in a hart that holds nothing but what its slot gives. -/
theorem State.resumeHart_unclaimed (s : State) (u : UnitRec) (unclaimed : s.word (s.slotPa u.slotHall u.slot + 0x150) = 0#64) :
    ∃ (empty h : Hart) (vlmaxb vl : Nat) (v : Vector VReg 32) (hwm : Vector Nat 32) (m : Vector MReg 8)
      (rejoin : Option (Word × BitVec 32)) (ldesc : Vector (Option OlgathDesc) 2),
      s.headerHart (s.slotPa u.slotHall u.slot) empty = h ∧ empty.unit = some u.key ∧ empty.claim = none ∧ empty.wait = none
        ∧ s.resumeHart u = s.takeHart
            { h with vlmaxb := vlmaxb, v := v, hwm := hwm, m := m, rejoin := rejoin, vl := vl, ldesc := ldesc } := by
  have reclaimed : s.reclaim u.key.vf (s.slotWord (s.slotPa u.slotHall u.slot) 0x150) = (s, none) := if_pos unclaimed
  unfold State.resumeHart
  dsimp only
  rw [reclaimed]
  dsimp only
  generalize header : s.headerHart _ _ = h
  obtain ⟨vlmaxb, v, hwm, m, blocks⟩ := s.restoreBlocks_eq
    ((u.places.map fun p => s.slotPa p.hall p.slot).take u.own ++ [s.slotPa u.slotHall u.slot]
      ++ (u.places.map fun p => s.slotPa p.hall p.slot).drop u.own) (s.slotPa u.slotHall u.slot) u.saved
    (if (none : Option Claim).isNone then 0 else Nat.min (((none : Option Claim).map (·.grant)).getD 0 * 64) h.vcap) h
  rw [blocks]
  exact ⟨_, h, vlmaxb, _, v, hwm, m, _, _, header, rfl, rfl, rfl, rfl⟩


/-- The header of a slot says nothing of what the hart runs, claims and waits for. -/
theorem State.headerHart_same (s : State) (base : Nat) (h : Hart) :
    (s.headerHart base h).unit = h.unit ∧ (s.headerHart base h).claim = h.claim ∧ (s.headerHart base h).wait = h.wait := by
  unfold State.headerHart
  exact ⟨rfl, rfl, rfl⟩

theorem State.headerHart_g (s : State) (base : Nat) (h : Hart) :
    (s.headerHart base h).g = Vector.ofFn fun i => s.word (base + 8 * i.val) := by
  unfold State.headerHart
  rfl

theorem State.headerHart_control (s : State) (base : Nat) (h : Hart) :
    (s.headerHart base h).pc = s.word (base + 0x100) ∧ (s.headerHart base h).srseed = s.word (base + 0x140)
      ∧ (s.headerHart base h).mode = (Mode.ofCode (fieldNat (s.word (base + 0x108)) 0 2)).getD .a := by
  simp only [State.headerHart, State.slotWord, and_self]

theorem State.takeHart_hart (s : State) (h : Hart) : (s.takeHart h).hart = h ∧ (s.takeHart h).ra = none := by
  unfold State.takeHart
  exact ⟨rfl, rfl⟩

/-- A unit without a claim gets its registers back from its slot (R324). -/
theorem State.resumeHart_registers (s : State) (u : UnitRec) (unclaimed : s.word (s.slotPa u.slotHall u.slot + 0x150) = 0#64) :
    let t := s.resumeHart u
    let base := s.slotPa u.slotHall u.slot
    t.hart.unit = some u.key ∧ t.hart.claim = none ∧ t.ra = none ∧ t.hart.wait = none ∧ t.hart.pc = s.word (base + 0x100)
      ∧ (∀ k, k ≠ 0#5 → t.g k = s.word (base + 8 * k.toNat)) ∧ t.hart.srseed = s.word (base + 0x140)
      ∧ ∀ m : Mode, fieldNat (s.word (base + 0x108)) 0 2 = m.code → t.hart.mode = m := by
  dsimp only
  obtain ⟨empty, h, vlmaxb, vl, v, hwm, m, rejoin, ldesc, header, unit, claim, wait, resumed⟩ := s.resumeHart_unclaimed u unclaimed
  obtain ⟨unit_same, claim_same, wait_same⟩ := header ▸ s.headerHart_same _ empty
  obtain ⟨pc, srseed, mode⟩ := header ▸ s.headerHart_control _ empty
  have g := header ▸ s.headerHart_g _ empty
  obtain ⟨hart, ra⟩ := s.takeHart_hart
    { h with vlmaxb := vlmaxb, v := v, hwm := hwm, m := m, rejoin := rejoin, vl := vl, ldesc := ldesc }
  rw [resumed]
  unfold State.g
  rw [hart]
  refine ⟨unit_same.trans unit, claim_same.trans claim, ra, wait_same.trans wait, pc, fun k hk => ?_, srseed, fun m hm => ?_⟩
  · rw [if_neg hk, g]
    simp [pick]
  · rw [mode, hm]
    cases m <;> rfl

/-- The only unit of a group, on the hart of the model. -/
theorem State.resumeMine_here {s t : State} {u : UnitRec} {r : List (BitVec 3)} (same : ∀ w, t.isMine w = s.isMine w)
    (free : s.freeHarts s.myHall s.myCluster = s.myHart :: r) :
    t.resumeMine (s.resumedUnits [u] s.myHall s.myCluster) = t.resumeHart (u.resumedAt s.myHall s.myCluster s.myHart s.nextId) := by
  have only : s.resumedUnits [u] s.myHall s.myCluster = [u.resumedAt s.myHall s.myCluster s.myHart s.nextId] := by
    rw [State.resumedUnits, free]
    rfl
  have mine : t.isMine (u.resumedAt s.myHall s.myCluster s.myHart s.nextId) = true := by
    rw [same]
    simp [State.isMine, State.isHart, UnitRec.resumedAt]
  unfold State.resumeMine
  rw [only, List.find?_cons_of_pos mine]

end Sys2Proof.Machine

/-! # The end of run-ahead (R328) -/

namespace Sys2Proof.Machine

theorem State.rollback_eq {s : State} {r : RunAhead} (ahead : s.ra = some r) : s.rollback = rolledBack s r := by
  unfold State.rollback
  rw [ahead]
  rfl

/-- Outside a shadowed VF a batch is written to the slot of the unit and taken as a trap of code 9. -/
theorem State.deliverBatch_unshadowed (s : State) (r : RunAhead) (stop : Nat) (plain : s.shadowed = false) :
    s.deliverBatch r stop = (s.putBytes s.recordPa (wordsBytes (r.record stop))).takeTrap
      { code := 9, eval := BitVec.ofNat 64 s.recordPa, detail := r.detail.toNat, pfx := s.hart.ir.1.isSome } := by
  have nonempty : r.record stop ≠ [] := List.cons_ne_nil _ _
  unfold State.deliverBatch State.forward
  rw [plain, if_neg Bool.false_ne_true]
  dsimp only
  rw [if_neg nonempty, if_neg nonempty, if_neg (by decide)]
  rfl

/-- A stop whose condition holds rolls the hart back, and delivers the batch unless it is STOP 5. -/
theorem execFaultRunAheadStop_ahead {s : State} {r : RunAhead} (ahead : s.ra = some r) (stop : BitVec 4) :
    execFaultRunAheadStop stop s = .next
      (if (stop = 0#4 && decide (256 ≤ r.count)) || (stop = 1#4 && decide (64 ≤ r.batch.length)) || (stop = 5#4 && s.askedToStop) then
        if stop.toNat = 5 then rolledBack s r else (rolledBack s r).deliverBatch r stop.toNat
      else s) := by
  unfold execFaultRunAheadStop State.stopAhead
  rw [ahead, s.rollback_eq ahead]
  rfl

theorem execFaultRunAheadStop_idle {s : State} (ahead : s.ra = none) (stop : BitVec 4) : execFaultRunAheadStop stop s = .next s := by
  unfold execFaultRunAheadStop
  rw [ahead]
  rfl

theorem aheadStops (s : State) (r : RunAhead) (stop : BitVec 4) (ahead : s.ra = some r) :
    (s.askedToStop = true → exec (.faultRunAheadStop 5#4) s = .next (rolledBack s r))
      ∧ (s.askedToStop = false → exec (.faultRunAheadStop 5#4) s = .next s)
      ∧ (r.count < 256 → exec (.faultRunAheadStop 0#4) s = .next s) ∧ (r.batch.length < 64 → exec (.faultRunAheadStop 1#4) s = .next s)
      ∧ (2 ≤ stop.toNat → stop ≠ 5#4 → exec (.faultRunAheadStop stop) s = .next s)
      ∧ ((stop = 0#4 ∧ 256 ≤ r.count) ∨ (stop = 1#4 ∧ 64 ≤ r.batch.length) → (rolledBack s r).shadowed = false →
          let u := rolledBack s r
          exec (.faultRunAheadStop stop) s = .next ((u.putBytes u.recordPa (wordsBytes (r.record stop.toNat))).takeTrap
            { code := 9, eval := BitVec.ofNat 64 u.recordPa, detail := r.detail.toNat, pfx := u.hart.ir.1.isSome })) := by
  have stops (n : BitVec 4) : exec (.faultRunAheadStop n) s = _ := execFaultRunAheadStop_ahead ahead n
  refine ⟨fun asked => ?_, fun unasked => ?_, fun few => ?_, fun few => ?_, fun high other => ?_, fun full plain => ?_⟩
  · rw [stops, if_pos (by simp [asked]), if_pos (by decide)]
  · rw [stops, if_neg (by simp [unasked])]
  · rw [stops, if_neg (by simp [few])]
  · rw [stops, if_neg (by simp [few])]
  · have not_zero : stop ≠ 0#4 := by rintro rfl; simp at high
    have not_one : stop ≠ 1#4 := by rintro rfl; simp at high
    rw [stops, if_neg (by simp [not_zero, not_one, other])]
  · have holds : ((stop = 0#4 && decide (256 ≤ r.count)) || (stop = 1#4 && decide (64 ≤ r.batch.length))
        || (stop = 5#4 && s.askedToStop)) = true := by
      simp only [Bool.or_eq_true, Bool.and_eq_true, decide_eq_true_eq]
      exact .inl full
    have delivers : stop.toNat ≠ 5 := by
      obtain ⟨rfl, -⟩ | ⟨rfl, -⟩ := full <;> decide
    rw [stops, if_pos holds, if_neg delivers, State.deliverBatch_unshadowed _ r _ plain]

end Sys2Proof.Machine

/-! # Lost span positions (R221) -/

namespace Sys2Proof.Machine

theorem getLsbD_foldl_setBit {α : Type} (l : List α) (f : α → Nat) (m : BitVec 8) (j : Nat) (small : j < 8) :
    (l.foldl (fun m x => setBit m (f x) true) m).getLsbD j = (m.getLsbD j || l.any fun x => decide (f x = j)) := by
  induction l generalizing m with
  | nil => simp
  | cons x l ih =>
    rw [List.foldl_cons, ih, getLsbD_setBit, List.any_cons]
    by_cases here : j = f x
    · simp [here, here ▸ small]
    · simp [here, Ne.symm here, small]

/-- Losing positions marks their dies and the operations in flight there, and changes nothing where none of them is lost. -/
theorem State.loseSpanIn_claimed {s : State} {c : Claim} (claimed : s.hart.claim = some c) (lost : Place → Bool) :
    let gone := c.places.zipIdx.filter fun p => lost p.1
    s.loseSpanIn lost = s.onHart fun h =>
      { h with
        spanLost := gone.foldl (fun m p => setBit m (p.1.hall.toNat / 2) true) h.spanLost
        vops := h.vops.map fun o =>
          if o.status = 0#4 && gone.any (fun p => o.at'.getLsbD (spanPos (c.own s.myHall) p.2)) then { o with status := 6#4 } else o } := by
  intro gone
  unfold State.loseSpanIn
  rw [claimed]
  dsimp only
  split
  · rename_i nothing
    have nothing : gone = [] := nothing
    simp [nothing, State.onHart]
  · rfl

theorem State.loseSpanIn_struck {s : State} {c : Claim} (claimed : s.hart.claim = some c) (lost : Place → Bool) :
    SpanStruck s (s.loseSpanIn lost) lost ∧ { s.loseSpanIn lost with hart := s.hart } = s := by
  rw [State.loseSpanIn_claimed claimed lost]
  refine ⟨?_, rfl⟩
  unfold SpanStruck
  simp only [claimed]
  refine ⟨fun j small => ?_, ?_, rfl⟩
  · refine (getLsbD_foldl_setBit _ _ _ j small).trans ?_
    rw [List.any_filter]
  · refine List.map_congr_left fun o _ => ?_
    simp only [List.any_filter, spanPos, Bool.and_eq_true, decide_eq_true_eq]

theorem spanPositionLost_struck (s : State) (c : Claim) (p : Place) (pos : BitVec 3) (claimed : s.hart.claim = some c)
    (other : pos.toNat ≠ c.own s.myHall)
    (here : c.places[if pos.toNat < c.own s.myHall then pos.toNat else pos.toNat - 1]? = some p) :
    ∃ t, exec (.spanPositionLost pos) s = .next t ∧ SpanStruck s t (· == p) ∧ { t with hart := s.hart } = s := by
  refine ⟨s.loseSpanIn (· == p), ?_, State.loseSpanIn_struck claimed _⟩
  show execSpanPositionLost pos s = _
  unfold execSpanPositionLost
  rw [claimed]
  dsimp only
  rw [if_neg other, here]
  rfl

theorem spanPositionLost_unclaimed (s : State) (pos : BitVec 3) (unclaimed : s.hart.claim = none) :
    exec (.spanPositionLost pos) s = .next s := by
  show execSpanPositionLost pos s = _
  unfold execSpanPositionLost
  rw [unclaimed]
  rfl

end Sys2Proof.Machine

/-! # The traps of a fetch (R59, R69, R94) -/

namespace Sys2Proof.Machine

theorem append_eq_or (p w : BitVec 32) : (p ++ w : BitVec 64) = w.setWidth 64 ||| p.setWidth 64 <<< 32 := by
  refine BitVec.eq_of_getLsbD_eq fun i hi => ?_
  simp only [BitVec.getLsbD_append, BitVec.getLsbD_or, BitVec.getLsbD_setWidth, BitVec.getLsbD_shiftLeft, hi, decide_true, Bool.true_and]
  by_cases low : i < 32
  · simp [low]
  · have above : w.getLsbD i = false := BitVec.getLsbD_of_ge w i (by omega)
    have inside : i - 32 < 64 := by omega
    simp [low, above, inside]

/-- The value that an illegal instruction traps with is its word below its prefix, if any. -/
theorem State.takeIllegal_eq (s : State) (word pfxWord : IWord) :
    s.takeIllegal word (if pfxWord = 0#32 then none else some pfxWord)
      = ({ s with hart := { s.hart with ir := (if pfxWord = 0#32 then none else some pfxWord, word) } } : State).takeTrap
          { code := 3, eval := word.setWidth 64 ||| (if pfxWord = 0#32 then 0#64 else pfxWord.setWidth 64 <<< 32), pfx := pfxWord != 0#32 } := by
  unfold State.takeIllegal State.illegal State.irWord
  by_cases bare : pfxWord = 0#32
  · simp only [bare, if_pos, State.onHart, Option.getD_none, append_eq_or]
    rfl
  · simp only [if_neg bare, State.onHart, Option.getD_some, append_eq_or, Option.isSome_some, bne_iff_ne.mpr bare]

theorem State.fetchFault_plain (s : State) (code : Nat) (va : Word) (pfx : Bool) (why : Option Reason)
    (plain : why = none ∨ s.shadowed = false) :
    s.fetchFault code va pfx why = s.takeTrap { code := code, eval := va, after := s.hart.transfer, pfx := pfx } := by
  unfold State.fetchFault
  obtain rfl | plain := plain
  · rfl
  · rw [plain]
    cases why <;> rfl

theorem State.atBoundary_of {s : State} (runs : s.hart.stopped = false) (free : s.hart.wait = none) (real : s.ra = none) :
    s.atBoundary = true := by
  rw [State.atBoundary, runs, free, real]
  rfl

theorem fetchTraps (s : State) (word pfxWord : IWord) (va : Word) (runs : s.hart.stopped = false) (free : s.hart.wait = none)
    (real : s.ra = none) :
    exec (.illegalInstruction word pfxWord) s = .next
        (({ s with hart := { s.hart with ir := (if pfxWord = 0#32 then none else some pfxWord, word) } } : State).takeTrap
          { code := 3, eval := word.setWidth 64 ||| (if pfxWord = 0#32 then 0#64 else pfxWord.setWidth 64 <<< 32), pfx := pfxWord != 0#32 })
      ∧ exec (.instructionFetchFault 1#8 va) s = .next (s.takeTrap { code := 1, eval := va, after := s.hart.transfer })
      ∧ ((∀ r, s.hartXlate s.myHall .fetch va 4 ≠ .error r) ∨ s.shadowed = false →
          exec (.instructionFetchFault 2#8 va) s = .next (s.takeTrap { code := 2, eval := va, after := s.hart.transfer })) := by
  have boundary := State.atBoundary_of runs free real
  refine ⟨?_, ?_, fun plain => ?_⟩
  · show execIllegalInstruction word pfxWord s = _
    rw [← State.takeIllegal_eq]
    unfold execIllegalInstruction
    rw [boundary]
    rfl
  · show execInstructionFetchFault 1#8 va s = _
    unfold execInstructionFetchFault
    rw [boundary, ← State.fetchFault_plain s 1 va false none (.inl rfl)]
    rfl
  · show execInstructionFetchFault 2#8 va s = _
    have fault := State.fetchFault_plain s 2 va false
      (match s.hartXlate s.myHall .fetch va 4 with | .error r => some r | .ok _ => none) (by
        refine plain.imp_left fun mapped => ?_
        split
        · rename_i r why
          exact absurd why (mapped r)
        · rfl)
    unfold execInstructionFetchFault
    rw [boundary, ← fault]
    rfl

end Sys2Proof.Machine

/-! # Saved contexts, settled -/

namespace Sys2Proof.Machine

/-- CONTEXT_SAVE and PREEMPTION_TIMEOUT of a group whose every unit was asked to stop. -/
theorem contextSaved (s : State) (vf : BitVec 10) (serial : BitVec 32) (group : Nat) (u0 : UnitRec) (r : List UnitRec) (page : Nat)
    (us : s.groupOf vf serial group = u0 :: r) (room : s.freeImage u0.slotHall (imagePages u0.spBytes u0.size) = some page)
    (asked : ∀ u ∈ s.groupOf vf serial group, u.onHart = true ∧ u.preempt = true) (stops : s.canStop = true) :
    ∃ t, exec (.contextSave vf serial group) s = .next t ∧ exec (.preemptionTimeout vf serial group) s = .next t
      ∧ (∀ u ∈ t.units, u.key.vf = vf ∧ u.key.serial = serial ∧ u.group = group → u.st = .preempted ∧ u.preempt = false ∧ u.image = page)
      ∧ (∀ u ∈ s.groupOf vf serial group, s.isMine u = true → s.hart.unit = some u.key →
          t.hart.unit = none ∧ t.hart.claim = none ∧ t.hart.wait = none) := by
  obtain ⟨t, h, hall, units, hart⟩ := s.saveGroup_asked vf serial group u0 r page us room asked stops
  refine ⟨s.saveGroup vf serial group, rfl, rfl, fun w hw mine => ?_, fun u hu isMine runs => ?_⟩
  · rw [units] at hw
    obtain ⟨u, -, record⟩ := List.mem_map.mp hw
    exact savedRecord_of_group record mine
  · have ran : ((s.groupOf vf serial group).find? fun u => s.isMine u && s.hart.unit == some u.key).isSome = true :=
      List.find?_isSome.mpr ⟨u, hu, by simp [isMine, runs]⟩
    rw [hart, if_pos ran]
    exact ⟨rfl, rfl, rfl⟩

/-- RESUMPTION of the only unit of a group on the hart of the model. -/
theorem resumedHere (s : State) (vf : BitVec 10) (serial : BitVec 32) (group : Nat) (u : UnitRec) (r : List (BitVec 3))
    (us : s.groupOf vf serial group = [u]) (may : s.mayResume vf serial group s.myHall s.myCluster = true)
    (free : s.freeHarts s.myHall s.myCluster = s.myHart :: r) (good : (s.readImage u s.myHall s.myCluster).slotBad u = false)
    (unclaimed : (s.readImage u s.myHall s.myCluster).word (s.slotPa u.slotHall u.slot + 0x150) = 0#64) :
    let base := s.slotPa u.slotHall u.slot
    let v := s.readImage u s.myHall s.myCluster
    let t := s.resumeGroup vf serial group s.myHall s.myCluster
    t.hart.unit = some u.key ∧ t.hart.claim = none ∧ t.ra = none ∧ t.hart.wait = none ∧ t.hart.pc = v.word (base + 0x100)
      ∧ (∀ k, k ≠ 0#5 → t.g k = v.word (base + 8 * k.toNat)) ∧ t.hart.srseed = v.word (base + 0x140)
      ∧ ∀ m : Mode, fieldNat (v.word (base + 0x108)) 0 2 = m.code → t.hart.mode = m := by
  dsimp only
  obtain ⟨-, slots⟩ := s.readImage_eq u s.myHall s.myCluster
  have all_good : ∀ w ∈ s.groupOf vf serial group, (s.readImage u s.myHall s.myCluster).slotBad w = false := by
    rw [us]
    simpa using good
  rw [State.resumeGroup_good us may all_good, State.resumeMine_here (s.withResumed_isMine u _ _ _) free, ← slots]
  rw [← slots] at unclaimed
  exact State.resumeHart_registers _ (u.resumedAt s.myHall s.myCluster s.myHart s.nextId) unclaimed

/-- RESUMPTION of a group on another cluster. -/
theorem resumedElsewhere (s : State) (vf : BitVec 10) (serial : BitVec 32) (group : Nat) (hall : BitVec 4) (cluster : BitVec 5)
    (may : s.mayResume vf serial group hall cluster = true) (away : hall ≠ s.myHall ∨ cluster ≠ s.myCluster)
    (good : ∀ u0 r, s.groupOf vf serial group = u0 :: r → ∀ u ∈ s.groupOf vf serial group, (s.readImage u0 hall cluster).slotBad u = false) :
    (∀ u ∈ (s.resumeGroup vf serial group hall cluster).units, u.key.vf = vf ∧ u.key.serial = serial ∧ u.group = group →
        u.st = .running ∧ u.hall = hall ∧ u.cluster = cluster)
      ∧ (s.resumeGroup vf serial group hall cluster).hart = s.hart := by
  obtain ⟨⟨u0, r, us⟩, -⟩ := State.harts_of_mayResume may
  rw [State.resumeGroup_good us may (good u0 r us), State.resumeMine_elsewhere (s.withResumed_isMine u0 _ _ _) away, ← us]
  exact ⟨fun w hw mine => State.withResumed_running may hw mine, s.withResumed_hart u0 _ _ _⟩

theorem contextsSavedAndResumed : SavedContexts := by
  intro s vf serial group hall cluster stop pos word pfxWord va us queue back mine
  refine ⟨fun u0 r page first room asked stops => contextSaved s vf serial group u0 r page first room asked stops, fun unasked => ?_,
    fun l heads ser single served may => ⟨fun u0 r u first hu bad => ?_, fun away good => ?_, ?_⟩, fun idle => ?_,
    fun r ahead => aheadStops s r stop ahead, fun ahead => execFaultRunAheadStop_idle ahead stop,
    fun c p claimed other here => spanPositionLost_struck s c p pos claimed other here, spanPositionLost_unclaimed s pos,
    fetchTraps s word pfxWord va⟩
  · have kept : happened (s.saveGroup vf serial group) = .next s := congrArg happened (s.saveGroup_unasked vf serial group unasked)
    exact ⟨kept, kept⟩
  · exact ⟨_, congrArg happened (State.resumption_group heads ser single served may), State.resumeGroup_loses first may hu bad⟩
  · exact ⟨_, congrArg happened (State.resumption_group heads ser single served may),
      resumedElsewhere s vf serial group hall cluster may away good⟩
  · rintro u r first rfl rfl free base v unclaimed good
    exact ⟨_, congrArg happened (State.resumption_group heads ser single served may),
      resumedHere s vf serial group u r first may free good unclaimed⟩
  · exact congrArg happened (State.resumption_idle idle)

/-- Settles O50: saves and resumptions record by record, the stops of run-ahead and lost positions by the equation of each event, and
instructions left part-way by what the schedule makes of one turn. -/
theorem savedContexts : Obligations.SavedContexts := ⟨contextsSavedAndResumed, leftPartWay⟩

end Sys2Proof.Machine

/-! # Register and immediate arithmetic (R81 to R84) -/

namespace Sys2Proof.Machine

/-! ## Writing a result -/

/-- A scalar instruction writes its result and retires (R81). -/
theorem scalar_wrote (d : BitVec 5) (v : Word) (s : State) :
    ∃ t, scalar d v s = .next t ∧ WroteG s t d v s.hart.fstat 4#64 := by
  refine ⟨_, rfl, ?_⟩
  obtain ⟨pc, transfer, g, hart, elsewhere⟩ := s.setPc_moved d v (s.hart.pc + 4#64) false
  have fstat := congrArg Hart.fstat hart
  rw [State.retire, State.setG_hart_pc]
  exact ⟨g, pc, transfer, fstat, congrArg (fun h : Hart => { h with fstat := s.hart.fstat }) hart, elsewhere⟩

theorem computes_of {i : Instr} {d : BitVec 5} {r v : State → Word} (run : ∀ s, exec i s = scalar d (r s) s)
    (value : ∀ s, r s = v s) : Computes i d v := fun s => run s ▸ value s ▸ scalar_wrote d (r s) s

/-! ## Words -/

theorem sr_toNat (m : BitVec 6) (d a b : BitVec 5) (f : BitVec 11) :
    (sr m d a b f).toNat = m.toNat * 2 ^ 26 + d.toNat * 2 ^ 21 + a.toNat * 2 ^ 16 + b.toNat * 2 ^ 11 + f.toNat := by
  simp only [sr, append_toNat]
  omega

theorem ofNat_sr (m : BitVec 6) (d a b : BitVec 5) (f : BitVec 11) :
    BitVec.ofNat 32 (m.toNat * 2 ^ 26 + d.toNat * 2 ^ 21 + a.toNat * 2 ^ 16 + b.toNat * 2 ^ 11 + f.toNat) = sr m d a b f := by
  rw [← sr_toNat, BitVec.ofNat_toNat, BitVec.setWidth_eq]

theorem salu_of {i : Instr} {d a b : BitVec 5} {f : BitVec 11} {r v : State → Word}
    (word : encode i = some (none, sr 0x01#6 d a b f)) (run : ∀ s, exec i s = scalar d (r s) s) (value : ∀ s, r s = v s) :
    Salu f.toNat i d a b v :=
  ⟨word.trans (congrArg (fun w => some (none, w)) (ofNat_sr 0x01#6 d a b f).symm), computes_of run value⟩

theorem immediate_of {i : Instr} {m : BitVec 6} {d a : BitVec 5} {o : BitVec 16} {r v : State → Word}
    (word : encode i = some (none, si m d a o)) (run : ∀ s, exec i s = scalar d (r s) s) (value : ∀ s, r s = v s) :
    Immediate m.toNat i d a o v := ⟨hasWord_si word, computes_of run value⟩

/-- A word whose fields name an instruction of another word has a field that must be zero and is not (R63). -/
theorem decode_badField {i : Instr} {w : IWord} (fields : decodeScalar w = some i) (other : encode i ≠ some (none, w)) :
    decode none w = .error .badField := by
  simp [decode, decodeFields, fields, decodeCheck, other]

/-- The b field of an instruction of one source is zero (R82). -/
theorem decode_unary_badField {i : Instr} {d a b : BitVec 5} {f : BitVec 11} (nonzero : b ≠ 0#5)
    (fields : decodeSalu (sr 0x01#6 d a b f) = some i) (word : encode i = some (none, sr 0x01#6 d a 0#5 f)) :
    decode none (sr 0x01#6 d a b f) = .error .badField := by
  refine decode_badField ((Laws.ReadsBack.at01 _ (Laws.sr_m ..)).trans fields) fun same => nonzero ?_
  have words := congrArg (fun q : Option (Option IWord × IWord) => q.map fun q => q.2.extractLsb' 11 5) (same.symm.trans word)
  simpa [Laws.sr_b] using words

/-! ## Values of Table 5.1 -/

theorem sub_eq_ofInt (x y : Word) : x - y = BitVec.ofInt 64 (x.toInt - y.toInt) := by
  simp [← BitVec.toInt_inj]

theorem shiftLeft_eq_ofNat (x : Word) (k : Nat) : x <<< k = BitVec.ofNat 64 (x.toNat * 2 ^ k) := by
  simp [← BitVec.toNat_inj, Nat.shiftLeft_eq]

theorem ushiftRight_eq_ofNat (x : Word) (k : Nat) : x >>> k = BitVec.ofNat 64 (x.toNat / 2 ^ k) := by
  rw [← Nat.shiftRight_eq_div_pow, ← BitVec.toNat_ushiftRight, BitVec.ofNat_toNat, BitVec.setWidth_eq]

theorem sshiftRight_eq_ofInt (x : Word) (k : Nat) : x.sshiftRight k = BitVec.ofInt 64 (x.toInt / 2 ^ k) := by
  rw [BitVec.sshiftRight, Int.shiftRight_eq_div_pow]
  norm_cast

/-- The bits that leave a word at one end and those that stay do not meet. -/
theorem rotated_eq_ofNat (x : Word) (i j : Nat) (whole : i + j = 64) :
    x <<< i ||| x >>> j = BitVec.ofNat 64 (x.toNat * 2 ^ i + x.toNat / 2 ^ j) := by
  have apart : x <<< i &&& x >>> j = 0#64 := by
    ext k hk
    by_cases low : k < i
    · simp [low]
    · simp [BitVec.getLsbD_of_ge x (j + k) (by omega)]
  rw [← BitVec.add_eq_or_of_and_eq_zero _ _ apart, BitVec.ofNat_add, ← shiftLeft_eq_ofNat, ← ushiftRight_eq_ofNat]

theorem rotateLeft_eq_ofNat (x : Word) (k : Nat) (small : k < 64) :
    x.rotateLeft k = BitVec.ofNat 64 (x.toNat * 2 ^ k + x.toNat / 2 ^ (64 - k)) := by
  rw [BitVec.rotateLeft_def, Nat.mod_eq_of_lt small, rotated_eq_ofNat x k (64 - k) (by omega)]

theorem rotateRight_eq_ofNat (x : Word) (k : Nat) (small : k < 64) :
    x.rotateRight k = BitVec.ofNat 64 (x.toNat / 2 ^ k + x.toNat * 2 ^ (64 - k)) := by
  rw [BitVec.rotateRight_def, Nat.mod_eq_of_lt small, BitVec.or_comm, rotated_eq_ofNat x (64 - k) k (by omega), Nat.add_comm]

theorem flagWord_decide (c : Prop) [Decidable c] : flagWord (decide c) = if c then 1#64 else 0#64 := by
  simp [flagWord]

theorem minS_eq_ofInt (x y : Word) : (if x.sle y then x else y) = BitVec.ofInt 64 (min x.toInt y.toInt) := by
  rw [BitVec.sle_eq_decide, min_def, apply_ite (BitVec.ofInt 64), BitVec.ofInt_toInt, BitVec.ofInt_toInt]
  simp only [decide_eq_true_eq]

theorem maxS_eq_ofInt (x y : Word) : (if y.sle x then x else y) = BitVec.ofInt 64 (max x.toInt y.toInt) := by
  rw [BitVec.sle_eq_decide, max_comm, max_def, apply_ite (BitVec.ofInt 64), BitVec.ofInt_toInt, BitVec.ofInt_toInt]
  simp only [decide_eq_true_eq]

theorem minU_eq_ofNat (x y : Word) : (if x.ule y then x else y) = BitVec.ofNat 64 (min x.toNat y.toNat) := by
  rw [BitVec.ule_eq_decide, min_def, apply_ite (BitVec.ofNat 64), BitVec.ofNat_toNat, BitVec.ofNat_toNat]
  simp

theorem maxU_eq_ofNat (x y : Word) : (if y.ule x then x else y) = BitVec.ofNat 64 (max x.toNat y.toNat) := by
  rw [BitVec.ule_eq_decide, max_comm, max_def, apply_ite (BitVec.ofNat 64), BitVec.ofNat_toNat, BitVec.ofNat_toNat]
  simp

theorem mul_eq_ofInt (x y : Word) : x * y = BitVec.ofInt 64 (x.toInt * y.toInt) := by
  rw [BitVec.ofInt_mul, BitVec.ofInt_toInt, BitVec.ofInt_toInt]

theorem mulHiS_eq_ofInt (x y : Word) : mulHiS x y = BitVec.ofInt 64 (x.toInt * y.toInt / 2 ^ 64) := by
  have product : x.signExtend 128 * y.signExtend 128 = BitVec.ofInt 128 (x.toInt * y.toInt) := (BitVec.ofInt_mul _ _).symm
  apply BitVec.eq_of_toNat_eq
  rw [mulHiS, product, BitVec.toNat_setWidth, BitVec.toNat_ushiftRight, Nat.shiftRight_eq_div_pow, BitVec.toNat_ofInt, BitVec.toNat_ofInt]
  omega

theorem mulHiU_eq_ofNat (x y : Word) : mulHiU x y = BitVec.ofNat 64 (x.toNat * y.toNat / 2 ^ 64) := by
  apply BitVec.eq_of_toNat_eq
  simp only [mulHiU, BitVec.toNat_setWidth, BitVec.toNat_ushiftRight, Nat.shiftRight_eq_div_pow, BitVec.toNat_mul, BitVec.toNat_ofNat]
  rw [Nat.mod_eq_of_lt (a := x.toNat) (by omega), Nat.mod_eq_of_lt (a := y.toNat) (by omega)]
  omega

theorem divS_eq (x y : Word) : divS x y = if y = 0#64 then BitVec.allOnes 64 else BitVec.ofInt 64 (x.toInt.tdiv y.toInt) := by
  have quotient : x.sdiv y = BitVec.ofInt 64 (x.toInt.tdiv y.toInt) := by rw [← BitVec.toInt_inj, BitVec.toInt_sdiv, BitVec.toInt_ofInt]
  rw [divS, quotient]

theorem divU_eq (x y : Word) : divU x y = if y = 0#64 then BitVec.allOnes 64 else BitVec.ofNat 64 (x.toNat / y.toNat) := by
  rw [divU, BitVec.udiv_def]

theorem remU_eq (x y : Word) : remU x y = if y = 0#64 then x else BitVec.ofNat 64 (x.toNat % y.toNat) := by
  rw [remU, BitVec.umod_def]

theorem remS_eq (x y : Word) : remS x y = if y = 0#64 then x else BitVec.ofInt 64 (x.toInt.tmod y.toInt) := by
  rw [remS, ← BitVec.toInt_srem, BitVec.ofInt_toInt]

/-- DIV(x, y) × y + REM(x, y) = x, for y = 0 too. -/
theorem divS_mul_add_remS (x y : Word) : divS x y * y + remS x y = x := by
  rw [divS_eq, remS_eq]
  split
  · next zero => rw [zero, BitVec.mul_zero, BitVec.zero_add]
  · calc _ = BitVec.ofInt 64 (x.toInt.tdiv y.toInt * y.toInt + x.toInt.tmod y.toInt) := by
          rw [BitVec.ofInt_add, BitVec.ofInt_mul, BitVec.ofInt_toInt]
      _ = x := by rw [Int.tdiv_mul_add_tmod, BitVec.ofInt_toInt]

theorem countP_range_ge (m n : Nat) : (List.range n).countP (fun i => decide (m ≤ i)) = n - m := by
  induction n with
  | zero => simp
  | succ n ih =>
    rw [List.range_succ, List.countP_append, ih]
    by_cases h : m ≤ n <;> simp [h] <;> omega

theorem countP_range_lt (m n : Nat) : (List.range n).countP (fun i => decide (i < m)) = min m n := by
  induction n with
  | zero => simp
  | succ n ih =>
    rw [List.range_succ, List.countP_append, ih]
    by_cases h : n < m <;> simp [h] <;> omega

theorem leadingZeros_eq_countP (x : Word) : leadingZeros x = (List.range 64).countP fun i => decide (x.toNat < 2 ^ i) := by
  by_cases zero : x = 0#64
  · subst zero; decide
  · have ne : x.toNat ≠ 0 := fun h => zero (BitVec.eq_of_toNat_eq h)
    simp only [← Nat.log2_lt ne, ← Nat.succ_le_iff, Nat.succ_eq_add_one, countP_range_ge, leadingZeros, if_neg zero]
    omega

theorem mod_two_pow_eq_zero (x n : Nat) : x % 2 ^ n = 0 ↔ ∀ j < n, x.testBit j = false := by
  refine ⟨fun h j hj => ?_, fun h => Nat.eq_of_testBit_eq fun j => ?_⟩
  · have low := congrArg (·.testBit j) h
    simpa [Nat.testBit_mod_two_pow, hj] using low
  · rw [Nat.testBit_mod_two_pow, Nat.zero_testBit]
    by_cases hj : j < n <;> simp [hj, h]

/-- The lowest one bit, or the width of a word without one. -/
theorem trailingZeros_spec (x : Word) :
    trailingZeros x ≤ 64 ∧ (∀ j < trailingZeros x, x.toNat.testBit j = false)
      ∧ (trailingZeros x < 64 → x.toNat.testBit (trailingZeros x) = true) := by
  unfold trailingZeros
  cases found : (List.range 64).find? fun i => x.getLsbD i with
  | none =>
    rw [List.find?_range_eq_none] at found
    exact ⟨Nat.le_refl 64, fun j hj => (Bool.not_eq_true' _).mp (found j hj), fun h => absurd h (Nat.lt_irrefl 64)⟩
  | some k =>
    obtain ⟨one, small, below⟩ := List.find?_range_eq_some.mp found
    exact ⟨Nat.le_of_lt (List.mem_range.mp small), fun j hj => (Bool.not_eq_true' _).mp (below j hj), fun _ => one⟩

theorem trailingZeros_eq_countP (x : Word) :
    trailingZeros x = (List.range 64).countP fun i => decide (x.toNat % 2 ^ (i + 1) = 0) := by
  obtain ⟨small, below, one⟩ := trailingZeros_spec x
  have below_iff : ∀ i ∈ List.range 64, (decide (x.toNat % 2 ^ (i + 1) = 0) = true ↔ decide (i < trailingZeros x) = true) := by
    intro i hi
    rw [decide_eq_true_iff, decide_eq_true_iff, mod_two_pow_eq_zero]
    refine ⟨fun zeros => ?_, fun hi j hj => below j (by omega)⟩
    by_contra reached
    have := zeros (trailingZeros x) (by omega)
    rw [one (by rw [List.mem_range] at hi; omega)] at this
    cases this
  rw [List.countP_congr below_iff, countP_range_lt, Nat.min_eq_left small]

theorem popCount_eq_countP {w : Nat} (x : BitVec w) : popCount x = (List.range w).countP fun i => x.toNat.testBit i := by
  have counts (l : List Nat) (n : Nat) : l.foldl (fun n i => n + bit (x.getLsbD i)) n = n + l.countP fun i => x.toNat.testBit i := by
    induction l generalizing n with
    | nil => rfl
    | cons i l ih =>
      rw [List.foldl_cons, ih, List.countP_cons, BitVec.getLsbD]
      cases x.toNat.testBit i <;> simp [bit]
      omega
  exact (counts _ 0).trans (Nat.zero_add _)

theorem leBytes_eight (x : Word) : leBytes 8 x.toNat = [x.extractLsb' 0 8, x.extractLsb' 8 8, x.extractLsb' 16 8, x.extractLsb' 24 8,
    x.extractLsb' 32 8, x.extractLsb' 40 8, x.extractLsb' 48 8, x.extractLsb' 56 8] := by
  simp only [leBytes, BitVec.extractLsb', Nat.shiftRight_eq_div_pow, Nat.div_div_eq_div_mul]
  norm_num

theorem leWord_eight (a b c d e f g h : Byte) : leWord [a, b, c, d, e, f, g, h] = h ++ g ++ f ++ e ++ d ++ c ++ b ++ a := by
  apply BitVec.eq_of_toNat_eq
  simp only [append_toNat, leWord, leNat, BitVec.toNat_ofNat]
  omega

theorem byteSwap_eq (x : Word) : byteSwap x = leWord (leBytes 8 x.toNat).reverse := by
  rw [leBytes_eight]
  exact (leWord_eight ..).symm

theorem zextFrom_getLsbD (x : Word) (n i : Nat) (h : n < i) : (zextFrom x n).getLsbD i = false := by
  simp only [zextFrom, BitVec.getLsbD_ofNat, Nat.testBit_mod_two_pow]
  simp [show ¬i < n + 1 by omega]

theorem allOnes_shiftLeft (n : Nat) : BitVec.allOnes 64 <<< n = BitVec.ofInt 64 (-2 ^ n) := by
  rw [BitVec.shiftLeft_eq_mul_twoPow, ← BitVec.neg_one_eq_allOnes, BitVec.neg_mul, BitVec.one_mul, BitVec.ofInt_neg]
  have power : BitVec.twoPow 64 n = BitVec.ofInt 64 ((2 ^ n : Nat) : Int) := by
    rw [BitVec.ofInt_natCast, ← BitVec.toNat_inj, BitVec.toNat_twoPow, BitVec.toNat_ofNat]
  rw [power]
  norm_cast

theorem testBit_iff_le_mod (x n : Nat) : x.testBit n = true ↔ 2 ^ n ≤ x % 2 ^ (n + 1) := by
  rw [Nat.testBit_eq_decide_div_mod_eq, decide_eq_true_iff, Nat.pow_succ, Nat.mod_mul]
  have low := Nat.mod_lt x (Nat.two_pow_pos n)
  rcases Nat.mod_two_eq_zero_or_one (x / 2 ^ n) with h | h <;> rw [h] <;> omega

theorem sextFrom_eq_ofInt (x : Word) (n : Nat) : sextFrom x n = BitVec.ofInt 64 (toSigned (n + 1) x.toNat) := by
  unfold sextFrom toSigned
  rw [BitVec.getLsbD, Nat.add_sub_cancel]
  by_cases h : x.toNat.testBit n = true
  · have apart : zextFrom x n &&& (BitVec.allOnes 64 <<< (n + 1)) = 0#64 := by
      ext i hi
      by_cases low : i < n + 1
      · simp [low]
      · simp [← BitVec.getLsbD_eq_getElem, zextFrom_getLsbD x n i (by omega)]
    rw [if_pos h, if_neg (Nat.not_lt.mpr ((testBit_iff_le_mod _ n).mp h)), ← BitVec.add_eq_or_of_and_eq_zero _ _ apart,
      allOnes_shiftLeft, sub_eq_add_neg, BitVec.ofInt_add, BitVec.ofInt_natCast]
    rfl
  · rw [if_neg h, if_pos (Nat.not_le.mp (mt (testBit_iff_le_mod _ n).mpr h)), BitVec.ofInt_natCast]
    rfl

/-! ## The instructions of two registers -/

theorem registerLogicAndShifts : RegisterLogicAndShifts := by
  intro d a b x y k
  have amount s : k s < 64 := Nat.mod_lt _ (by decide)
  refine ⟨salu_of (f := 0#11) rfl (fun _ => rfl) fun s => BitVec.add_def ..,
    salu_of (f := 1#11) rfl (fun _ => rfl) fun s => sub_eq_ofInt ..,
    salu_of (f := 2#11) rfl (fun _ => rfl) fun _ => rfl, salu_of (f := 3#11) rfl (fun _ => rfl) fun _ => rfl,
    salu_of (f := 4#11) rfl (fun _ => rfl) fun _ => rfl, salu_of (f := 5#11) rfl (fun _ => rfl) fun _ => rfl,
    salu_of (f := 6#11) rfl (fun _ => rfl) fun _ => rfl,
    salu_of (f := 7#11) rfl (fun _ => rfl) fun s => shiftLeft_eq_ofNat ..,
    salu_of (f := 8#11) rfl (fun _ => rfl) fun s => ushiftRight_eq_ofNat ..,
    salu_of (f := 9#11) rfl (fun _ => rfl) fun s => sshiftRight_eq_ofInt ..,
    salu_of (f := 10#11) rfl (fun _ => rfl) fun s => rotateLeft_eq_ofNat _ _ (amount s),
    salu_of (f := 11#11) rfl (fun _ => rfl) fun s => rotateRight_eq_ofNat _ _ (amount s),
    salu_of (f := 12#11) rfl (fun _ => rfl) fun s => flagWord_decide _, salu_of (f := 13#11) rfl (fun _ => rfl) fun s => flagWord_decide _,
    salu_of (f := 14#11) rfl (fun _ => rfl) fun s => minS_eq_ofInt .., salu_of (f := 15#11) rfl (fun _ => rfl) fun s => maxS_eq_ofInt ..,
    salu_of (f := 16#11) rfl (fun _ => rfl) fun s => minU_eq_ofNat .., salu_of (f := 17#11) rfl (fun _ => rfl) fun s => maxU_eq_ofNat ..,
    salu_of (f := 31#11) rfl (fun _ => rfl) fun s => (ite_not ..).symm, fun f nonzero => ?_⟩
  have word : BitVec.ofNat 32 (0x04000000 + d.toNat * 2 ^ 21 + a.toNat * 2 ^ 16 + b.toNat * 2 ^ 11 + 25 + f)
      = sr 0x01#6 d a b (BitVec.ofNat 11 (25 + f)) := by
    have selector : (BitVec.ofNat 11 (25 + f)).toNat = 25 + f := by rw [BitVec.toNat_ofNat]; omega
    rw [← ofNat_sr, selector, Nat.add_assoc _ 25]
    rfl
  rw [word]
  match f with
  | 0 => exact decode_unary_badField (i := .clz d a) nonzero (by simp [decodeSalu, Laws.sr_low, Laws.sr_d, Laws.sr_a]) rfl
  | 1 => exact decode_unary_badField (i := .ctz d a) nonzero (by simp [decodeSalu, Laws.sr_low, Laws.sr_d, Laws.sr_a]) rfl
  | 2 => exact decode_unary_badField (i := .popc d a) nonzero (by simp [decodeSalu, Laws.sr_low, Laws.sr_d, Laws.sr_a]) rfl
  | 3 => exact decode_unary_badField (i := .bswp d a) nonzero (by simp [decodeSalu, Laws.sr_low, Laws.sr_d, Laws.sr_a]) rfl

theorem registerMultiplyDivideCount : RegisterMultiplyDivideCount := by
  intro d a b x y n quo rem count
  refine ⟨salu_of (f := 18#11) rfl (fun _ => rfl) fun s => mul_eq_ofInt ..,
    salu_of (f := 19#11) rfl (fun _ => rfl) fun s => mulHiS_eq_ofInt ..,
    salu_of (f := 20#11) rfl (fun _ => rfl) fun s => mulHiU_eq_ofNat .., salu_of (f := 21#11) rfl (fun _ => rfl) fun s => divS_eq ..,
    salu_of (f := 22#11) rfl (fun _ => rfl) fun s => divU_eq .., salu_of (f := 23#11) rfl (fun _ => rfl) fun s => remS_eq ..,
    salu_of (f := 24#11) rfl (fun _ => rfl) fun s => remU_eq ..,
    salu_of (f := 25#11) rfl (fun _ => rfl) fun s => congrArg (BitVec.ofNat 64) (leadingZeros_eq_countP _),
    salu_of (f := 26#11) rfl (fun _ => rfl) fun s => congrArg (BitVec.ofNat 64) (trailingZeros_eq_countP _),
    salu_of (f := 27#11) rfl (fun _ => rfl) fun s => congrArg (BitVec.ofNat 64) (popCount_eq_countP _),
    salu_of (f := 28#11) rfl (fun _ => rfl) fun s => byteSwap_eq _, salu_of (f := 29#11) rfl (fun _ => rfl) fun s => sextFrom_eq_ofInt ..,
    salu_of (f := 30#11) rfl (fun _ => rfl) fun _ => rfl, fun s => ?_⟩
  rw [show quo s = divS (x s) (y s) from (divS_eq ..).symm, show rem s = remS (x s) (y s) from (remS_eq ..).symm]
  exact divS_mul_add_remS ..

/-- Settles O8: each operation on words gives the value of its row of Table 5.1, from `sub_eq_ofInt` to `sextFrom_eq_ofInt`, which
`scalar_wrote` writes and nothing else; the four refused words encode no instruction (`decode_unary_badField`). -/
theorem registerArithmetic : Obligations.RegisterArithmetic := ⟨registerLogicAndShifts, registerMultiplyDivideCount⟩

/-! ## The immediate forms -/

theorem add_signExtend (x : Word) (i : BitVec 16) : x + i.signExtend 64 = BitVec.ofInt 64 (x.toInt + i.toInt) := by
  rw [BitVec.ofInt_add, BitVec.ofInt_toInt]
  rfl

theorem signExtend_high (i : BitVec 16) : i.signExtend 64 <<< 16 = BitVec.ofInt 64 (i.toInt * 65536) := by
  rw [BitVec.shiftLeft_eq_mul_twoPow, BitVec.ofInt_mul]
  rfl

/-- The shift amount of a shift instruction, below its two bits of op (R84). -/
theorem shiftField_eq (k : Nat) (n : BitVec 6) : BitVec.ofNat 10 (k * 256) ++ n = BitVec.ofNat 16 (k * 2 ^ 14 + n.toNat) := by
  apply BitVec.eq_of_toNat_eq
  rw [append_toNat, BitVec.toNat_ofNat, BitVec.toNat_ofNat]
  omega

theorem shift_of {i : Instr} {d a : BitVec 5} {n : BitVec 6} {r v : State → Word} (k : Nat)
    (word : encode i = some (none, si 0x06#6 d a (BitVec.ofNat 10 (k * 256) ++ n))) (run : ∀ s, exec i s = scalar d (r s) s)
    (value : ∀ s, r s = v s) : Immediate 6 i d a (BitVec.ofNat 16 (k * 2 ^ 14 + n.toNat)) v := by
  rw [← shiftField_eq]
  exact immediate_of (m := 0x06#6) word run value

/-- Settles O9: each operand is extended or shifted as Table 5.3 says, and the operation on it is that of Table 5.1. -/
theorem immediateForms : Obligations.ImmediateForms := by
  intro d a i n x shift
  refine ⟨immediate_of (m := 2#6) rfl (fun _ => rfl) fun s => add_signExtend ..,
    immediate_of (m := 3#6) rfl (fun _ => rfl) fun s => congrArg (x s &&& ·) (BitVec.ofNat_toNat ..).symm,
    immediate_of (m := 4#6) rfl (fun _ => rfl) fun s => congrArg (x s ||| ·) (BitVec.ofNat_toNat ..).symm,
    immediate_of (m := 5#6) rfl (fun _ => rfl) fun s => congrArg (x s ^^^ ·) (BitVec.ofNat_toNat ..).symm,
    shift_of 0 rfl (fun _ => rfl) fun s => shiftLeft_eq_ofNat .., shift_of 1 rfl (fun _ => rfl) fun s => ushiftRight_eq_ofNat ..,
    shift_of 2 rfl (fun _ => rfl) fun s => sshiftRight_eq_ofInt .., shift_of 3 rfl (fun _ => rfl) fun s => rotateRight_eq_ofNat _ _ n.isLt,
    immediate_of (m := 7#6) rfl (fun _ => rfl) fun s => ?_, immediate_of (m := 8#6) rfl (fun _ => rfl) fun s => flagWord_decide _,
    immediate_of (m := 9#6) rfl (fun _ => rfl) fun s => signExtend_high i, immediate_of (m := 10#6) rfl (fun _ => rfl) fun s => ?_⟩
  · rw [← BitVec.toInt_signExtend_of_le (show 16 ≤ 64 by decide)]
    exact flagWord_decide _
  · rw [signExtend_high, BitVec.ofInt_add, BitVec.ofInt_toInt]

end Sys2Proof.Machine

/-! # Scalar loads (R85 to R87) -/

namespace Sys2Proof.Machine

/-! ## What counting an access changes -/

/-- s after an access: with other cached translations, counters of halls and host lines, and free values taken. -/
def State.accessed (s : State) (tlb : List TlbEntry) (walks : List WalkEntry) (halls : Vector Hall 16) (lines : List HostLine)
    (fresh : Nat) : State :=
  { s with tlb := tlb, walks := walks, halls := halls, hostLines := lines, fresh := fresh }

theorem State.addTraffic_eq (s : State) (h : BitVec 4) (i n : Nat) : ∃ halls, s.addTraffic h i n = { s with halls := halls } := by
  unfold State.addTraffic
  split <;> exact ⟨_, rfl⟩

theorem State.dropHostLine_eq (s : State) (pa : Nat) :
    ∃ halls lines, s.dropHostLine pa = { s with halls := halls, hostLines := lines } := by
  unfold State.dropHostLine
  dsimp only
  split
  · split
    · obtain ⟨halls, e⟩ := State.addTraffic_eq _ _ 9 64
      exact ⟨halls, _, e⟩
    · exact ⟨_, _, rfl⟩
  · exact ⟨_, _, rfl⟩

theorem State.hostRoom_eq (s : State) (h : BitVec 4) :
    ∃ halls lines fresh, s.hostRoom h = s.accessed s.tlb s.walks halls lines fresh := by
  unfold State.hostRoom
  dsimp only
  split
  · exact ⟨_, _, _, rfl⟩
  · split
    · obtain ⟨halls, lines, e⟩ := State.dropHostLine_eq { s with fresh := s.fresh + 1 } _
      exact ⟨halls, lines, _, e⟩
    · exact ⟨_, _, _, rfl⟩

theorem State.countHost_eq (s : State) (h : BitVec 4) (pa n : Nat) (write : Bool) :
    ∃ halls lines fresh, s.countHost h pa n write = s.accessed s.tlb s.walks halls lines fresh := by
  have traffic (t : State) (i m : Nat) (same : { t with hostLines := s.hostLines } = s) :
      ∃ halls lines fresh, t.addTraffic h i m = s.accessed s.tlb s.walks halls lines fresh := by
    obtain ⟨halls, e⟩ := t.addTraffic_eq h i m
    exact ⟨halls, t.hostLines, s.fresh, by rw [e, ← same]; rfl⟩
  unfold State.countHost
  split
  · exact traffic _ _ _ rfl
  · split
    · dsimp only
      split <;> exact traffic _ _ _ (by split <;> rfl)
    · obtain ⟨halls, lines, fresh, room⟩ := s.hostRoom_eq h
      obtain ⟨halls', e⟩ := (s.hostRoom h).addTraffic_eq h 8 64
      rw [room] at e
      exact ⟨halls', _, fresh, by dsimp only; rw [room, e]; rfl⟩

/-- Counting an access changes counters of its hall, and which host lines the L2s hold. -/
theorem State.count_eq (s : State) (h : BitVec 4) (pa n : Nat) (write : Bool) :
    ∃ halls lines fresh, s.count h pa n write = s.accessed s.tlb s.walks halls lines fresh := by
  unfold State.count
  split
  · exact s.countHost_eq h pa n write
  · obtain ⟨halls, e⟩ := s.addTraffic_eq h _ n
    exact ⟨halls, _, _, e⟩

/-! ## What a load finds -/

theorem State.readAtHome_served (s : State) (who : Option (BitVec 10)) (h : BitVec 4) (x : Xl) (n : Nat) (nrm : x.cls = .nrm)
    (admitted : s.refusal who h x.pa n false = none) (clean : s.poisoned x.pa n = false) :
    s.readAtHome who h x n = (s.count h x.pa n false, .ok (s.bytes x.pa n)) := by
  simp [State.readAtHome, State.readHome, admitted, clean, nrm]

/-- A load of an NRM page that no window covers reads its home. -/
theorem State.readLine_served (s : State) (h : BitVec 4) (win : Bool) (va : Word) (x : Xl) (n : Nat) (ra : s.ra = none)
    (idle : s.hart.posted = []) (nrm : x.cls = .nrm) (uncovered : win = true → s.windowLine h va = none)
    (admitted : s.refusal s.who h x.pa n false = none) (clean : s.poisoned x.pa n = false) :
    s.readLine h win va x n = (s.count h x.pa n false, .ok (s.bytes x.pa n)) := by
  have window : (if win then s.windowLine h va else none) = none := by
    cases win with
    | true => exact uncovered rfl
    | false => rfl
  have source : s.readSource s.who h x n = (s.count h x.pa n false, .ok (s.bytes x.pa n)) := by
    rw [State.readSource, State.replicaAt, nrm]
    exact s.readAtHome_served _ _ _ _ nrm admitted clean
  obtain ⟨halls, lines, fresh, e⟩ := s.count_eq h x.pa n false
  rw [State.readLine, s.settleAt_idle _ _ idle]
  dsimp only
  rw [window]
  dsimp only
  rw [source, State.uncount, e, show (s.accessed s.tlb s.walks halls lines fresh).ra = none from ra]
  rfl

/-- A load of an NRM page that passes its checks and that its home serves finds the bytes of memory (R86, R87). -/
theorem State.loadFrom_served (s : State) (win : Bool) (va : Word) (n : Nat) (x : Xl) (ra : s.ra = none) (idle : s.hart.posted = [])
    (found : s.locate s.myHall .load va n n loadClasses = .ok x) (nrm : x.cls = .nrm)
    (uncovered : win = true → s.windowLine s.myHall va = none) (admitted : s.refusal s.who s.myHall x.pa n false = none)
    (clean : s.poisoned x.pa n = false) :
    ∃ tlb walks halls lines fresh, s.loadFrom s.myHall win va n n loadClasses [n]
      = (s.accessed tlb walks halls lines fresh, .bytes (s.bytes x.pa n)) := by
  obtain ⟨-, -, xlate, -⟩ := (s.locate_eq_ok ..).mp found
  obtain ⟨tlb, walks, kept⟩ := s.keepXlate_of_hartXlate _ _ _ _ _ (by decide) xlate
  obtain ⟨halls, lines, fresh, counted⟩ := (s.caching tlb walks).count_eq s.myHall x.pa n false
  have line := (s.caching tlb walks).readLine_served s.myHall win va x n ra idle nrm uncovered admitted clean
  rw [counted] at line
  have cached : s.reach s.myHall .load va n n loadClasses = (s.caching tlb walks, .ok (some x)) :=
    (s.reach_located _ _ _ _ _ _ x found).trans (by rw [kept]; rfl)
  refine ⟨tlb, walks, halls, lines, fresh, ?_⟩
  have read : (s.caching tlb walks).readLines s.myHall win va x [n] = (s.accessed tlb walks halls lines fresh, .ok (s.bytes x.pa n)) := by
    simp only [State.readLines, line, List.append_nil]
    rfl
  rw [State.loadFrom, cached]
  dsimp only
  rw [show (s.caching tlb walks).ra = none from ra, nrm, read]
  rfl

theorem loadsFindMemory : LoadsFindMemory := by
  intro s va n x ra idle found nrm uncovered admitted clean
  obtain ⟨tlb, walks, halls, lines, fresh, finds⟩ := s.loadFrom_served true va n x ra idle found nrm (fun _ => uncovered) admitted clean
  exact ⟨_, finds, rfl, fun _ => rfl, rfl⟩

/-! ## The result -/

/-- A result that an access gave is written to g[d], which run-ahead then knows, and the instruction retires. -/
theorem State.setG_received (s : State) (d : BitVec 5) (v : Word) : Received s (((s.setG d v).noteG d false).retire 4#64) d v := by
  obtain ⟨g, wrote⟩ := s.setG_eq d v
  obtain ⟨halls, retired⟩ := ((s.setG d v).noteG d false).retire_eq 4#64
  refine ⟨fun k => (State.retire_g _ _ k).trans (s.setG_g d v k), ?_⟩
  rw [retired, State.noteG, wrote]
  exact ⟨rfl, rfl, rfl, fun ra => congrArg (Option.map _) ra⟩

theorem Received.mem {s t : State} {d : BitVec 5} {v : Word} (h : Received s t d v) : t.mem = s.mem := by
  obtain ⟨-, -, -, rest, -⟩ := h
  have mem := congrArg State.mem rest
  exact mem

theorem scalarLoad_finds {d a : BitVec 5} {i : BitVec 16} {n : Nat} {signed : Bool} {s s' : State} {l : List Byte}
    (made : ∀ w, s.hart.fq ≠ .complete w) (finds : Finds s (s.ea a i) n l s') :
    scalarLoad d a i n signed s = .next (((s'.setG d (Extended n signed (leNat l))).noteG d false).retire 4#64) := by
  unfold scalarLoad loadEffect
  split
  · next w h => exact absurd h (made w)
  · rw [show s.loadFrom s.myHall true (s.ea a i) n n loadClasses [n] = (s', .bytes l) from finds]
    rfl

/-- An access that the hypervisor has completed is not made (R337). -/
theorem scalarLoad_completed (d a : BitVec 5) (i : BitVec 16) (n : Nat) (signed : Bool) (s : State) (w : Word)
    (fq : s.hart.fq = .complete w) :
    scalarLoad d a i n signed s
      = .next (((s.onHart fun h => { h with fq := .none }).setG d (Extended n signed w.toNat)).retire 4#64) := by
  rw [scalarLoad, loadEffect, fq]
  rfl

/-- The seven loads differ in the number of bytes and the extension only. -/
theorem scalarLoads : ScalarLoads := by
  intro d a i s loads
  have all (x : Instr) (n : Nat) (signed : Bool) (run : exec x s = scalarLoad d a i n signed s) : loads x n signed := by
    refine ⟨fun l s' made finds => ⟨_, run.trans (scalarLoad_finds made finds), s'.setG_received d _⟩,
      fun xl settled lies uncovered serves => ?_, fun w fq => ?_⟩
    · obtain ⟨ra, idle, -, made⟩ := settled
      obtain ⟨canon, aligned, xlate, nrm⟩ := lies
      obtain ⟨admitted, clean, -⟩ := serves
      have found : s.locate s.myHall .load (s.ea a i) n n loadClasses = .ok xl :=
        (s.locate_eq_ok ..).mpr ⟨canon, aligned, xlate, by rw [nrm]; rfl⟩
      obtain ⟨tlb, walks, halls, lines, fresh, finds⟩ :=
        s.loadFrom_served true (s.ea a i) n xl ra idle found nrm (fun _ => uncovered) admitted clean
      have done := State.setG_received (s.accessed tlb walks halls lines fresh) d (Extended n signed (leNat (s.bytes xl.pa n)))
      have mem := done.mem
      obtain ⟨g, pc, -⟩ := done
      exact ⟨_, run.trans (scalarLoad_finds made finds), g, pc, fun b => congrArg (Memory.read · b) mem⟩
    · refine ⟨_, run.trans (scalarLoad_completed d a i n signed s w fq), ?_, fun b => ?_, fun k => ?_⟩
      · rw [State.retire_hart, State.setG_hart_pc]; rfl
      · rw [State.retire_mem, State.setG_mem]; rfl
      · rw [State.retire_g, State.setG_g]; rfl
  exact ⟨all _ 1 true rfl, all _ 1 false rfl, all _ 2 true rfl, all _ 2 false rfl, all _ 4 true rfl, all _ 4 false rfl,
    all _ 8 false rfl⟩

/-- Settles O13: a load that passes its checks reads its home (`loadFrom_served`), and what it finds is extended and written to g[d] alone
(`setG_received`). -/
theorem scalarLoadsFindMemory : Obligations.ScalarLoadsFindMemory := ⟨scalarLoads, loadsFindMemory⟩

/-! # The checks of a scalar access (R86) -/

theorem State.locate_noncanonical (s : State) (frm : BitVec 4) (k : Kind) (va : Word) (n al : Nat) (ok : Accept)
    (bad : canonical va = false) : s.locate frm k va n al ok = .error { code := 6, eval := va } := by
  simp [State.locate, bad]

theorem State.locate_misaligned (s : State) (frm : BitVec 4) (k : Kind) (va : Word) (n al : Nat) (ok : Accept)
    (canon : canonical va = true) (bad : va.toNat % al ≠ 0) : s.locate frm k va n al ok = .error { code := 7, eval := va } := by
  simp [State.locate, canon, bad]

theorem State.locate_class (s : State) (frm : BitVec 4) (k : Kind) (va : Word) (n al : Nat) (ok : Accept) (x : Xl)
    (canon : canonical va = true) (aligned : va.toNat % al = 0) (found : s.hartXlate frm k va n = .ok x) (bad : ok x.cls = false) :
    s.locate frm k va n al ok = .error { code := 10, eval := va } := by
  simp [State.locate, canon, aligned, found, bad]

/-- A check that is no translation fault ends the access with its trap, in run-ahead too. -/
theorem State.reach_refused (s : State) (frm : BitVec 4) (k : Kind) (va : Word) (n al : Nat) (ok : Accept) (t : Trap)
    (refused : s.locate frm k va n al ok = .error t) (plain : t.reason = none) :
    s.reach frm k va n al ok = (s.keepXlate frm va, .error t) := by
  simp only [State.reach, refused, plain]
  split
  · next h => cases h
  · rfl

/-- The trap of a scalar access that a check refuses. -/
def scalarTrap (code : Nat) (va : Word) : Trap := { code := code, eval := va, scalar := true }

theorem scalarLoad_refused (d a : BitVec 5) (i : BitVec 16) (n : Nat) (signed : Bool) (s : State) (code : Nat)
    (made : ∀ w, s.hart.fq ≠ .complete w)
    (refused : s.locate s.myHall .load (s.ea a i) n n loadClasses = .error { code := code, eval := s.ea a i }) :
    scalarLoad d a i n signed s = .next ((s.keepXlate s.myHall (s.ea a i)).takeTrap (scalarTrap code (s.ea a i))) := by
  have reached := s.reach_refused _ _ _ _ _ _ _ refused rfl
  have effect : loadEffect d n signed (s.ea a i) s
      = .error (scalarTrap code (s.ea a i), s.keepXlate s.myHall (s.ea a i)) := by
    unfold loadEffect
    split
    · next w h => exact absurd h (made w)
    · simp only [State.loadFrom, reached]
      rfl
  rw [scalarLoad, effect]
  exact congrArg _ (State.takeFault_trap _ _ rfl)

theorem scalarStore_refused (d a : BitVec 5) (i : BitVec 16) (n : Nat) (s : State) (code : Nat)
    (made : ∀ w, s.hart.fq ≠ .complete w) (room : s.hart.posted.length < 256)
    (refused : s.locate s.myHall .store (s.ea a i) n n storeClasses = .error { code := code, eval := s.ea a i }) :
    scalarStore d a i n s = .next ((s.keepXlate s.myHall (s.ea a i)).takeTrap (scalarTrap code (s.ea a i))) := by
  have reached := s.reach_refused _ _ _ _ _ _ _ refused rfl
  have effect : storeEffect d n (s.ea a i) s
      = .error (scalarTrap code (s.ea a i), s.keepXlate s.myHall (s.ea a i)) := by
    unfold storeEffect
    split
    · next w h => exact absurd h (made w)
    · simp only [State.storeAt, State.reachWrite, leBytes_length, reached]
      rfl
  rw [scalarStore, postStalls, s.postFull_of_room room, Bool.and_false, if_neg Bool.false_ne_true, effect]
  exact congrArg _ (State.takeFault_trap _ _ rfl)

/-- Settles O15: each check gives its code where those before it pass (`locate_noncanonical`, `locate_misaligned`, `locate_class`), and a
refused access takes that trap and is not made. -/
theorem scalarAccessChecks : Obligations.ScalarAccessChecks := by
  intro d a i s made room va checks
  have all {x : Instr} {n : Nat} {k : Kind} {ok : Accept}
      (refused : ∀ code, s.locate s.myHall k va n n ok = .error { code := code, eval := va } →
        exec x s = .next ((s.keepXlate s.myHall va).takeTrap (scalarTrap code va))) : checks x n k ok :=
    ⟨fun bad => refused 6 (s.locate_noncanonical _ _ _ _ _ _ bad), fun canon bad => refused 7 (s.locate_misaligned _ _ _ _ _ _ canon bad),
      fun xl canon aligned found bad => refused 10 (s.locate_class _ _ _ _ _ _ xl canon aligned found bad)⟩
  have load (n : Nat) (signed : Bool) (code : Nat) := scalarLoad_refused d a i n signed s code made
  have store (n : Nat) (code : Nat) := scalarStore_refused d a i n s code made room
  exact ⟨all (load 1 true), all (load 1 false), all (load 2 true), all (load 2 false), all (load 4 true), all (load 4 false),
    all (load 8 false), all (store 1), all (store 2), all (store 4), all (store 8)⟩

end Sys2Proof.Machine

/-! # Store errors and completions (R88, R89, R154, R165) -/

namespace Sys2Proof.Machine

/-! ## The store-error queue -/

/-- The entry of a request that names one virtual line (R89). -/
theorem Posted.report_single (p : Posted) (alone : p.also = []) (some_byte : p.mask ≠ 0#64) :
    p.report = [{ va := p.va, lsz := p.lsz, mask := p.mask }] := by
  simp [Posted.report, alone, some_byte]

theorem execStoreErrorResponse_failed (s : State) (i : Nat) (p : Posted) (at_i : s.hart.posted[i]? = some p) (failed : p.failed = true)
    (room : s.hart.seq.length + p.report.length ≤ 256) :
    execStoreErrorResponse i s = .next
      { s with hart := { s.hart with posted := s.hart.posted.eraseIdx i, seq := s.hart.seq ++ p.report } } := by
  simp only [execStoreErrorResponse, at_i, failed, room, decide_true, Bool.and_self, if_true]
  rfl

/-- A response that the queue has no room for waits, and a request that has not failed gives none. -/
theorem execStoreErrorResponse_waits (s : State) (i : Nat) (p : Posted) (at_i : s.hart.posted[i]? = some p)
    (waits : (p.failed && decide (s.hart.seq.length + p.report.length ≤ 256)) = false) : execStoreErrorResponse i s = .next s := by
  simp only [execStoreErrorResponse, at_i, waits]
  rfl

/-! ## The first failing element of an entry -/

/-- Replacing the low six bits of an address places it in its line. -/
theorem setField_line (x : Word) (i : Nat) (small : i < 64) :
    setField x 0 (BitVec.ofNat 6 i) = BitVec.ofNat 64 (x.toNat / 64 * 64 + i) := by
  apply BitVec.eq_of_getLsbD_eq
  intro j hj
  have place : (x.toNat / 64 * 64 + i).testBit j = if j < 6 then i.testBit j else (x.toNat / 64).testBit (j - 6) := by
    rw [Nat.mul_comm]
    exact Nat.testBit_two_pow_mul_add (i := 6) _ small j
  rw [getLsbD_setField, BitVec.getLsbD_ofNat, BitVec.getLsbD_ofNat, place]
  by_cases low : j < 6
  · simp [low, hj]
  · have above : (x.toNat / 2 ^ 6).testBit (j - 6) = x.getLsbD j := by
      rw [Nat.testBit_div_two_pow, Nat.sub_add_cancel (Nat.not_lt.mp low), BitVec.getLsbD]
    simp [low, ← above]

theorem StoreError.split_eq (e : StoreError) (n : Nat) (small : n < 64) (failing : e.mask.getLsbD n = true)
    (first : ∀ j < n, e.mask.getLsbD j = false) :
    let size := 2 ^ e.lsz.toNat
    e.split = (BitVec.ofNat 64 (e.va.toNat / 64 * 64 + n / size * size),
      { e with mask := e.mask &&& ~~~BitVec.ofNat 64 (2 ^ (n / size * size + size) - 1) }) := by
  have found : (List.range 64).find? (fun i => e.mask.getLsbD i) = some n :=
    List.find?_range_eq_some.mpr ⟨failing, List.mem_range.mpr small, fun j hj => by rw [first j hj]; rfl⟩
  have inside : n / 2 ^ e.lsz.toNat * 2 ^ e.lsz.toNat < 64 := Nat.lt_of_le_of_lt (Nat.div_mul_le_self ..) small
  simp only [StoreError.split, found, Option.getD_some, setField_line _ _ inside]

/-- What is left of a mask above its first k bits. -/
theorem getLsbD_and_not_low (m : BitVec 64) (k j : Nat) (hj : j < 64) :
    (m &&& ~~~BitVec.ofNat 64 (2 ^ k - 1)).getLsbD j = (m.getLsbD j && decide (k ≤ j)) := by
  rw [BitVec.getLsbD_and, BitVec.getLsbD_not, BitVec.getLsbD_ofNat, Nat.testBit_two_pow_sub_one]
  simp only [hj, decide_true, Bool.true_and, ← decide_not, Nat.not_lt]

/-! ## The trap -/

/-- Between instructions the trap that the queue owes is taken (R88). -/
theorem execStoreErrorTrap_owed (s u : State) (t : Trap) (runs : s.hart.stopped = false) (free : s.hart.wait = none) (ra : s.ra = none)
    (owed : s.owedTrap = some (t, u)) : execStoreErrorTrap s = .next (u.takeTrap t) := by
  simp only [execStoreErrorTrap, runs, free, ra, owed]
  rfl

theorem execStoreErrorTrap_none (s : State) (none : s.owedTrap = none) : execStoreErrorTrap s = .next s := by
  simp [execStoreErrorTrap, none, happened]

theorem State.owedTrap_empty (s : State) (empty : s.hart.seq = []) : s.owedTrap = none := by
  rw [State.owedTrap, empty]

theorem State.owedTrap_held (s : State) (held : s.storeErrorHeld = true) : s.owedTrap = none := by
  unfold State.owedTrap
  split
  · rfl
  · rw [if_pos held]

/-! ## Completions of vector operations -/

/-- A line that becomes newer than memory is listed; another may leave its slice (R17, R389). -/
theorem State.touchOne_eq (s : State) (line : Nat) : ∃ dirty fresh, s.touchOne line = { s with dirty := dirty, fresh := fresh } := by
  unfold State.touchOne State.evictLine
  dsimp only
  split
  · exact ⟨_, _, rfl⟩
  · split <;> exact ⟨_, _, rfl⟩

theorem State.onInk_hart (s : State) (pa : Nat) (f : InkPage → InkPage) : (s.onInk pa f).hart = s.hart := by
  obtain ⟨dirty, fresh, e⟩ := State.touchOne_eq { s with ink := alSet (inkFrame pa) (f (s.inkPage pa)) s.ink } (s.tailPa pa / 64)
  rw [State.onInk, e]

theorem State.onInk_mem (s : State) (pa : Nat) (f : InkPage → InkPage) : (s.onInk pa f).mem = s.mem := State.touchOne_mem ..

theorem State.onInk_inkPage (s : State) (pa : Nat) (f : InkPage → InkPage) : (s.onInk pa f).inkPage pa = f (s.inkPage pa) := by
  obtain ⟨dirty, fresh, e⟩ := State.touchOne_eq { s with ink := alSet (inkFrame pa) (f (s.inkPage pa)) s.ink } (s.tailPa pa / 64)
  rw [State.onInk, e]
  simp [State.inkPage, alFind_alSet]

/-- The state in which the tail unit has sealed the page of a SEAL that completes (R165). -/
def State.sealedBy (s : State) (o : VecOp) : State :=
  match o.seals with
  | some fr => s.onInk (fr * 65536) fun p => if p.st = .sealing then { p with st := .sealed } else p
  | none => s

theorem State.sealedBy_hart (s : State) (o : VecOp) : (s.sealedBy o).hart = s.hart := by
  unfold State.sealedBy
  split
  · exact State.onInk_hart ..
  · rfl

theorem State.sealedBy_mem (s : State) (o : VecOp) : (s.sealedBy o).mem = s.mem := by
  unfold State.sealedBy
  split
  · exact State.onInk_mem ..
  · rfl

theorem State.sealedBy_sealed (s : State) (o : VecOp) (fr : Nat) (seals : o.seals = some fr)
    (sealing : (s.inkPage (fr * 65536)).st = .sealing) : ((s.sealedBy o).inkPage (fr * 65536)).st = .sealed := by
  simp only [State.sealedBy, seals, State.onInk_inkPage, sealing, if_true]

/-- The counters after a completion on counter k (R47). -/
def State.countedDown (s : State) (k : BitVec 3) (status : BitVec 4) : Vector Counter 8 :=
  if k = 0#3 then s.hart.k else put (w := 3) s.hart.k k ((s.counter k).complete status)

/-- A completion leaves the list of operations and lowers its counter; of the rest of the hart it changes nothing (R154). -/
theorem State.completeVec_hart (s : State) (o : VecOp) : (s.completeVec o).hart =
    { s.hart with vops := s.hart.vops.filter fun x => x.id != o.id, k := s.countedDown o.k o.status } := by
  have counted : (s.sealedBy o).countedDown o.k o.status = s.countedDown o.k o.status := by
    simp only [State.countedDown, State.counter, s.sealedBy_hart]
  rw [← counted, ← s.sealedBy_hart o]
  show (State.countDown _ o.k o.status).hart = _
  unfold State.countDown State.countedDown
  split <;> rfl

theorem State.completeVec_mem (s : State) (o : VecOp) : (s.completeVec o).mem = s.mem := by
  rw [← s.sealedBy_mem o]
  show (State.countDown _ o.k o.status).mem = _
  unfold State.countDown
  split <;> rfl

theorem State.completeVec_inkPage (s : State) (o : VecOp) (pa : Nat) : (s.completeVec o).inkPage pa = (s.sealedBy o).inkPage pa := by
  show (State.countDown _ o.k o.status).inkPage pa = _
  unfold State.countDown
  split <;> rfl

theorem State.completeVec_counter (s : State) (o : VecOp) (named : o.k ≠ 0#3) (j : BitVec 3) :
    (s.completeVec o).counter j = if j = o.k then (s.counter o.k).complete o.status else s.counter j := by
  rw [State.counter, s.completeVec_hart, State.countedDown, if_neg named]
  exact pick_put ..

/-- Settles O46: a response enters where there is room (`execStoreErrorResponse_failed`), the trap names the first failing element
(`StoreError.split_eq`) unless it is held, and a completion changes its counter alone (`completeVec_counter`). -/
theorem storeErrorsAndCompletions : Obligations.StoreErrorsAndCompletions := by
  intro s i
  refine ⟨fun p at_i failed => ⟨p.report_single, execStoreErrorResponse_failed s i p at_i failed, fun full => ?_⟩,
    fun p at_i live => ?_, fun e r n runs free ra unheld queue small failing first => ?_, fun empty => ?_, fun ahead => ?_,
    fun held => ?_, fun o found named => ?_⟩
  · exact execStoreErrorResponse_waits s i p at_i (by simp [Nat.not_le.mpr full])
  · exact execStoreErrorResponse_waits s i p at_i (by simp [live])
  · intro size start
    refine ⟨e.mask &&& ~~~BitVec.ofNat 64 (2 ^ (start + size) - 1), getLsbD_and_not_low e.mask (start + size), ?_⟩
    refine execStoreErrorTrap_owed s _ _ runs free ra ?_
    simp only [State.owedTrap, queue, unheld, e.split_eq n small failing first]
    rfl
  · exact execStoreErrorTrap_none s (s.owedTrap_empty empty)
  · show execStoreErrorTrap s = _
    rw [execStoreErrorTrap, ahead, Bool.or_true, if_pos rfl]
    rfl
  · exact execStoreErrorTrap_none s (s.owedTrap_held held)
  · have run : exec (.vectorMemoryCompletion i) s = .next (s.completeVec o) := by
      show execVectorMemoryCompletion i s = _
      rw [execVectorMemoryCompletion, found]
      rfl
    have counter := s.completeVec_counter o named
    refine ⟨_, run, congrArg Hart.vops (s.completeVec_hart o), ?_, fun ok => ?_, fun bad => ?_, fun j other => ?_, fun a => ?_,
      fun fr seals sealing => ?_⟩
    · rw [counter, if_pos rfl]; rfl
    · rw [counter, if_pos rfl]; simp [Counter.complete, ok]
    · rw [counter, if_pos rfl]
      cases h : (s.counter o.k).err <;> simp [Counter.complete, bad, h]
    · rw [counter, if_neg other]
    · rw [State.completeVec_mem]
    · rw [State.completeVec_inkPage]
      exact s.sealedBy_sealed o fr seals sealing

end Sys2Proof.Machine

/-! # What performing requests leaves of the gates and of the hart (R15, R88 to R90) -/

namespace Sys2Proof.Machine

/-! ## Requests pass the gates and do not change them -/

theorem State.logRefusal_atGates (s : State) (who : Option (BitVec 10)) (h : BitVec 4) (pa : Nat) (c : Option Nat) :
    (s.logRefusal who h pa c).atGates = s.atGates := by
  cases c with
  | none => rfl
  | some c => exact s.onHall_atGates h _ fun _ => rfl

theorem State.logSealed_atGates (s : State) (who : Option (BitVec 10)) (h : BitVec 4) (pa : Nat) :
    (s.logSealed who h pa).atGates = s.atGates := by
  unfold State.logSealed
  split
  · exact s.onHall_atGates _ _ fun _ => rfl
  · rfl

theorem State.countUpdate_atGates (s : State) (h : BitVec 4) (pa n : Nat) (atHost : Bool) :
    (s.countUpdate h pa n atHost).atGates = s.atGates := by
  unfold State.countUpdate
  split
  · exact ((s.dropHostLine_sameHomes pa).trans (State.addTraffic_sameHomes ..)).2
  · exact (s.count_sameHomes h pa n true).2

/-- The state that a request leaves, performed or refused. -/
def leftByWrite (r : Except State State) : State := match r with | .ok t => t | .error t => t

/-- The state that an update leaves, performed or refused. -/
def leftByUpdate (r : Except (Late × State) (Nat × State)) : State := match r with | .ok q => q.2 | .error q => q.2

theorem State.writeHome_atGates (s : State) (who : Option (BitVec 10)) (h : BitVec 4) (pa : Nat) (bs : List Byte) :
    (leftByWrite (s.writeHome who h pa bs)).atGates = s.atGates := by
  unfold State.writeHome
  split
  · exact s.logRefusal_atGates ..
  · split
    · exact s.logSealed_atGates ..
    · exact (s.performBytes_sameHomes pa bs).2

theorem State.writeRuns_atGates (s : State) (who : Option (BitVec 10)) (h : BitVec 4) (l : List (Nat × List Byte)) :
    (leftByWrite (s.writeRuns who h l)).atGates = s.atGates := by
  induction l generalizing s with
  | nil => rfl
  | cons q l ih =>
    have first := s.writeHome_atGates who h q.1 q.2
    unfold State.writeRuns
    split
    · next t written =>
      rw [written] at first
      exact (ih _).trans ((t.count_sameHomes ..).2.trans first)
    · next t written =>
      rw [written] at first
      exact first

theorem State.logUpdate_atGates (s : State) (who : Option (BitVec 10)) (h : BitVec 4) (pa n : Nat) :
    (s.logUpdate who h pa n).atGates = s.atGates := by
  unfold State.logUpdate
  split
  · exact s.logRefusal_atGates ..
  · split
    · exact s.logSealed_atGates ..
    · rfl

theorem State.updateHome_atGates (s : State) (who : Option (BitVec 10)) (h : BitVec 4) (pa n : Nat) (refused : Bool)
    (f : Nat → Option Nat) : (leftByUpdate (s.updateHome who h pa n refused f)).atGates = s.atGates := by
  unfold State.updateHome
  split
  · exact s.logUpdate_atGates ..
  · dsimp only
    split
    · rfl
    · exact (s.performBytes_sameHomes ..).2

theorem State.writeAmos_atGates (s : State) (who : Option (BitVec 10)) (h : BitVec 4) (op : Nat) (t : BitVec 4) (l : List (Nat × Word)) :
    (s.writeAmos who h op t l).1.atGates = s.atGates := by
  induction l generalizing s with
  | nil => rfl
  | cons q l ih =>
    have first := s.updateHome_atGates who h q.1 (typeWidth t / 8) true fun m => some (amoValue op t m q.2.toNat)
    unfold State.writeAmos
    dsimp only
    split
    · next u updated =>
      rw [updated] at first
      exact (ih _).trans ((u.countUpdate_atGates ..).trans first)
    · next e u updated =>
      rw [updated] at first
      exact (ih u).trans first

theorem State.wellDeposit_atGates (s : State) (wlf : Bool) (line : Nat) (adds : List (Nat × FVal)) :
    (s.wellDeposit wlf line adds).1.atGates = s.atGates := by
  have one (t : State) (a : Nat × FVal) : (t.depositOne wlf line a).atGates = t.atGates := by
    unfold State.depositOne
    split
    · exact (t.setWellElem_sameHomes ..).2
    · exact (t.setWellElem_sameHomes ..).2
  have all (l : List (Nat × FVal)) (t : State) : (l.foldl (fun s a => s.depositOne wlf line a) t).atGates = t.atGates := by
    induction l generalizing t with
    | nil => rfl
    | cons a l ih => exact (ih _).trans (one t a)
  unfold State.wellDeposit
  dsimp only
  split
  · rfl
  · exact (all _ (s.makeResident line))

theorem State.wellInit_atGates (s : State) (wlf : Bool) (line : Nat) (anchor : BitVec 8) :
    (s.wellInit wlf line anchor).atGates = s.atGates := (s.performBytes_sameHomes ..).2

/-- Performing a request changes nothing that a gate sees. -/
theorem State.performPosted_atGates (s : State) (p : Posted) : (s.performPosted p).1.atGates = s.atGates := by
  unfold State.performPosted
  dsimp only
  split
  · rfl
  · cases p.payload with
    | bytes l =>
      have runs := s.writeRuns_atGates p.who p.frm (joinRuns l)
      dsimp only
      split
      · next t written =>
        rw [written] at runs
        exact (t.dropOwnLines_atGates ..).trans runs
      · next t written =>
        rw [written] at runs
        exact runs
    | amo op t l => exact (State.dropOwnLines_atGates ..).trans (State.writeAmos_atGates ..)
    | deposit wlf line adds =>
      have deposited := s.wellDeposit_atGates wlf line adds
      dsimp only
      split
      · exact s.logRefusal_atGates ..
      · split
        · exact deposited
        · exact ((State.count_sameHomes ..).2).trans deposited
    | winit wlf line anchor =>
      dsimp only
      split
      · exact s.logRefusal_atGates ..
      · exact ((State.count_sameHomes ..).2).trans (s.wellInit_atGates ..)

theorem State.settleList_atGates (s : State) (sel : Posted → Bool) (l : List Posted) : (s.settleList sel l).1.atGates = s.atGates := by
  induction l generalizing s with
  | nil => rfl
  | cons p l ih =>
    have first := s.performPosted_atGates p
    unfold State.settleList
    split
    · split
      · next t performed =>
        rw [performed] at first
        exact (ih t).trans first
      · next t e m performed =>
        rw [performed] at first
        exact (ih t).trans first
    · exact ih s

theorem State.settleScope_atGates (s : State) (sc : BitVec 3) : (s.settleScope sc).atGates = s.atGates := by
  unfold State.settleScope
  split
  · exact s.settleList_atGates _ _
  · exact (State.settleList_atGates _ _ _)

/-! ## The hart keeps its registers -/

theorem State.Filled.g {s t : State} (h : s.Filled t) (k : BitVec 5) : t.g k = s.g k := by
  obtain ⟨_, _, _, _, _, _, _, h⟩ := h
  simp only [State.g, h]

theorem State.Filled.pc {s t : State} (h : s.Filled t) : t.hart.pc = s.hart.pc := by
  obtain ⟨_, _, _, _, _, _, _, h⟩ := h
  rw [h]

theorem State.Filled.mode {s t : State} (h : s.Filled t) : t.hart.mode = s.hart.mode := by
  obtain ⟨_, _, _, _, _, _, _, h⟩ := h
  rw [h]

theorem State.settleAll_filled (s : State) : s.Filled s.settleAll :=
  State.filled_of_wearing (s.settleAll_wearing s.hart s.tlb s.walks)

theorem State.settleScope_filled (s : State) (sc : BitVec 3) : s.Filled (s.settleScope sc) := by
  unfold State.settleScope
  split
  · exact s.settleAll_filled
  · exact State.filled_of_wearing (congrArg State.collectErrors
      (State.settle_wearing { s with fresh := s.fresh + 1 } s.hart s.tlb s.walks _))

/-! # Scopes and releases (R57, R102, R110) -/

theorem State.scoped_ok {s t : State} {sc : BitVec 3} (h : s.scoped sc = .ok t) : t = s := by
  unfold State.scoped at h
  split at h
  · cases h
  · exact (Except.ok.inj h).symm

theorem State.scoped_of_Scoped {s : State} {sc : BitVec 3} (h : Scoped s sc) : s.scoped sc = .ok s := by
  have untrapped : (s.limited sc && (s.vf s.myVf).scope.getLsbD 1) = false := by
    cases limited : s.limited sc with
    | true => exact h limited
    | false => rfl
  rw [State.scoped, untrapped]
  rfl

/-- The scope and the release mark let the instruction go on one after the other. -/
theorem Ordered.steps {s s' : State} {sc : BitVec 3} {rel : Bool} (h : Ordered s sc rel s') :
    s.scoped sc = .ok s ∧ s.releaseIf rel sc = .ok s' := by
  unfold Ordered at h
  cases e : s.scoped sc with
  | error t => rw [e] at h; cases h
  | ok t =>
    obtain rfl := State.scoped_ok e
    rw [e] at h
    exact ⟨rfl, h⟩

theorem State.release_ok {s t : State} {sc : BitVec 3} (h : s.release sc = .ok t) : t = s.settleScope sc := by
  unfold State.release at h
  dsimp only at h
  split at h
  · cases h
  · exact (Except.ok.inj h).symm

theorem State.releaseIf_ok {s t : State} {rel : Bool} {sc : BitVec 3} (h : s.releaseIf rel sc = .ok t) :
    t = s ∨ t = s.settleScope (s.scopeRun sc) := by
  unfold State.releaseIf at h
  split at h
  · exact .inr (State.release_ok h)
  · exact .inl (Except.ok.inj h).symm

/-- A release changes neither the mode of the hart nor what limits its VF. -/
theorem State.limited_congr {s t : State} (filled : s.Filled t) (gates : t.atGates = s.atGates) (sc : BitVec 3) :
    t.limited sc = s.limited sc := by
  have vfs : t.atGates.vfs = s.atGates.vfs := by rw [gates]
  change t.vfs = s.vfs at vfs
  have vf : t.myVf = s.myVf := by
    obtain ⟨_, _, _, _, _, _, _, h⟩ := filled
    simp only [State.myVf, h]
  simp only [State.limited, filled.who, vf, State.vf, vfs]

theorem Ordered.scopeRun {s s' : State} {sc : BitVec 3} {rel : Bool} (h : Ordered s sc rel s') : s'.scopeRun sc = s.scopeRun sc := by
  rcases State.releaseIf_ok h.steps.2 with rfl | rfl
  · rfl
  · rw [State.scopeRun, State.limited_congr (s.settleScope_filled _) (s.settleScope_atGates _)]
    rfl

theorem State.demote_eq (s : State) (sc : BitVec 3) : ∃ vstat, s.demote sc = { s with hart := { s.hart with vstat := vstat } } := by
  unfold State.demote
  split <;> exact ⟨_, rfl⟩

/-! ## With nothing under way -/

/-- s with another count of the free values that it has taken. -/
def State.freshly (s : State) (fresh : Nat) : State := { s with fresh := fresh }

theorem State.settle_idle (s : State) (sel : Posted → Bool) (idle : s.hart.posted = []) : s.settle sel = s := by
  rw [State.settle, idle]
  show s.onHart (fun h => { h with posted := [] }) = s
  rw [State.onHart, ← idle]

theorem State.collectErrors_idle (s : State) (idle : s.hart.posted = []) : s.collectErrors = s := by
  rw [State.collectErrors, State.onHart, idle]
  show { s with hart := { s.hart with posted := [] } } = s
  rw [← idle]

theorem State.settleScope_idle (s : State) (sc : BitVec 3) (idle : s.hart.posted = []) :
    ∃ fresh, s.settleScope sc = s.freshly fresh := by
  unfold State.settleScope
  split
  · exact ⟨s.fresh, by rw [State.settleAll, s.settle_idle _ idle, s.collectErrors_idle idle]; rfl⟩
  · let t := s.freshly (s.fresh + 1)
    exact ⟨s.fresh + 1, (congrArg State.collectErrors (t.settle_idle _ idle)).trans (t.collectErrors_idle idle)⟩

/-- With nothing under way a release lets the instruction go on. -/
theorem State.releaseIf_idle (s : State) (rel : Bool) (sc : BitVec 3) (idle : s.hart.posted = []) (empty : s.hart.seq = []) :
    ∃ fresh, s.releaseIf rel sc = .ok (s.freshly fresh) := by
  unfold State.releaseIf
  split
  · obtain ⟨fresh, settled⟩ := s.settleScope_idle (s.scopeRun sc) idle
    refine ⟨fresh, ?_⟩
    rw [State.release, settled, (s.freshly fresh).owedTrap_empty empty]
  · exact ⟨s.fresh, rfl⟩

theorem ordered_idle {s : State} {sc : BitVec 3} (rel : Bool) (scope : Scoped s sc) (idle : s.hart.posted = []) (empty : s.hart.seq = []) :
    ∃ fresh, Ordered s sc rel (s.freshly fresh) := by
  obtain ⟨fresh, released⟩ := s.releaseIf_idle rel sc idle empty
  refine ⟨fresh, ?_⟩
  rw [Ordered, State.scoped_of_Scoped scope]
  exact released

theorem State.freshly_walkFrom (s : State) (fresh : Nat) (who : Option (BitVec 10)) (frm : BitVec 4) (va : Word) (left t : Nat)
    (seen : List (Nat × Word)) : (s.freshly fresh).walkFrom who frm va left t seen = s.walkFrom who frm va left t seen := by
  have entry (lvl a : Nat) : (s.freshly fresh).walkEntry who frm va lvl a = s.walkEntry who frm va lvl a := rfl
  induction left generalizing t seen with
  | zero =>
    unfold State.walkFrom
    simp only [entry]
  | succ n ih =>
    unfold State.walkFrom
    simp only [entry, ih]

/-- An address translates alike whatever free values have been taken. -/
theorem State.freshly_hartXlate (s : State) (fresh : Nat) (frm : BitVec 4) (k : Kind) (va : Word) (n : Nat) :
    (s.freshly fresh).hartXlate frm k va n = s.hartXlate frm k va n := by
  have leaf : (s.freshly fresh).leaf s.who frm false va = s.leaf s.who frm false va := by
    simp only [State.leaf, State.walk, State.walked, State.freshly_walkFrom]
    rfl
  simp only [State.hartXlate, State.translate, State.translateBy]
  rw [show (s.freshly fresh).who = s.who from rfl, leaf]
  rfl

/-- What lies at an address passes the checks of an access that accepts NRM pages (R86). -/
theorem Lies.locate {s : State} {k : Kind} {va : Word} {n : Nat} {x : Xl} (h : Lies s k va n x) (fresh : Nat) (ok : Accept)
    (accepts : ok .nrm = true) : (s.freshly fresh).locate s.myHall k va n n ok = .ok x := by
  obtain ⟨canon, aligned, xlate, nrm⟩ := h
  exact (State.locate_eq_ok ..).mpr ⟨canon, aligned, (s.freshly_hartXlate ..).trans xlate, by rw [nrm]; exact accepts⟩

end Sys2Proof.Machine

/-! # Atomics (R101 to R105, R360) -/

namespace Sys2Proof.Machine

/-! ## One atomic step at the home -/

theorem State.performBytes_filled (s : State) (pa : Nat) (bs : List Byte) : s.Filled (s.performBytes pa bs) :=
  State.filled_of_wearing (s.performBytes_wearing s.hart s.tlb s.walks pa bs)

theorem State.countUpdate_filled (s : State) (h : BitVec 4) (pa n : Nat) (atHost : Bool) : s.Filled (s.countUpdate h pa n atHost) :=
  State.filled_of_wearing (s.countUpdate_wearing s.hart s.tlb s.walks h pa n atHost)

theorem State.countUpdate_mem (s : State) (h : BitVec 4) (pa n : Nat) (atHost : Bool) : (s.countUpdate h pa n atHost).mem = s.mem := by
  unfold State.countUpdate
  split <;> simp

/-- From s to u the bytes have received the number that an update gives, and no other byte has changed. -/
def Updated (s u : State) (pa n : Nat) (z : Option Nat) : Prop :=
  (∀ x, z = some x → MemWith s u pa n x) ∧ (z = none → SameMem s u)

theorem Updated.congr {s u t : State} {pa n : Nat} {z : Option Nat} (h : Updated s u pa n z) (same : SameMem u t) :
    Updated s t pa n z := by
  obtain ⟨written, kept⟩ := h
  exact ⟨fun x hx a => (same a).trans (written x hx a), fun hz a => (same a).trans (kept hz a)⟩

/-- The home finds the n bytes of memory as a number, and puts there the number that f gives of it. -/
theorem State.updateHome_performed (s : State) (who : Option (BitVec 10)) (h : BitVec 4) (pa n : Nat) (refused : Bool)
    (f : Nat → Option Nat) (wf : Memory.wf s.mem = true) (performed : s.updateLate who h pa n refused = none) :
    ∃ u, s.updateHome who h pa n refused f = .ok (leNat (s.bytes pa n), u) ∧ s.Filled u
      ∧ Updated s u pa n (f (leNat (s.bytes pa n))) := by
  cases new : f (leNat (s.bytes pa n)) with
  | none => exact ⟨s, by simp only [State.updateHome, performed, new], .refl s, nofun, fun _ _ => rfl⟩
  | some z =>
    refine ⟨s.performBytes pa (leBytes n z), by simp only [State.updateHome, performed, new], s.performBytes_filled pa _,
      fun x hx a => ?_, nofun⟩
    cases hx
    rw [State.performBytes_mem, Memory.read_writeBytes _ _ _ _ wf, leBytes_length]
    split
    · rw [leBytes_getD _ _ _ (by omega)]
    · rfl

/-- An atomic that passes its checks and that its home performs finds the old value and leaves the new one (R101). -/
theorem State.atomicAt_performed (s : State) (va : Word) (n : Nat) (x : Xl) (refused atHost : Bool) (f : Nat → Option Nat)
    (wf : Memory.wf s.mem = true) (ra : s.ra = none) (idle : s.hart.posted = [])
    (found : s.locate s.myHall .rmw va n n onlyNrm = .ok x) (performed : s.updateLate s.who s.myHall x.pa n refused = none) :
    ∃ u, s.atomicAt va n refused atHost f = .ok (some (leNat (s.bytes x.pa n)), u) ∧ s.Filled u
      ∧ Updated s u x.pa n (f (leNat (s.bytes x.pa n))) := by
  obtain ⟨-, -, xlate, -⟩ := (s.locate_eq_ok ..).mp found
  obtain ⟨tlb, walks, kept⟩ := s.keepXlate_of_hartXlate _ _ _ _ _ (by decide) xlate
  let t := s.caching tlb walks
  have reached : s.reachWrite s.myHall .rmw va n n onlyNrm = (t, .ok (some x)) :=
    (s.reachWrite_located ra _ _ _ _ _ _ x found).trans (by rw [kept]; rfl)
  obtain ⟨u, updated, filled, mem⟩ := t.updateHome_performed s.who s.myHall x.pa n refused f wf performed
  have counted := u.countUpdate_filled u.myHall x.pa n atHost
  refine ⟨(u.countUpdate u.myHall x.pa n atHost).dropWindowLines u.myHall x.pa n, ?_, filled.trans counted,
    mem.congr fun a => congrArg (Memory.read · a) (u.countUpdate_mem ..)⟩
  have updated : t.updateHome t.who t.myHall x.pa n refused f = .ok (leNat (s.bytes x.pa n), u) := updated
  simp only [State.atomicAt, reached, t.settleAt_idle _ _ idle, updated]

theorem atomicsUpdateMemory : AtomicsUpdateMemory := by
  intro s va n x refused host f inv ra idle _ found performed
  obtain ⟨wf, -⟩ := inv
  obtain ⟨u, ran, filled, written, kept⟩ := s.atomicAt_performed va n x refused host f wf ra idle found performed
  refine ⟨u, ran, filled.g, filled.pc, fun a => ?_⟩
  cases h : f (leNat (s.bytes x.pa n)) with
  | none => exact kept h a
  | some z => exact written z h a

/-! ## The instructions -/

theorem amo_performed {s s' u : State} {op : Nat} {t : BitVec 4} {signed : Bool} {d a b : BitVec 5} {sc : BitVec 3} {rel w : Bool} {m : Nat}
    (ordered : Ordered s sc rel s')
    (performed : s'.atomicAt (s.g a) (atomBytes w) (op != 0 && op != 11) (s.scopeRun sc == 5#3)
      (fun m => some (amoValue op t m ((s.g b).toNat % 2 ^ (8 * atomBytes w)))) = .ok (some m, u)) :
    amo op t signed d a b sc rel w s
      = .next ((((u.demote sc).setG d (Extended (atomBytes w) signed m)).noteG d false).retire 4#64) := by
  obtain ⟨admitted, released⟩ := ordered.steps
  rw [← ordered.scopeRun] at performed
  simp only [amo, admitted, released, performed, bind, Except.bind]
  rfl

theorem execCas_performed {s s' u : State} {d a b : BitVec 5} {sc : BitVec 3} (q : Bool) {rel w : Bool} {m : Nat}
    (ordered : Ordered s sc rel s') (performed : s'.atomicAt (s.g a) (atomBytes w) false (s.scopeRun sc == 5#3)
      (fun m => if m = (s.g d).toNat % 2 ^ (8 * atomBytes w) then some ((s.g b).toNat % 2 ^ (8 * atomBytes w)) else none)
        = .ok (some m, u)) :
    execCas d a b sc q rel w s
      = .next ((((u.demote sc).setG d (Extended (atomBytes w) true m)).noteG d false).retire 4#64) := by
  obtain ⟨admitted, released⟩ := ordered.steps
  rw [← ordered.scopeRun] at performed
  simp only [execCas, admitted, released, performed, bind, Except.bind]
  rfl

theorem execCas2_performed {s s' u : State} {d a b : BitVec 5} {sc : BitVec 3} (q : Bool) {rel : Bool} {m : Nat}
    (ordered : Ordered s sc rel s') (performed : s'.atomicAt (s.g a) 16 false (s.scopeRun sc == 5#3)
      (fun m => if m = s.pair d then some (s.pair b) else none) = .ok (some m, u)) :
    execCas2 d a b sc q rel s
      = .next (((((u.demote sc).setPair d m).noteG d false).noteG (pairHi d) false).retire 4#64) := by
  obtain ⟨admitted, released⟩ := ordered.steps
  rw [← ordered.scopeRun] at performed
  simp only [execCas2, admitted, released, performed, bind, Except.bind]
  rfl

/-- The pair from g[d] on becomes m, g0 stays zero, and every other scalar register keeps its value. -/
def OnlyPair (s t : State) (d : BitVec 5) (m : Nat) : Prop :=
  ∀ k, t.g k = if k = d + 1 ∧ k ≠ 0#5 then BitVec.ofNat 64 (m / 2 ^ 64)
    else if k = d ∧ k ≠ 0#5 then BitVec.ofNat 64 m else s.g k

/-- A pair that an access gave is written to g[d] and the register after it, and the instruction retires. -/
theorem State.setPair_received (s : State) (d : BitVec 5) (m : Nat) :
    let t := (((s.setPair d m).noteG d false).noteG (pairHi d) false).retire 4#64
    t.hart.pc = s.hart.pc + 4#64 ∧ t.mem = s.mem ∧ OnlyPair s t d m := by
  intro t
  refine ⟨?_, ?_, fun k => ?_⟩
  · rw [State.retire_hart]
    exact congrArg (· + 4#64) ((State.setG_hart_pc ..).trans (State.setG_hart_pc ..))
  · exact (State.retire_mem ..).trans ((State.setG_mem ..).trans (State.setG_mem ..))
  · exact (State.retire_g ..).trans ((State.setG_g ..).trans (by rw [State.setG_g]; rfl))

theorem State.demote_g (s : State) (sc : BitVec 3) (k : BitVec 5) : (s.demote sc).g k = s.g k := by
  obtain ⟨vstat, demoted⟩ := s.demote_eq sc
  rw [demoted]
  rfl

theorem State.demote_pc (s : State) (sc : BitVec 3) : (s.demote sc).hart.pc = s.hart.pc := by
  obtain ⟨vstat, demoted⟩ := s.demote_eq sc
  rw [demoted]

theorem State.demote_mem (s : State) (sc : BitVec 3) : (s.demote sc).mem = s.mem := by
  obtain ⟨vstat, demoted⟩ := s.demote_eq sc
  rw [demoted]

/-- Each update is one row of the table of updates (Table 6.4) at the width and format of the word. -/
theorem atomicsReturnOld : AtomicsReturnOld := by
  intro d a b sc q rel w s s' ordered n y c host swaps f
  have updates {i : Instr} {signed : Bool} (op : Nat) (t : BitVec 4) {g : Nat → Option Nat}
      (run : exec i s = amo op t signed d a b sc rel w s) (value : ∀ m, some (amoValue op t m y) = g m) :
      swaps i signed (op != 0 && op != 11) g := by
    intro m u updated
    rw [← funext value] at updated
    exact ⟨_, run.trans (amo_performed ordered updated), State.setG_received ..⟩
  have width : typeWidth (amoInt w) = 8 * n := by cases w <;> rfl
  have format : fmtOf (amoFloat w) = f := by cases w <;> rfl
  refine ⟨updates 0 (amoInt w) rfl fun m => ?_, updates 1 (amoInt w) rfl fun _ => rfl, updates 2 (amoInt w) rfl fun _ => rfl,
    updates 3 (amoInt w) rfl fun _ => rfl, updates 4 (amoInt w) rfl fun m => ?_, updates 5 (amoInt w) rfl fun m => ?_,
    updates 6 (amoInt w) rfl fun _ => rfl, updates 7 (amoInt w) rfl fun _ => rfl, updates 11 (amoInt w) rfl fun _ => rfl,
    updates 8 (amoFloat w) rfl fun m => ?_, fun m u swapped => ⟨_, execCas_performed q ordered swapped, State.setG_received ..⟩,
    fun m u swapped => ?_⟩
  · rw [← width]; rfl
  · rw [← width]; rfl
  · rw [← width]; rfl
  · rw [← format]; rfl
  · obtain ⟨pc, mem, g⟩ := (u.demote sc).setPair_received d m
    exact ⟨_, execCas2_performed q ordered swapped, pc.trans (by rw [u.demote_pc]),
      fun k => congrArg (Memory.read · k) (mem.trans (u.demote_mem sc)), fun k => (g k).trans (by rw [u.demote_g])⟩

/-- An atomic on a word that its home serves finds memory and leaves the new number there. -/
theorem State.atomicAt_served {s : State} {va : Word} {n : Nat} {x : Xl} {refused : Bool} (settled : Settled s)
    (lies : Lies s .rmw va n x) (serves : Serves s x.pa n true) (carried : s.noAtomic x.pa refused = false)
    (wf : Memory.wf s.mem = true) (fresh : Nat) (atHost : Bool) (f : Nat → Option Nat) :
    ∃ u, (s.freshly fresh).atomicAt va n refused atHost f = .ok (some (leNat (s.bytes x.pa n)), u) ∧ (s.freshly fresh).Filled u
      ∧ Updated s u x.pa n (f (leNat (s.bytes x.pa n))) := by
  obtain ⟨ra, idle, -⟩ := settled
  obtain ⟨admitted, clean, writable⟩ := serves
  have performed : s.updateLate s.who s.myHall x.pa n refused = none := by
    have ink : (decide (paTarget x.pa < 4) && s.inkRefuses x.pa) = false := by
      by_cases home : paTarget x.pa < 4
      · rw [writable rfl home, Bool.and_false]
      · rw [decide_eq_false home, Bool.false_and]
    simp only [State.updateLate, admitted, carried, ink, clean]
    rfl
  exact (s.freshly fresh).atomicAt_performed va n x refused atHost f wf ra idle (lies.locate fresh onlyNrm rfl) performed

theorem atomicsComplete : AtomicsComplete := by
  intro d a b sc q rel w s n y c done swaps f
  by_cases ready : Settled s ∧ Scoped s sc
  · obtain ⟨settled, scope⟩ := ready
    obtain ⟨-, idle, empty, -⟩ := settled
    obtain ⟨fresh, ordered⟩ := ordered_idle rel scope idle empty
    have completes {i : Instr} {n : Nat} {refused : Bool} {f : Nat → Option Nat} {got : Nat → State → Prop}
        (performs : ∀ m u, (s.freshly fresh).atomicAt (s.g a) n refused (s.scopeRun sc == 5#3) f = .ok (some m, u) →
          ∃ t, exec i s = .next t ∧ t.hart.pc = u.hart.pc + 4#64 ∧ SameMem u t ∧ ((∀ k, u.g k = s.g k) → got m t)) :
        done i n refused f got := by
      intro x settled _ lies serves carried wf m
      obtain ⟨u, updated, filled, changed⟩ := State.atomicAt_served settled lies serves carried wf fresh (s.scopeRun sc == 5#3) f
      obtain ⟨t, run, pc, mem, result⟩ := performs m u updated
      refine ⟨t, run, pc.trans (by rw [filled.pc]; rfl), result filled.g, ?_⟩
      obtain ⟨written, kept⟩ := changed.congr mem
      cases new : f m with
      | none => exact kept new
      | some z => exact written z new
    have swapped {i : Instr} {signed refused : Bool} {f : Nat → Option Nat}
        (returns : ∀ m u, (s.freshly fresh).atomicAt (s.g a) n refused (s.scopeRun sc == 5#3) f = .ok (some m, u) →
          ∃ t, exec i s = .next t ∧ Received (u.demote sc) t d (Extended n signed m)) : swaps i signed refused f := by
      refine completes (got := fun m t => OnlyG s t d (Extended _ signed m)) fun m u updated => ?_
      obtain ⟨t, run, received⟩ := returns m u updated
      have mem := received.mem
      obtain ⟨g, pc, -⟩ := received
      exact ⟨t, run, pc.trans (by rw [u.demote_pc]), fun b => congrArg (Memory.read · b) (mem.trans (u.demote_mem sc)),
        fun same k => (g k).trans (by rw [u.demote_g, same])⟩
    obtain ⟨add, and, or, xor, min, max, minN, maxN, swp, fadd, cas, cas2⟩ := atomicsReturnOld d a b sc q rel w s _ ordered
    refine ⟨swapped add, swapped and, swapped or, swapped xor, swapped min, swapped max, swapped minN, swapped maxN, swapped swp,
      swapped fadd, swapped cas, ?_⟩
    generalize (fun m => if m = (s.g d).toNat + 2 ^ 64 * (s.g (d + 1)).toNat then
      some ((s.g b).toNat + 2 ^ 64 * (s.g (b + 1)).toNat) else none) = f at cas2 ⊢
    refine completes (f := f) (got := fun m t => OnlyPair s t d m) fun m u updated => ?_
    obtain ⟨t, run, pc, mem, g⟩ := cas2 m u updated
    refine ⟨t, run, pc, mem, fun same k => ?_⟩
    rw [g k, same k]
  · have vacuous {P : Xl → Prop} : ∀ x, Settled s → Scoped s sc → P x := fun _ settled scope => absurd ⟨settled, scope⟩ ready
    exact ⟨vacuous, vacuous, vacuous, vacuous, vacuous, vacuous, vacuous, vacuous, vacuous, vacuous, vacuous, vacuous⟩

/-- Settles O16: an atomic that reaches its home finds memory and leaves there the new number (`atomicAt_performed`); its old value goes to
g[d] (`setG_received`, `setPair_received`); and on a word that its home serves nothing stops it (`atomicAt_served`). -/
theorem atomics : Obligations.Atomics := ⟨atomicsReturnOld, atomicsComplete, atomicsUpdateMemory⟩

end Sys2Proof.Machine

/-! # Ordered accesses, fences and drains (R106, R108, R109) -/

namespace Sys2Proof.Machine

/-! ## With what their scopes and accesses give -/

theorem execLda_finds {d a : BitVec 5} {sc : BitVec 3} {w : Bool} {s u : State} {l : List Byte} (admitted : s.scoped sc = .ok s)
    (made : s.completed = none)
    (finds : s.loadFrom s.myHall false (s.g a) (atomBytes w) (atomBytes w) loadClasses [atomBytes w] = (u, .bytes l)) :
    execLda d a sc w s = .next ((((u.demote sc).setG d (Extended (atomBytes w) true (leNat l))).noteG d false).retire 4#64) := by
  simp only [execLda, admitted, made, State.loadAt, finds, bind, Except.bind]
  rfl

theorem execStrel_stores {d a : BitVec 5} {sc : BitVec 3} {w : Bool} {s s' u : State} (ordered : Ordered s sc true s')
    (made : s'.completed = none) (room : s.hart.posted.length < 256)
    (stored : s'.storeAt (s.g a) (leBytes (atomBytes w) (s.g d).toNat) storeClasses = .ok u) :
    execStrel d a sc w s = .next ((u.demote sc).retire 4#64) := by
  obtain ⟨admitted, released⟩ := ordered.steps
  rw [execStrel, postStalls, s.postFull_of_room room, Bool.and_false, if_neg Bool.false_ne_true]
  simp only [admitted, released, made, stored, bind, Except.bind]
  rfl

theorem execFence_ordered {sc : BitVec 3} (q rel : Bool) {s s' : State} (ordered : Ordered s sc true s') :
    execFence sc q rel s = .next ((s'.demote sc).retire 4#64) := by
  obtain ⟨admitted, released⟩ := ordered.steps
  simp only [execFence, admitted, released, bind, Except.bind]
  rfl

/-- The non-blocking operations that a drain of counter k waits for: those on it, or all for counter 0 (R109). -/
def drained (k : BitVec 3) (o : VecOp) : Bool := decide (k = 0#3) || decide (o.k = k)

theorem execVdrain_drained {k sc : BitVec 3} {q rel : Bool} {s s' : State} (ra : s.ra = none) (admitted : s.scoped sc = .ok s)
    (released : (s.completeVecs (drained k)).releaseIf (q || rel) sc = .ok s') :
    execVdrain k sc q rel s = .next ((s'.demote sc).retire 4#64) := by
  change (s.completeVecs fun o => decide (k = 0#3) || decide (o.k = k)).releaseIf (q || rel) sc = .ok s' at released
  simp only [execVdrain, admitted, ra, Option.isSome_none, Bool.false_eq_true, if_false, released, bind, Except.bind]
  rfl

theorem orderedAccesses_run : OrderedAccesses := by
  intro d a k sc q rel w s s' n
  refine ⟨fun admitted made l u finds => ?_, fun ordered made room u stored => execStrel_stores ordered made room stored,
    execFence_ordered q rel, fun ra u admitted released => ?_⟩
  · obtain rfl := State.scoped_ok admitted
    exact ⟨_, execLda_finds admitted made finds, State.setG_received ..⟩
  · obtain rfl := State.scoped_ok admitted
    exact execVdrain_drained ra admitted released

/-! ## LDA on a word that its home serves -/

theorem State.completed_none {s : State} (made : ∀ w, s.hart.fq ≠ .complete w) : s.completed = none := by
  unfold State.completed
  split
  · next w h => exact absurd h (made w)
  · rfl

theorem execLda_served {d a : BitVec 5} {sc : BitVec 3} {w : Bool} {s : State} {x : Xl} (scope : Scoped s sc) (settled : Settled s)
    (lies : Lies s .load (s.g a) (atomBytes w) x) (serves : Serves s x.pa (atomBytes w) false) :
    ∃ t, execLda d a sc w s = .next t ∧ OnlyG s t d (Extended (atomBytes w) true (leNat (s.bytes x.pa (atomBytes w))))
      ∧ t.hart.pc = s.hart.pc + 4#64 ∧ SameMem s t := by
  obtain ⟨ra, idle, -, made⟩ := settled
  obtain ⟨admitted, clean, -⟩ := serves
  have found := lies.locate s.fresh loadClasses rfl
  obtain ⟨-, -, -, nrm⟩ := lies
  obtain ⟨tlb, walks, halls, lines, fresh, finds⟩ := s.loadFrom_served false (s.g a) _ x ra idle found nrm nofun admitted clean
  have received := ((s.accessed tlb walks halls lines fresh).demote sc).setG_received d
    (Extended (atomBytes w) true (leNat (s.bytes x.pa (atomBytes w))))
  have mem := received.mem
  obtain ⟨g, pc, -⟩ := received
  refine ⟨_, execLda_finds (State.scoped_of_Scoped scope) (State.completed_none made) finds, fun k => ?_, ?_, fun b => ?_⟩
  · rw [g k, State.demote_g]; rfl
  · rw [pc, State.demote_pc]; rfl
  · rw [mem, State.demote_mem]; rfl

/-! ## STREL on a word that its home serves -/

/-- s with another count of free values, other cached translations and another VSTAT. -/
def State.reissued (s : State) (fresh : Nat) (tlb : List TlbEntry) (walks : List WalkEntry) (vstat : Word) : State :=
  { s with fresh := fresh, tlb := tlb, walks := walks, hart := { s.hart with vstat := vstat } }

theorem State.demote_atGates (s : State) (sc : BitVec 3) : (s.demote sc).atGates = s.atGates := by
  obtain ⟨vstat, demoted⟩ := s.demote_eq sc
  rw [demoted]
  rfl

/-- Posting, while there is room, at a scope that may be a lower one, and retiring. -/
theorem State.post_demote_retire (s : State) (p : Posted) (sc : BitVec 3) (room : s.hart.posted.length < 256) :
    ∃ vstat halls, ((s.post p).demote sc).retire 4#64
      = (s.reissued s.fresh s.tlb s.walks vstat).afterPost p s.tlb s.walks halls := by
  obtain ⟨vstat, demoted⟩ := (s.post p).demote_eq sc
  obtain ⟨dropped, e⟩ := s.dropOwnLines_eq p.frm (p.pa / 64 * 64) 64
  obtain ⟨halls, retired⟩ := ((s.post p).demote sc).retire_eq 4#64
  refine ⟨vstat, halls, retired.trans ?_⟩
  rw [demoted, State.post, if_neg (Nat.not_le.mpr room), e]
  rfl

/-- STREL posts the request of its store and retires. -/
theorem execStrel_posts {d a : BitVec 5} {sc : BitVec 3} {w : Bool} {s : State} {x : Xl} (scope : Scoped s sc) (settled : Settled s)
    (lies : Lies s .store (s.g a) (atomBytes w) x) :
    ∃ fresh tlb walks vstat halls,
      let u := s.reissued fresh tlb walks vstat
      let t := u.afterPost (storeRequest u (s.g a) x.pa (leBytes (atomBytes w) (s.g d).toNat)) tlb walks halls
      execStrel d a sc w s = .next t ∧ t.atGates = s.atGates := by
  obtain ⟨ra, idle, empty, made⟩ := settled
  have room : s.hart.posted.length < 256 := by rw [idle]; decide
  obtain ⟨fresh, ordered⟩ := ordered_idle true scope idle empty
  have found := lies.locate fresh storeClasses rfl
  obtain ⟨-, -, -, nrm⟩ := lies
  obtain ⟨-, -, xlate, -⟩ := (State.locate_eq_ok ..).mp found
  obtain ⟨tlb, walks, kept⟩ := (s.freshly fresh).keepXlate_of_hartXlate _ _ _ _ _ (by decide) xlate
  have kept : (s.freshly fresh).keepXlate (s.freshly fresh).myHall (s.g a) = (s.freshly fresh).caching tlb walks := kept
  have stored := (s.freshly fresh).storeAt_of_locate (s.g a) (leBytes (atomBytes w) (s.g d).toNat) storeClasses x ra
    (by rw [leBytes_length]; exact found)
  rw [kept, State.storeBytes_nrm _ _ _ _ nrm] at stored
  let request := storeRequest (s.freshly fresh) (s.g a) x.pa (leBytes (atomBytes w) (s.g d).toNat)
  obtain ⟨vstat, halls, after⟩ := ((s.freshly fresh).caching tlb walks).post_demote_retire request sc room
  refine ⟨fresh, tlb, walks, vstat, halls, ?_, ?_⟩
  · exact (execStrel_stores ordered (State.completed_none made) room stored).trans (congrArg _ after)
  · refine (congrArg State.atGates after.symm).trans ?_
    rw [State.retire_atGates, State.demote_atGates]
    exact State.post_atGates ((s.freshly fresh).caching tlb walks) _ room

theorem execStrel_served {d a : BitVec 5} {sc : BitVec 3} {w : Bool} {s : State} {x : Xl} (scope : Scoped s sc) (settled : Settled s)
    (lies : Lies s .store (s.g a) (atomBytes w) x) (serves : Serves s x.pa (atomBytes w) true) :
    ∃ t, execStrel d a sc w s = .next t ∧ (∀ k, t.g k = s.g k) ∧ t.hart.pc = s.hart.pc + 4#64 ∧ SameMem s t
      ∧ (Memory.wf s.mem = true → MemWith s t.settleAll x.pa (atomBytes w) (s.g d).toNat) := by
  obtain ⟨fresh, tlb, walks, vstat, halls, run, gates⟩ := execStrel_posts (d := d) scope settled lies
  obtain ⟨-, idle, -⟩ := settled
  have pos : 0 < atomBytes w := by cases w <;> decide
  exact ⟨_, run, fun _ => rfl, rfl, fun _ => rfl,
    (s.reissued fresh tlb walks vstat).afterPost_lands _ _ _ _ tlb walks halls gates idle pos serves⟩

/-! ## FENCE -/

/-- The trap that the queue owes has code 14 and is deferred; of the state, taking it from the queue changes the queue only (R89). -/
theorem State.owedTrap_some {s u : State} {e : Trap} (owed : s.owedTrap = some (e, u)) :
    ∃ va seq, e = { code := 14, eval := va, deferred := true } ∧ u = { s with hart := { s.hart with seq := seq } } := by
  unfold State.owedTrap at owed
  split at owed
  · cases owed
  · split at owed
    · cases owed
    · cases owed
      exact ⟨_, _, rfl, rfl⟩

theorem execFence_owes {sc : BitVec 3} (q rel : Bool) {s u : State} {e : Trap} (scope : Scoped s sc) (ra : s.ra = none)
    (owed : (s.settleScope (s.scopeRun sc)).owedTrap = some (e, u)) : execFence sc q rel s = .next (u.takeTrap e) := by
  have released : s.releaseIf true sc = .error (e, u) := by
    rw [State.releaseIf, ra]
    simp only [State.release, owed]
    rfl
  obtain ⟨va, seq, rfl, -⟩ := State.owedTrap_some owed
  simp only [execFence, State.scoped_of_Scoped scope, released, bind, Except.bind]
  exact congrArg _ (State.takeFault_trap _ _ rfl)

theorem ordered_settled {sc : BitVec 3} {s : State} (scope : Scoped s sc) (ra : s.ra = none)
    (none : (s.settleScope (s.scopeRun sc)).owedTrap = none) : Ordered s sc true (s.settleScope (s.scopeRun sc)) := by
  rw [Ordered, State.scoped_of_Scoped scope]
  show s.releaseIf true sc = _
  rw [State.releaseIf, ra]
  simp only [State.release, none]
  rfl

/-- At a scope above CLU a fence has everything performed, whatever the limit of the VF (R102, R110). -/
theorem State.settleScope_above (s : State) (sc : BitVec 3) (above : sc ≠ 0#3) : s.settleScope (s.scopeRun sc) = s.settleAll := by
  have wide : s.scopeRun sc ≠ 0#3 := by
    unfold State.scopeRun
    split
    · decide
    · exact above
  rw [State.settleScope, if_pos wide]

/-! ## VDRAIN -/

/-- The completion of operations leaves, of the hart, their counters and those that have other names (R154). -/
theorem State.foldl_completeVec_hart (l : List VecOp) (s : State) :
    ∃ vops k, (l.foldl State.completeVec s).hart = { s.hart with vops := vops, k := k }
      ∧ ∀ o ∈ vops, o ∈ s.hart.vops ∧ ∀ p ∈ l, o.id ≠ p.id := by
  induction l generalizing s with
  | nil => exact ⟨_, _, rfl, fun o live => ⟨live, nofun⟩⟩
  | cons p l ih =>
    obtain ⟨vops, k, hart, left⟩ := ih (s.completeVec p)
    rw [s.completeVec_hart] at hart left
    refine ⟨vops, k, hart, fun o live => ?_⟩
    obtain ⟨before, other⟩ := left o live
    obtain ⟨before, named⟩ := List.mem_filter.mp before
    exact ⟨before, List.forall_mem_cons.mpr ⟨by simpa using named, other⟩⟩

/-- The drain of a counter leaves no operation on it, and none at all for counter 0 (R109). -/
theorem State.completeVecs_hart (s : State) (sel : VecOp → Bool) :
    ∃ vops k, (s.completeVecs sel).hart = { s.hart with vops := vops, k := k } ∧ ∀ o ∈ vops, o ∈ s.hart.vops ∧ sel o = false := by
  obtain ⟨vops, k, hart, left⟩ := State.foldl_completeVec_hart (s.hart.vops.filter sel) s
  refine ⟨vops, k, hart, fun o live => ?_⟩
  obtain ⟨before, other⟩ := left o live
  refine ⟨before, Bool.eq_false_iff.mpr fun selected => ?_⟩
  exact other o (List.mem_filter.mpr ⟨before, selected⟩) rfl

theorem execVdrain_idle {k sc : BitVec 3} {q rel : Bool} {s : State} (scope : Scoped s sc) (ra : s.ra = none)
    (idle : s.hart.posted = []) (empty : s.hart.seq = []) :
    ∃ t, execVdrain k sc q rel s = .next t ∧ (∀ j, t.g j = s.g j) ∧ t.hart.pc = s.hart.pc + 4#64
      ∧ ∀ o ∈ t.hart.vops, o ∈ s.hart.vops ∧ k ≠ 0#3 ∧ o.k ≠ k := by
  obtain ⟨vops, counters, hart, left⟩ := s.completeVecs_hart (drained k)
  obtain ⟨fresh, released⟩ := (s.completeVecs (drained k)).releaseIf_idle (q || rel) sc (by rw [hart]; exact idle)
    (by rw [hart]; exact empty)
  obtain ⟨vstat, demoted⟩ := ((s.completeVecs (drained k)).freshly fresh).demote_eq sc
  refine ⟨_, execVdrain_drained ra (State.scoped_of_Scoped scope) released, fun j => ?_, ?_, ?_⟩
  · rw [State.retire_g, State.demote_g]
    show (s.completeVecs (drained k)).g j = s.g j
    rw [State.g, hart]
    rfl
  · rw [State.retire_hart_pc, State.demote_pc]
    show (s.completeVecs (drained k)).hart.pc + 4#64 = _
    rw [hart]
  · rw [State.retire_hart_vops, demoted]
    intro o live
    have live : o ∈ (s.completeVecs (drained k)).hart.vops := live
    rw [hart] at live
    obtain ⟨before, other⟩ := left o live
    simp only [drained, Bool.or_eq_false_iff, decide_eq_false_iff_not] at other
    exact ⟨before, other⟩

theorem orderedComplete : OrderedComplete := by
  intro d a k sc q rel w s n scope
  refine ⟨fun x settled lies serves => execLda_served scope settled lies serves,
    fun x settled lies serves => execStrel_served scope settled lies serves, fun ra none => ?_, fun ra e u owed => ?_,
    fun ra idle empty => execVdrain_idle scope ra idle empty⟩
  · have filled := s.settleScope_filled (s.scopeRun sc)
    refine ⟨_, execFence_ordered q rel (ordered_settled scope ra none), fun k => ?_, ?_, ?_, fun above => ?_⟩
    · rw [State.retire_g, State.demote_g, filled.g]
    · rw [State.retire_hart_pc, State.demote_pc, filled.pc]
    · obtain ⟨vstat, demoted⟩ := (s.settleScope (s.scopeRun sc)).demote_eq sc
      rw [State.retire_hart_mode, demoted]
      exact filled.mode
    · obtain ⟨vstat, demoted⟩ := (s.settleScope (s.scopeRun sc)).demote_eq sc
      rw [State.retire_hart_posted, State.retire_mem, demoted, s.settleScope_above sc above]
      exact ⟨rfl, rfl⟩
  · refine ⟨execFence_owes q rel scope ra owed, ?_⟩
    obtain ⟨va, seq, rfl, rfl⟩ := State.owedTrap_some owed
    exact ⟨rfl, (s.settleScope_filled _).pc⟩

/-- Settles O17: each instruction goes on where its scope and its release let it (`Ordered.steps`); with nothing under way they do
(`ordered_idle`), the load finds memory (`loadFrom_served`), the store lands (`afterPost_lands`) and the drain leaves none of its operations
(`completeVecs_hart`); an owed trap is taken at the fence (`execFence_owes`). -/
theorem orderedAccesses : Obligations.OrderedAccesses := ⟨orderedAccesses_run, orderedComplete⟩

end Sys2Proof.Machine

/-! # Trap calls and returns (R113, R312, R316) -/

namespace Sys2Proof.Machine

/-! ## Entering a trap set -/

theorem TrapSet.handler_eq (t : TrapSet) : t.handler = vectorOf t := BitVec.or_zero

/-- What entry writes is what Tables 21.2 and 21.3 lay out. -/
theorem TrapSet.enter_entered (t : TrapSet) (m : Mode) (pc : Word) (code detail : Nat) (eval : Word) (pfx after : Bool) :
    EnteredSet t (t.enter m pc code detail eval pfx after) m pc code detail eval pfx after := by
  refine ⟨rfl, rfl, rfl, ?_, ?_⟩
  · have low : (place code 0 8).toNat = code % 256 := by rw [place_toNat _ _ _ (by decide)]; omega
    show place detail 8 8 ||| place code 0 8 = _
    rw [place_or _ _ _ _ (by omega) (by decide), low]
    rfl
  · cases m <;> cases pfx <;> cases after <;> rfl

theorem State.takeTrap_entersS {s : State} {t : Trap} (forS : s.toP t.code = false) (handler : vectorOf s.hart.sset ≠ 0#64)
    (free : s.hart.sset.estat.getLsbD 2 = false) : s.takeTrap t = s.enterS t := by
  have idle : s.hart.sset.busy = false := free
  simp [State.takeTrap, forS, TrapSet.handler_eq, handler, idle]

theorem State.takeTrap_entersP {s : State} {t : Trap} (forP : s.toP t.code = true) (handler : vectorOf s.pset ≠ 0#64)
    (free : s.pset.estat.getLsbD 2 = false) : s.takeTrap t = s.enterP t.code t.detail t.eval t.pfx t.after := by
  have idle : s.pset.busy = false := free
  simp [State.takeTrap, State.takeP, forP, TrapSet.handler_eq, handler, idle]

/-! ## TRAP and SVC -/

theorem sysNum_eq (n h : BitVec 5) : sysNum n h = 32 * h.toNat + n.toNat := by
  rw [sysNum, BitVec.toNat_append, ← Nat.shiftLeft_add_eq_or_of_lt n.isLt, Nat.shiftLeft_eq, Nat.mul_comm]

/-- The trap of a call is taken in the state that the call, retired, leaves: by the S set from mode A, else by the P set. -/
theorem trapAfter_calls (code : Nat) (call : code = 22 ∨ code = 23) (n h : BitVec 5) (s : State) :
    let eval := BitVec.ofNat 64 (32 * h.toNat + n.toNat)
    trapAfter code n h s = .next ((s.retire 4#64).takeTrap { code := code, eval := eval, after := true })
    ∧ (s.hart.mode = .a → vectorOf s.hart.sset ≠ 0#64 → s.hart.sset.estat.getLsbD 2 = false → ∃ t, trapAfter code n h s = .next t
        ∧ t.hart.mode = .s ∧ t.hart.pc = vectorOf s.hart.sset ∧ t.pset = s.pset ∧ (∀ k, t.g k = s.g k) ∧ SameMem s t
        ∧ EnteredSet s.hart.sset t.hart.sset .a (s.hart.pc + 4#64) code 0 eval false true)
    ∧ (s.hart.mode ≠ .a → vectorOf s.pset ≠ 0#64 → s.pset.estat.getLsbD 2 = false → ∃ t, trapAfter code n h s = .next t
        ∧ t.hart.mode = .p ∧ t.hart.pc = vectorOf s.pset ∧ t.hart.sset = s.hart.sset ∧ (∀ k, t.g k = s.g k) ∧ SameMem s t
        ∧ EnteredSet s.pset t.pset s.hart.mode (s.hart.pc + 4#64) code 0 eval false true) := by
  intro eval
  let u := s.retire 4#64
  let trap : Trap := { code := code, eval := eval, after := true }
  have hart : u.hart = { s.hart with pc := s.hart.pc + 4#64, transfer := false } := s.retire_hart _
  have taken : trapAfter code n h s = .next (u.takeTrap trap) := by rw [trapAfter, sysNum_eq]
  have mem (a : Nat) : Memory.read u.mem a = Memory.read s.mem a := by rw [State.retire_mem]
  have pset : u.pset = s.pset := s.retire_pset _
  refine ⟨taken, fun mode handler free => ?_, fun mode handler free => ?_⟩
  · have forS : u.toP code = false := by simp [State.toP, hart, mode]
    refine ⟨u.enterS trap, ?_, rfl, ?_, pset, s.retire_g _, mem, ?_⟩
    · rw [taken, State.takeTrap_entersS forS (by rw [hart]; exact handler) (by rw [hart]; exact free)]
    · show (u.hart.sset.enter _ _ _ _ _ _ _).handler = _
      rw [TrapSet.handler_eq, hart]; rfl
    · show EnteredSet _ (u.hart.sset.enter u.hart.mode _ _ _ _ _ _) _ _ _ _ _ _ _
      rw [hart, mode]
      exact TrapSet.enter_entered ..
  · have forP : u.toP code = true := by
      rw [State.toP, hart]
      cases m : s.hart.mode with
      | a => exact absurd m mode
      | s => rcases call with rfl | rfl <;> rfl
      | p => rfl
    refine ⟨u.enterP code 0 eval false true, ?_, rfl, ?_, by rw [State.enterP, hart], s.retire_g _, mem, ?_⟩
    · rw [taken, State.takeTrap_entersP forP (by rw [pset]; exact handler) (by rw [pset]; exact free)]
    · show (u.pset.enter _ _ _ _ _ _ _).handler = _
      rw [TrapSet.handler_eq, pset]; rfl
    · show EnteredSet _ (u.pset.enter _ _ _ _ _ _ _) _ _ _ _ _ _ _
      rw [hart, pset]
      exact TrapSet.enter_entered ..

theorem trapCalls : TrapCalls := fun n h s =>
  ⟨trapAfter_calls 22 (.inl rfl) n h s, trapAfter_calls 23 (.inr rfl) n h s⟩

/-! ## Modes that an instruction needs -/

theorem State.needMode_held {s : State} {m : Mode} (held : m.code ≤ s.hart.mode.code) : s.needMode m = .ok s := by
  simp [State.needMode, require, held]

theorem State.needMode_below {s : State} {m : Mode} (below : s.hart.mode.code < m.code) :
    s.needMode m = .error (s.privileged, s) := by
  simp [State.needMode, require, Nat.not_le.mpr below]

/-- Every mode but A is at least S. -/
theorem Mode.one_le_code {m : Mode} (h : m ≠ .a) : Mode.s.code ≤ m.code := by
  cases m with
  | a => exact absurd rfl h
  | s => decide
  | p => decide

/-! ## ERET -/

/-- PREV names a mode by its code; 3 names none. -/
theorem Mode.ofCode_eq_some {n : Nat} {m : Mode} : Mode.ofCode n = some m ↔ m.code = n := by
  match n with
  | 0 | 1 | 2 => cases m <;> simp [Mode.ofCode, Mode.code]
  | k + 3 => cases m <;> simp [Mode.ofCode, Mode.code]

theorem Mode.exists_code {n : Nat} {m : Mode} (le : n ≤ m.code) : ∃ named : Mode, named.code = n := by
  match n with
  | 0 => exact ⟨.a, rfl⟩
  | 1 => exact ⟨.s, rfl⟩
  | 2 => exact ⟨.p, rfl⟩
  | k + 3 => cases m <;> simp [Mode.code] at le

theorem TrapSet.prev_eq (t : TrapSet) : fieldNat t.estat 0 2 = t.estat.toNat % 4 := by
  rw [fieldNat, BitVec.extractLsb'_toNat, Nat.shiftRight_zero]

/-- The set that ERET leaves behind: BUSY is cleared. -/
def TrapSet.freed (t : TrapSet) : TrapSet := { t with estat := t.estat &&& ~~~4#64 }

theorem TrapSet.freed_eq (t : TrapSet) : { t with estat := setBit t.estat 2 false } = t.freed :=
  congrArg (fun x => { t with estat := x }) BitVec.or_zero

/-- The state in which ERET goes on: in mode m at EPC, with the set of the mode it left freed. -/
def State.returned (s : State) (m : Mode) : State :=
  { s with
    pset := if s.hart.mode = .p then s.eretSet.freed else s.pset
    hart := { s.hart with
      mode := m, pc := s.eretSet.epc, transfer := false
      sset := if s.hart.mode = .p then s.hart.sset else s.eretSet.freed } }

theorem State.eret_returns {s : State} {m : Mode} (prev : m.code = s.eretSet.estat.toNat % 4)
    (le : m.code ≤ s.hart.mode.code) : s.eret = .ok (s.returned m).countInstr := by
  rw [State.eret, TrapSet.prev_eq, Mode.ofCode_eq_some.mpr prev, TrapSet.freed_eq]
  simp only [if_neg (Nat.not_lt.mpr le), State.returned]
  split
  · rfl
  · rfl

theorem State.eret_illegal {s : State} (above : s.hart.mode.code < s.eretSet.estat.toNat % 4) :
    s.eret = .error (s.illegal, s) := by
  rw [State.eret, TrapSet.prev_eq]
  cases named : Mode.ofCode (s.eretSet.estat.toNat % 4) with
  | none => rfl
  | some m =>
    rw [← Mode.ofCode_eq_some.mp named] at above
    exact if_pos above

theorem eretReturns : EretReturns := by
  intro s x prev cleared
  refine ⟨fun mode le => ?_, fun mode above => ?_, fun mode => ?_⟩
  · obtain ⟨m, named⟩ := Mode.exists_code le
    have runs : execEret s = .next (s.returned m).countInstr := by
      rw [execEret, State.needMode_held (Mode.one_le_code mode)]
      exact congrArg finishAt (State.eret_returns named (named ▸ le))
    refine ⟨_, m, runs, named, State.countInstr_hart _, State.countInstr_pset _, fun a => ?_⟩
    rw [State.countInstr_mem]
    rfl
  · show execEret s = _
    rw [execEret, State.needMode_held (Mode.one_le_code mode)]
    exact congrArg finishAt (State.eret_illegal above)
  · show execEret s = _
    rw [execEret, State.needMode_below (by rw [mode]; decide)]
    rfl

/-- Settles O7: a call's trap is taken in the state that the call leaves once retired (`trapAfter_calls`), and ERET goes where the
set of its mode says (`State.eret_returns`), or traps. -/
theorem trapCallsAndReturns : Obligations.TrapCallsAndReturns := ⟨trapCalls, eretReturns⟩

end Sys2Proof.Machine

/-! # Vector compares (R127, R131) -/

namespace Sys2Proof.Machine

/-- What the relation is matters only on patterns of the width of a legal type. -/
theorem compareOp_compare {mk : VCmpOp → Instr} {ok : BitVec 4 → Bool} {f : BitVec 4 → Nat → Nat → Bool × Flags}
    (op : BitVec 4 → Nat → Nat → Bool × Flags) (run : ∀ o s, exec (mk o) s = compareOp o ok op s)
    (same : ∀ t x y, x < 2 ^ typeWidth t → y < 2 ^ typeWidth t → op t x y = f t x y) : Compare mk ok f := by
  intro o s t a b checks
  let bits (e : Nat) : Nat × Flags := (bit (f t (s.elem a e) (s.elem b e)).1, (f t (s.elem a e) (s.elem b e)).2)
  have uncut : s.hart.cut = none := checks.2.2.2
  have effect : exec (mk o) s = finish o.pfx (.ok (s.elementwise (s.maskSel o.pfx o.msk) (s.zeroing o.pfx) (s.perPos a)
      (.mask o.d (s.perPos a)) (s.anyUnknown [a, b]) bits)) := by
    have given : (fun e => let (r, fl) := op t (s.elem a e) (s.elem b e); (bit r, fl)) = bits :=
      funext fun e => by rw [same t _ _ (s.elem_lt a e) (s.elem_lt b e)]
    rw [run o s, compareOp, checks.vecCheck, ← given]
    rfl
  refine ⟨fun ra => ?_, ?_⟩
  · rw [effect, s.elementwise_known o.pfx o.msk _ _ _ _ uncut ra fun e => s.anyUnknown_known ra _ e]
    rfl
  · rw [effect]
    exact finish_completes o.pfx (s.elementwise_keeps ..) rfl

theorem intOf_unsigned {w x : Nat} (h : x < 2 ^ w) : intOf w false x = x := by
  rw [intOf, if_neg Bool.false_ne_true, Nat.mod_eq_of_lt h]

/-- Settles O19: at every element (`compareOp_compare`) the integer compares are those of the values that the patterns stand for,
and the others those of FEQ, FLT and FLE (`fpCompare_eq`, `fpCompare_lt`, `fpCompare_le`). -/
theorem vectorCompares : Obligations.VectorCompares := by
  unfold Obligations.VectorCompares
  intro signed unsigned float
  have signeds (mk : VCmpOp → Instr) (r : Int → Int → Bool) (run : ∀ o s, exec (mk o) s = intCompare o true r s) : signed mk r :=
    compareOp_compare _ run fun _ _ _ _ _ => rfl
  have unsigneds (mk : VCmpOp → Instr) (r : Int → Int → Bool) (q : Nat → Nat → Bool)
      (run : ∀ o s, exec (mk o) s = intCompare o false r s) (same : ∀ x y : Nat, r x y = q x y) : unsigned mk q :=
    compareOp_compare _ run fun t x y hx hy => by rw [intOf_unsigned hx, intOf_unsigned hy, same]
  have floats (mk : VCmpOp → Instr) (rel : FRel) (r : FVal → FVal → Bool) (quiet : Bool)
      (run : ∀ o s, exec (mk o) s = compareOp o arithFloat (fun t => fpCompare (fmtOf t) rel) s)
      (same : ∀ F x y, fpCompare F rel x y = (!(F.isNaN x || F.isNaN y) && r (F.value x) (F.value y),
        flag (if quiet then F.isSNaN x || F.isSNaN y else F.isNaN x || F.isNaN y) flNV)) : float mk r quiet :=
    compareOp_compare _ run fun t x y _ _ => same (fmtOf t) x y
  exact ⟨unsigneds .vcmpeq (· == ·) _ (fun _ _ => rfl) fun _ _ => decide_eq_decide.mpr Int.natCast_inj,
    unsigneds .vcmpne (· != ·) _ (fun _ _ => rfl) fun x y => by
      rw [bne, beq_eq_decide, decide_not, decide_eq_decide.mpr Int.natCast_inj],
    signeds .vcmplt (fun x y => decide (x < y)) fun _ _ => rfl, signeds .vcmple (fun x y => decide (x ≤ y)) fun _ _ => rfl,
    unsigneds .vcmpltn (fun x y => decide (x < y)) _ (fun _ _ => rfl) fun _ _ => decide_eq_decide.mpr Int.ofNat_lt,
    unsigneds .vcmplen (fun x y => decide (x ≤ y)) _ (fun _ _ => rfl) fun _ _ => decide_eq_decide.mpr Int.ofNat_le,
    floats .vfcmpeq .eq eqVal true (fun _ _ => rfl) fpCompare_eq, floats .vfcmplt .lt ltVal false (fun _ _ => rfl) fpCompare_lt,
    floats .vfcmple .le (fun v w => !ltVal w v) false (fun _ _ => rfl) fpCompare_le⟩

end Sys2Proof.Machine

/-! # Cache lines, translations and waiting (R114 to R117) -/

namespace Sys2Proof.Machine

/-! ## Cache lines -/

theorem State.settle_filled (s : State) (sel : Posted → Bool) : s.Filled (s.settle sel) :=
  State.filled_of_wearing (s.settle_wearing s.hart s.tlb s.walks sel)

/-- A change of one hall that leaves its windows leaves those of every hall. -/
theorem State.onHall_windows (s : State) (h k : BitVec 4) (f : Hall → Hall) (kept : ∀ x, (f x).windows = x.windows) :
    ((s.onHall h f).hall k).windows = (s.hall k).windows := by
  rw [State.hall_onHall]
  split
  · next same => rw [kept, same]
  · rfl

theorem State.retire_windows (s : State) (l : Word) (k : BitVec 4) : ((s.retire l).hall k).windows = (s.hall k).windows := by
  unfold State.retire State.countInstr
  split
  · rfl
  · exact State.onHall_windows _ _ _ _ fun _ => rfl

theorem State.dropHostLine_hostLines (s : State) (pa : Nat) :
    (s.dropHostLine pa).hostLines = s.hostLines.filter fun l => l.line != pa / 64 := by
  unfold State.dropHostLine
  dsimp only
  split
  · split
    · obtain ⟨halls, e⟩ := State.addTraffic_eq { s with hostLines := s.hostLines.filter fun l => l.line != pa / 64 } _ 9 64
      rw [e]
    · rfl
  · rfl

/-- The lines of n bytes at pa leave the windows of every hall. -/
def State.dropAllWindowLines (s : State) (pa n : Nat) : State :=
  (List.range 16).foldl (fun s i => s.dropWindowLines (BitVec.ofNat 4 i) pa n) s

theorem State.dropAllWindowLines_eq (s : State) (pa n : Nat) : ∃ halls, s.dropAllWindowLines pa n = { s with halls := halls } := by
  have all (l : List Nat) (t : State) :
      ∃ halls, l.foldl (fun s i => s.dropWindowLines (BitVec.ofNat 4 i) pa n) t = { t with halls := halls } := by
    induction l generalizing t with
    | nil => exact ⟨t.halls, rfl⟩
    | cons i l ih => exact ih (t.dropWindowLines (BitVec.ofNat 4 i) pa n)
  exact all _ s

/-- No window of any hall keeps the line. -/
theorem State.dropAllWindowLines_windows (s : State) (line : Nat) (h : BitVec 4) :
    ∀ w ∈ ((s.dropAllWindowLines (line * 64) 64).hall h).windows, ∀ l ∈ w.2.lines, l.pa ≠ line := by
  refine foldl_range_turn _ (fun _ => True) (fun t => ∀ w ∈ (t.hall h).windows, ∀ l ∈ w.2.lines, l.pa ≠ line) h.toNat 16 h.isLt
    (fun _ _ _ _ _ => trivial) (fun t _ => ?_) (fun t i small other clean => ?_) s trivial
  · rw [BitVec.ofNat_toNat, BitVec.setWidth_eq, State.dropWindowLines, State.hall_onHall, if_pos rfl]
    intro w mem l kept
    obtain ⟨before, -, rfl⟩ := List.mem_map.mp mem
    obtain ⟨-, outside⟩ := List.mem_filter.mp kept
    rintro rfl
    simp at outside
    omega
  · rw [State.dropWindowLines, State.hall_onHall, if_neg (ofNat_ne_of_ne_toNat small other)]
    exact clean

/-- The checks of LINEWB and LINEINV pass on a byte of an NRM page, and keep its translation. -/
theorem lineCheck_passes {s : State} {va : Word} {x : Xl} (canon : canonical va = true)
    (found : s.hartXlate s.myHall .store va 1 = .ok x) (nrm : x.cls = .nrm) :
    ∃ tlb walks, lineCheck va s = .ok (some x, s.caching tlb walks) := by
  have lies : s.locate s.myHall .store va 1 1 onlyNrm = .ok x :=
    (State.locate_eq_ok ..).mpr ⟨canon, Nat.mod_one _, found, by rw [nrm]; rfl⟩
  obtain ⟨tlb, walks, kept⟩ := s.keepXlate_of_hartXlate _ _ _ _ _ (by decide) found
  refine ⟨tlb, walks, ?_⟩
  rw [lineCheck, s.reach_located _ _ _ _ _ _ x lies, kept]
  rfl

/-- What writes a line back and retires changes no register but the PC, and no byte. -/
theorem retire_frame {s t : State} (hart : t.hart = s.hart) (mem : t.mem = s.mem) :
    SameMem s (t.retire 4#64) ∧ (t.retire 4#64).hart.pc = s.hart.pc + 4#64 ∧ ∀ k, (t.retire 4#64).g k = s.g k := by
  refine ⟨fun a => ?_, ?_, fun k => ?_⟩
  · rw [State.retire_mem, mem]
  · rw [State.retire_hart_pc, hart]
  · rw [State.retire_g, State.g, hart]
    rfl

theorem execLinewb_passes {s : State} {a : BitVec 5} {x : Xl} (idle : s.hart.posted = []) (canon : canonical (s.g a) = true)
    (found : s.hartXlate s.myHall .store (s.g a) 1 = .ok x) (nrm : x.cls = .nrm) :
    ∃ t : State, execLinewb a s = .next (t.retire 4#64) ∧ t.hart = s.hart ∧ t.mem = s.mem
      ∧ t.hostLines = s.hostLines.map fun l =>
          if l.line = x.pa / 64 ∧ s.hostLines.any (fun l => l.line == x.pa / 64 && l.modified) then { l with modified := false } else l := by
  obtain ⟨tlb, walks, checked⟩ := lineCheck_passes canon found nrm
  have settled := (s.caching tlb walks).settleAt_idle (x.pa / 64 * 64) 64 idle
  simp only [execLinewb, checked, bind, Except.bind, settled]
  cases modified : (s.caching tlb walks).hostLines.find? fun l => l.line == x.pa / 64 && l.modified with
  | some l =>
    obtain ⟨halls, e⟩ := (s.caching tlb walks).addTraffic_eq l.holder 9 64
    have hit := List.find?_some modified
    have some : s.hostLines.any (fun l => l.line == x.pa / 64 && l.modified) = true :=
      List.any_eq_true.mpr ⟨l, List.mem_of_find?_eq_some modified, hit⟩
    refine ⟨_, rfl, ?_, ?_, ?_⟩
    · rw [e]; rfl
    · rw [e]; rfl
    · simp only [some, and_true]
      rfl
  | none =>
    have none : s.hostLines.any (fun l => l.line == x.pa / 64 && l.modified) = false :=
      List.any_eq_false.mpr (List.find?_eq_none.mp modified)
    refine ⟨s.caching tlb walks, rfl, rfl, rfl, ?_⟩
    simp only [none, Bool.false_eq_true, and_false, if_false, List.map_id']
    rfl

theorem execLineinv_passes {s : State} {a : BitVec 5} {x : Xl} (idle : s.hart.posted = []) (canon : canonical (s.g a) = true)
    (found : s.hartXlate s.myHall .store (s.g a) 1 = .ok x) (nrm : x.cls = .nrm) :
    ∃ t : State, execLineinv a s = .next (t.retire 4#64) ∧ t.hart = s.hart ∧ t.mem = s.mem
      ∧ (t.hostLines = s.hostLines.filter fun l => l.line != x.pa / 64)
      ∧ ∀ h, ∀ w ∈ (t.hall h).windows, ∀ l ∈ w.2.lines, l.pa ≠ x.pa / 64 := by
  obtain ⟨tlb, walks, checked⟩ := lineCheck_passes canon found nrm
  let c := s.caching tlb walks
  obtain ⟨halls, lines, dropped⟩ := c.dropHostLine_eq x.pa
  obtain ⟨halls', emptied⟩ := (c.dropHostLine x.pa).dropAllWindowLines_eq (x.pa / 64 * 64) 64
  refine ⟨(c.dropHostLine x.pa).dropAllWindowLines (x.pa / 64 * 64) 64, ?_, ?_, ?_, ?_, State.dropAllWindowLines_windows _ _⟩
  · have settled := c.settleAt_idle (x.pa / 64 * 64) 64 idle
    simp only [execLineinv, checked, bind, Except.bind]
    rw [settled]
    rfl
  · rw [emptied, dropped]; rfl
  · rw [emptied, dropped]; rfl
  · rw [emptied]; exact c.dropHostLine_hostLines x.pa

/-! ## Translations -/

theorem getLsbD_zero_eq {w : Nat} (k : BitVec w) : k.getLsbD 0 = decide (k.toNat % 2 = 1) := by
  rw [BitVec.getLsbD, Nat.testBit_zero]

theorem execTlbsh_shoots {s : State} {d a k : BitVec 5} (kind : k.toNat < 4)
    (held : (if k.toNat < 2 then Mode.s else Mode.p).code ≤ s.hart.mode.code)
    (guest : ¬(k.toNat < 2 ∧ (s.settle fun _ => true).shadowed = true)) :
    let u := s.settle fun _ => true
    execTlbsh d a k s = .next ((u.invalidate (if k.toNat < 2 then u.myVf else BitVec.ofNat 10 (s.g d).toNat)
      (if k.toNat % 2 = 0 then some (s.g a) else none)).retire 4#64) := by
  intro u
  have plain : (decide (k.toNat < 2) && u.shadowed) = false := by simpa using guest
  have page : (if k.getLsbD 0 then none else some (s.g a)) = if k.toNat % 2 = 0 then some (s.g a) else none := by
    rw [getLsbD_zero_eq]
    rcases Nat.mod_two_eq_zero_or_one k.toNat with even | odd
    · rw [even]; rfl
    · rw [odd]; rfl
  have named : (u.g d).extractLsb' 0 10 = BitVec.ofNat 10 (s.g d).toNat := by
    rw [(s.settle_filled _).g]
    exact BitVec.eq_of_toNat_eq (by simp)
  simp only [execTlbsh, require, kind, decide_true, if_true, bind, Except.bind, State.needMode_held held, page]
  rw [if_neg (by rw [plain]; exact Bool.false_ne_true), named]
  rfl

theorem execTlbsh_below {s : State} {d a k : BitVec 5} (kind : k.toNat < 4)
    (below : s.hart.mode.code < (if k.toNat < 2 then Mode.s else Mode.p).code) :
    execTlbsh d a k s = .next (s.takeTrap s.privileged) := by
  simp only [execTlbsh, require, kind, decide_true, if_true, bind, Except.bind, State.needMode_below below]
  rfl

theorem execTlbsh_unassigned {s : State} {d a k : BitVec 5} (kind : 4 ≤ k.toNat) :
    execTlbsh d a k s = .next (s.takeTrap s.illegal) := by
  simp only [execTlbsh, require, Nat.not_lt.mpr kind, decide_false, bind, Except.bind]
  rfl

/-- No cached translation of the VF's page, or of any of its pages, is left. -/
theorem State.invalidate_tlb (s : State) (v : BitVec 10) (page : Option Word) (e : TlbEntry) (left : e ∈ (s.invalidate v page).tlb)
    (own : e.space = some v) : ∃ va, page = some va ∧ inLeaf e.pte e.page va = false := by
  obtain ⟨-, kept⟩ := List.mem_filter.mp left
  cases page with
  | none => simp [own] at kept
  | some va => exact ⟨va, rfl, by simpa [own] using kept⟩

/-- Nor a cached table entry that leads to one. -/
theorem State.invalidate_walks (s : State) (v : BitVec 10) (page : Option Word) (e : WalkEntry)
    (left : e ∈ (s.invalidate v page).walks) (own : e.space = some v) : ∃ va, page = some va ∧ e.part ≠ walkPart va e.lvl := by
  obtain ⟨-, kept⟩ := List.mem_filter.mp left
  cases page with
  | none => simp [own] at kept
  | some va => exact ⟨va, rfl, by simpa [own] using kept⟩

/-! ## Waiting and stopping -/

theorem execWfi_awake {s : State} (mode : s.hart.mode ≠ .a) (pending : s.hart.wakes ≠ 0#64 ∨ s.hart.fired ≠ 0#64) :
    execWfi s = .next (s.retire 4#64) := by
  have awake : s.wakePending = true := by
    rcases pending with h | h
    · simp [State.wakePending, h]
    · simp [State.wakePending, h]
  rw [execWfi, State.needMode_held (Mode.one_le_code mode)]
  simp only [bind, Except.bind, awake, if_true]
  rfl

theorem execWfi_waits {s : State} (mode : s.hart.mode ≠ .a) (wakes : s.hart.wakes = 0#64) (fired : s.hart.fired = 0#64)
    (free : s.myUnit = none) : execWfi s = .next (s.onHart fun h => { h with wait := some .wfi }) := by
  have asleep : s.wakePending = false := by simp [State.wakePending, wakes, fired, State.askedToStop, free]
  rw [execWfi, State.needMode_held (Mode.one_le_code mode)]
  simp only [bind, Except.bind, asleep, Bool.false_eq_true, if_false]
  rfl

/-- HALT marks the hart and its place in its cluster as stopped. -/
theorem execHalt_stops {s : State} (mode : s.hart.mode = .p) :
    ∃ t, execHalt s = .next t ∧ t.hart = { s.hart with pc := s.hart.pc + 4#64, transfer := false, stopped := true } ∧ SameMem s t
      ∧ ((t.hall s.myHall).cluster s.myCluster).stopped.getLsbD s.myHart.toNat = true := by
  let u := (s.retire 4#64).onHart fun h => { h with stopped := true }
  have place : u.myHall = s.myHall ∧ u.myCluster = s.myCluster ∧ u.myHart = s.myHart := by
    have hid : u.hid = s.hid := s.retire_hid 4#64
    simp only [State.myHall, State.myCluster, State.myHart, hid, and_self]
  obtain ⟨hall, cluster, number⟩ := place
  refine ⟨u.onCluster u.myHall u.myCluster fun c => { c with stopped := setBit c.stopped u.myHart.toNat true }, ?_, ?_, fun a => ?_, ?_⟩
  · rw [execHalt, State.needMode_held (by rw [mode])]
    rfl
  · show ({ (s.retire 4#64).hart with stopped := true } : Hart) = _
    rw [State.retire_hart]
  · show Memory.read (s.retire 4#64).mem a = _
    rw [State.retire_mem]
  · have small : s.myHart.toNat < 8 := s.myHart.isLt
    rw [hall, cluster, number, State.cluster_onCluster, if_pos ⟨rfl, rfl⟩, getLsbD_setBit]
    simp [small]

/-- Settles O35: LINEWB and LINEINV act on the host lines and windows of one line (`execLinewb_passes`, `execLineinv_passes`), TLBSH
on what `State.invalidate` drops, and FENCEI, WFI and HALT on the hart's own state. -/
theorem cacheTranslationAndWaiting : Obligations.CacheTranslationAndWaiting := by
  intro d a k s lower u vf page
  have filled : s.Filled u := s.settle_filled _
  refine ⟨fun x ra idle canon found nrm => ⟨?_, ?_⟩, ?_, fun kind held guest => ?_, execTlbsh_below, execTlbsh_unassigned,
    execWfi_awake, execWfi_waits, fun mode => ?_, execHalt_stops, fun mode => ?_⟩
  · obtain ⟨t, runs, hart, mem, lines⟩ := execLinewb_passes idle canon found nrm
    obtain ⟨same, pc, g⟩ := retire_frame hart mem
    exact ⟨_, runs, same, pc, g, by rw [State.retire_hostLines, lines]⟩
  · obtain ⟨t, runs, hart, mem, lines, windows⟩ := execLineinv_passes idle canon found nrm
    obtain ⟨same, pc, g⟩ := retire_frame hart mem
    refine ⟨_, runs, same, pc, g, by rw [State.retire_hostLines, lines], fun h => ?_⟩
    show ∀ w ∈ ((t.retire 4#64).hall (BitVec.ofFin h)).windows, _
    rw [State.retire_windows]
    exact windows _
  · refine ⟨_, rfl, rfl, ?_, ?_⟩
    · rw [State.retire_hart_pc, ← filled.pc]
      rfl
    · rw [State.retire_icache]
  · refine ⟨_, execTlbsh_shoots kind held guest, rfl, ?_, fun e left => ?_, fun e left => ?_⟩
    · rw [State.retire_hart_pc, ← filled.pc]
      rfl
    · rw [State.retire_tlb] at left
      exact u.invalidate_tlb vf page e left
    · rw [State.retire_walks] at left
      exact u.invalidate_walks vf page e left
  · show execWfi s = _
    rw [execWfi, State.needMode_below (by rw [mode]; decide)]
    rfl
  · have below : s.hart.mode.code < Mode.p.code := by
      cases m : s.hart.mode with
      | a => decide
      | s => decide
      | p => exact absurd m mode
    show execHalt s = _
    rw [execHalt, State.needMode_below below]
    rfl

end Sys2Proof.Machine

/-! # Gallery windows of a hall (R348) -/

namespace Sys2Proof.Machine

/-! ## Layouts -/

theorem getLsbD_place (v lo len i : Nat) :
    (place v lo len).getLsbD i = (decide (i < 64) && decide (lo ≤ i) && decide (i - lo < len) && v.testBit (i - lo)) := by
  rw [place, BitVec.getLsbD_ofNat, Nat.testBit_shiftLeft, Nat.testBit_mod_two_pow]
  simp only [ge_iff_le, Bool.and_assoc]

/-- A field put back where it was read is the value under the field's mask. -/
theorem place_fieldNat (x : Word) (lo len : Nat) : place (fieldNat x lo len) lo len = x &&& place (2 ^ len - 1) lo len := by
  apply BitVec.eq_of_getLsbD_eq
  intro i _
  rw [BitVec.getLsbD_and, getLsbD_place, getLsbD_place, Nat.testBit_two_pow_sub_one, fieldNat, BitVec.testBit_toNat,
    BitVec.getLsbD_extractLsb']
  by_cases above : lo ≤ i
  · rw [Nat.add_sub_cancel' above]
    cases x.getLsbD i <;> simp
  · simp [above]

/-- R348: ENABLE, bit 62, bits 47:40 and the tenant are stored; SIZE is kept while the window is open. -/
theorem gwctlStored_eq (old v : Word) :
    gwctlStored old v = (v &&& 0xC000FF00FFFF0000#64) ||| ((if old.getLsbD 63 then old else v) &&& 0xFFFF#64) := by
  simp only [gwctlStored, place_fieldNat, ← BitVec.and_or_distrib_left]
  rfl

/-! ## Keyed lists -/

theorem alFind_map {κ ν μ : Type} [DecidableEq κ] (k : κ) (f : ν → μ) (l : List (κ × ν)) :
    alFind k (l.map fun p => (p.1, f p.2)) = (alFind k l).map f := by
  induction l with
  | nil => rfl
  | cons p r ih =>
    simp only [List.map_cons, alFind]
    split
    · rfl
    · exact ih

/-! ## Changing one hall -/

theorem State.onHall_becomes (s : State) (h : BitVec 4) (f : Hall → Hall) : HallBecomes s (s.onHall h f) h (f (s.hall h)) := by
  refine ⟨?_, fun k other => ?_, rfl⟩
  · rw [State.hall_onHall, if_pos rfl]
  · rw [State.hall_onHall, if_neg other]

theorem State.onGallery_becomes (s : State) (h : BitVec 4) (i : BitVec 5) (f : Gallery → Gallery) : HallBecomes s (s.onGallery h i f) h
    { s.hall h with gallery := put (w := 5) (s.hall h).gallery i (f (s.galleryAt h i)) } := s.onHall_becomes h _

/-! ## Gallery windows -/

/-- A window as a revoke of gallery window g at tenant t leaves it: its lines there are gone where its VF is the tenant's. -/
def State.ungranted (s : State) (g : Gallery) (t : BitVec 16) (w : Window) : Window :=
  if s.tenantOf w.vf = t then { w with lines := w.lines.filter fun l => !g.covers (l.pa * 64) } else w

theorem State.ungranted_vf (s : State) (g : Gallery) (t : BitVec 16) (w : Window) : (s.ungranted g t w).vf = w.vf := by
  unfold State.ungranted
  split <;> rfl

theorem State.dropGranted_hall (s : State) (g : Gallery) (t : BitVec 16) (k : BitVec 4) : (s.dropGranted g t).hall k
    = { s.hall k with windows := (s.hall k).windows.map fun p => (p.1, s.ungranted g t p.2) } := by
  simp only [State.hall, State.dropGranted, pick, Vector.getElem_map]
  rfl

theorem State.dropGranted_uncovered (s : State) (g : Gallery) (t : BitVec 16) (k : BitVec 4) (w : Window) (n : Nat)
    (kept : alFind n ((s.dropGranted g t).hall k).windows = some w) (own : s.tenantOf w.vf = t) :
    ∀ l ∈ w.lines, g.covers (l.pa * 64) = false := by
  rw [s.dropGranted_hall, alFind_map] at kept
  obtain ⟨before, -, rfl⟩ := Option.map_eq_some_iff.mp kept
  rw [s.ungranted_vf] at own
  intro l left
  rw [State.ungranted, if_pos own] at left
  obtain ⟨-, outside⟩ := List.mem_filter.mp left
  simpa using outside

/-- A VF as an event of tenant t leaves it. -/
def VF.raised (x : VF) (t : BitVec 16) (f : Word → Word) : VF := if x.tenant = t then { x with evt := f x.evt } else x

theorem State.raiseEvt_vfs (s : State) (t : BitVec 16) (f : Word → Word) (real : t ≠ 0#16) :
    (s.raiseEvt t f).vfs = s.vfs.map fun p => (p.1, p.2.raised t f) := by
  refine List.map_congr_left fun p _ => ?_
  simp only [bne_iff_ne.mpr real, Bool.and_true, decide_eq_true_eq, VF.raised]
  split <;> rfl

/-- The event reaches every VF of the tenant. -/
theorem State.raiseEvt_vf (s : State) (t : BitVec 16) (f : Word → Word) (real : t ≠ 0#16) (v : BitVec 10)
    (own : (s.vf v).tenant = t) : ((s.raiseEvt t f).vf v).evt = f (s.vf v).evt := by
  unfold State.vf at own ⊢
  rw [s.raiseEvt_vfs t f real, alFind_map _ fun x : VF => x.raised t f]
  cases found : alFind v.toNat s.vfs with
  | none =>
    rw [found] at own
    exact absurd own.symm real
  | some x =>
    rw [found] at own
    exact congrArg VF.evt (if_pos own)

/-- What a write to GWCTL stores, counted into the measurement of the hall, before a revoke drops anything. -/
def State.gwctlPut (s : State) (h : BitVec 4) (i : BitVec 5) (v : Word) : State :=
  let old := s.galleryAt h i
  let stored := gwctlStored old.ctl v
  (s.onGallery h i fun g => { g with ctl := stored, busy := g.busy || (old.ctl.getLsbD 63 && !v.getLsbD 63) }).extend h
    (measured (hallRegOffset h (0x108 + 16 * i.toNat)) stored)

theorem State.gwctlPut_gallery (s : State) (h : BitVec 4) (i : BitVec 5) (v : Word) :
    let g := s.galleryAt h i
    ((s.gwctlPut h i v).hall h).gallery = put (w := 5) (s.hall h).gallery i
      { g with ctl := gwctlStored g.ctl v, busy := g.busy || (g.ctl.getLsbD 63 && !v.getLsbD 63) } := by
  unfold State.gwctlPut State.extend State.onGallery
  rw [State.hall_onHall, if_pos rfl, State.hall_onHall, if_pos rfl]
  rfl

theorem State.gwctlPut_hmeas (s : State) (h : BitVec 4) (i : BitVec 5) (v : Word) : ((s.gwctlPut h i v).hall h).hmeas
    = remeasured (s.hall h) (0x1000000 * (1 + h.toNat % 2) + 0x108 + 16 * i.toNat) (gwctlStored (s.galleryAt h i).ctl v) := by
  unfold State.gwctlPut State.extend State.onGallery
  rw [State.hall_onHall, if_pos rfl, State.hall_onHall, if_pos rfl, remeasured, Nat.add_assoc]
  rfl

theorem State.gwctlPut_windows (s : State) (h k : BitVec 4) (i : BitVec 5) (v : Word) :
    ((s.gwctlPut h i v).hall k).windows = (s.hall k).windows :=
by
  unfold State.gwctlPut State.extend State.onGallery
  refine (State.onHall_windows _ h k _ ?_).trans (s.onHall_windows h k _ ?_)
  · exact fun _ => rfl
  · exact fun _ => rfl

/-- The tenant of a gallery window. -/
def Gallery.tenant (g : Gallery) : BitVec 16 := g.ctl.extractLsb' 16 16

/-- A write that closes an open window revokes it. -/
theorem State.writeGwctl_revokes {s : State} {h : BitVec 4} {i : BitVec 5} {v : Word}
    (closes : ((s.galleryAt h i).ctl.getLsbD 63 && !v.getLsbD 63) = true) : s.writeGwctl h i v
      = ((s.gwctlPut h i v).dropGranted (s.galleryAt h i) (s.galleryAt h i).tenant).raiseEvt (s.galleryAt h i).tenant
          fun e => setBit e 2 true := if_pos closes

theorem State.writeGwctl_puts {s : State} {h : BitVec 4} {i : BitVec 5} {v : Word}
    (stays : ((s.galleryAt h i).ctl.getLsbD 63 && !v.getLsbD 63) = false) : s.writeGwctl h i v = s.gwctlPut h i v :=
  if_neg (Bool.eq_false_iff.mp stays)

theorem State.raiseEvt_hall (s : State) (t : BitVec 16) (f : Word → Word) (k : BitVec 4) : (s.raiseEvt t f).hall k = s.hall k := rfl

/-- The revoke changes windows and events only. -/
theorem State.writeGwctl_keeps (s : State) (h k : BitVec 4) (i : BitVec 5) (v : Word) :
    ((s.writeGwctl h i v).hall k).gallery = ((s.gwctlPut h i v).hall k).gallery
      ∧ ((s.writeGwctl h i v).hall k).hmeas = ((s.gwctlPut h i v).hall k).hmeas
      ∧ (s.writeGwctl h i v).mem = (s.gwctlPut h i v).mem ∧ (s.writeGwctl h i v).hart = (s.gwctlPut h i v).hart := by
  cases closes : (s.galleryAt h i).ctl.getLsbD 63 && !v.getLsbD 63 with
  | true =>
    rw [State.writeGwctl_revokes closes, State.raiseEvt_hall, State.dropGranted_hall]
    exact ⟨rfl, rfl, rfl, rfl⟩
  | false =>
    rw [State.writeGwctl_puts closes]
    exact ⟨rfl, rfl, rfl, rfl⟩

theorem galleryWindows : GalleryWindows := by
  intro s h i v x g revoked stored becomes tenant
  have value : gwctlStored g.ctl v = stored := gwctlStored_eq g.ctl v
  obtain ⟨gallery, hmeas, mem, hart⟩ := s.writeGwctl_keeps h h i v
  rw [s.gwctlPut_gallery] at gallery
  rw [s.gwctlPut_hmeas] at hmeas
  have drained := s.onGallery_becomes h i fun g => { g with busy := false }
  have emptied := congrArg Hall.gallery drained.1
  refine ⟨⟨s.writeGwctl h i v, rfl, ⟨?_, fun j other => ?_⟩, fun a => ?_, ?_, ?_, fun kept => ⟨?_, fun k => ?_⟩,
    fun closed real u own => ?_, fun closed k w n found own => ?_⟩, ⟨_, rfl, ⟨?_, fun j other => ?_⟩, ?_⟩⟩
  · rw [gallery, ← value]
    exact (pick_put ..).trans (if_pos rfl)
  · rw [gallery]
    exact (pick_put ..).trans (if_neg other)
  · rw [mem]
    rfl
  · rw [hart]
    rfl
  · rw [hmeas, ← value]
    rfl
  · rw [State.writeGwctl_puts kept]
    rfl
  · rw [State.writeGwctl_puts kept, s.gwctlPut_windows]
  · have raised := State.raiseEvt_vf ((s.gwctlPut h i v).dropGranted g tenant) tenant (fun e => setBit e 2 true) real u own
    rw [State.writeGwctl_revokes closed]
    refine (congrArg (·.getLsbD 2) raised).trans ?_
    rw [getLsbD_setBit]
    rfl
  · rw [State.writeGwctl_revokes closed] at found
    exact State.dropGranted_uncovered (s.gwctlPut h i v) g tenant k w n found own
  · rw [emptied]
    exact (pick_put ..).trans (if_pos rfl)
  · rw [emptied]
    exact (pick_put ..).trans (if_neg other)
  · rw [emptied]
    exact drained

end Sys2Proof.Machine

/-! # Requests to a hall (R115, R234, R337 to R339, R349, R394) -/

namespace Sys2Proof.Machine

/-! ## Held accesses -/

/-- The state in which the hart goes on from its held access. -/
def State.answered (s : State) (h : BitVec 4) (tok : BitVec 32) : State := (s.unhold h tok).onHart fun y => { y with wait := none }

theorem State.answered_becomes (s : State) (h : BitVec 4) (tok : BitVec 32) :
    HallBecomes { s with hart := { s.hart with wait := none } } (s.answered h tok) h
      { s.hall h with held := (s.hall h).held.filter fun y => y.token != tok } :=
  ({ s with hart := { s.hart with wait := none } } : State).onHall_becomes h fun x =>
    { x with held := x.held.filter fun y => y.token != tok }

theorem State.unhold_held (s : State) (h : BitVec 4) (tok : BitVec 32) :
    ((s.unhold h tok).hall h).held = (s.hall h).held.filter fun y => y.token != tok := by
  rw [State.unhold, State.hall_onHall, if_pos rfl]

theorem State.answer_unknown {s : State} {h : BitVec 4} {tok : BitVec 32} (unknown : s.heldAt h tok = none) (a : FqAnswer) :
    s.answer h tok a = s := by
  rw [State.answer, unknown]

theorem State.answer_engine {s : State} {h : BitVec 4} {tok : BitVec 32} {a : Held} {i : Nat} (named : s.heldAt h tok = some a)
    (engine : a.cmd = some i) : s.answer h tok .forward
      = { s.unhold h tok with cmds := s.cmds.map fun c => if c.id = i then { c with forward := true } else c } := by
  simp only [State.answer, named, engine]
  rfl

section
variable {s : State} {h : BitVec 4} {tok : BitVec 32} {a : Held}
variable (named : s.heldAt h tok = some a) (own : a.cmd = none) (access : a.tlbsh = none)
variable (waits : s.hart.wait = some (.held tok))
include named own access waits

theorem State.answer_forward : s.answer h tok .forward = (s.answered h tok).forward a := by
  have still : (s.unhold h tok).hart.wait = some (.held tok) := waits
  simp only [State.answer, named, own, access, still, if_true]
  rfl

theorem State.answer_complete (d : Word) : s.answer h tok (.complete d)
    = if a.scalar then (s.answered h tok).onHart fun y => { y with fq := .complete d } else (s.answered h tok).forward a := by
  have still : (s.unhold h tok).hart.wait = some (.held tok) := waits
  simp only [State.answer, named, own, access, still, if_true]
  rfl

theorem State.answer_retry (whole : a.cut = none) : s.answer h tok .none = s.answered h tok := by
  have still : (s.unhold h tok).hart.wait = some (.held tok) := waits
  simp only [State.answer, named, own, access, still, whole, if_true]
  rfl

theorem State.answer_retry_cut {first vl vlw : Nat} (cut : a.cut = some (first, vl, vlw)) :
    s.answer h tok .none = (s.answered h tok).onHart fun y => { y with fq := .again first } := by
  have still : (s.unhold h tok).hart.wait = some (.held tok) := waits
  simp only [State.answer, named, own, access, still, cut, if_true]
  rfl

end

theorem State.forward_cut (s : State) {a : Held} {first vl vlw : Nat} (cut : a.cut = some (first, vl, vlw)) : s.forward a
    = ({ s with hart := { s.hart with vl := vl, vlw := vlw, vstart := 0 } } : State).retire (if a.pfx then 8#64 else 4#64) := by
  rw [State.forward, cut]
  rfl

theorem State.forward_whole (s : State) {a : Held} (whole : a.cut = none) (plain : a.record = []) : s.forward a
    = s.takeTrap { code := a.code, eval := a.va, detail := if a.code = 2 then 0 else a.kind.toNat, after := a.after, pfx := a.pfx } := by
  simp only [State.forward, whole, plain, if_true]

/-! ## Shootdowns -/

theorem State.settleList_failed (s : State) (l : List Posted) : ∀ p ∈ (s.settleList (fun _ => true) l).2, p.failed = true := by
  induction l generalizing s with
  | nil => exact fun p mem => absurd mem List.not_mem_nil
  | cons p l ih =>
    unfold State.settleList
    rw [if_pos rfl]
    split
    · exact ih _
    · intro q mem
      rcases List.mem_cons.mp mem with rfl | later
      · rfl
      · exact ih _ q later

theorem shootHow_eq (kind : BitVec 2) (v : BitVec 10) :
    place kind.toNat 10 2 ||| place v.toNat 0 10 = BitVec.ofNat 64 (kind.toNat * 2 ^ 10 + v.toNat) := by
  have vf : (place v.toNat 0 10).toNat = v.toNat := by
    rw [place_toNat _ _ _ (by decide), Nat.mod_eq_of_lt v.isLt, Nat.pow_zero, Nat.mul_one]
  rw [place_or _ _ _ _ (by rw [vf]; exact v.isLt) (by decide), vf, Nat.mod_eq_of_lt kind.isLt, Nat.mul_comm, Nat.add_comm]

/-- The page that a shootdown is of; none for every page of the VF. -/
def Hall.shotPage (x : Hall) : Option Word := if fieldNat x.shootHow 10 2 = 0 then some x.shootPage else none

/-- A filter on the space and the page leaves what is not both. -/
theorem mem_filter_unshot {α : Type} {l : List α} {space : α → Option (BitVec 10)} {v : BitVec 10} {x : Hall}
    {here : α → Word → Bool} {e : α} (left : e ∈ l.filter fun e => !(space e == some v && x.shotPage.all fun va => here e va)) :
    e ∈ l ∧ ¬(space e = some v ∧ (fieldNat x.shootHow 10 2 = 0 → here e x.shootPage = true)) := by
  obtain ⟨before, kept⟩ := List.mem_filter.mp left
  refine ⟨before, ?_⟩
  rintro ⟨own, shot⟩
  unfold Hall.shotPage at kept
  split at kept
  · next page => simp [own, shot page] at kept
  · simp [own] at kept

theorem execShootdownDone_busy {s : State} {h : BitVec 4} (busy : (s.hall h).shootBusy = true) : execShootdownDone h s
    = .next (((s.settle fun _ => true).invalidate ((s.hall h).shootHow.extractLsb' 0 10) (s.hall h).shotPage).onHall h
        fun y => { y with shootBusy := false }) :=
  congrArg Host.Outcome.next (if_pos busy)

theorem hallRequests : HallRequests := by
  intro s h on tok kind v x
  refine ⟨⟨_, rfl, s.onHall_becomes h _⟩, ⟨_, rfl, s.onHall_becomes h _⟩, ⟨_, rfl, s.onHall_becomes h _⟩,
    ⟨_, rfl, s.onHall_becomes h _⟩, fun unknown => ?_, fun a named own access waits => ?_, fun a i named engine => ?_, fun idle => ?_,
    fun busy => ?_, fun idle => ?_, fun busy => ?_⟩
  · exact ⟨congrArg Host.Outcome.next (State.answer_unknown unknown _), congrArg Host.Outcome.next (State.answer_unknown unknown _),
      congrArg Host.Outcome.next (State.answer_unknown unknown _)⟩
  · have forwards : exec (.fqrespForward h tok) s = .next ((s.answered h tok).forward a) :=
      congrArg Host.Outcome.next (State.answer_forward named own access waits)
    have completes : exec (.fqrespComplete h tok) s = .next _ :=
      congrArg Host.Outcome.next (State.answer_complete named own access waits x.fqdata)
    refine ⟨s.answered h tok, s.answered_becomes h tok, fun whole => ?_, fun first vl vlw cut => ⟨?_, ?_⟩, fun whole plain => ?_,
      fun scalar => ?_, fun other => ?_⟩
    · exact congrArg Host.Outcome.next (State.answer_retry named own access waits whole)
    · exact congrArg Host.Outcome.next (State.answer_retry_cut named own access waits cut)
    · rw [forwards, State.forward_cut _ cut]
    · rw [forwards, State.forward_whole _ whole plain]
    · rw [completes, if_pos scalar]
      rfl
    · rw [completes, forwards, if_neg (Bool.eq_false_iff.mp other)]
  · refine ⟨_, congrArg Host.Outcome.next (State.answer_engine named engine), ?_, rfl⟩
    exact s.unhold_held h tok
  · refine ⟨_, congrArg Host.Outcome.next (if_neg (Bool.eq_false_iff.mp idle)), ?_⟩
    simp only [shootHow_eq]
    exact s.onHall_becomes h _
  · exact congrArg Host.Outcome.next (if_pos busy)
  · exact congrArg Host.Outcome.next (if_neg (Bool.eq_false_iff.mp idle))
  · refine ⟨_, execShootdownDone_busy busy, ?_, fun _ => rfl, rfl, ?_, fun e left => ?_, fun e left => ?_⟩
    · rw [State.hall_onHall, if_pos rfl]
    · exact s.settleList_failed s.hart.posted
    · exact mem_filter_unshot left
    · obtain ⟨before, unshot⟩ := mem_filter_unshot (here := fun (e : WalkEntry) va => e.part == walkPart va e.lvl) left
      exact ⟨before, fun ⟨own, shot⟩ => unshot ⟨own, fun page => beq_iff_eq.mpr (shot page)⟩⟩

/-- Settles O52: of a gallery window's write, what it puts (`State.gwctlPut`) and what a revoke drops; of the requests, the answers
(`State.answer_forward` and its siblings) and the shootdown's filters (`mem_filter_unshot`). -/
theorem hallControls : Obligations.HallControls := ⟨galleryWindows, hallRequests⟩

end Sys2Proof.Machine

/-! # Vector moves and widening (R128, R129) -/

namespace Sys2Proof.Machine

/-! ## What moves leave alone -/

theorem State.orVstat_none (s : State) : s.orVstat 0#5 = s := by
  have same : s.hart.vstat ||| (0#5 : Flags).setWidth 64 = s.hart.vstat := by simp
  rw [State.orVstat, same]

theorem State.setElem_keeps (s : State) (o : VOpd) (e x : Nat) : s.Keeps (s.setElem o e x) := ⟨rfl, rfl⟩

theorem State.noteElem_keeps (s : State) (o : VOpd) (e : Nat) (unk : Bool) : s.Keeps (s.noteElem o e unk) := ⟨rfl, rfl⟩

/-- With its checks passed an instruction runs its effect. -/
theorem VecOk.finish_checked {s : State} {ok : Bool} {dsts srcs : List VOpd} {cross : Bool} (h : VecOk s ok dsts srcs cross)
    (p : Option Pfx) (effect : State → Res) : finish p (s.vecCheck ok dsts srcs cross >>= effect) = finish p (effect s) := by
  rw [h.vecCheck]
  rfl

/-! ## The instructions -/

/-- R128: VMERGE writes every element, since no mask governs it. -/
theorem State.elementwise_every (s : State) (d : VOpd) (per : Nat) (unk : Nat → Bool) (x : Nat → Nat) (uncut : s.hart.cut = none)
    (known : ∀ e, unk e = false) :
    s.elementwise 0#3 false per (.vec d) unk (fun e => (x e, 0#5)) = rangeDone s fun t e => t.setElem d e (x e) := by
  rw [State.elementwise, s.range_uncut uncut]
  refine congrArg (fun f => ((upTo s.hart.vstart s.hart.vl).foldl f s).setVstart 0) (funext₂ fun t e => ?_)
  show (if unk e then t.loseDst (.vec d) e else (t.setElem d e (x e)).orVstat 0#5) = _
  rw [known, if_neg Bool.false_ne_true, State.orVstat_none]

theorem vmerge_selects (o : VOp3) (s : State) :
    let w := typeWidth (s.vtype o.pfx)
    VecOk s (anyType (s.vtype o.pfx)) [vreg o.d w] [vreg o.a w, vreg o.b w] false →
      (s.ra = none → exec (.vmerge o) s = .next ((rangeDone s fun t e => t.setElem (vreg o.d w) e
          (s.elem (if s.active (s.maskSel o.pfx o.msk) (s.perPos (vreg o.a w)) e then vreg o.b w else vreg o.a w) e)).retire
            (pfxLen o.pfx)))
      ∧ ∃ t, exec (.vmerge o) s = .next t ∧ t.hart.pc = s.hart.pc + pfxLen o.pfx ∧ t.hart.vstart = 0 ∧ SameMem s t := by
  intro w checks
  let per := s.perPos (vreg o.a w)
  let sel := s.maskSel o.pfx o.msk
  let src (e : Nat) := if s.active sel per e then vreg o.b w else vreg o.a w
  have effect : exec (.vmerge o) s = finish o.pfx (.ok (s.elementwise 0#3 false per (.vec (vreg o.d w))
      (fun e => s.activeUnknown sel per e || s.elemUnknown (src e) e) (fun e => (s.elem (src e) e, 0#5)))) :=
    checks.finish_checked o.pfx _
  refine ⟨fun ra => ?_, ?_⟩
  · have known e : (s.activeUnknown sel per e || s.elemUnknown (src e) e) = false := by
      rw [s.activeUnknown_known ra, s.elemUnknown_known ra, Bool.or_self]
    rw [effect, s.elementwise_every _ _ _ _ checks.2.2.2 known]
    rfl
  · rw [effect]
    exact finish_completes o.pfx (s.elementwise_keeps ..) rfl

theorem extended_eq (t : BitVec 4) (x : Nat) :
    extended t x = if isSigned t then BitVec.ofInt 64 (toSigned (typeWidth t) x) else BitVec.ofNat 64 x := by
  unfold extended
  split
  · rw [ofSigned_64, BitVec.ofNat_toNat, BitVec.setWidth_eq]
  · rfl

theorem vext_reads (p : Option Pfx) (d a b : BitVec 5) (x : Bool) (s : State) :
    let t := s.vtype p
    let w := typeWidth t
    let i := (s.g b).toNat
    VecOk s (anyType t) [] [vreg a w] false → ∃ u, exec (.vext p d a b x) s = .next u
      ∧ u.hart = { s.hart with g := u.hart.g, pc := s.hart.pc + pfxLen p, transfer := false, vstart := 0 } ∧ SameMem s u
      ∧ ∀ k, u.g k = if k = d ∧ k ≠ 0#5 then
          (if s.hart.vl ≤ i then 0#64
           else if isSigned t then BitVec.ofInt 64 (toSigned w (s.elem (vreg a w) i)) else BitVec.ofNat 64 (s.elem (vreg a w) i))
        else s.g k := by
  intro t w i checks
  let value := if i < s.hart.vl then extended t (s.elem (vreg a w) i) else 0#64
  let unk := s.gUnknown b || (decide (i < s.hart.vl) && s.elemUnknown (vreg a w) i)
  let u := ((s.setG d value).noteG d unk).setVstart 0
  have effect : exec (.vext p d a b x) s = .next (u.retire (pfxLen p)) :=
    checks.finish_checked p _
  have hart : u.hart = { s.hart with g := u.hart.g, vstart := 0 } :=
    congrArg (fun h : Hart => { h with g := (s.setG d value).hart.g, vstart := 0 }) (s.setG_hart_rest d value)
  have read : value = if s.hart.vl ≤ i then 0#64
      else if isSigned t then BitVec.ofInt 64 (toSigned w (s.elem (vreg a w) i)) else BitVec.ofNat 64 (s.elem (vreg a w) i) := by
    by_cases within : i < s.hart.vl
    · rw [if_neg (Nat.not_le.mpr within)]
      exact (if_pos within).trans (extended_eq t _)
    · rw [if_pos (Nat.not_lt.mp within)]
      exact if_neg within
  refine ⟨_, effect, ?_, fun k => ?_, fun k => ?_⟩
  · rw [u.retire_hart, hart]
  · rw [State.retire_mem]
    exact congrArg (Memory.read · k) (s.setG_mem d value)
  · rw [State.retire_g, ← read]
    exact s.setG_g d value k

theorem vins_writes (p : Option Pfx) (d a b : BitVec 5) (s : State) :
    let t := s.vtype p
    let o := vreg d (typeWidth t)
    let i := (s.g b).toNat
    VecOk s (anyType t) [o] [] false →
      (s.ra = none → ∃ u, u = (if i < s.hart.vl then s.setElem o i (s.g a).toNat else s)
        ∧ exec (.vins p d a b) s = .next (({ u with hart := { u.hart with vstart := 0 } } : State).retire (pfxLen p)))
      ∧ ∃ u, exec (.vins p d a b) s = .next u ∧ u.hart.pc = s.hart.pc + pfxLen p ∧ u.hart.vstart = 0 ∧ SameMem s u := by
  intro t o i checks
  let written := if i < s.hart.vl then (if s.gUnknown a then s.noteElem o i true else s.setElem o i (s.g a).toNat) else s
  have effect : exec (.vins p d a b) s = finish p (.ok (written.setVstart 0)) :=
    checks.finish_checked p _
  have keeps : s.Keeps written := by
    unfold written
    split
    · split
      · exact s.noteElem_keeps o i true
      · exact s.setElem_keeps o i _
    · exact .refl s
  refine ⟨fun ra => ⟨written, ?_, effect⟩, ?_⟩
  · simp only [written, s.gUnknown_known ra, Bool.false_eq_true, if_false]
  · rw [effect]
    exact finish_completes p (keeps.trans (written.setVstart_keeps 0)) rfl

/-- Settles O20: VMV, VBCAST, VID, VWMUL and VWADD compute each element by itself (`elementOp_elementwise`), the last two exactly
(`patternOf_eq`); VMERGE, VEXT and VINS each have an effect of their own. -/
theorem vectorMovesAndWidening : Obligations.VectorMovesAndWidening := by
  unfold Obligations.VectorMovesAndWidening
  intro wide
  have widens (mk : VOp3 → Instr) (f : Int → Int → Int) (run : ∀ o s, exec (mk o) s = wideningOp o f s) : wide mk f := fun o =>
    elementOp_elementwise _ _ (run o) (fun s ra => s.anyUnknown_known ra _) fun s _ e => congrArg (·, 0#5) (patternOf_eq ..).symm
  exact ⟨unaryOp_unary (fun _ _ _ _ x => (x, 0#5)) (fun _ _ => rfl) fun _ _ _ _ _ _ _ => rfl,
    fun p d a m => elementOp_elementwise (fun s _ => s.gUnknown a) _ (fun _ => rfl) (fun s ra _ => s.gUnknown_known ra a)
      fun _ _ _ => rfl,
    fun p d m => elementOp_elementwise (fun _ _ => false) _ (fun _ => rfl) (fun _ _ _ => rfl) fun _ _ _ => rfl,
    vmerge_selects, vext_reads, vins_writes, widens .vwmul (· * ·) fun _ _ => rfl, widens .vwadd (· + ·) fun _ _ => rfl⟩

end Sys2Proof.Machine

/-! # What errors leave (R385 to R394) -/

namespace Sys2Proof.Machine

/-! ## Bits -/

theorem setBit_getLsbD {n : Nat} (x : BitVec n) (i : Nat) : setBit x i (x.getLsbD i) = x := by
  refine BitVec.eq_of_getLsbD_eq fun j hj => ?_
  rw [getLsbD_setBit]
  by_cases same : j = i
  · subst same; simp [hj]
  · simp [hj, same]

/-- A bit after some are set, for a word of any width. -/
theorem getLsbD_foldl_setBit_true {n : Nat} (l : List Nat) (m : BitVec n) (j : Nat) (small : j < n) :
    (l.foldl (fun m i => setBit m i true) m).getLsbD j = (m.getLsbD j || decide (j ∈ l)) := by
  induction l generalizing m with
  | nil => simp
  | cons i l ih =>
    rw [List.foldl_cons, ih, getLsbD_setBit]
    by_cases here : j = i
    · simp [here, here ▸ small]
    · simp [here, small]

/-! ## One cluster -/

/-- Outside the halls nothing has changed but PKGSTAT, and of the clusters only one, which is x. -/
def ClusterTo (s t : State) (h : BitVec 4) (c : BitVec 5) (x : Cluster) : Prop :=
  SameButHalls s t ∧ ∀ k d, (t.hall k).cluster d = if k = h ∧ d = c then x else (s.hall k).cluster d

theorem SameButHalls.quiet {s t : State} (same : SameButHalls s t) : SameMem s t ∧ t.hart = s.hart ∧ t.poison = s.poison := by
  have mem := congrArg State.mem same
  have hart := congrArg State.hart same
  have poison := congrArg State.poison same
  exact ⟨fun a => congrArg (Memory.read · a) mem, hart, poison⟩

section
variable {s t u : State} {h : BitVec 4} {c : BitVec 5} {x y : Cluster}

theorem ClusterTo.refl (s : State) (h : BitVec 4) (c : BitVec 5) : ClusterTo s s h c ((s.hall h).cluster c) := by
  refine ⟨rfl, fun k d => ?_⟩
  split
  · rename_i same
    rw [same.1, same.2]
  · rfl

theorem ClusterTo.trans (a : ClusterTo s t h c x) (b : ClusterTo t u h c y) : ClusterTo s u h c y := by
  refine ⟨a.1.trans b.1, fun k d => ?_⟩
  rw [b.2, a.2]
  split <;> rfl

theorem ClusterTo.here (a : ClusterTo s t h c x) : (t.hall h).cluster c = x := by rw [a.2, if_pos ⟨rfl, rfl⟩]

theorem ClusterTo.elsewhere (a : ClusterTo s t h c x) (d : BitVec 5) (other : d ≠ c) : (t.hall h).cluster d = (s.hall h).cluster d := by
  rw [a.2, if_neg fun same => other same.2]

theorem ClusterTo.onCluster (s : State) (h : BitVec 4) (c : BitVec 5) (f : Cluster → Cluster) :
    ClusterTo s (s.onCluster h c f) h c (f ((s.hall h).cluster c)) := ⟨rfl, fun k d => s.cluster_onCluster h k c d f⟩

/-- An entry of an error log is no matter of a cluster. -/
theorem ClusterTo.logError (a : ClusterTo s t h c x) (k : BitVec 4) (e : ErrorEntry) : ClusterTo s (t.logError k e) h c x := by
  refine ⟨a.1, fun g d => ?_⟩
  rw [← a.2 g d, State.logError, State.hall_onHall]
  split
  · rename_i same
    rw [same]
    rfl
  · rfl

/-- Turns that each change one cluster change it in their order. -/
theorem ClusterTo.foldl (f : State → Nat → State) (g : Cluster → Nat → Cluster)
    (turn : ∀ t i, ClusterTo t (f t i) h c (g ((t.hall h).cluster c) i)) (l : List Nat) (s : State) :
    ClusterTo s (l.foldl f s) h c (l.foldl g ((s.hall h).cluster c)) := by
  induction l generalizing s with
  | nil => exact .refl s h c
  | cons i l ih =>
    have rest := ih (f s i)
    rw [(turn s i).here] at rest
    exact (turn s i).trans rest

end

/-! ## The error log -/

/-- A change of one cluster, as a view of its hall sees it that does not see the clusters. -/
theorem State.onCluster_view {α : Type} (view : Hall → α) (s : State) (h k : BitVec 4) (c : BitVec 5) (f : Cluster → Cluster)
    (unseen : ∀ x l, view { x with clusters := l } = view x) : view ((s.onCluster h c f).hall k) = view (s.hall k) := by
  rw [State.onCluster, State.hall_onHall]
  split
  · rename_i same
    rw [unseen, same]
  · rfl

theorem State.logError_logged (s : State) (h : BitVec 4) (e : ErrorEntry) : ErrorLogged s (s.logError h e) h e := by
  unfold ErrorLogged State.logError
  rw [State.hall_onHall, if_pos rfl, alFind_alSet, if_pos rfl]
  exact ⟨rfl, rfl⟩

/-- An entry stays until the log comes round to its place. -/
theorem State.logError_keeps (s : State) (h : BitVec 4) (e y : ErrorEntry) (k : Nat) (found : alFind k (s.hall h).elog = some y)
    (apart : k ≠ (s.hall h).enext) : alFind k ((s.logError h e).hall h).elog = some y := by
  unfold State.logError
  rw [State.hall_onHall, if_pos rfl, alFind_alSet, if_neg apart, found]

theorem next_place_ne (n : Nat) : n ≠ (n + 1) % 1024 := by omega

/-! ## Marks of lanes and quarters (R385, R387, R393) -/

theorem State.markLane_cluster (s : State) (h : BitVec 4) (c : BitVec 5) (n : Nat) (synd : Word) :
    let x := (s.hall h).cluster c
    ClusterTo s (s.markLane h c n synd) h c { x with lrmap := setBit x.lrmap n true } := by
  intro x
  unfold State.markLane
  split
  · rename_i marked
    have same : setBit x.lrmap n true = x.lrmap := marked ▸ setBit_getLsbD x.lrmap n
    rw [same]
    exact .refl s h c
  · exact (ClusterTo.onCluster s h c _).logError h _

theorem State.markQuarter_cluster (s : State) (h : BitVec 4) (c : BitVec 5) (q : Nat) :
    let x := (s.hall h).cluster c
    ClusterTo s (s.markQuarter h c q) h c { x with mapart := setBit x.mapart q true } := by
  intro x
  unfold State.markQuarter
  split
  · rename_i marked
    have same : setBit x.mapart q true = x.mapart := marked ▸ setBit_getLsbD x.mapart q
    rw [same]
    exact .refl s h c
  · exact (ClusterTo.onCluster s h c _).logError h _

/-- Marking a lane logs at the next place, if at all. -/
theorem State.markLane_keeps (s : State) (h : BitVec 4) (c : BitVec 5) (n : Nat) (synd : Word) (y : ErrorEntry) (k : Nat)
    (found : alFind k (s.hall h).elog = some y) (apart : k ≠ (s.hall h).enext) :
    alFind k ((s.markLane h c n synd).hall h).elog = some y := by
  unfold State.markLane
  split
  · exact found
  · have log (f : Cluster → Cluster) : ((s.onCluster h c f).hall h).elog = (s.hall h).elog := s.onCluster_view Hall.elog h h c f fun _ _ => rfl
    have next (f : Cluster → Cluster) : ((s.onCluster h c f).hall h).enext = (s.hall h).enext :=
      s.onCluster_view Hall.enext h h c f fun _ _ => rfl
    exact State.logError_keeps _ h _ y k (log _ ▸ found) (next _ ▸ apart)

theorem foldl_lrmap (f : Nat → Nat) (l : List Nat) (x : Cluster) :
    l.foldl (fun x i => { x with lrmap := setBit x.lrmap (f i) true }) x
      = { x with lrmap := (l.map f).foldl (fun m i => setBit m i true) x.lrmap } := by
  induction l generalizing x with
  | nil => rfl
  | cons i l ih => exact ih _

theorem foldl_mapart (l : List Nat) (x : Cluster) :
    l.foldl (fun x i => { x with mapart := setBit x.mapart i true }) x
      = { x with mapart := l.foldl (fun m i => setBit m i true) x.mapart } := by
  induction l generalizing x with
  | nil => rfl
  | cons i l ih => exact ih _

/-- The numbers of the set bits among the first n. -/
theorem mem_setBits {w : Nat} (x : BitVec w) (n j : Nat) : (j ∈ (List.range n).filter fun i => x.getLsbD i) ↔ j < n ∧ x.getLsbD j = true := by
  rw [List.mem_filter, List.mem_range]

theorem State.markLanes_marks (s : State) (h : BitVec 4) (c : BitVec 5) (high : Bool) (lanes : Word) :
    let y := (s.hall h).cluster c
    ∃ m, ClusterTo s (s.markLanes h c high lanes) h c { y with lrmap := m } ∧ ∀ i < 128, m.getLsbD i =
      (y.lrmap.getLsbD i || (if high then decide (64 ≤ i) && lanes.getLsbD (i - 64) else decide (i < 64) && lanes.getLsbD i)) := by
  intro y
  have marks := ClusterTo.foldl (fun t i => t.markLane h c (64 * bit high + i) 0#64)
    (fun x i => { x with lrmap := setBit x.lrmap (64 * bit high + i) true }) (fun t i => t.markLane_cluster h c (64 * bit high + i) 0#64)
    ((List.range 64).filter fun i => lanes.getLsbD i) s
  rw [foldl_lrmap] at marks
  refine ⟨_, marks, fun i small => ?_⟩
  have asked : (i ∈ ((List.range 64).filter fun i => lanes.getLsbD i).map (64 * bit high + ·))
      ↔ (if high then decide (64 ≤ i) && lanes.getLsbD (i - 64) else decide (i < 64) && lanes.getLsbD i) = true := by
    simp only [List.mem_map, mem_setBits]
    cases high
    · simp [bit]
    · simp only [bit, if_true, Bool.and_eq_true, decide_eq_true_eq]
      constructor
      · rintro ⟨j, ⟨-, set⟩, rfl⟩
        simpa using set
      · rintro ⟨above, set⟩
        exact ⟨i - 64, ⟨by omega, set⟩, by omega⟩
  rw [getLsbD_foldl_setBit_true _ _ _ small, Bool.decide_congr asked, Bool.decide_eq_true]

theorem State.markQuarters_marks (s : State) (h : BitVec 4) (c : BitVec 5) (quarters : BitVec 4) :
    let y := (s.hall h).cluster c
    ClusterTo s (s.markQuarters h c quarters) h c { y with mapart := y.mapart ||| quarters } := by
  intro y
  have marks := ClusterTo.foldl (fun t i => t.markQuarter h c i)
    (fun x i => { x with mapart := setBit x.mapart i true }) (fun t i => t.markQuarter_cluster h c i)
    ((List.range 4).filter fun i => quarters.getLsbD i) s
  have set : ((List.range 4).filter fun i => quarters.getLsbD i).foldl (fun m i => setBit m i true) y.mapart = y.mapart ||| quarters := by
    refine BitVec.eq_of_getLsbD_eq fun i small => ?_
    rw [getLsbD_foldl_setBit_true _ _ _ small, BitVec.getLsbD_or, Bool.decide_congr (mem_setBits quarters 4 i)]
    simp [small]
  rw [foldl_mapart, set] at marks
  exact marks

/-! ## Scrubbing (R391, R392, R394) -/

theorem fieldNat_setField {n w : Nat} (x : BitVec n) (lo : Nat) (y : BitVec w) (inside : lo + w ≤ n) :
    fieldNat (setField x lo y) lo w = y.toNat := by
  refine congrArg BitVec.toNat (BitVec.eq_of_getLsbD_eq fun i hi => ?_)
  have below : lo + i < n := by omega
  rw [BitVec.getLsbD_extractLsb', getLsbD_setField, if_pos ⟨by omega, by omega⟩, Nat.add_sub_cancel_left]
  simp [hi, below]

theorem fieldNat_setField_apart {n w v : Nat} (x : BitVec n) (lo lo' : Nat) (y : BitVec w) (apart : lo + w ≤ lo' ∨ lo' + v ≤ lo) :
    fieldNat (setField x lo y) lo' v = fieldNat x lo' v := by
  refine congrArg BitVec.toNat (BitVec.eq_of_getLsbD_eq fun i hi => ?_)
  have outside : ¬(lo ≤ lo' + i ∧ lo' + i < lo + w) := by omega
  rw [BitVec.getLsbD_extractLsb', BitVec.getLsbD_extractLsb', getLsbD_setField, if_neg outside]
  by_cases below : lo' + i < n
  · simp [below]
  · simp [BitVec.getLsbD_of_ge x (lo' + i) (by omega)]

/-- A corrected error counts in the half of its memory, and not in the other. -/
theorem eccCount_counts (x : Word) (tier2 : Bool) :
    fieldNat (eccCount x tier2) (if tier2 then 0 else 32) 32 = min (2 ^ 32 - 1) (fieldNat x (if tier2 then 0 else 32) 32 + 1)
      ∧ fieldNat (eccCount x tier2) (if tier2 then 32 else 0) 32 = fieldNat x (if tier2 then 32 else 0) 32 := by
  have small (m : Nat) : (BitVec.ofNat 32 (Nat.min (2 ^ 32 - 1) m)).toNat = min (2 ^ 32 - 1) m :=
    Nat.mod_eq_of_lt (lt_of_le_of_lt (Nat.min_le_left _ m) (by decide))
  cases tier2
  · exact ⟨(fieldNat_setField x 32 _ (by decide)).trans (small _), fieldNat_setField_apart x 32 0 _ (.inr (by decide))⟩
  · exact ⟨(fieldNat_setField x 0 _ (by decide)).trans (small _), fieldNat_setField_apart x 0 32 _ (.inl (by decide))⟩

/-- Both halves of a line of memory lie in it. -/
theorem memoryPa_line (chip : BitVec 12) (h : BitVec 4) (tier2 : Bool) (line : Nat) (upper : Bool) :
    (memoryPa chip h tier2 line + if upper then 32 else 0) / 64 = memoryPa chip h tier2 line / 64 := by
  simp only [memoryPa, mkPa, Nat.shiftLeft_eq]
  split <;> omega

theorem State.correctedError_ecc (s : State) (h : BitVec 4) (tier2 : Bool) (pa : Nat) (scrub : Bool) :
    ((s.correctedError h tier2 pa scrub).hall h).ecc = eccCount (s.hall h).ecc tier2 := by
  unfold State.correctedError
  dsimp only
  split
  · rw [State.hall_onHall, if_pos rfl]
  · simp only [State.logError, State.hall_onHall, if_true]

theorem State.correctedError_rest (s : State) (h : BitVec 4) (tier2 : Bool) (pa : Nat) (scrub : Bool) :
    SameButHalls s (s.correctedError h tier2 pa scrub) := by
  unfold State.correctedError
  dsimp only
  split <;> rfl

/-- What a hall holds of its scrubbers besides HBM4E's and tier-2's positions and passes stays, as do its counts of errors. -/
theorem State.scrubbed_hall (s : State) (h : BitVec 4) (tier2 : Bool) (line : Nat) :
    let x := s.hall h
    let y := (s.scrubbed h tier2 line).hall h
    let next := if memoryLines tier2 ≤ line + 1 then 0 else line + 1
    y.ecc = x.ecc
      ∧ (tier2 = true → y.scrub2Pos = next ∧ y.scrubPos = x.scrubPos)
      ∧ (tier2 = false → y.scrubPos = BitVec.ofNat 36 next ∧ y.scrubPasses = if next = 0 then x.scrubPasses + 1 else x.scrubPasses) := by
  have becomes (f : Hall → Hall) (n : Nat) : ({ s.onHall h f with fresh := n } : State).hall h = f (s.hall h) := (s.onHall_becomes h f).1
  unfold State.scrubbed
  simp only [becomes]
  cases tier2
  · exact ⟨rfl, (nomatch ·), fun _ => ⟨rfl, rfl⟩⟩
  · exact ⟨rfl, fun _ => ⟨rfl, rfl⟩, (nomatch ·)⟩

/-- A line of memory that is scrubbed without an error, or with one that is corrected (R391, R392). -/
theorem execScrubLine_active {s : State} {h : BitVec 4} (enabled : (s.hall h).scrubcfg.getLsbD 0 = true)
    (running : (s.hall h).scrubPaused = false) {tier2 : Bool} {line : Nat} (inside : line < memoryLines tier2) (corrected : Bool) :
    exec (.scrubLine h tier2 line corrected false) s = .next
      ((if corrected && !s.dirty.contains (memoryPa s.chip h tier2 line / 64) then
          s.correctedError h tier2 (memoryPa s.chip h tier2 line / 64 * 64) true else s).scrubbed h tier2 line) := by
  show execScrubLine h tier2 line corrected false s = _
  unfold execScrubLine
  simp only [enabled, running, memoryPa_line, Nat.not_le.mpr inside, decide_false, Bool.not_true, Bool.or_self, Bool.false_and,
    Bool.false_eq_true, if_false]
  rfl

theorem execScrubLine_idle {s : State} {h : BitVec 4} {tier2 : Bool} {line : Nat}
    (idle : (s.hall h).scrubcfg.getLsbD 0 = false ∨ (s.hall h).scrubPaused = true ∨ memoryLines tier2 ≤ line) (b e : Bool) :
    exec (.scrubLine h tier2 line b e) s = .next s := by
  refine congrArg Host.Outcome.next (if_pos ?_)
  rcases idle with off | paused | outside
  · rw [off]
    rfl
  · simp [paused]
  · simp [outside]

theorem State.scrubbed_quiet (s : State) (h : BitVec 4) (tier2 : Bool) (line : Nat) :
    SameMem s (s.scrubbed h tier2 line) ∧ (s.scrubbed h tier2 line).hart = s.hart ∧ (s.scrubbed h tier2 line).poison = s.poison :=
  ⟨fun _ => rfl, rfl, rfl⟩

theorem scrubLine_corrected {s : State} {h : BitVec 4} (enabled : (s.hall h).scrubcfg.getLsbD 0 = true)
    (running : (s.hall h).scrubPaused = false) {tier2 : Bool} {line : Nat} (inside : line < memoryLines tier2) :
    ∃ t, exec (.scrubLine h tier2 line true false) s = .next t ∧ (SameMem s t ∧ t.hart = s.hart ∧ t.poison = s.poison)
      ∧ (s.dirty.contains (memoryPa s.chip h tier2 line / 64) = false →
          fieldNat (t.hall h).ecc (if tier2 then 0 else 32) 32 = min (2 ^ 32 - 1) (fieldNat (s.hall h).ecc (if tier2 then 0 else 32) 32 + 1)
          ∧ fieldNat (t.hall h).ecc (if tier2 then 32 else 0) 32 = fieldNat (s.hall h).ecc (if tier2 then 32 else 0) 32) := by
  refine ⟨_, execScrubLine_active enabled running inside true, ?_, fun newest => ?_⟩
  · split
    · exact (s.correctedError_rest h tier2 _ true).quiet
    · exact s.scrubbed_quiet h tier2 line
  · obtain ⟨ecc, -⟩ := State.scrubbed_hall (s.correctedError h tier2 (memoryPa s.chip h tier2 line / 64 * 64) true) h tier2 line
    rw [if_pos (by rw [newest]; rfl), ecc, State.correctedError_ecc]
    exact eccCount_counts _ tier2

/-! ## Memory errors (R389) -/

theorem mem_natInsert (a b : Nat) (l : List Nat) : b ∈ natInsert a l ↔ b = a ∨ b ∈ l := by
  induction l with
  | nil => simp [natInsert]
  | cons x r ih =>
    unfold natInsert
    split
    · exact List.mem_cons
    · split
      · rename_i same
        simp [same]
      · simp only [List.mem_cons, ih, or_left_comm]

theorem mem_foldl_natInsert (b : Nat) (new l : List Nat) : b ∈ new.foldl (fun l g => natInsert g l) l ↔ b ∈ new ∨ b ∈ l := by
  induction new generalizing l with
  | nil => simp
  | cons g new ih => rw [List.foldl_cons, ih, mem_natInsert, List.mem_cons, or_left_comm, or_assoc]

theorem mem_upTo (lo hi n : Nat) : n ∈ upTo lo hi ↔ lo ≤ n ∧ n < hi := by
  simp only [upTo, List.mem_map, List.mem_range]
  exact ⟨fun ⟨i, below, e⟩ => by omega, fun inside => ⟨n - lo, by omega, by omega⟩⟩

/-- A byte is poisoned where its granule is, or its line of a well. -/
theorem State.poisoned_byte (s : State) (b : Nat) :
    s.poisoned b 1 = (decide (b / 8 ∈ s.poison) || s.wells.any fun p => p.2.pois && b / 64 ≤ p.1 && decide (p.1 ≤ b / 64)) := by
  have granule : (s.poison.any fun g => b / 8 ≤ g && g ≤ b / 8) = decide (b / 8 ∈ s.poison) := by
    rw [Bool.eq_iff_iff, List.any_eq_true, decide_eq_true_eq]
    constructor
    · rintro ⟨g, mem, same⟩
      have same : b / 8 = g := by simpa [← Nat.le_antisymm_iff] using same
      exact same ▸ mem
    · exact fun mem => ⟨b / 8, mem, by simp⟩
  rw [← granule]
  rfl

/-- Poisoning n bytes poisons the bytes of their granules, and no other. -/
theorem State.addPoison_poisoned (s : State) (a n b : Nat) :
    (s.addPoison a n).poisoned b 1 = (s.poisoned b 1 || decide (a / 8 ≤ b / 8 ∧ b / 8 ≤ (a + n - 1) / 8)) := by
  have member : decide (b / 8 ∈ (s.addPoison a n).poison)
      = (decide (a / 8 ≤ b / 8 ∧ b / 8 ≤ (a + n - 1) / 8) || decide (b / 8 ∈ s.poison)) := by
    rw [← Bool.decide_or, State.addPoison]
    refine decide_eq_decide.mpr ?_
    rw [mem_foldl_natInsert, mem_upTo, Nat.lt_succ_iff]
  rw [State.poisoned_byte, State.poisoned_byte, member, Bool.or_comm (decide _) (decide (b / 8 ∈ s.poison)), Bool.or_assoc, Bool.or_assoc,
    Bool.or_comm (decide _) (List.any _ _)]
  rfl

/-- An error in the memory of a line outside wells strikes the 32 bytes around it where no L2 holds the line newer. -/
theorem State.spoil_memory (s : State) (a : Nat) {src : Nat} (memory : src ∈ [0, 1]) (outside : s.inWells a = false) :
    (∃ l, s.spoil a (BitVec.ofNat 8 src) = { s with poison := l })
      ∧ ∀ b, (s.spoil a (BitVec.ofNat 8 src)).poisoned b 1 = (s.poisoned b 1 || (decide (b / 32 = a / 32) && !s.dirty.contains (a / 64))) := by
  have struck : s.spoil a (BitVec.ofNat 8 src) = if s.dirty.contains (a / 64) then s else s.addPoison (a / 32 * 32) 32 := by
    rcases List.mem_pair.mp memory with rfl | rfl <;> simp [State.spoil, State.strikes, outside]
  rw [struck]
  split
  · rename_i newer
    exact ⟨⟨_, rfl⟩, fun b => by rw [newer, Bool.not_true, Bool.and_false, Bool.or_false]⟩
  · rename_i newest
    refine ⟨⟨_, rfl⟩, fun b => ?_⟩
    have group : (a / 32 * 32 / 8 ≤ b / 8 ∧ b / 8 ≤ (a / 32 * 32 + 32 - 1) / 8) ↔ b / 32 = a / 32 := by omega
    rw [State.addPoison_poisoned, decide_eq_decide.mpr group, Bool.eq_false_iff.mpr newest, Bool.not_false, Bool.and_true]

/-- An error in a scratchpad strikes a granule. -/
theorem State.spoil_scratchpad (s : State) (a : Nat) (target : paTarget a = 4) :
    (∃ l, s.spoil a 3#8 = { s with poison := l }) ∧ ∀ b, (s.spoil a 3#8).poisoned b 1 = (s.poisoned b 1 || decide (b / 8 = a / 8)) := by
  have struck : s.spoil a 3#8 = s.addPoison (a / 8 * 8) 8 := by simp [State.spoil, State.strikes, target]
  rw [struck]
  refine ⟨⟨_, rfl⟩, fun b => ?_⟩
  have granule : (a / 8 * 8 / 8 ≤ b / 8 ∧ b / 8 ≤ (a / 8 * 8 + 8 - 1) / 8) ↔ b / 8 = a / 8 := by omega
  rw [State.addPoison_poisoned, decide_eq_decide.mpr granule]

/-- R389: the home of an error that strikes granules poisons them, and logs it. -/
theorem memoryUncorrectable_here {s : State} {pa : Word} (here : paTarget pa.toNat < 5 ∧ paChip pa.toNat = s.chip) (src : BitVec 8)
    (synd : Word) {poison : List Nat} (struck : s.spoil pa.toNat src = { s with poison := poison }) :
    ∃ t, exec (.memoryUncorrectableError pa src synd) s = .next t ∧ (∀ b, t.poisoned b 1 = (s.spoil pa.toNat src).poisoned b 1)
      ∧ SameMem s t ∧ t.hart = s.hart ∧ ErrorLogged s t (homeHall pa.toNat)
        { s.errorEntry src.toNat (s.errorAddr pa.toNat src.toNat) true synd with
          cluster := if paTarget pa.toNat = 4 then spCluster pa.toNat else 0#5 } := by
  refine ⟨_, congrArg Host.Outcome.next (if_pos (by simp [here])), fun _ => rfl, ?_⟩
  rw [struck]
  exact ⟨fun _ => rfl, rfl, State.logError_logged { s with poison := poison } _ _⟩

/-! ## What the end of a unit leaves of the error log -/

/-- Whose errors a state logs, when, and what its logs hold. -/
def State.errorView (s : State) : Word × Word × Vector (List (Nat × ErrorEntry) × Nat) 16 :=
  (s.hid, s.podt, s.halls.map fun x => (x.elog, x.enext))

theorem foldl_errorView {α : Type} (f : State → α → State) (hf : ∀ s a, (f s a).errorView = s.errorView) (l : List α) (s : State) :
    (l.foldl f s).errorView = s.errorView := by
  induction l generalizing s with
  | nil => rfl
  | cons a r ih => exact (ih (f s a)).trans (hf s a)

theorem State.onHall_errorView (s : State) (h : BitVec 4) (f : Hall → Hall) (unlogged : ∀ x, ((f x).elog, (f x).enext) = (x.elog, x.enext)) :
    (s.onHall h f).errorView = s.errorView := by
  have halls : (s.onHall h f).halls.map (fun x => (x.elog, x.enext)) = s.halls.map fun x => (x.elog, x.enext) := by
    apply Vector.ext
    intro i hi
    by_cases e : h.toNat = i
    · subst e
      simp only [State.onHall, put, Vector.getElem_map, Vector.getElem_set_self, unlogged]
      rfl
    · simp [State.onHall, put, e]
  rw [State.errorView, halls]
  rfl

theorem State.logViolation_errorView (s : State) (h : BitVec 4) (v : Violation) : (s.logViolation h v).errorView = s.errorView :=
  s.onHall_errorView h _ fun _ => rfl

theorem State.touchLine_errorView (s : State) (pa n : Nat) : (s.touchLine pa n).errorView = s.errorView := by
  have evicted (t : State) (line : Nat) : (t.evictLine line).errorView = t.errorView := by
    unfold State.evictLine
    split <;> rfl
  unfold State.touchLine
  split
  · refine foldl_errorView _ (fun t line => ?_) _ s
    unfold State.touchOne
    dsimp only
    split
    · rfl
    · exact evicted { t with dirty := natInsert line t.dirty } _
  · rfl

theorem State.fireLandings_errorView (s : State) (pa n : Nat) : (s.fireLandings pa n).errorView = s.errorView := by
  unfold State.fireLandings
  split
  · refine foldl_errorView _ (fun t l => ?_) _ s
    split
    · unfold State.evalLanding
      split
      · exact t.onHall_errorView _ _ fun _ => rfl
      · rfl
    · rfl
  · rfl

theorem State.writeHome_errorView (s : State) (who : Option (BitVec 10)) (h : BitVec 4) (pa : Nat) (bs : List Byte) :
    (leftByWrite (s.writeHome who h pa bs)).errorView = s.errorView := by
  unfold State.writeHome
  split
  · rename_i c _
    cases c
    · rfl
    · exact s.logViolation_errorView h _
  · split
    · unfold State.logSealed
      split
      · exact s.logViolation_errorView _ _
      · rfl
    · show (((s.putBytes pa bs).touchLine pa bs.length).afterWrite pa bs.length).errorView = s.errorView
      exact (State.fireLandings_errorView ..).trans ((s.putBytes pa bs).touchLine_errorView pa bs.length)

theorem State.dispatchWrite_errorView (s : State) (v : BitVec 10) (h : BitVec 4) (va w : Word) :
    (s.dispatchWrite v h va w).errorView = s.errorView := by
  have written (pa : Nat) (bs : List Byte) := s.writeHome_errorView (some v) h pa bs
  unfold State.dispatchWrite
  split
  · rfl
  · split
    · rename_i x _
      have left := written x.pa (leBytes 8 w.toNat)
      split
      · split
        · rename_i t done
          rw [done] at left
          exact left
        · rename_i t done
          rw [done] at left
          exact left
      · rfl
    · rfl

theorem State.countEnd_errorView (s : State) (k : UnitKey) (err : Bool) : (s.countEnd k err).errorView = s.errorView := by
  unfold State.countEnd State.writeLaunchWord
  dsimp only
  split
  · rfl
  · exact State.dispatchWrite_errorView ..

theorem State.mapHalls_errorView (s : State) (f : Hall → Hall) (unlogged : ∀ x, ((f x).elog, (f x).enext) = (x.elog, x.enext)) :
    ({ s with halls := s.halls.map f } : State).errorView = s.errorView := by
  have halls : (s.halls.map f).map (fun x => (x.elog, x.enext)) = s.halls.map fun x => (x.elog, x.enext) := by
    rw [Vector.map_map]
    exact congrArg (s.halls.map ·) (funext unlogged)
  exact congrArg (fun v => (s.hid, s.podt, v)) halls

theorem State.dropClaims_errorView (s : State) (h : BitVec 4) (c : BitVec 5) (n : BitVec 3) :
    (s.dropClaims h c n).errorView = s.errorView := by
  unfold State.dropClaims
  exact (State.onHall_errorView _ h _ (by intro; rfl)).trans (s.mapHalls_errorView _ (by intro; rfl))

/-- A unit that ends leaves no error. -/
theorem State.endUnit_errorView (s : State) (u : UnitRec) (killed err : Bool) : (s.endUnit u killed err).errorView = s.errorView := by
  have barriers (f : Barrier → Barrier) : (s.onBarriers f).errorView = s.errorView := s.mapHalls_errorView _ fun _ => rfl
  have grouped (t : State) : (t.endGroup u).errorView = t.errorView := by
    unfold State.endGroup
    split
    · rfl
    · exact t.onHall_errorView _ _ fun _ => rfl
  unfold State.endUnit
  dsimp only
  rw [State.countEnd_errorView, grouped]
  have unclaimed : (if u.onHart then (s.onBarriers fun b => b.remove u.key killed).dropClaims u.hall u.cluster u.hart
      else s.onBarriers fun b => b.remove u.key killed).errorView = s.errorView := by
    split
    · exact (State.dropClaims_errorView ..).trans (barriers _)
    · exact barriers _
  generalize (if u.onHart then (s.onBarriers fun b => b.remove u.key killed).dropClaims u.hall u.cluster u.hart
    else s.onBarriers fun b => b.remove u.key killed) = t at unclaimed ⊢
  split
  · exact unclaimed
  · exact unclaimed

theorem State.killUnit_errorView (s : State) (k : UnitKey) : (s.killUnit k).errorView = s.errorView := by
  unfold State.killUnit
  split
  · rfl
  · exact s.endUnit_errorView _ true true

theorem State.rollback_errorView (s : State) : s.rollback.errorView = s.errorView := by
  unfold State.rollback
  split <;> rfl

/-- What is logged where the log is as before has gone in at the place that was next. -/
theorem errorLogged_of_view {s t u : State} {h : BitVec 4} {e : ErrorEntry} (same : t.errorView = s.errorView)
    (logged : ErrorLogged t u h e) : ErrorLogged s u h e := by
  have logs := congrArg (fun v => pick (w := 4) v.2.2 h) same
  simp only [State.errorView, pick, Vector.getElem_map, Prod.mk.injEq] at logs
  obtain ⟨-, next⟩ := logs
  have place : (t.hall h).enext = (s.hall h).enext := next
  unfold ErrorLogged at logged ⊢
  rwa [place] at logged

/-! ## Registers and latches (R388) -/

theorem registerUncorrectable (s : State) :
    ∃ t, exec (.registerUncorrectableError none) s = .next t ∧ (∀ k, s.hart.unit = some k → ∀ u ∈ t.units, u.key ≠ k)
      ∧ ErrorLogged s t s.myHall { s.errorEntry 4 0 true 0#64 with cluster := s.myCluster, hart := s.myHart } := by
  let u := match s.hart.unit with | some k => s.rollback.killUnit k | none => s
  have view : u.errorView = s.errorView := by
    unfold u
    split
    · exact (State.killUnit_errorView ..).trans s.rollback_errorView
    · rfl
  have hid : u.hid = s.hid := congrArg Prod.fst view
  have time : u.podt = s.podt := congrArg (fun v => v.2.1) view
  refine ⟨u.logRegister, rfl, fun k held w kept => ?_, errorLogged_of_view view ?_⟩
  · have killed : u = s.rollback.killUnit k := by
      unfold u
      rw [held]
    have kept : w ∈ (s.rollback.killUnit k).units := killed ▸ kept
    rw [State.killUnit_units] at kept
    simpa using (List.mem_filter.mp kept).2
  · simp only [State.errorEntry, State.myHall, State.myCluster, State.myHart, ← hid, ← time]
    exact u.logError_logged u.myHall { u.errorEntry 4 0 true 0#64 with cluster := u.myCluster, hart := u.myHart }

theorem latchUncorrectable (s : State) (n : BitVec 1) (real : s.ra = none) (d : OlgathDesc) (loaded : pick (w := 1) s.hart.ldesc n = some d) :
    ∃ t, exec (.registerUncorrectableError (some n)) s = .next t
      ∧ pick (w := 1) t.hart.ldesc n = some { d with todo := BitVec.allOnes 64, resumeAt := none }
      ∧ ErrorLogged s t s.myHall { s.errorEntry 4 0 true 0#64 with cluster := s.myCluster, hart := s.myHart }
      ∧ { t with hart := { t.hart with ldesc := s.hart.ldesc }, halls := s.halls } = s := by
  have rolled : s.rollback = s := by rw [State.rollback, real]
  let again (d : OlgathDesc) : OlgathDesc := { d with todo := BitVec.allOnes 64, resumeAt := none }
  let u := s.onHart fun h => { h with ldesc := put (w := 1) h.ldesc n ((pick (w := 1) h.ldesc n).map again) }
  have effect : exec (.registerUncorrectableError (some n)) s = .next u.logRegister := by
    show happened ((s.rollback.onHart fun h => { h with ldesc := put (w := 1) h.ldesc n ((pick (w := 1) h.ldesc n).map again) }).logRegister) = _
    rw [rolled]
    rfl
  refine ⟨_, effect, ?_, State.logError_logged u u.myHall _, rfl⟩
  show pick (w := 1) (put (w := 1) s.hart.ldesc n ((pick (w := 1) s.hart.ldesc n).map again)) n = _
  rw [pick_put, if_pos rfl, loaded]
  rfl

/-! ## The events -/

theorem marksScrubbingAndErrors : ReliabilityEvents := by
  intro s h c high tier2 lanes quarters line pa synd n x y a here quiet lines next errorAt registerError
  refine ⟨?_, ?_, fun b e idle => execScrubLine_idle idle b e, fun enabled running inside => ⟨?_, scrubLine_corrected enabled running inside⟩,
    ⟨_, rfl, s.onHall_becomes h _⟩, fun atHome outside memory src listed => ?_, fun atHome target => ?_, fun remote => ?_,
    registerUncorrectable s, fun real d loaded => latchUncorrectable s n real d loaded⟩
  · obtain ⟨m, marked, bits⟩ := s.markLanes_marks h c high lanes
    refine ⟨_, rfl, marked.1.quiet, fun i small => ?_, ?_, marked.elsewhere⟩
    · rw [marked.here]
      exact bits i small
    · rw [marked.here]
  · have marked := s.markQuarters_marks h c quarters
    refine ⟨_, rfl, marked.1.quiet, ?_, ?_, marked.elsewhere⟩
    · rw [marked.here]
    · rw [marked.here]
  · obtain ⟨ecc, second, first⟩ := s.scrubbed_hall h tier2 line
    exact ⟨_, execScrubLine_active enabled running inside false, s.scrubbed_quiet h tier2 line, ecc, second, first⟩
  · obtain ⟨⟨l, struck⟩, poisons⟩ := s.spoil_memory a listed outside
    obtain ⟨t, run, poisoned, mem, hart, logged⟩ := memoryUncorrectable_here atHome _ synd struck
    have own : paTarget a ≠ 4 := Nat.ne_of_lt memory
    refine ⟨t, run, fun b => (poisoned b).trans (poisons b), mem, hart, ?_⟩
    rcases List.mem_pair.mp listed with rfl | rfl <;> simpa [State.errorEntry, State.errorAddr, errorAt, a, outside, own] using logged
  · obtain ⟨⟨l, struck⟩, poisons⟩ := s.spoil_scratchpad a target
    obtain ⟨t, run, poisoned, mem, hart, logged⟩ := memoryUncorrectable_here atHome _ synd struck
    refine ⟨t, run, fun b => (poisoned b).trans (poisons b), mem, hart, ?_⟩
    simpa [State.errorEntry, State.errorAddr, errorAt, a, target] using logged
  · exact congrArg Host.Outcome.next (if_neg (by simpa [here] using remote))

end Sys2Proof.Machine

/-! # Silent errors (R122, R145, R179, R385, R387, R388) -/

namespace Sys2Proof.Machine

/-! ## What the end of a step leaves of the halls -/

/-- A change of one cluster, as a view of the clusters sees it that does not see it change. -/
theorem State.onCluster_clusterView {α : Type} (view : Cluster → α) (s : State) (h k : BitVec 4) (c d : BitVec 5) (f : Cluster → Cluster)
    (unseen : ∀ x, view (f x) = view x) : view (((s.onCluster h c f).hall k).cluster d) = view ((s.hall k).cluster d) := by
  rw [s.cluster_onCluster]
  split
  · rename_i same
    rw [unseen, same.1, same.2]
  · rfl

/-- Time counts cycles of one cluster, and changes no hall otherwise. -/
theorem State.tick_halls (s : State) : ∃ u : State, u.halls = s.halls
    ∧ (s.tick = u ∨ ∃ h c n, s.tick = u.onCluster h c fun x => { x with cyc := x.cyc + n }) := by
  obtain ⟨units, synced⟩ := s.syncUnit_eq
  unfold State.tick
  rw [synced]
  dsimp only
  split
  · refine ⟨_, ?_, .inl rfl⟩
    rfl
  · refine ⟨_, ?_, .inr ⟨_, _, _, rfl⟩⟩
    rfl

theorem State.tick_elog (s : State) (k : BitVec 4) : (s.tick.hall k).elog = (s.hall k).elog := by
  obtain ⟨u, halls, ticked⟩ := s.tick_halls
  have same : u.hall k = s.hall k := congrArg (fun x => pick (w := 4) x k) halls
  obtain e | ⟨h, c, n, e⟩ := ticked
  · rw [e, same]
  · rw [e, u.onCluster_view Hall.elog _ _ _ _ fun _ _ => rfl, same]

/-- What a view of a cluster shows after time has passed, where it does not show cycles. -/
theorem State.tick_cluster {α : Type} (view : Cluster → α) (unseen : ∀ x n, view { x with cyc := n } = view x) (s : State) (k : BitVec 4)
    (d : BitVec 5) : view ((s.tick.hall k).cluster d) = view ((s.hall k).cluster d) := by
  obtain ⟨u, halls, ticked⟩ := s.tick_halls
  have same : u.hall k = s.hall k := congrArg (fun x => pick (w := 4) x k) halls
  obtain e | ⟨h, c, n, e⟩ := ticked
  · rw [e, same]
  · rw [e, u.onCluster_clusterView view _ _ _ _ _ fun x => unseen x _, same]

theorem State.countRows_cluster {α : Type} (view : Cluster → α) (unseen : ∀ x n, view { x with vrows := n } = view x) (s t : State)
    (w : IWord) (k : BitVec 4) (d : BitVec 5) : view (((s.countRows t w).hall k).cluster d) = view ((t.hall k).cluster d) := by
  unfold State.countRows
  split
  · exact State.onCluster_clusterView view _ _ _ _ _ _ fun x => unseen x _
  · rfl

/-! ## Errors that leave every result right -/

theorem step_of_happening (s : State) (e : Happening) (next : s.schedule.head? = some e) : step s = andTick ((started s).happen e) := by
  unfold step started
  split
  · rename_i nothing
    rw [nothing] at next
    cases next
  · rename_i e' r more
    rw [more] at next ⊢
    obtain rfl : e' = e := Option.some.inj next
    rfl

/-- A lane that is charged (R385, R394): logged, counted, and marked where it was charged less than an hour ago. -/
theorem State.chargeLane_charges (s : State) (h : BitVec 4) (c : BitVec 5) (hart : BitVec 3) (lane : BitVec 7) (synd : Word) :
    let x := (s.hall h).cluster c
    let again := (alFind lane.toNat x.charged).any fun since => decide (s.podt.toNat < since.toNat + 36 * 10 ^ 11)
    ClusterTo s (s.chargeLane h c hart lane synd) h c
        { x with
          charges := if x.charges = BitVec.allOnes 16 then x.charges else x.charges + 1#16
          charged := alSet lane.toNat s.podt x.charged
          lrmap := if again then setBit x.lrmap lane.toNat true else x.lrmap }
      ∧ alFind (s.hall h).enext ((s.chargeLane h c hart lane synd).hall h).elog
        = some { s.errorEntry 5 0 false synd with cluster := c, hart := hart, lane := lane } := by
  intro x again
  let f (x : Cluster) : Cluster :=
    { x with
      charges := if x.charges = BitVec.allOnes 16 then x.charges else x.charges + 1#16
      charged := alSet lane.toNat s.podt x.charged }
  let e : ErrorEntry := { s.errorEntry 5 0 false synd with cluster := c, hart := hart, lane := lane }
  let t := (s.onCluster h c f).logError h e
  have charged : ClusterTo s t h c (f x) := (ClusterTo.onCluster s h c f).logError h e
  have result : s.chargeLane h c hart lane synd = if again then t.markLane h c lane.toNat synd else t := rfl
  have place : ((s.onCluster h c f).hall h).enext = (s.hall h).enext := s.onCluster_view Hall.enext h h c f fun _ _ => rfl
  obtain ⟨logged, next⟩ := (s.onCluster h c f).logError_logged h e
  rw [place] at logged next
  rw [result]
  cases again with
  | false => exact ⟨charged, logged⟩
  | true =>
    have marked := t.markLane_cluster h c lane.toNat synd
    rw [charged.here] at marked
    exact ⟨charged.trans marked, t.markLane_keeps h c _ synd _ _ logged (next ▸ next_place_ne _)⟩

theorem lane_charged {s : State} {h : BitVec 4} {c : BitVec 5} {hart : BitVec 3} {lane : BitVec 7} {synd : Word}
    (next : s.schedule.head? = some (.charge h c hart lane synd)) :
    let s' := started s
    let x := (s'.hall h).cluster c
    ∃ t, step s = .next t
      ∧ (∃ k y, alFind k (t.hall h).elog = some y ∧ y.src = 5#8 ∧ y.cluster = c ∧ y.hart = hart ∧ y.lane = lane ∧ y.time = s'.podt
        ∧ y.valid = true)
      ∧ ((t.hall h).cluster c).charges = (if x.charges = BitVec.allOnes 16 then x.charges else x.charges + 1#16)
      ∧ (∀ k, ((t.hall h).cluster c).lrmap.getLsbD k = (x.lrmap.getLsbD k || (decide (k = lane.toNat)
          && (alFind lane.toNat x.charged).any fun since => decide (s'.podt.toNat < since.toNat + 36 * 10 ^ 11))))
      ∧ t.hart.v = s'.hart.v ∧ SameMem s' t := by
  intro s' x
  obtain ⟨charged, logged⟩ := s'.chargeLane_charges h c hart lane synd
  obtain ⟨mem, same, -⟩ := charged.1.quiet
  have found := (congrArg (alFind _) ((s'.chargeLane h c hart lane synd).tick_elog h)).trans logged
  refine ⟨_, step_of_happening s _ next, ⟨_, _, found, rfl, rfl, rfl, rfl, rfl, rfl⟩, ?_, fun k => ?_, ?_, fun a => ?_⟩
  · rw [State.tick_cluster Cluster.charges fun _ _ => rfl, charged.here]
  · rw [State.tick_cluster Cluster.lrmap fun _ _ => rfl, charged.here]
    dsimp only
    split
    · rename_i again
      have inside : lane.toNat < 128 := lane.isLt
      rw [getLsbD_setBit, again, Bool.and_true]
      by_cases here : k = lane.toNat
      · simp [here, inside]
      · by_cases small : k < 128
        · simp [here, small, x, s']
        · simp [here, small, BitVec.getLsbD_of_ge x.lrmap k (by omega)]
    · rename_i once
      rw [Bool.eq_false_iff.mpr once, Bool.and_false, Bool.or_false]
  · rw [State.tick_hart]
    exact (congrArg Hart.v same :)
  · rw [State.tick_mem]
    exact mem a

theorem checksum_logged {s : State} {h : BitVec 4} {c : BitVec 5} {hart : BitVec 3} {q : BitVec 2}
    (next : s.schedule.head? = some (.checksum h c hart q)) :
    let s' := started s
    ∃ t, step s = .next t
      ∧ (∃ k y, alFind k (t.hall h).elog = some y ∧ y.src = 7#8 ∧ y.cluster = c ∧ y.hart = hart ∧ y.lane = q.setWidth 7 ∧ y.time = s'.podt
        ∧ y.valid = true)
      ∧ t.hart.z = s'.hart.z ∧ SameMem s' t := by
  intro s'
  obtain ⟨logged, -⟩ := s'.logError_logged h { s'.errorEntry 7 0 false 0#64 with cluster := c, hart := hart, lane := q.setWidth 7 }
  have found := (congrArg (alFind _) ((s'.logChecksum h c hart q).tick_elog h)).trans logged
  refine ⟨_, step_of_happening s _ next, ⟨_, _, found, rfl, rfl, rfl, rfl, rfl, rfl⟩, ?_, fun a => ?_⟩
  · rw [State.tick_hart]
    rfl
  · rw [State.tick_mem]
    rfl

theorem register_corrected {s : State} {h : BitVec 4} {c : BitVec 5} (next : s.schedule.head? = some (.corrected h c)) :
    let s' := started s
    let x := (s'.hall h).cluster c
    ∃ t, step s = .next t ∧ SameMem s' t ∧ t.hart.pc = s'.hart.pc
      ∧ ((t.hall h).cluster c).rfce = (if x.rfce = BitVec.allOnes 32 then x.rfce else x.rfce + 1#32) := by
  intro s' x
  refine ⟨_, step_of_happening s _ next, fun a => ?_, ?_, ?_⟩
  · rw [State.tick_mem]
    rfl
  · rw [State.tick_hart]
    rfl
  · rw [State.tick_cluster Cluster.rfce fun _ _ => rfl]
    exact congrArg Cluster.rfce (ClusterTo.onCluster s' h c _).here

/-! ## Errors that end an instruction -/

/-- A silent error that a handler of the S set takes: where the instruction stood, with the row. -/
theorem silentError_taken (v a : State) (w : IWord) (r : Nat) (pfx : Bool) (mode : a.hart.mode = .a) (handler : vectorOf a.hart.sset ≠ 0#64)
    (free : a.hart.sset.estat.getLsbD 2 = false) :
    a.takeTrap (silentError r pfx) = a.enterS (silentError r pfx)
      ∧ (v.countRows (a.takeTrap (silentError r pfx)) w).tick.hart = { (a.enterS (silentError r pfx)).hart with cut := none }
      ∧ (v.countRows (a.takeTrap (silentError r pfx)) w).tick.mem = a.mem
      ∧ (a.enterS (silentError r pfx)).hart.pc = vectorOf a.hart.sset
      ∧ EnteredSet a.hart.sset (a.enterS (silentError r pfx)).hart.sset .a a.hart.pc 15 0 (BitVec.ofNat 64 r) pfx false := by
  have forS : a.toP 15 = false := by rw [State.toP, mode]
  have entered : a.takeTrap (silentError r pfx) = a.enterS (silentError r pfx) := State.takeTrap_entersS forS handler free
  rw [entered]
  refine ⟨rfl, ?_, ?_, TrapSet.handler_eq _, mode ▸ TrapSet.enter_entered ..⟩
  · rw [State.tick_hart, State.countRows_hart]
  · rw [State.tick_mem, State.countRows_mem]
    rfl

/-- R122: three runs disagree at a row of an element-wise instruction, which ends there. -/
theorem State.perform_lanes_rows {s t : State} {i : Instr} {w : IWord} {pfx : Bool} {r ew last n : Nat} (fq : s.hart.fq = .none)
    (course : s.course i = .rows ew last true) (stands : max (s.rowStart ew r) s.hart.vstart = n) (below : n < last)
    (row : n < s.rowStart ew (r + 1)) (ended : exec i { s with hart := { s.hart with cut := some n } } = .next t)
    (retired : s.retiredIn { t with hart := { t.hart with cut := none } } (if pfx then 8#64 else 4#64) = true) :
    s.perform i w pfx (some (.lanes r))
      = .next (s.countRows ((s.standAt { t with hart := { t.hart with cut := none } } n).takeTrap (silentError r pfx)) w) := by
  have here : n < Nat.min last (s.rowStart ew (r + 1)) := Nat.lt_min.mpr ⟨below, row⟩
  have stands : Nat.max (s.rowStart ew r) s.hart.vstart = n := stands
  have ended : exec i (s.onHart fun h => { h with cut := some n }) = .next t := ended
  have retired : s.retiredIn (t.onHart fun h => { h with cut := none }) (if pfx then 8#64 else 4#64) = true := retired
  simp only [State.perform, State.runStopped, fq, State.runVoted, course, stands, here, State.runTo, ended, retired]
  rfl

/-- R145: three runs disagree at a row of an instruction that is discarded whole. -/
theorem State.perform_lanes_whole {s t : State} {i : Instr} {w : IWord} {pfx : Bool} {r ew : Nat} {single : Bool} (fq : s.hart.fq = .none)
    (course : s.course i = .whole ew single) (row : s.rowStart ew r < s.hart.vl) (ended : exec i s = .next t)
    (retired : s.retiredIn t (if pfx then 8#64 else 4#64) = true) :
    s.perform i w pfx (some (.lanes r)) = .next (s.countRows
      ((s.setVstart (if single then max (s.rowStart ew r) s.hart.vstart else 0)).takeTrap (silentError r pfx)) w) := by
  simp only [State.perform, State.runStopped, fq, State.runVoted, course, row, State.runDiscarded, ended, retired]
  rfl

/-- The state with the errors of a matrix checksum that disagreed twice logged, and its quarter marked (R179, R387). -/
def State.checksumTwice (s : State) (q : BitVec 2) : State :=
  ((s.logChecksum s.myHall s.myCluster s.myHart q).logChecksum s.myHall s.myCluster s.myHart q).markQuarter s.myHall s.myCluster q.toNat

theorem State.perform_macs {s t : State} {i : Instr} {w : IWord} {pfx : Bool} {q : BitVec 2} (fq : s.hart.fq = .none)
    (course : s.course i = .array) (ended : exec i s = .next t) (retired : s.retiredIn t (if pfx then 8#64 else 4#64) = true) :
    s.perform i w pfx (some (.macs q))
      = .next (s.countRows (((s.checksumTwice q).setVstart 0).takeTrap (silentError 0 pfx)) w) := by
  simp only [State.perform, State.runStopped, fq, State.runArray, course, State.runDiscarded, ended, retired]
  rfl

theorem setBit_quarter (m : BitVec 4) (q : BitVec 2) : setBit m q.toNat true = m ||| BitVec.ofNat 4 (2 ^ q.toNat) := by
  revert m q; decide

theorem State.checksumTwice_marks (s : State) (q : BitVec 2) :
    let x := (s.hall s.myHall).cluster s.myCluster
    ClusterTo s (s.checksumTwice q) s.myHall s.myCluster { x with mapart := x.mapart ||| BitVec.ofNat 4 (2 ^ q.toNat) } := by
  intro x
  let log (t : State) := t.logChecksum s.myHall s.myCluster s.myHart q
  have logged : ClusterTo s (log (log s)) s.myHall s.myCluster x := ((ClusterTo.refl s _ _).logError _ _).logError _ _
  have marked := (log (log s)).markQuarter_cluster s.myHall s.myCluster q.toNat
  rw [logged.here] at marked
  rw [← setBit_quarter]
  exact logged.trans marked

theorem silentErrors : SilentErrors := by
  intro s r q h c hart lane synd s' next x among
  refine ⟨fun u p w i runs unlost fq fetched dec => ?_, lane_charged, checksum_logged, register_corrected⟩
  intro v len answered trapped
  have same : u.hart = s'.hart := by rw [← s'.fetch_hart, fetched]
  have unanswered : v.hart.fq = .none := (congrArg Hart.fq same).trans fq
  have pc : v.hart.pc = s'.hart.pc := (congrArg Hart.pc same :)
  have stepped (stop : Option Stop) (turn : next (.turn stop)) : step s = andTick (v.perform i w p.isSome stop) :=
    step_of_words_stop s u stop p w i turn runs unlost fetched dec
  refine ⟨fun turn ew last course => ?_, fun turn ew single course row t ended retired takes => ?_,
    fun turn course t ended retired takes => ?_⟩
  · intro n below row t ended retired takes
    obtain ⟨mode, handler, free⟩ := takes
    let a := v.standAt { t with hart := { t.hart with cut := none } } n
    obtain ⟨-, after, -, vector, entered⟩ := silentError_taken v a w r p.isSome mode handler free
    refine ⟨(v.countRows (a.takeTrap (silentError r p.isSome)) w).tick, ?_, ?_⟩
    · rw [stepped _ turn, State.perform_lanes_rows unanswered course rfl below row ended retired]
      rfl
    · simp only [trapped, after]
      exact ⟨⟨rfl, rfl, vector, pc ▸ entered⟩, rfl, rfl⟩
  · obtain ⟨mode, handler, free⟩ := takes
    let a := v.setVstart (if single then max (v.rowStart ew r) v.hart.vstart else 0)
    obtain ⟨-, after, mem, vector, entered⟩ := silentError_taken v a w r p.isSome mode handler free
    refine ⟨(v.countRows (a.takeTrap (silentError r p.isSome)) w).tick, ?_, ?_⟩
    · rw [stepped _ turn, State.perform_lanes_whole unanswered course row ended retired]
      rfl
    · simp only [trapped, State.g, SameMem, after, mem]
      exact ⟨⟨rfl, rfl, vector, pc ▸ entered⟩, rfl, rfl, fun _ => rfl, fun _ => rfl⟩
  · obtain ⟨mode, handler, free⟩ := takes
    have marked := v.checksumTwice_marks q
    obtain ⟨quiet, kept, -⟩ := marked.1.quiet
    let a := (v.checksumTwice q).setVstart 0
    have hart : a.hart = { v.hart with vstart := 0 } := congrArg (fun y : Hart => { y with vstart := 0 }) kept
    have taken := silentError_taken v a w 0 p.isSome (by rw [hart]; exact mode) (by rw [hart]; exact handler) (by rw [hart]; exact free)
    obtain ⟨trap, after, mem, vector, entered⟩ := taken
    refine ⟨(v.countRows (a.takeTrap (silentError 0 p.isSome)) w).tick, ?_, ?_, ?_, fun b => ?_, ?_⟩
    · rw [stepped _ turn, State.perform_macs unanswered course ended retired]
      rfl
    · rw [hart] at vector entered
      simp only [trapped, after]
      exact ⟨rfl, rfl, vector, pc ▸ entered⟩
    · rw [after]
      exact (congrArg Hart.z hart :)
    · rw [mem]
      exact quiet b
    · rw [State.tick_cluster Cluster.mapart fun _ _ => rfl, State.countRows_cluster Cluster.mapart fun _ _ => rfl, trap]
      exact congrArg Cluster.mapart marked.here

/-- Settles O59: marks and logs by what each change of one cluster leaves (`ClusterTo`), memory errors by what they strike
(`State.spoil_memory`, `State.spoil_scratchpad`), a killed unit by the log that it leaves alone (`State.killUnit_errorView`), and silent errors by
what the schedule makes of one turn (`State.perform_lanes_rows` and its siblings). -/
theorem reliabilityEvents : Obligations.ReliabilityEvents := ⟨marksScrubbingAndErrors, silentErrors⟩

end Sys2Proof.Machine

/-! # Moving elements between indices (R146 to R148) -/

namespace Sys2Proof.Machine

/-! ## Elements that receive one -/

/-- A move that the check of R147 stops. -/
theorem State.crosses_iff (s : State) (crossing : Bool) (sel : BitVec 3) (d : VOpd) (src : Source) (lowest : Nat) :
    (crossing && s.crosses sel d src lowest) = true ↔ crossing = true ∧ ∃ e j, s.hart.vstart ≤ e ∧ lowest ≤ e ∧ e < s.hart.vl
      ∧ s.active sel (s.perPos d) e = true ∧ src e = some j ∧ j / s.perPos d ≠ e / s.perPos d := by
  rw [Bool.and_eq_true]
  simp only [State.crosses, State.toVl, List.any_eq_true, mem_upTo, Bool.and_eq_true, decide_eq_true_eq]
  refine and_congr_right fun _ => exists_congr fun e => ?_
  cases src e with
  | none => simp
  | some j =>
    simp only [Option.map_some, Option.getD_some, bne_iff_ne, Option.some.injEq, exists_and_left, exists_eq_left']
    tauto

/-- What `moveOp` does once its checks have passed. -/
def State.moved (s : State) (p : Option Pfx) (m : BitVec 3) (d a : VOpd) (lowest : Nat) (unk : Nat → Bool) (src : Source) : State :=
  ((s.range.filter (lowest ≤ ·)).foldl (s.elementStep (s.maskSel p m) (s.zeroing p) (s.perPos d) (.vec d)
    (fun e => unk e || ((src e).map (s.elemUnknown a)).getD false) fun e => (((src e).map (s.elem a)).getD 0, 0#5)) s).setVstart 0

theorem State.moved_keeps (s : State) (p : Option Pfx) (m : BitVec 3) (d a : VOpd) (lowest : Nat) (unk : Nat → Bool) (src : Source) :
    s.Keeps (s.moved p m d a lowest unk src) :=
  (State.foldl_keeps _ (s.elementStep_keeps _ _ _ _ _ _) _ s).trans (State.setVstart_keeps _ 0)

/-- Out of run-ahead each element at or above the lowest receives its source, or 0 where it has none. -/
theorem State.moved_known (s : State) (p : Option Pfx) (m : BitVec 3) (d a : VOpd) (lowest : Nat) (unk : Nat → Bool) (src : Source)
    (uncut : s.hart.cut = none) (ra : s.ra = none) (known : ∀ e, unk e = false) :
    s.moved p m d a lowest unk src = rangeDone s fun t e =>
      if e < lowest then t
      else if s.active (s.maskSel p m) (s.perPos d) e then t.setElem d e (match src e with | some j => s.elem a j | none => 0)
      else if s.zeroing p then t.setElem d e 0 else t := by
  rw [State.moved, s.range_uncut uncut, List.foldl_filter]
  refine congrArg (fun f => ((upTo s.hart.vstart s.hart.vl).foldl f s).setVstart 0) (funext₂ fun t e => ?_)
  have place : (unk e || ((src e).map (s.elemUnknown a)).getD false) = false := by
    rw [known]
    cases src e with
    | none => rfl
    | some j => exact s.elemUnknown_known ra a j
  have value : ((src e).map (s.elem a)).getD 0 = match src e with | some j => s.elem a j | none => 0 := by
    cases src e <;> rfl
  by_cases low : e < lowest
  · rw [if_pos low, if_neg (by simpa using low)]
  · rw [if_neg low, if_pos (by simpa using low)]
    simp only [State.elementStep, s.activeUnknown_known ra, place, value, State.orVstat_none, Bool.false_eq_true, if_false]
    rfl

/-- The checks of `moveOp`, and then its effect. -/
theorem moveOp_eq {p : Option Pfx} {m : BitVec 3} {d a : BitVec 5} {more : List VOpd} {ok : Bool} {s : State} (crossing : Bool)
    (lowest : Nat) (unk : Nat → Bool) (src : Source)
    (checks : VecOk s ok [vreg d (typeWidth (s.vtype p))] (vreg a (typeWidth (s.vtype p)) :: more) true) :
    moveOp p m d a more ok crossing lowest unk src s =
      if crossing && s.crosses (s.maskSel p m) (vreg d (typeWidth (s.vtype p))) src lowest then
        .next (s.takeTrap { code := 17, pfx := p.isSome })
      else finish p (.ok (s.moved p m (vreg d (typeWidth (s.vtype p))) (vreg a (typeWidth (s.vtype p))) lowest unk src)) := by
  refine (checks.finish_checked p _).trans ?_
  cases crossing && s.crosses (s.maskSel p m) (vreg d (typeWidth (s.vtype p))) src lowest <;> rfl

/-! ## VSLUP by an unknown number -/

/-- Run-ahead that does not know the number loses the destination, and completes (R327). -/
theorem State.loseMove_completes {i : Instr} {p : Option Pfx} {d a : BitVec 5} {s : State} (run : exec i s = s.loseMove p d a)
    (checks : VecOk s (anyType (s.vtype p)) [vreg d (typeWidth (s.vtype p))] [vreg a (typeWidth (s.vtype p))] true) :
    CompletesInRegisters i p s := by
  have keeps := State.foldl_keeps (fun (t : State) e => t.noteElem (vreg d (typeWidth (s.vtype p))) e true)
    (fun t e => t.noteElem_keeps _ e true) s.range s
  rw [CompletesInRegisters, run.trans (checks.finish_checked p _)]
  exact finish_completes p (keeps.trans (State.setVstart_keeps _ 0)) rfl

/-! ## VXCHG -/

/-- The position that VXCHG names, from the bits of g[b] (Table 8.4). -/
theorem xchg_position (x : Word) (q n : Nat) :
    (if x.getLsbD 3 then (q ^^^ fieldNat x 0 3) % n else (q + fieldNat x 0 3) % n)
      = if x.toNat / 8 % 2 = 1 then Nat.xor q (x.toNat % 8) % n else (q + x.toNat % 8) % n := by
  have step : fieldNat x 0 3 = x.toNat % 8 := by rw [fieldNat, BitVec.extractLsb'_toNat, Nat.shiftRight_zero]
  have mode : x.getLsbD 3 = true ↔ x.toNat / 8 % 2 = 1 := by
    rw [BitVec.getLsbD, Nat.testBit_eq_decide_div_mod_eq, decide_eq_true_eq]
  rw [step]
  exact if_congr mode rfl rfl

/-! ## VPACK -/

theorem upTo_succ {lo hi : Nat} (le : lo ≤ hi) : upTo lo (hi + 1) = upTo lo hi ++ [hi] := by
  rw [upTo_split le (Nat.lt_succ_self hi)]
  simp [upTo]

/-- The place to which VPACK moves element e: the number of active elements before it. -/
def State.packPlace (s : State) (sel : BitVec 3) (per e : Nat) : Nat := (List.range e).countP fun i => s.active sel per i

theorem State.packPlace_succ (s : State) (sel : BitVec 3) (per e : Nat) :
    s.packPlace sel per (e + 1) = s.packPlace sel per e + if s.active sel per e then 1 else 0 := by
  rw [State.packPlace, List.range_succ, List.countP_append, List.countP_singleton]
  rfl

theorem State.packStep_keeps (s : State) (sel : BitVec 3) (d a : VOpd) (r : State × Nat × Bool) (e : Nat) :
    r.1.Keeps (s.packStep sel d a r e).1 := by
  unfold State.packStep
  dsimp only
  repeat' split
  all_goals exact ⟨rfl, rfl⟩

theorem State.packed_keeps (s : State) (sel : BitVec 3) (d a : VOpd) (l : List Nat) (r : State × Nat × Bool) :
    r.1.Keeps (l.foldl (s.packStep sel d a) r).1 := by
  induction l generalizing r with
  | nil => exact .refl r.1
  | cons e l ih => exact (s.packStep_keeps ..).trans (ih _)

/-- Out of run-ahead the elements from VSTART to n − 1 go to their places, in order. -/
theorem State.packed_known (s : State) (ra : s.ra = none) (sel : BitVec 3) (d a : VOpd) (lo n : Nat) (le : lo ≤ n) :
    (upTo lo n).foldl (s.packStep sel d a) (s, s.packPlace sel (s.perPos a) lo, false)
      = ((upTo lo n).foldl (fun t e => if s.active sel (s.perPos a) e then t.setElem d (s.packPlace sel (s.perPos a) e) (s.elem a e)
          else t) s, s.packPlace sel (s.perPos a) n, false) := by
  induction n, le using Nat.le_induction with
  | base => simp [upTo]
  | succ n le ih =>
    rw [upTo_succ le, List.foldl_append, List.foldl_append, ih, s.packPlace_succ]
    simp only [List.foldl_cons, List.foldl_nil, State.packStep, s.activeUnknown_known ra, s.elemUnknown_known ra]
    cases s.active sel (s.perPos a) n <;> rfl

/-- A move of VPACK that the check of R147 stops. -/
theorem State.packMoves_cross (s : State) (sel : BitVec 3) (per : Nat) :
    ((s.packMoves sel per).any fun m => m.1 / per != m.2 / per) = true ↔
      ∃ e, s.hart.vstart ≤ e ∧ e < s.hart.vl ∧ s.active sel per e = true ∧ s.packPlace sel per e / per ≠ e / per := by
  simp only [State.packMoves, State.toVl, List.any_map, List.any_filter, List.any_eq_true, mem_upTo, Bool.and_eq_true, and_assoc,
    Function.comp_apply, bne_iff_ne, State.packPlace]

theorem vpack_moves (o : VOp2) (s : State) :
    let w := typeWidth (s.vtype o.pfx)
    let d := vreg o.d w
    let per := s.perPos (vreg o.a w)
    let act e := s.active (s.maskSel o.pfx o.msk) per e
    let place e := (List.range e).countP fun i => act i
    VecOk s (anyType (s.vtype o.pfx)) [d] [vreg o.a w] true →
      ((∀ e, s.hart.vstart ≤ e → e < s.hart.vl → act e = true → place e / per = e / per) →
        (s.ra = none → exec (.vpack o) s = .next ((rangeDone s fun t e =>
          if act e then t.setElem d (place e) (s.elem (vreg o.a w) e) else t).retire (pfxLen o.pfx)))
        ∧ CompletesInRegisters (.vpack o) o.pfx s)
      ∧ ((∃ e, s.hart.vstart ≤ e ∧ e < s.hart.vl ∧ act e = true ∧ place e / per ≠ e / per) →
        exec (.vpack o) s = .next (s.takeTrap { code := 17, pfx := o.pfx.isSome })) := by
  intro w d per act place checks
  let sel := s.maskSel o.pfx o.msk
  let packed := ((s.range.foldl (s.packStep sel d (vreg o.a w)) (s, s.packPlace sel per s.hart.vstart, false)).1).setVstart 0
  have effect : exec (.vpack o) s = if (s.packMoves sel per).any fun m => m.1 / per != m.2 / per then
      .next (s.takeTrap { code := 17, pfx := o.pfx.isSome }) else finish o.pfx (.ok packed) := by
    refine (checks.finish_checked o.pfx _).trans ?_
    show finish o.pfx (require (!(s.packMoves sel per).any fun m => m.1 / per != m.2 / per) crossingTrap s >>= _) = _
    cases (s.packMoves sel per).any fun m => m.1 / per != m.2 / per <;> rfl
  refine ⟨fun stays => ?_, fun crosses => effect.trans (if_pos ((s.packMoves_cross sel per).mpr crosses))⟩
  have done := effect.trans (if_neg fun crosses => by
    obtain ⟨e, lo, hi, on, other⟩ := (s.packMoves_cross sel per).mp crosses
    exact other (stays e lo hi on))
  refine ⟨fun ra => ?_, ?_⟩
  · have elements : packed = rangeDone s fun t e => if act e then t.setElem d (place e) (s.elem (vreg o.a w) e) else t := by
      show State.setVstart _ 0 = State.setVstart _ 0
      rw [s.range_uncut checks.2.2.2]
      rcases Nat.le_total s.hart.vstart s.hart.vl with le | ge
      · rw [s.packed_known ra sel d (vreg o.a w) _ _ le]
        rfl
      · simp [upTo, Nat.sub_eq_zero_of_le ge]
    rw [done, elements]
    rfl
  · rw [CompletesInRegisters, done]
    exact finish_completes o.pfx ((s.packed_keeps ..).trans (State.setVstart_keeps _ 0)) rfl

/-- Settles O24: each instruction of Table 8.4 but VPACK gives every destination element its source (`moveOp_eq`,
`State.moved_known`); VPACK, which counts the active elements as it goes, puts each where that count says (`State.packed_known`). -/
theorem vectorMovesBetweenElements : Obligations.VectorMovesBetweenElements := by
  intro s moves num
  have move {i : Instr} {p : Option Pfx} {m : BitVec 3} {d a : BitVec 5} {more : List VOpd} {ok : Bool} (crossing known : Bool)
      (lowest : Nat) (unk : Nat → Bool) (src : Source) (clear : s.ra = none → ∀ e, unk e = false)
      (run : exec i s = moveOp p m d a more ok crossing lowest unk src s) : moves i p m d a more ok crossing known lowest src := by
    intro checks
    have effect := run.trans (moveOp_eq crossing lowest unk src checks)
    have stops := s.crosses_iff crossing (s.maskSel p m) (vreg d (typeWidth (s.vtype p))) src lowest
    refine ⟨fun stays => ?_, fun crossing _ crosses => effect.trans (if_pos (stops.mpr ⟨crossing, crosses⟩))⟩
    have done := effect.trans (if_neg (mt stops.mp stays))
    refine ⟨fun ra => ?_, ?_⟩
    · rw [done, s.moved_known p m _ _ lowest unk src checks.2.2.2 ra (clear ra)]
      rfl
    · rw [CompletesInRegisters, done]
      exact finish_completes p (s.moved_keeps ..) rfl
  refine ⟨fun p d a b x m => ?_, fun p d a b x m => move true true 0 _ _ (fun ra _ => s.gUnknown_known ra b) rfl,
    fun o => move true true 0 _ _ (fun ra => s.elemUnknown_known ra _) rfl, fun o => move true true 0 _ _ (fun _ _ => rfl) rfl,
    fun o => move true true 0 _ _ (fun ra e => by simp [s.activeUnknown_known ra]) rfl, fun p d a b x m => ?_, fun o => vpack_moves o s⟩
  · cases unknown : s.gUnknown b with
    | false => exact move true true (num b) (fun _ => false) _ (fun _ _ => rfl) (if_neg (Bool.eq_false_iff.mp unknown))
    | true =>
      intro checks
      have run : exec (.vslup p d a b x m) s = s.loseMove p d a := if_pos unknown
      refine ⟨fun _ => ⟨fun ra => ?_, State.loseMove_completes run checks⟩, fun _ known => absurd known Bool.false_ne_true⟩
      rw [s.gUnknown_known ra] at unknown
      exact absurd unknown Bool.false_ne_true
  · intro per step at'
    refine move false true 0 (fun _ => s.gUnknown b) _ (fun ra _ => s.gUnknown_known ra b) ?_
    show moveOp p m d a [] _ false 0 _ _ s = moveOp p m d a [] _ false 0 _ _ s
    refine congrArg (fun src => moveOp p m d a [] _ false 0 _ src s) (funext fun e => ?_)
    simp only [xchg_position]
    rfl

end Sys2Proof.Machine

/-! # Mask instructions (R149) -/

namespace Sys2Proof.Machine

/-! ## Results in a mask register -/

/-- An instruction whose effect is that of R120 on a destination, and that is left nowhere. -/
theorem elementwise_completes {i : Instr} {p : Option Pfx} {m : BitVec 3} {s : State} {per : Nat} {d : VDst} {unk : Nat → Bool}
    {op : Nat → Nat × Flags} (uncut : s.hart.cut = none) (known : s.ra = none → ∀ e, unk e = false)
    (run : exec i s = finish p (.ok (s.elementwise (s.maskSel p m) (s.zeroing p) per d unk op))) :
    (s.ra = none → exec i s = .next ((elementsDone s p m per (·.putDst d) op).retire (pfxLen p))) ∧ CompletesInRegisters i p s := by
  refine ⟨fun ra => ?_, ?_⟩
  · rw [run, s.elementwise_known p m per d unk op uncut ra (known ra)]
    rfl
  · rw [CompletesInRegisters, run]
    exact finish_completes p (s.elementwise_keeps ..) rfl

/-- What the result is matters at active elements only. -/
theorem elementsDone_congr {s : State} {p : Option Pfx} {m : BitVec 3} {per : Nat} (put : State → Nat → Nat → State)
    {f g : Nat → Nat × Flags} (same : ∀ e, s.active (s.maskSel p m) per e = true → f e = g e) :
    elementsDone s p m per put f = elementsDone s p m per put g := by
  refine congrArg (rangeDone s) (funext₂ fun t e => ?_)
  by_cases on : s.active (s.maskSel p m) per e = true
  · rw [same e on]
  · rw [if_neg on, if_neg on]

/-! ## The bitwise instructions -/

theorem bit_ne_zero (b : Bool) : (bit b != 0) = b := by cases b <;> rfl

/-- No mask governs a bitwise instruction: it writes every bit. -/
theorem State.elementwise_bits (s : State) (r : BitVec 3) (per : Nat) (unk f : Nat → Bool) (uncut : s.hart.cut = none)
    (known : ∀ e, unk e = false) :
    s.elementwise 0#3 false per (.mask r per) unk (fun e => (bit (f e), 0#5)) = rangeDone s fun t e => t.setMaskBit r per e (f e) := by
  rw [State.elementwise, s.range_uncut uncut]
  refine congrArg (fun f => ((upTo s.hart.vstart s.hart.vl).foldl f s).setVstart 0) (funext₂ fun t e => ?_)
  show (if unk e then t.loseDst (.mask r per) e else (t.setMaskBit r per e (bit (f e) != 0)).orVstat 0#5) = _
  rw [known, if_neg Bool.false_ne_true, State.orVstat_none, bit_ne_zero]

theorem maskLogic_writes {i : Instr} {p : Option Pfx} {s : State} {d : BitVec 3} (srcs : List (BitVec 3)) (f : Nat → Bool)
    (uncut : s.hart.cut = none) (run : exec i s = maskLogic p d srcs f s) :
    (s.ra = none → exec i s = .next ((rangeDone s fun t e => t.setMaskBit d s.maskPer e (f e)).retire (pfxLen p)))
    ∧ CompletesInRegisters i p s := by
  refine ⟨fun ra => ?_, ?_⟩
  · have known e : (srcs.any fun r => s.maskUnknown r s.maskPer e) = false := by simp [s.maskUnknown_known ra]
    rw [run, maskLogic, s.elementwise_bits d s.maskPer _ f uncut known]
    rfl
  · rw [CompletesInRegisters, run]
    exact finish_completes p (s.elementwise_keeps ..) rfl

/-! ## Counting and finding -/

/-- The active elements whose bit is set, of the active ones. -/
theorem State.setActives_eq (s : State) (p : Option Pfx) (a m : BitVec 3) :
    s.setActives (s.maskSel p m) a = (activeBelow s p m s.maskPer s.hart.vl).filter fun e => s.maskBit a s.maskPer e := by
  rw [activeBelow_vl, State.actives, List.filter_filter, State.setActives]
  simp only [State.mbit, Bool.and_comm]

/-- A result in g[d] retires; VSTART is 0. -/
theorem maskScalar_result {i : Instr} {p : Option Pfx} {d : BitVec 5} {a m : BitVec 3} {s : State} (f : List Nat → Word) (v : Word)
    (run : exec i s = maskScalar p d a m f s)
    (value : f ((activeBelow s p m s.maskPer s.hart.vl).filter fun e => s.maskBit a s.maskPer e) = v) :
    ∃ t, exec i s = .next t ∧ (∀ k, t.g k = if k = d ∧ k ≠ 0#5 then v else s.g k)
      ∧ t.hart = { s.hart with g := t.hart.g, pc := s.hart.pc + pfxLen p, transfer := false, vstart := 0 } ∧ SameMem s t := by
  rw [maskScalar, s.setActives_eq, value] at run
  let u := ((s.setG d v).noteG d (s.setUnknown (s.maskSel p m) a)).setVstart 0
  have hart : u.hart = { s.hart with g := u.hart.g, vstart := 0 } :=
    congrArg (fun h : Hart => { h with g := (s.setG d v).hart.g, vstart := 0 }) (s.setG_hart_rest d v)
  refine ⟨_, run, fun k => ?_, ?_, fun k => ?_⟩
  · exact (u.retire_g _ k).trans (s.setG_g d v k)
  · show (u.retire (pfxLen p)).hart = _
    rw [u.retire_hart, hart]
  · rw [State.retire_mem]
    exact congrArg (Memory.read · k) (s.setG_mem d v)

/-! ## MSBF -/

/-- At an active element e: no active element up to e has its bit set. -/
theorem State.msbf_eq (s : State) (sel a : BitVec 3) (per e : Nat) (on : s.active sel per e = true) :
    bit (!s.maskBit a per e && !(List.range e).any fun i => s.active sel per i && s.maskBit a per i)
      = if ∀ i ≤ e, s.active sel per i = true → s.maskBit a per i = true → False then 1 else 0 := by
  refine if_congr ?_ rfl rfl
  simp only [Bool.and_eq_true, Bool.not_eq_true', List.any_eq_false, List.mem_range]
  constructor
  · rintro ⟨here, before⟩ i below act set
    rcases Nat.lt_or_eq_of_le below with lt | rfl
    · exact before i lt ⟨act, set⟩
    · exact Bool.eq_false_iff.mp here set
  · intro none
    exact ⟨Bool.eq_false_iff.mpr (none e le_rfl on), fun i lt both => none i lt.le both.1 both.2⟩

/-- Settles O25: the bitwise instructions write every bit (`maskLogic_writes`), MPOP and MFIRST read the active elements whose bit is set
(`State.setActives_eq`), and the others have the effect of R120 on a mask register or on a vector. -/
theorem maskInstructions : Obligations.MaskInstructions := by
  intro p s uncut per set logic on scalar
  have bits (i : Instr) (d : BitVec 3) (srcs : List (BitVec 3)) (f : Nat → Bool) (run : exec i s = maskLogic p d srcs f s) :
      logic i d f := maskLogic_writes srcs f uncut run
  refine ⟨fun d a b => ⟨bits _ d [a, b] _ rfl, bits _ d [a, b] _ rfl, bits _ d [a, b] _ rfl, bits _ d [a, b] _ rfl, bits _ d [a] _ rfl,
    bits _ d [] _ rfl, bits _ d [] _ rfl⟩, fun d a m => ⟨?_, ?_⟩, fun d a x m => ?_, fun d a m => ?_, fun d a m => ?_⟩
  · exact maskScalar_result (fun l => BitVec.ofNat 64 l.length) _ rfl (congrArg (BitVec.ofNat 64) List.countP_eq_length_filter.symm)
  · refine maskScalar_result (fun l => match l with | e :: _ => BitVec.ofNat 64 e | [] => BitVec.allOnes 64) _ rfl ?_
    rw [← List.head?_filter]
    cases (on m).filter (set a) <;> rfl
  · intro o checks
    have op : (fun e => (bit (s.elem o e != 0), (0#5 : Flags))) = fun e => (if s.elem o e = 0 then 0 else 1, 0#5) := by
      funext e
      by_cases zero : s.elem o e = 0 <;> simp [zero, bit]
    have run : exec (.mfromv p d a x m) s = finish p (.ok (s.elementwise (s.maskSel p m) (s.zeroing p) (s.perPos o)
        (.mask d (s.perPos o)) (s.elemUnknown o) fun e => (bit (s.elem o e != 0), 0#5))) := checks.finish_checked p _
    rw [← op]
    exact elementwise_completes (d := .mask d (s.perPos o)) uncut (fun ra => s.elemUnknown_known ra o) run
  · intro o checks
    have run : exec (.mtov p d a m) s = finish p (.ok (s.elementwise (s.maskSel p m) (s.zeroing p) (s.perPos o) (.vec o)
        (s.maskUnknown a (s.perPos o)) fun e => (bit (s.maskBit a (s.perPos o) e), 0#5))) := checks.finish_checked p _
    exact elementwise_completes (d := .vec o) uncut (fun ra => s.maskUnknown_known ra a _) run
  · let unk (e : Nat) := (List.range (e + 1)).any fun i =>
      s.activeUnknown (s.maskSel p m) per i || (s.active (s.maskSel p m) per i && s.maskUnknown a per i)
    have known (ra : s.ra = none) (e : Nat) : unk e = false := by
      simp [unk, s.activeUnknown_known ra, s.maskUnknown_known ra]
    have run : exec (.msbf p d a m) s = finish p (.ok (s.elementwise (s.maskSel p m) (s.zeroing p) per (.mask d per) unk
        fun e => (bit (!s.maskBit a per e && !(List.range e).any fun i => s.active (s.maskSel p m) per i && s.maskBit a per i),
          0#5))) := rfl
    rw [← elementsDone_congr _ fun e act => congrArg (·, 0#5) (s.msbf_eq (s.maskSel p m) a per e act)]
    exact elementwise_completes (d := .mask d per) uncut known run

end Sys2Proof.Machine
